-- ==== Sys2Proof/Word.lean ====
section
/-! DEFINITION. The word types of the device: bytes, register words, 64-bit values, 257-bit line blocks. -/

namespace Sys2Proof

/-- One byte of a frame, a memory or a record. -/
abbrev Byte := BitVec 8

/-- A byte string, first byte first. -/
abbrev Bytes := List Byte

/-- A 32-bit register word (00 R4). -/
abbrev Word := BitVec 32

/-- A 64-bit value: a Glonik register or a two-word register. -/
abbrev DWord := BitVec 64

/-- A 257-bit transcoded block (03 R74): bit b0 is the most significant bit, b256 the least. -/
abbrev Block := BitVec 257

end Sys2Proof
end

