-- ==== Sys2Proof/Machine/Bits.lean ====
section
/-! DEFINITION. Bit fields, byte orders and small list helpers that every chapter's meaning uses. -/

namespace Sys2Proof.Machine

/-- Bits [hi:lo] of a number (00 Notation). -/
def fld (v hi lo : Nat) : Nat := v / 2 ^ lo % 2 ^ (hi + 1 - lo)

/-- Bit `i` of a number. -/
def bitAt (v i : Nat) : Bool := v / 2 ^ i % 2 == 1

/-- `v` placed at bit `lo`. -/
def at_ (v lo : Nat) : Nat := v * 2 ^ lo

/-- The offset of `addr` in a range that starts at `base` (0 below it). -/
def offFrom (base addr : Nat) : Nat := ((addr : Int) - base).toNat

/-- Set or clear bit `i` of a number. -/
def setBit (v i : Nat) (b : Bool) : Nat := v - (if bitAt v i then 2 ^ i else 0) + (if b then 2 ^ i else 0)

/-- Replace bits [lo + n - 1 : lo] of a number. -/
def setFld (v lo n x : Nat) : Nat := v - fld v (lo + n - 1) lo * 2 ^ lo + x % 2 ^ n * 2 ^ lo

/-- The 32-bit low word. -/
def lo32 (v : Nat) : Nat := v % 2 ^ 32

/-- The high word of a 64-bit value. -/
def hi32 (v : Nat) : Nat := v / 2 ^ 32 % 2 ^ 32

/-- A counter stops at all ones (02 R64). -/
def sat64 (v : Nat) : Nat := Nat.min v (2 ^ 64 - 1)

/-- `n` bytes of a number, most significant first (00 R4). -/
def be : Nat → Nat → Bytes
  | 0, _ => []
  | n + 1, v => BitVec.ofNat 8 (v / 256 ^ n) :: be n v

/-- `n` bytes of a number, least significant first. -/
def le : Nat → Nat → Bytes
  | 0, _ => []
  | n + 1, v => BitVec.ofNat 8 v :: le n (v / 256)

/-- The number that a byte string spells, most significant byte first. -/
def ofBe (b : Bytes) : Nat := b.foldl (fun a x => a * 256 + x.toNat) 0

/-- The number that a byte string spells, least significant byte first. -/
def ofLe : Bytes → Nat
  | [] => 0
  | x :: b => x.toNat + 256 * ofLe b

/-- Byte `i` of a string, 0 beyond its end. -/
def byteAt (b : Bytes) (i : Nat) : Nat := (b.getD i 0).toNat

/-- `n` bytes of a string from offset `i`. -/
def sub_ (b : Bytes) (i n : Nat) : Bytes := (b.drop i).take n

/-- Network-order field of `n` bytes at offset `i`. -/
def beAt (b : Bytes) (i n : Nat) : Nat := ofBe (sub_ b i n)

/-- Little-endian field of `n` bytes at offset `i`. -/
def leAt (b : Bytes) (i n : Nat) : Nat := ofLe (sub_ b i n)

/-- `n` zero bytes. -/
def zeros (n : Nat) : Bytes := List.replicate n 0

/-- A string cut or filled with zero bytes to `n` bytes. -/
def fit (n : Nat) (b : Bytes) : Bytes := (b ++ zeros (n - b.length)).take n

/-- Bytewise exclusive or, to the length of the shorter. -/
def xorB (a b : Bytes) : Bytes := List.zipWith (· ^^^ ·) a b

/-- Cut a string into pieces of `n` bytes, the last one shorter; `fuel` bounds their number. -/
def chunks (n : Nat) : Nat → Bytes → List Bytes
  | 0, _ => []
  | _, [] => []
  | f + 1, b => b.take n :: chunks n f (b.drop n)

/-- Every piece of `n` bytes of a string. -/
def pieces (n : Nat) (b : Bytes) : List Bytes := chunks n (b.length / n + 1) b

/-- The value of a list at `i`, or a default. -/
def nth {α : Type} (d : α) (l : List α) (i : Nat) : α := l.getD i d

/-- ASCII bytes of a string. -/
def ascii (s : String) : Bytes := s.toList.map (fun c => BitVec.ofNat 8 c.toNat)

/-- A signed number as an `n`-bit two's complement value. -/
def twos (n : Nat) (i : Int) : Nat := (i % (2 : Int) ^ n).toNat

/-- The signed value of an `n`-bit two's complement number. -/
def signed (n v : Nat) : Int := if v % 2 ^ n < 2 ^ (n - 1) then (v % 2 ^ n : Int) else (v % 2 ^ n : Int) - 2 ^ n

/-- Number of one bits among the low `n`. -/
def popN : Nat → Nat → Nat
  | 0, _ => 0
  | n + 1, v => v % 2 + popN n (v / 2)

/-- The ceiling of a quotient. -/
def ceilDiv (a b : Nat) : Nat := (a + b - 1) / b

/-- Replace element `i` of a list. -/
def setAt {α : Type} (l : List α) (i : Nat) (v : α) : List α := l.set i v

/-- The reflected CRC of a byte string, bit by bit (02 R44, 03 R75). -/
def crcByte (poly : Nat) : Nat → Nat → Nat
  | 0, c => c
  | n + 1, c => crcByte poly n (if c % 2 = 1 then (c / 2) ^^^ poly else c / 2)

/-- The FCS of IEEE 802.3: polynomial 0x04C11DB7 reflected, sent least significant byte first. -/
def crc32 (b : Bytes) : Nat := (b.foldl (fun c x => crcByte 0xEDB88320 8 (c ^^^ x.toNat)) 0xFFFFFFFF) ^^^ 0xFFFFFFFF

/-- CRC-32C: polynomial 0x1EDC6F41 reflected, initial value and final exclusive or all ones. -/
def crc32c (b : Bytes) : Nat := (b.foldl (fun c x => crcByte 0x82F63B78 8 (c ^^^ x.toNat)) 0xFFFFFFFF) ^^^ 0xFFFFFFFF

end Sys2Proof.Machine
end

