-- ==== Sys2Proof/Machine/Operands.lean ====
section
/-! DEFINITION. Operands and words of Glonik instructions: immediates, the six formats, legal words (10 R277, R278, Tables 10-2 to 10-4 and 10-10). -/

namespace Sys2Proof.Machine

/-! ### Operands -/

/-- sext(imm16) (10 R277). -/
def simm (imm : Nat) : DWord := (BitVec.ofNat 16 imm).signExtend 64

/-- zext(imm16). -/
def zimm (imm : Nat) : DWord := (BitVec.ofNat 16 imm).setWidth 64

/-- 4 x sext(x) of an `n`-bit displacement. -/
def disp4 (n x : Nat) : DWord := 4 * (BitVec.ofNat n x).signExtend 64

/-- A displacement that points backwards. -/
def backward (n x : Nat) : Bool := (BitVec.ofNat n x).msb

/-- A value of `n` bytes read from memory, zero-extended or sign-extended (10 Table 10-3, R275). -/
def zbytes (b : Bytes) : DWord := BitVec.ofNat 64 (ofLe b)
def sbytes (b : Bytes) : DWord := BitVec.ofInt 64 (signed (8 * b.length) (ofLe b))

/-! ### The formats of Table 10-2 -/

/-- Format R. -/
def wordR (op rd ra rb func : Nat) : Nat := at_ op 26 + at_ (rd % 32) 21 + at_ (ra % 32) 16 + at_ (rb % 32) 11 + func

/-- Formats I and S; format B with its registers in these places. -/
def wordI (op rd ra imm : Nat) : Nat := at_ op 26 + at_ (rd % 32) 21 + at_ (ra % 32) 16 + imm % 2 ^ 16

/-- Format J. -/
def wordJ (op disp : Nat) : Nat := at_ op 26 + disp % 2 ^ 26

/-- Format D, OP 0x38. -/
def wordD (dop rd ra rb imm : Nat) : Nat :=
  at_ 0x38 26 + at_ (rd % 32) 21 + at_ (ra % 32) 16 + at_ (rb % 32) 11 + at_ dop 6 + imm % 64

/-- CSR, OP 0x30: the operation in imm16 [15:12], the register number below. -/
def wordCsr (kind rd ra num : Nat) : Nat := wordI 0x30 rd ra (at_ kind 12 + num % 4096)

/-- TRAP: OP 0x31, func 2, the code in bits [25:11]. -/
def wordTrap (code : Nat) : Nat := at_ 0x31 26 + at_ (code % 2 ^ 15) 11 + 2

/-- FENCE: OP 0x31, func 1. -/
def wordFence : Nat := wordR 0x31 0 0 0 1

/-! ### Legal words -/

/-- The numbers of Table 10-9. -/
def csrListed (n : Nat) : Bool :=
  decide (n ≤ 0x008) || (decide (0x010 ≤ n) && decide (n ≤ 0x012)) || (decide (0x020 ≤ n) && decide (n ≤ 0x02F)) || n == 0x040 || n == 0x041
    || (decide (0x050 ≤ n) && decide (n ≤ 0x05F)) || (decide (0x060 ≤ n) && decide (n ≤ 0x065))

/-- The read-only registers of Table 10-9: COREID, CYCLE, EVPEND, SMPSTAT. -/
def csrReadOnly (n : Nat) : Bool := n == 0x010 || n == 0x011 || n == 0x040 || n == 0x061

/-- The function codes of OP 0x00 and the fields they leave unused: CLZ, POPC and BSWAP take no rb. -/
def legalAlu (w : Nat) : Bool :=
  let f := fld w 10 0
  decide (f ≤ 0x014) || (decide (f ≤ 0x017) && fld w 15 11 == 0)

/-- SHI: imm16 [7:6] names a shift, [15:8] are 0. -/
def legalShift (w : Nat) : Bool := fld w 7 6 != 3 && fld w 15 8 == 0

/-- CSR: a listed number; no write of a read-only register from another register than g0 (10 R282). CSRR leaves ra unused. -/
def legalCsr (w : Nat) : Bool :=
  let kind := fld w 15 12
  let num := fld w 11 0
  csrListed num && (if kind = 0 then fld w 20 16 == 0 else decide (kind ≤ 3) && !(csrReadOnly num && fld w 20 16 != 0))

/-- SYS: ERET and FENCE have no operands, TRAP a code. -/
def legalSys (w : Nat) : Bool :=
  match fld w 10 0 with
  | 0 => fld w 25 11 == 0
  | 1 => fld w 25 11 == 0
  | 2 => true
  | _ => false

/-- DEV: the register and imm6 fields that each dop of Table 10-10 leaves unused are 0. -/
def legalDev (w : Nat) : Bool :=
  let ra0 := fld w 20 16 == 0
  let rb0 := fld w 15 11 == 0
  let im0 := fld w 5 0 == 0
  match fld w 10 6 with
  | 0 => rb0
  | 1 => true
  | 2 => true
  | 3 => true
  | 4 => true
  | 5 => ra0 && rb0 && im0
  | 6 => rb0 && im0
  | 7 => true
  | 8 => rb0 && im0
  | 9 => rb0 && im0
  | 10 => rb0 && im0
  | 11 => rb0
  | 12 => true
  | 13 => rb0 && im0
  | _ => false

/-- The word is an instruction (10 R277, R282). -/
def legalWord (w : Nat) : Bool :=
  let op := fld w 31 26
  if op = 0x00 then legalAlu w
  else if op ≤ 0x06 then true
  else if op = 0x07 then legalShift w
  else if op = 0x08 then fld w 20 16 == 0
  else if op ≤ 0x0B then true
  else if op < 0x10 then false
  else if op ≤ 0x16 then true
  else if op = 0x17 then false
  else if op ≤ 0x1B then true
  else if op = 0x1C then decide (fld w 10 0 ≤ 4)
  else if op < 0x20 then false
  else if op ≤ 0x27 then true
  else if op = 0x30 then legalCsr w
  else if op = 0x31 then legalSys w
  else if op = 0x38 then legalDev w
  else false

end Sys2Proof.Machine
end

