-- ==== Sys2Proof/Machine/Tab.lean ====
section
/-! DEFINITION. Sparse tables: strictly rising keys, no entry equal to the default value. -/

namespace Sys2Proof.Machine

/-- A sparse table of entries: a list of (index, entry) pairs with rising indices. -/
abbrev Tab (α : Type) := List (Nat × α)

/-- The entry at index `i`; the default `d` where the table lists none. -/
def Tab.get {α : Type} (d : α) : Tab α → Nat → α
  | [], _ => d
  | (k, v) :: t, i => if i = k then v else Tab.get d t i

/-- Remove the entry at index `i`. -/
def Tab.erase {α : Type} : Tab α → Nat → Tab α
  | [], _ => []
  | (k, v) :: t, i => if i = k then Tab.erase t i else (k, v) :: Tab.erase t i

/-- Insert or replace the entry at index `i`, keeping the indices in rising order. -/
def Tab.insert {α : Type} (v : α) : Tab α → Nat → Tab α
  | [], i => [(i, v)]
  | (k, w) :: t, i =>
    if i < k then (i, v) :: (k, w) :: t
    else if i = k then (i, v) :: t
    else (k, w) :: Tab.insert v t i

/-- Write the entry at index `i`: writing the default removes the entry. -/
def Tab.set {α : Type} [DecidableEq α] (d : α) (t : Tab α) (i : Nat) (v : α) : Tab α :=
  if v = d then Tab.erase t i else Tab.insert v t i

/-- Change the entry at index `i` by `f`. -/
def Tab.upd {α : Type} [DecidableEq α] (d : α) (t : Tab α) (i : Nat) (f : α → α) : Tab α :=
  Tab.set d t i (f (Tab.get d t i))

/-- Every index of the table is above `b` and they rise strictly; no entry equals the default. -/
def Tab.wfFrom {α : Type} [DecidableEq α] (d : α) : Nat → Tab α → Bool
  | _, [] => true
  | b, (k, v) :: t => decide (b ≤ k) && decide (v ≠ d) && Tab.wfFrom d (k + 1) t

/-- The canonical form: indices rise strictly, no entry equals the default. -/
def Tab.wf {α : Type} [DecidableEq α] (d : α) (t : Tab α) : Bool := Tab.wfFrom d 0 t

end Sys2Proof.Machine
end

