-- ==== Sys2Proof/Types.lean ====
section
/-! DEFINITION. The plain data that commands carry: who submitted a command, a command descriptor (13 Table 13-3). -/

namespace Sys2Proof

/-- Who submitted a command and takes its completion (13 R372, 10 R299). -/
inductive Origin where
  /-- Command ring `r` of the host. -/
  | ring (r : Nat)
  /-- Glonik core `c`. -/
  | core (c : Nat)
  /-- The lead's record carried it: it completes on the shadow as on the lead (08 R227). -/
  | lead
  /-- OSF, the device's own firmware, whose protocols submit commands (07 R210, R213). -/
  | osf
  deriving DecidableEq, Repr

/-- A submission: its origin, the tag that comes back unchanged, the submission number, the ring index (13 Table 13-5). -/
structure Sub where
  origin : Origin
  tag : Nat
  subno : Nat
  index : Nat
  deriving DecidableEq, Repr

/-- What a port's RS decoder has handled since the port's last frame: codewords, those with corrected symbols, uncorrectable ones, and symbols
corrected (12 R351, Table 12-10). -/
structure FecRun where
  cw : Nat := 0
  corr : Nat := 0
  uncorr : Nat := 0
  sym : Nat := 0
  deriving DecidableEq, Repr

/-- How the PCS and the RS decoder of a port hand a frame over: in Frame mode whether its FCS is right, in Slot mode whether no uncorrectable
codeword reaches into it; the blocks of a slot frame that come marked in error, by position; and what the decoder has handled (02 R50, 03 R90,
12 R351). -/
structure FrameEnd where
  ok : Bool
  err : List Nat := []
  fec : FecRun := {}
  deriving DecidableEq, Repr

/-- A request for `len` bytes from offset `off` on, in the space of log entry 25 (13 R364 to R366). -/
structure Access where
  off : Nat
  len : Nat := 4
  deriving DecidableEq, Repr

/-- What an injection queue's two DMA reads give: the 16-byte entry of its ring, address and length, and the frame's bytes (13 R375). -/
structure HostFrame where
  entry : Bytes
  data : Bytes
  deriving DecidableEq, Repr

/-- The DMA read that got no completion: a ring's descriptor fetch, an injection queue's frame, or what the command of a descriptor reads (13 R378). -/
inductive DmaRead where
  | fetch
  | frame
  | command (desc : Bytes)
  deriving DecidableEq, Repr

/-- Who offers a compared pair: its serial number and SIDE (09 R236). -/
structure Peer where
  serial : Nat
  side : Nat
  deriving DecidableEq, Repr

/-- A command descriptor (13 Table 13-3), with the host-memory input already read (13 R378). -/
structure Desc where
  code : Nat
  shadowOnly : Bool
  nbt : Option Nat
  nlt : Option Nat
  p0 : Nat
  p1 : Nat
  p2 : Nat
  p3 : Nat
  p4 : Nat
  /-- The record image or message read from host memory; empty where the command has none. -/
  image : Bytes
  deriving DecidableEq, Repr

end Sys2Proof
end

