-- ==== Sys2Proof/Machine/StFrame.lean ====
section
/-! DEFINITION. State of the frame path: gated tables, channels, SA slots, windows, Pattern banks, stations, tacks (chapters 02, 05, 06, 08). -/

namespace Sys2Proof.Machine

/-- Gated fields of one PRT region and its port enable (02 Tables 02-18 to 02-22, 12 Table 12-10, 08 R225). -/
structure PrtGated where
  cfg : Nat := 0
  enabled : Bool := false
  /-- The enable as the gated commands give it: a disable clears it at its tack, `enabled` ends at its boundary on the port (08 R216, R225). -/
  gateOn : Bool := false
  fmCtrl : Nat := 0
  maxFrame : Nat := 9728
  peerMac : Tab Nat := []
  bypass : Tab Nat := []
  deriving DecidableEq, Repr

/-- Gated fields of one SLT region (03 Tables 03-11 to 03-18). -/
structure SltGated where
  ctrl : Nat := 0
  portCh : Nat := 0
  fillCh : Nat := 0
  fcBase : Nat := 0
  txVer : Nat := 0
  rxVer : Nat := 0
  txClient : Tab Nat := []
  rxClient : Tab Nat := []
  txPageA : Tab Nat := []
  txPageB : Tab Nat := []
  rxPageA : Tab Nat := []
  rxPageB : Tab Nat := []
  deriving DecidableEq, Repr

/-- Configured part of a channel record (05 Table 05-1). `anSlot` gives the local slot of a VALID AN. -/
structure Chan where
  en : Bool := false
  kind : Nat := 0
  txSci : Bool := false
  pcode : Nat := 0
  src : Nat := 0
  slotSrc : Bool := false
  dst : Nat := 0
  anSlot : Tab (Option Nat) := []
  sci : Nat := 0
  replayW : Nat := 0
  mgrp : Nat := 0
  deriving DecidableEq, Repr

/-- The part of a channel record that frames and seams change (05 Table 05-1 CURAN to SEAMAT, R148, R149). -/
structure ChanLive where
  curAn : Nat := 0
  curV : Bool := false
  nextAn : Nat := 0
  seamKind : Nat := 0
  seamAt : Nat := 0
  /-- The CH_SEAM whose completion waits, and its tack. -/
  seamSub : Option Sub := none
  seamTack : Nat := 0
  deriving DecidableEq, Repr

/-- SA slot states (05 Table 05-2). -/
inductive SlotState where
  | free | basting | active | draining | spent | window | parking
  deriving DecidableEq, Repr

/-- The code of a slot state (05 Table 05-2). -/
def SlotState.code : SlotState → Nat
  | .free => 0 | .basting => 1 | .active => 2 | .draining => 3 | .spent => 4 | .window => 5 | .parking => 6

/-- The part of an SA record that only gated commands change (05 Table 05-3). -/
structure SaStat where
  state : SlotState := .free
  dir : Nat := 0
  att : Bool := false
  an : Nat := 0
  suite : Nat := 0
  pinned : Bool := false
  chid : Nat := 0
  ssci : Nat := 0
  salt : Nat := 0
  coldIdx : Option Nat := none
  /-- Local slot of the window header. -/
  win : Option Nat := none
  key : Bytes := []
  deriving DecidableEq, Repr

/-- The part of an SA record that the datapath changes, and its eight counters (05 Table 05-3, 02 Table 02-14). -/
structure SaLive where
  nextPn : Nat := 0
  softPn : Nat := 0
  hardPn : Nat := 0
  softHit : Bool := false
  limHit : Bool := false
  refs : Nat := 0
  /-- The last PN or FC used. -/
  lastPn : Option Nat := none
  ctr : Tab Nat := []
  /-- KEEP of the SA_RETIRE that drains the slot (05 R147). -/
  keep : Bool := false
  /-- Completions that wait for the drain, each with its command's tack (05 R144, R149): SA_ERASE, SA_RETIRE, and CH_SEAM with its
  two results. -/
  pendErase : Option (Sub × Nat) := none
  pendRetire : Option (Sub × Nat) := none
  pendSeam : Option (Sub × Nat × Nat × Nat) := none
  /-- Tack at which the slot entered DRAINING by command. -/
  drainTack : Nat := 0
  deriving DecidableEq, Repr

/-- A limit change that waits for its boundary (05 R154): the slot, its tack, and the new values. -/
structure PendLimit where
  slot : Nat
  tack : Nat
  /-- `some n`: SA_RAISEPN to `n`. -/
  raise : Option Nat
  /-- `some (soft, hard)`: SA_SETLIMIT. -/
  limit : Option (Nat × Nat)
  deriving DecidableEq, Repr

/-- A window block (05 R138): header fields and the 4,096-bit bitmap as a number. -/
structure Win where
  top : Nat := 0
  w : Nat := 0
  members : Nat := 0
  init : Bool := false
  bitmap : Nat := 0
  deriving DecidableEq, Repr

/-- A staging buffer (05 R140, Table 05-14): STATE 0 EMPTY, 1 filling, 2 READY. -/
structure StageBuf where
  state : Nat := 0
  /-- SRC: 1 when SA_STAGEPIN filled it. -/
  src : Nat := 0
  image : SaStat := {}
  live : SaLive := {}
  sub : Option Sub := none
  deriving DecidableEq, Repr

/-- A cold entry (05 Table 05-8): STATE 0 EMPTY, 1 PARKED, 2 STAGED, 3 PINNED, 4 FAULT. `key` is what WKEY wraps. -/
structure ColdEnt where
  state : Nat := 0
  stage : Nat := 0
  slot : Nat := 0
  nextPn : Nat := 0
  softPn : Nat := 0
  hardPn : Nat := 0
  ssci : Nat := 0
  salt : Nat := 0
  dir : Nat := 0
  suite : Nat := 0
  key : Bytes := []
  ctr : Tab Nat := []
  deriving DecidableEq, Repr

/-- A valid SCI map entry (02 Table 02-8). -/
structure SciEnt where
  sci : Nat
  chid : Nat
  deriving DecidableEq, Repr

/-- A VALID station entry (06 Table 06-10). -/
structure StnEntry where
  mac : Nat
  domain : Nat
  static : Bool
  flap : Bool
  chid : Nat
  port : Nat
  hitSw : Nat
  moves : Nat
  movesSw : Nat
  lastSw : Nat
  deriving DecidableEq, Repr

/-- A pending flush filter of one partition (06 R180). -/
structure FlushFilter where
  part : Nat
  byChan : Bool
  value : Nat
  inclStatic : Bool
  tack : Nat
  deriving DecidableEq, Repr

/-- The live SAS state that a lead streams to a joining shadow: of slots, of channels, and the replay windows (09 R252). -/
structure JoinSas where
  live : Tab SaLive := []
  chan : Tab ChanLive := []
  win : Tab Win := []
  deriving DecidableEq, Repr

/-- The gated tables: what a tack changes and a frame's view selects (01 R21, 08 R216). -/
structure Tables where
  prt : Tab PrtGated := []
  slt : Tab SltGated := []
  chn : Tab Chan := []
  sa : Tab SaStat := []
  sciClear : Tab (Option SciEnt) := []
  sciCipher : Tab (Option SciEnt) := []
  stn : Tab (Option StnEntry) := []
  filters : List FlushFilter := []
  stnPeriod : Nat := 1500000
  sweepNo : Nat := 0
  /-- Tacks that STN has counted (06 R173). -/
  stnTacks : Nat := 0
  actBank : Nat := 0
  side : Nat := 0
  deriving DecidableEq, Repr

/-- A Pattern bank: `image` is the loaded image, empty when the bank is invalid (06 R169, Table 06-8). -/
structure PatBank where
  valid : Bool := false
  image : Bytes := []
  /-- Slot and SVN of the envelope that carried it, and its manifest's IMGVER (14 Table 14-8, R400). -/
  slot : Nat := 0
  svn : Nat := 0
  envVer : Nat := 0
  deriving DecidableEq, Repr

/-- A learn kept for its tack interval (06 R175, R176). -/
structure Learn where
  port : Nat
  interval : Nat
  idx : Nat
  part : Nat
  domain : Nat
  mac : Nat
  chid : Nat
  deriving DecidableEq, Repr

/-- A delineated frame that its port has not passed on (08 R215). Bytes run from the destination address up to the FCS. -/
structure RxFrame where
  idx : Nat
  bytes : Bytes
  fcsOk : Bool
  /-- Tack-hold cells taken, by number (08 R223). -/
  cells : List Nat
  deriving DecidableEq, Repr

/-- A frame in a slice's transmit queue (02 R52): its source port and index, the tack number of its view, channel and cipher port. -/
structure TxJob where
  src : Nat
  idx : Nat
  view : Nat
  chid : Nat
  dst : Nat
  bytes : Bytes
  fcsOk : Bool
  rule : Nat
  cells : List Nat
  deriving DecidableEq, Repr

/-- A protected frame in a cipher port's egress stage (02 R53), `slot` holding its reference. -/
structure EgFrame where
  slot : Nat
  chid : Nat
  pn : Nat
  bytes : Bytes
  /-- The frame will be ended with an error control character (02 R55). -/
  err : Bool
  /-- The clear port and the frame's index there. -/
  clearPort : Nat
  idx : Nat
  fcsErr : Bool
  tooLong : Bool
  cells : List Nat
  deriving DecidableEq, Repr

/-- A received frame held until its tag verifies (01 R19, 02 R48); `bytes` are the frame as received. -/
structure HoldFrame where
  idx : Nat
  view : Nat
  bytes : Bytes
  chid : Nat
  slot : Nat
  pn : Nat
  plain : Bytes
  tagOk : Bool
  fcsOk : Bool
  enc : Bool
  octets : Nat
  cells : List Nat
  deriving DecidableEq, Repr

/-- A released or bypassed frame waiting at a port's egress (02 R59, R62). -/
structure RelFrame where
  src : Nat
  idx : Nat
  chid : Option Nat
  /-- The SA slot that verified it; 0 for a bypassed frame. -/
  slot : Nat
  bytes : Bytes
  /-- False: sent ended with an error control character. -/
  fcsOk : Bool
  cells : List Nat
  deriving DecidableEq, Repr

/-- Port states of the tack component (08 Table 08-7). -/
inductive PState where
  | disabled | active | freezing | frozen
  deriving DecidableEq, Repr

/-- The code of a port state (08 Table 08-7). -/
def PState.code : PState → Nat
  | .disabled => 0 | .active => 1 | .freezing => 2 | .frozen => 3

/-- One port's tack component and frame path (08 R215 to R225, 01 R15). -/
structure TckPort where
  pstate : PState := .disabled
  /-- Port frame index of the next frame delineated (01 R15). -/
  nextIdx : Nat := 0
  /-- Admitted count x_p. -/
  admitted : Nat := 0
  /-- Horizon H_p. -/
  horizon : Nat := 0
  /-- Highest horizon applied since the last SEAL; `none` when none. -/
  hmax : Option Nat := none
  /-- Freeze boundary F of the last SEAL. -/
  freezeAt : Nat := 0
  /-- Frames admitted since the previous TACK record was formed. -/
  got : Nat := 0
  /-- Boundaries B_p(k) that have not taken effect: (k, boundary). -/
  bounds : List (Nat × Nat) := []
  /-- Tacks deferred to the next SEAL. -/
  deferred : List Nat := []
  effTno : Nat := 0
  holdDrop : Nat := 0
  srcDeny : Nat := 0
  /-- Frames delineated and not yet passed, in index order. -/
  rx : List RxFrame := []
  /-- Boundary at which CMD_PORT_DISABLE takes effect (tack). -/
  disableTack : Option Nat := none
  /-- A disable has ended on this port since its last enable: a lead's record may still carry an entry for it (08 R217, R225). -/
  wasOff : Bool := false
  /-- Freeze: the device's own reported count, and the partner's. -/
  ownReport : Option Nat := none
  peerReport : Option Nat := none
  freezeRseq : Nat := 0
  deriving DecidableEq, Repr

/-- A queued gate command (08 R226). -/
structure GateEnt where
  sub : Sub
  desc : Desc
  deriving DecidableEq, Repr

/-- An entry of a tack record (08 R233, Table 08-5). -/
structure RecEnt where
  port : Nat
  op : Nat
  value : Nat
  deriving DecidableEq, Repr

/-- A tack record (08 Table 08-4). -/
structure TackRec where
  rseq : Nat
  tno : Nat
  /-- 0 TACK, 1 BEAT. -/
  kind : Nat
  entries : List RecEnt
  cmds : List GateEnt
  srcSer : Nat
  deriving DecidableEq, Repr

/-- The TCK block (08 Tables 08-6 and 08-7). -/
structure Tck where
  cfg : Nat := 0x00050064
  stopped : Bool := false
  badRec : Bool := false
  tno : Nat := 0
  rseq : Nat := 0
  gate : List GateEnt := []
  /-- Records received and not yet applied, oldest first. -/
  recq : List TackRec := []
  /-- The next tack disables every enabled port: the device has entered ENROL (14 R390). -/
  enrolDisable : Bool := false
  port : Tab TckPort := []
  deriving DecidableEq, Repr

/-- One slice: queues, counts and fault state (02 R52, R57, R59; 15 Table 15-14). -/
structure Slice where
  txq : List TxJob := []
  /-- STATE: 0 RUNNING, 1 FAULTED, 2 restarting, 3 retired. -/
  state : Nat := 0
  cause : Nat := 0
  noSpareTx : Bool := false
  noSpareRx : Bool := false
  /-- Two-bit codes of the ten pipelines, 0 to 4 transmit, 5 to 9 receive: 0 traffic, 1 spare, 2 under test, 3 retired. -/
  pipe : Tab Nat := []
  fltTransient : Nat := 0
  fltMirror : Nat := 0
  fltSlice : Nat := 0
  restartSub : Option (Sub × Nat) := none
  /-- Operating time of the last slice fault, ms. -/
  faultAt : Nat := 0
  deriving DecidableEq, Repr

/-- One port's datapath state outside the gated fields (02 Table 02-17, Table 02-20; 12 Table 12-10). -/
structure Port where
  /-- Frame-mode counters by index i, offset 0x500 + 8 i. -/
  ctr : Tab Nat := []
  noSaChid : Nat := 0
  noSaAn : Nat := 0
  noSaValid : Bool := false
  /-- Classifier counters by index i, offset 8 i (06 Table 06-17). -/
  pat : Tab Nat := []
  /-- Protected frames in the cipher port's egress stage. -/
  egress : List EgFrame := []
  /-- Received frames under hold (cipher port). -/
  hold : List HoldFrame := []
  /-- Released or bypassed frames waiting to leave this port. -/
  rel : List RelFrame := []
  /-- PSTATUS bits (12 Table 12-10). -/
  loa : Bool := false
  laneFail : Bool := false
  losChg : Bool := false
  loaChg : Bool := false
  los : Bool := false
  fecCw : Nat := 0
  fecCorr : Nat := 0
  fecUncorr : Nat := 0
  fecSymErr : Nat := 0
  /-- Errored blocks of a Frame-mode cipher port since its enable, without its codewords (04 Table 04-3). -/
  errBlk : Nat := 0
  /-- This cipher port is fallow by its own cause: port SA (03 R87) or slot framer SRAM (15 Table 15-5). -/
  fallowSa : Bool := false
  fallowSram : Bool := false
  deriving DecidableEq, Repr

/-- STN_INSERT (with its CHID), STN_DELETE, or one partition's filter of an STN_FLUSH that has completed, of a tack that waits for the learns of an
earlier one (06 R177, R478). -/
structure StnWait where
  tack : Nat
  sub : Sub
  part : Nat
  key : Nat
  chid : Option Nat
  filter : Option FlushFilter := none
  deriving DecidableEq, Repr

/-- The station block outside the gated table (06 Tables 06-19 to 06-21). -/
structure Stn where
  learns : List Learn := []
  /-- Partition counters: key 8 q + i for counter i of partition q. -/
  ctr : Tab Nat := []
  /-- Partitions whose first lost learn of the sweep is recorded. -/
  lostMark : Tab Bool := []
  opKeyLo : Nat := 0
  opKeyHi : Nat := 0
  op : Nat := 0
  opPart : Nat := 0
  opDomF : Bool := false
  opFound : Bool := false
  opEnd : Bool := false
  opCursor : Nat := 0
  opRes : Tab Nat := []
  opIdx : Nat := 0
  /-- Flushes naming a partition in the tack being applied. -/
  flushes : Tab Nat := []
  /-- Sweep tacks whose walk is due: (partition, sweep number, tack). -/
  walks : List (Nat × Nat × Nat) := []
  /-- Gated station commands that wait for the learns of an earlier tack, in gate order (06 R177). -/
  waiting : List StnWait := []
  /-- Intervals whose learns the partition has applied, the highest, plus one (0: none). -/
  applied : Tab Nat := []
  deriving DecidableEq, Repr

/-- The Pattern block outside the gated bank selection (06 Tables 06-15, 06-16). -/
structure Pat where
  bank0 : PatBank := {}
  bank1 : PatBank := {}
  loading : Bool := false
  loadSlot : Nat := 0
  loadSub : Option Sub := none
  err : Nat := 0
  deriving DecidableEq, Repr

/-- The SAS and CHN blocks outside the gated tables (05, 02 Tables 02-15, 02-16). -/
structure Sas where
  live : Tab SaLive := []
  chan : Tab ChanLive := []
  win : Tab Win := []
  pend : List PendLimit := []
  stage : Tab StageBuf := []
  cold : Tab ColdEnt := []
  coldBase : Nat := 0
  coldSize : Nat := 0
  coldLock : Bool := false
  /-- SA_PARKs whose write-back runs: (slot, cold index, submission, tack). -/
  parks : List (Nat × Nat × Sub × Nat) := []
  statSel : Nat := 0
  statSnap : Tab Nat := []
  recSel : Nat := 0
  recState : Nat := 0
  recSnap : Tab Nat := []
  chnSel : Nat := 0
  chnSnap : Tab Nat := []
  deriving DecidableEq, Repr

/-- The state that a lead streams to a joining shadow (09 Table 09-4, order 4). -/
structure JoinState where
  tables : Tables := {}
  sas : JoinSas := {}
  tck : Tab TckPort := []
  acts : Tab (Bool × Bool) := []
  deriving DecidableEq, Repr

end Sys2Proof.Machine
end

