-- ==== Sys2Proof/Syntax.lean ====
section
/-! DEFINITION. The commands of the block: one constructor per row of the table of operations and events. -/

namespace Sys2Proof

/-- The commands. Ports are numbered as PRT[n], in the rows of Slot-mode ports (R82 to R128, SLT_SET, SLT_SWAP, PORT_CLIENT_PLAYOUT) as SLT[p]; requesters as R200 numbers them (0xFE JTAG), lanes 0 to 63 as LNE and 64 to 79 as HLN. -/
inductive Instr where
  /-- FRAME_DELINEATED (R15). -/
  | frameDelineated (p : Nat) (bytes : Bytes) (fin : FrameEnd)
  /-- FRAME_PASSED (R215). -/
  | framePassed (p : Nat)
  /-- TRANSMIT_QUEUE_DEQUEUE (R53). -/
  | transmitQueueDequeue (p : Nat)
  /-- ICV_EMITTED (R146). -/
  | icvEmitted (p : Nat)
  /-- ICV_VERIFIED (R48). -/
  | icvVerified (p : Nat)
  /-- RECEIVE_EGRESS_SEND (R16). -/
  | receiveEgressSend (p : Nat)
  /-- INTERIM_DIGEST (R244). -/
  | interimDigest (p : Nat)
  /-- SLOT_FRAME_TRANSMIT (R82). -/
  | slotFrameTransmit (p : Nat) (maps : List (Nat × List Block))
  /-- HUNT_BLOCK (R110). -/
  | huntBlock (p : Nat) (blk : Block)
  /-- SLOT_FRAME_RECEIVE (R90). -/
  | slotFrameReceive (p : Nat) (blocks : List Block) (fin : FrameEnd)
  /-- SWAP_REQUEST_TIMEOUT (R103). -/
  | swapRequestTimeout (p : Nat)
  /-- FAILURE_INTEGRATION (R119). -/
  | failureIntegration (p bit client : Nat) (present : Bool)
  /-- PM_SECOND_END (R125). -/
  | pmSecondEnd (p : Nat)
  /-- PM_SECOND_ENTRY (R128). -/
  | pmSecondEntry (p : Nat)
  /-- SLT_PMSEL (R130). -/
  | sltPmsel (v : Nat)
  /-- TACK_FORM (R219). -/
  | tackForm
  /-- BEAT_FORM (R219). -/
  | beatForm
  /-- RECORD_APPLY (R216). -/
  | recordApply
  /-- FREEZE_REPORT_RECEIVED (R221). -/
  | freezeReportReceived (p z : Nat) (own : Bool)
  /-- FREEZE_REPORT_MISSING (R221). -/
  | freezeReportMissing (p : Nat)
  /-- FREEZE_SEAL_TIMEOUT (R253). -/
  | freezeSealTimeout (p : Nat)
  /-- WAKE_SEND (R222). -/
  | wakeSend (p : Nat)
  /-- GATE_SUBMIT (R226). -/
  | gateSubmit (b : Sub) (d : Desc)
  /-- STATION_WALK (R174). -/
  | stationWalk (q : Nat)
  /-- LEARNS_APPLY (R177). -/
  | learnsApply (k : Nat)
  /-- FLUSH_WALK (R180). -/
  | flushWalk (q : Nat)
  /-- SA_STAGE (R140). -/
  | saStage (b : Sub) (buf ticket : Nat) (image : Bytes)
  /-- SA_STAGEPIN (R140). -/
  | saStagepin (b : Sub) (buf cold : Nat)
  /-- STAGE_FILL_COMPLETE (R140). -/
  | stageFillComplete (buf : Nat) (fault : Bool)
  /-- SA_UNSTAGE (R140). -/
  | saUnstage (b : Sub) (buf : Nat)
  /-- COLD_ERASE (R143). -/
  | coldErase (b : Sub) (cold : Nat)
  /-- SA_LOAD (R141). -/
  | saLoad (b : Sub) (slot buf : Nat)
  /-- WIN_CREATE (R138). -/
  | winCreate (b : Sub) (w chid : Nat)
  /-- WIN_ERASE (R143). -/
  | winErase (b : Sub) (w : Nat)
  /-- SA_ATTACH (R139). -/
  | saAttach (b : Sub) (slot chid an : Nat) (win : Option Nat)
  /-- SA_ACTIVATE (R139). -/
  | saActivate (b : Sub) (slot : Nat)
  /-- CH_SEAM (R148). -/
  | chSeam (b : Sub) (chid an kind seamAt : Nat)
  /-- SA_RETIRE (R147). -/
  | saRetire (b : Sub) (slot : Nat) (keep : Bool)
  /-- SA_ERASE (R144). -/
  | saErase (b : Sub) (slot : Nat)
  /-- SA_SETLIMIT (R151). -/
  | saSetlimit (b : Sub) (slot soft hard : Nat)
  /-- SA_RAISEPN (R154). -/
  | saRaisepn (b : Sub) (slot pn : Nat)
  /-- SA_PARK (R158). -/
  | saPark (b : Sub) (slot cold : Nat)
  /-- PARK_WRITEBACK_COMPLETE (R158). -/
  | parkWritebackComplete (slot : Nat)
  /-- DRAIN_COMPLETE (R147). -/
  | drainComplete (slot : Nat)
  /-- DRAIN_TIMEOUT (R147). -/
  | drainTimeout (slot : Nat)
  /-- CH_WRITE (R133). -/
  | chWrite (b : Sub) (chid : Nat) (image : Bytes)
  /-- CH_ENABLE (R134). -/
  | chEnable (b : Sub) (chid : Nat)
  /-- CH_DISABLE (R134). -/
  | chDisable (b : Sub) (chid : Nat)
  /-- SAS_SIDE (R156). -/
  | sasSide (b : Sub) (side : Nat)
  /-- SCI_INSERT (R45). -/
  | sciInsert (b : Sub) (face sci chid : Nat)
  /-- SCI_DELETE (R45). -/
  | sciDelete (b : Sub) (face sci : Nat)
  /-- STN_INSERT (R180). -/
  | stnInsert (b : Sub) (part key chid : Nat)
  /-- STN_DELETE (R180). -/
  | stnDelete (b : Sub) (part key : Nat)
  /-- STN_FLUSH (R180). -/
  | stnFlush (b : Sub) (part : Nat) (byChan : Bool) (value : Nat) (inclStatic : Bool)
  /-- STN_SETSWEEP (R180). -/
  | stnSetsweep (b : Sub) (period : Nat)
  /-- PAT_LOAD (R169). -/
  | patLoad (b : Sub) (slot : Nat)
  /-- PAT_LOAD_COMPLETE (R169). -/
  | patLoadComplete
  /-- PAT_SWITCH (R170). -/
  | patSwitch (b : Sub)
  /-- CMD_PORT_CONFIG (R347). -/
  | cmdPortConfig (b : Sub) (p cfg : Nat)
  /-- CMD_PORT_ENABLE (R225). -/
  | cmdPortEnable (b : Sub) (p : Nat)
  /-- CMD_PORT_DISABLE (R225). -/
  | cmdPortDisable (b : Sub) (p : Nat)
  /-- PRT_SET (R68). -/
  | prtSet (b : Sub) (p off v : Nat)
  /-- SLT_SET (R106). -/
  | sltSet (b : Sub) (p off v : Nat)
  /-- SLT_SWAP (R103). -/
  | sltSwap (b : Sub) (p : Nat)
  /-- SLC_RESTART (R418). -/
  | slcRestart (b : Sub) (s : Nat)
  /-- SLC_RESTART_COMPLETE (R418). -/
  | slcRestartComplete (s : Nat) (pass : Bool)
  /-- TWN_RESYNC (R249). -/
  | twnResync (p : Nat) (d : Int)
  /-- KEY_GEN (R190). -/
  | keyGen (b : Sub) (len dest usage keyId : Nat)
  /-- KEY_TICKET (R192). -/
  | keyTicket (b : Sub) (slot : Nat) (fresh : Bool)
  /-- KEY_DERIVE (R194). -/
  | keyDerive (b : Sub) (src func kind : Nat) (label : Bytes) (ctr : Nat) (ctx : Bytes) (len dest usage keyId : Nat) (fresh : Bool)
  /-- KEY_COMBINE (R193). -/
  | keyCombine (b : Sub) (slotA : Nat) (slotB : Option Nat) (hash : Bytes) (dest : Nat)
  /-- KEY_UNWRAP (R196). -/
  | keyUnwrap (b : Sub) (fmt : Nat) (data : Bytes) (wrapSlot dest usage : Nat)
  /-- KEY_WRAP (R197). -/
  | keyWrap (b : Sub) (src wrapSlot fmt addr : Nat)
  /-- KEY_CLEAR (R193). -/
  | keyClear (b : Sub) (slot : Nat)
  /-- TICKET_EXPIRY (R191). -/
  | ticketExpiry (handle : Nat)
  /-- RNG_HEALTH_FAIL (R186). -/
  | rngHealthFail (test : Nat)
  /-- RNG_RETEST (R186). -/
  | rngRetest (pass : Bool)
  /-- LAT_KEMKEYGEN (R198). -/
  | latKemkeygen (b : Sub) (lpk addr : Nat)
  /-- LAT_ENCAP (R198). -/
  | latEncap (b : Sub) (ek : Bytes) (kek addr : Nat)
  /-- LAT_DECAP (R198). -/
  | latDecap (b : Sub) (lpk : Nat) (ct : Bytes) (kek : Nat)
  /-- LAT_SIGN (R199). -/
  | latSign (b : Sub) (lpk : Nat) (msg : Bytes) (addr : Nat)
  /-- LAT_VERIFY (R198). -/
  | latVerify (b : Sub) (pk msg sig : Bytes)
  /-- LAT_PUBKEY (R198). -/
  | latPubkey (b : Sub) (lpk addr : Nat)
  /-- LAT_ECKEYGEN (R198). -/
  | latEckeygen (b : Sub) (lpk addr : Nat)
  /-- LAT_ECDH (R198). -/
  | latEcdh (b : Sub) (lpk : Nat) (point : Bytes) (kek : Nat)
  /-- LAT_HASH (R198). -/
  | latHash (b : Sub) (data : Bytes) (alg outLen addr : Nat)
  /-- LAT_COMMAND_COMPLETE (R199). -/
  | latCommandComplete (n : Nat)
  /-- SCE_JOB (R202). -/
  | sceJob (b : Sub) (job : Bytes)
  /-- SCE_JOB_COMPLETE (R203). -/
  | sceJobComplete
  /-- SCE_CLAIM (R200). -/
  | sceClaim (r : Nat)
  /-- SCE_RELEASE (R200). -/
  | sceRelease (r : Nat)
  /-- SCE_FORCE (R201). -/
  | sceForce (r : Nat)
  /-- SCE_LEASE_EXPIRY (R201). -/
  | sceLeaseExpiry
  /-- PKX_HELLO (R208). -/
  | pkxHello (p : Nat) (hdr body : Bytes)
  /-- PKX_REPLY (R208). -/
  | pkxReply (p : Nat) (hdr body : Bytes)
  /-- PKX_CONFIRM (R208). -/
  | pkxConfirm (p : Nat) (hdr body : Bytes)
  /-- PKX_FINISH (R208). -/
  | pkxFinish (p : Nat) (hdr body : Bytes)
  /-- PKX_KEYNOTE (R210). -/
  | pkxKeynote (p : Nat) (hdr body : Bytes)
  /-- PKX_KEYACK (R210). -/
  | pkxKeyack (p : Nat) (hdr body : Bytes)
  /-- PKX_ABORT (R208). -/
  | pkxAbort (p : Nat) (hdr body : Bytes)
  /-- PKX_FRAGMENT_TIMEOUT (R204). -/
  | pkxFragmentTimeout (p session : Nat)
  /-- T_RETX (R207). -/
  | tRetx (n : Nat)
  /-- T_SESSION (R207). -/
  | tSession (n : Nat)
  /-- T_CK (R207). -/
  | tCk (n : Nat)
  /-- T_OVERLAP (R207). -/
  | tOverlap (n : Nat)
  /-- T_BACKOFF (R207). -/
  | tBackoff (n : Nat)
  /-- MKPDU_RECEIVE (R212): its version, key server priority and SCI, the rest of its body, and its ICV. -/
  | mkpduReceive (ca version priority sci : Nat) (body icv : Bytes)
  /-- PAIR_FORM (R236). -/
  | pairForm (peer : Peer) (dpver role : Nat)
  /-- PARTNER_DIGEST (R245). -/
  | partnerDigest (p first count : Nat) (digest : Bytes) (fps : List Nat)
  /-- MISMATCH (R245). -/
  | mismatch (p first : Nat) (sliceFault : Bool)
  /-- RESYNC_OFFSET_REPORT (R249). -/
  | resyncOffsetReport (p : Nat)
  /-- RESYNC_STATE (R249). -/
  | resyncState (p : Nat) (chans : List (Nat × Nat × Nat))
  /-- RESYNC_GIVEUP (R250). -/
  | resyncGiveup (p reason : Nat)
  /-- JOIN_STATE_STREAM (R252). -/
  | joinStateStream (t : Machine.Tables) (sas : Machine.JoinSas) (tck : Machine.Tab Machine.TckPort) (acts : Machine.Tab (Bool × Bool))
  /-- HEARTBEAT_SEND (R254). -/
  | heartbeatSend
  /-- HEARTBEAT (R254). -/
  | heartbeat (path serial side dpver role seq ack : Nat) (depart : Bool)
  /-- SHADOW_COAST (R256). -/
  | shadowCoast
  /-- TAKEOVER (R256). -/
  | takeover (evidence : Bool)
  /-- LEAD_LEASE_LAPSE (R257), and whether it is the lapse with partner-gone evidence. -/
  | leadLeaseLapse (evidence : Bool)
  /-- HB_FRAME_SEND (R259). -/
  | hbFrameSend
  /-- HB_FRAME (R260). -/
  | hbFrame (payload : Bytes)
  /-- STANDBY_TAKEOVER (R260). -/
  | standbyTakeover
  /-- ACTIVE_ACK_TIMEOUT (R260). -/
  | activeAckTimeout
  /-- FENCED_SOLO_TIMEOUT (R261). -/
  | fencedSoloTimeout
  /-- HOLPEN_FRAME (R265). -/
  | holpenFrame (j : Nat) (bytes : Bytes)
  /-- LINKHELLO (R266): a version offer, or in `pkx` a part of a message of the key exchange. -/
  | linkhello (j majors minor nbr serial : Nat) (pkx : Bytes)
  /-- LINK_REKEY (R266). -/
  | linkRekey (j : Nat)
  /-- HOLPEN_PORT_RESTART (R413). -/
  | holpenPortRestart (j : Nat)
  /-- ZEROISE (R271). -/
  | zeroise (j origin reason hops : Nat)
  /-- ADD (R278). -/
  | add (c rd ra rb : Nat)
  /-- SUB (R278). -/
  | sub (c rd ra rb : Nat)
  /-- AND (R278). -/
  | and (c rd ra rb : Nat)
  /-- OR (R278). -/
  | or (c rd ra rb : Nat)
  /-- XOR (R278). -/
  | xor (c rd ra rb : Nat)
  /-- SLL (R278). -/
  | sll (c rd ra rb : Nat)
  /-- SRL (R278). -/
  | srl (c rd ra rb : Nat)
  /-- SRA (R278). -/
  | sra (c rd ra rb : Nat)
  /-- SLT (R278). -/
  | slt (c rd ra rb : Nat)
  /-- SLTU (R278). -/
  | sltu (c rd ra rb : Nat)
  /-- MUL (R278). -/
  | mul (c rd ra rb : Nat)
  /-- MULH (R278). -/
  | mulh (c rd ra rb : Nat)
  /-- MULHU (R278). -/
  | mulhu (c rd ra rb : Nat)
  /-- DIV (R279). -/
  | div (c rd ra rb : Nat)
  /-- DIVU (R279). -/
  | divu (c rd ra rb : Nat)
  /-- REM (R279). -/
  | rem (c rd ra rb : Nat)
  /-- REMU (R279). -/
  | remu (c rd ra rb : Nat)
  /-- MIN (R278). -/
  | min (c rd ra rb : Nat)
  /-- MAX (R278). -/
  | max (c rd ra rb : Nat)
  /-- MINU (R278). -/
  | minu (c rd ra rb : Nat)
  /-- MAXU (R278). -/
  | maxu (c rd ra rb : Nat)
  /-- CLZ (R278). -/
  | clz (c rd ra : Nat)
  /-- POPC (R278). -/
  | popc (c rd ra : Nat)
  /-- BSWAP (R275). -/
  | bswap (c rd ra : Nat)
  /-- ADDI (R278). -/
  | addi (c rd ra imm : Nat)
  /-- ANDI (R278). -/
  | andi (c rd ra imm : Nat)
  /-- ORI (R278). -/
  | ori (c rd ra imm : Nat)
  /-- XORI (R278). -/
  | xori (c rd ra imm : Nat)
  /-- SLTI (R278). -/
  | slti (c rd ra imm : Nat)
  /-- SLTIU (R278). -/
  | sltiu (c rd ra imm : Nat)
  /-- SLLI (R278). -/
  | slli (c rd ra sh : Nat)
  /-- SRLI (R278). -/
  | srli (c rd ra sh : Nat)
  /-- SRAI (R278). -/
  | srai (c rd ra sh : Nat)
  /-- LUI (R278). -/
  | lui (c rd imm : Nat)
  /-- HINS1 (R278). -/
  | hins1 (c rd ra imm : Nat)
  /-- HINS2 (R278). -/
  | hins2 (c rd ra imm : Nat)
  /-- HINS3 (R278). -/
  | hins3 (c rd ra imm : Nat)
  /-- LB (R278). -/
  | lb (c rd ra imm : Nat)
  /-- LBU (R278). -/
  | lbu (c rd ra imm : Nat)
  /-- LH (R278). -/
  | lh (c rd ra imm : Nat)
  /-- LHU (R278). -/
  | lhu (c rd ra imm : Nat)
  /-- LW (R278). -/
  | lw (c rd ra imm : Nat)
  /-- LWU (R278). -/
  | lwu (c rd ra imm : Nat)
  /-- LD (R278). -/
  | ld (c rd ra imm : Nat)
  /-- SB (R278). -/
  | sb (c rs ra imm : Nat)
  /-- SH (R278). -/
  | sh (c rs ra imm : Nat)
  /-- SW (R278). -/
  | sw (c rs ra imm : Nat)
  /-- SD (R278). -/
  | sd (c rs ra imm : Nat)
  /-- AMOSWAP (R280). -/
  | amoswap (c rd ra rb : Nat)
  /-- AMOADD (R280). -/
  | amoadd (c rd ra rb : Nat)
  /-- AMOAND (R280). -/
  | amoand (c rd ra rb : Nat)
  /-- AMOOR (R280). -/
  | amoor (c rd ra rb : Nat)
  /-- CAS (R280). -/
  | cas (c rd ra rb : Nat)
  /-- BEQ (R278). -/
  | beq (c ra rb disp : Nat)
  /-- BNE (R278). -/
  | bne (c ra rb disp : Nat)
  /-- BLT (R278). -/
  | blt (c ra rb disp : Nat)
  /-- BGE (R278). -/
  | bge (c ra rb disp : Nat)
  /-- BLTU (R278). -/
  | bltu (c ra rb disp : Nat)
  /-- BGEU (R278). -/
  | bgeu (c ra rb disp : Nat)
  /-- JAL (R278). -/
  | jal (c disp : Nat)
  /-- JALR (R278). -/
  | jalr (c rd ra imm : Nat)
  /-- CSRR (R282). -/
  | csrr (c rd num : Nat)
  /-- CSRW (R282). -/
  | csrw (c rd ra num : Nat)
  /-- CSRS (R282). -/
  | csrs (c rd ra num : Nat)
  /-- CSRC (R282). -/
  | csrc (c rd ra num : Nat)
  /-- ERET (R287). -/
  | eret (c : Nat)
  /-- TRAP (R287). -/
  | trap (c code : Nat)
  /-- HOPEN (R292). -/
  | hopen (c rd ra h : Nat)
  /-- HRD (R293). -/
  | hrd (c rd ra rb h : Nat)
  /-- HSNAP (R293). -/
  | hsnap (c rd ra rb h : Nat)
  /-- HSRCH (R294). -/
  | hsrch (c rd ra rb h : Nat)
  /-- HNEXT (R294). -/
  | hnext (c rd ra rb h : Nat)
  /-- CALLOC (R295). -/
  | calloc (c rd : Nat)
  /-- CFREE (R295). -/
  | cfree (c rd ra : Nat)
  /-- CMOVE (R295). -/
  | cmove (c rd ra rb dir : Nat)
  /-- MSEND (R297). -/
  | msend (c rd ra : Nat)
  /-- MRECV (R297). -/
  | mrecv (c rd ra : Nat)
  /-- TACKG (R299). -/
  | tackg (c rd ra : Nat) (image : Bytes) (dmaOk : Bool)
  /-- ENGQ (R299). -/
  | engq (c rd ra engine : Nat) (image : Bytes) (dmaOk : Bool)
  /-- EWAIT (R301). -/
  | ewait (c rd ra rb flags : Nat)
  /-- EVPOST (R300). -/
  | evpost (c rd ra : Nat)
  /-- ILLEGAL (R277). -/
  | illegal (c w : Nat)
  /-- EWAIT_WAKE (R301). -/
  | ewaitWake (c : Nat)
  /-- TIMER_EXCEPTION (R287). -/
  | timerException (c : Nat)
  /-- DEFERRED_STORE_FAIL (R288). -/
  | deferredStoreFail (c addr : Nat)
  /-- COMPLETION_DELIVER (R299). -/
  | completionDeliver (c : Nat)
  /-- SAMPLE_TAKE (R307). -/
  | sampleTake (c latency flags : Nat)
  /-- CORE_SELFTEST_COMPLETE (R418). -/
  | coreSelftestComplete (c : Nat) (pass : Bool)
  /-- BOBBIN_REFILL (R316). -/
  | bobbinRefill (q : Nat)
  /-- BOBBIN_SPILL (R316). -/
  | bobbinSpill (q : Nat)
  /-- BOBBIN_SPILL_ALL (R316). -/
  | bobbinSpillAll
  /-- BPM_QSEL (R338). -/
  | bpmQsel (v : Nat)
  /-- BPM_QMIN (R315). -/
  | bpmQmin (v : Nat)
  /-- BPM_QCAP (R315). -/
  | bpmQcap (v : Nat)
  /-- DDR5_TRAIN_COMPLETE (R322). -/
  | ddr5TrainComplete (rate dimmGib failMap : Nat) (ok : Bool)
  /-- PATROL_SCRUB (R323). -/
  | patrolScrub (addr : Nat) (corrected uncorr : Bool)
  /-- SAS_COLD_LOCK (R157). -/
  | sasColdLock (v : Nat)
  /-- MEC_CFG_LOCK (R325). -/
  | mecCfgLock (v : Nat)
  /-- MEC_INIT_COMPLETE (R325). -/
  | mecInitComplete
  /-- MEC_REPROV (R334). -/
  | mecReprov (v : Nat)
  /-- REPROV_COMPLETE (R334). -/
  | reprovComplete
  /-- MEM_CLEAR (R337). -/
  | memClear (v : Nat)
  /-- MEM_CLEAR_COMPLETE (R337). -/
  | memClearComplete
  /-- SRAM_PATROL (R419). -/
  | sramPatrol (region row addr unit : Nat) (uncorr : Bool)
  /-- LANE_LOS_DECLARE (R349). -/
  | laneLosDeclare (l : Nat)
  /-- LANE_LOS_CLEAR (R349). -/
  | laneLosClear (l : Nat)
  /-- LANE_LOL_DECLARE (R350). -/
  | laneLolDeclare (l freqOfs : Nat)
  /-- PCS_ALIGN_CHANGE (R351). -/
  | pcsAlignChange (p : Nat) (aligned : Bool)
  /-- LANE_ACQUIRE_COMPLETE (R352). -/
  | laneAcquireComplete (l freqOfs : Nat)
  /-- LANE_ACQUIRE_TIMEOUT (R352). -/
  | laneAcquireTimeout (l : Nat)
  /-- FOM_MEASURE (R356). -/
  | fomMeasure (l fom eye : Nat)
  /-- TX_PLL_UNLOCK (R359). -/
  | txPllUnlock (l : Nat)
  /-- LANE_WATCHDOG_EXPIRE (R359). -/
  | laneWatchdogExpire (l : Nat)
  /-- LANE_SELFTEST_COMPLETE (R361). -/
  | laneSelftestComplete (fails : List (Nat × Nat))
  /-- LNE_CAL (R354). -/
  | lneCal (l v : Nat)
  /-- LNE_TEST (R355). -/
  | lneTest (l v : Nat)
  /-- LNE_CTRL (R362). -/
  | lneCtrl (l v : Nat)
  /-- LNE_TXEQ (R362). -/
  | lneTxeq (l v : Nat)
  /-- REFCLK_LOSS (R344). -/
  | refclkLoss (i : Nat)
  /-- REFCLK_RETURN (R344). -/
  | refclkReturn (i : Nat)
  /-- HIF_HOSTVER (R367). -/
  | hifHostver (v : Nat)
  /-- RING_ENABLE (R368). -/
  | ringEnable (page v : Nat)
  /-- RING_PI_WRITE (R368). -/
  | ringPiWrite (r v : Nat)
  /-- DESCRIPTOR_FETCH (R371). -/
  | descriptorFetch (r : Nat) (desc image : Bytes) (ringFail imageFail : Bool)
  /-- DMA_READ_TIMEOUT (R378). -/
  | dmaReadTimeout (kind : DmaRead) (q : Nat)
  /-- NOP (R370). -/
  | nop (b : Sub)
  /-- MSG_SEND (R374). -/
  | msgSend (b : Sub) (msg : Bytes)
  /-- HIF_COPY (R370). -/
  | hifCopy (b : Sub) (host ddr len dir : Nat) (data : Bytes)
  /-- HIQ_PI_WRITE (R375). -/
  | hiqPiWrite (q v : Nat)
  /-- INJECTION_FRAME_SEND (R376). -/
  | injectionFrameSend (q : Nat) (frame : HostFrame) (fail : Bool)
  /-- HXQ_BPI_WRITE (R377). -/
  | hxqBpiWrite (q v : Nat) (bufs : List Nat)
  /-- MSIX_HOLDOFF_EXPIRY (R379). -/
  | msixHoldoffExpiry (src : Nat)
  /-- FUNCTION_RESET (R380). -/
  | functionReset (cause : Nat)
  /-- MOD_REQ_FACTORY (R388). -/
  | modReqFactory (r : Nat)
  /-- MOD_REQ_ENROL (R390). -/
  | modReqEnrol (r : Nat)
  /-- MOD_REQ_SOLO (R390). -/
  | modReqSolo (r : Nat)
  /-- MOD_REQ_LEAD (R390). -/
  | modReqLead (r : Nat)
  /-- MOD_REQ_SHADOW (R390). -/
  | modReqShadow (r : Nat)
  /-- MOD_REQ_SERVICE (R390). -/
  | modReqService (r : Nat)
  /-- MOD_REQ_FALLOW (R390). -/
  | modReqFallow (r : Nat)
  /-- MOD_REQ_SWAP (R401). -/
  | modReqSwap (r rt mc : Nat)
  /-- SWAP_IMAGES_VERIFIED (R402). -/
  | swapImagesVerified
  /-- SWAP_RELOAD_COMPLETE (R403). -/
  | swapReloadComplete (ok : Bool)
  /-- MOD_LCKEY (R384). -/
  | modLckey (r v : Nat)
  /-- ENROL_DONE (R384). -/
  | enrolDone (r : Nat)
  /-- SEAL (R384). -/
  | lcSeal (r : Nat)
  /-- RETURN (R386). -/
  | lcReturn (r : Nat)
  /-- SCRAP (R384). -/
  | scrap (r : Nat)
  /-- FUSE_OWNER (R384). -/
  | fuseOwner (r : Nat)
  /-- FUSE_OWNERONLY (R384). -/
  | fuseOwneronly (r : Nat)
  /-- FUSE_BLOW_COMPLETE (R385). -/
  | fuseBlowComplete (ok : Bool)
  /-- MOD_RESET (R392). -/
  | modReset (r v : Nat)
  /-- COLD_RESET (R458). -/
  | coldReset
  /-- KILN_BOOT (R398). -/
  | kilnBoot
  /-- TAMPER_RELEASE_WAIT (R398). -/
  | tamperReleaseWait
  /-- MOD_ZEROISE_LOCAL (R409). -/
  | modZeroiseLocal (r : Nat)
  /-- MOD_ZEROISE_MESH (R409). -/
  | modZeroiseMesh (r : Nat)
  /-- MOD_BIST (R391). -/
  | modBist (r v : Nat)
  /-- BIST_COMPLETE (R391). -/
  | bistComplete (pass : Bool) (cls unit : Nat)
  /-- MOD_SVNCOMMIT (R400). -/
  | modSvncommit (r v : Nat)
  /-- MOD_MREXT (R407). -/
  | modMrext (r v : Nat)
  /-- MOD_ATTCTRL (R408). -/
  | modAttctrl (r v : Nat)
  /-- ATTEST_COMPLETE (R408). -/
  | attestComplete
  /-- MOD_MRSEL (R411). -/
  | modMrsel (r v : Nat)
  /-- TAMPER_ASSERT (R426). -/
  | tamperAssert
  /-- PWRFAIL_ASSERT (R427). -/
  | pwrfailAssert
  /-- RAIL_UNDERVOLTAGE (R456). -/
  | railUndervoltage (rail : Nat)
  /-- TEMP_HOT (R421). -/
  | tempHot (tj : Nat)
  /-- TEMP_FAULT (R421). -/
  | tempFault (tj : Nat)
  /-- PIPE_PARITY_FAULT (R415). -/
  | pipeParityFault (s dir pipe : Nat) (mirror : Bool)
  /-- SPARE_ROTATE (R414). -/
  | spareRotate (s dir : Nat)
  /-- SPARE_KAT_FAIL (R415). -/
  | spareKatFail (s dir : Nat)
  /-- PIPE_KAT_COMPLETE (R415). -/
  | pipeKatComplete (s dir pipe : Nat) (pass : Bool)
  /-- ENGINE_KAT (R421). -/
  | engineKat (scePass latPass : Bool)
  /-- ARCHIVE_COPY (R433). -/
  | archiveCopy
  /-- CHECKPOINT (R434). -/
  | checkpoint
  /-- EVR_POSTCTL (R436). -/
  | evrPostctl (r v : Nat)
  /-- EVR_CALSET (R435). -/
  | evrCalset (v : Nat)
  /-- CALENDAR_HOLDOVER (R435). -/
  | calendarHoldover
  /-- PPS_EDGE (R465). -/
  | ppsEdge
  /-- PPS_MISSING (R465). -/
  | ppsMissing
  /-- TOD_MESSAGE (R467). -/
  | todMessage (bytes : Bytes) (inTime : Bool)
  /-- FLS_READ (R450). -/
  | flsRead (r : Nat)
  /-- FLS_PROGRAM (R450). -/
  | flsProgram (r : Nat)
  /-- FLS_ERASE (R450). -/
  | flsErase (r : Nat)
  /-- FLS_OP_COMPLETE (R450). -/
  | flsOpComplete (ok : Bool)
  /-- I3C_CMD (R470). -/
  | i3cCmd (i v : Nat)
  /-- I3C_TRANSFER_COMPLETE (R470). -/
  | i3cTransferComplete (i : Nat) (nack err : Bool) (data : Bytes)
  /-- I3C_IBI (R470). -/
  | i3cIbi (i addr data : Nat)
  /-- PRF_FREEZE (R449). -/
  | prfFreeze (on : Bool)
  /-- PRF_CLEAR (R449). -/
  | prfClear
  /-- PRF_CLR (R449). -/
  | prfClr (i : Nat)
  /-- SAS_STATSEL (R66). -/
  | sasStatsel (v : Nat)
  /-- SAS_RECSEL (R160). -/
  | sasRecsel (v : Nat)
  /-- CHN_RECSEL (R160). -/
  | chnRecsel (v : Nat)
  /-- KEY_SLOTSEL (R160). -/
  | keySlotsel (v : Nat)
  /-- STN_SEARCH (R181). -/
  | stnSearch (v : Nat)
  /-- STN_NEXT (R181). -/
  | stnNext (v : Nat)
  /-- TWN_NODEADDR_LOCK (R267). -/
  | twnNodeaddrLock (v : Nat)
  /-- REGISTER_WRITE (R6). -/
  | registerWrite (r : Nat) (a : Access) (v : Nat)
  /-- REGISTER_READ (R5). -/
  | registerRead (r : Nat) (a : Access)
  /-- MKA_HELLO_TIME (R212). -/
  | mkaHelloTime (ca : Nat)
  /-- MKA_LIFE_TIME (R212). -/
  | mkaLifeTime (ca : Nat)
  /-- HEARTBEATS_LOST_ON_ONE_PATH (R254). -/
  | heartbeatsLostOnOnePath (path : Nat)
  /-- TWN_BLOCK_FAULT (R421). -/
  | twnBlockFault
  /-- TX_PLL_RELOCK (R359). -/
  | txPllRelock (l : Nat)
  /-- FOREGROUND_RECALIBRATION_END (R354). -/
  | foregroundRecalibrationEnd (l : Nat)
  /-- PORT_CLIENT_PLAYOUT (R97). -/
  | portClientPlayout (p client : Nat)
  /-- POWER_STATE_D3HOT (R363). -/
  | powerStateD3hot (on : Bool)
  deriving DecidableEq, Repr

end Sys2Proof
end

