-- ==== Sys2Proof/Decode.lean ====
section
/-! DEFINITION. Words that spell commands. The rows of the table give no bits, so `decodeTableWord` names none. The 32-bit words of the Glonik
instructions are those of 10 Tables 10-2 to 10-4 and 10-10, which `glonikWord` reads and
`State.withGlonikWord` puts at the front of the queue. -/

namespace Sys2Proof

open Machine

/-- The command that a word spells by the table's bits. No row of the table gives bits, so no word spells one. -/
def decodeTableWord (_nbits _w : Nat) : Option Instr := none

/-- OP 0x00, by func (10 Table 10-4). -/
def glonikAlu (c rd ra rb func : Nat) : Option Instr :=
  match func with
  | 0x000 => some (.add c rd ra rb) | 0x001 => some (.sub c rd ra rb) | 0x002 => some (.and c rd ra rb)
  | 0x003 => some (.or c rd ra rb) | 0x004 => some (.xor c rd ra rb) | 0x005 => some (.sll c rd ra rb)
  | 0x006 => some (.srl c rd ra rb) | 0x007 => some (.sra c rd ra rb) | 0x008 => some (.slt c rd ra rb)
  | 0x009 => some (.sltu c rd ra rb) | 0x00A => some (.mul c rd ra rb) | 0x00B => some (.mulh c rd ra rb)
  | 0x00C => some (.mulhu c rd ra rb) | 0x00D => some (.div c rd ra rb) | 0x00E => some (.divu c rd ra rb)
  | 0x00F => some (.rem c rd ra rb) | 0x010 => some (.remu c rd ra rb) | 0x011 => some (.min c rd ra rb)
  | 0x012 => some (.max c rd ra rb) | 0x013 => some (.minu c rd ra rb) | 0x014 => some (.maxu c rd ra rb)
  | 0x015 => some (.clz c rd ra) | 0x016 => some (.popc c rd ra) | 0x017 => some (.bswap c rd ra)
  | _ => none

/-- Formats I, S and B, by OP; `rd`, `ra` name the fields of bits [25:21] and [20:16] (10 Tables 10-2, 10-3). -/
def glonikImm (op c rd ra imm : Nat) : Option Instr :=
  match op with
  | 0x01 => some (.addi c rd ra imm) | 0x02 => some (.andi c rd ra imm) | 0x03 => some (.ori c rd ra imm)
  | 0x04 => some (.xori c rd ra imm) | 0x05 => some (.slti c rd ra imm) | 0x06 => some (.sltiu c rd ra imm)
  | 0x07 => (match imm / 64 with
    | 0 => some (.slli c rd ra imm) | 1 => some (.srli c rd ra (imm % 64)) | 2 => some (.srai c rd ra (imm % 64)) | _ => none)
  | 0x08 => some (.lui c rd imm) | 0x09 => some (.hins1 c rd ra imm) | 0x0A => some (.hins2 c rd ra imm) | 0x0B => some (.hins3 c rd ra imm)
  | 0x10 => some (.lb c rd ra imm) | 0x11 => some (.lbu c rd ra imm) | 0x12 => some (.lh c rd ra imm) | 0x13 => some (.lhu c rd ra imm)
  | 0x14 => some (.lw c rd ra imm) | 0x15 => some (.lwu c rd ra imm) | 0x16 => some (.ld c rd ra imm)
  | 0x18 => some (.sb c rd ra imm) | 0x19 => some (.sh c rd ra imm) | 0x1A => some (.sw c rd ra imm) | 0x1B => some (.sd c rd ra imm)
  | 0x20 => some (.beq c rd ra imm) | 0x21 => some (.bne c rd ra imm) | 0x22 => some (.blt c rd ra imm)
  | 0x23 => some (.bge c rd ra imm) | 0x24 => some (.bltu c rd ra imm) | 0x25 => some (.bgeu c rd ra imm)
  | 0x27 => some (.jalr c rd ra imm)
  | 0x30 => (match imm / 4096 with
    | 0 => some (.csrr c rd (imm % 4096)) | 1 => some (.csrw c rd ra (imm % 4096))
    | 2 => some (.csrs c rd ra (imm % 4096)) | 3 => some (.csrc c rd ra (imm % 4096)) | _ => none)
  | _ => none

/-- OP 0x1C, by func (10 Table 10-3). -/
def glonikAtom (c rd ra rb func : Nat) : Option Instr :=
  match func with
  | 0 => some (.amoswap c rd ra rb) | 1 => some (.amoadd c rd ra rb) | 2 => some (.amoand c rd ra rb)
  | 3 => some (.amoor c rd ra rb) | 4 => some (.cas c rd ra rb) | _ => none

/-- OP 0x38, by dop (10 Table 10-10). A descriptor's record image is not in the word: it is what the instruction's DMA gives. -/
def glonikDev (c rd ra rb dop imm : Nat) (image : Bytes) (dmaOk : Bool) : Option Instr :=
  match dop with
  | 0 => some (.hopen c rd ra imm) | 1 => some (.hrd c rd ra rb imm) | 2 => some (.hsnap c rd ra rb imm) | 3 => some (.hsrch c rd ra rb imm)
  | 4 => some (.hnext c rd ra rb imm) | 5 => some (.calloc c rd) | 6 => some (.cfree c rd ra) | 7 => some (.cmove c rd ra rb imm)
  | 8 => some (.msend c rd ra) | 9 => some (.mrecv c rd ra) | 10 => some (.tackg c rd ra image dmaOk)
  | 11 => some (.engq c rd ra imm image dmaOk) | 12 => some (.ewait c rd ra rb imm) | 13 => some (.evpost c rd ra) | _ => none

/-- The instruction of core `c` that a 32-bit word spells (10 R277, R278). The row ILLEGAL stands for a word that is no instruction, and for FENCE,
which has no row of its own (log entry 62). -/
def glonikWord (c w : Nat) (image : Bytes) (dmaOk : Bool) : Option Instr :=
  let rd := fld w 25 21
  let ra := fld w 20 16
  let rb := fld w 15 11
  if !legalWord w || w == wordFence then some (.illegal c w)
  else match fld w 31 26 with
    | 0x00 => glonikAlu c rd ra rb (fld w 10 0)
    | 0x1C => glonikAtom c rd ra rb (fld w 10 0)
    | 0x26 => some (.jal c (fld w 25 0))
    | 0x31 => (match fld w 10 0 with | 0 => some (.eret c) | 2 => some (.trap c (fld w 25 11)) | _ => none)
    | 0x38 => glonikDev c rd ra rb (fld w 10 6) (fld w 5 0) image dmaOk
    | op => glonikImm op c rd ra (fld w 15 0)

end Sys2Proof
end

