-- ==== Sys2Proof/Machine/Crypto.lean ====
section
/-! DEFINITION. The published ciphers and hashes of Table 00-2: AES and its modes, GCM, CCM, CMAC, key wrap, SHA-3 and SHAKE256. -/

namespace Sys2Proof.Machine

/-- The AES substitution box of FIPS 197 as one number, entry `i` in bits [8i + 7 : 8i]. -/
def sboxTab : Nat :=
  0x16bb54b00f2d99416842e6bf0d89a18cdf2855cee9871e9b948ed9691198f8e19e1dc186b95735610ef6034866b53e708a8bbd4b1f74dde8c6b4a61c2e2578ba08ae7a65eaf4566ca94ed58d6d37c8e779e4959162acd3c25c2406490a3a32e0db0b5ede14b8ee4688902a22dc4f816073195d643d7ea7c41744975fec130ccdd2f3ff1021dab6bcf5389d928f40a351a89f3c507f02f94585334d43fbaaefd0cf584c4a39becb6a5bb1fc20ed00d153842fe329b3d63b52a05a6e1b1a2c830975b227ebe28012079a059618c323c7041531d871f1e5a534ccf73f362693fdb7c072a49cafa2d4adf04759fa7dc982ca76abd7fe2b670130c56f6bf27b777c63

/-- The inverse substitution box of FIPS 197. -/
def isboxTab : Nat :=
  0x7d0c2155631469e126d677ba7e042b17619953833cbbebc8b0f52aae4d3be0a0ef9cc9939f7ae52d0d4ab519a97f51605fec8027591012b131c7078833a8dd1ff45acd78fec0db9a2079d2c64b3e56fc1bbe18aa0e62b76f89c5291d711af1476edf751ce837f9e28535ade72274ac9673e6b4f0cecff297eadc674f4111913a6b8a130103bdafc1020f3fca8f1e2cd00645b3b80558e4f70ad3bc8c00abd890849d8da75746155edab9edfd5048706c92b6655dcc5ca4d41698688664f6f87225d18b6d49a25b76b224d92866a12e084ec3fa420b954cee3d23c2a632947b54cbe9dec444438e3487ff2f9b8239e37cfbd7f3819ea340bf38a53630d56a0952

/-- The substitution of one byte. -/
def sbox (b : Byte) : Byte := BitVec.ofNat 8 (sboxTab >>> (8 * b.toNat))

/-- The inverse substitution of one byte. -/
def isbox (b : Byte) : Byte := BitVec.ofNat 8 (isboxTab >>> (8 * b.toNat))

/-- Multiplication by x in the AES field. -/
def xtime (b : Byte) : Byte := if b.msb then (b <<< 1) ^^^ 0x1b else b <<< 1

/-- Multiplication by the constants 9, 11, 13 and 14 of the inverse cipher. -/
def gm9 (b : Byte) : Byte := xtime (xtime (xtime b)) ^^^ b
def gm11 (b : Byte) : Byte := xtime (xtime (xtime b)) ^^^ xtime b ^^^ b
def gm13 (b : Byte) : Byte := xtime (xtime (xtime b)) ^^^ xtime (xtime b) ^^^ b
def gm14 (b : Byte) : Byte := xtime (xtime (xtime b)) ^^^ xtime (xtime b) ^^^ xtime b

/-- One word of the key expansion: `w` holds the words so far, newest first. -/
def aesNextWord (nk i : Nat) (rcon : Byte) (w : List Bytes) : Bytes :=
  let t := nth [] w 0
  let t' :=
    if i % nk = 0 then xorB ((t.drop 1 ++ t.take 1).map sbox) [rcon, 0, 0, 0]
    else if nk = 8 && i % 8 == 4 then t.map sbox else t
  xorB (nth [] w (nk - 1)) t'

/-- Key expansion: `n` further words from word `i` on. -/
def aesExpand (nk : Nat) : Nat → Nat → Byte → List Bytes → List Bytes
  | 0, _, _, w => w
  | n + 1, i, rcon, w =>
    aesExpand nk n (i + 1) (if i % nk = 0 then xtime rcon else rcon) (aesNextWord nk i rcon w :: w)

/-- The round keys of a 16-byte or 32-byte key, first round first. -/
def aesKeys (key : Bytes) : List Bytes :=
  let nk := if key.length = 32 then 8 else 4
  let w := aesExpand nk (4 * (nk + 7) - nk) nk 1 (pieces 4 (fit (4 * nk) key)).reverse
  pieces 16 w.reverse.flatten

/-- One column of MixColumns. -/
def mixCol : Bytes → Bytes
  | [a, b, c, d] =>
    [xtime a ^^^ xtime b ^^^ b ^^^ c ^^^ d, a ^^^ xtime b ^^^ xtime c ^^^ c ^^^ d,
     a ^^^ b ^^^ xtime c ^^^ xtime d ^^^ d, xtime a ^^^ a ^^^ b ^^^ c ^^^ xtime d]
  | x => x

/-- One column of the inverse MixColumns. -/
def imixCol : Bytes → Bytes
  | [a, b, c, d] =>
    [gm14 a ^^^ gm11 b ^^^ gm13 c ^^^ gm9 d, gm9 a ^^^ gm14 b ^^^ gm11 c ^^^ gm13 d,
     gm13 a ^^^ gm9 b ^^^ gm14 c ^^^ gm11 d, gm11 a ^^^ gm13 b ^^^ gm9 c ^^^ gm14 d]
  | x => x

/-- ShiftRows on the state in column order. -/
def shiftRows (s : Bytes) : Bytes := [0, 5, 10, 15, 4, 9, 14, 3, 8, 13, 2, 7, 12, 1, 6, 11].map (fun i => nth 0 s i)

/-- The inverse of ShiftRows. -/
def ishiftRows (s : Bytes) : Bytes := [0, 13, 10, 7, 4, 1, 14, 11, 8, 5, 2, 15, 12, 9, 6, 3].map (fun i => nth 0 s i)

/-- MixColumns on the whole state. -/
def mixCols (s : Bytes) : Bytes := ((pieces 4 s).map mixCol).flatten

/-- The rounds of the cipher: the list holds the round keys that remain. -/
def aesRounds : List Bytes → Bytes → Bytes
  | [], s => s
  | [k], s => xorB (shiftRows (s.map sbox)) k
  | k :: ks, s => aesRounds ks (xorB (mixCols (shiftRows (s.map sbox))) k)

/-- AES encryption of one block under expanded keys. -/
def aesEncK (ks : List Bytes) (b : Bytes) : Bytes :=
  match ks with
  | [] => b
  | k :: r => aesRounds r (xorB b k)

/-- The rounds of the inverse cipher, round keys last first. -/
def aesInvRounds : List Bytes → Bytes → Bytes
  | [], s => s
  | [k], s => xorB ((ishiftRows s).map isbox) k
  | k :: ks, s => aesInvRounds ks ((pieces 4 (xorB ((ishiftRows s).map isbox) k)).map imixCol).flatten

/-- AES encryption of one 16-byte block (FIPS 197). -/
def aesEnc (key b : Bytes) : Bytes := aesEncK (aesKeys key) (fit 16 b)

/-- AES decryption of one 16-byte block. -/
def aesDec (key b : Bytes) : Bytes :=
  match (aesKeys key).reverse with
  | [] => b
  | k :: r => aesInvRounds r (xorB (fit 16 b) k)

/-- Increment of the last 32 bits of a counter block (SP 800-38D). -/
def inc32 (b : Bytes) : Bytes := b.take 12 ++ be 4 (beAt b 12 4 + 1)

/-- Increment of a whole 128-bit counter block. -/
def inc128 (b : Bytes) : Bytes := be 16 (ofBe b + 1)

/-- `n` blocks of counter-mode keystream from counter block `c`. -/
def ctrStream (inc : Bytes → Bytes) (ks : List Bytes) : Nat → Bytes → Bytes
  | 0, _ => []
  | n + 1, c => aesEncK ks c ++ ctrStream inc ks n (inc c)

/-- Counter mode with a 32-bit counter. -/
def ctr32 (key c data : Bytes) : Bytes := xorB data (ctrStream inc32 (aesKeys key) (ceilDiv data.length 16) c)

/-- Counter mode with a 128-bit counter (SP 800-38A). -/
def ctr128 (key c data : Bytes) : Bytes := xorB data (ctrStream inc128 (aesKeys key) (ceilDiv data.length 16) c)

/-- Multiplication in the GHASH field: `n` bits of `x` from the top remain. -/
def ghMul (x : BitVec 128) : Nat → BitVec 128 → BitVec 128 → BitVec 128
  | 0, _, z => z
  | n + 1, v, z =>
    ghMul x n (if v.getLsbD 0 then (v >>> 1) ^^^ (0xe1 <<< 120) else v >>> 1) (if x.getLsbD n then z ^^^ v else z)

/-- GHASH of whole blocks under hash subkey `h`. -/
def ghash (h : Bytes) (data : Bytes) : Bytes :=
  be 16 ((pieces 16 data).foldl
    (fun (y : BitVec 128) b => ghMul (y ^^^ BitVec.ofNat 128 (ofBe (fit 16 b))) 128 (BitVec.ofNat 128 (ofBe h)) 0) 0).toNat

/-- Fill a string with zero bytes to a multiple of 16. -/
def pad16 (b : Bytes) : Bytes := b ++ zeros ((16 - b.length % 16) % 16)

/-- The first counter block of GCM: a 12-byte IV as it stands, another length hashed. -/
def gcmJ0 (key iv : Bytes) : Bytes :=
  if iv.length = 12 then iv ++ be 4 1
  else ghash (aesEnc key (zeros 16)) (pad16 iv ++ be 8 0 ++ be 8 (8 * iv.length))

/-- The GCM tag over `aad` and ciphertext `c`. -/
def gcmTag (key iv aad c : Bytes) : Bytes :=
  xorB (aesEnc key (gcmJ0 key iv))
    (ghash (aesEnc key (zeros 16)) (pad16 aad ++ pad16 c ++ be 8 (8 * aad.length) ++ be 8 (8 * c.length)))

/-- The GCM keystream cipher: encrypts and decrypts. -/
def gcmCrypt (key iv data : Bytes) : Bytes := ctr32 key (inc32 (gcmJ0 key iv)) data

/-- AES-GCM encryption (SP 800-38D): ciphertext and 16-byte tag. -/
def gcmSeal (key iv aad p : Bytes) : Bytes × Bytes :=
  let c := gcmCrypt key iv p
  (c, gcmTag key iv aad c)

/-- AES-GCM decryption: the plaintext, when the tag verifies. -/
def gcmOpen (key iv aad c tag : Bytes) : Option Bytes :=
  if (gcmTag key iv aad c).take tag.length = tag then some (gcmCrypt key iv c) else none

/-- Multiplication of an XTS tweak by alpha (IEEE 1619): the tweak is a little-endian number. -/
def xtsNext (t : Bytes) : Bytes :=
  let v := 2 * ofLe t
  le 16 (if 2 ^ 128 ≤ v then (v - 2 ^ 128) ^^^ 0x87 else v)

/-- XTS over whole blocks with the block cipher `f`, from tweak `t` on. -/
def xtsBlocks (f : Bytes → Bytes) : List Bytes → Bytes → Bytes
  | [], _ => []
  | b :: bs, t => xorB (f (xorB b t)) t ++ xtsBlocks f bs (xtsNext t)

/-- XTS-AES-256 encryption of a data unit of whole blocks, number `n` (IEEE 1619). -/
def xtsEnc (k1 k2 : Bytes) (n : Nat) (p : Bytes) : Bytes := xtsBlocks (aesEnc k1) (pieces 16 p) (aesEnc k2 (le 16 n))

/-- XTS-AES-256 decryption of a data unit. -/
def xtsDec (k1 k2 : Bytes) (n : Nat) (c : Bytes) : Bytes := xtsBlocks (aesDec k1) (pieces 16 c) (aesEnc k2 (le 16 n))

/-- CBC encryption of whole blocks (SP 800-38A). -/
def cbcEnc (ks : List Bytes) : List Bytes → Bytes → Bytes
  | [], _ => []
  | p :: ps, iv =>
    let c := aesEncK ks (xorB p iv)
    c ++ cbcEnc ks ps c

/-- CBC decryption of whole blocks. -/
def cbcDec (key : Bytes) : List Bytes → Bytes → Bytes
  | [], _ => []
  | c :: cs, iv => xorB (aesDec key c) iv ++ cbcDec key cs c

/-- CFB-128 encryption; the last piece may be short. -/
def cfbEnc (ks : List Bytes) : List Bytes → Bytes → Bytes
  | [], _ => []
  | p :: ps, iv =>
    let c := xorB p (aesEncK ks iv)
    c ++ cfbEnc ks ps c

/-- CFB-128 decryption. -/
def cfbDec (ks : List Bytes) : List Bytes → Bytes → Bytes
  | [], _ => []
  | c :: cs, iv => xorB c (aesEncK ks iv) ++ cfbDec ks cs c

/-- OFB, both ways. -/
def ofb (ks : List Bytes) : List Bytes → Bytes → Bytes
  | [], _ => []
  | p :: ps, iv =>
    let o := aesEncK ks iv
    xorB p o ++ ofb ks ps o

/-- The CBC-MAC chain over whole blocks. -/
def cbcMac (ks : List Bytes) (blocks : List Bytes) : Bytes := blocks.foldl (fun y b => aesEncK ks (xorB y b)) (zeros 16)

/-- CCM associated-data length encoding (SP 800-38C). -/
def ccmAadLen (n : Nat) : Bytes :=
  if n = 0 then [] else if n < 65280 then be 2 n else be 2 0xFFFE ++ be 4 n

/-- The CCM tag over `aad` and plaintext, tag length `t`. -/
def ccmTag (key nonce aad p : Bytes) (t : Nat) : Bytes :=
  let q := 15 - nonce.length
  let b0 := be 1 ((if aad.isEmpty then 0 else 64) + 8 * ((t - 2) / 2) + (q - 1)) ++ nonce ++ be q p.length
  let m := cbcMac (aesKeys key) (pieces 16 (b0 ++ pad16 (ccmAadLen aad.length ++ aad) ++ pad16 p))
  (xorB m (aesEnc key (be 1 (q - 1) ++ nonce ++ be q 0))).take t

/-- The CCM keystream cipher. -/
def ccmCrypt (key nonce data : Bytes) : Bytes :=
  let q := 15 - nonce.length
  ctr128 key (be 1 (q - 1) ++ nonce ++ be q 1) data

/-- Doubling in the CMAC field. -/
def cmacDbl (b : Bytes) : Bytes :=
  let v := BitVec.ofNat 128 (ofBe b)
  be 16 (if v.msb then (v <<< 1) ^^^ 0x87 else v <<< 1).toNat

/-- AES-CMAC (SP 800-38B). -/
def cmac (key m : Bytes) : Bytes :=
  let k1 := cmacDbl (aesEnc key (zeros 16))
  let n := if m.isEmpty then 0 else (m.length - 1) / 16
  let last := m.drop (16 * n)
  let lastB := if last.length = 16 then xorB last k1 else xorB (fit 16 (last ++ [0x80])) (cmacDbl k1)
  cbcMac (aesKeys key) (pieces 16 (m.take (16 * n)) ++ [lastB])

/-- One pass of the key-wrap function over the registers (RFC 3394): `t` is the step counter. -/
def kwPass (ks : List Bytes) : List Bytes → Nat → Bytes → List Bytes → Nat × Bytes × List Bytes
  | [], t, a, acc => (t, a, acc.reverse)
  | r :: rs, t, a, acc =>
    let b := aesEncK ks (a ++ r)
    kwPass ks rs (t + 1) (xorB (b.take 8) (be 8 t)) (b.drop 8 :: acc)

/-- `n` passes of key wrap. -/
def kwPasses (ks : List Bytes) : Nat → Nat → Bytes → List Bytes → Bytes
  | 0, _, a, rs => a ++ rs.flatten
  | n + 1, t, a, rs =>
    let r := kwPass ks rs t a []
    kwPasses ks n r.1 r.2.1 r.2.2

/-- One inverse pass; the registers come last first, and `t` counts down. -/
def kwUnpass (key : Bytes) : List Bytes → Nat → Bytes → List Bytes → Nat × Bytes × List Bytes
  | [], t, a, acc => (t, a, acc)
  | r :: rs, t, a, acc =>
    let b := aesDec key (xorB a (be 8 t) ++ r)
    kwUnpass key rs (t - 1) (b.take 8) (b.drop 8 :: acc)

/-- `n` inverse passes of key wrap. -/
def kwUnpasses (key : Bytes) : Nat → Nat → Bytes → List Bytes → Bytes
  | 0, _, a, rs => a ++ rs.flatten
  | n + 1, t, a, rs =>
    let r := kwUnpass key rs.reverse t a []
    kwUnpasses key n r.1 r.2.1 r.2.2

/-- The wrapping function W of SP 800-38F over a string of whole 8-byte pieces. -/
def kwWrapRaw (key s : Bytes) : Bytes := kwPasses (aesKeys key) 6 1 (s.take 8) (pieces 8 (s.drop 8))

/-- The inverse of W. -/
def kwUnwrapRaw (key c : Bytes) : Bytes :=
  let rs := pieces 8 (c.drop 8)
  kwUnpasses key 6 (6 * rs.length) (c.take 8) rs

/-- AES-KW wrap (RFC 3394) of whole 8-byte pieces. -/
def kwWrap (key p : Bytes) : Bytes := kwWrapRaw key (List.replicate 8 0xA6 ++ p)

/-- AES-KW unwrap. -/
def kwUnwrap (key c : Bytes) : Option Bytes :=
  let s := kwUnwrapRaw key c
  if s.take 8 = List.replicate 8 0xA6 && c.length % 8 == 0 && decide (24 ≤ c.length) then some (s.drop 8) else none

/-- AES-KWP wrap (RFC 5649). -/
def kwpWrap (key p : Bytes) : Bytes :=
  let s := [0xA6, 0x59, 0x59, 0xA6] ++ be 4 p.length ++ p ++ zeros ((8 - p.length % 8) % 8)
  if s.length = 16 then aesEnc key s else kwWrapRaw key s

/-- AES-KWP unwrap. -/
def kwpUnwrap (key c : Bytes) : Option Bytes :=
  if c.length < 16 || c.length % 8 != 0 then none
  else
    let s := if c.length = 16 then aesDec key c else kwUnwrapRaw key c
    let n := beAt s 4 4
    let p := s.drop 8
    if s.take 4 = [0xA6, 0x59, 0x59, 0xA6] && decide (n ≤ p.length) && decide (p.length < n + 8)
        && p.drop n == zeros (p.length - n) then some (p.take n)
    else none

/-- The round constants of Keccak (FIPS 202). -/
def keccakRc : List DWord :=
  [0x0000000000000001, 0x0000000000008082, 0x800000000000808A, 0x8000000080008000, 0x000000000000808B,
   0x0000000080000001, 0x8000000080008081, 0x8000000000008009, 0x000000000000008A, 0x0000000000000088,
   0x0000000080008009, 0x000000008000000A] ++
  [0x000000008000808B, 0x800000000000008B, 0x8000000000008089, 0x8000000000008003, 0x8000000000008002,
   0x8000000000000080, 0x000000000000800A, 0x800000008000000A, 0x8000000080008081, 0x8000000000008080,
   0x0000000080000001, 0x8000000080008008]

/-- The rotation of each lane, lane x + 5 y. -/
def keccakRot : List Nat :=
  [0, 1, 62, 28, 27, 36, 44, 6, 55, 20, 3, 10, 43, 25, 39, 41, 45, 15, 21, 8, 18, 2, 61, 56, 14]

/-- One round of Keccak-f[1600]. -/
def keccakRound (a : List DWord) (rc : DWord) : List DWord :=
  let g := fun (l : List DWord) i => nth 0 l i
  let c := (List.range 5).map (fun x => g a x ^^^ g a (x + 5) ^^^ g a (x + 10) ^^^ g a (x + 15) ^^^ g a (x + 20))
  let d := (List.range 5).map (fun x => g c ((x + 4) % 5) ^^^ (g c ((x + 1) % 5)).rotateLeft 1)
  let t := (List.range 25).map (fun i => (g a i ^^^ g d (i % 5)).rotateLeft (nth 0 keccakRot i))
  -- lane (x, y) of the permuted state comes from lane (x + 3 y, x)
  let b := (List.range 25).map (fun i => g t ((i % 5 + 3 * (i / 5)) % 5 + 5 * (i % 5)))
  let e := (List.range 25).map (fun i => g b i ^^^ (~~~ (g b ((i + 1) % 5 + 5 * (i / 5))) &&& g b ((i + 2) % 5 + 5 * (i / 5))))
  match e with
  | [] => []
  | x :: r => (x ^^^ rc) :: r

/-- Keccak-f[1600]. -/
def keccakF (a : List DWord) : List DWord := keccakRc.foldl keccakRound a

/-- Absorb one padded block. -/
def keccakAbsorb (s : List DWord) (b : Bytes) : List DWord :=
  keccakF (List.zipWith (· ^^^ ·) s ((pieces 8 (fit 200 b)).map (fun w => BitVec.ofNat 64 (ofLe w))))

/-- Squeeze `n` blocks of `rate` bytes. -/
def keccakSqueeze (rate : Nat) : Nat → List DWord → Bytes
  | 0, _ => []
  | n + 1, s => ((s.map (fun w => le 8 w.toNat)).flatten).take rate ++ keccakSqueeze rate n (keccakF s)

/-- The sponge with domain suffix byte `sfx` (FIPS 202). -/
def sponge (rate : Nat) (sfx : Byte) (m : Bytes) (out : Nat) : Bytes :=
  let p := rate - m.length % rate
  let padded := if p = 1 then m ++ [sfx ^^^ 0x80] else m ++ [sfx] ++ zeros (p - 2) ++ [0x80]
  let s := (pieces rate padded).foldl keccakAbsorb (List.replicate 25 0)
  (keccakSqueeze rate (ceilDiv out rate) s).take out

/-- SHAKE256 with an output of `n` bytes. -/
def shake256 (m : Bytes) (n : Nat) : Bytes := sponge 136 0x1F m n

/-- SHA3-256. -/
def sha3_256 (m : Bytes) : Bytes := sponge 136 0x06 m 32

/-- SHA3-384. -/
def sha3_384 (m : Bytes) : Bytes := sponge 104 0x06 m 48

/-- SHA3-512. -/
def sha3_512 (m : Bytes) : Bytes := sponge 72 0x06 m 64

end Sys2Proof.Machine
end

