-- ==== Sys2Proof/Config.lean ====
section
/-! DEFINITION. What an implementation fixes, the free values, and published functions left uninterpreted. -/

namespace Sys2Proof

/-- Silicon revisions (00 R1). -/
inductive Revision where
  | a0 | a1 | b0
  deriving DecidableEq, Repr, Inhabited

/-- The silicon revision of this device (00 R2). -/
opaque Config.revision : Revision

/-- The fused device serial (14 R405). -/
opaque Config.serial : Nat

/-- The Kiln ROM version, GLB_KILNVER (14 Table 14-10). -/
opaque Config.kilnVer : Nat

/-- The hash of the Ceravaras image key in the Kiln ROM (14 R395). -/
opaque Config.imageKeyHash : Bytes

/-- The hash of the Ceravaras return key in the Kiln ROM (14 R386) is of this public key. -/
opaque Config.returnKey : Bytes

/-- The manufacturer's identity in the TAP's IDCODE, which the spec does not give (17 R463). -/
opaque Config.jtagMaker : Nat

/-- A free byte: a random bit string of the device, or a value that the spec leaves open (log entry 3). -/
opaque Config.freeByte : Nat → Byte

/-- The bits of 802.3's PRBS13Q test pattern, which the spec does not give (12 R355; log entry 76). -/
opaque Config.prbs13 : Nat → Bool

/-- Does the read-back of the recorder's n-th flash operation fail? The flash decides (15 R438; log entry 80). -/
opaque Config.readBackFails : Nat → Bool

/-- A free number, for a choice that the spec leaves open (log entry 3). -/
opaque Config.freeNat : Nat → Nat

/-- The mask of a stored key field, from KWR and the field's address (07 R184); the spec gives no formula. -/
opaque Config.keyMask : Bytes → Nat → Bytes

/-- ML-KEM-1024 encapsulation key of a decapsulation key (FIPS 203). -/
opaque Config.mlkemEk : Bytes → Bytes

/-- FIPS 203 check of an encapsulation key. -/
opaque Config.mlkemEkOk : Bytes → Bool

/-- ML-KEM-1024 ciphertext for an encapsulation key and a 32-byte random message. -/
opaque Config.mlkemCt : Bytes → Bytes → Bytes

/-- ML-KEM-1024 shared secret for an encapsulation key and a 32-byte random message. -/
opaque Config.mlkemSs : Bytes → Bytes → Bytes

/-- ML-KEM-1024 decapsulation with implicit rejection. -/
opaque Config.mlkemDecap : Bytes → Bytes → Bytes

/-- ML-DSA-65 public key generated from a 32-byte seed (FIPS 204). -/
opaque Config.mldsaPk : Bytes → Bytes

/-- Hedged ML-DSA-65 signature with an empty context string: seed, message, random bytes. -/
opaque Config.mldsaSign : Bytes → Bytes → Bytes → Bytes

/-- ML-DSA-65 verification: public key, message, signature. -/
opaque Config.mldsaVerify : Bytes → Bytes → Bytes → Bool

/-- P-384 public point, 97 bytes uncompressed, of a secret key. -/
opaque Config.p384Pub : Bytes → Bytes

/-- The point lies on P-384. -/
opaque Config.p384Ok : Bytes → Bool

/-- P-384 ECDH shared secret, 48 bytes. -/
opaque Config.p384Ecdh : Bytes → Bytes → Bytes

/-- The bytes of the state that a lead streams to a joining shadow, and what a shadow reads in them: the spec gives no layout (09 R252). -/
opaque Config.joinBytes : Machine.JoinState → Bytes
opaque Config.joinOf : Bytes → Option Machine.JoinState

/-- The result word of LAT_VERIFY for VALID and for INVALID: the spec gives no code. -/
opaque Config.verifyCode : Bool → Nat

end Sys2Proof
end

