-- ==== Sys2Proof/Machine/StCore.lean ====
section
/-! DEFINITION. State of the Glonik cores, the buffer-pool manager, DDR5 and the memory protection (chapters 10 and 11). -/

namespace Sys2Proof.Machine

/-- Run states of a core (10 Table 10-22). -/
inductive CoreRun where
  | halted | running | waiting | device | doubleFault | retired
  deriving DecidableEq, Repr

/-- The code of a run state (10 Table 10-22). -/
def CoreRun.code : CoreRun → Nat
  | .halted => 0 | .running => 1 | .waiting => 2 | .device => 3 | .doubleFault => 4 | .retired => 5

/-- An open table handle (10 R292). -/
structure Handle where
  kind : Nat
  read : Bool
  search : Bool
  base : Nat
  count : Nat
  deriving DecidableEq, Repr

/-- A message or completion waiting at a core: eight 64-bit words (10 R296, R299). -/
abbrev Message := List DWord

/-- A sleeping EWAIT (10 R301): its word, destination register, mask, limit in clocks (0: none), CLR flag, CYCLE at its start. -/
structure Sleep where
  word : Nat
  rd : Nat
  mask : Nat
  limit : Nat
  clr : Bool
  since : Nat
  deriving DecidableEq, Repr

/-- One Glonik core: registers, control registers of Table 10-9, handles, mailbox, counters, samples. -/
structure Core where
  run : CoreRun := .halted
  /-- g1 to g31 by number; g0 reads 0 (10 R275). -/
  regs : Tab DWord := []
  pc : BitVec 32 := 0
  status : BitVec 64 := 1
  estatus : BitVec 64 := 0
  epc : BitVec 64 := 0
  ecause : BitVec 64 := 0
  eval : BitVec 64 := 0
  evbase : BitVec 64 := 0
  scratch0 : BitVec 64 := 0
  scratch1 : BitVec 64 := 0
  taskCap : BitVec 64 := 0
  cycle : Nat := 0
  timeCmp : BitVec 64 := BitVec.allOnes 64
  trBase : Tab DWord := []
  trLim : Tab DWord := []
  evPend : BitVec 64 := 0
  evSub : BitVec 64 := 0
  pcSel : Tab DWord := []
  pcnt : Tab Nat := []
  smpCfg : BitVec 64 := 0
  smpLost : Nat := 0
  smpSeq : Nat := 0
  /-- Instructions or clocks counted towards the next sample, and the jitter of this interval. -/
  smpCount : Nat := 0
  smpJitter : Nat := 0
  samples : List Bytes := []
  handles : Tab (Option Handle) := []
  mailbox : List Message := []
  /-- Completions not yet delivered (10 R299), and submissions without a delivered completion. -/
  held : List Message := []
  outstanding : Nat := 0
  /-- Submissions whose first of two completions has been delivered (05 R144). -/
  deferredSub : List Nat := []
  mbxDrop : Nat := 0
  /-- Address of a posted store that failed (10 R288). -/
  deferred : Option Nat := none
  sleep : Option Sleep := none
  /-- Local SRAM by byte address. -/
  sram : Tab Byte := []
  /-- The last retired instruction, for sampling: address, word, data address. -/
  lastPc : Nat := 0
  lastInsn : Nat := 0
  lastAddr : Nat := 0
  lastSrc : Nat := 0
  /-- CYCLE at its retirement, and bits 0, 3 and 4 of its FLAGS (10 Table 10-21). -/
  lastCycle : Nat := 0
  lastFlags : Nat := 0
  /-- The instruction that the due sample describes has retired. -/
  smpHit : Bool := false
  deriving DecidableEq, Repr

/-- A cell's owner and charged requester (11 R312). -/
structure Cell where
  owner : Nat
  charged : Nat
  deriving DecidableEq, Repr

/-- The buffer-pool manager (11 R312 to R318). -/
structure Bpm where
  /-- The cell table: OWNER and CHARGED of every owned cell, by number (11 R312). -/
  cells : Tab (Option Cell) := []
  /-- Contents of the cells of cores and of frames that cores sent (zeros where unlisted); the bytes of a frame in the datapath stand in
  the frame. -/
  data : Tab Bytes := []
  count : Tab Nat := []
  /-- Cells in each requester's bobbin. -/
  bob : Tab Nat := []
  /-- Minimum and cap of a requester plus one, once written; 0 stands for the default of Table 11-3. -/
  min : Tab Nat := []
  cap : Tab Nat := []
  deny : Tab Nat := []
  refused : Tab Bool := []
  qsel : Nat := 0
  badFree : Nat := 0
  badCell : Nat := 0
  badReq : Nat := 0
  badValid : Bool := false
  badOwner : Nat := 0
  deriving DecidableEq, Repr

/-- A doubtful subtree (11 R333). -/
structure Doubt where
  level : Nat
  index : Nat
  cause : Nat
  deriving DecidableEq, Repr

/-- A node in the counter-tree cache; `dirty`: its counters differ from the copy in DDR5 (11 R328). -/
structure TreeNode where
  level : Nat
  index : Nat
  dirty : Bool
  deriving DecidableEq, Repr

/-- The write counter that initialisation or a re-provisioning gave every sector and node of a range (11 R325, R334). -/
structure Prov where
  level : Nat
  index : Nat
  value : Nat
  deriving DecidableEq, Repr

/-- The MEM and MEC blocks and the DDR5 bytes (11 Tables 11-13 to 11-15). -/
structure Mem where
  rate : Nat := 3
  trained : Bool := false
  fail : Bool := false
  dimmGib : Nat := 0
  scrub : Nat := 24
  clearBusy : Bool := false
  clearDone : Bool := false
  sramCe : Nat := 0
  ceCnt : Tab Nat := []
  ueCnt : Tab Nat := []
  psize : Nat := 4
  lock : Bool := false
  ready : Bool := false
  cfgErr : Bool := false
  alarm : Bool := false
  rootDoubt : Bool := false
  doubts : List Doubt := []
  reprovBusy : Bool := false
  reprovDone : Bool := false
  reprovRefused : Bool := false
  /-- Level and index of the re-provisioning that runs. -/
  reprov : Option (Nat × Nat) := none
  /-- G (11 R329). -/
  writes : Nat := 0
  doubtAcc : Nat := 0
  masterBlk : Nat := 0
  /-- The two XTS keys and the MAC key K_m, random at every reset (11 R326); empty once destroyed (R337). -/
  xtsKey1 : Bytes := []
  xtsKey2 : Bytes := []
  macKey : Bytes := []
  /-- Write counters: what a range was provisioned with, newest first, 1 elsewhere; and the writes of a sector or node since, by its
  identity of R327. The counters of the top stored level are the root (11 R328). -/
  provs : List Prov := []
  /-- The root as the random source made it at reset, eight 64-bit counters; empty once initialisation has written the region under
  counter 1 (11 R325, R326; log entry 43). -/
  root : Bytes := []
  rises : Tab Nat := []
  /-- The counter-tree cache, 32,768 verified nodes at most (11 R328). -/
  cache : List TreeNode := []
  /-- Content and MAC in DDR5 of a sector or node, by identity, where they are not what the MEC last wrote (log entry 43). -/
  alien : Tab (Option (Bytes × Bytes)) := []
  /-- Bytes of the DDR5 window by offset from its base; 0 where unlisted. -/
  ddr : Tab Byte := []
  /-- Shared firmware memory by offset. -/
  shared : Tab Byte := []
  deriving DecidableEq, Repr

end Sys2Proof.Machine
end

