-- ==== Sys2Proof/Machine/StHost.lean ====
section
/-! DEFINITION. State of the host interface and the event recorder (chapters 13 and 15). -/

namespace Sys2Proof.Machine

/-- A command ring page (13 Table 13-7). -/
structure Ring where
  rbase : Nat := 0
  cbase : Nat := 0
  rcfg : Nat := 0
  en : Bool := false
  pi : Nat := 0
  ci : Nat := 0
  cpi : Nat := 0
  cci : Nat := 0
  halt : Bool := false
  cause : Nat := 0
  /-- Records of the completion ring whose writes wait for D0: CPI does not show them (13 R363). -/
  late : Nat := 0
  /-- Completion entries reserved by fetched descriptors (13 R371). -/
  reserved : Nat := 0
  /-- A fetched descriptor that waits for room, with its submission and its FENCE flag. -/
  waiting : Option (Sub × Desc × Bool) := none
  /-- Holdoff running; a record waits for its signal (13 R379). -/
  holdoff : Bool := false
  sigPend : Bool := false
  deriving DecidableEq, Repr

/-- A frame that an injection queue holds: bytes without FCS, and its cells. -/
structure InjFrame where
  bytes : Bytes
  cells : List Nat
  deriving DecidableEq, Repr

/-- An injection queue page (13 Table 13-8). -/
structure InjQ where
  base : Nat := 0
  cfg : Nat := 0
  en : Bool := false
  vec : Nat := 0
  pi : Nat := 0
  ci : Nat := 0
  etype : Tab Nat := []
  drop : Nat := 0
  frames : List InjFrame := []
  /-- Bytes of a frame whose MORE messages have not all come (10 R296). -/
  building : Bytes := []
  buildCells : List Nat := []
  deriving DecidableEq, Repr

/-- An extraction queue page (13 Table 13-9). -/
structure ExtQ where
  bbase : Nat := 0
  cbase : Nat := 0
  cfg : Nat := 0
  en : Bool := false
  vec : Nat := 0
  bpi : Nat := 0
  bci : Nat := 0
  cpi : Nat := 0
  cci : Nat := 0
  drop : Nat := 0
  /-- Deliveries whose writes wait for D0. -/
  late : Nat := 0
  holdoff : Bool := false
  sigPend : Bool := false
  /-- Addresses of the posted buffers not used yet, oldest first. -/
  bufs : List Nat := []
  deriving DecidableEq, Repr

/-- A DMA write, a DMA read, in requests of at most 4,096 bytes (13 Table 13-1), or an MSI-X message (13 R378, R379). -/
inductive HostOut where
  | read (addr : Nat) (len : Nat)
  | dma (addr : Nat) (bytes : Bytes)
  | msix (vec : Nat)
  deriving DecidableEq, Repr

/-- The HIF block and the BAR2 pages (13 Tables 13-7 to 13-11). -/
structure Hif where
  hostVer : Nat := 0
  maj : Nat := 0
  min : Nat := 0
  valid : Bool := false
  incompat : Bool := false
  /-- HIF_ERR_STATUS bits. -/
  err : Nat := 0
  errVec : Nat := 0
  apBase : Nat := 0
  link : Nat := 0
  d3hot : Bool := false
  subno : Nat := 0
  /-- Completions of ring submissions numbered below this are discarded (13 R380). -/
  discardBelow : Nat := 0
  /-- Completions of core submissions numbered below this are discarded (14 R402). -/
  coreDiscard : Nat := 0
  /-- Writes and signals that wait for D0, newest first (13 R363). -/
  held : List HostOut := []
  /-- Submissions of cores whose input in host memory is read in D0, oldest first: the command, and whether its read ends well. -/
  heldSubs : List (Sub × Desc × Bool) := []
  ring : Tab Ring := []
  inj : Tab InjQ := []
  /-- Completions of OSF's own commands that it has not read: tag and status (07 R210). -/
  osfDone : List (Nat × Nat) := []
  ext : Tab ExtQ := []
  hmbBase : Nat := 0
  hmbCfg : Nat := 0
  hmbEn : Bool := false
  hmbPi : Nat := 0
  /-- Messages whose writes wait for D0. -/
  hmbLate : Nat := 0
  hmbCi : Nat := 0
  hmbHoldoff : Bool := false
  hmbSigPend : Bool := false
  /-- MSI-X table words, exclusive-ored with their reset values, and pending bits (13 Table 13-1). -/
  msix : Tab Nat := []
  pba : Tab Bool := []
  deriving DecidableEq, Repr

/-- An event record's bytes with its severity and sequence number at hand (15 Table 15-18). -/
structure EvRec where
  seq : Nat
  sev : Nat
  src : Nat
  flags : Nat
  code : Nat
  optime : Nat
  pwrCyc : Nat
  calq : Nat
  calSec : Nat
  data : Bytes
  deriving DecidableEq, Repr

/-- An archive sector (15 R437, Table 15-12): its erase count (0: blank header), STATE byte, FIRSTSEQ and records, newest first. -/
structure ArcSector where
  erases : Nat := 0
  state : Nat := 0xFF
  firstSeq : Nat := 0xFFFFFFFF
  recs : List EvRec := []
  deriving DecidableEq, Repr

/-- The event recorder (15 R430 to R438, Table 15-15). -/
structure Evr where
  ready : Bool := false
  flashOk : Bool := false
  ramOnly : Bool := false
  unclean : Bool := false
  /-- Ring slots by index. -/
  ring : Tab (Option EvRec) := []
  lastSlot : Nat := 0
  nextSeq : Nat := 0
  headSeq : Nat := 0
  winSel : Tab Nat := []
  drops : Nat := 0
  arcLost : Nat := 0
  optime : Nat := 0
  pwrCyc : Nat := 0
  calq : Nat := 0
  calSec : Nat := 0
  calSetLo : Nat := 0
  calSetHi : Nat := 0
  postLo : Tab Nat := []
  postHi : Tab Nat := []
  arcCfg : Nat := 0x00200064
  /-- Records formed before the recorder was ready (15 R434). -/
  early : List EvRec := []
  /-- Records waiting to be archived, oldest first, archive-only ones included. -/
  waiting : List EvRec := []
  /-- Archive sectors and the open one (non-volatile). -/
  sectors : Tab ArcSector := []
  openSector : Nat := 0
  retired : List Nat := []
  spares : Nat := 0
  /-- Per-second limits (15 R476): the key and the second of its last record. -/
  limits : List ((Nat × Nat) × Nat) := []
  /-- 1PPS state (17 R465 to R467): edges are accepted, the accepted message (2 x seconds + LEAP), seconds in agreement, and the
  operating time of the last event 0x1102 plus one (0: none). -/
  ppsOn : Bool := false
  ppsMsg : Option Nat := none
  ppsRun : Nat := 0
  /-- The calendar value that the last accepted edge left (17 R467). -/
  ppsPrev : Option Nat := none
  todBad : Nat := 0
  /-- The model's own counter of flash operations: each takes a free choice of how its read-back ends (log entry 80). -/
  flashOps : Nat := 0
  /-- The last archived record ended a flush of power failure, warm reset or zeroise (15 R434; non-volatile). -/
  cleanStop : Bool := false
  deriving DecidableEq, Repr

end Sys2Proof.Machine
end

