-- ==== Sys2Proof/Machine/StKeys.lean ====
section
/-! DEFINITION. State of the KEY, SCE and LAT blocks and of the two protocols that OSF runs, PKX and MKA (chapter 07). -/

namespace Sys2Proof.Machine

/-- ORIGIN of a KEK slot (07 Table 07-2). -/
inductive KeyOrigin where
  | device | persistent | generated | ephemeral
  deriving DecidableEq, Repr

/-- The code of an ORIGIN. -/
def KeyOrigin.code : KeyOrigin → Nat
  | .device => 0 | .persistent => 1 | .generated => 2 | .ephemeral => 3

/-- A KEK slot (07 Table 07-2). `usage` is byte 1 of the second key-record word; LEN follows from the key's length. -/
structure Kek where
  valid : Bool := false
  origin : KeyOrigin := .device
  freshLeft : Bool := false
  usage : Nat := 0
  keyId : Nat := 0
  dctr : Nat := 0
  key : Bytes := []
  deriving DecidableEq, Repr

/-- An LPK slot (07 Table 07-18): TYPE 0 none, 1 ML-KEM-1024, 2 ECDH P-384, 3 ML-DSA-65. `key` is the secret key or its seed. -/
structure Lpk where
  valid : Bool := false
  type : Nat := 0
  keyId : Nat := 0
  key : Bytes := []
  deriving DecidableEq, Repr

/-- A ticket (07 R191): handle, key, FRESH, creating requester, operating time of its creation. -/
structure Ticket where
  handle : Nat
  key : Bytes
  fresh : Bool
  requester : Nat
  created : Nat
  deriving DecidableEq, Repr

/-- What a lattice command found when its execution started (07 R199): the private key it names, which LAT_DECAP and LAT_ECDH clear, and whether
its destination slot is claimed by a command that started before it and still runs. -/
structure LatStart where
  key : Lpk := {}
  clash : Bool := false
  deriving DecidableEq, Repr

/-- A command of the lattice engine that is queued or runs (07 R199): its code of 13 Table 13-4 and its inputs. -/
structure LatCmd where
  sub : Sub
  code : Nat
  /-- Slots, lengths and addresses, in the order of 07 Table 07-5. -/
  args : List Nat
  /-- The memory inputs, read at submission. -/
  data : List Bytes
  fault : Bool
  /-- Set once its execution has started. -/
  run : Option LatStart := none
  deriving DecidableEq, Repr

/-- A service-cipher job (07 Table 07-7). -/
structure SceJob where
  sub : Sub
  requester : Nat
  op : Nat
  mode : Nat
  keySlot : Nat
  len : Nat
  src : Nat
  dst : Nat
  aadAdr : Nat
  aadLen : Nat
  tagLen : Nat
  nonceLen : Nat
  iv : Bytes
  deriving DecidableEq, Repr

/-- PKX session states (07 Table 07-11). -/
inductive PkxState where
  | idle | helloSent | replySent | confirmSent | established | failed
  deriving DecidableEq, Repr

/-- A PKX session (07 R204 to R210). -/
structure PkxSession where
  session : Nat := 0
  state : PkxState := .idle
  initiator : Bool := false
  /-- Port over which the session runs, numbered as PRT[n]. -/
  port : Nat := 0
  hybrid : Bool := false
  verMin : Nat := 0
  peerSerial : Nat := 0
  peerKeyId : Bytes := []
  groups : List (Nat × Nat) := []
  helloUnsigned : Bytes := []
  hello : Bytes := []
  /-- The last message sent, with its code, for retransmission. -/
  lastCode : Nat := 0
  lastMsg : Bytes := []
  retx : Nat := 0
  backoff : Nat := 1
  lpkKem : Option Nat := none
  lpkEc : Option Nat := none
  ckSlot : Option Nat := none
  mkI : Option Nat := none
  mkR : Option Nat := none
  th : Bytes := []
  seqTx : Nat := 1
  seqRx : Nat := 0
  /-- Key number of the last KEYNOTE sent for each group: (group, k). -/
  keyNo : List (Nat × Nat) := []
  /-- The old session that ends T_OVERLAP after this one is established. -/
  replaces : Option Nat := none
  /-- The responder's REPLY, which a repeated HELLO asks for again (07 R208). -/
  reply : Bytes := []
  deriving DecidableEq, Repr

/-- A peer that OSF knows (07 R208). -/
structure PkxPeer where
  keyId : Bytes
  pubKey : Bytes
  serial : Nat
  deriving DecidableEq, Repr

/-- A message being reassembled (07 R204). -/
structure PkxFrag where
  port : Nat
  session : Nat
  code : Nat
  msgLen : Nat
  nfrag : Nat
  parts : Tab Bytes
  deriving DecidableEq, Repr

/-- An SA that OSF has installed for PKX or MKA (07 R206, R210, R213). -/
structure OsfSa where
  chid : Nat
  slot : Nat
  dir : Nat
  /-- The PKX session it comes from, with its group and key number; none for MKA. -/
  session : Option Nat
  group : Nat
  key : Nat
  /-- The tag of the last command of its installation. -/
  tag : Nat
  /-- 0 commands at the gate, 1 installed, 2 retired. -/
  phase : Nat := 0
  /-- Operating time at which OSF saw its first verified frame (05 R150). -/
  first : Option Nat := none
  deriving DecidableEq, Repr

/-- An MKA participant of a CA (07 R212, R213). The slots of the CAK, ICK and KEK, the CKN, the channels and the choices up to `confOfs` are
OSF's configuration. -/
structure MkaCa where
  cak : Nat
  ick : Nat
  kek : Nat
  port : Nat
  ckn : Bytes := []
  txCh : Nat := 0
  rxCh : Nat := 0
  priority : Nat := 0
  suite : Nat := 0
  confOfs : Nat := 0
  an : Nat := 0
  ssci : Nat := 0
  sci : Nat := 0
  memberId : Nat := 0
  mn : Nat := 0
  peerId : Option Nat := none
  peerMn : Nat := 0
  peerPriority : Nat := 0
  peerSci : Nat := 0
  keyServer : Bool := false
  receiveOnly : Bool := false
  sakSlot : Option Nat := none
  third : Nat := 0
  deriving DecidableEq, Repr

/-- What OSF has to do for a CA and needs the service cipher for: an MKPDU received, with its ICV, or its own MKPDU (07 R203). -/
inductive MkaWork where
  | received (n : Nat) (body icv : Bytes)
  | hello (n : Nat)
  deriving DecidableEq, Repr

/-- The KEY, SCE and LAT blocks, and OSF's protocol state. -/
structure Keys where
  /-- KWR, 32 bytes from the random source at every reset; empty once destroyed (07 R184, R185). Key fields of the state are held
  without their mask (log entry 41). -/
  kwr : Bytes := []
  kwrValid : Bool := false
  rngOk : Bool := false
  rngFault : Bool := false
  kek : Tab Kek := []
  lpk : Tab Lpk := []
  tickets : List Ticket := []
  slotSel : Nat := 0
  slotInfo : Tab Nat := []
  sceOwner : Nat := 0
  sceGen : Nat := 0
  sceLease : Nat := 1000
  sceJob : Option SceJob := none
  /-- The service cipher's key register (07 R184). -/
  sceKey : Bytes := []
  sceHeld : Bool := false
  sceLast : Nat := 0
  sceReleases : Nat := 0
  latQueue : List LatCmd := []
  latKatFail : Bool := false
  pkx : Tab PkxSession := []
  pkxPeers : List PkxPeer := []
  /-- OSF's map of key groups: (group, transmit channel, receive channel). -/
  pkxGroups : List (Nat × Nat × Nat) := []
  pkxFrags : List PkxFrag := []
  /-- ABORTs received outside HELLO_SENT, newest first: port, session, reason (07 R208). -/
  pkxAborts : List (Nat × Nat × Nat) := []
  osfSas : List OsfSa := []
  osfTag : Nat := 0
  mka : Tab (Option MkaCa) := []
  /-- OSF work for CAs that waits for the service cipher, oldest first (07 R203). -/
  mkaWait : List MkaWork := []
  deriving DecidableEq, Repr

end Sys2Proof.Machine
end

