-- ==== Sys2Proof/Machine/StMode.lean ====
section
/-! DEFINITION. State of modes, life cycle, lanes, clocks, device counters, flash, board-sensor ports and pins (chapters 12, 14, 16, 17). -/

namespace Sys2Proof.Machine

/-- The twelve modes (14 Table 14-1). -/
inductive Mode where
  | reset | kiln | factory | enrol | solo | lead | shadow | service | swap | fallow | zeroised | returned
  deriving DecidableEq, Repr

/-- The code of a mode (14 Table 14-1). -/
def Mode.code : Mode → Nat
  | .reset => 0 | .kiln => 1 | .factory => 2 | .enrol => 3 | .solo => 4 | .lead => 5 | .shadow => 6
  | .service => 7 | .swap => 8 | .fallow => 9 | .zeroised => 10 | .returned => 11

/-- Life-cycle states (14 R383). -/
inductive Life where
  | virgin | enrolled | sealed | returned | scrapped
  deriving DecidableEq, Repr

/-- The code of a life-cycle state (14 R383). -/
def Life.code : Life → Nat
  | .virgin => 0 | .enrolled => 1 | .sealed => 2 | .returned => 3 | .scrapped => 4

/-- The fuses (14 R383, R400; 07 Table 07-1). -/
structure Fuses where
  life : Life := .virgin
  serial : Nat := 0
  dus : Bytes := []
  dusV : Bool := false
  dusKill : Bool := false
  ownerHash : Bytes := []
  ownerV : Bool := false
  ownerOnly : Bool := false
  svnRt : Nat := 0
  svnMc : Nat := 0
  svnPat : Nat := 0
  deriving DecidableEq, Repr

/-- An image that Kiln or SWAP has loaded: its slot, IMGVER, SVN, and digest D (14 R395, Table 14-8). -/
structure Image where
  slot : Nat := 0
  imgVer : Nat := 0
  svn : Nat := 0
  digest : Bytes := []
  tested : List (Nat × Nat) := []
  deriving DecidableEq, Repr

/-- The GLB and MOD blocks (14 Tables 14-10, 14-15). -/
structure Mod where
  mode : Mode := .reset
  prev : Mode := .reset
  reason : Nat := 0
  /-- The target of a mode change that runs, and the mode it started from. -/
  change : Option (Mode × Mode) := none
  /-- The requester of the mode change that runs. -/
  changeReq : Nat := 0
  refused : Bool := false
  refCode : Nat := 0
  /-- SWAP in progress: runtime and microcode slots named (0 keep, 1 A, 2 B), origin mode. -/
  swapRt : Nat := 0
  swapMc : Nat := 0
  swapOrigin : Mode := .solo
  /-- The images that the SWAP has verified. -/
  swapNewRt : Option Image := none
  swapNewMc : Option Image := none
  fuses : Fuses := {}
  /-- The fuses as the last reset read them: an owner fused later takes effect at the next reset (14 R384, Table 14-4). -/
  fusesRead : Fuses := {}
  /-- Requesters whose previous write to the MOD block was the key value of MOD_LCKEY. -/
  lcArmed : List Nat := []
  lcArg : Nat := 0
  lcBusy : Bool := false
  lcDone : Bool := false
  lcRefused : Bool := false
  lcCode : Nat := 0
  /-- The operation that blows fuses: its OP and the state it leads to. -/
  lcOp : Option (Nat × Life) := none
  /-- The owner key hash that FUSE_OWNER blows. -/
  lcHash : Bytes := []
  rstCause : Nat := 0
  nextMode : Nat := 0
  bistRefused : Bool := false
  bistRun : Bool := false
  bistRes : Nat := 0
  bootStat : Nat := 0
  runtime : Option Image := none
  micro : Option Image := none
  pattern : Option Image := none
  mrArg : Nat := 0
  attSrc : Nat := 0
  attDst : Nat := 0
  attBusy : Bool := false
  attDone : Bool := false
  attErr : Nat := 0
  attReq : Nat := 0
  mrSel : Nat := 0
  mrData : Bytes := []
  nonce : Bytes := []
  /-- MR0 to MR7, 64 bytes each; zeros where unlisted. -/
  mr : Tab Bytes := []
  /-- Kiln waits for TAMPER_N (14 Table 14-6, REASON 12). -/
  kilnWait : Bool := false
  /-- Kiln has tried the images and measured, once per reset; the start mode requested and the verified runtime's body (14 R398, R407). -/
  kilnDone : Bool := false
  kilnReq : Mode := .solo
  kilnBody : Bytes := []
  /-- The lane self-test of a cold reset is still due (12 R361, 14 Table 14-4). -/
  laneTest : Bool := true
  deriving DecidableEq, Repr

/-- One lane, line or Holpen (12 Tables 12-11 to 12-13). -/
structure Lane where
  ctrl : Nat := 0
  txeq : Nat := 0x00383C00
  los : Bool := true
  lol : Bool := true
  acq : Bool := false
  retired : Bool := false
  marginLow : Bool := false
  werr : Bool := false
  losChg : Bool := false
  lolChg : Bool := false
  rate : Nat := 0
  freqOfs : Nat := 0
  fom : Nat := 0
  eye : Nat := 0
  fomMin : Nat := 0
  fomValid : Bool := false
  margin : Nat := 0x78
  calBusy : Bool := false
  calDone : Bool := false
  calRefused : Bool := false
  test : Nat := 0
  testRefused : Bool := false
  testErr : Nat := 0
  cntPll : Nat := 0
  cntCtlr : Nat := 0
  cntAcq : Nat := 0
  lowRun : Nat := 0
  highRun : Nat := 0
  /-- The transmitter is squelched for a PLL that has left lock. -/
  squelch : Bool := false
  deriving DecidableEq, Repr

/-- A device counter (16 Table 16-9). -/
structure PrfCtr where
  event : Nat := 0
  edge : Bool := false
  en : Bool := false
  unit : Nat := 0
  sat : Bool := false
  cnt : Nat := 0
  deriving DecidableEq, Repr

/-- The FLS block (16 Table 16-11) and the flash bytes, 0xFF where unlisted. -/
structure Fls where
  addr : Nat := 0
  len : Nat := 0
  busy : Bool := false
  done : Bool := false
  refused : Bool := false
  err : Bool := false
  suspended : Bool := false
  code : Nat := 0
  size : Nat := 128
  buf : Tab Byte := []
  /-- The operation that runs: OP, address, length. -/
  op : Option (Nat × Nat × Nat) := none
  flash : Tab Byte := []
  deriving DecidableEq, Repr

/-- A board-sensor port (17 Table 17-7). -/
structure I3c where
  ctrl : Nat := 0
  busy : Bool := false
  done : Bool := false
  nack : Bool := false
  err : Bool := false
  ibi : Bool := false
  refused : Bool := false
  ibiAddr : Nat := 0
  ibiData : Nat := 0
  cmd : Nat := 0
  data : Tab Byte := []
  deriving DecidableEq, Repr

/-- The CLK and TMP blocks and the pins (12 Table 12-14, 15 Table 15-16, 17 R458 to R467). -/
structure Pins where
  clk : Nat := 0
  clkChg : Nat := 0
  /-- References declared lost (12 R344), bits as CLK_STATUS. -/
  refLost : Nat := 0
  tamper : Bool := false
  pwrFail : Bool := false
  hot : Bool := false
  tj : Nat := 0
  /-- THERMTRIP_N is driven low. -/
  thermTrip : Bool := false
  /-- The device has stopped after PWRFAIL_N; only a cold reset restarts it (15 R427). -/
  stopped : Bool := false
  deriving DecidableEq, Repr

/-- Retired units and the times of their last transient faults, by (class, unit) (15 R413), and SRAM rows. -/
structure Faults where
  lastAt : List ((Nat × Nat) × Nat) := []
  retired : List (Nat × Nat) := []
  /-- Pipelines under a known-answer pass: unit numbers, with the class of the fault found. -/
  underTest : List (Nat × Nat) := []
  /-- Mirroring slice-directions: 2 slice + direction. -/
  mirror : List Nat := []
  repairUsed : Nat := 0
  /-- Corrected errors of rows in the last 3,600 s: (row, operating time), newest first. -/
  rowCe : List (Nat × Nat) := []
  /-- Words with an uncorrectable error that nothing has repaired: (region of Table 11-1, core or cell, address) (10 R290, 11 R311). -/
  bad : List (Nat × Nat × Nat) := []
  /-- Cores whose instruction self-test runs (15 R418). -/
  coreTest : List Nat := []
  /-- The pool-control error of 11 Table 11-2 made every output fallow. -/
  poolFallow : Bool := false
  deriving DecidableEq, Repr

end Sys2Proof.Machine
end

