-- ==== Sys2Proof/Machine/StSlot.lean ====
section
/-! DEFINITION. State of Slot-mode cipher ports: transmit and receive framer, defects, performance records (chapters 03 and 04). -/

namespace Sys2Proof.Machine

/-- A frame of a packet client in the mapping buffer: its slice, how many of its blocks still wait, and its cells, charged to the slice's
transmit queue until the last of them has left (11 R313). -/
structure MapFrame where
  slice : Nat
  left : Nat
  cells : List Nat
  deriving DecidableEq, Repr

/-- What the transmitter keeps from one slot frame for the next (03 R75, R82, R85, R99, R103). -/
structure SltTx where
  /-- FC of the last frame sent (03 Table 03-13). -/
  fc : Nat := 0
  act : Bool := false
  /-- An SLT_SWAP stands; the tack of it, from whose boundary on REQ is sent; and REQ has been sent (03 R103, 08 R216). -/
  req : Bool := false
  reqAt : Nat := 0
  reqSent : Bool := false
  commit : Bool := false
  timeout : Bool := false
  swMf : Nat := 0
  /-- A matching ACK was verified: COMMIT starts at the next multiframe. -/
  acked : Bool := false
  /-- ACK and CVACK to send for the far end's request. -/
  ack : Bool := false
  cvAck : Nat := 0
  /-- The requested version, CVREQ. -/
  cvReq : Nat := 0
  /-- EDC over the previous frame's tributary columns; tags of the previous frame. -/
  edc : Nat := 0
  ptag : Bytes := []
  tags : Tab Bytes := []
  /-- Slots whose reference waits for its tag to leave (05 R146). -/
  refs : List Nat := []
  /-- The last frame period carried a slot frame with clients: after EN = 0 one more frame follows (03 R89). -/
  running : Bool := false
  /-- FC of the first frame of the unbroken run of frames that the last one belongs to: NAN was carried in all of them (03 R88). -/
  sentFrom : Nat := 0
  /-- Management message in progress and the next SEQ. -/
  mgmt : Bytes := []
  mgmtStarted : Bool := false
  mgmtSeq : Nat := 0
  /-- The port channel's SA encrypted the last frame. -/
  portSa : Bool := false
  /-- The receiver has found an errored frame since the last header (04 R122). -/
  rei : Bool := false
  /-- Mapping buffers by client index, and whether the last mapped block left the client inside a packet (03 R79, R80). -/
  map : Tab (List Block) := []
  mapFrames : Tab (List MapFrame) := []
  inPkt : Tab Bool := []
  /-- 66-bit blocks of a clear port without RS-FEC that do not make four yet (03 R78). -/
  part : Tab (List Block) := []
  /-- The last 31 bits of the PRBS31 sequence, newest lowest (03 Table 03-11, TESTPAT). -/
  prbs : Nat := 0
  deriving DecidableEq, Repr

/-- A client frame held until its tag arrives (03 R94). -/
structure HeldClient where
  idx : Nat
  slot : Nat
  blocks : List Block
  tag : Bytes
  chid : Nat
  octets : Nat
  cells : List Nat
  /-- The frame failed before its tag (03 R90 to R92); `slot` is then not referenced. -/
  failed : Bool
  fc : Nat
  deriving DecidableEq, Repr

/-- The port plaintext of the previous frame, held until PTAG verifies (03 R93), with the ANs and the page in use for that frame. -/
structure HeldPort where
  slot : Nat
  plain : Bytes
  tag : Bytes
  fc : Nat
  an : Tab (Option Nat)
  act : Bool
  deriving DecidableEq, Repr

/-- The receiver of a Slot-mode port (03 R90 to R104, 04 R110, R112). -/
structure SltRx where
  /-- Expected FC of the next frame. -/
  fc : Nat := 0
  fcSync : Bool := false
  /-- The frame in progress is the one whose FAW confirmed alignment (04 R110). -/
  first : Bool := false
  fmtBad : Bool := false
  act : Bool := false
  recov : Bool := false
  swMf : Nat := 0
  /-- FC of the previous frame when it was not as expected (03 R90). -/
  badFc : Option Nat := none
  /-- ANs held for the clients, and the NAN latched in this multiframe. -/
  an : Tab (Option Nat) := []
  nan : Option Bytes := none
  /-- Clients whose last verified CAN differed from the AN held. -/
  anDiff : List Nat := []
  held : List HeldClient := []
  heldPort : Option HeldPort := none
  /-- A frame has been received before this one; it was in alignment; EDC computed over it; it is errored already. -/
  hasPrev : Bool := false
  prevIn : Bool := false
  edc : Nat := 0
  prevErr : Bool := false
  /-- A verified COMMIT in this multiframe; a recovery switch at the next one. -/
  commit : Bool := false
  recovery : Bool := false
  /-- The far end's request has been acted on (03 R103). -/
  reqSeen : Bool := false
  mgmt : Option Bytes := none
  mgmtSeq : Option Nat := none
  /-- Frame alignment; hunt candidates (position, FC) and the position counter. -/
  sync : Bool := false
  cand : List (Nat × Nat) := []
  pos : Nat := 0
  candOvf : Nat := 0
  oofCnt : Nat := 0
  fawErr : Nat := 0
  /-- Playout of port clients: clients whose playout runs; verified blocks waiting; clients waiting for a start character. -/
  play : Tab Bool := []
  buf : Tab (List Block) := []
  needStart : Tab Bool := []
  /-- The last block played out left the client inside a packet (03 R97). -/
  playIn : Tab Bool := []
  /-- The packet that a packet client has begun: its bytes from the destination address on. -/
  pkt : Tab (Option Bytes) := []
  /-- Last verified frame of an unselected merge member: FC, SA slot and blocks (09 R242). -/
  spare : Tab (Option (Nat × Nat × List Block)) := []
  /-- The last 31 PRBS31 bits, once a frame has given them. -/
  prbs : Option Nat := none
  deriving DecidableEq, Repr

/-- Defects and run counts of a port (04 Tables 04-1, 04-5, 04-7). `bits` and `failBits` hold bits 0 to 7 of Table 04-1. -/
structure SltDef where
  bits : Nat := 0
  failBits : Nat := 0
  csf : Tab Bool := []
  ctag : Tab Bool := []
  csfFail : Tab Bool := []
  ctagFail : Tab Bool := []
  dchg : Nat := 0
  fchg : Nat := 0
  lomRun : Nat := 0
  lomClr : Nat := 0
  ptagRun : Nat := 0
  ptagOk : Nat := 0
  rdiRun : Nat := 0
  rdiClr : Nat := 0
  degRun : Nat := 0
  degClr : Nat := 0
  ctagRun : Tab Nat := []
  deriving DecidableEq, Repr

/-- One classified second (04 R125, R127). -/
structure PmSec where
  errored : Nat := 0
  es : Bool := false
  ses : Bool := false
  feInvalid : Bool := true
  feRei : Nat := 0
  feEs : Bool := false
  feSes : Bool := false
  frameMode : Bool := false
  partialSec : Bool := false
  startOt : Nat := 0
  startCal : Nat := 0
  calq : Nat := 0
  deriving DecidableEq, Repr

/-- One performance interval (04 Table 04-9). -/
structure PmInt where
  valid : Bool := false
  partialInt : Bool := false
  fena : Bool := false
  feSusp : Bool := false
  neEs : Nat := 0
  neSes : Nat := 0
  neUas : Nat := 0
  neBbe : Nat := 0
  feEs : Nat := 0
  feSes : Nat := 0
  feUas : Nat := 0
  feBbe : Nat := 0
  startOt : Nat := 0
  startCal : Nat := 0
  calq : Nat := 0
  deriving DecidableEq, Repr

/-- Performance records of one cipher port (04 R123 to R129). -/
structure Pm where
  /-- Counts of the second in progress: errored frames, frame periods, SES defects seen, hunting seen, verified headers, REI, RDI. -/
  errored : Nat := 0
  periods : Nat := 0
  defect : Bool := false
  hunted : Bool := false
  hdrs : Nat := 0
  hdrRei : Nat := 0
  hdrRdi : Bool := false
  /-- Frame mode: errored blocks and frame index at the start of the second. -/
  baseErr : Nat := 0
  baseIdx : Nat := 0
  /-- Calendar time stepped, or the time source changed, in the second (04 R123). -/
  step : Bool := false
  /-- The port was disabled at some moment of the second. -/
  down : Bool := true
  startOt : Nat := 0
  startCal : Nat := 0
  startCalq : Nat := 0
  last : Option PmSec := none
  /-- Seconds ended and not yet entered, oldest first, and the last one entered. -/
  line : List PmSec := []
  entered : Option PmSec := none
  neUnavail : Bool := false
  feUnavail : Bool := false
  cur15 : PmInt := {}
  curDay : PmInt := {}
  hist15 : List PmInt := []
  histDay : List PmInt := []
  deriving DecidableEq, Repr

/-- One SLT region outside the gated fields. -/
structure SltPort where
  tx : SltTx := {}
  rx : SltRx := {}
  dfc : SltDef := {}
  pm : Pm := {}
  degThr : Nat := 3052
  degM : Nat := 7
  /-- Counters of 03 Table 03-19 by index i, offset 0x040 + 8 i. -/
  ctr : Tab Nat := []
  prbsErr : Nat := 0
  /-- Cells reserved for the receive hold of the lower and of the upper slice (03 R95). -/
  reserveLo : Nat := 0
  reserveHi : Nat := 0
  deriving DecidableEq, Repr

/-- The shared SLT registers (04 Tables 04-8, 04-9). -/
structure SltBlk where
  port : Tab SltPort := []
  pmSel : Nat := 0
  pmCfg : Nat := 0
  pmSnap : PmInt := {}
  deriving DecidableEq, Repr

end Sys2Proof.Machine
end

