-- ==== Sys2Proof/Machine/StTwin.lean ====
section
/-! DEFINITION. State of the TWN block: pairs, digests, fences, heartbeats, Holpen links (chapter 09). -/

namespace Sys2Proof.Machine

/-- A partner digest that waits for comparison (09 R245): first index of its batch, count, digest, and the tack of its arrival order. -/
structure PartnerDigest where
  first : Nat
  count : Nat
  digest : Bytes
  deriving DecidableEq, Repr

/-- The TWN state of one line port (09 R243 to R249, Table 09-17). -/
structure TwnPort where
  /-- STATE of Table 09-17: 0 compared or unpaired, 1 fenced, 2 hunting, 3 awaiting the resync boundary. -/
  state : Nat := 0
  base : Int := 0
  fenceDrop : Nat := 0
  suppress : Nat := 0
  /-- Frame hashes of the last 4,096 frames, newest first: (index, hash). -/
  hashes : List (Nat × Nat) := []
  /-- Digests of the last 1,024 closed batches, newest first: (batch, digest). -/
  digests : List (Nat × Bytes) := []
  waiting : List PartnerDigest := []
  /-- Fingerprints of the lead's stream: (index, fingerprint), newest first, at most 4,096. -/
  leadFp : List (Nat × Nat) := []
  /-- Offset and tack of the TWN_RESYNC applied. -/
  resync : Option (Int × Nat) := none
  /-- The lead's resync state of the port, once it has arrived: (channel, CURAN, NEXTPN) (09 R249). -/
  resyncSt : Option (List (Nat × Nat × Nat)) := none
  /-- Parts of that state that have come before its last one (09 R263). -/
  resyncPart : List (Nat × Nat × Nat) := []
  /-- The lead compares only digests from these first indices on, of the frames sent and of the received slot frames: those before them come
  from a shadow whose port was still fenced (09 R245; log entry 72). -/
  cmpFrom : Nat := 0
  cmpRx : Nat := 0
  /-- The lead sends its digests for the port with fingerprints (09 R249). -/
  hunt : Bool := false
  /-- A slice fault of a twin: the port is not compared until a join (15 R420). -/
  sliceFault : Bool := false
  /-- The partner's notice of it came since the pair formed. -/
  noticed : Bool := false
  deriving DecidableEq, Repr

/-- A Holpen frame before a hop protects it (09 Table 09-7): what its header and payload say. -/
structure HpFrame where
  type : Nat
  prio : Nat
  dst : Nat
  src : Nat
  hops : Nat
  eseq : Nat
  payload : Bytes
  deriving DecidableEq, Repr

/-- One Holpen port (09 Table 09-16, R263 to R266). -/
structure HpPort where
  /-- STATE: 0 down, 1 training, 2 key exchange, 3 up, 4 INCOMPAT, 5 retired. -/
  state : Nat := 0
  vmaj : Nat := 0
  vmin : Nat := 0
  nbr : Nat := 0
  retry : Nat := 0
  txKey : Bytes := []
  txSalt : Bytes := []
  rxKey : Bytes := []
  rxSalt : Bytes := []
  txCtr : Nat := 0
  rxCtr : Nat := 0
  lseq : Nat := 0
  lack : Nat := 0
  /-- Failures in a row of the frame expected next. -/
  fails : Nat := 0
  lowSerial : Bool := false
  /-- A neighbour has said LINKHELLO, and has not been reported lost since (09 R270). -/
  known : Bool := false
  /-- The port's PCS or FEC lacks alignment (12 R358). -/
  loa : Bool := false
  /-- Frames that wait for transmission, in the order they were formed (09 R264). -/
  txq : List HpFrame := []
  /-- The resend buffer: lossless frames sent and not acknowledged, oldest first, each with its LSEQ and the requests to resend it (09 R265). -/
  sent : List (Nat × Nat × HpFrame) := []
  deriving DecidableEq, Repr

/-- The TWN block. -/
structure Twn where
  cfg : Nat := 4
  /-- PAIR of TWN_STATUS: 0 none, 1 compared, 2 heartbeat, 3 alone. -/
  pair : Nat := 0
  primacy : Bool := false
  coast : Bool := false
  pathA : Bool := false
  pathB : Bool := false
  tookOver : Bool := false
  split : Bool := false
  pdpVer : Nat := 0
  partner : Nat := 0
  nodeAddr : Nat := 0x01FF0000
  hpCfg : Nat := 0
  hbCfg : Nat := 0
  collect : Nat := 0
  /-- Counters of Table 09-15 by index i, offset 0x0040 + 8 i. -/
  ctr : Tab Nat := []
  hp : Tab HpPort := []
  port : Tab TwnPort := []
  /-- Transmit channels left fenced after a resynchronisation (09 R249). -/
  chFence : List Nat := []
  /-- Compared-pair heartbeats: own sequence, last received. -/
  hbSeq : Nat := 0
  hbRx : Nat := 0
  /-- Divergences declared in this millisecond of operating time: (time, port), for R250's rule of eight ports (log entry 57). -/
  diverged : List (Nat × Nat) := []
  /-- Partner-gone evidence: a DEPART received, and the partner reported lost by the torus (09 R255). -/
  evDepart : Bool := false
  evNbr : Bool := false
  /-- A heartbeat of the partner has come since this device took over: contact has returned (09 R256). -/
  contact : Bool := false
  /-- The partner's node address, as path A's link gave it (09 R235). -/
  partnerNode : Option Nat := none
  /-- (SRC, ESEQ) pairs flooded, newest first, at most 16 (09 R269). -/
  flooded : List (Nat × Nat) := []
  eseq : Nat := 0
  /-- Heartbeat pairing (09 R259, R260): active, frame sequence, last SEQ received, first heartbeat got. -/
  hbActive : Bool := false
  hbFrSeq : Nat := 0
  hbFrRx : Nat := 0
  hbFirst : Bool := false
  /-- This device is taking over: its next heartbeat frame says so (09 Table 09-6). -/
  hbTaking : Bool := false
  /-- Selected member of each Slot-mode merge group: key 1024 slice + group, value channel. -/
  mgSel : Tab Nat := []
  /-- FC of the last failed frame of a group's selected member that no other member could follow yet (09 R242), by the same key. -/
  mgFail : Tab (Option Nat) := []
  /-- Bytes of a tack record whose Holpen frames have not all come (log entry 16). -/
  recBuf : Bytes := []
  /-- ESEQ of the last TACKREC frame taken from the lead, by which a frame repeated on a change of path is known (09 R265). -/
  recEseq : Option Nat := none
  /-- A shadow that has paired takes the lead's next RSEQ as it comes (09 R252, Table 09-4). -/
  rseqFree : Bool := false
  /-- Bytes of the lead's join state whose RESYNC frames have not all come (09 R252, log entry 16). -/
  joinBuf : Bytes := []
  /-- Record stream for a joining shadow has been installed (09 R252). -/
  joined : Bool := false
  /-- A pair has formed for a rejoin after a stop of R217: records are applied again, while STOPPED stands until the join (09 R252). -/
  rejoin : Bool := false
  deriving DecidableEq, Repr

end Sys2Proof.Machine
end

