-- ==== Sys2Proof/Machine/State.lean ====
section
/-! DEFINITION. The device's state as plain data, its faults and refusals, and the state right after reset. -/

namespace Sys2Proof.Machine

/-- How a read request completes (13 R364, R366; 16 R441): its bytes, least significant first, or a status. -/
inductive BusAns where
  | data (v : Nat)
  /-- Unsupported Request. -/
  | unsupported
  /-- Completer Abort. -/
  | abort
  deriving DecidableEq, Repr

/-- What the device sends: the model's record of its outputs (log entry 4). -/
inductive Out where
  /-- A line frame without FCS on port `p`; `ok` false: ended with an error control character (02 R55). -/
  | frame (p : Nat) (bytes : Bytes) (ok : Bool)
  /-- Idle in place of a frame or slot frame (03 R87, R89; 09 R238, R247). -/
  | idle (p : Nat)
  /-- A slot frame on cipher port `p` (PRT number). -/
  | slot (p : Nat) (blocks : List Block)
  /-- Client blocks played out on clear port `p`. -/
  | client (p : Nat) (blocks : List Block)
  /-- Local-fault ordered sets on clear port `p` in place of client data (04 R116). -/
  | localFault (p : Nat)
  /-- A DMA write to host memory or an MSI-X message. -/
  | host (o : HostOut)
  /-- A Holpen frame on port HPj. -/
  | holpen (j : Nat) (bytes : Bytes)
  /-- A command of the lead's record has completed at the shadow: its tag, status and tack (08 R227). -/
  | applied (tag : Nat) (status : Nat) (final : Bool) (tack : Nat) (res : List Nat)
  /-- A read answered to a requester: its offset and its completion. -/
  | read (req : Nat) (off : Nat) (ans : BusAns)
  /-- A host access completed with Unsupported Request or Completer Abort. -/
  | refusedAccess (req : Nat) (off : Nat)
  /-- An I3C transfer on port `b`: its CMD word and write data. -/
  | i3c (b : Nat) (cmd : Nat) (data : Bytes)
  deriving DecidableEq, Repr

/-- Faults of the model: none of the block's commands stops the device, so the one constructor is never raised. -/
inductive Fault where
  /-- Raised by nothing (safe): every command of the table answers a next state. -/
  | none
  deriving DecidableEq, Repr

/-- Refusals of the model. -/
inductive Refusal where
  /-- Raised by `exec` alone, for a command without a meaning in this model (safe). -/
  | notModelled (mnemonic : String)
  deriving DecidableEq, Repr

/-- The device: every register, table, queue and pin that the spec names. -/
structure Dev where
  /-- What the device has sent, newest first (log entry 4). -/
  out : List Out := []
  /-- Counter of free values (log entry 3). -/
  fresh : Nat := 0
  /-- The gate's view of the gated tables. -/
  tab : Tables := {}
  /-- Views of frames below a boundary: (k, the tables before tack k), oldest first (log entry 5). -/
  views : List (Nat × Tables) := []
  tck : Tck := {}
  port : Tab Port := []
  slice : Tab Slice := []
  slt : SltBlk := {}
  sas : Sas := {}
  stn : Stn := {}
  pat : Pat := {}
  keys : Keys := {}
  twn : Twn := {}
  core : Tab Core := []
  bpm : Bpm := {}
  mem : Mem := {}
  hif : Hif := {}
  evr : Evr := {}
  mod : Mod := {}
  lane : Tab Lane := []
  hln : Tab Lane := []
  prf : Tab PrfCtr := []
  /-- The clock events of 16 Table 16-10 whose value was not 0 in the previous datapath clock: (code, UNIT). -/
  prfHigh : List (Nat × Nat) := []
  prfFreeze : Bool := false
  fls : Fls := {}
  i3c : Tab I3c := []
  pins : Pins := {}
  flt : Faults := {}
  /-- High-word holding copies per requester: (address of the low word, high word) (00 R5). -/
  hold : Tab (Option (Nat × Nat)) := []
  deriving DecidableEq, Repr

/-- The state of the block: the device, and the commands that wait, first in first out. -/
structure State where
  pending : List Instr := []
  dev : Dev := {}
  deriving DecidableEq, Repr

/-- The device right after reset: every register at its reset value, mode RESET, memory with nothing listed; MOD_NONCE is
random at every reset (14 R386). -/
def Dev.reset : Dev :=
  { fresh := 32
    mod := { fuses := { serial := Config.serial }, fusesRead := { serial := Config.serial }, nonce := (List.range 32).map Config.freeByte } }

/-- The block right after reset: no command waits. -/
def State.reset : State := { dev := Dev.reset }

end Sys2Proof.Machine
end

