-- ==== Sys2Proof/Machine/Ops.lean ====
section
/-! DEFINITION. Operations that every block uses: free values, counters, host writes, cells, events, Holpen sends, completions. -/

namespace Sys2Proof.Machine

/-! ### Free values and outputs -/

/-- A free number (log entry 3). -/
def freeNat (d : Dev) : Nat × Dev := (Config.freeNat d.fresh, { d with fresh := d.fresh + 1 })

/-- `n` free bytes: a bit string of the random source, or bytes that the spec leaves open (log entry 3). -/
def freeBytes (n : Nat) (d : Dev) : Bytes × Dev :=
  ((List.range n).map (fun i => Config.freeByte (d.fresh + i)), { d with fresh := d.fresh + n })

/-- Send something (log entry 4). -/
def emit (o : Out) (d : Dev) : Dev := { d with out := o :: d.out }

/-- Fold an operation over a list of items. -/
def each {α : Type} (l : List α) (f : α → Dev → Dev) (d : Dev) : Dev := l.foldl (fun d a => f a d) d

/-- Carry out `f` when `c` holds. -/
def when_ (c : Bool) (f : Dev → Dev) (d : Dev) : Dev := if c then f d else d

/-! ### Access to replicated structures -/

def Dev.getPort (d : Dev) (n : Nat) : Port := Tab.get {} d.port n
def Dev.updPort (n : Nat) (f : Port → Port) (d : Dev) : Dev := { d with port := Tab.upd {} d.port n f }
def Dev.getTck (d : Dev) (n : Nat) : TckPort := Tab.get {} d.tck.port n
def Dev.updTck (n : Nat) (f : TckPort → TckPort) (d : Dev) : Dev :=
  { d with tck := { d.tck with port := Tab.upd {} d.tck.port n f } }
def Dev.getTwn (d : Dev) (n : Nat) : TwnPort := Tab.get {} d.twn.port n
def Dev.updTwn (n : Nat) (f : TwnPort → TwnPort) (d : Dev) : Dev :=
  { d with twn := { d.twn with port := Tab.upd {} d.twn.port n f } }
def Dev.getHp (d : Dev) (j : Nat) : HpPort := Tab.get {} d.twn.hp j
def Dev.updHp (j : Nat) (f : HpPort → HpPort) (d : Dev) : Dev :=
  { d with twn := { d.twn with hp := Tab.upd {} d.twn.hp j f } }
def Dev.getSlice (d : Dev) (s : Nat) : Slice := Tab.get {} d.slice s
def Dev.updSlice (s : Nat) (f : Slice → Slice) (d : Dev) : Dev := { d with slice := Tab.upd {} d.slice s f }
def Dev.getCore (d : Dev) (c : Nat) : Core := Tab.get {} d.core c
def Dev.updCore (c : Nat) (f : Core → Core) (d : Dev) : Dev := { d with core := Tab.upd {} d.core c f }
def Dev.getRing (d : Dev) (r : Nat) : Ring := Tab.get {} d.hif.ring r
def Dev.updRing (r : Nat) (f : Ring → Ring) (d : Dev) : Dev := { d with hif := { d.hif with ring := Tab.upd {} d.hif.ring r f } }
def Dev.getInj (d : Dev) (q : Nat) : InjQ := Tab.get {} d.hif.inj q
def Dev.updInj (q : Nat) (f : InjQ → InjQ) (d : Dev) : Dev := { d with hif := { d.hif with inj := Tab.upd {} d.hif.inj q f } }
def Dev.getExt (d : Dev) (q : Nat) : ExtQ := Tab.get {} d.hif.ext q
def Dev.updExt (q : Nat) (f : ExtQ → ExtQ) (d : Dev) : Dev := { d with hif := { d.hif with ext := Tab.upd {} d.hif.ext q f } }
def Dev.getSlt (d : Dev) (p : Nat) : SltPort := Tab.get {} d.slt.port p
def Dev.updSlt (p : Nat) (f : SltPort → SltPort) (d : Dev) : Dev := { d with slt := { d.slt with port := Tab.upd {} d.slt.port p f } }
/-- Lanes 0 to 63 are LNE[l], 64 to 79 HLN[l - 64]. -/
def Dev.getLane (d : Dev) (l : Nat) : Lane := if l < 64 then Tab.get {} d.lane l else Tab.get {} d.hln (l - 64)
def Dev.updLane (l : Nat) (f : Lane → Lane) (d : Dev) : Dev :=
  if l < 64 then { d with lane := Tab.upd {} d.lane l f } else { d with hln := Tab.upd {} d.hln (l - 64) f }
def Dev.getKek (d : Dev) (n : Nat) : Kek := Tab.get {} d.keys.kek n
def Dev.updKek (n : Nat) (f : Kek → Kek) (d : Dev) : Dev := { d with keys := { d.keys with kek := Tab.upd {} d.keys.kek n f } }
def Dev.getLpk (d : Dev) (n : Nat) : Lpk := Tab.get {} d.keys.lpk n
def Dev.updLpk (n : Nat) (f : Lpk → Lpk) (d : Dev) : Dev := { d with keys := { d.keys with lpk := Tab.upd {} d.keys.lpk n f } }
def Dev.getLive (d : Dev) (slot : Nat) : SaLive := Tab.get {} d.sas.live slot
def Dev.updLive (slot : Nat) (f : SaLive → SaLive) (d : Dev) : Dev := { d with sas := { d.sas with live := Tab.upd {} d.sas.live slot f } }
def Dev.getChl (d : Dev) (c : Nat) : ChanLive := Tab.get {} d.sas.chan c
def Dev.updChl (c : Nat) (f : ChanLive → ChanLive) (d : Dev) : Dev := { d with sas := { d.sas with chan := Tab.upd {} d.sas.chan c f } }

/-- Entries of the gated tables in one view. -/
def Tables.getPrt (t : Tables) (n : Nat) : PrtGated := Tab.get {} t.prt n
def Tables.getSlt (t : Tables) (n : Nat) : SltGated := Tab.get {} t.slt n
def Tables.getChn (t : Tables) (c : Nat) : Chan := Tab.get {} t.chn c
def Tables.getSa (t : Tables) (s : Nat) : SaStat := Tab.get {} t.sa s
def Tables.updPrt (n : Nat) (f : PrtGated → PrtGated) (t : Tables) : Tables := { t with prt := Tab.upd {} t.prt n f }
def Tables.updSlt (n : Nat) (f : SltGated → SltGated) (t : Tables) : Tables := { t with slt := Tab.upd {} t.slt n f }
def Tables.updChn (c : Nat) (f : Chan → Chan) (t : Tables) : Tables := { t with chn := Tab.upd {} t.chn c f }
def Tables.updSa (s : Nat) (f : SaStat → SaStat) (t : Tables) : Tables := { t with sa := Tab.upd {} t.sa s f }

/-- Update the SAS block. -/
def Dev.updSas (f : Sas → Sas) (d : Dev) : Dev := { d with sas := f d.sas }

/-- Update the MEC and MEM blocks. -/
def Dev.updMem (f : Mem → Mem) (d : Dev) : Dev := { d with mem := f d.mem }

/-- Update the HIF block. -/
def Dev.updHif (f : Hif → Hif) (d : Dev) : Dev := { d with hif := f d.hif }

/-- Update the MOD block. -/
def Dev.updMod (f : Mod → Mod) (d : Dev) : Dev := { d with mod := f d.mod }

/-- Update the key and SCE units. -/
def Dev.updKeys (f : Keys → Keys) (d : Dev) : Dev := { d with keys := f d.keys }

/-- Change the gate's view. -/
def Dev.updTab (f : Tables → Tables) (d : Dev) : Dev := { d with tab := f d.tab }

/-- A datapath transition is seen at once by every frame: it changes every view (log entry 5). -/
def Dev.updViews (f : Tables → Tables) (d : Dev) : Dev :=
  { d with tab := f d.tab, views := d.views.map (fun v => (v.1, f v.2)) }

/-! ### Counters -/

/-- Add to a saturating 64-bit counter of a table. -/
def bump (t : Tab Nat) (i n : Nat) : Tab Nat := Tab.upd 0 t i (fun v => sat64 (v + n))

/-- Count on Frame-mode port counter `i` (02 Table 02-17). -/
def portCount (n i : Nat) (d : Dev) : Dev := d.updPort n (fun p => { p with ctr := bump p.ctr i 1 })

/-- The port's RS decoder has handled codewords (12 R351). -/
def fecCount (n : Nat) (f : FecRun) (d : Dev) : Dev := d.updPort n (fun p => { p with
  fecCw := sat64 (p.fecCw + f.cw), fecCorr := sat64 (p.fecCorr + f.corr), fecUncorr := sat64 (p.fecUncorr + f.uncorr), fecSymErr := sat64 (p.fecSymErr + f.sym) })

/-- An errored block of a Frame-mode cipher port (04 Table 04-3). -/
def errBlock (n : Nat) (d : Dev) : Dev := d.updPort n (fun p => { p with errBlk := p.errBlk + 1 })

/-- Count on classifier counter `i` of a port (06 Table 06-17). -/
def patCount (n i : Nat) (d : Dev) : Dev := d.updPort n (fun p => { p with pat := bump p.pat i 1 })

/-- Count on SA counter `i` of a slot (02 Table 02-14). -/
def saCount (slot i n : Nat) (d : Dev) : Dev := d.updLive slot (fun l => { l with ctr := bump l.ctr i n })

/-- Count on TWN counter `i` (09 Table 09-15). -/
def twnCount (i : Nat) (d : Dev) : Dev := { d with twn := { d.twn with ctr := bump d.twn.ctr i 1 } }

/-- Count on partition counter `i` of the station block (06 Table 06-21). -/
def stnCount (q i n : Nat) (d : Dev) : Dev := { d with stn := { d.stn with ctr := bump d.stn.ctr (8 * q + i) n } }

/-- A device counter advances by `n`, saturating (16 R448). -/
def PrfCtr.add (n : Nat) (c : PrfCtr) : PrfCtr :=
  let v := c.cnt + n
  if v ≥ 2 ^ 48 then { c with cnt := 2 ^ 48 - 1, sat := true } else { c with cnt := v }

/-- Count `n` of a PRF event for a unit; an event without units passes `none` (16 R448, Table 16-10). The clocks before and after the command's hold
no such event, so a counter in edge mode adds 1. -/
def prfCount (ev : Nat) (unit : Option Nat) (n : Nat) (d : Dev) : Dev :=
  if d.prfFreeze then d
  else { d with prf := (List.range 16).foldl (fun t i =>
    Tab.upd {} t i (fun c =>
      if c.en && c.event == ev && (match unit with | none => true | some u => c.unit == u) then c.add (if c.edge then Nat.min n 1 else n) else c)) d.prf }

/-! ### Host writes and interrupts (13 R378, R379) -/

/-- A write or signal towards the host; in D3hot it waits (13 R363). -/
def hostOut (o : HostOut) (d : Dev) : Dev :=
  if d.hif.d3hot then { d with hif := { d.hif with held := o :: d.hif.held } } else emit (.host o) d

/-- A DMA read of host memory; what it gives comes with the command that needs it (13 R368, R375, R377, R378). -/
def dmaRead (addr n : Nat) (d : Dev) : Dev := hostOut (.read addr n) d

/-- The PCI Express link trains: its rate and width are free among those of Table 13-1 (13 Tables 13-1, 13-11; log entry 79). -/
def linkTrain (d : Dev) : Dev :=
  let r := freeNat d
  let w := freeNat r.2
  { w.2 with hif := { w.2.hif with link := 5 + r.1 % 3 + 16 * (4 * 2 ^ (w.1 % 3)) } }

/-- A word of the MSI-X table: the mask bit of every vector is 1 at reset (log entry 11). -/
def msixWord (d : Dev) (i : Nat) : Nat := Tab.get 0 d.hif.msix i ^^^ (if i % 4 = 3 then 1 else 0)

/-- Signal an MSI-X vector: a masked vector becomes pending. -/
def sendMsix (vec : Nat) (d : Dev) : Dev :=
  if bitAt (msixWord d (4 * vec + 3)) 0 then { d with hif := { d.hif with pba := Tab.set false d.hif.pba vec true } }
  else hostOut (.msix vec) d

/-- Set a bit of HIF_ERR_STATUS, signalling its vector when the bit becomes 1 (13 Table 13-11). -/
def hostErr (bit : Nat) (d : Dev) : Dev :=
  if bitAt d.hif.err bit then d
  else
    let d := { d with hif := { d.hif with err := setBit d.hif.err bit true } }
    if bitAt d.hif.errVec 31 then sendMsix (fld d.hif.errVec 10 0) d else d

/-- Signal ring `r` after a record, or leave it to the end of the holdoff (13 R379). -/
def ringSignal (r : Nat) (d : Dev) : Dev :=
  let g := d.getRing r
  if g.holdoff then d.updRing r (fun g => { g with sigPend := true })
  else sendMsix (fld g.rcfg 26 16) (d.updRing r (fun g => { g with holdoff := decide (fld g.rcfg 15 8 ≠ 0) }))

/-- Signal extraction queue `q` (13 R379, Table 13-9). -/
def extSignal (q : Nat) (d : Dev) : Dev :=
  let g := d.getExt q
  if g.holdoff then d.updExt q (fun g => { g with sigPend := true })
  else sendMsix (fld g.vec 10 0) (d.updExt q (fun g => { g with holdoff := decide (fld g.cfg 23 16 ≠ 0) }))

/-- Signal the message ring (13 R379, Table 13-10). -/
def hmbSignal (d : Dev) : Dev :=
  if d.hif.hmbHoldoff then { d with hif := { d.hif with hmbSigPend := true } }
  else sendMsix (fld d.hif.hmbCfg 26 16) { d with hif := { d.hif with hmbHoldoff := decide (fld d.hif.hmbCfg 15 8 ≠ 0) } }

/-! ### The buffer-pool manager (11 R312 to R318) -/

/-- Default minimum of a requester (11 Table 11-3). -/
def bpmMinDef (q : Nat) : Nat :=
  if q < 0x40 then 64 else if q < 0x58 then 1024 else if q < 0xA0 then 0 else if q < 0xC0 then 16 else 0

/-- Default cap of a requester (11 Table 11-3). -/
def bpmCapDef (q : Nat) : Nat :=
  if q < 0x40 then 1024 else if q < 0x48 then 4096 else if q < 0x50 then 2048 else if q < 0x58 then 4096
  else if q < 0x60 then 0 else if q < 0xA0 then 2048 else if q < 0xB0 then 512 else if q < 0xC0 then 1024 else 0

/-- min(q). -/
def Bpm.minOf (b : Bpm) (q : Nat) : Nat := match Tab.get 0 b.min q with | 0 => bpmMinDef q | v + 1 => v

/-- cap(q). -/
def Bpm.capOf (b : Bpm) (q : Nat) : Nat := match Tab.get 0 b.cap q with | 0 => bpmCapDef q | v + 1 => v

def Bpm.cnt (b : Bpm) (q : Nat) : Nat := Tab.get 0 b.count q
def Bpm.bobOf (b : Bpm) (q : Nat) : Nat := Tab.get 0 b.bob q

/-- The requesters of Table 11-3. -/
def requesters : List Nat := List.range 0xC0

/-- C (11 R314). -/
def Bpm.shared (b : Bpm) : Nat := 131072 - (requesters.map b.minOf).sum

/-- U (11 R314). -/
def Bpm.used (b : Bpm) : Nat := (requesters.map (fun q => (b.cnt q - b.minOf q) + b.bobOf q)).sum

/-- Cells in the ring (11 R314). -/
def Bpm.ring (b : Bpm) : Nat := 131072 - (requesters.map (fun q => b.cnt q + b.bobOf q)).sum

/-- Large bobbins belong to the datapath's requesters (11 Table 11-3). -/
def bpmLarge (q : Nat) : Bool := decide (0x40 ≤ q) && decide (q < 0xA0)

/-- Bobbin marks (11 Table 11-4). -/
def bobLow (q : Nat) : Nat := if bpmLarge q then 16 else 2
def bobTarget (q : Nat) : Nat := if bpmLarge q then 48 else 8
def bobHigh (q : Nat) : Nat := if bpmLarge q then 96 else 16

/-- grant(q) of 11 R314, without the cell's number. -/
def Bpm.grant (b : Bpm) (q : Nat) : Option Bpm :=
  if b.cnt q ≥ b.capOf q then none
  else if b.cnt q ≥ b.minOf q && b.bobOf q == 0 && decide (b.used ≥ b.shared) then none
  else some { b with bob := Tab.upd 0 b.bob q (· - 1), count := Tab.upd 0 b.count q (· + 1) }

/-- release(r, cell) of 11 R314 for a cell that `r` owns and that is charged to `q`. -/
def Bpm.release (b : Bpm) (r q : Nat) : Bpm :=
  let u := b.used
  -- U after the count falls: one less when the cell stood above the minimum
  let b' := { b with count := Tab.upd 0 b.count q (· - 1) }
  if b.bobOf r < bobHigh r && (b'.cnt q ≥ b.minOf q || decide (u < b.shared)) then
    { b' with bob := Tab.upd 0 b'.bob r (· + 1) }
  else b'

/-- move(r, q, cell) of 11 R314 on the counts: `r` is the requester charged before. -/
def Bpm.move (b : Bpm) (r q : Nat) : Option Bpm :=
  let ovr := decide (b.cnt q ≥ b.minOf q)
  let abv := decide (b.cnt r > b.minOf r)
  if b.cnt q ≥ b.capOf q then none
  else if ovr && !abv && decide (b.used ≥ b.shared) then none
  else some { b with count := Tab.upd 0 (Tab.upd 0 b.count r (· - 1)) q (· + 1) }

/-- `n` grants, all or none. -/
def Bpm.grantN (q : Nat) : Nat → Bpm → Option Bpm
  | 0, b => some b
  | n + 1, b => match b.grant q with | none => none | some b => Bpm.grantN q n b

/-- `n` moves, all or none (11 R313). -/
def Bpm.moveN (r q : Nat) : Nat → Bpm → Option Bpm
  | 0, b => some b
  | n + 1, b => match b.move r q with | none => none | some b => Bpm.moveN r q n b

/-- `n` releases. -/
def Bpm.releaseN (r q : Nat) : Nat → Bpm → Bpm
  | 0, b => b
  | n + 1, b => Bpm.releaseN r q n (b.release r q)

/-- Count a refused grant or move (11 R313). -/
def bpmDeny (q : Nat) (d : Dev) : Dev := { d with bpm := { d.bpm with deny := bump d.bpm.deny q 1 } }

/-- OWNER of a cell as BPM_LASTOWN shows it: 0xFF when it is free (11 Table 11-11). -/
def Bpm.ownerOf (b : Bpm) (cell : Nat) : Nat := match Tab.get none b.cells cell with | some x => x.owner | none => 0xFF

/-- The first cell from `i` on that no requester owns; `fuel` bounds the search. -/
def freeCellFrom (cells : Tab (Option Cell)) : Nat → Nat → Nat
  | 0, i => i % 131072
  | f + 1, i => if Tab.get none cells (i % 131072) = none then i % 131072 else freeCellFrom cells f (i + 1)

/-- Uncorrectable errors of a cell are gone: its words have been written or belong to nobody (11 R311, R320). -/
def cleanCell (cell : Nat) (f : Faults) : Faults := if f.bad.isEmpty then f else { f with bad := f.bad.filter (fun b => !(b.1 == 0 && b.2.1 == cell)) }

/-- Give a cell to `q`, charged to `ch`, zeroed: its number is a free value among the free cells (11 R312, R320; log entry 6). -/
def labelCell (q ch : Nat) (d : Dev) : Nat × Dev :=
  let r := freeNat d
  let c := freeCellFrom r.2.bpm.cells r.2.bpm.cells.length r.1
  (c, { r.2 with bpm := { r.2.bpm with cells := Tab.set none r.2.bpm.cells c (some ⟨q, ch⟩), data := Tab.set [] r.2.bpm.data c [] }
                 flt := cleanCell c r.2.flt })

/-- Give `n` cells to `q`, in the order of the frame's bytes. -/
def labelN (q : Nat) : Nat → Dev → List Nat × Dev
  | 0, d => ([], d)
  | n + 1, d =>
    let r := labelCell q q d
    let rest := labelN q n r.2
    (r.1 :: rest.1, rest.2)

/-- Grant `n` cells to `q`, all or none (11 R313, R314). -/
def takeCells (q n : Nat) (d : Dev) : Option (List Nat) × Dev :=
  match Bpm.grantN q n d.bpm with
  | some b =>
    let r := labelN q n (prfCount 8 none n { d with bpm := b })
    (some r.1, r.2)
  | none => (none, bpmDeny q d)

/-- The cells take a new owner and charge. -/
def Bpm.reassign (q : Nat) (cells : List Nat) (b : Bpm) : Bpm :=
  { b with cells := cells.foldl (fun t c => Tab.upd none t c (fun o => o.map (fun _ => ⟨q, q⟩))) b.cells }

/-- Move a frame's cells from `r` to `q`, all or none (11 R313, R314). -/
def moveCells (r q : Nat) (cells : List Nat) (d : Dev) : Bool × Dev :=
  match Bpm.moveN r q cells.length d.bpm with
  | some b => (true, { d with bpm := b.reassign q cells })
  | none => (false, bpmDeny q d)

/-- A frame that `r` holds in `cells` passes to `q`, which needs `n` cells for it: those it has are moved, and the rest is granted, all or
none (11 R313). Cells that it needs no more stay with `r`. -/
def passCells (r q : Nat) (cells : List Nat) (n : Nat) (d : Dev) : Option (List Nat) × Dev :=
  let keep := cells.take n
  let m := n - keep.length
  match (Bpm.moveN r q keep.length d.bpm).bind (Bpm.grantN q m) with
  | some b =>
    let x := labelN q m ({ d with bpm := b.reassign q keep })
    (some (keep ++ x.1), if m = 0 then x.2 else prfCount 8 none m x.2)
  | none => (none, bpmDeny q d)

/-- release(r, cell) of 11 R314: a cell that `r` does not own stays. -/
def Bpm.drop (r : Nat) (b : Bpm) (cell : Nat) : Bpm :=
  match Tab.get none b.cells cell with
  | some c =>
    if c.owner = r then
      let b := b.release r c.charged
      { b with cells := Tab.set none b.cells cell none, data := Tab.set [] b.data cell [] }
    else b
  | none => b

/-- Free the cells of `cells` that stage `q` owns. -/
def freeCells (q : Nat) (cells : List Nat) (d : Dev) : Dev :=
  if cells.isEmpty then d
  else prfCount 9 none cells.length { d with bpm := cells.foldl (Bpm.drop q) d.bpm, flt := cells.foldl (fun f c => cleanCell c f) d.flt }

/-- A numbered cell for a core or an injection queue, zeroed (11 R320), or `none` when the grant is denied. -/
def grantCell (q : Nat) (d : Dev) : Option (Nat × Dev) :=
  match d.bpm.grant q with
  | none => none
  | some b => some (labelCell q q (prfCount 8 none 1 { d with bpm := b }))

/-- Give back a cell that `r` owns. -/
def dropCell (r cell : Nat) (d : Dev) : Dev := if d.bpm.ownerOf cell = r then freeCells r [cell] d else d

/-! ### Events (15 R428 to R434) -/

/-- The source block of an event (15 Table 15-19). -/
def evSrc (code : Nat) (data : Bytes) : Nat :=
  let h := code / 256
  if h = 2 then 10 else if h = 3 || h = 4 then 11 else if h = 5 then 15 else if h = 6 then 13
  else if code = 0x0702 then 19 else if code = 0x0706 then 63 else if h = 7 then 21
  else if h = 8 then 17 else if h = 9 then 18 else if h = 10 then 25
  else if code ≤ 0x0B03 then 22 else if code = 0x0B04 || code = 0x0B08 || code = 0x0B0A then 23 else if h = 11 then 24
  else if code = 0x0C01 then 2 else if h = 12 then (if byteAt data 0 = 0 then 8 else 9)
  else if h = 13 then 3 else if h = 14 then 1
  else if code ≤ 0x0F05 then 4
  else if code ≤ 0x0F11 then nth 16 [16, 16, 16, 25, 8, 9, 18, 23, 19, 20] (byteAt data 0)
  else if code = 0x0F12 || code = 0x0F14 then 16 else if code = 0x0F13 then 1 else if h = 15 then 6
  else if code = 0x1103 then 6 else 4

/-- The 32 bytes of a record (15 Table 15-18). -/
def EvRec.bytes (r : EvRec) : Bytes :=
  be 4 r.seq ++ be 1 (64 * r.sev + r.src) ++ be 1 r.flags ++ be 2 r.code ++ be 6 r.optime ++ be 3 r.pwrCyc
    ++ be 1 r.calq ++ be 6 r.calSec ++ fit 8 r.data

/-- Sequence number `a` was issued before `b` (15 R431). -/
def seqBefore (a b : Nat) : Bool := a != b && (b + 2 ^ 32 - a) % 2 ^ 32 < 2 ^ 31

/-- The lowest empty slot of the ring from slot `i` on. -/
def lowestGap : Nat → Tab (Option EvRec) → Nat
  | i, [] => i
  | i, (k, _) :: t => if k = i then lowestGap (i + 1) t else i

/-- The slot of the oldest record of severity `s` (15 R430). -/
def oldestOf (s : Nat) (ring : Tab (Option EvRec)) : Option (Nat × EvRec) :=
  ring.foldl (fun best e =>
    match e.2 with
    | none => best
    | some r =>
      if r.sev ≠ s then best
      else match best with
        | none => some (e.1, r)
        | some b => if seqBefore r.seq b.2.seq then some (e.1, r) else best) none

/-- place(r): the slot to take, and the record it overwrites (15 R430). -/
def placeSlot (sev : Nat) (ring : Tab (Option EvRec)) : Option (Nat × Option EvRec) :=
  let g := lowestGap 0 ring
  if g < 32768 then some (g, none)
  else (List.range (sev + 1)).foldl (fun acc s =>
    match acc with
    | some a => some a
    | none => (oldestOf s ring).map (fun o => (o.1, some o.2))) none

/-- Set sticky event bits on cores: `all` for a device-wide event with its EVSUB test (10 R300). -/
def evPendAll (bit : Nat) (d : Dev) : Dev :=
  { d with core := (List.range 64).foldl (fun t c =>
      Tab.upd {} t c (fun k => if k.evSub.getLsbD bit then { k with evPend := k.evPend ||| BitVec.twoPow 64 bit } else k)) d.core }

/-- Set a sticky event bit on one core. -/
def evPendCore (c bit : Nat) (d : Dev) : Dev := d.updCore c (fun k => { k with evPend := k.evPend ||| BitVec.twoPow 64 bit })

/-- Records in one 64 KiB archive sector, and the sectors of the archive region of a flash (15 R437, 14 Table 14-5). -/
def recsPerSector : Nat := 2047
def archiveTotal (mib : Nat) : Nat := (mib - 72) * 16

/-- A record with the recorder's own sequence number and times. -/
def Evr.stamp (r : EvRec) (e : Evr) : EvRec :=
  { r with seq := e.nextSeq, optime := e.optime, pwrCyc := e.pwrCyc, calq := e.calq, calSec := if e.calq = 0 then 0 else e.calSec }

/-- Form and place a record. -/
def placeRec (r : EvRec) (archiveOnly : Bool) (e : Evr) : Evr :=
  let r := e.stamp r
  let e := { e with nextSeq := (e.nextSeq + 1) % 2 ^ 32 }
  let wait := !e.ramOnly && e.flashOk
  if archiveOnly then (if wait then { e with waiting := e.waiting ++ [r] } else e)
  else match placeSlot r.sev e.ring with
    | none => { e with drops := sat64 (e.drops + 1) }
    | some (slot, old) =>
      let lost := match old with | none => false | some o => e.waiting.any (fun w => w.seq == o.seq)
      let waiting := match old with | none => e.waiting | some o => e.waiting.filter (fun w => w.seq != o.seq)
      { e with ring := Tab.set none e.ring slot (some r), lastSlot := slot, headSeq := r.seq,
               arcLost := if lost then sat64 (e.arcLost + 1) else e.arcLost,
               waiting := if wait then waiting ++ [r] else waiting }

/-- The next sector of the rotation after `i`: retired sectors and the spares at the end are passed over; `fuel` bounds the search. -/
def nextSector (total : Nat) (e : Evr) : Nat → Nat → Nat
  | 0, i => i
  | f + 1, i =>
    let j := if i + 1 < total - e.spares then i + 1 else 0
    if e.retired.contains j then nextSector total e f j else j

/-- The erase count that a blank header is given: the highest in the archive plus 1 (15 R437). -/
def blankErases (e : Evr) : Nat := e.sectors.foldl (fun a s => Nat.max a s.2.erases) 0 + 1

/-- Retire sector `i` (15 R438): a spare takes its place, or the recorder goes on in RAM only. -/
def retireSector (i why : Nat) (e : Evr) : Evr :=
  if e.spares = 0 then
    { placeRec ⟨0, 3, 4, 0, 0x0F04, 0, 0, 0, 0, fit 8 [1]⟩ false { e with ramOnly := true, waiting := [] } with waiting := [] }
  else
    placeRec ⟨0, 2, 4, 0, 0x0F03, 0, 0, 0, 0, fit 8 (be 2 i ++ be 1 why)⟩ false
      { e with retired := i :: e.retired, spares := e.spares - 1, sectors := Tab.upd {} e.sectors i (fun s => { s with state := 0, erases := if s.erases = 0 then blankErases e else s.erases }) }

/-- A flash operation of the recorder: does its read-back fail? A free choice for each (15 R438; log entry 80). -/
def Evr.flashOp (e : Evr) : Bool × Evr := (Config.readBackFails e.flashOps, { e with flashOps := e.flashOps + 1 })

/-- The sector ahead of the open one is erased; one that reaches its endurance, or whose erase fails its read-back, is retired and the next one
erased (15 R433, R438). -/
def eraseAhead (total : Nat) : Nat → Evr → Evr
  | 0, e => e
  | f + 1, e =>
    if e.ramOnly then e
    else
      let n := nextSector total e total e.openSector
      let s := Tab.get {} e.sectors n
      if s.state = 0xFF then e
      else
        let op := e.flashOp
        let e := { op.2 with sectors := Tab.set {} e.sectors n { erases := if s.erases = 0 then blankErases e else s.erases + 1 } }
        if op.1 then eraseAhead total f (retireSector n 2 e)
        else if (Tab.get {} e.sectors n).erases ≥ fld e.arcCfg 9 0 * 1000 then eraseAhead total f (retireSector n 1 e) else e

/-- The recorder opens the next sector of the rotation, and the one ahead of it is erased. -/
def openNext (total : Nat) (e : Evr) : Evr := eraseAhead total total { e with openSector := nextSector total e total e.openSector }

/-- The page program of a record into the open sector. A full sector makes the recorder open the next one (15 R433, R437). -/
def programRec (total : Nat) (r : EvRec) (e : Evr) : Evr :=
    let o := Tab.get {} e.sectors e.openSector
    let o := if o.state = 0x7F then o else { o with erases := if o.erases = 0 then blankErases e else o.erases, state := 0x7F, firstSeq := r.seq }
    let o := { o with recs := r :: o.recs }
    let full := decide (recsPerSector ≤ o.recs.length)
    let e := { e with sectors := Tab.set {} e.sectors e.openSector { o with state := if full then 0x3F else 0x7F }, cleanStop := false }
    if full then openNext total e else e

/-- Archive one record: a page program that fails its read-back retires the open sector, and the record goes to the next one, if a spare replaced it
(15 R438). Each failure takes a spare, so `fuel` of two more than the spares is enough. -/
def archiveTry (total : Nat) (r : EvRec) : Nat → Evr → Evr
  | 0, e => e
  | f + 1, e =>
    if e.ramOnly then e
    else
      let op := e.flashOp
      if op.1 then
        let e := retireSector e.openSector 2 op.2
        archiveTry total r f (if e.ramOnly then e else openNext total e)
      else programRec total r op.2

def archiveOne (total : Nat) (r : EvRec) (e : Evr) : Evr := archiveTry total r (e.spares + 2) e

/-- Byte `k` of an archive sector (15 R437, Table 15-12). -/
def ArcSector.byte (s : ArcSector) (k : Nat) : Byte :=
  if k < 32 then
    if s.erases = 0 && s.state = 0xFF then 0xFF
    else (be 4 0x4F564C47 ++ be 4 s.erases ++ be 1 s.state ++ [0xFF, 0xFF, 0xFF] ++ be 4 s.firstSeq).getD k 0xFF
  else
    let i := k / 32 - 1
    if i < s.recs.length then ((s.recs.getD (s.recs.length - 1 - i) ⟨0, 0, 0, 0, 0, 0, 0, 0, 0, []⟩).bytes).getD (k % 32) 0 else 0xFF

/-! ### Holpen frames (09 R263 to R270) -/

/-- The IV of a Holpen frame (09 R263); DIRECTION 0 is the lower serial's (log entry 12). -/
def hpIv (salt : Bytes) (dir ctr : Nat) : Bytes := xorB (fit 12 salt) (be 4 dir ++ be 8 ctr)

/-- The reference of a lane: 0 clear face, 1 cipher face, 2 Holpen (12 Table 12-3). -/
def laneRef (l : Nat) : Nat := if l < 32 then 0 else if l < 64 then 1 else 2

/-- The rate code of a lane: that of a Holpen lane is fixed (12 R339, R358). -/
def laneRate (l : Nat) (d : Dev) : Nat := if 64 ≤ l then 2 else (d.getLane l).rate

/-- A lane sends no signal: its transmitter is squelched, or its reference is lost (12 R344, R348, R359, R360). -/
def laneQuiet (l : Nat) (d : Dev) : Bool := (d.getLane l).squelch || bitAt d.pins.refLost (laneRef l)

/-- Holpen port `j` sends; nothing reaches the far end while one of its lanes is quiet, or in RESET and KILN (14 Table 14-1). -/
def hpEmit (j : Nat) (b : Bytes) (d : Dev) : Dev := if d.mod.mode == .reset || d.mod.mode == .kiln || laneQuiet (64 + 2 * j) d || laneQuiet (65 + 2 * j) d then d else emit (.holpen j b) d

/-- A hop is lossless for every frame but ZEROISE, HEARTBEAT and the model's request to resend, TYPE 0 (09 R265; log entry 58). -/
def hpLossless (type : Nat) : Bool := type != 0 && type != 2 && type != 3

/-- A frame's header (09 Table 09-7). -/
def HpFrame.header (h : HpPort) (lseq : Nat) (f : HpFrame) : Bytes :=
  be 1 (16 * h.vmaj + h.vmin) ++ be 1 (64 * f.prio + f.type) ++ be 2 f.payload.length ++ be 2 f.dst ++ be 2 f.src
    ++ be 1 f.hops ++ be 1 lseq ++ be 1 h.lack ++ [0] ++ be 4 f.eseq

/-- Protect a frame under the link key and transmit it; each transmission takes a link frame counter of its own (09 R263). -/
def hpTransmit (j lseq : Nat) (f : HpFrame) (d : Dev) : Dev :=
  let h := d.getHp j
  let hdr := f.header h lseq
  let sealed := gcmSeal h.txKey (hpIv h.txSalt (if h.lowSerial then 0 else 1) h.txCtr) hdr f.payload
  hpEmit j (hdr ++ sealed.1 ++ sealed.2) (d.updHp j (fun h => { h with txCtr := h.txCtr + 1 }))

/-- The node's own address and whether its torus ports may send (09 R267). -/
def nodeAddr (d : Dev) : Nat := fld d.twn.nodeAddr 8 0
def nodeLocked (d : Dev) : Bool := bitAt d.twn.nodeAddr 31

/-- Holpen port `j` is a torus port, or the spare of one (09 R262). -/
def isTorus (j : Nat) (d : Dev) : Bool := decide (j < 6) || (j == 7 && fld d.twn.hpCfg 1 0 == 1)

/-- Transmit a LINKHELLO frame, unprotected: header, payload, and a tag of zeros (09 R266; log entry 58). -/
def linkTransmit (j : Nat) (f : HpFrame) (d : Dev) : Dev := hpEmit j (f.header { vmaj := 1 } 0 ++ f.payload ++ zeros 16) d

/-- The first transmission of a frame: a lossless one takes the next LSEQ and stays in the resend buffer, of 128 frames, until it is
acknowledged (09 R265; log entry 58). -/
def hpFirst (j : Nat) (f : HpFrame) (d : Dev) : Dev :=
  if f.type = 1 then linkTransmit j f d else
  let q := (d.getHp j).lseq
  let d := hpTransmit j q f d
  if hpLossless f.type then
    d.updHp j (fun h => { h with lseq := (q + 1) % 256, sent := h.sent ++ [(q, 0, f)] })
  else d

/-- Send a frame on Holpen port `j`, when it is up. A frame of priority 0 finds none before it and leaves at once; another waits (09 R264). -/
def hpSend (j type prio dst src hops eseq : Nat) (payload : Bytes) (d : Dev) : Dev :=
  let f : HpFrame := ⟨type, prio, dst, src, hops, eseq, payload⟩
  if (d.getHp j).state ≠ 3 then d
  else if prio = 0 then hpFirst j f d
  else d.updHp j (fun h => { h with txq := h.txq ++ [f] })

/-- The place of a frame in the order of transmission: its priority number, with ZEROISE before HEARTBEAT (09 R264). -/
def HpFrame.rank (f : HpFrame) : Nat := 64 * f.prio + f.type * (1 - f.prio)

/-- The waiting frame that goes next: the first one of the lowest rank. -/
def hpNext : List HpFrame → Option HpFrame
  | [] => none
  | f :: l => match hpNext l with
    | some g => if g.rank < f.rank then some g else some f
    | none => some f

/-- The waiting frames that may go now: a lossless one waits while the resend buffer is full (09 R265). -/
def hpReady (h : HpPort) : List HpFrame :=
  if h.sent.length < 128 then h.txq else h.txq.filter (fun f => f.type == 1 || !hpLossless f.type)

/-- Transmit `n` waiting frames of a port, each the next of those that may go (09 R264). -/
def hpDrain (j : Nat) : Nat → Dev → Dev
  | 0, d => d
  | n + 1, d => match hpNext (hpReady (d.getHp j)) with
    | none => d
    | some f => hpDrain j n (hpFirst j f (d.updHp j (fun h => { h with txq := h.txq.erase f })))

/-- Every Holpen port transmits what waits; a torus port keeps it until the node address is locked (09 R267). -/
def hpDrainAll (d : Dev) : Dev :=
  each (List.range 8) (fun j d => if isTorus j d && !nodeLocked d then d else hpDrain j (d.getHp j).txq.length d) d

/-- A LINKHELLO frame waits for transmission, whatever the state of the port (09 R264, R266). -/
def linkSend (j : Nat) (payload : Bytes) (d : Dev) : Dev :=
  d.updHp j (fun h => { h with txq := h.txq ++ [⟨1, 2, 0, nodeAddr d, 24, 0, payload⟩] })

/-- The payload of the version offer: the map of the major versions supported and the minor version of each, then the sender's node address and
serial (09 R266, R267; log entry 58). -/
def helloPayload (d : Dev) : Bytes := be 2 2 ++ zeros 16 ++ be 2 (nodeAddr d) ++ be 8 d.mod.fuses.serial

/-- Step 1 of a Holpen port's bring-up. -/
def linkHello (j : Nat) (d : Dev) : Dev := linkSend j (helloPayload d) d

/-- The frames that wait on the torus ports are given the address that LOCK has fixed (09 R267). -/
def relabelTorus (d : Dev) : Dev :=
  each ((List.range 8).filter (fun j => isTorus j d)) (fun j d => d.updHp j (fun h => { h with
    txq := h.txq.map (fun f => if f.type = 1 then { f with src := nodeAddr d, payload := if beAt f.payload 0 2 = 2 then helloPayload d else f.payload } else f) })) d

/-- The two ports of dimension `k` that are up: plus and minus direction; HP7 stands in as a spare (09 R262). -/
def torusPort (d : Dev) (j : Nat) : Option Nat :=
  if !nodeLocked d then none
  else if (d.getHp j).state = 3 then some j
  else if fld d.twn.hpCfg 1 0 = 1 && fld d.twn.hpCfg 4 2 == j && (d.getHp 7).state == 3 then some 7
  else none

/-- The output port of a unicast frame (09 R268): the first dimension that needs a move and has a working port. -/
def routePort (dst : Nat) (d : Dev) : Option Nat :=
  let dim := fun (k : Nat) => fld d.twn.nodeAddr (18 + 3 * k) (16 + 3 * k) + 1
  let co := fun (a k : Nat) => fld a (8 - 3 * k) (6 - 3 * k)
  (List.range 3).foldl (fun acc k =>
    match acc with
    | some p => some p
    | none =>
      let n := dim k
      let f := (co dst k + n - co (nodeAddr d) k % n) % n
      if f = 0 then none
      else
        let plus := f ≤ n - f
        match torusPort d (if plus then 2 * k else 2 * k + 1) with
        | some p => some p
        | none => torusPort d (if plus then 2 * k + 1 else 2 * k)) none

/-- Send a mesh frame towards a node; a node without a route sends nothing. -/
def meshSend (type prio dst : Nat) (payload : Bytes) (d : Dev) : Dev :=
  let d := { d with twn := { d.twn with eseq := (d.twn.eseq + 1) % 2 ^ 32 } }
  match routePort dst d with
  | none => d
  | some j => hpSend j type prio dst (nodeAddr d) 24 d.twn.eseq payload d

/-- The ports on which a broadcast is flooded: the working torus ports, without the arrival port (09 R269). -/
def floodPorts (arrival : Option Nat) (zeroise : Bool) (d : Dev) : List Nat :=
  let torus := (List.range 6).filterMap (torusPort d)
  let bridge := if zeroise && bitAt d.twn.cfg 4 && fld d.twn.hpCfg 1 0 == 2 && (d.getHp 7).state == 3 then [7] else []
  (torus ++ bridge).filter (fun j => some j ≠ arrival)

/-- Flood a broadcast frame. -/
def meshFlood (type prio src hops eseq : Nat) (payload : Bytes) (arrival : Option Nat) (d : Dev) : Dev :=
  let d := { d with twn := { d.twn with flooded := ((src, eseq) :: d.twn.flooded).take 16 } }
  each (floodPorts arrival (type = 2) d) (fun j => hpSend j type prio 0x8000 src hops eseq payload) d

/-! ### Messages to the partner (09 R235, Table 09-8; log entry 16) -/

/-- PRIORITY of a frame type (09 Table 09-8). -/
def hpPrio (type : Nat) : Nat := if type = 2 || type = 3 then 0 else if 4 ≤ type && type ≤ 8 then 1 else if type = 12 then 3 else 2

/-- The Holpen ports that reach only the partner. -/
def isTwinPort (j : Nat) (d : Dev) : Bool := j == 6 || (j == 7 && fld d.twn.hpCfg 1 0 == 3)

/-- Path B: HP7, or the torus route to the partner's node address (09 R235); the port and the DST of its frames. -/
def pathB (d : Dev) : Option (Nat × Nat) :=
  if fld d.twn.hpCfg 1 0 = 3 then (if (d.getHp 7).state = 3 then some (7, (d.getHp 7).nbr) else none)
  else match d.twn.partnerNode with
    | some n => if n = nodeAddr d then none else (routePort n d).map (fun j => (j, n))
    | none => none

/-- Path A while it is up, path B otherwise (09 R235). -/
def twinPath (d : Dev) : Option (Nat × Nat) := if (d.getHp 6).state = 3 then some (6, (d.getHp 6).nbr) else pathB d

/-- Send a message of the pair on a path. -/
def pathSend (path : Option (Nat × Nat)) (type eseq : Nat) (payload : Bytes) (d : Dev) : Dev :=
  match path with
  | some (j, dst) => hpSend j type (hpPrio type) dst (nodeAddr d) 24 eseq payload d
  | none => d

/-- A message to the partner of a formed pair. -/
def twinSend (type : Nat) (payload : Bytes) (d : Dev) : Dev := if d.twn.pair = 1 then pathSend (twinPath d) type 0 payload d else d

/-- MISMATCH: the port, the first index of the batch, and the slice-fault flag (09 Table 09-8, 15 R420). -/
def mismatchMsg (p first : Nat) (slice : Bool) : Bytes := be 1 p ++ be 10 first ++ be 1 slice.toNat

/-- Copy a WARNING or CRITICAL record to the collector node (09 R270). -/
def collectRec (r : EvRec) (d : Dev) : Dev :=
  if 2 ≤ r.sev && bitAt d.twn.collect 15 && fld d.twn.collect 8 0 != nodeAddr d then
    meshSend 0x0C 3 (fld d.twn.collect 8 0) r.bytes d
  else d

/-- The records placed with sequence numbers from `from_` on, `n` of them. -/
def Evr.since (from_ n : Nat) (e : Evr) : List EvRec :=
  (List.range n).filterMap (fun i => (e.ring.filterMap (fun x => x.2)).find? (fun r => r.seq == (from_ + i) % 2 ^ 32))

/-! ### Byte tables -/

/-- Bytes of a table from an offset on. -/
def getBytes (t : Tab Byte) (i : Nat) : Nat → Bytes
  | 0 => []
  | n + 1 => Tab.get 0 t i :: getBytes t (i + 1) n

/-- Write bytes into a table. -/
def putBytes : Bytes → Nat → Tab Byte → Tab Byte
  | [], _, t => t
  | b :: bs, i, t => putBytes bs (i + 1) (Tab.set 0 t i b)

/-- A byte of the flash: 0xFF where unlisted. -/
def flashByte (f : Fls) (a : Nat) : Byte := Tab.get 0 f.flash a ^^^ 0xFF

/-- Bytes of the flash. -/
def flashBytes (f : Fls) (a n : Nat) : Bytes := (getBytes f.flash a n).map (fun b => b ^^^ 0xFF)

/-- Bytes of the flash as a read of the FLS block shows them: the log archive's sectors show their header and records (15 R437). -/
def flsReadBytes (d : Dev) (a : Nat) : Nat → Bytes
  | 0 => []
  | n + 1 =>
    (if 0x4800000 ≤ a then (Tab.get {} d.evr.sectors ((offFrom 0x4800000 a) / 65536)).byte (a % 65536) else flashByte d.fls a) :: flsReadBytes d (a + 1) n

/-- Program bytes: a flash program only clears bits; the stored form is the complement. -/
def flashProgram : Bytes → Nat → Tab Byte → Tab Byte
  | [], _, t => t
  | b :: bs, a, t => flashProgram bs (a + 1) (Tab.set 0 t a (Tab.get 0 t a ||| (b ^^^ 0xFF)))

/-- An operation of the FLS block ends. `ok` false: the flash did not do it, and a program's read-back differs (16 R450). -/
def doFlsDone (ok : Bool) (d : Dev) : Dev :=
  match d.fls.op with
  | none => d
  | some (op, a, n) =>
    let f := { d.fls with busy := false, done := true, op := none, suspended := false }
    let f := if op = 1 then { f with buf := putBytes (flsReadBytes d a n) 0 f.buf }
      else if op = 2 then
        let t := if ok then flashProgram (getBytes f.buf 0 n) a f.flash else f.flash
        { f with flash := t, err := f.err || flashBytes { f with flash := t } a n != getBytes f.buf 0 n }
      else if ok then { f with flash := f.flash.filter (fun e => e.1 / 65536 != a / 65536) } else f
    { d with fls := f }

/-- A read or program of the FLS block that has started completes before the recorder takes the flash (16 R452). -/
def flsFirst (d : Dev) : Dev :=
  match d.fls.op with
  | some (op, _, _) => if op = 3 then d else doFlsDone true d
  | none => d

/-- Archive every waiting record (15 R433), after an FLS read or program under way (16 R452); a record that the archive's own retirements place is a recorded event as any other (10 R300,
09 R270). -/
def archiveFlush (d : Dev) : Dev :=
  let d := flsFirst d
  if d.evr.ramOnly || !d.evr.flashOk then d
  else
    let e := d.evr.waiting.foldl (fun e r => archiveOne (archiveTotal d.fls.size) r e) { d.evr with waiting := [] }
    let placed := e.since d.evr.nextSeq ((e.nextSeq + 2 ^ 32 - d.evr.nextSeq) % 2 ^ 32)
    let d := { d with evr := e }
    each placed collectRec (if placed.any (fun r => r.sev == 3) then evPendAll 9 d else d)

/-- Record an event: before the restore it waits, at most 64 of them; a record that place drops is lost entirely (15 R430, R434). -/
def recordFull (code sev src flags : Nat) (data : Bytes) (archiveOnly : Bool) (d : Dev) : Dev :=
  let r : EvRec := ⟨0, sev, src, flags, code, 0, 0, 0, 0, fit 8 data⟩
  if !d.evr.ready then
    if archiveOnly then d
    else if d.evr.early.length < 64 then { d with evr := { d.evr with early := d.evr.early ++ [r] } }
    else { d with evr := { d.evr with drops := sat64 (d.evr.drops + 1) } }
  else
    let e := d.evr
    let d := { d with evr := placeRec r archiveOnly e }
    let d := if sev = 3 then evPendAll 9 (archiveFlush d) else d
    if archiveOnly || (placeSlot sev e.ring).isNone then d else collectRec (e.stamp r) d

/-- Record an event of the device. -/
def event (code sev : Nat) (data : Bytes) (d : Dev) : Dev := recordFull code sev (evSrc code data) 0 data false d

/-- The whole second of operating time (15 R476). -/
def Dev.second (d : Dev) : Nat := d.evr.optime / 1000

/-- Record an event at most once per key in each second (15 R476). -/
def eventOnce (code key sev : Nat) (data : Bytes) (d : Dev) : Dev :=
  if d.evr.limits.any (fun l => l.1 == (code, key) && l.2 == d.second) then d
  else
    let d := { d with evr := { d.evr with limits := ((code, key), d.second) :: d.evr.limits.filter (fun l => l.1 != (code, key)) } }
    event code sev data d

/-! ### Requesters (07 R200) and completions (13 R372, 10 R299) -/

/-- Requester identities: core c is c + 1, the host 0x80, JTAG 0xFE. -/
def reqHost : Nat := 0x80
def reqJtag : Nat := 0xFE
def reqCore (c : Nat) : Nat := c + 1

/-- The completion statuses that commands answer (13 Table 13-6). -/
def stOK : Nat := 0
def stDEFERRED : Nat := 1
def stBUSY : Nat := 2
def stIN_USE : Nat := 3
def stBAD_STATE : Nat := 4
def stBAD_CHANNEL : Nat := 5
def stBAD_SLOT : Nat := 6
def stBAD_SUITE : Nat := 7
def stBAD_LIMIT : Nat := 8
def stBAD_SSCI : Nat := 9
def stNOT_STAGED : Nat := 10
def stNO_TICKET : Nat := 11
def stNOT_FRESH : Nat := 12
def stKEY_FAULT : Nat := 13
def stCOLD_FAULT : Nat := 14
def stNO_ENTRY : Nat := 15
def stBUCKET_FULL : Nat := 16
def stDUPLICATE : Nat := 17
def stBAD_PORT : Nat := 18
def stBAD_CALENDAR : Nat := 19
def stPAGE_ACTIVE : Nat := 20
def stNO_CELLS : Nat := 21
def stBAD_MODE : Nat := 22
def stLATE : Nat := 23
def stBAD_COMMAND : Nat := 24
def stNOT_LOADED : Nat := 25
def stBAD_IMAGE : Nat := 26
def stBAD_USAGE : Nat := 27
def stBAD_BLOB : Nat := 28
def stNOT_OWNER : Nat := 29
def stRNG_FAULT : Nat := 30
def stBAD_KEY : Nat := 31
def stTAG_FAIL : Nat := 32
def stBAD_JOB : Nat := 33
def stMEM_FAULT : Nat := 34
def stABORTED : Nat := 35
def stDMA_FAULT : Nat := 36
def stBAD_DEST : Nat := 37
def stNO_CLIENT : Nat := 38

/-- The gate's engine number in completions (13 Table 13-4). -/
def engGate : Nat := 0xFF

/-- One more record waits for D0, or none does (13 R363). -/
def lateNow (n : Nat) (d : Dev) : Nat := if d.hif.d3hot then n + 1 else n

/-- A producer index as the host reads it: without the records whose writes wait. -/
def shownIdx (i late : Nat) : Nat := (i + 2 ^ 32 - late) % 2 ^ 32

/-- Write a completion record into a ring (13 R371, R372); one that is disabled gets none, and its reserved entries are free again. -/
def ringComplete (r : Nat) (b : Sub) (status engine : Nat) (final second : Bool) (tack : Nat) (res : List Nat) (d : Dev) : Dev :=
  let g := d.getRing r
  let used := if final then (if second then 1 else 2) else 1
  if b.subno < d.hif.discardBelow then d
  else if !g.en then d.updRing r (fun g => { g with reserved := g.reserved - used })
  else
    let size := 2 ^ fld g.rcfg 4 0
    let bytes := be 1 (if g.cpi / size % 2 = 0 then 1 else 0) ++ zeros 3 ++ le 4 b.tag ++ le 4 (b.subno % 2 ^ 32) ++ le 4 b.index
      ++ le 8 (status + 2 ^ 16 * engine + (if final then 2 ^ 24 else 0)) ++ le 8 tack
      ++ ((List.range 4).map (fun i => le 8 (nth 0 res i))).flatten
    let d := hostOut (.dma (g.cbase + 64 * (g.cpi % size)) bytes) d
    let d := d.updRing r (fun g => { g with cpi := (g.cpi + 1) % 2 ^ 32, late := lateNow g.late d, reserved := g.reserved - used })
    ringSignal r d

/-- A core's completion message (10 R299), its words 1 to 7 as those of a ring's record (13 R372): it waits at the core until the mailbox has room. -/
def coreMessage (b : Sub) (status engine : Nat) (final : Bool) (tack : Nat) (res : List Nat) : Message :=
  [BitVec.ofNat 64 (4 + at_ 0x00FF 32 + at_ (b.tag % 2 ^ 16) 48), BitVec.ofNat 64 (b.subno % 2 ^ 32),
    BitVec.ofNat 64 (status + 2 ^ 16 * engine + (if final then 2 ^ 24 else 0)), BitVec.ofNat 64 tack]
    ++ (List.range 4).map (fun i => BitVec.ofNat 64 (nth 0 res i))

/-- Complete a core's command: the message waits for room in its mailbox. -/
def coreComplete (c : Nat) (b : Sub) (status engine : Nat) (final : Bool) (tack : Nat) (res : List Nat) (d : Dev) : Dev :=
  if b.subno < d.hif.coreDiscard then d
  else d.updCore c (fun k => { k with held := k.held ++ [coreMessage b status engine final tack res] })

/-- Complete a submission: `final` false on the first completion of a deferred command, `second` true on its second. -/
def completeX (b : Sub) (status engine : Nat) (final second : Bool) (tack : Nat) (res : List Nat) (d : Dev) : Dev :=
  match b.origin with
  | .ring r => ringComplete r b status engine final second tack res d
  | .core c => coreComplete c b status engine final tack res d
  | .lead => emit (.applied b.tag status final tack res) d
  | .osf => d.updHif (fun h => { h with osfDone := h.osfDone ++ [(b.tag, status)] })

/-- The one completion of an engine command. -/
def complete (b : Sub) (engine status : Nat) (res : List Nat) (d : Dev) : Dev := completeX b status engine true false 0 res d

/-- The one completion of a gated command, at the tack being applied. -/
def gateDone (b : Sub) (status : Nat) (res : List Nat) (d : Dev) : Dev := completeX b status engGate true false d.tck.tno res d

/-- The first completion of a deferred gated command (05 R144). -/
def gateDeferred (b : Sub) (d : Dev) : Dev := completeX b stDEFERRED engGate false false d.tck.tno [] d

/-- The second completion of a deferred gated command, with the tack of the command. -/
def gateFinal (b : Sub) (tack status : Nat) (res : List Nat) (d : Dev) : Dev := completeX b status engGate true true tack res d

/-- The one completion, after its tack, of a gated command that completes when its work has ended (05 R149, R158; 15 R418). -/
def gateLate (b : Sub) (tack status : Nat) (res : List Nat) (d : Dev) : Dev := completeX b status engGate true false tack res d

/-- The requester of a submission (07 R200). -/
def subReq (b : Sub) : Nat :=
  match b.origin with
  | .ring _ => reqHost
  | .core c => reqCore c
  | .lead => reqHost
  | .osf => reqHost

end Sys2Proof.Machine
end

