-- ==== Sys2Proof/Machine/Mec.lean ====
section
/-! DEFINITION. The protected region of DDR5: its geometry, the sectors' ciphertext and MACs, the counter tree and its cache, doubtful
subtrees and the slots that they stop (11 R324 to R333, 05 R157 to R159). -/

namespace Sys2Proof.Machine

/-! ### Geometry (11 Tables 11-6 and 11-7) -/

def gib : Nat := 2 ^ 30

/-- Base of the DDR5 window in the Glonik map (10 Table 10-1). -/
def ddrBase : Nat := 0x800000000

/-- Installed DDR5 in bytes; 0 while no window is open (11 R322). -/
def ddrInstalled (d : Dev) : Nat := if d.mem.trained && !d.mem.fail then 4 * d.mem.dimmGib * gib else 0

/-- P, and the end of the metadata, in bytes from W (11 Table 11-6). -/
def protSize (d : Dev) : Nat := d.mem.psize * gib
def metaEnd (d : Dev) : Nat := 17 * protSize d / 16

/-- The top stored level t (11 R328, Table 11-7). -/
def topLevel (d : Dev) : Nat := if d.mem.psize ≤ 1 then 6 else if d.mem.psize ≤ 8 then 7 else 8

/-- The node exists in the tree of the protected region. -/
def nodeExists (level index : Nat) (d : Dev) : Bool := decide (level ≤ topLevel d) && decide (index * 8 ^ level < protSize d / 512)

/-- The sector lies in a subtree (11 R328, Table 11-7). -/
def inSubtree (level index sector : Nat) : Bool := sector / 8 ^ level == index

/-- A subtree lies inside the subtree of node (level, index); level 15 is the whole region. -/
def inside (level index : Nat) (x : Doubt) : Bool := level == 15 || (decide (x.level ≤ level) && x.index / 8 ^ (level - x.level) == index)

/-- The sectors that an access touches. -/
def sectorsOf (off n : Nat) : Nat := if n = 0 then 0 else (off + n - 1) / 512 - off / 512 + 1
def sectorList (off n : Nat) : List Nat := (List.range (sectorsOf off n)).map (fun i => off / 512 + i)

/-! ### Uncorrectable errors that nothing has repaired -/

/-- Words and bursts with an uncorrectable error: region 6 local SRAM of a core and 7 shared memory by word, 0 a cell by word, 100 DDR5
by burst of 64 bytes (11 R311, R323). The unit's size in bytes. -/
def badSize (region : Nat) : Nat := if region = 100 then 64 else 8

/-- The access touches such a unit. -/
def badIn (region unit addr n : Nat) (d : Dev) : Bool :=
  d.flt.bad.any (fun b => b.1 == region && b.2.1 == unit && decide (b.2.2 / badSize region * badSize region < addr + n)
    && decide (addr < b.2.2 / badSize region * badSize region + badSize region))

/-- The units with an uncorrectable error that the access touches, each once. -/
def badHits (region unit addr n : Nat) (d : Dev) : List Nat :=
  ((d.flt.bad.filter (fun b => b.1 == region && b.2.1 == unit && decide (b.2.2 / badSize region * badSize region < addr + n)
    && decide (addr < b.2.2 / badSize region * badSize region + badSize region))).map (fun b => b.2.2 / badSize region * badSize region)).eraseDups

/-- A write of a whole unit repairs it (10 R290). -/
def badClear (region unit addr n : Nat) (d : Dev) : Dev :=
  if d.flt.bad.isEmpty then d
  else { d with flt := { d.flt with bad := d.flt.bad.filter (fun b => !(b.1 == region && b.2.1 == unit
      && decide (addr ≤ b.2.2 / badSize region * badSize region) && decide (b.2.2 / badSize region * badSize region + badSize region ≤ addr + n))) } }

/-- A word of memory is bad from now on. -/
def markBad (region unit addr : Nat) (d : Dev) : Dev := { d with flt := { d.flt with bad := (region, unit, addr) :: d.flt.bad } }

/-- The stored copy of a tree node has an uncorrectable error: region 101, by level and index (11 R323). -/
def badNode (level index : Nat) (d : Dev) : Bool := d.flt.bad.any (fun b => b == (101, level, index))

/-! ### The cold range (05 R157) -/

/-- Entries of the cold database: a SIZE above 1,024 is taken as 1,024 (05 Table 05-13). -/
def coldCount (d : Dev) : Nat := 1024 * Nat.min 1024 d.sas.coldSize

/-- The cold range, SIZE x 1,024 entries of 256 bytes from SAS_COLDBASE (05 R157, log entry 42). -/
def inCold (d : Dev) (off : Nat) : Bool := decide (d.sas.coldBase ≤ off) && decide (off < d.sas.coldBase + 256 * coldCount d)

/-- An access touches the cold range. -/
def touchesCold (d : Dev) (off n : Nat) : Bool :=
  decide (0 < n) && decide (0 < coldCount d) && decide (d.sas.coldBase < off + n) && decide (off < d.sas.coldBase + 256 * coldCount d)

/-- An access lies in the cold range as a whole. -/
def withinCold (d : Dev) (off n : Nat) : Bool := decide (d.sas.coldBase ≤ off) && decide (off + n ≤ d.sas.coldBase + 256 * coldCount d)

/-- The sector of a cold entry. -/
def coldSector (i : Nat) (d : Dev) : Nat := (d.sas.coldBase + 256 * i) / 512

/-- The 256 bytes of a cold entry (05 Table 05-8): WKEY is the key wrapped under the cold-store key of KEK slot 1. -/
def coldEntBytes (e : ColdEnt) (d : Dev) : Bytes :=
  be 1 e.state ++ [0] ++ le 2 e.stage ++ le 4 e.slot ++ le 8 e.nextPn ++ le 8 e.softPn ++ le 8 e.hardPn ++ le 4 e.ssci ++ le 12 e.salt
    ++ be 1 (e.dir + 2 * e.suite) ++ zeros 15 ++ fit 40 (if e.key.isEmpty then [] else kwpWrap (d.getKek 1).key e.key) ++ zeros 24
    ++ ((List.range 8).map (fun i => le 8 (Tab.get 0 e.ctr i))).flatten ++ zeros 64

/-- Plaintext of DDR5: the cold range shows its entries (05 R157). -/
def ddrBytes (d : Dev) (off n : Nat) : Bytes :=
  if !touchesCold d off n then getBytes d.mem.ddr off n
  else (List.range n).map (fun i =>
    let o := off + i
    if inCold d o then (coldEntBytes (Tab.get {} d.sas.cold ((o - d.sas.coldBase) / 256)) d).getD ((o - d.sas.coldBase) % 256) 0
    else Tab.get 0 d.mem.ddr o)

/-! ### What DDR5 holds for a sector or a node (11 R326, R327) -/

/-- The identity of a sector (level 0) or node (11 R327). -/
def macId (level index : Nat) : Nat := if level = 0 then index else 2 ^ 63 + level * 2 ^ 56 + index

/-- mac(id, w, X) of 11 R327 under key `k`. -/
def mecMac (k : Bytes) (id w : Nat) (x : Bytes) : Bytes :=
  let iw := be 8 id ++ be 8 w
  xorB ((ghash (aesEnc k (zeros 16)) (x ++ iw)).take 8) (aesEnc k iw)

/-- The write counter of a sector or node, held in its parent: the value of the last initialisation or re-provisioning that covered it,
and the writes since (11 R328, R334); a counter of the root is random until initialisation (11 R326). -/
def mecCtr (level index : Nat) (d : Dev) : Nat :=
  if level = topLevel d ∧ d.mem.root ≠ [] then ofBe (sub_ d.mem.root (8 * index) 8)
  else (match d.mem.provs.find? (fun p => inside p.level p.index ⟨level, index, 0⟩) with | some p => p.value | none => 1)
    + Tab.get 0 d.mem.rises (macId level index)

/-- The 64 bytes of a node: the eight write counters below it; the byte order is the model's (11 R328, log entry 43). -/
def nodeBytes (level index : Nat) (d : Dev) : Bytes := ((List.range 8).map (fun k => be 8 (mecCtr (level - 1) (8 * index + k) d))).flatten

/-- The ciphertext of a sector: XTS-AES-256 with the sector number as tweak (11 R326). -/
def sectorCipher (s : Nat) (d : Dev) : Bytes := xtsEnc d.mem.xtsKey1 d.mem.xtsKey2 s (ddrBytes d (512 * s) 512)

/-- Content and MAC that DDR5 holds for a sector or node: what the MEC wrote, or what has taken its place (log entry 43). -/
def mecStored (level index : Nat) (d : Dev) : Bytes × Bytes :=
  match Tab.get none d.mem.alien (macId level index) with
  | some x => x
  | none =>
    let x := if level = 0 then sectorCipher index d else nodeBytes level index d
    (x, mecMac d.mem.macKey (macId level index) (mecCtr level index d) x)

/-- The MAC of a stored sector or node verifies; what the MEC wrote does, by its own computation (11 R327). -/
def macOk (level index : Nat) (d : Dev) : Bool :=
  match Tab.get none d.mem.alien (macId level index) with
  | some x => mecMac d.mem.macKey (macId level index) (mecCtr level index d) x.1 == x.2
  | none => true

/-! ### Stopping an SA (05 R152, R159) -/

/-- Event data of 0x0501 and 0x0502 (05 Table 05-9). -/
def limitData (slot : Nat) (d : Dev) : Bytes := be 3 slot ++ be 2 (d.tab.getSa slot).chid

/-- The slot's state changes by the datapath: every view of the same SA sees it (log entry 5). -/
def setStateAll (slot : Nat) (st : SlotState) (d : Dev) : Dev :=
  let g := d.tab.getSa slot
  d.updViews (Tables.updSa slot (fun s => if s.state ≠ .free && s.state ≠ .window && s.chid = g.chid then { s with state := st } else s))

/-- The SA reaches its hard limit: LIMHIT, event 0x0502, wake (05 R152). -/
def setLimHit (slot : Nat) (d : Dev) : Dev :=
  if (d.getLive slot).limHit then d
  else evPendAll 5 (event 0x0502 2 (limitData slot d) (d.updLive slot (fun l => { l with limHit := true })))

/-- An ACTIVE SA stops and drains (05 R152, R149). -/
def startDrain (slot tack : Nat) (d : Dev) : Dev :=
  setStateAll slot .draining (d.updLive slot (fun l => { l with drainTack := tack }))

/-- A slot stops as at its hard limit. -/
def stopSlot_ (slot : Nat) (d : Dev) : Dev :=
  let d := setLimHit slot d
  if (d.tab.getSa slot).state = .active then startDrain slot 0 d else d

/-- Every slot PINNED to a cold entry of a doubtful subtree stops with LIMHIT (05 R159, 11 R332). -/
def stopPinned (level index : Nat) (d : Dev) : Dev :=
  each d.tab.sa (fun e d =>
    match e.2.pinned, e.2.coldIdx with
    | true, some i => if level = 15 || inSubtree level index (coldSector i d) then stopSlot_ e.1 d else d
    | _, _ => d) d

/-! ### Doubtful subtrees (11 R331 to R333) -/

/-- The sector's subtree is doubtful, or is being re-provisioned (11 R331, R334). -/
def sectorDoubt (d : Dev) (sector : Nat) : Bool :=
  d.mem.rootDoubt || d.mem.doubts.any (fun x => inSubtree x.level x.index sector)
    || (match d.mem.reprov with
        | none => false
        | some (l, i) => l == 15 || inSubtree l i sector)

/-- The node lies in a doubtful subtree, or in one that is being re-provisioned (11 R331, R334). -/
def nodeDoubt (level index : Nat) (d : Dev) : Bool :=
  d.mem.rootDoubt || d.mem.doubts.any (fun x => inside x.level x.index ⟨level, index, 0⟩)
    || (match d.mem.reprov with
        | none => false
        | some (l, i) => inside l i ⟨level, index, 0⟩)

/-- The whole protected region becomes doubtful (11 R333). -/
def rootDoubtSet (why : Nat) (d : Dev) : Dev :=
  stopPinned 15 0 (event 0x0B06 3 (be 1 why) { d with mem := { d.mem with rootDoubt := true, alarm := true } })

/-- The MEC declares a sector or node doubtful; a node above the top stored level is the root (11 R331, R333). A subtree already
doubtful is not read again. -/
def doubtDeclare (level index cause : Nat) (d : Dev) : Dev :=
  if d.mem.rootDoubt || d.mem.doubts.any (fun x => inside x.level x.index ⟨level, index, cause⟩) then d
  else if topLevel d < level then rootDoubtSet 2 d
  else
    let kept := d.mem.doubts.filter (fun x => !inside level index x)
    let d := event 0x0B05 3 (be 1 level ++ be 4 index ++ be 1 cause) { d with mem := { d.mem with alarm := true } }
    if kept.length < 64 then stopPinned level index { d with mem := { d.mem with doubts := kept ++ [⟨level, index, cause⟩] } }
    else rootDoubtSet 1 d

/-! ### The counter tree and its cache (11 R328, R329) -/

/-- The node is in the counter-tree cache. -/
def cached (level index : Nat) (m : Mem) : Bool := m.cache.any (fun c => c.level == level && c.index == index)

/-- A counter of a cached node has changed: it is written back when it is evicted. -/
def dirtyNode (level index : Nat) (m : Mem) : Mem :=
  { m with cache := m.cache.map (fun c => if c.level == level && c.index == index then { c with dirty := true } else c) }

/-- A sector or node is written under its next counter: G counts it, and what stood in its place in DDR5 is gone (11 R327 to R329). -/
def riseCtr (level index : Nat) (m : Mem) : Mem :=
  { m with rises := Tab.upd 0 m.rises (macId level index) (· + 1), writes := sat64 (m.writes + 1),
           alien := Tab.set none m.alien (macId level index) none }

/-- The change of a node at level `level`: a cached node holds it until its eviction; one that has given way in the same access is written
back with it, which raises its counter in its parent, and so on up to the root; `t` is the top stored level (11 R328, log entry 43). -/
def noteRise (t : Nat) : Nat → Nat → Nat → Mem → Mem
  | 0, _, _, m => m
  | f + 1, level, index, m =>
    if t < level then m
    else if cached level index m then dirtyNode level index m
    else noteRise t f (level + 1) (index / 8) (riseCtr level index m)

/-- A fault that a fetch of a sector or node would find: its level, index and cause (11 R331). -/
def nodeFault (level index : Nat) (d : Dev) : Option (Nat × Nat × Nat) :=
  if (if level = 0 then badIn 100 0 (512 * index) 512 d else badNode level index d) then some (level, index, 1)
  else if !macOk level index d then some (level, index, 2) else none

/-- The levels from `level` up that are not cached below the lowest cached ancestor, from the top down: what a miss of that node, or of a
sector (level 1 above it), fetches and verifies (11 R328). -/
def chainOf (level index : Nat) (d : Dev) : List Nat :=
  let up := (List.range (topLevel d + 1)).filter (fun l => decide (level ≤ l))
  (up.takeWhile (fun l => !cached l (index / 8 ^ (l - level)) d.mem)).reverse

/-- The first fault that the MEC finds as it fetches a node and its missing ancestors. -/
def chainFinds (level index : Nat) (d : Dev) : Option (Nat × Nat × Nat) :=
  (chainOf level index d).findSome? (fun l => nodeFault l (index / 8 ^ (l - level)) d)

/-- A verified node enters the cache; the node that gives way, a free choice, is written back when it has changed, which raises its
counter in its parent, fetched first if need be (11 R328; log entry 43). A fault on the way up ends the write-back: it is answered. A node
of a doubtful subtree is not written back (11 R331). `fuel` bounds the chain of evictions. -/
def cacheInsert : Nat → Nat → Nat → Bool → Dev → Option (Nat × Nat × Nat) × Dev
  | 0, _, _, _, d => (none, d)
  | f + 1, level, index, dirty, d =>
    let new : TreeNode := ⟨level, index, dirty⟩
    if d.mem.cache.length < 32768 then (none, d.updMem (fun m => { m with cache := m.cache ++ [new] }))
    else
      let r := freeNat d
      let i := r.1 % d.mem.cache.length
      let v := nth new d.mem.cache i
      let d := r.2.updMem (fun m => { m with cache := m.cache.eraseIdx i ++ [new] })
      if !v.dirty || nodeDoubt v.level v.index d then (none, d)
      else
        let up := fun (d : Dev) => d.updMem (riseCtr v.level v.index)
        if topLevel d ≤ v.level then (none, up d)
        else if cached (v.level + 1) (v.index / 8) d.mem then (none, (up d).updMem (dirtyNode (v.level + 1) (v.index / 8)))
        else match chainFinds (v.level + 1) (v.index / 8) d with
          | some x => (some x, d)
          | none => cacheInsert f (v.level + 1) (v.index / 8) true (up d)

/-- The first fault that the MEC finds as it fetches the ancestors of a sector and, when `read`, the sector itself. -/
def fetchFinds (s : Nat) (read : Bool) (d : Dev) : Option (Nat × Nat × Nat) :=
  match chainFinds 1 (s / 8) d with
  | some x => some x
  | none => if read then nodeFault 0 s d else none

/-- A fault that a fetch found: an uncorrectable error is counted in its channel, a free choice for a node, whose place in the metadata
is open (11 R323); the subtree is declared doubtful. -/
def fetchFailed (x : Nat × Nat × Nat) (d : Dev) : Dev :=
  let r := if x.1 = 0 then
      (match d.flt.bad.find? (fun b => b.1 == 100 && b.2.2 / 512 == x.2.1) with | some b => b.2.2 / 256 % 4 | none => 0, d)
    else (fun (r : Nat × Dev) => (r.1 % 4, r.2)) (freeNat d)
  doubtDeclare x.1 x.2.1 x.2.2 (if x.2.2 = 1 then r.2.updMem (fun m => { m with ueCnt := bump m.ueCnt r.1 1 }) else d)

/-- A fetched node and its fetched ancestors enter the cache; the flag is false when an eviction on the way finds a fault. -/
def fetchNodes (level index : Nat) (d : Dev) : Bool × Dev :=
  (chainOf level index d).foldl (fun r l =>
    let x := cacheInsert 32769 l (index / 8 ^ (l - level)) false r.2
    match x.1 with
    | some y => (false, fetchFailed y x.2)
    | none => (r.1, x.2)) (true, d)

/-- A sector whose stored copy is not the MEC's own and verifies all the same reads as that copy decrypts (11 R326, log entry 43). -/
def takeStored (s : Nat) (d : Dev) : Dev :=
  match Tab.get none d.mem.alien s with
  | some x => d.updMem (fun m => { m with ddr := putBytes (xtsDec m.xtsKey1 m.xtsKey2 s x.1) (512 * s) m.ddr, alien := Tab.set none m.alien s none })
  | none => d

/-- The MEC opens sector `s` for an access: its ancestors are fetched and verified, and the sector too when it is read; a fault declares
the subtree doubtful. A sector that fails itself has been read from DDR5 too (16 Table 16-10). The flag says whether the access may go on (11 R328, R330, R331). -/
def openSector (s : Nat) (read : Bool) (d : Dev) : Bool × Dev :=
  if sectorDoubt d s then (false, d)
  else match fetchFinds s read d with
    | some x => (false, fetchFailed x (when_ (x.1 == 0) (prfCount 15 none 1) d))
    | none =>
      let r := fetchNodes 1 (s / 8) (when_ read (fun d => prfCount 15 none 1 (takeStored s d)) d)
      (!sectorDoubt r.2 s, r.2)

/-- A write reads every sector that it covers in part (11 R330). -/
def sectorRead (off n : Nat) (write : Bool) (s : Nat) : Bool := !write || decide (512 * s < off) || decide (off + n < 512 * s + 512)

/-- Every sector of an access is opened. -/
def protOpen (off n : Nat) (write : Bool) (d : Dev) : Bool × Dev :=
  if protSize d ≤ off then (true, d)
  else (sectorList off n).foldl (fun r s => if r.1 then openSector s (sectorRead off n write s) r.2 else r) (true, d)

/-- Whether every sector of an access opens. -/
def protSound (off n : Nat) (write : Bool) (d : Dev) : Bool := (protOpen off n write d).1

/-- Sectors are written under their next counters, which their level 1 nodes hold. -/
def riseSectors (t : Nat) (l : List Nat) (m : Mem) : Mem := l.foldl (fun m s => noteRise t 9 1 (s / 8) (riseCtr 0 s m)) m

/-- A write to opened sectors: each is encrypted and written under its next counter, which its level 1 node holds (11 R328 to R330). -/
def protWrite (off n : Nat) (d : Dev) : Dev :=
  if off ≥ protSize d then d
  else
    let l := sectorList off n
    prfCount 16 none l.length { d with mem := riseSectors (topLevel d) l d.mem }

/-- A counter of a node changes outside an access: the node is fetched and verified if need be, and changes in the cache; a fault on the way
declares its subtree doubtful (11 R328, R331). Above the top stored level it is the root, on chip. -/
def touchNode (level index : Nat) (d : Dev) : Dev :=
  if topLevel d < level then d
  else match chainFinds level index d with
    | some x => fetchFailed x d
    | none => (fetchNodes level index d).2.updMem (noteRise (topLevel d) 9 level index)

end Sys2Proof.Machine
end

