-- ==== Sys2Proof/Machine/Memory.lean ====
section
/-! DEFINITION. Address ranges, masters and byte access: local SRAM, shared memory, the DDR5 window and the protected region (10 R276, 11 R323 to R335). -/

namespace Sys2Proof.Machine

/-- A master of memory (11 Table 11-10). `core c super` is core `c` at supervisor or task level. -/
inductive Master where
  | core (c : Nat) (super : Bool)
  | host
  | sas
  | jtag
  deriving DecidableEq, Repr

/-- The master's number in events: as R200 numbers it (11 Table 11-16); the SAS is the device itself. -/
def Master.num : Master → Nat
  | .core c _ => c + 1
  | .host => 0x80
  | .sas => 0xFF
  | .jtag => 0xFE

/-- The master that stands for a requester in an engine: a core with its present level, or the host (11 Table 11-10). -/
def masterOf (req : Nat) (d : Dev) : Master :=
  if req = reqHost then .host else if req = reqJtag then .jtag
  else .core (req - 1) ((d.getCore (req - 1)).status.getLsbD 0)

/-- How an access ends. -/
inductive Acc where
  | ok
  /-- No such address, window closed, or region not ready: a bus error. -/
  | bus
  /-- The master does not reach the range (R335). -/
  | blocked
  /-- Doubtful subtree (R332). -/
  | doubt
  /-- An uncorrectable error of unprotected DDR5 (R323). -/
  | uncorr
  deriving DecidableEq, Repr

/-- A task region that holds the whole access grants the right (10 R286): right 0 read, 1 write, 2 fetch. -/
def taskRegionOk (k : Core) (addr n right : Nat) : Bool :=
  (List.range 8).any (fun i =>
    let base := (Tab.get 0 k.trBase i).toNat
    let lim := (Tab.get 0 k.trLim i).toNat
    decide (base / 4096 * 4096 ≤ addr) && decide (addr + n ≤ lim / 4096 * 4096) && bitAt lim right)

/-- A burst that meets an uncorrectable error fails the access: a write fails where it covers part of the burst only (11 R323). -/
def ddrBad (off n : Nat) (write : Bool) (d : Dev) : Bool :=
  if write then badIn 100 0 off n (badClear 100 0 off n d) else badIn 100 0 off n d

/-- Which DDR5 accesses a master may make (11 Table 11-10), at offset `off` from W. -/
def ddrCheck (m : Master) (off n : Nat) (write : Bool) (d : Dev) : Acc :=
  if off + n > ddrInstalled d then .bus
  else if off ≥ metaEnd d then (if m = .sas then .blocked else if ddrBad off n write d then .uncorr else .ok)
  else if off + n > protSize d then .blocked
  else match m with
    | .host => .blocked
    | .jtag => .blocked
    | .sas =>
      if !withinCold d off n then .blocked else if !d.mem.ready then .bus else if (sectorList off n).any (sectorDoubt d) then .doubt else .ok
    | .core _ _ =>
      if touchesCold d off n && write then .blocked
      else if !d.mem.ready then .bus
      else if (sectorList off n).any (sectorDoubt d) then .doubt else .ok

/-- An uncorrectable burst outside the protected region is counted in its channel and recorded (11 R323, R324). -/
def burstFail (burst : Nat) (d : Dev) : Dev :=
  let ch := burst / 256 % 4
  event 0x0B04 2 (be 1 ch ++ be 6 (ddrBase + burst)) { d with mem := { d.mem with ueCnt := bump d.mem.ueCnt ch 1 } }

/-- Count and record what a failed DDR5 access of `n` bytes does (11 R332, R335); an access that meets uncorrectable bursts counts and names
each, a write those that it covers in part only (11 R323). -/
def ddrFail (m : Master) (off n : Nat) (write : Bool) (a : Acc) (d : Dev) : Dev :=
  match a with
  | .blocked =>
    eventOnce 0x0B09 m.num 2 (be 1 m.num ++ be 6 (ddrBase + off)) { d with mem := { d.mem with masterBlk := sat64 (d.mem.masterBlk + 1) } }
  | .doubt => { d with mem := { d.mem with doubtAcc := sat64 (d.mem.doubtAcc + 1) } }
  | .uncorr => each (badHits 100 0 off n (if write then badClear 100 0 off n d else d)) burstFail d
  | _ => d

/-- Read DDR5 bytes at an offset from W: sectors of the protected region are opened first (11 R328, R331). -/
def ddrRead (m : Master) (off n : Nat) (d : Dev) : (Acc × Bytes) × Dev :=
  match ddrCheck m off n false d with
  | .ok =>
    let r := protOpen off n false d
    if r.1 then ((.ok, ddrBytes r.2 off n), r.2)
    else ((.doubt, []), ddrFail m off n false .doubt r.2)
  | a => ((a, []), ddrFail m off n false a d)

/-- Write DDR5 bytes at an offset from W. -/
def ddrWrite (m : Master) (off : Nat) (b : Bytes) (d : Dev) : Acc × Dev :=
  match ddrCheck m off b.length true d with
  | .ok =>
    let r := protOpen off b.length true d
    if r.1 then (.ok, protWrite off b.length ((badClear 100 0 off b.length r.2).updMem (fun m => { m with ddr := putBytes b off m.ddr })))
    else (.doubt, ddrFail m off b.length true .doubt r.2)
  | a => (a, ddrFail m off b.length true a d)

/-- The ranges of the Glonik map (10 Table 10-1). -/
inductive Range where
  | sram | shared | window | ddr | none
  deriving DecidableEq, Repr

/-- The range that holds the whole access. -/
def rangeOf (addr n : Nat) (d : Dev) : Range :=
  if addr + n ≤ 0x40000 then .sram
  else if 0x10000000 ≤ addr && addr + n ≤ 0x10800000 then .shared
  else if 0x40000000 ≤ addr && addr + n ≤ 0x41000000 then .window
  else if ddrBase ≤ addr && addr + n ≤ ddrBase + ddrInstalled d then .ddr
  else .none

/-- Bytes at a Glonik address for an engine that works for a requester (13 R370, 11 Table 11-10); `none` when it may not read them. -/
def engRead (req addr n : Nat) (d : Dev) : Option Bytes × Dev :=
  let m := masterOf req d
  let task := match m with | .core c false => !taskRegionOk (d.getCore c) addr n 0 | _ => false
  if n = 0 then (some [], d)
  else if task then (none, d)
  else match rangeOf addr n d, m with
    | .sram, .core c _ => (if badIn 6 c addr n d then none else some (getBytes (d.getCore c).sram addr n), d)
    | .shared, .core _ _ => (if badIn 7 0 (offFrom 0x10000000 addr) n d then none else some (getBytes d.mem.shared (offFrom 0x10000000 addr) n), d)
    | .ddr, _ =>
      let r := ddrRead m (offFrom ddrBase addr) n d
      (if r.1.1 = .ok then some r.1.2 else none, r.2)
    | _, _ => (none, d)

/-- Write bytes at a Glonik address for an engine; the flag says whether they were written. -/
def engWrite (req addr : Nat) (b : Bytes) (d : Dev) : Bool × Dev :=
  let m := masterOf req d
  let task := match m with | .core c false => !taskRegionOk (d.getCore c) addr b.length 1 | _ => false
  if b.isEmpty then (true, d)
  else if task then (false, d)
  else match rangeOf addr b.length d, m with
    | .sram, .core c _ => (true, (badClear 6 c addr b.length d).updCore c (fun k => { k with sram := putBytes b addr k.sram }))
    | .shared, .core _ _ =>
      let d := badClear 7 0 (offFrom 0x10000000 addr) b.length d
      (true, { d with mem := { d.mem with shared := putBytes b (offFrom 0x10000000 addr) d.mem.shared } })
    | .ddr, _ =>
      let r := ddrWrite m (offFrom ddrBase addr) b d
      (r.1 == .ok, r.2)
    | _, _ => (false, d)

/-- Whether an engine could write `n` bytes at an address: outputs that fail leave nothing written. -/
def engCanWrite (req addr n : Nat) (d : Dev) : Bool :=
  let m := masterOf req d
  let task := match m with | .core c false => !taskRegionOk (d.getCore c) addr n 1 | _ => false
  if n = 0 then true
  else if task then false
  else match rangeOf addr n d, m with
    | .sram, .core _ _ => true
    | .shared, .core _ _ => true
    | .ddr, _ => ddrCheck m (offFrom ddrBase addr) n true d == .ok && protSound (offFrom ddrBase addr) n true d
    | _, _ => false

/-- The canonical form of every byte memory: DDR5, shared memory, the cores' SRAMs and the flash list addresses that rise strictly and
no byte equal to what an unlisted address reads as. -/
def Memory.wf (d : Dev) : Bool :=
  Tab.wf 0 d.mem.ddr && Tab.wf 0 d.mem.shared && d.core.all (fun e => Tab.wf 0 e.2.sram) && Tab.wf 0 d.fls.flash

end Sys2Proof.Machine
end

