-- ==== Sys2Proof/Machine/Units.lean ====
section
/-! DEFINITION. Predicates and small operations on ports, slices, cores, the service-cipher lock and mailboxes that several chapters share. -/

namespace Sys2Proof.Machine

/-- A command completes: the device changes by `f`, the queue stays. -/
def doneAlways (s : State) (f : Dev → Dev) : Host.Outcome State Fault Refusal := .next { s with dev := f s.dev }

/-- A command completes; on a device that a power failure has stopped, it does nothing: every clock but VREC's stands still (15 R427). -/
def done (s : State) (f : Dev → Dev) : Host.Outcome State Fault Refusal := doneAlways s (fun d => if d.pins.stopped then d else f d)

/-- RESET and KILN: only the GLB and MOD blocks answer, no core runs and there is no debug access, so that every other register write is
discarded (16 R446, 14 Table 14-1). -/
def regsShut (d : Dev) : Bool := d.mod.mode == .reset || d.mod.mode == .kiln

/-- A row that writes a register outside GLB and MOD. -/
def doneReg (s : State) (f : Dev → Dev) : Host.Outcome State Fault Refusal := done s (fun d => if regsShut d then d else f d)

/-! ### Ports and slices (01 R9, R10; 15 R422, R423) -/

/-- The place of a port on its face, 0 to 31. -/
def facePos (n : Nat) : Nat := n % 32

/-- PRT[n] is a cipher port. -/
def isCipher (n : Nat) : Bool := decide (32 ≤ n)

/-- SIZE, NLANES, LRATE, FEC and MODE of PRT[n]_CFG (12 Table 12-10). -/
def cfgSize (cfg : Nat) : Nat := fld cfg 2 0
def cfgLanes (cfg : Nat) : Nat := fld cfg 6 3
def cfgRate (cfg : Nat) : Nat := fld cfg 9 7
def cfgFec (cfg : Nat) : Nat := fld cfg 11 10
def cfgSlot (cfg : Nat) : Bool := bitAt cfg 12

/-- The port is 1.6TbE in this view. -/
def isWide (t : Tables) (n : Nat) : Bool := cfgSize (t.getPrt n).cfg == 5

/-- The slices that a port spans (01 R9, R10). -/
def portSlices (t : Tables) (n : Nat) : List Nat :=
  let s := facePos n / 4
  if isWide t n then [s / 2 * 2, s / 2 * 2 + 1] else [s]

/-- Slice of a channel (01 Table 01-1). -/
def chSlice (chid : Nat) : Nat := chid / 4096 % 8

/-- Slice of an SA slot (01 R14). -/
def slotSlice (slot : Nat) : Nat := slot / 16384 % 8

/-- The channel is a receive channel. -/
def isRc (chid : Nat) : Bool := bitAt chid 15

/-- A slice whose STATE is not RUNNING (15 R417). -/
def sliceDown (d : Dev) (s : Nat) : Bool := (d.getSlice s).state != 0

/-- The lanes of a port configured so (12 R346). -/
def portLanes (cfg n : Nat) : List Nat := if cfgSize cfg = 0 then [] else (List.range (cfgLanes cfg)).map (fun i => n + i)

/-- A lane of the port sends no signal, so no frame and no idle of the port reaches the far end (12 R344, R348, R359, R360). -/
def lineQuiet (n : Nat) (d : Dev) : Bool := (portLanes (d.tab.getPrt n).cfg n).any (fun l => laneQuiet l d)

/-- A line port sends. -/
def lineEmit (n : Nat) (o : Out) (d : Dev) : Dev := if lineQuiet n d then d else emit o d

/-- A mode in which every line port is fallow (14 Table 14-1). -/
def modeFallow (m : Mode) : Bool := m == .service || m == .fallow || m == .zeroised

/-- A mode, or a stopped device, in which the lanes carry no port traffic at all (14 Table 14-1, 15 R427). -/
def linesOff (d : Dev) : Bool := d.mod.mode == .reset || d.mod.mode == .kiln || d.mod.mode == .returned || d.pins.stopped

/-- A life-cycle change that blows fuses runs: every output is fallow (14 R385). -/
def lcFallow (d : Dev) : Bool := match d.mod.lcOp with | some (op, _) => decide (op ≤ 4) | none => false

/-- The port is fallow (15 R423): by the device, by a slice of its own or of its pair when it is 1.6TbE, or by itself. -/
def portFallow (d : Dev) (n : Nat) : Bool :=
  modeFallow d.mod.mode || lcFallow d || d.flt.poolFallow || (portSlices d.tab n).any (sliceDown d)
    || (d.getPort n).fallowSa || (d.getPort n).fallowSram

/-- The port's datapath discards what it receives and sends nothing of its own (15 R422). -/
def portDead (d : Dev) (n : Nat) : Bool := linesOff d || portFallow d n

/-- The port is enabled at the gate (08 R225). -/
def portEnabled (d : Dev) (n : Nat) : Bool := (d.tab.getPrt n).enabled

/-- The port is fenced: its TWN state is 1, 2 or 3 (09 Table 09-17). -/
def portFenced (d : Dev) (n : Nat) : Bool := (d.getTwn n).state != 0

/-! ### Glonik cores: what the device does to them -/

/-- The core takes messages: it is neither halted nor retired (10 R309). -/
def coreAlive (k : Core) : Bool := k.run == .running || k.run == .waiting || k.run == .device

/-- Put a message into a mailbox; `false` when it is full (10 R297). -/
def mailboxPut (c : Nat) (m : Message) (d : Dev) : Bool × Dev :=
  if (d.getCore c).mailbox.length < 64 then (true, d.updCore c (fun k => { k with mailbox := k.mailbox ++ [m] })) else (false, d)

/-- A message with its SRC field written (10 Table 10-12). -/
def withSrc (m : Message) (src : Nat) : Message :=
  match m with
  | [] => []
  | h :: r => BitVec.ofNat 64 (setFld h.toNat 32 16 src) :: r

/-- A 64-byte message as eight words, byte 8j of the string in bits [7:0] of word j. -/
def messageOf (b : Bytes) : Message := (pieces 8 (fit 64 b)).map (fun w => BitVec.ofNat 64 (ofLe w))

/-- The 64 bytes of a message. -/
def messageBytes (m : Message) : Bytes := fit 64 (m.map (fun w => le 8 w.toNat)).flatten

/-- The requester owns the cell. -/
def ownsCell (q cell : Nat) (d : Dev) : Bool := match Tab.get none d.bpm.cells cell with | some x => x.owner == q | none => false

/-- A cell of the frame has an uncorrectable error (11 R311, Table 11-2). -/
def badCells (cells : List Nat) (d : Dev) : Bool := cells.any (fun c => badIn 0 c 0 256 d)

/-- A refused release is counted, and the first one captured (11 R318). -/
def badRelease (q cell : Nat) (b : Bpm) : Bpm :=
  let owner := b.ownerOf cell
  let b := { b with badFree := sat64 (b.badFree + 1) }
  if b.badValid then b else { b with badCell := cell % 2 ^ 17, badReq := q, badOwner := owner, badValid := true }

/-- Event data of a refused release (11 Table 11-16). -/
def badFreeData (q cell : Nat) (d : Dev) : Bytes := be 3 cell ++ be 1 q ++ be 1 (d.bpm.ownerOf cell)

/-- A refused release of a core, a queue or the host interface: event 0x0B01 (11 R318). -/
def badFree (q cell : Nat) (d : Dev) : Dev := eventOnce 0x0B01 q 2 (badFreeData q cell d) { d with bpm := badRelease q cell d.bpm }

/-- A queue frees a cell. -/
def queueFree (q cell : Nat) (d : Dev) : Dev := if ownsCell q cell d then dropCell q cell d else badFree q cell d

/-- Cells that a core owns (11 R319). -/
def coreCells (c : Nat) (d : Dev) : List Nat :=
  d.bpm.cells.filterMap (fun e => match e.2 with | some x => if x.owner = c then some e.1 else none | none => none)

/-- The BPM releases every cell of a core (11 R319). -/
def releaseCoreCells (c : Nat) (d : Dev) : Dev :=
  let l := coreCells c d
  event 0x0B03 1 (be 1 c ++ be 3 l.length) (each l (dropCell c) d)

/-! ### The service-cipher lock (07 R200, R201) -/

/-- A job of a core has completed: SCEDONE (10 Table 10-13). -/
def sceDone (req : Nat) (d : Dev) : Dev := if 1 ≤ req && req ≤ 64 then evPendCore (req - 1) 3 d else d

/-- Release the lock: `why` 0 by RELEASE, 1 lease expiry, 2 owner's core, 3 host reset, 4 FORCE (07 R201). -/
def sceRelease (why : Nat) (d : Dev) : Dev :=
  let owner := d.keys.sceOwner
  if owner = 0 then d
  else
    let d := match d.keys.sceJob with
      | some j => sceDone j.requester (complete j.sub 0 stABORTED [] { d with keys := { d.keys with sceLast := 4 } })
      | none => d
    let k := d.keys
    let d := { d with keys := { k with sceJob := none, sceKey := [], sceHeld := false, sceOwner := 0,
                                       sceReleases := if why = 0 then k.sceReleases else Nat.min 255 (k.sceReleases + 1) } }
    if why = 0 then d else event 0x0702 2 (be 1 owner ++ be 1 why ++ be 2 k.sceGen) d

/-- The lock of a requester that stops is released (07 R201). -/
def sceOwnerGone (req why : Nat) (d : Dev) : Dev := if d.keys.sceOwner = req then sceRelease why d else d

/-- Halt a core and take its cells and its lock (11 R319, 07 R201). -/
def stopCore (run : CoreRun) (c : Nat) (d : Dev) : Dev :=
  let d := d.updCore c (fun k => { k with run := run, sleep := none })
  sceOwnerGone (reqCore c) 2 (releaseCoreCells c d)

/-! ### Extraction and management messages towards a queue's consumer (13 R377, 10 R298) -/

/-- CLASS 5 messages of an extracted frame for core `c` from queue `q`: six cells a message, MORE on all but the last. -/
def class5 (q : Nat) : List (List Nat) → List Message
  | [] => []
  | cs :: rest =>
    let hdr := 5 + at_ q 4 + at_ cs.length 19 + (if rest.isEmpty then 0 else 2 ^ 22) + at_ 0x00FF 32
    fitMsg (BitVec.ofNat 64 hdr :: cs.map (BitVec.ofNat 64)) :: class5 q rest
where
  /-- Eight words. -/
  fitMsg (m : Message) : Message := (m ++ List.replicate 8 0).take 8

/-- The frame's bytes stand in the cells that a core has been given; what lies beyond the end reads 0 (11 R320). -/
def fillCells (cells : List Nat) (b : Bytes) (d : Dev) : Dev :=
  { d with bpm := { d.bpm with data := (List.zip cells (pieces 256 b)).foldl (fun t e => Tab.set [] t e.1 (fit 256 e.2)) d.bpm.data } }

/-- Cut a list into groups of `n`; `fuel` bounds their number. -/
def groups {α : Type} (n : Nat) : Nat → List α → List (List α)
  | 0, _ => []
  | _, [] => []
  | f + 1, l => l.take n :: groups n f (l.drop n)

/-- Deliver a frame that stage `r` holds in `cells` to a core consumer: all its cells and all messages, or nothing (10 R298, 11 R313). -/
def extractToCore (q c r : Nat) (cells : List Nat) (b : Bytes) (d : Dev) : Bool × Dev :=
  let n := ceilDiv b.length 256
  let msgs := ceilDiv n 6
  if !coreAlive (d.getCore c) || decide ((d.getCore c).mailbox.length + msgs > 64) then (false, d)
  else
    let x := passCells r c cells n d
    match x.1 with
    | none => (false, x.2)
    | some l => (true, (fillCells l b x.2).updCore c (fun k => { k with mailbox := k.mailbox ++ class5 q (groups 6 (n + 1) l) }))

/-- Write a frame or management message into a host buffer with its completion entry, or drop it (13 R377). The queue's requester holds
the cells until the write has been sent; an uncorrectable error in one of them drops the delivery (log entry 23). -/
def extractToHost (q port rule idx : Nat) (mgmt : Bool) (r : Nat) (cells : List Nat) (b : Bytes) (d : Dev) : Bool × Dev :=
  let g := d.getExt q
  let size := 2 ^ fld g.cfg 11 8
  let n := ceilDiv b.length 256
  match g.bufs with
  | [] => (false, d)
  | buf :: rest =>
    if !g.en || decide ((g.cpi + 2 ^ 32 - g.cci) % 2 ^ 32 ≥ size) || decide (b.length > 16384) || badCells cells d then (false, d)
    else
      let x := passCells r (0xB0 + q) cells n d
      match x.1 with
      | none => (false, x.2)
      | some l =>
        let entry := be 1 (if g.cpi / size % 2 = 0 then 1 else 0) ++ be 1 port ++ le 2 rule ++ le 4 b.length ++ le 8 idx
          ++ le 4 g.bci ++ be 1 (if mgmt then 1 else 0) ++ zeros 11
        let d := hostOut (.dma buf b) x.2
        let d := hostOut (.dma (g.cbase + 32 * (g.cpi % size)) entry) d
        let d := freeCells (0xB0 + q) l d
        (true, extSignal q (d.updExt q (fun g => { g with bufs := rest, bci := (g.bci + 1) % 2 ^ 32, cpi := (g.cpi + 1) % 2 ^ 32, late := lateNow g.late d })))

/-- The frame-injection queue that OSF uses on a line port, or on the management channel of a Slot-mode port: an enabled queue of the cores
that leads there (13 R375, R376). -/
def osfQueue (mgmt : Option Nat) (p : Nat) (d : Dev) : Option Nat :=
  match mgmt with
  | some q => let g := d.getInj q; if g.en && bitAt g.cfg 7 && bitAt g.cfg 6 then some q else none
  | none => (List.range 16).find? (fun q => let g := d.getInj q; g.en && bitAt g.cfg 7 && !bitAt g.cfg 6 && fld g.cfg 5 0 == p)

/-- OSF puts a frame or message into an injection queue, in cells of that queue; one that finds no queue, depth or cells is lost. -/
def osfPut (q : Option Nat) (b : Bytes) (d : Dev) : Dev :=
  match q with
  | none => d
  | some q =>
    let g := d.getInj q
    if g.frames.length ≥ 2 ^ fld g.cfg 11 8 then d
    else
      let r := takeCells (0xA0 + q) (ceilDiv b.length 256) d
      match r.1 with
      | some l => r.2.updInj q (fun g => { g with frames := g.frames ++ [⟨b, l⟩] })
      | none => r.2

/-- OSF sends a frame on a line port. -/
def osfSend (p : Nat) (b : Bytes) (d : Dev) : Dev := osfPut (osfQueue none p d) b d

/-- Deliver to extraction queue `q` what stage `r` holds in `cells`; a delivery without room is dropped and counted in HXQ[q]_DROP
(13 R377). -/
def extract (q port rule idx : Nat) (mgmt : Bool) (r : Nat) (cells : List Nat) (b : Bytes) (d : Dev) : Dev :=
  let cfg := (d.getExt q).cfg
  let x := if bitAt cfg 0 then extractToCore q (fld cfg 6 1) r cells b d else extractToHost q port rule idx mgmt r cells b d
  if x.1 then x.2 else x.2.updExt q (fun g => { g with drop := sat64 (g.drop + 1) })

end Sys2Proof.Machine
end

