-- ==== Sys2Proof/Machine/ModeOps.lean ====
section
/-! DEFINITION. Mode changes, measurements, key destruction, wipes, device and slice faults as operations (chapters 14 and 15). -/

namespace Sys2Proof.Machine

/-! ### The TWN block as modes use it (09 R247, R254) -/

/-- TWN_STATUS (09 Table 09-13). -/
def twnStatusWord (t : Twn) : Nat :=
  t.pair + t.primacy.toNat * 4 + t.coast.toNat * 8 + t.pathA.toNat * 16 + t.pathB.toNat * 32 + t.tookOver.toNat * 64
    + t.split.toNat * 128 + t.pdpVer * 65536

/-- Change the TWN block; a change of a TWN_STATUS field sets TWINCHG (10 Table 10-13). -/
def twnSet (f : Twn → Twn) (d : Dev) : Dev :=
  let t := f d.twn
  let d' := { d with twn := t }
  if twnStatusWord t = twnStatusWord d.twn then d' else evPendAll 11 d'

/-- Fence a port: STATE 1 (09 R247). -/
def fencePort (n : Nat) (d : Dev) : Dev := d.updTwn n (fun p => { p with state := 1 })

/-- Fence every line port. -/
def fenceAll (d : Dev) : Dev := each (List.range 64) fencePort d

/-- Clear every fence, of ports and of channels (09 R247, R249, R252; 14 R390). -/
def unfenceAll (d : Dev) : Dev :=
  let d := each (List.range 64) (fun n d => d.updTwn n (fun p => { p with state := 0 })) d
  { d with twn := { d.twn with chFence := [] } }

/-- The datapath version, TCK_DPVER (08 Table 08-6). -/
def dpVer : Nat := 0x0100

/-- The device's role in heartbeats: 0 lead, 1 shadow, 2 taken over (09 R254). -/
def hbRole (d : Dev) : Nat := if d.twn.tookOver then 2 else if d.mod.mode = .shadow then 1 else 0

/-- SIDE of SAS_CFG (05 Table 05-10). -/
def ownSide (d : Dev) : Nat := d.tab.side

/-- A HEARTBEAT's payload, which makes its frame one of 96 bytes: serial, SIDE, role, TCK_DPVER, sequence, ack, DEPART (09 R254; log entry 16). -/
def heartbeatMsg (depart : Bool) (d : Dev) : Bytes :=
  be 8 d.mod.fuses.serial ++ be 1 (ownSide d) ++ be 1 (hbRole d) ++ be 2 dpVer ++ be 4 d.twn.hbSeq ++ be 4 d.twn.hbRx ++ be 1 depart.toNat ++ zeros 43

/-- A heartbeat on one path, 0 path A and 1 path B (09 R254). -/
def sendHeartbeat (path : Nat) (depart : Bool) (d : Dev) : Dev :=
  pathSend (if path = 0 then some (6, (d.getHp 6).nbr) else pathB d) 3 0 (heartbeatMsg depart d) d

/-- DEPART on both paths before LEAD or SHADOW is left (09 R254). -/
def sendDepart (d : Dev) : Dev := sendHeartbeat 1 true (sendHeartbeat 0 true d)

/-! ### Measurements and modes (14 R382, R407) -/

/-- Extend a measurement register (14 R407). -/
def mrExtend (i kind : Nat) (x : Bytes) (d : Dev) : Dev :=
  let old := fit 64 (Tab.get [] d.mod.mr i)
  { d with mod := { d.mod with mr := Tab.set [] d.mod.mr i (shake256 (old ++ be 1 kind ++ be 4 x.length ++ x) 64) } }

/-- A device that leaves LEAD or SHADOW for another mode first sends DEPART on both paths (14 R390, 09 R254). -/
def departFirst (m : Mode) (d : Dev) : Dev :=
  if (d.mod.mode = .lead || d.mod.mode = .shadow) && m ≠ .lead && m ≠ .shadow then sendDepart d else d

/-- The mode changes: MOD_MODE, event 0x0E01 and MR4 (14 R382); a request that has been accepted and has not finished is refused when the
device changes to another mode on its own (R389). -/
def takeMode (m : Mode) (reason : Nat) (d : Dev) : Dev :=
  let old := d.mod.mode
  let d := if m = .lead || m = .shadow || m = .solo then d
           else twnSet (fun t => { t with primacy := false, coast := false }) d
  let d := match d.mod.change with
    | some (t, _) => if t = m then d else
        event 0x0E06 1 (be 1 t.code ++ be 1 1 ++ be 1 d.mod.changeReq) { d with mod := { d.mod with refused := true, refCode := 1 } }
    | none => d
  let d := { d with mod := { d.mod with mode := m, prev := old, reason := reason, change := none } }
  mrExtend 4 4 (be 1 m.code ++ be 1 reason) (event 0x0E01 1 (be 1 m.code ++ be 1 old.code ++ be 1 reason) d)

/-- Enter a mode (14 R382, R390). -/
def enterMode (m : Mode) (reason : Nat) (d : Dev) : Dev := takeMode m reason (departFirst m d)

/-! ### Keys and memories destroyed (07 R185, 11 R336, R337) -/

/-- What the stored form of a key, masked under KWR value `old`, decodes to once KWR is destroyed (07 R184, R185); `area` and `i` are
the field's address (log entry 41). -/
def unmask (old : Bytes) (area i : Nat) (key : Bytes) : Bytes :=
  let mask := fun (kwr : Bytes) => fit key.length (Config.keyMask kwr (area * 2 ^ 32 + i))
  xorB (xorB key (mask old)) (mask [])

/-- Every key field of a table decodes under the destroyed KWR. -/
def unmaskTab {α : Type} (old : Bytes) (area : Nat) (get : α → Bytes) (set : α → Bytes → α) (t : Tab α) : Tab α :=
  t.map (fun e => (e.1, set e.2 (unmask old area e.1 (get e.2))))

/-- The SA slots of a view under the destroyed KWR. -/
def Tables.unmaskSa (old : Bytes) (t : Tables) : Tables := { t with sa := unmaskTab old 0 (fun (k : SaStat) => k.key) (fun k b => { k with key := b }) t.sa }

/-- The key fields of the KEY, SCE and LAT blocks under the destroyed KWR. -/
def Keys.unmasked (k : Keys) : Keys :=
  { k with
    kwr := [], kwrValid := false
    kek := unmaskTab k.kwr 1 (fun (x : Kek) => x.key) (fun x b => { x with key := b }) k.kek
    lpk := unmaskTab k.kwr 2 (fun (x : Lpk) => x.key) (fun x b => { x with key := b }) k.lpk
    tickets := k.tickets.map (fun t => { t with key := unmask k.kwr 3 t.handle t.key })
    sceKey := unmask k.kwr 5 0 k.sceKey }

/-- KWR is destroyed: every stored key field, tickets and staging buffers among them, decodes to an unrelated value, and the MEC's keys
are cleared, so that no sector of the protected region can be read (07 R185, 11 R337). -/
def destroyKwr (why : Nat) (record : Bool) (d : Dev) : Dev :=
  let d := if record then event 0x0705 3 (be 1 why) d else d
  let old := d.keys.kwr
  (((d.updViews (Tables.unmaskSa old)).updKeys Keys.unmasked).updSas
    (fun x => { x with stage := x.stage.map (fun e => (e.1, { e.2 with image := { e.2.image with key := unmask old 4 e.1 e.2.image.key } })) })).updMem
    (fun m => { m with ready := false, xtsKey1 := [], xtsKey2 := [], macKey := [], root := [], provs := [], rises := [] })

/-- The buffers of the slot framer and the performance history, which stand in SRAM; registers keep their values (11 Table 11-1, 00 R6). -/
def SltPort.wiped (s : SltPort) : SltPort :=
  { s with
    tx := { s.tx with ptag := [], tags := [], refs := [], mgmt := [], mgmtStarted := false, map := [], mapFrames := [], inPkt := [], part := [] }
    rx := { s.rx with held := [], heldPort := none, hasPrev := false, prevIn := false, mgmt := none, mgmtSeq := none, cand := [], nan := none,
                      play := [], buf := [], needStart := [], playIn := [], pkt := [], spare := [] }
    pm := { s.pm with last := none, line := [], entered := none, cur15 := {}, curDay := {}, hist15 := [], histDay := [] } }

/-- The service cipher's lock goes with the memories and cores of its owner: the release of 07 R201, of a core that is reset or, for the host, as by
FORCE (the device's own release; DESIGN CHOICE, log entry 88). -/
def wipeSce (d : Dev) : Dev := sceRelease (if d.keys.sceOwner = reqHost then 4 else 2) d

/-- The wipe of every on-chip SRAM but the recorder's buffer (11 R336, Table 11-1): stores, tables, cells and the frames in them, core memories,
the counter-tree cache, the slot framer. Selectors and operands of the snapshot registers are registers and stay (00 R6). -/
def wipeSram (d : Dev) : Dev :=
  { d with
    tab := { prt := d.tab.prt, stnPeriod := d.tab.stnPeriod, side := d.tab.side,
             slt := d.tab.slt.map (fun e => (e.1, { e.2 with txClient := [], rxClient := [], txPageA := [], txPageB := [], rxPageA := [], rxPageB := [] })) }
    views := []
    slice := d.slice.map (fun e => (e.1, { e.2 with txq := [] }))
    tck := { d.tck with port := d.tck.port.map (fun e => (e.1, { e.2 with rx := [] })) }
    slt := { d.slt with port := d.slt.port.map (fun e => (e.1, e.2.wiped)), pmSnap := {} }
    hif := { d.hif with held := [], osfDone := [] }
    port := d.port.map (fun e => (e.1, { e.2 with egress := [], hold := [], rel := [] }))
    sas := { coldBase := d.sas.coldBase, coldSize := d.sas.coldSize, coldLock := d.sas.coldLock,
             statSel := d.sas.statSel, recSel := d.sas.recSel, chnSel := d.sas.chnSel }
    stn := { ctr := d.stn.ctr, opKeyLo := d.stn.opKeyLo, opKeyHi := d.stn.opKeyHi, op := d.stn.op, opPart := d.stn.opPart, opDomF := d.stn.opDomF,
             opCursor := d.stn.opCursor, opIdx := d.stn.opIdx }
    pat := {}
    keys := { d.keys with kek := [], lpk := [], tickets := [], sceJob := none, sceKey := [], sceHeld := false, sceOwner := 0, latQueue := [],
                          pkx := [], pkxPeers := [], pkxGroups := [], pkxFrags := [], pkxAborts := [], osfSas := [], osfTag := 0, mka := [], mkaWait := [] }
    core := d.core.filterMap (fun e => if e.2.run = .retired then some (e.1, { run := .retired }) else none)
    bpm := { min := d.bpm.min, cap := d.bpm.cap, deny := d.bpm.deny, refused := d.bpm.refused, qsel := d.bpm.qsel,
             badFree := d.bpm.badFree, badCell := d.bpm.badCell, badReq := d.bpm.badReq, badValid := d.bpm.badValid, badOwner := d.bpm.badOwner }
    mem := { d.mem with shared := [], cache := [] }
    flt := { d.flt with bad := [] } }

/-- Every ring and queue of the host is disabled. -/
def queuesOff (d : Dev) : Dev :=
  { d with hif := { d.hif with
      ring := d.hif.ring.map (fun e => (e.1, { e.2 with en := false, reserved := 0, waiting := none })),
      inj := d.hif.inj.map (fun e => (e.1, { e.2 with en := false, frames := [], building := [], buildCells := [] })),
      ext := d.hif.ext.map (fun e => (e.1, { e.2 with en := false, bufs := [] })),
      hmbEn := false } }

/-- End every frame in transmission on a port with an error control character (15 R422, 02 R55). -/
def errorEndPort (n : Nat) (d : Dev) : Dev :=
  let p := d.getPort n
  let d := each p.egress (fun f d =>
    lineEmit n (.frame n f.bytes false) (freeCells (0x40 + chSlice f.chid) f.cells (d.updLive f.slot (fun l => { l with refs := l.refs - 1 })))) d
  d.updPort n (fun p => { p with egress := [] })

/-- Every enabled port goes fallow: frames in transmission are error-terminated (15 R422). -/
def fallowAll (d : Dev) : Dev := each (List.range 64) errorEndPort d

/-- Enter a mode whose ports are fallow: DEPART goes out first (14 R390, Table 14-14). -/
def enterFallow (m : Mode) (reason : Nat) (d : Dev) : Dev := takeMode m reason (fallowAll (departFirst m d))

/-- A flush after which the recorder's stop counts as clean, when the recorder still writes the archive (15 R434, R438). -/
def cleanFlush (d : Dev) : Dev :=
  let d := archiveFlush d
  if d.evr.ramOnly || !d.evr.flashOk then d else { d with evr := { d.evr with cleanStop := true } }

/-- The fuses after a life-cycle operation (14 Table 14-2): OP, and the state it leads to. -/
def lcFuses (op : Nat) (target : Life) (m : Mod) : Fuses :=
  let f := m.fuses
  if op ≤ 4 then { f with life := target, dusKill := f.dusKill || 3 ≤ op }
  else if op = 5 then { f with ownerHash := m.lcHash, ownerV := true } else { f with ownerOnly := true }

/-- A fuse operation that is interrupted leaves the old fuses or the new ones: a free choice (14 R383, R410). -/
def lcInterrupt (d : Dev) : Dev :=
  match d.mod.lcOp with
  | none => { d with mod := { d.mod with lcBusy := false } }
  | some (op, target) =>
    let r := freeNat d
    let m := r.2.mod
    { r.2 with mod := { m with fuses := if r.1 % 2 = 1 then lcFuses op target m else m.fuses, lcOp := none, lcBusy := false } }

/-- The zeroise sequence (14 R409, Table 14-13): `reason` 6, 7 or 8, `code` of event 0x0E04, `why` of event 0x0705. -/
def zeroiseSeq (reason code why : Nat) (d : Dev) : Dev :=
  if d.mod.mode = .zeroised then destroyKwr why false d
  else
    let d := lcInterrupt { d with mod := { d.mod with change := none } }
    let d := destroyKwr why true d
    let d := enterFallow .zeroised reason d
    cleanFlush (event 0x0E04 3 (be 1 code) (queuesOff (wipeSram (wipeSce d))))

/-- Send a mesh-wide zeroise onward as its origin (09 R271, Table 09-8): origin node, reason (log entry 15);
nothing further is recorded in ZEROISED (14 R410). -/
def zeroiseOut (reason : Nat) (d : Dev) : Dev :=
  let d := { d with twn := { d.twn with eseq := (d.twn.eseq + 1) % 2 ^ 32 } }
  let d := meshFlood 2 0 (nodeAddr d) 24 d.twn.eseq (be 2 (nodeAddr d) ++ be 1 reason) none d
  if d.mod.mode = .zeroised then d else event 0x0909 3 (be 2 (nodeAddr d) ++ be 1 0) d

/-- A zeroise event in RESET or KILN: keys and memories are destroyed, the mode stays (14 R388, R409). -/
def zeroiseEarly (code why : Nat) (d : Dev) : Dev :=
  cleanFlush (event 0x0E04 3 (be 1 code) (queuesOff (wipeSram (wipeSce (destroyKwr why true d)))))

/-- A zeroise event (14 R409, R410). -/
def zeroiseNow (reason code why : Nat) (d : Dev) : Dev :=
  if d.mod.mode = .reset || d.mod.mode = .kiln then zeroiseEarly code why d else zeroiseSeq reason code why d

/-- A device fault (15 R421): FALLOW with REASON 10, unless the device is in FALLOW or ZEROISED, or SCRAPPED, which stays in KILN (14 Table 14-1). -/
def deviceFault (cause : Nat) (d : Dev) : Dev :=
  let d := event 0x0F13 3 (be 1 cause) d
  if d.mod.mode = .fallow || d.mod.mode = .zeroised || d.mod.fuses.life = .scrapped then d else enterFallow .fallow 10 d

/-! ### Slice faults (15 R417) -/

/-- The ports whose slices include `s`. -/
def slicePorts (s : Nat) (d : Dev) : List Nat := (List.range 64).filter (fun n => (portSlices d.tab n).contains s)

/-- A failed slice ends the pending seam of channel `e.1` as ABORTED. -/
def abortSeam (s : Nat) (e : Nat × ChanLive) (d : Dev) : Dev :=
  if chSlice e.1 = s then
    match e.2.seamSub with
    | some b => (gateLate b e.2.seamTack stABORTED [] d).updChl e.1 (fun c => { c with seamSub := none, seamKind := 0 })
    | none => d
  else d

/-- The pending erase or retirement `o` ends as ABORTED. -/
def abortFinal (o : Option (Sub × Nat)) (d : Dev) : Dev := match o with | some b => gateFinal b.1 b.2 stABORTED [] d | none => d

/-- The pending seam `o` of a slot ends as ABORTED. -/
def abortPend (o : Option (Sub × Nat × Nat × Nat)) (d : Dev) : Dev := match o with | some x => gateLate x.1 x.2.1 stABORTED [] d | none => d

/-- A failed slice ends what SA slot `e.1` waits for as ABORTED. -/
def abortSlot (s : Nat) (e : Nat × SaLive) (d : Dev) : Dev :=
  if slotSlice e.1 = s then
    (abortFinal e.2.pendErase (abortFinal e.2.pendRetire (abortPend e.2.pendSeam d))).updLive e.1
      (fun l => { l with pendErase := none, pendRetire := none, pendSeam := none })
  else d

/-- Pending and deferred commands of a slice complete with ABORTED (15 R417). -/
def abortSlice (s : Nat) (d : Dev) : Dev :=
  let d := each d.sas.chan (abortSeam s) d
  let d := each d.sas.live (abortSlot s) d
  let d := each d.sas.parks (fun k d => if slotSlice k.1 = s then gateLate k.2.2.1 k.2.2.2 stABORTED [] d else d) d
  let d := each d.stn.waiting (fun w d => if w.part = s && w.filter.isNone then gateLate w.sub w.tack stABORTED [] d else d) d
  let d := { d with stn := { d.stn with waiting := d.stn.waiting.filter (fun w => w.part != s) } }
  d.updSas (fun x => { x with parks := x.parks.filter (fun k => slotSlice k.1 != s), pend := x.pend.filter (fun k => slotSlice k.slot != s) })

/-- What Slot-mode cipher port `p` holds of the slice fails and its cells are freed: client frames and the port channel's (15 Table 15-3, 03 R96). -/
def dropSlotHold (s p : Nat) (d : Dev) : Dev :=
  let r := (d.getSlt p).rx
  let mine := fun (h : HeldClient) => chSlice h.chid == s && !h.failed
  let drop := fun (slot : Nat) (d : Dev) => saCount slot 1 1 (d.updLive slot (fun l => { l with refs := l.refs - 1 }))
  let d := each (r.held.filter mine) (fun h d => freeCells (0x58 + s) h.cells (drop h.slot d)) d
  let gone := match r.heldPort with | some h => slotSlice h.slot == s | none => false
  let d := match gone, r.heldPort with | true, some h => drop h.slot d | _, _ => d
  d.updSlt p (fun x => { x with rx := { x.rx with
    held := r.held.map (fun h => if mine h then { h with failed := true, slot := 0, cells := [], tag := [] } else h)
    heldPort := if gone then none else r.heldPort, prevIn := r.prevIn && !gone } })

/-- Received frames under hold fail, an errored block each (04 Table 04-3), and their cells are freed (15 Table 15-3). -/
def dropHold (s n : Nat) (d : Dev) : Dev :=
  let mine := (d.getPort n).hold.filter (fun f => chSlice f.chid == s)
  let d := each mine (fun f d => freeCells (0x48 + s) f.cells (errBlock n (saCount f.slot 1 1 (d.updLive f.slot (fun l => { l with refs := l.refs - 1 }))))) d
  let d := d.updPort n (fun p => { p with hold := p.hold.filter (fun f => chSlice f.chid != s) })
  if isCipher n then dropSlotHold s (facePos n) d else d

/-- The unit's time of its last transient fault, and a fault's recurrence within its window (15 R413). -/
def recurs (cls unit window : Nat) (d : Dev) : Bool :=
  d.flt.lastAt.any (fun e => e.1 == (cls, unit) && decide (d.evr.optime < e.2 + window * 1000 + 1))

/-- Keep the time of a transient fault. -/
def markFault (cls unit : Nat) (d : Dev) : Dev :=
  { d with flt := { d.flt with lastAt := ((cls, unit), d.evr.optime) :: d.flt.lastAt.filter (fun e => e.1 != (cls, unit)) } }

/-- A slice fault (15 R417, Table 15-3); on a compared pair the partner is told (R420). -/
def sliceFault (s cause : Nat) (d : Dev) : Dev :=
  if sliceDown d s then d
  else
    let d := d.updSlice s (fun x => { x with state := 1, cause := cause, fltSlice := Nat.min 255 (x.fltSlice + 1), faultAt := d.evr.optime })
    let d := event 0x0F12 3 (be 1 s ++ be 1 cause) d
    let ports := slicePorts s d
    let d := each ports (fun n d => dropHold s n (errorEndPort n d)) d
    let d := abortSlice s d
    if d.twn.pair = 1 then
      each ports (fun n d => twinSend 7 (mismatchMsg n 0 true) (d.updTwn n (fun p => { p with sliceFault := true }))) d
    else d

/-- The slice of a datapath stage's requester (11 Table 11-3). -/
def stageSlice (q : Nat) : Nat := if q < 0x60 then q % 8 else facePos (q - 0x60) / 4

/-- A datapath stage frees a frame's cells; one that it does not own is refused: event 0x0B02, and the slice has a datapath fault
(11 R318, CAUSE 4 of 15 R417). -/
def freeStage (q : Nat) (cells : List Nat) (d : Dev) : Dev :=
  let stray := cells.filter (fun c => !ownsCell q c d)
  let d := freeCells q (cells.filter (fun c => ownsCell q c d)) d
  each stray (fun c d =>
    sliceFault (stageSlice q) 4 (event 0x0B02 3 (badFreeData q c d) { d with bpm := badRelease q c d.bpm })) d

/-- Cells of frames that waited in a mapping buffer are freed (11 R313). -/
def freeMapped (l : List MapFrame) (d : Dev) : Dev := each l (fun m d => freeStage (0x40 + m.slice) m.cells d) d

/-- Retire a unit: event 0x0F11 (15 R413, Table 15-17). -/
def retireUnit (cls unit how : Nat) (d : Dev) : Dev :=
  event 0x0F11 3 (be 1 cls ++ be 2 unit ++ be 1 how) { d with flt := { d.flt with retired := (cls, unit) :: d.flt.retired } }

/-- A transient fault of a unit: event 0x0F10. -/
def transientUnit (cls unit how : Nat) (d : Dev) : Dev := event 0x0F10 1 (be 1 cls ++ be 2 unit ++ be 1 how) d

end Sys2Proof.Machine
end

