-- ==== Sys2Proof/Machine/SasOps.lean ====
section
/-! DEFINITION. Shared operations on SA slots, windows, channels, staging buffers and cold entries (chapter 05). -/

namespace Sys2Proof.Machine

/-! ### Boundaries (08 R216) -/

/-- Tack `k` has taken effect on port `p`: no tack up to `k` waits for its boundary or for a SEAL there (08 R224). -/
def tackEffective (p k : Nat) (d : Dev) : Bool :=
  !(d.getTck p).bounds.any (fun b => decide (b.1 ≤ k)) && !(d.getTck p).deferred.any (fun j => decide (j ≤ k))

/-- The tack number of the view of a frame with index `x` on port `p`: the last tack whose boundary there it has reached (08 R216). -/
def viewTack (p x : Nat) (d : Dev) : Nat :=
  let t := d.getTck p
  let waits := (t.bounds.filter (fun b => decide (x < b.2))).map (fun b => b.1) ++ t.deferred
  waits.foldl (fun a k => Nat.min a (k - 1)) d.tck.tno

/-- The gated tables in the view of tack `v`: as they stood before the first later tack (log entry 5). -/
def tabAt (v : Nat) (d : Dev) : Tables :=
  match d.views.find? (fun e => decide (v < e.1)) with
  | some e => e.2
  | none => d.tab

/-- The lowest tack whose view a frame, a kept learn (which applies at the second tack after its interval's) or a station command that waits may
still need. -/
def viewFloor (d : Dev) : Nat :=
  let ports := (List.range 64).foldl (fun a p => if portEnabled d p then Nat.min a (viewTack p (d.getTck p).admitted d) else a) d.tck.tno
  let jobs := d.slice.foldl (fun a e => e.2.txq.foldl (fun a j => Nat.min a j.view) a) ports
  let holds := d.port.foldl (fun a e => e.2.hold.foldl (fun a h => Nat.min a h.view) a) jobs
  d.stn.waiting.foldl (fun a w => Nat.min a w.tack) (d.stn.learns.foldl (fun a l => Nat.min a (l.interval + 2)) holds)

/-- Forget the views that no frame needs any more. -/
def pruneViews (d : Dev) : Dev :=
  let f := viewFloor d
  { d with views := d.views.filter (fun e => decide (f < e.1)) }

/-- The boundary of the tack being applied on port `p`; the admitted count once it has taken effect. SEAMAT takes it once, as the record is applied,
and keeps it if the port's entry has no boundary yet or a SEAL moves it (DESIGN CHOICE, log entry 94). -/
def boundAt (p : Nat) (d : Dev) : Nat :=
  match (d.getTck p).bounds.find? (fun b => b.1 == d.tck.tno) with
  | some b => b.2
  | none => (d.getTck p).admitted

/-- The port whose frame index places a channel's frames: SRC, or the cipher port DST for a Slot-mode transmit channel (05 R148, R154). -/
def chanPort (chid : Nat) (c : Chan) : Nat := if !isRc chid && c.kind != 0 then c.dst else c.src

/-! ### SA records -/

/-- The suite's PN is 64 bits wide (02 Table 02-5). -/
def isXpn (suite : Nat) : Bool := decide (suite < 2)

/-- The spent value of a suite (02 R37). -/
def spentPn (suite : Nat) : Nat := if isXpn suite then 2 ^ 64 - 1 else 2 ^ 32 - 1

/-- Default limits (05 Table 05-6). -/
def defSoft (suite : Nat) : Nat := if isXpn suite then 0xFFFFFFFF00000000 else 0xC0000000
def defHard (suite : Nat) : Nat := spentPn suite

/-- Key bytes of a suite (02 Table 02-5). -/
def suiteKeyLen (suite : Nat) : Nat := if suite % 2 = 0 then 32 else 16

/-- The slot that a channel names for an AN, in a view. -/
def anSlotOf (t : Tables) (chid an : Nat) : Option Nat :=
  (Tab.get none (t.getChn chid).anSlot an).map (fun l => chSlice chid * 16384 + l)

/-- The current SA slot of a transmit channel, with its live part (05 Table 05-1 CURAN, CURV). -/
def curSlot (t : Tables) (chid : Nat) (d : Dev) : Option Nat :=
  let l := d.getChl chid
  if l.curV then anSlotOf t chid l.curAn else none

/-- The slot is the current SA of its channel: ACTIVE and named by CURAN (Table 05-2). -/
def isCurrent (slot : Nat) (d : Dev) : Bool :=
  let s := d.tab.getSa slot
  s.att && s.dir == 0 && s.state == .active && curSlot d.tab s.chid d == some slot

/-- A frame's reference is released (05 R146). -/
def relRef (slot : Nat) (d : Dev) : Dev := d.updLive slot (fun l => { l with refs := l.refs - 1 })

/-- A frame takes a reference (05 R146). -/
def takeRef (slot : Nat) (d : Dev) : Dev := d.updLive slot (fun l => { l with refs := l.refs + 1 })

/-- NEXTPN reaches SOFTPN: SOFTHIT, event 0x0501, wake (05 R152). -/
def softCheck (slot : Nat) (d : Dev) : Dev :=
  let l := d.getLive slot
  if (d.tab.getSa slot).dir = 0 && decide (l.softPn ≤ l.nextPn) && !l.softHit then
    evPendAll 4 (event 0x0501 1 (limitData slot d) (d.updLive slot (fun l => { l with softHit := true })))
  else d

/-- A limit change takes effect (05 R154). -/
def applyLimit (p : PendLimit) (d : Dev) : Dev :=
  let d := match p.raise with
    | some n => d.updLive p.slot (fun l => { l with nextPn := Nat.max l.nextPn n })
    | none => d
  let d := match p.limit with
    | some (soft, hard) => d.updLive p.slot (fun l =>
        { l with softPn := soft, hardPn := hard, softHit := if l.nextPn < soft then false else l.softHit })
    | none => d
  softCheck p.slot d

/-- The limit changes of a slot that are in the view of a frame take effect, in order: `view` is the view's tack (05 R154). -/
def applyDueLimits (slot view : Nat) (d : Dev) : Dev :=
  let due := fun (e : PendLimit) => e.slot == slot && decide (e.tack ≤ view)
  let now := d.sas.pend.filter due
  each now applyLimit { d with sas := { d.sas with pend := d.sas.pend.filter (fun e => !due e) } }

/-! ### Windows (05 R138, R139; 02 R48) -/

def Dev.getWin (d : Dev) (w : Nat) : Win := Tab.get {} d.sas.win w
def Dev.updWin (w : Nat) (f : Win → Win) (d : Dev) : Dev := { d with sas := { d.sas with win := Tab.upd {} d.sas.win w f } }

/-- The five slots of a window block. -/
def winSlots (w : Nat) : List Nat := [w, w + 1, w + 2, w + 3, w + 4]

/-- The slot is the header of a window block: each of the five names its header. -/
def isHeader (t : Tables) (w : Nat) : Bool := (t.getSa w).state == .window && (t.getSa w).win == some (w % 16384)

/-- The window header of an SA, as a slot index. -/
def winOf (slot : Nat) (s : SaStat) : Option Nat := if s.state = .window then none else s.win.map (fun l => slotSlice slot * 16384 + l)

/-- The SAs that name window `w`: (slot, record). -/
def winNamers (t : Tables) (w : Nat) : List (Nat × SaStat) := t.sa.filter (fun e => e.2.att && winOf e.1 e.2 == some w)

/-- An SA leaves its channel: ATT 0, ANSLOT cleared, MEMBERS less one (05 Table 05-4). A transmit channel that loses its current SA has none
then (CURV 0): DEDUCED (log entry 84). -/
def detach (slot : Nat) (d : Dev) : Dev :=
  let s := d.tab.getSa slot
  if !s.att then d
  else
    let d := match winOf slot s with
      | some w => d.updWin w (fun x => { x with members := x.members - 1 })
      | none => d
    let d := d.updTab (fun t =>
      (t.updChn s.chid (fun c => if Tab.get none c.anSlot s.an = some (slot % 16384) then { c with anSlot := Tab.set none c.anSlot s.an none } else c)).updSa slot
        (fun x => { x with att := false, win := none }))
    let l := d.getChl s.chid
    if !isRc s.chid && l.curV && l.curAn == s.an then d.updChl s.chid (fun l => { l with curV := false }) else d

/-- Clear a slot to FREE (05 R143 SA_ERASE). -/
def freeSlot (slot : Nat) (d : Dev) : Dev :=
  let d := detach slot d
  let d := (d.updTab (Tables.updSa slot (fun _ => {}))).updLive slot (fun _ => {})
  { d with sas := { d.sas with pend := d.sas.pend.filter (fun e => e.slot != slot) } }

/-! ### Staging and cold entries (05 R140, R157 to R159) -/

def Dev.getStage (d : Dev) (b : Nat) : StageBuf := Tab.get {} d.sas.stage b
def Dev.setStage (b : Nat) (x : StageBuf) (d : Dev) : Dev := { d with sas := { d.sas with stage := Tab.set {} d.sas.stage b x } }
def Dev.getCold (d : Dev) (i : Nat) : ColdEnt := Tab.get {} d.sas.cold i
/-- The SAS writes an entry of an opened sector, and with it the sector (05 R157, 11 R329). -/
def Dev.updCold (i : Nat) (f : ColdEnt → ColdEnt) (d : Dev) : Dev :=
  protWrite (d.sas.coldBase + 256 * i) 256 { d with sas := { d.sas with cold := Tab.upd {} d.sas.cold i f } }

/-- The cold entry exists: the database is locked and holds the index (05 Table 05-13). -/
def coldHas (i : Nat) (d : Dev) : Bool := d.sas.coldLock && decide (i < coldCount d)

/-- The SAS opens an entry's sector: the flag is false where the access fails (11 R332). -/
def coldOpen (i : Nat) (d : Dev) : Bool × Dev :=
  if d.mem.ready then protOpen (d.sas.coldBase + 256 * i) 256 true d else (false, d)

/-- A cold entry fails its integrity check: it reads as FAULT, event 0x0504 (05 R159); the access is counted (11 R332). Nothing is
written into the doubtful subtree (11 R331). -/
def coldFail (i : Nat) (d : Dev) : Dev :=
  event 0x0504 3 (be 3 i) ({ d with sas := { d.sas with cold := Tab.upd {} d.sas.cold i (fun e => { e with state := 4 }) },
                                    mem := { d.mem with doubtAcc := sat64 (d.mem.doubtAcc + 1) } })

/-- The SAS changes an entry whose command has already answered: an entry in a doubtful subtree goes to FAULT (05 R159, log entry 44). -/
def coldWrite (i : Nat) (f : ColdEnt → ColdEnt) (d : Dev) : Bool × Dev :=
  let r := coldOpen i d
  (r.1, if r.1 then r.2.updCold i f else coldFail i r.2)

/-- The buffer's cold entry goes back to PARKED when it was STAGED (05 R158). -/
def unstageCold (x : StageBuf) (d : Dev) : Dev :=
  match x.src, x.image.coldIdx with
  | 1, some i => if (d.getCold i).state = 2 then (coldWrite i (fun e => { e with state := 1, stage := 0 }) d).2 else d
  | _, _ => d

/-- Clear a staging buffer; a fill in progress is abandoned with ABORTED (05 R140). -/
def clearStage (buf : Nat) (d : Dev) : Dev :=
  let x := d.getStage buf
  let d := match x.sub with
    | some b => complete b 3 stABORTED [] d
    | none => d
  (unstageCold x d).setStage buf {}

/-! ### Gated commands in general (08 R226, 15 R417) -/

/-- A gated command whose state lies in a slice that is not RUNNING is refused with BAD_MODE (15 R417), before the rows of its own refusal list are
tested (DESIGN CHOICE, log entry 68). -/
def inSlice (s : Nat) (b : Sub) (f : Dev → Dev) (d : Dev) : Dev := if sliceDown d s then gateDone b stBAD_MODE [] d else f d

/-- Refuse with the first condition that holds, or carry out the command (05 R143). -/
def guards (b : Sub) : List (Bool × Nat) → (Dev → Dev) → Dev → Dev
  | [], f, d => f d
  | (c, st) :: rest, f, d => if c then gateDone b st [] d else guards b rest f d

/-- The same for a command of an engine. -/
def eguards (b : Sub) (eng : Nat) : List (Bool × Nat) → (Dev → Dev) → Dev → Dev
  | [], f, d => f d
  | (c, st) :: rest, f, d => if c then complete b eng st [] d else eguards b eng rest f d

end Sys2Proof.Machine
end

