-- ==== Sys2Proof/Machine/CoreOps.lean ====
section
/-! DEFINITION. Glonik cores as the rest of the device sees them: registers, event counters, start, fault and retirement (10 R275, R303, R306; 15 R413, R418). -/

namespace Sys2Proof.Machine

/-- A general register; g0 reads 0 (10 R275). Register numbers are five-bit fields. -/
def Core.reg (k : Core) (i : Nat) : DWord := if i % 32 = 0 then 0 else Tab.get 0 k.regs (i % 32)

/-- Write a general register; a write of g0 is discarded. -/
def Core.setReg (i : Nat) (v : DWord) (k : Core) : Core := if i % 32 = 0 then k else { k with regs := Tab.set 0 k.regs (i % 32) v }

/-- STATUS.PRIV, EXL and TIE (10 Table 10-9). -/
def Core.super (k : Core) : Bool := k.status.getLsbD 0
def Core.exl (k : Core) : Bool := k.status.getLsbD 1
def Core.tie (k : Core) : Bool := k.status.getLsbD 2

/-- Counter `i` adds `n`: it stops at its highest value, which sets SAT and, with SATEV, PCSAT (10 R306, Table 10-16). -/
def Core.addCtr (i n : Nat) (k : Core) : Core :=
  let s := Tab.get 0 k.pcSel i
  let v := Tab.get 0 k.pcnt i
  if 2 ^ 48 - 1 ≤ v then k
  else if 2 ^ 48 - 1 ≤ v + n then
    { k with pcnt := Tab.set 0 k.pcnt i (2 ^ 48 - 1), pcSel := Tab.set 0 k.pcSel i (s ||| BitVec.twoPow 64 10),
             evPend := if s.getLsbD 11 then k.evPend ||| BitVec.twoPow 64 8 else k.evPend }
  else { k with pcnt := Tab.set 0 k.pcnt i (v + n) }

/-- `n` more of event `ev` for every counter that selects it, counts at the core's privilege level, and passes `p`. -/
def Core.countIf (p : DWord → Bool) (ev n : Nat) (k : Core) : Core :=
  (List.range 8).foldl (fun k i =>
    let s := Tab.get 0 k.pcSel i
    if s.getLsbD 7 && (if k.super then s.getLsbD 8 else s.getLsbD 9) && s.toNat % 64 == ev && p s then k.addCtr i n else k) k

/-- One occurrence of a counter event, in a clock whose value is 1 after one whose value was 0 (10 R306, Table 10-20). -/
def coreCount (ev : Nat) (k : Core) : Core := k.countIf (fun _ => true) ev 1

/-- An event of clocks begins: a counter in edge mode adds 1 (10 R306); level mode counts the clocks themselves. -/
def coreEdge (ev : Nat) (k : Core) : Core := k.countIf (fun s => s.getLsbD 6) ev 1

/-- STATUS takes a value; clocks at another privilege level begin when PRIV changes (events 15 and 16). -/
def Core.setStatus (v : DWord) (k : Core) : Core :=
  let k' := { k with status := v }
  if k'.super = k.super then k' else coreEdge (if k'.super then 16 else 15) k'

/-- Every core is retired or in DOUBLEFAULT (15 Table 15-4, cause 7). -/
def allCoresDown (d : Dev) : Bool := (List.range 64).all (fun c => (d.getCore c).run == .retired || (d.getCore c).run == .doubleFault)

/-- The last core has gone: a device fault (15 R421). -/
def coresCheck (d : Dev) : Dev := if allCoresDown d then deviceFault 7 d else d

/-- A core is retired (15 R413, R418). -/
def coreRetire (c how : Nat) (d : Dev) : Dev :=
  let d := { d with flt := { d.flt with coreTest := d.flt.coreTest.filter (fun x => x != c) } }
  coresCheck (retireUnit 3 c how (stopCore .retired c d))

/-- A core faults: halted, local SRAM wiped, self-test; a recurrence retires it without a test (15 R413, R418). -/
def coreFault (run : CoreRun) (c : Nat) (d : Dev) : Dev :=
  if (d.getCore c).run = .retired then d
  else
    let again := recurs 3 c 3600 d
    let d := (stopCore run c d).updCore c (fun k => { k with sram := [] })
    let d := { d with flt := { d.flt with bad := d.flt.bad.filter (fun b => !(b.1 == 6 && b.2.1 == c)),
                                          coreTest := c :: d.flt.coreTest.filter (fun x => x != c) } }
    if again then coreRetire c 0 d else coresCheck (markFault 3 c d)

/-! ### Exceptions (10 R287, R289) -/

/-- Causes of loads and stores (10 Table 10-6). -/
def cMISALIGN : Nat := 3
def cACCESS : Nat := 4
def cBUSLOAD : Nat := 5
def cBUSSTORE : Nat := 6

/-- A core takes an exception (10 R287): status and address are saved, supervisor level is entered, the vector is EVBASE + 64 x cause. -/
def Core.except (cause : Nat) (epc eval : DWord) (k : Core) : Core :=
  { (coreCount 9 k).setStatus 3 with
    estatus := k.status, epc := epc, ecause := BitVec.ofNat 64 cause, eval := eval
    pc := BitVec.ofNat 32 (k.evbase.toNat + 64 * cause) }

/-- An exception of core `c`; with EXL set the core stops on DOUBLEFAULT (10 R289, Table 10-23). -/
def takeExc (c cause : Nat) (epc eval : DWord) (d : Dev) : Dev :=
  let k := d.getCore c
  if k.exl then
    coreFault .doubleFault c (event 0x0A01 3 (be 1 c ++ be 1 k.ecause.toNat ++ be 1 cause ++ be 4 k.epc.toNat ++ [0]) d)
  else d.updCore c (Core.except cause epc eval)

/-- A core at task level stores to a register of the window that task level may not write: BUSSTORE with the register's address (16 R446). -/
def taskStore (r off : Nat) (d : Dev) : Dev :=
  let k := d.getCore (r - 1)
  if k.run ≠ .running then d else takeExc (r - 1) cBUSSTORE (k.pc.setWidth 64) (BitVec.ofNat 64 (0x40000000 + off)) d

/-! ### The self-test of a faulted core (15 R418) -/

/-- The instruction self-test of a faulted core ends (15 R418); a core that a SWAP has started meanwhile runs on. -/
def doCoreTest (c : Nat) (pass : Bool) (d : Dev) : Dev :=
  if !d.flt.coreTest.contains c then d
  else if !pass then coreRetire c 3 d
  else
    transientUnit 3 c 3 ({ d with flt := { d.flt with coreTest := d.flt.coreTest.filter (fun x => x != c) } }.updCore c
      (fun k => if coreAlive k then k else { k with run := .halted }))

/-- CORE_SELFTEST_COMPLETE. -/
def execCoreSelftestComplete (c : Nat) (pass : Bool) (s : State) : Host.Outcome State Fault Refusal := done s (doCoreTest c pass)

/-- A core starts at ENTRY (10 R305): its cells are released, registers, control registers and handles at their reset values. -/
def startCore (c entry : Nat) (d : Dev) : Dev :=
  if (d.getCore c).run = .retired then d
  else
    (releaseCoreCells c d).updCore c (fun k =>
      { run := .running, pc := BitVec.ofNat 32 entry, sram := k.sram, mbxDrop := k.mbxDrop })

end Sys2Proof.Machine
end

