-- ==== Sys2Proof/Machine/Board.lean ====
section
/-! DEFINITION. Flash access, board-sensor ports and device counters (16 R448 to R452, 17 R469, R470). -/

namespace Sys2Proof.Machine

/-! ### The serial flash (16 R450 to R452) -/

/-- The ranges of FLS programs and erases (16 R451 row 2). -/
def flsWritable (a n : Nat) : Bool := decide (a + n ≤ 0x10000) || (decide (0x100000 ≤ a) && decide (a + n ≤ 0x4800000))

/-- The image slot of an address (14 Table 14-5): (TYPE, slot). -/
def imageSlot (a : Nat) : Option (Nat × Nat) :=
  if 0x100000 ≤ a && a < 0x2100000 then some (1, 0) else if 0x2100000 ≤ a && a < 0x4100000 then some (1, 1)
  else if 0x4100000 ≤ a && a < 0x4300000 then some (2, 0) else if 0x4300000 ≤ a && a < 0x4500000 then some (2, 1)
  else if 0x4500000 ≤ a && a < 0x4600000 then some (3, 0) else if 0x4600000 ≤ a && a < 0x4700000 then some (3, 1) else none

/-- Kiln, a SWAP or a PAT_LOAD reads the slot (16 R451 row 4): a SWAP the slots it names, and, once it runs, that of the running runtime image, which
it reads again when it keeps it or falls back to it (14 R402, R403). -/
def slotReading (d : Dev) (t s : Nat) : Bool :=
  (t == 3 && d.pat.loading && d.pat.loadSlot == s)
    || (t == 1 && (d.mod.mode == .kiln || ((match d.mod.change with | some (.swap, _) => true | _ => d.mod.mode == .swap) && d.mod.swapRt == s + 1)
        || (d.mod.mode == .swap && (match d.mod.runtime with | some i => i.slot == s | none => false))))
    || (t == 2 && (d.mod.mode == .kiln || ((match d.mod.change with | some (.swap, _) => true | _ => d.mod.mode == .swap) && d.mod.swapMc == s + 1)))

/-- The first row of R451 that refuses an operation; 0 accepts it. -/
def flsRefuse (op a n : Nat) (d : Dev) : Nat :=
  if d.fls.busy then 1
  else if (op = 1 && (a ≥ d.fls.size * 2 ^ 20 || a + n > d.fls.size * 2 ^ 20)) || (op ≠ 1 && !flsWritable a (if op = 3 then 1 else Nat.max 1 n)) then 2
  else if (op = 1 && (n = 0 || n > 4096)) || (op = 2 && (n = 0 || n > 256 || a / 256 ≠ (a + n - 1) / 256)) || (op = 3 && a % 65536 ≠ 0) then 3
  else if op ≠ 1 && (match imageSlot a with | some (t, s) => slotReading d t s | none => false) then 4
  else if d.fls.size = 0 then 5
  else if d.mod.mode = .zeroised then 6 else 0

/-- An operation of the FLS block starts, or is refused (16 R450, R451). -/
def flsStart (op : Nat) (d : Dev) : Dev :=
  let a := fld d.fls.addr 27 0
  let n := fld d.fls.len 12 0
  let code := flsRefuse op a n d
  if code ≠ 0 then { d with fls := { d.fls with refused := true, code := code } }
  else { d with fls := { d.fls with busy := true, op := some (op, a, n) } }

/-- A write of FLS_CMD: OP 0 starts nothing. -/
def flsCmdWrite (v : Nat) (d : Dev) : Dev := if fld v 1 0 = 0 then d else flsStart (fld v 1 0) d

/-- The requester is a core at task level, whose store to FLS_CMD or to a guarded register of MOD raises BUSSTORE (16 R446). -/
def taskReq (r : Nat) (d : Dev) : Bool := decide (1 ≤ r) && decide (r ≤ 64) && !(d.getCore (r - 1)).status.getLsbD 0

/-- A write of FLS_CMD by `r` with a code of OP. -/
def flsRow (r op : Nat) (d : Dev) : Dev := if taskReq r d then taskStore r 0x70000 d else flsStart op d

/-- FLS_READ. -/
def execFlsRead (r : Nat) (s : State) : Host.Outcome State Fault Refusal := doneReg s (flsRow r 1)

/-- FLS_PROGRAM. -/
def execFlsProgram (r : Nat) (s : State) : Host.Outcome State Fault Refusal := doneReg s (flsRow r 2)

/-- FLS_ERASE. -/
def execFlsErase (r : Nat) (s : State) : Host.Outcome State Fault Refusal := doneReg s (flsRow r 3)

/-- FLS_OP_COMPLETE. -/
def execFlsOpComplete (ok : Bool) (s : State) : Host.Outcome State Fault Refusal := done s (doFlsDone ok)

/-! ### Board-sensor ports (17 R469, R470, Table 17-7) -/

def Dev.getI3c (d : Dev) (i : Nat) : I3c := Tab.get {} d.i3c i
def Dev.updI3c (i : Nat) (f : I3c → I3c) (d : Dev) : Dev := { d with i3c := Tab.upd {} d.i3c i f }

/-- A write of I3C[b]_CMD of one of the two ports: refused while BUSY is 1 or EN is 0 (17 R470, Table 17-7). -/
def i3cCmdWrite (i v : Nat) (d : Dev) : Dev :=
  let x := d.getI3c i
  let cmd := fld v 15 0
  if 2 ≤ i then d
  else if x.busy || !bitAt x.ctrl 0 then d.updI3c i (fun x => { x with refused := true })
  else
    let n := Nat.min 32 (fld v 13 8)
    let out := if bitAt cmd 7 then (if bitAt cmd 14 then getBytes x.data 0 1 else []) else getBytes x.data 0 (if bitAt cmd 14 then Nat.min 32 (n + 1) else n)
    emit (.i3c i cmd out) (d.updI3c i (fun x => { x with busy := true, cmd := cmd }))

/-- I3C_CMD. -/
def execI3cCmd (i v : Nat) (s : State) : Host.Outcome State Fault Refusal := doneReg s (i3cCmdWrite i v)

/-- A transfer ends: DONE, NACK and ERR as the bus gave them, read data in the buffer. -/
def doI3cDone (i : Nat) (nack err : Bool) (data : Bytes) (d : Dev) : Dev :=
  d.updI3c i (fun x =>
    if !x.busy then x
    else
      { x with busy := false, done := true, nack := x.nack || nack, err := x.err || err,
               data := if bitAt x.cmd 7 && !nack then putBytes (data.take (Nat.min 32 (fld x.cmd 13 8))) 0 x.data else x.data })

/-- I3C_TRANSFER_COMPLETE. -/
def execI3cTransferComplete (i : Nat) (nack err : Bool) (data : Bytes) (s : State) : Host.Outcome State Fault Refusal :=
  done s (doI3cDone i nack err data)

/-- An in-band interrupt that wins arbitration, while IBIEN is set and IBI is 0; EN does not matter (17 R470). -/
def doI3cIbi (i addr data : Nat) (d : Dev) : Dev :=
  d.updI3c i (fun x =>
    if !bitAt x.ctrl 3 || x.ibi then x else { x with ibi := true, ibiAddr := addr % 128, ibiData := data % 256 })

/-- I3C_IBI. -/
def execI3cIbi (i addr data : Nat) (s : State) : Host.Outcome State Fault Refusal := done s (doI3cIbi i addr data)

/-! ### Device counters (16 R448, R449) -/

/-- PRF_FREEZE. -/
def execPrfFreeze (on : Bool) (s : State) : Host.Outcome State Fault Refusal := doneReg s (fun d => { d with prfFreeze := on })

/-- Every counter and SAT to 0. -/
def prfClearAll (d : Dev) : Dev :=
  { d with prf := (List.range 16).foldl (fun t i => Tab.upd {} t i (fun c => { c with cnt := 0, sat := false })) d.prf }

/-- PRF_CLEAR. -/
def execPrfClear (s : State) : Host.Outcome State Fault Refusal := doneReg s prfClearAll

/-- CLR of PRF_SELi. -/
def prfClrOne (i : Nat) (d : Dev) : Dev := if i < 16 then { d with prf := Tab.upd {} d.prf i (fun c => { c with cnt := 0, sat := false }) } else d

/-- PRF_CLR. -/
def execPrfClr (i : Nat) (s : State) : Host.Outcome State Fault Refusal := doneReg s (prfClrOne i)

end Sys2Proof.Machine
end

