-- ==== Sys2Proof/Machine/MemRows.lean ====
section
/-! DEFINITION. DDR5 training and scrubbing, the cold database's lock, the protected region, its doubtful subtrees and re-provisioning (chapter 11). -/

namespace Sys2Proof.Machine

/-! ### DDR5 (11 R322, R323) -/

/-- DDR5 training ends: `rate` is the code of MEM_STATUS.RATE, `ok` false when a channel fails at 5600 MT/s or the DIMMs differ. -/
def doTrain (rate dimmGib failMap : Nat) (ok : Bool) (d : Dev) : Dev :=
  if d.mem.trained || d.mem.fail then d
  else if !ok || 3 ≤ rate then
    event 0x0B08 3 (be 1 3 ++ be 1 failMap) { d with mem := { d.mem with fail := true } }
  else
    let d := { d with mem := { d.mem with trained := true, rate := rate, dimmGib := dimmGib % 256 } }
    if rate = 0 then d else event 0x0B08 2 (be 1 rate ++ be 1 failMap) d

/-- DDR5_TRAIN_COMPLETE. -/
def execDdr5TrainComplete (rate dimmGib failMap : Nat) (ok : Bool) (s : State) : Host.Outcome State Fault Refusal :=
  done s (doTrain rate dimmGib failMap ok)

/-! ### The scrubber (11 R323, R331) -/

/-- The scrubber reads the 64-byte burst at a Glonik address: the layout of the metadata is open, so an error there is of a free
node (11 R323, R331; log entry 21). -/
def doScrub (addr : Nat) (corrected uncorr : Bool) (d : Dev) : Dev :=
  let off := offFrom ddrBase addr
  let ch := addr / 256 % 4
  let inTree := decide (off < metaEnd d)
  let skip := decide (off < protSize d) && d.mem.ready && sectorDoubt d (off / 512)
  if addr < ddrBase || ddrInstalled d ≤ off || skip then d
  else
    let d := when_ corrected (Dev.updMem (fun m => { m with ceCnt := bump m.ceCnt ch 1 })) d
    if !uncorr then d
    else
      let d := d.updMem (fun m => { m with ueCnt := bump m.ueCnt ch 1 })
      if !(inTree && d.mem.lock) then
        event 0x0B04 2 (be 1 ch ++ be 6 addr) (when_ (!inTree) (markBad 100 0 off) d)
      else if !d.mem.ready then d
      else if off < protSize d then doubtDeclare 0 (off / 512) 1 d
      else
        let r := freeNat d
        let i := freeNat r.2
        let level := r.1 % (topLevel d + 1)
        doubtDeclare level (i.1 % ((protSize d / 512 + 8 ^ level - 1) / 8 ^ level)) 1 i.2

/-- PATROL_SCRUB. -/
def execPatrolScrub (addr : Nat) (corrected uncorr : Bool) (s : State) : Host.Outcome State Fault Refusal :=
  done s (doScrub addr corrected uncorr)

/-! ### The cold database (05 R157, Table 05-13) and MEC_CFG (11 R325) -/

/-- A write of SAS_COLDCFG: SIZE while LOCK is 0, kept as written (00 R6), then LOCK, refused with HIF_ERR_STATUS.UNGATED while READY is 0
or beyond the protected region (11 R325). -/
def coldCfgWrite (v : Nat) (d : Dev) : Dev :=
  if d.sas.coldLock then d
  else
    let d := { d with sas := { d.sas with coldSize := fld v 10 0 } }
    let fits := decide (d.sas.coldBase + 256 * coldCount d ≤ protSize d)
    let d := { d with sas := { d.sas with coldLock := bitAt v 31 && d.mem.ready && fits } }
    if bitAt v 31 && !(d.mem.ready && fits) then hostErr 0 d else d

/-- SAS_COLD_LOCK. -/
def execSasColdLock (v : Nat) (s : State) : Host.Outcome State Fault Refusal := doneReg s (coldCfgWrite v)

/-- A write of MEC_CFG: PSIZE while LOCK is 0, then LOCK. -/
def mecCfgWrite (v : Nat) (d : Dev) : Dev :=
  if d.mem.lock then d
  else
    let p := fld v 6 0
    let d := { d with mem := { d.mem with psize := if 1 ≤ p && p ≤ 64 then p else d.mem.psize } }
    if !bitAt v 31 then d
    else if metaEnd d > ddrInstalled d || !d.mem.trained then { d with mem := { d.mem with cfgErr := true } }
    else { d with mem := { d.mem with lock := true } }

/-- MEC_CFG_LOCK. -/
def execMecCfgLock (v : Nat) (s : State) : Host.Outcome State Fault Refusal := doneReg s (mecCfgWrite v)

/-- Initialisation ends: every sector zero under counter 1, every node and MAC written, READY (11 R325); its node writes join G as a free
number (log entry 13). -/
def doMecInit (d : Dev) : Dev :=
  if !d.mem.lock || d.mem.ready || !d.keys.kwrValid then d
  else
    let r := freeNat d
    prfCount 16 none (protSize d / 512)
      { r.2 with mem := { r.2.mem with ready := true, ddr := r.2.mem.ddr.filter (fun e => decide (protSize d ≤ e.1)),
                                       writes := sat64 (r.2.mem.writes + protSize d / 512 + r.1),
                                       provs := [], rises := [], root := [], cache := [], alien := [] }
                 flt := { r.2.flt with bad := r.2.flt.bad.filter (fun b => !(b.1 == 101 || (b.1 == 100 && decide (b.2.2 < metaEnd d)))) } }

/-- MEC_INIT_COMPLETE. -/
def execMecInitComplete (s : State) : Host.Outcome State Fault Refusal := done s doMecInit

/-! ### Re-provisioning (11 R334) -/

/-- A cold entry lies in the range. -/
def coldInRange (level index i : Nat) (d : Dev) : Bool := level == 15 || inSubtree level index (coldSector i d)

/-- R334's reasons to refuse; a node that does not exist and a second request are refused too (log entry 22). -/
def reprovRefuse (level index : Nat) (d : Dev) : Bool :=
  d.mem.reprovBusy || (level != 15 && !nodeExists level index d)
    || (level != 15 && d.mem.rootDoubt)
    || d.mem.doubts.any (fun x => level != 15 && decide (level < x.level) && index / 8 ^ (x.level - level) == x.index)
    || d.tab.sa.any (fun e => e.2.pinned && !(d.getLive e.1).limHit && (match e.2.coldIdx with | some i => coldInRange level index i d | none => false))
    || d.sas.stage.any (fun e => e.2.state != 0 && e.2.src == 1 && (match e.2.image.coldIdx with | some i => coldInRange level index i d | none => false))

/-- A write of MEC_REPROV. -/
def reprovWrite (v : Nat) (d : Dev) : Dev :=
  let level := fld v 30 27
  let index := fld v 26 0
  if !bitAt v 31 then d
  else if reprovRefuse level index d then { d with mem := { d.mem with reprovRefused := true } }
  else { d with mem := { d.mem with reprov := some (level, index), reprovBusy := true } }

/-- MEC_REPROV. -/
def execMecReprov (v : Nat) (s : State) : Host.Outcome State Fault Refusal := doneReg s (reprovWrite v)

/-- The level and index of a sector's or node's identity (11 R327). -/
def macPlace (id : Nat) : Nat × Nat := if id < 2 ^ 63 then (0, id) else (id / 2 ^ 56 % 128, id % 2 ^ 56)

/-- What the tree and its cache keep of a re-provisioned range: every counter of the range, and the range's own in its parent, is `g`,
and every sector, node and MAC is written afresh (11 R334). The parent changes by `touchNode`. -/
def reprovTree (level index g : Nat) (m : Mem) : Mem :=
  let out := fun (l i : Nat) => !inside level index ⟨l, i, 0⟩
  let place := fun (id : Nat) => out (macPlace id).1 (macPlace id).2
  { m with provs := ⟨level, index, g⟩ :: m.provs.filter (fun p => out p.level p.index), rises := m.rises.filter (fun e => place e.1),
           alien := m.alien.filter (fun e => place e.1), cache := m.cache.filter (fun c => out c.level c.index) }

/-- The errors of a re-provisioned range are gone. -/
def reprovBad (level index : Nat) (d : Dev) : Dev :=
  { d with flt := { d.flt with bad := d.flt.bad.filter (fun b =>
      !((b.1 == 101 && inside level index ⟨b.2.1, b.2.2, 0⟩)
        || (b.1 == 100 && decide (b.2.2 < protSize d) && inside level index ⟨0, b.2.2 / 512, 0⟩))) } }

/-- Re-provisioning ends: zeros under counter G + 1, empty cold entries, the doubt entries of the range gone, event 0x0B07. -/
def doReprovDone (d : Dev) : Dev :=
  match d.mem.reprov with
  | none => d
  | some (level, index) =>
    let span := if level = 15 then protSize d / 512 else 8 ^ level
    let first := if level = 15 then 0 else index * span
    let r := freeNat d
    let d := r.2
    let gone := fun (e : Nat × Byte) => decide (e.1 < protSize d) && decide (first ≤ e.1 / 512) && decide (e.1 / 512 < first + span)
    prfCount 16 none (Nat.min span (protSize d / 512 - first)) <| event 0x0B07 1 (be 1 level ++ be 4 index)
      (when_ (level != 15) (touchNode (level + 1) (index / 8)) (((reprovBad level index d).updSas (fun x => { x with cold := x.cold.filter (fun e => !coldInRange level index e.1 d) })).updMem
        (fun m => { reprovTree level index (m.writes + 1) m with
        ddr := m.ddr.filter (fun e => !gone e),
        doubts := m.doubts.filter (fun x => !inside level index x),
        rootDoubt := m.rootDoubt && level != 15,
        writes := sat64 (m.writes + Nat.min span (protSize d / 512 - first) + r.1),
        reprov := none, reprovBusy := false, reprovDone := true })))

/-- REPROV_COMPLETE. -/
def execReprovComplete (s : State) : Host.Outcome State Fault Refusal := done s doReprovDone

/-! ### Zero-fill of unprotected DDR5 (11 R337, Table 11-13) -/

/-- A write of MEM_CLEAR: DONE by writing 1, GO refused while READY is 0 or a clear runs. -/
def memClearWrite (v : Nat) (d : Dev) : Dev :=
  let d := if bitAt v 2 then { d with mem := { d.mem with clearDone := false } } else d
  if bitAt v 0 && d.mem.ready && !d.mem.clearBusy then { d with mem := { d.mem with clearBusy := true } } else d

/-- MEM_CLEAR. -/
def execMemClear (v : Nat) (s : State) : Host.Outcome State Fault Refusal := doneReg s (memClearWrite v)

/-- The zero-fill ends. -/
def doMemClearDone (d : Dev) : Dev :=
  if !d.mem.clearBusy then d
  else { d with mem := { d.mem with clearBusy := false, clearDone := true, ddr := d.mem.ddr.filter (fun e => decide (e.1 < metaEnd d)) }
                flt := { d.flt with bad := d.flt.bad.filter (fun b => !(b.1 == 100 && decide (metaEnd d ≤ b.2.2))) } }

/-- MEM_CLEAR_COMPLETE. -/
def execMemClearComplete (s : State) : Host.Outcome State Fault Refusal := done s doMemClearDone

end Sys2Proof.Machine
end

