-- ==== Sys2Proof/Machine/FaultRows.lean ====
section
/-! DEFINITION. Pipeline, engine, SRAM and thermal faults, tamper and power failure (chapter 15, 17 R456 and R464). -/

namespace Sys2Proof.Machine

/-! ### Pipelines (15 R413 to R416) -/

/-- Unit number of a pipeline (15 Table 15-2), and its place in SLC[s]_PIPE. -/
def pipeUnit (s dir pipe : Nat) : Nat := 10 * s + 5 * dir + pipe
def pipeIdx (dir pipe : Nat) : Nat := 5 * dir + pipe

/-- Role of a pipeline: 0 traffic, 1 spare, 2 under test, 3 retired (15 Table 15-14). -/
def pipeRole (s dir pipe : Nat) (d : Dev) : Nat := Tab.get 0 (d.getSlice s).pipe (pipeIdx dir pipe)

/-- The spare of a slice-direction. -/
def spareOf (s dir : Nat) (d : Dev) : Option Nat := (List.range 5).find? (fun p => pipeRole s dir p d == 1)

/-- Give a pipeline a role; NOSPARETX and NOSPARERX follow. -/
def setRole (s dir pipe role : Nat) (d : Dev) : Dev :=
  d.updSlice s (fun x =>
    let t := Tab.set 0 x.pipe (pipeIdx dir pipe) role
    let none_ := (List.range 5).all (fun p => Tab.get 0 t (pipeIdx dir p) != 1)
    if dir = 0 then { x with pipe := t, noSpareTx := none_ } else { x with pipe := t, noSpareRx := none_ })

/-- The places of the slice's frames in the cipher ports' transmit stage, or in their receive hold; 64 + p stands for the client frames that
Slot-mode port p holds. -/
def stageFrames (s dir : Nat) (d : Dev) : List (Nat × Nat) :=
  let mine := fun (n : Nat) (l : List Nat) => (l.zipIdx.filter (fun x => x.1 == s)).map (fun x => (n, x.2))
  (d.port.map (fun (e : Nat × Port) =>
    mine e.1 (if dir = 0 then e.2.egress.map (fun f => chSlice f.chid) else e.2.hold.map (fun f => chSlice f.chid)))).flatten
  ++ (if dir = 0 then [] else (d.slt.port.map (fun (e : Nat × SltPort) => mine (64 + e.1) (e.2.rx.held.map (fun h => chSlice h.chid)))).flatten)

/-- The frame fails: on transmit it will be error-terminated, on receive its tag fails (15 R415, 11 Table 11-2, 03 R96). -/
def spoil (dir n i : Nat) (d : Dev) : Dev :=
  if 64 ≤ n then
    d.updSlt (n - 64) (fun p => { p with rx := { p.rx with held := p.rx.held.mapIdx (fun j h => if j = i then { h with tag := [] } else h) } })
  else d.updPort n (fun p => if dir = 0 then { p with egress := p.egress.mapIdx (fun j f => if j = i then { f with err := true } else f) }
                        else { p with hold := p.hold.mapIdx (fun j f => if j = i then { f with tagOk := false } else f) })

/-- The frame that carries the faulty block: which of the frames in the stage is a free choice (log entry 23). -/
def spoilOne (s dir : Nat) (d : Dev) : Dev :=
  let l := stageFrames s dir d
  if l.isEmpty then d
  else
    let r := freeNat d
    let f := nth (0, 0) l (r.1 % l.length)
    spoil dir f.1 f.2 r.2

/-- Retire a pipeline (15 R413). -/
def retirePipe (s dir pipe how : Nat) (d : Dev) : Dev := retireUnit 1 (pipeUnit s dir pipe) how (setRole s dir pipe 3 d)

/-- A faulted pipeline that carries no frames any more: retired when its fault recurs, else under its known-answer pass. -/
def pipeOut (s dir pipe how : Nat) (d : Dev) : Dev :=
  let u := pipeUnit s dir pipe
  if recurs 1 u 86400 d then retirePipe s dir pipe how d
  else
    let d := setRole s dir pipe 2 (markFault 1 u d)
    { d with flt := { d.flt with underTest := (u, how) :: d.flt.underTest } }

/-- A pipeline runs and belongs to a slice that carries traffic. -/
def pipeLive (s dir pipe : Nat) (d : Dev) : Bool :=
  decide (s < 8) && decide (dir < 2) && decide (pipe < 5) && d.mod.mode != .reset && !sliceDown d s

/-- A parity or mirror mismatch in a pipeline (15 R415, R416). A mirror mismatch is charged to a traffic pipeline. With no spare the slice faults,
and the pipeline, which takes no known-answer pass, still keeps its fault's time or, on a recurrence, is retired (R413). -/
def doPipeFault (s dir pipe : Nat) (mirror : Bool) (d : Dev) : Dev :=
  let how := if mirror then 2 else 1
  let role := pipeRole s dir pipe d
  let spare := spareOf s dir d
  if !pipeLive s dir pipe d || 2 ≤ role || (mirror && (role = 1 || spare.isNone)) then d
  else
    let d := prfCount 17 (some s) 1 d
    let d := if mirror then d.updSlice s (fun x => { x with fltMirror := Nat.min 255 (x.fltMirror + 1) }) else d
    if role = 1 then pipeOut s dir pipe how d
    else
      let d := spoilOne s dir d
      match spare with
      | none =>
        let u := pipeUnit s dir pipe
        sliceFault s 1 (if recurs 1 u 86400 d then retirePipe s dir pipe how d else markFault 1 u d)
      | some p => pipeOut s dir pipe how (setRole s dir p 0 d)

/-- PIPE_PARITY_FAULT. -/
def execPipeParityFault (s dir pipe : Nat) (mirror : Bool) (st : State) : Host.Outcome State Fault Refusal :=
  done st (doPipeFault s dir pipe mirror)

/-- The spare fails its known-answer test (15 R415). -/
def doSpareKatFail (s dir : Nat) (d : Dev) : Dev :=
  match spareOf s dir d with
  | some p => if pipeLive s dir p d then pipeOut s dir p 3 (prfCount 17 (some s) 1 d) else d
  | none => d

/-- SPARE_KAT_FAIL. -/
def execSpareKatFail (s dir : Nat) (st : State) : Host.Outcome State Fault Refusal := done st (doSpareKatFail s dir)

/-- The spare role moves to the next pipeline; it stops while a pipeline is retired or under test (15 R414, R416). -/
def doSpareRotate (s dir : Nat) (d : Dev) : Dev :=
  match spareOf s dir d with
  | none => d
  | some p =>
    if !pipeLive s dir p d || (List.range 5).any (fun q => 2 ≤ pipeRole s dir q d) then d
    else setRole s dir p 0 (setRole s dir ((p + 1) % 5) 1 d)

/-- SPARE_ROTATE. -/
def execSpareRotate (s dir : Nat) (st : State) : Host.Outcome State Fault Refusal := done st (doSpareRotate s dir)

/-- A faulted pipeline's known-answer pass ends (15 R415). -/
def doPipeKat (s dir pipe : Nat) (pass : Bool) (d : Dev) : Dev :=
  let u := pipeUnit s dir pipe
  if !pipeLive s dir pipe d || pipeRole s dir pipe d ≠ 2 then d
  else
    let how := match d.flt.underTest.find? (fun e => e.1 == u) with | some e => e.2 | none => 3
    let d := { d with flt := { d.flt with underTest := d.flt.underTest.filter (fun e => e.1 != u) } }
    if pass then
      transientUnit 1 u how ((setRole s dir pipe 1 d).updSlice s (fun x => { x with fltTransient := Nat.min 255 (x.fltTransient + 1) }))
    else retirePipe s dir pipe how d

/-- PIPE_KAT_COMPLETE. -/
def execPipeKatComplete (s dir pipe : Nat) (pass : Bool) (st : State) : Host.Outcome State Fault Refusal :=
  done st (doPipeKat s dir pipe pass)

/-! ### Engines (15 Table 15-4, cause 4) -/

/-- The known-answer tests of the service cipher and the lattice engine end. -/
def doEngineKat (scePass latPass : Bool) (d : Dev) : Dev :=
  let d := if scePass then d else retireUnit 8 0 3 d
  let d := if latPass then d else retireUnit 9 0 3 d
  if scePass && latPass then d else deviceFault 4 d

/-- ENGINE_KAT. -/
def execEngineKat (scePass latPass : Bool) (s : State) : Host.Outcome State Fault Refusal := done s (doEngineKat scePass latPass)

/-! ### On-chip SRAM (11 R311, Table 11-2; 15 R419) -/

/-- The slice of a word of the slice's regions: `unit` is the slice, 8 x slot + counter, or the station entry. -/
def sramSlice (region unit : Nat) : Option Nat :=
  if region = 1 || region = 3 || region = 5 then some (unit % 8)
  else if region = 2 then some (slotSlice (unit / 8)) else if region = 4 then some (unit / 65536 % 8) else none

/-- No repair row is left: the row's unit is retired (15 R419, R417 cause 5). -/
def rowExhausted (region unit : Nat) (d : Dev) : Dev :=
  match sramSlice region unit with
  | some s => retireUnit 2 s 0 ((sliceFault s 5 d).updSlice s (fun x => { x with state := 3 }))
  | none => if region = 6 then coreRetire unit 0 d else deviceFault 3 d

/-- Replace a row by a repair row (15 R419). -/
def rowRepair (region row unit : Nat) (d : Dev) : Dev :=
  let d := { d with flt := { d.flt with rowCe := d.flt.rowCe.filter (fun e => e.1 != row) } }
  if d.flt.repairUsed < 1024 then retireUnit 7 row 0 { d with flt := { d.flt with repairUsed := d.flt.repairUsed + 1 } }
  else rowExhausted region unit d

/-- A corrected error counts in event 14 of the core whose SRAM it is, or, in the shared firmware memory, of every core (10 R290; log entry 61). -/
def countCorrected (region unit : Nat) (d : Dev) : Dev :=
  if region = 6 then d.updCore unit (coreCount 14)
  else if region = 7 then { d with core := (List.range 64).foldl (fun t c => Tab.upd {} t c (fun k => if coreAlive k then coreCount 14 k else k)) d.core }
  else d

/-- A corrected error of a row: more than 16 within any 3,600 s replace it. -/
def rowCorrected (region row unit : Nat) (d : Dev) : Dev :=
  let d := { d with mem := { d.mem with sramCe := sat64 (d.mem.sramCe + 1) } }
  let d := countCorrected region unit d
  let l := (row, d.evr.optime) :: d.flt.rowCe.filter (fun e => e.1 != row || decide (d.evr.optime ≤ e.2 + 3600000))
  let d := { d with flt := { d.flt with rowCe := l } }
  if (l.filter (fun e => e.1 == row)).length > 16 then rowRepair region row unit d else d

/-- The event of an uncorrectable SRAM error. -/
def sramEvent (sev region addr : Nat) (d : Dev) : Dev := event 0x0B0A sev (be 1 region ++ be 4 addr) d

/-- A cell has an uncorrectable error: whoever holds it meets it when it reads the cell (`badCells`); a free cell is wiped before it is
granted again, so nothing meets it there (11 R311, R312). -/
def cellError (cell addr : Nat) (d : Dev) : Dev :=
  match Tab.get none d.bpm.cells cell with
  | some _ => markBad 0 cell addr d
  | none => d

/-- An SA counter with an uncorrectable error reads all ones; a reserved index of Table 02-14 goes on reading 0 (02 R65). -/
def lostCounter (slot i : Nat) (d : Dev) : Dev :=
  if i < (if (d.tab.getSa slot).dir = 1 then 7 else 6) then d.updLive slot (fun l => { l with ctr := Tab.set 0 l.ctr i (2 ^ 64 - 1) }) else d

/-- The consequence of an uncorrectable error in region `region` of Table 11-1, at word `addr` of `unit`. -/
def sramUncorr (region addr unit : Nat) (d : Dev) : Dev :=
  match region with
  | 0 => cellError unit addr d
  | 1 => sliceFault (unit % 8) 3 d
  | 2 => sramEvent 2 region addr (lostCounter (unit / 8 % 131072) (unit % 8) d)
  | 3 => sliceFault (unit % 8) 3 d
  | 4 => (stnCount (unit / 65536 % 8) 5 1 d).updViews (fun t => { t with stn := Tab.set none t.stn (unit % 524288) none })
  | 5 => sliceFault (unit % 8) 3 d
  | 6 => markBad 6 (unit % 64) addr d
  | 7 => markBad 7 0 addr d
  | 8 =>
    match Tab.get none d.evr.ring unit with
    | some r => { d with evr := { d.evr with ring := Tab.set none d.evr.ring unit none, arcLost := sat64 (d.evr.arcLost + 1),
                                             waiting := d.evr.waiting.filter (fun w => w.seq != r.seq) } }
    | none => d
  | 9 => d.updCore (unit / 512 % 64) (fun k =>
      if unit % 512 < k.samples.length then { k with samples := k.samples.eraseIdx (unit % 512), smpLost := Nat.min 65535 (k.smpLost + 1) } else k)
  | 10 => if d.mem.ready then doubtDeclare (unit / 2 ^ 27 % 16) (unit % 2 ^ 27) 3 d else d
  | 11 =>
    if unit < 64 then sramEvent 3 region addr ((errorEndPort unit d).updPort unit (fun p => { p with fallowSram := true }))
    else sramEvent 2 region addr (coreFault .halted (unit % 64) d)
  | 12 => deviceFault 2 (sramEvent 3 region addr (fallowAll { d with flt := { d.flt with poolFallow := true } }))
  | _ => d

/-- The patrol reader reads a word of a row: what it finds is the command's. -/
def doSramPatrol (region row addr unit : Nat) (uncorr : Bool) (d : Dev) : Dev :=
  if 13 ≤ region then d
  else if !uncorr then rowCorrected region row unit d
  else
    let again := recurs 7 row 3600 d
    let d := sramUncorr region addr unit (markFault 7 row d)
    if again then rowRepair region row unit d else d

/-- SRAM_PATROL. -/
def execSramPatrol (region row addr unit : Nat) (uncorr : Bool) (s : State) : Host.Outcome State Fault Refusal :=
  done s (doSramPatrol region row addr unit uncorr)

/-! ### Temperature (15 R421, 17 R464) -/

/-- The hottest sensor's value, in 0.125 degrees (15 Table 15-16). -/
def setTj (tj : Nat) (d : Dev) : Dev := { d with pins := { d.pins with tj := tj % 65536 } }

/-- The junction reaches 110 degrees, or falls below 105. -/
def doTempHot (tj : Nat) (d : Dev) : Dev :=
  let d := setTj tj d
  let t := signed 16 tj
  if 880 ≤ t && !d.pins.hot then event 0x0F16 2 (be 2 tj) { d with pins := { d.pins with hot := true } }
  else if t < 840 then { d with pins := { d.pins with hot := false } }
  else d

/-- TEMP_HOT. -/
def execTempHot (tj : Nat) (s : State) : Host.Outcome State Fault Refusal := done s (doTempHot tj)

/-- The junction stays at or above 120 degrees for 1 ms. -/
def doTempFault (tj : Nat) (d : Dev) : Dev :=
  let d := setTj tj d
  if signed 16 tj < 960 then d else deviceFault 5 { d with pins := { d.pins with thermTrip := true } }

/-- TEMP_FAULT. -/
def execTempFault (tj : Nat) (s : State) : Host.Outcome State Fault Refusal := done s (doTempFault tj)

/-! ### Tamper and power failure (15 R426, R427, R433; 17 R456) -/

/-- The Holpen link keys and salts are overwritten: a port without them goes back to its bring-up (15 Table 15-8 step 5, 09 R266). -/
def overwriteLinks (d : Dev) : Dev :=
  each (List.range 8) (fun j d => d.updHp j (fun h => if h.state = 5 then h else
    { h with state := 0, txKey := [], rxKey := [], txSalt := [], rxSalt := [], txq := [], sent := [] })) d

/-- TAMPER_N asserted (15 Table 15-8, 14 R409): mesh-wide when ZPROP is 1. -/
def doTamper (d : Dev) : Dev :=
  let d := { d with pins := { d.pins with tamper := true } }
  let d := overwriteLinks (if bitAt d.twn.cfg 3 then zeroiseOut 1 d else d)
  zeroiseNow 6 1 1 d

/-- TAMPER_ASSERT: it runs beside a power-fail sequence too. -/
def execTamperAssert (s : State) : Host.Outcome State Fault Refusal := doneAlways s doTamper

/-- The waiting records in the order of a power-fail flush: descending severity, then the order in which they were formed. -/
def flushOrder (l : List EvRec) : List EvRec := [3, 2, 1, 0].flatMap (fun v => l.filter (fun r => r.sev == v))

/-- The power-fail marker after `n` waiting records that were not written (15 R433). -/
def powerMarker (n : Nat) (e : Evr) : EvRec :=
  e.stamp ⟨0, 0, 4, 0, 0x0F05, 0, 0, 0, 0, be 4 ((e.nextSeq + 1) % 2 ^ 32) ++ be 4 n⟩

/-- The power-fail flush: at most 128 records, then the marker (15 R433). VREC may leave its tolerance while it runs: how many of the records are
written by then is a free number (log entry 80), the rest are lost, and without the marker the next start finds an unclean stop (17 R459); THERMTRIP_N is held no longer then (R464). -/
def powerFlush (d : Dev) : Dev :=
  if d.evr.ramOnly || !d.evr.flashOk then d
  else
    let held := freeNat d
    let d := held.2
    let l := flushOrder d.evr.waiting
    let total := archiveTotal d.fls.size
    let e := ((l.take 128).take held.1).foldl (fun e r => archiveOne total r e) { d.evr with waiting := [] }
    if held.1 ≤ (l.take 128).length then
      { d with evr := { e with waiting := [], cleanStop := false }, pins := { d.pins with thermTrip := false } }
    else
      let e := archiveOne total (powerMarker (l.length - 128) e) { e with nextSeq := (e.nextSeq + 1) % 2 ^ 32, waiting := [] }
      { d with evr := { e with cleanStop := !e.ramOnly } }

/-- Every core that is alive halts. -/
def haltCores (d : Dev) : Dev :=
  { d with core := d.core.map (fun (e : Nat × Core) => (e.1, { e.2 with run := if coreAlive e.2 then .halted else e.2.run })) }

/-- A byte of a sector whose erase was abandoned: any of its cleared bits may have been set (16 R452; the stored form is the complement). -/
def halfErased (fresh sector : Nat) (e : Nat × Byte) : Option (Nat × Byte) :=
  if e.1 / 65536 ≠ sector then some e
  else
    let b := e.2 &&& Config.freeByte (fresh + e.1 % 65536)
    if b = 0 then none else some (e.1, b)

/-- A flash operation that has started when the power fails: a read or a program completes before the recorder's flush; the flush suspends an erase,
which the power failure abandons, and its sector is left partly erased (16 R452). -/
def settleFlash (d : Dev) : Dev :=
  match d.fls.op with
  | some (3, a, _) => { d with fresh := d.fresh + 65536,
                               fls := { d.fls with suspended := true, flash := d.fls.flash.filterMap (halfErased d.fresh (a / 65536)) } }
  | _ => doFlsDone true d

/-- The chip stops, and a flash operation under way with it. -/
def darken (d : Dev) : Dev :=
  let d := settleFlash d
  { d with pins := { d.pins with stopped := true }, fls := { d.fls with busy := false, op := none } }

/-- The device stops (15 Table 15-9); the record of the failure joins the flush. -/
def powerStop (d : Dev) : Dev :=
  let r : EvRec := ⟨0, 3, 6, 0, 0x0F15, 0, 0, 0, 0, fit 8 (be 2 d.pins.tj)⟩
  let d := if d.evr.ready then { d with evr := placeRec r false d.evr } else d
  let d := fallowAll d
  powerFlush (darken (haltCores d))

/-- PWRFAIL_ASSERT. -/
def execPwrfailAssert (s : State) : Host.Outcome State Fault Refusal :=
  done s (fun d => powerStop { d with pins := { d.pins with pwrFail := true } })

/-- RAIL_UNDERVOLTAGE: the rails of 17 Table 17-1 but VREC. -/
def execRailUndervoltage (rail : Nat) (s : State) : Host.Outcome State Fault Refusal :=
  done s (fun d =>
    if 7 ≤ rail then d
    else powerStop (if d.evr.ready then
      { d with evr := placeRec ⟨0, 3, 6, 0, 0x1103, 0, 0, 0, 0, fit 8 (be 1 rail)⟩ false d.evr } else d))

end Sys2Proof.Machine
end

