-- ==== Sys2Proof/Machine/Sas.lean ====
section
/-! DEFINITION. SA slots, windows, channels, seams, limits, cold entries, SCI maps and slice restart: the commands of chapter 05 and their events. -/

namespace Sys2Proof.Machine

/-! ### Staging (05 R140 to R142, R151) -/

/-- The limits that a transmit SA is staged with: a 0 takes the default of Table 05-6. -/
def stagedLimits (dir suite soft hard : Nat) : Nat × Nat :=
  if dir = 0 then (if soft = 0 then defSoft suite else soft, if hard = 0 then defHard suite else hard) else (soft, hard)

/-- The limits of a staged SA are refused (05 R151). -/
def badStagedLimits (dir suite next soft hard : Nat) : Bool :=
  if dir = 0 then decide (soft > hard) || decide (hard > spentPn suite) || decide (next ≥ hard) else soft != 0 || hard != 0

/-- SA_STAGE: the ticket is consumed and the buffer fills (05 R140, R142). -/
def doSaStage (b : Sub) (buf ticket : Nat) (image : Bytes) (d : Dev) : Dev :=
  let dir := fld (byteAt image 0) 0 0
  let suite := fld (byteAt image 0) 5 4
  let next := leAt image 24 8
  let lim := stagedLimits dir suite (leAt image 32 8) (leAt image 40 8)
  let found := d.keys.tickets.find? (fun t => t.handle == ticket)
  let key := match found with | some t => t.key | none => []
  eguards b 3
    [((d.getStage buf).state != 0, stBUSY),
     (found.isNone, stNO_TICKET),
     (dir == 0 && !(found.map (fun t => t.fresh)).getD false, stNOT_FRESH),
     (key.length != suiteKeyLen suite, stBAD_SUITE),
     (badStagedLimits dir suite next lim.1 lim.2, stBAD_LIMIT)]
    (fun d =>
      let d := { d with keys := { d.keys with tickets := d.keys.tickets.filter (fun t => t.handle != ticket) } }
      d.setStage buf
        { state := 1, src := 0, sub := some b,
          image := { state := .basting, dir := dir, suite := suite, ssci := leAt image 4 4, salt := leAt image 8 12, key := key },
          live := { nextPn := next, softPn := lim.1, hardPn := lim.2 } }) d

/-- SA_STAGE. -/
def execSaStage (b : Sub) (buf ticket : Nat) (image : Bytes) (s : State) : Host.Outcome State Fault Refusal :=
  done s (doSaStage b buf ticket image)

/-- SA_STAGEPIN: a PARKED entry becomes STAGED and the buffer fills from it (05 R140, R158). DESIGN CHOICE: an entry already in FAULT
answers COLD_FAULT (05 Table 05-4 gives it no status; log entry 44). -/
def doSaStagepin (b : Sub) (buf cold : Nat) (d : Dev) : Dev :=
  let e := d.getCold cold
  eguards b 3
    [((d.getStage buf).state != 0, stBUSY),
     (!coldHas cold d || (e.state != 1 && e.state != 4), stNO_ENTRY),
     (e.state == 4, stCOLD_FAULT)]
    (fun d =>
      let r := coldWrite cold (fun e => { e with state := 2, stage := buf }) d
      if !r.1 then complete b 3 stCOLD_FAULT [] r.2
      else
        r.2.setStage buf
          { state := 1, src := 1, sub := some b,
            image := { state := .basting, dir := e.dir, suite := e.suite, ssci := e.ssci, salt := e.salt, key := e.key, coldIdx := some cold },
            live := { nextPn := e.nextPn, softPn := e.softPn, hardPn := e.hardPn, ctr := e.ctr } }) d

/-- SA_STAGEPIN. -/
def execSaStagepin (b : Sub) (buf cold : Nat) (s : State) : Host.Outcome State Fault Refusal := done s (doSaStagepin b buf cold)

/-- A buffer's fill ends: READY, or EMPTY with a key-bus or DDR5 fault (05 R140, R159). A fault of a fill from a cold entry is an
uncorrectable error in the entry's sector, which the MEC counts and declares (11 R323, R331). -/
def doStageFill (buf : Nat) (fault : Bool) (d : Dev) : Dev :=
  let x := d.getStage buf
  match x.state, x.sub with
  | 1, some b =>
    match x.src, x.image.coldIdx with
    | 1, some i =>
      let o := coldOpen i d
      let r := if o.1 && fault then (false, fetchFailed (0, coldSector i d, 1) (markBad 100 0 (512 * coldSector i d) o.2)) else o
      if !r.1 then complete b 3 stCOLD_FAULT [] ((coldFail i r.2).setStage buf {})
      else complete b 3 stOK [] (r.2.setStage buf { x with state := 2, sub := none })
    | _, _ =>
      if fault then complete b 3 stKEY_FAULT [] (d.setStage buf {})
      else complete b 3 stOK [] (d.setStage buf { x with state := 2, sub := none })
  | _, _ => d

/-- STAGE_FILL_COMPLETE. -/
def execStageFillComplete (buf : Nat) (fault : Bool) (s : State) : Host.Outcome State Fault Refusal := done s (doStageFill buf fault)

/-- SA_UNSTAGE: the buffer is EMPTY, a fill in progress ABORTED first (05 R140). -/
def doSaUnstage (b : Sub) (buf : Nat) (d : Dev) : Dev := complete b 3 stOK [] (clearStage buf d)

/-- SA_UNSTAGE. -/
def execSaUnstage (b : Sub) (buf : Nat) (s : State) : Host.Outcome State Fault Refusal := done s (doSaUnstage b buf)

/-- COLD_ERASE (05 Table 05-4). DESIGN CHOICE: an index that the database does not hold answers NO_ENTRY, and an EMPTY entry answers
OK and changes nothing (log entry 44). In a doubtful subtree the access fails as R332 gives it. -/
def doColdErase (b : Sub) (cold : Nat) (d : Dev) : Dev :=
  let st := (d.getCold cold).state
  eguards b 3 [(!coldHas cold d, stNO_ENTRY), (st == 2 || st == 3, stIN_USE)]
    (fun d =>
      if st = 0 then complete b 3 stOK [] d
      else
        let r := coldWrite cold (fun _ => {}) d
        complete b 3 (if r.1 then stOK else stCOLD_FAULT) [] r.2) d

/-- COLD_ERASE. -/
def execColdErase (b : Sub) (cold : Nat) (s : State) : Host.Outcome State Fault Refusal := done s (doColdErase b cold)

/-! ### Slots and windows (05 R138 to R144) -/

/-- SA_LOAD: the staged image becomes the slot in one clock (05 R141, R156, R158). A slot PINNED to an entry that has become doubtful
since stops at once (05 R159). -/
def doSaLoad (b : Sub) (slot buf : Nat) (d : Dev) : Dev :=
  let x := d.getStage buf
  let s := slotSlice slot
  inSlice s b (guards b
    [((d.tab.getSa slot).state != .free, stIN_USE),
     (x.state != 2, stNOT_STAGED),
     (buf % 8 != s, stBAD_SLOT),
     (x.image.dir == 0 && x.image.ssci % 2 != d.tab.side, stBAD_SSCI)]
    (fun d =>
      let d := (d.updTab (Tables.updSa slot (fun _ => { x.image with pinned := x.src == 1 }))).updLive slot (fun _ => x.live)
      let d := match x.src, x.image.coldIdx with
        | 1, some i =>
          let r := coldWrite i (fun e => { e with state := 3, stage := 0, slot := slot }) d
          if r.1 then r.2 else stopSlot_ slot r.2
        | _, _ => d
      gateDone b stOK [] (softCheck slot (d.setStage buf {})))) d

/-- SA_LOAD. -/
def execSaLoad (b : Sub) (slot buf : Nat) (s : State) : Host.Outcome State Fault Refusal := done s (doSaLoad b slot buf)

/-- The slots of a window block that exist in the slice. -/
def winSlotsIn (w : Nat) : List Nat := (winSlots w).filter (fun x => slotSlice x == slotSlice w)

/-- WIN_CREATE (05 R138). -/
def doWinCreate (b : Sub) (w chid : Nat) (d : Dev) : Dev :=
  let c := d.tab.getChn chid
  inSlice (slotSlice w) b (guards b
    [((winSlotsIn w).any (fun x => (d.tab.getSa x).state != .free), stIN_USE),
     (decide (w % 16384 > 16379), stBAD_SLOT),
     (!isRc chid || c.kind != 0 || chSlice chid != slotSlice w, stBAD_CHANNEL)]
    (fun d =>
      let d := each (winSlots w) (fun x d => d.updTab (Tables.updSa x (fun _ => { state := .window, win := some (w % 16384) }))) d
      gateDone b stOK [] (d.updWin w (fun _ => { w := c.replayW })))) d

/-- WIN_CREATE. -/
def execWinCreate (b : Sub) (w chid : Nat) (s : State) : Host.Outcome State Fault Refusal := done s (doWinCreate b w chid)

/-- WIN_ERASE (05 Table 05-4). -/
def doWinErase (b : Sub) (w : Nat) (d : Dev) : Dev :=
  inSlice (slotSlice w) b (guards b
    [(!isHeader d.tab w, stBAD_STATE),
     (decide ((d.getWin w).members > 0), stIN_USE)]
    (fun d =>
      let d := each (winSlots w) (fun x d => d.updTab (Tables.updSa x (fun _ => {}))) d
      gateDone b stOK [] (d.updWin w (fun _ => {})))) d

/-- WIN_ERASE. -/
def execWinErase (b : Sub) (w : Nat) (s : State) : Host.Outcome State Fault Refusal := done s (doWinErase b w)

/-- Two receive channels share their windows: members of one merge group (09 R239, R241). -/
def sameGroup (t : Tables) (a c : Nat) : Bool :=
  let x := t.getChn a
  let y := t.getChn c
  isRc a && isRc c && chSlice a == chSlice c && x.mgrp != 0 && x.mgrp == y.mgrp

/-- The window that an SA_ATTACH names is missing, or named where R139 or R241 forbids (05 R139, 09 R241). -/
def badWindow (t : Tables) (chid an : Nat) (win : Option Nat) : Bool :=
  let need := isRc chid && (t.getChn chid).kind == 0
  match win with
  | none => need
  | some w =>
    if !need then true
    else if !isHeader t w || slotSlice w != chSlice chid then true
    else
      (winNamers t w).any (fun e => e.2.an != an || !sameGroup t chid e.2.chid)
        || t.sa.any (fun e => e.2.att && e.2.dir == 1 && e.2.an == an && e.2.chid != chid && sameGroup t chid e.2.chid
             && (winOf e.1 e.2).isSome && winOf e.1 e.2 != some w)

/-- SA_ATTACH (05 R139, 09 R241). -/
def doSaAttach (b : Sub) (slot chid an : Nat) (win : Option Nat) (d : Dev) : Dev :=
  let sa := d.tab.getSa slot
  let kind := (d.tab.getChn chid).kind
  let s := slotSlice slot
  inSlice s b (guards b
    [(sa.state != .basting || sa.att, stBAD_STATE),
     (chSlice chid != s || (sa.dir == 1) != isRc chid, stBAD_CHANNEL),
     ((anSlotOf d.tab chid an).isSome, stIN_USE),
     (badWindow d.tab chid an win, stBAD_SLOT),
     ((decide (sa.suite ≥ 2) && kind != 0) || (match win with
        | some w => (winNamers d.tab w).any (fun e => e.2.suite != sa.suite)
        | none => false), stBAD_SUITE),
     (kind == 0 && (d.getLive slot).nextPn == 0, stBAD_LIMIT)]
    (fun d =>
      let d := d.updTab (fun t =>
        (t.updChn chid (fun c => { c with anSlot := Tab.set none c.anSlot an (some (slot % 16384)) })).updSa slot
          (fun x => { x with att := true, an := an, chid := chid, win := win.map (· % 16384) }))
      let d := match win with
        | some w => d.updWin w (fun x => { x with members := x.members + 1 })
        | none => d
      gateDone b stOK [] d)) d

/-- SA_ATTACH. -/
def execSaAttach (b : Sub) (slot chid an : Nat) (win : Option Nat) (s : State) : Host.Outcome State Fault Refusal :=
  done s (doSaAttach b slot chid an win)

/-- SA_ACTIVATE: a receive SA becomes ACTIVE, and its window is initialised once (05 R139). It ends the fence of a receive channel that a join left
fenced (DESIGN CHOICE, log entry 73). A slot that stopped while it was BASTING, as one PINNED to a doubtful cold entry does, admits no frame: it
drains at once (05 R159, R152). -/
def doSaActivate (b : Sub) (slot : Nat) (d : Dev) : Dev :=
  let sa := d.tab.getSa slot
  inSlice (slotSlice slot) b (guards b
    [(sa.state != .basting || !sa.att, stBAD_STATE),
     (sa.dir == 0, stBAD_CHANNEL)]
    (fun d =>
      let d := d.updTab (Tables.updSa slot (fun x => { x with state := .active }))
      let d := match winOf slot sa with
        | some w => if (d.getWin w).init then d
                    else d.updWin w (fun x => { x with top := (d.getLive slot).nextPn - 1, bitmap := 0, init := true })
        | none => d
      let d := when_ (d.getLive slot).limHit (startDrain slot 0) d
      gateDone b stOK [] { d with twn := { d.twn with chFence := d.twn.chFence.erase sa.chid } })) d

/-- SA_ACTIVATE. -/
def execSaActivate (b : Sub) (slot : Nat) (s : State) : Host.Outcome State Fault Refusal := done s (doSaActivate b slot)

/-! ### Seams (05 R148 to R150, 03 R88) -/

/-- The least multiple of 256 at or above a frame counter: frame 0 of a multiframe (03 R72). -/
def nextMultiframe (fc : Nat) : Nat := (fc + 255) / 256 * 256

/-- FC of frame 0 of the multiframe at which a seam whose tack's boundary is index `idx` takes effect on a Slot-mode channel: a client channel
is announced for a whole multiframe first (03 R88). -/
def seamFc (c : Chan) (idx : Nat) (d : Dev) : Nat :=
  let first := (d.tab.getSlt (facePos c.dst)).fcBase + idx
  if c.kind = 1 then nextMultiframe first + 256 else nextMultiframe first

/-- CH_SEAM (05 R148). A kind 0 seam of a client or port channel reads SEAMKIND 3, and takes effect where R88 lets that channel's AN change. -/
def doChSeam (b : Sub) (chid an kind seamAt : Nat) (d : Dev) : Dev :=
  let c := d.tab.getChn chid
  let new := anSlotOf d.tab chid an
  let sa := match new with | some x => d.tab.getSa x | none => {}
  inSlice (chSlice chid) b (guards b
    [(isRc chid, stBAD_CHANNEL),
     (sa.state != .basting || !sa.att, stBAD_STATE),
     ((d.getChl chid).seamKind != 0, stBUSY),
     ((d.mod.mode == .lead || d.mod.mode == .shadow) && decide (sa.suite ≥ 2), stBAD_SUITE),
     ((kind == 1 && c.kind != 0) || (kind == 2 && c.kind == 0), stBAD_CHANNEL)]
    (fun d =>
      let atTack := match curSlot d.tab chid d with
        | none => true
        | some old => kind == 0 || (kind == 1 && decide ((d.getLive old).nextPn ≥ seamAt))
      let k := if kind = 2 then 2 else if c.kind ≠ 0 || atTack then 3 else 1
      let v := if kind = 2 then seamFc c (boundAt c.dst d) d else if k = 3 then boundAt (chanPort chid c) d else seamAt
      d.updChl chid (fun l => { l with nextAn := an, seamKind := k, seamAt := v, seamSub := some b, seamTack := d.tck.tno }))) d

/-- CH_SEAM. -/
def execChSeam (b : Sub) (chid an kind seamAt : Nat) (s : State) : Host.Outcome State Fault Refusal :=
  done s (doChSeam b chid an kind seamAt)

/-- The last PN or FC that an SA has used; an SA that has used none has no such value, and the spec gives none (05 R149): a free value
(DESIGN CHOICE, log entry 3). -/
def lastUsed (slot : Nat) (d : Dev) : Nat × Dev :=
  match (d.getLive slot).lastPn with
  | some v => (v, d)
  | none => let r := freeNat d; (r.1 % 2 ^ 64, r.2)

/-- In LEAD and SHADOW no transmit SA of suite 2 or 3 is activated (02 R38). -/
def suiteShut (slot : Nat) (d : Dev) : Bool :=
  (d.mod.mode == .lead || d.mod.mode == .shadow) && decide ((d.tab.getSa slot).suite ≥ 2)

/-- A seam of a CH_SEAM accepted before the device came into LEAD or SHADOW, to an SA that 02 R38 keeps from becoming ACTIVE, is not taken:
its command completes with BAD_SUITE. DEDUCED (log entry 83). -/
def refuseSeam (chid : Nat) (d : Dev) : Dev :=
  let l := d.getChl chid
  let d := d.updChl chid (fun l => { l with seamKind := 0, seamSub := none })
  match l.seamSub with
  | some b => gateLate b l.seamTack stBAD_SUITE [] d
  | none => d

/-- The seam takes effect in one clock (05 R149): `place` is the seam frame's index or FC. -/
def makeSeam (chid place : Nat) (d : Dev) : Dev :=
  let l := d.getChl chid
  let old := curSlot d.tab chid d
  let new := anSlotOf d.tab chid l.nextAn
  let d := match new with | some x => setStateAll x .active d | none => d
  let d := d.updChl chid (fun l => { l with curAn := l.nextAn, curV := true, seamKind := 0, seamSub := none })
  let d := { d with twn := { d.twn with chFence := d.twn.chFence.erase chid } }
  match old with
  | none => match l.seamSub with | some b => gateLate b l.seamTack stOK [place, 2 ^ 64 - 1] d | none => d
  | some o =>
    let r := lastUsed o d
    let last := r.1
    let d := r.2
    let d := if (d.tab.getSa o).state = .active then startDrain o 0 d else d
    match l.seamSub with
    | none => d
    | some b =>
      if (d.tab.getSa o).state = .draining then d.updLive o (fun x => { x with pendSeam := some (b, l.seamTack, place, last) })
      else gateLate b l.seamTack stOK [place, last] d

/-- A seam that is due is taken (05 R149), or refused by 02 R38. -/
def takeSeam (chid place : Nat) (d : Dev) : Dev :=
  match anSlotOf d.tab chid (d.getChl chid).nextAn with
  | some x => if suiteShut x d then refuseSeam chid d else makeSeam chid place d
  | none => makeSeam chid place d

/-! ### Retiring and erasing (05 R144, R147) -/

/-- The slot is the target of a pending seam. -/
def seamTarget (slot : Nat) (d : Dev) : Bool :=
  let s := d.tab.getSa slot
  s.att && s.dir == 0 && (d.getChl s.chid).seamKind != 0 && anSlotOf d.tab s.chid (d.getChl s.chid).nextAn == some slot

/-- SA_RETIRE. -/
def doSaRetire (b : Sub) (slot : Nat) (keep : Bool) (d : Dev) : Dev :=
  let sa := d.tab.getSa slot
  inSlice (slotSlice slot) b (guards b
    [(!sa.att || (sa.state != .basting && sa.state != .active), stBAD_STATE),
     ((isCurrent slot d && (d.tab.getChn sa.chid).en) || seamTarget slot d, stIN_USE)]
    (fun d =>
      if sa.state = .basting then gateDone b stOK [] (detach slot d)
      else
        let d := (d.updTab (Tables.updSa slot (fun x => { x with state := .draining }))).updLive slot
          (fun l => { l with drainTack := d.tck.tno, keep := keep, pendRetire := if keep then some (b, d.tck.tno) else none })
        if keep then gateDeferred b d else gateDone b stOK [] d)) d

/-- SA_RETIRE. -/
def execSaRetire (b : Sub) (slot : Nat) (keep : Bool) (s : State) : Host.Outcome State Fault Refusal := done s (doSaRetire b slot keep)

/-- SA_ERASE: of a DRAINING slot it is deferred (05 R144). -/
def doSaErase (b : Sub) (slot : Nat) (d : Dev) : Dev :=
  let sa := d.tab.getSa slot
  inSlice (slotSlice slot) b (guards b
    [((sa.att && (sa.state == .basting || sa.state == .active)) || sa.state == .parking, stIN_USE),
     (sa.state == .free || sa.state == .window, stBAD_STATE),
     (sa.state == .draining && (d.getLive slot).pendErase.isSome, stBUSY)]
    (fun d =>
      if sa.state = .draining then gateDeferred b (d.updLive slot (fun l => { l with pendErase := some (b, d.tck.tno) }))
      else gateDone b stOK [] (freeSlot slot d))) d

/-- SA_ERASE. -/
def execSaErase (b : Sub) (slot : Nat) (s : State) : Host.Outcome State Fault Refusal := done s (doSaErase b slot)

/-- A drain completes: SPENT, or BASTING and detached with KEEP; then the commands that waited for it (05 R147, R149). -/
def doDrainComplete (slot : Nat) (d : Dev) : Dev :=
  let sa := d.tab.getSa slot
  let l := d.getLive slot
  if sa.state ≠ .draining || l.refs ≠ 0 || !tackEffective (chanPort sa.chid (d.tab.getChn sa.chid)) l.drainTack d
      || (d.getSlice (slotSlice slot)).txq.any (fun j => j.chid == sa.chid && decide (j.view < l.drainTack)) then d
  else
    let kept := l.keep && !(sa.dir == 0 && l.limHit)
    let d := if kept then detach slot (setStateAll slot .basting d) else setStateAll slot .spent d
    let d := d.updLive slot (fun x => { x with keep := false, pendErase := none, pendRetire := none, pendSeam := none })
    let d := match l.pendRetire with | some r => gateFinal r.1 r.2 stOK [] d | none => d
    let d := match l.pendSeam with | some r => gateLate r.1 r.2.1 stOK [r.2.2.1, r.2.2.2] d | none => d
    match l.pendErase with | some r => gateFinal r.1 r.2 stOK [] (freeSlot slot d) | none => d

/-- DRAIN_COMPLETE. -/
def execDrainComplete (slot : Nat) (s : State) : Host.Outcome State Fault Refusal := done s (doDrainComplete slot)

/-- A drain has not completed after 10 microseconds: event 0x0503 and a slice fault (05 R147). -/
def doDrainTimeout (slot : Nat) (d : Dev) : Dev :=
  if (d.tab.getSa slot).state ≠ .draining then d
  else sliceFault (slotSlice slot) 2 (event 0x0503 3 (be 3 slot ++ [0] ++ be 2 (d.getLive slot).refs) d)

/-- DRAIN_TIMEOUT. -/
def execDrainTimeout (slot : Nat) (s : State) : Host.Outcome State Fault Refusal := done s (doDrainTimeout slot)

/-! ### Limits (05 R151 to R154) -/

/-- Apply a limit change now, or leave it to the channel's first frame at the boundary (05 R154). -/
def limitAtBoundary (slot : Nat) (raise : Option Nat) (limit : Option (Nat × Nat)) (d : Dev) : Dev :=
  let e : PendLimit := ⟨slot, d.tck.tno, raise, limit⟩
  if isCurrent slot d then { d with sas := { d.sas with pend := d.sas.pend ++ [e] } } else applyLimit e d

/-- SA_SETLIMIT. -/
def doSaSetlimit (b : Sub) (slot soft hard : Nat) (d : Dev) : Dev :=
  let sa := d.tab.getSa slot
  inSlice (slotSlice slot) b (guards b
    [(sa.state != .basting && sa.state != .active, stBAD_STATE),
     (sa.dir == 1, stBAD_CHANNEL),
     (decide (soft > hard) || decide (hard > spentPn sa.suite), stBAD_LIMIT)]
    (fun d => gateDone b stOK [] (limitAtBoundary slot none (some (soft, hard)) d))) d

/-- SA_SETLIMIT. -/
def execSaSetlimit (b : Sub) (slot soft hard : Nat) (s : State) : Host.Outcome State Fault Refusal := done s (doSaSetlimit b slot soft hard)

/-- SA_RAISEPN. -/
def doSaRaisepn (b : Sub) (slot pn : Nat) (d : Dev) : Dev :=
  let sa := d.tab.getSa slot
  let l := d.getLive slot
  inSlice (slotSlice slot) b (guards b
    [(sa.state != .basting && sa.state != .active, stBAD_STATE),
     (sa.dir == 1, stBAD_CHANNEL),
     (decide (pn ≤ l.nextPn) || decide (pn > l.hardPn), stBAD_LIMIT)]
    (fun d => gateDone b stOK [] (limitAtBoundary slot (some pn) none d))) d

/-- SA_RAISEPN. -/
def execSaRaisepn (b : Sub) (slot pn : Nat) (s : State) : Host.Outcome State Fault Refusal := done s (doSaRaisepn b slot pn)

/-! ### Parking (05 R158, R159) -/

/-- SA_PARK. DESIGN CHOICE: NO_ENTRY, which Table 05-13 gives it, stands after BAD_STATE (log entry 44). -/
def doSaPark (b : Sub) (slot cold : Nat) (d : Dev) : Dev :=
  let sa := d.tab.getSa slot
  let e := d.getCold cold
  inSlice (slotSlice slot) b (guards b
    [(sa.state != .basting || sa.att, stBAD_STATE),
     (!coldHas cold d, stNO_ENTRY),
     (!(e.state == 0 || (e.state == 3 && e.slot == slot)), stIN_USE)]
    (fun d =>
      let r := coldOpen cold d
      if !r.1 then gateDone b stCOLD_FAULT [] (coldFail cold r.2)
      else
        let d := r.2.updTab (Tables.updSa slot (fun x => { x with state := .parking }))
        { d with sas := { d.sas with parks := d.sas.parks ++ [(slot, cold, b, d.tck.tno)] } })) d

/-- SA_PARK. -/
def execSaPark (b : Sub) (slot cold : Nat) (s : State) : Host.Outcome State Fault Refusal := done s (doSaPark b slot cold)

/-- The write-back of a parked SA completes: entry PARKED, slot FREE; a doubtful subtree leaves the slot as SA_PARK found it
(05 R158, R159). -/
def doParkWriteback (slot : Nat) (d : Dev) : Dev :=
  match d.sas.parks.find? (fun k => k.1 == slot) with
  | none => d
  | some (_, cold, b, tack) =>
    let sa := d.tab.getSa slot
    let l := d.getLive slot
    let d := { d with sas := { d.sas with parks := d.sas.parks.filter (fun k => k.1 != slot) } }
    let r := coldWrite cold (fun _ =>
      { state := 1, nextPn := l.nextPn, softPn := l.softPn, hardPn := l.hardPn, ssci := sa.ssci, salt := sa.salt, dir := sa.dir,
        suite := sa.suite, key := sa.key, ctr := l.ctr }) d
    if r.1 then gateLate b tack stOK [] (freeSlot slot r.2)
    else gateLate b tack stCOLD_FAULT [] (r.2.updTab (Tables.updSa slot (fun x => { x with state := .basting })))

/-- PARK_WRITEBACK_COMPLETE. -/
def execParkWritebackComplete (slot : Nat) (s : State) : Host.Outcome State Fault Refusal := done s (doParkWriteback slot)

/-! ### Channel records (05 R132 to R134, 01 R12, 09 R239) -/

/-- The configured fields of a record image (05 Table 05-1), the rest taken from `old`. -/
def chanOfImage (old : Chan) (b : Bytes) : Chan :=
  { old with
    kind := fld (byteAt b 0) 2 1, txSci := bitAt (byteAt b 0) 3, pcode := fld (byteAt b 0) 5 4,
    src := fld (byteAt b 2) 5 0, slotSrc := bitAt (byteAt b 2) 6, dst := fld (byteAt b 3) 5 0,
    sci := beAt b 12 8, replayW := fld (leAt b 28 2) 11 0, mgrp := fld (leAt b 30 2) 9 0 }

/-- A port lies in a slice, or in its slice pair when `wide` (01 R12). -/
def portNear (s n : Nat) (wide : Bool) : Bool := facePos n / 4 == s || (wide && facePos n / 8 == s / 2)

/-- The ports of a channel that R12 places. -/
def chanPorts (chid : Nat) (c : Chan) : List Nat := if !isRc chid && c.slotSrc then [c.dst] else [c.src, c.dst]

/-- The port clients of a direction: (cipher position, client channel) of every TYPE 1 client-table entry (03 Table 03-16). -/
def portClients (t : Tables) (rx : Bool) : List (Nat × Nat) :=
  (t.slt.map (fun e => ((if rx then e.2.rxClient else e.2.txClient).filter (fun x => fld x.2 17 16 == 1)).map
    (fun x => (e.1, fld x.2 15 0)))).flatten

/-- The channel is a packet client's of a direction (03 Table 03-16). -/
def packetClient (t : Tables) (rx : Bool) (chid : Nat) : Bool :=
  t.slt.any (fun e => (if rx then e.2.rxClient else e.2.txClient).any (fun x => fld x.2 17 16 == 2 && fld x.2 15 0 == chid))

/-- The clear port of a channel: SRC of a transmit channel with a port source, DST of a receive channel. -/
def clearPortOf (chid : Nat) (c : Chan) : Option Nat := if isRc chid then some c.dst else if c.slotSrc then none else some c.src

/-- Channels of the direction other than `rx`'s that name clear port `q` and cannot be the other half of a port client on it: a Frame-mode
channel or a packet client's. The other half is a KIND 1 channel, for a port client takes its clear port for both directions (03 R78; DEDUCED,
log entry 85). -/
def crossNamed (t : Tables) (rx : Bool) (q : Nat) : Bool :=
  t.chn.any (fun e => isRc e.1 != rx && clearPortOf e.1 e.2 == some q && (e.2.kind == 0 || packetClient t (!rx) e.1))

/-- A port client of the other direction has clear port `q`. -/
def crossClient (t : Tables) (rx : Bool) (q : Nat) : Bool := (portClients t (!rx)).any (fun x => clearPortOf x.2 (t.getChn x.2) == some q)

/-- Another channel's port client owns the clear port that a channel names, or the channel is itself a port client's and another names that
port (03 R78). -/
def portTaken (t : Tables) (chid : Nat) (c : Chan) : Bool :=
  let clash := fun (n : Nat) (x : Chan) => n != chid && (clearPortOf chid c).isSome && clearPortOf n x == clearPortOf chid c
    && !(isRc chid && c.mgrp != 0 && chSlice n == chSlice chid && x.mgrp == c.mgrp)
  (portClients t (isRc chid)).any (fun x => clash x.2 (t.getChn x.2))
    || ((portClients t (isRc chid)).any (fun x => x.2 == chid) && t.chn.any (fun e => isRc e.1 == isRc chid && clash e.1 e.2))
    || (match clearPortOf chid c with
        | none => false
        | some q => if (portClients t (isRc chid)).any (fun x => x.2 == chid) then crossNamed t (isRc chid) q
                    else (c.kind == 0 || packetClient t (isRc chid) chid) && crossClient t (isRc chid) q)

/-- The other members of a merge group (09 R239). -/
def groupOthers (t : Tables) (chid g : Nat) : List (Nat × Chan) :=
  t.chn.filter (fun e => e.1 != chid && isRc e.1 && chSlice e.1 == chSlice chid && e.2.mgrp == g)

/-- CH_WRITE gives the record a content that R12, R133, R78 or R239 forbids. -/
def badChannel (t : Tables) (chid : Nat) (c : Chan) : Bool :=
  let s := chSlice chid
  let wide := (chanPorts chid c).any (isWide t)
  let others := groupOthers t chid c.mgrp
  (chanPorts chid c).any (fun n => !portNear s n wide)
    || (if isRc chid then !isCipher c.src || isCipher c.dst else (!c.slotSrc && isCipher c.src) || !isCipher c.dst)
    || (c.slotSrc && decide (c.kind ≤ 1)) || (!isRc chid && !c.slotSrc && decide (2 ≤ c.kind))
    || (c.kind == 3 && (isRc chid || s % 2 == 0 || !isWide t c.dst || facePos c.dst / 8 != s / 2))
    || portTaken t chid c
    || (c.mgrp != 0 && (decide (2 ≤ c.kind)
          || (isRc chid && (decide (others.length ≥ 4) || others.any (fun e => e.2.kind != c.kind || (c.kind == 0 && e.2.replayW != c.replayW))))))

/-- CH_ENABLE. -/
def doChEnable (b : Sub) (chid : Nat) (d : Dev) : Dev :=
  inSlice (chSlice chid) b (fun d => gateDone b stOK [] (d.updTab (Tables.updChn chid (fun c => { c with en := true })))) d

/-- CH_ENABLE. -/
def execChEnable (b : Sub) (chid : Nat) (s : State) : Host.Outcome State Fault Refusal := done s (doChEnable b chid)

/-- CH_DISABLE: BUSY while a seam is pending (05 R134). -/
def doChDisable (b : Sub) (chid : Nat) (d : Dev) : Dev :=
  inSlice (chSlice chid) b (guards b [((d.getChl chid).seamKind != 0, stBUSY)]
    (fun d => gateDone b stOK [] (d.updTab (Tables.updChn chid (fun c => { c with en := false }))))) d

/-- CH_DISABLE. -/
def execChDisable (b : Sub) (chid : Nat) (s : State) : Host.Outcome State Fault Refusal := done s (doChDisable b chid)

/-- SAS_SIDE (05 R156). -/
def doSasSide (b : Sub) (side : Nat) (d : Dev) : Dev :=
  guards b
    [(d.tab.sa.any (fun e => e.2.dir == 0 &&
        (e.2.state == .basting || e.2.state == .active || e.2.state == .draining || e.2.state == .parking)), stIN_USE)]
    (fun d => gateDone b stOK [] (d.updTab (fun t => { t with side := side }))) d

/-- SAS_SIDE. -/
def execSasSide (b : Sub) (side : Nat) (s : State) : Host.Outcome State Fault Refusal := done s (doSasSide b side)

/-! ### SCI maps (02 R44, R45) -/

/-- The four indices of an SCI's bucket: entries are numbered bucket times 4 plus way, as 06 R172 numbers station entries (DESIGN CHOICE, log
entry 68). -/
def sciWays (sci : Nat) : List Nat := (List.range 4).map (fun i => crc32c (be 8 sci) % 2048 * 4 + i)

/-- The index at which a map holds an SCI. -/
def sciFind (m : Tab (Option SciEnt)) (sci : Nat) : Option Nat :=
  (sciWays sci).find? (fun i => match Tab.get none m i with | some e => e.sci == sci | none => false)

/-- A face's SCI map. -/
def Tables.sciMap (t : Tables) (face : Nat) : Tab (Option SciEnt) := if face = 0 then t.sciClear else t.sciCipher

/-- Replace an entry of a face's SCI map. -/
def Tables.setSci (face i : Nat) (e : Option SciEnt) (t : Tables) : Tables :=
  if face = 0 then { t with sciClear := Tab.set none t.sciClear i e } else { t with sciCipher := Tab.set none t.sciCipher i e }

/-- SCI_INSERT: the lowest free way of the bucket is taken (DESIGN CHOICE, log entry 68). -/
def doSciInsert (b : Sub) (face sci chid : Nat) (d : Dev) : Dev :=
  let m := d.tab.sciMap face
  let way := (sciWays sci).find? (fun i => (Tab.get none m i).isNone)
  guards b
    [(!isRc chid, stBAD_CHANNEL), ((sciFind m sci).isSome, stDUPLICATE), (way.isNone, stBUCKET_FULL)]
    (fun d => gateDone b stOK [] (match way with | some i => d.updTab (Tables.setSci face i (some ⟨sci, chid⟩)) | none => d)) d

/-- SCI_INSERT. -/
def execSciInsert (b : Sub) (face sci chid : Nat) (s : State) : Host.Outcome State Fault Refusal := done s (doSciInsert b face sci chid)

/-- SCI_DELETE. -/
def doSciDelete (b : Sub) (face sci : Nat) (d : Dev) : Dev :=
  match sciFind (d.tab.sciMap face) sci with
  | none => gateDone b stNO_ENTRY [] d
  | some i => gateDone b stOK [] (d.updTab (Tables.setSci face i none))

/-- SCI_DELETE. -/
def execSciDelete (b : Sub) (face sci : Nat) (s : State) : Host.Outcome State Fault Refusal := done s (doSciDelete b face sci)

/-! ### Slice restart (15 R418) -/

/-- The slice's tables are cleared (15 R418). -/
def clearSliceTables (s : Nat) (t : Tables) : Tables :=
  let keep := fun (e : Nat × Option SciEnt) => match e.2 with | some x => chSlice x.chid != s | none => true
  { t with
    chn := t.chn.filter (fun e => chSlice e.1 != s)
    sa := t.sa.filter (fun e => slotSlice e.1 != s)
    sciClear := t.sciClear.filter keep
    sciCipher := t.sciCipher.filter keep
    stn := t.stn.filter (fun e => e.1 / 65536 != s)
    filters := t.filters.filter (fun f => f.part != s) }

/-- The slice's queues are emptied and their cells freed (15 R418). -/
def clearSliceQueues (s : Nat) (d : Dev) : Dev :=
  let d := each (d.getSlice s).txq (fun j d => freeCells (0x40 + s) j.cells d) d
  let d := d.updSlice s (fun x => { x with txq := [] })
  each (List.range 64) (fun n d =>
    let p := d.getPort n
    let mineE := fun (f : EgFrame) => chSlice f.chid == s
    let mineH := fun (f : HoldFrame) => chSlice f.chid == s
    let mineR := fun (f : RelFrame) => match f.chid with | some c => chSlice c == s | none => facePos n / 4 == s
    let d := each (p.egress.filter mineE) (fun f d => freeCells (0x40 + s) f.cells d) d
    let d := each (p.hold.filter mineH) (fun f d => freeCells (0x48 + s) f.cells d) d
    let d := each (p.rel.filter mineR) (fun f d => freeCells (0x50 + s) f.cells d) d
    d.updPort n (fun p => { p with egress := p.egress.filter (fun f => !mineE f), hold := p.hold.filter (fun f => !mineH f),
                                   rel := p.rel.filter (fun f => !mineR f) })) (clearSliceMaps s (clearSliceHeld s d))
where
  /-- The frames that wait in the mapping buffers of Slot-mode ports for the slice's packet clients go. -/
  clearSliceMaps (s : Nat) (d : Dev) : Dev :=
    each (List.range 32) (fun p d =>
      let mine := fun (e : Nat × List MapFrame) => e.2.any (fun m => m.slice == s)
      let l := (d.getSlt p).tx.mapFrames.filter mine
      let d := each l (fun e d => freeMapped e.2 d) d
      d.updSlt p (fun x => { x with tx := { x.tx with
        mapFrames := x.tx.mapFrames.filter (fun e => !mine e), map := x.tx.map.filter (fun e => !l.any (fun y => y.1 == e.1)) } })) d
  /-- The client frames that Slot-mode ports hold for the slice fail. -/
  clearSliceHeld (s : Nat) (d : Dev) : Dev :=
    each (List.range 32) (fun p d =>
      let mine := fun (h : HeldClient) => chSlice h.chid == s
      let d := each ((d.getSlt p).rx.held.filter mine) (fun h d => freeCells (0x58 + s) h.cells d) d
      d.updSlt p (fun x => { x with rx := { x.rx with
        held := x.rx.held.map (fun h => if mine h then { h with failed := true, slot := 0, cells := [] } else h)
        heldPort := match x.rx.heldPort with | some h => if slotSlice h.slot = s then none else some h | none => none } })) d

/-- A staging buffer of a restarted slice empties; the transfer under way into it ends as ABORTED. -/
def clearSliceStage (s i : Nat) (d : Dev) : Dev :=
  (match (d.getStage (s + 8 * i)).sub with | some b => complete b 3 stABORTED [] d | none => d).setStage (s + 8 * i) {}

/-- The SAs, channels and windows of a restarted slice go. -/
def clearSliceSas (s : Nat) (x : Sas) : Sas :=
  { x with live := x.live.filter (fun e => slotSlice e.1 != s), chan := x.chan.filter (fun e => chSlice e.1 != s),
           win := x.win.filter (fun e => slotSlice e.1 != s), pend := x.pend.filter (fun e => slotSlice e.slot != s) }

/-- The held learns and walks of a restarted slice's partition go. -/
def clearSliceStn (s : Nat) (d : Dev) : Dev :=
  { d with stn := { d.stn with learns := d.stn.learns.filter (fun l => l.part != s), walks := d.stn.walks.filter (fun w => w.1 != s) } }

/-- Clear a slice at the tack of SLC_RESTART. -/
def clearSlice (s : Nat) (d : Dev) : Dev :=
  let d := each [0, 1, 2, 3] (clearSliceStage s) d
  let bad := fun (e : Nat × ColdEnt) => (e.2.state == 3 && slotSlice e.2.slot == s) || (e.2.state == 2 && e.2.stage % 8 == s)
  let d := each (d.sas.cold.filter bad) (fun e d => (coldWrite e.1 (fun x => { x with state := 4 }) d).2) d
  clearSliceQueues s (clearSliceStn s ((d.updViews (clearSliceTables s)).updSas (clearSliceSas s)))

/-- A recurrence of the slice's last fault within 86,400 s (15 R413, Table 15-2). -/
def sliceRecurs (s : Nat) (d : Dev) : Bool :=
  d.flt.lastAt.any (fun e => e.1 == (2, s) && decide ((d.getSlice s).faultAt ≤ e.2 + 86400000))

/-- SLC_RESTART. -/
def doSlcRestart (b : Sub) (s : Nat) (d : Dev) : Dev :=
  guards b [((d.getSlice s).state != 1, stBAD_STATE)]
    (fun d =>
      let d := clearSlice s d
      if sliceRecurs s d then gateDone b stABORTED [] (retireUnit 2 s 0 (d.updSlice s (fun x => { x with state := 3 })))
      else d.updSlice s (fun x => { x with state := 2, restartSub := some (b, d.tck.tno) })) d

/-- SLC_RESTART. -/
def execSlcRestart (b : Sub) (s : Nat) (st : State) : Host.Outcome State Fault Refusal := done st (doSlcRestart b s)

/-- The pipelines under test of one slice-direction, which begins at index `base`, have passed: one is the spare, unless the direction has a spare or
a retired pipeline, for then the four others carry traffic (15 R415, Table 15-2). -/
def dirPassed (base : Nat) (t : Tab Nat) : Tab Nat :=
  let idx := (List.range 5).map (base + ·)
  let test := idx.filter (fun i => Tab.get 0 t i == 2)
  let taken := idx.any (fun i => Tab.get 0 t i == 1 || Tab.get 0 t i == 3)
  test.foldl (fun t i => Tab.set 0 t i (if !taken && test.head? == some i then 1 else 0)) t

/-- Every pipeline passed its known-answer pass (15 R415, R418). -/
def pipesPassed (x : Slice) : Slice :=
  let t := dirPassed 5 (dirPassed 0 x.pipe)
  let none_ := fun (base : Nat) => (List.range 5).all (fun p => Tab.get 0 t (base + p) != 1)
  { x with pipe := t, noSpareTx := none_ 0, noSpareRx := none_ 5 }

/-- The march test and the known-answer pass of a restarting slice end (15 R418). -/
def doSlcRestartComplete (s : Nat) (pass : Bool) (d : Dev) : Dev :=
  let x := d.getSlice s
  if x.state ≠ 2 then d
  else
    let d := if pass then
        let d := d.updSlice s (fun x => { pipesPassed x with state := 0, cause := 0, restartSub := none })
        event 0x0F14 1 (be 1 s) { d with flt := { d.flt with lastAt := ((2, s), x.faultAt) :: d.flt.lastAt.filter (fun e => e.1 != (2, s)) } }
      else retireUnit 2 s 3 (d.updSlice s (fun x => { x with state := 3, cause := 6, restartSub := none }))
    match x.restartSub with
    | some r => gateLate r.1 r.2 (if pass then stOK else stABORTED) [] d
    | none => d

/-- SLC_RESTART_COMPLETE. -/
def execSlcRestartComplete (s : Nat) (pass : Bool) (st : State) : Host.Outcome State Fault Refusal := done st (doSlcRestartComplete s pass)

end Sys2Proof.Machine
end

