-- ==== Sys2Proof/Machine/Classify.lean ====
section
/-! DEFINITION. The classifier as functions of a frame and a view: Pattern images, parse, channel selection, station lookup, rules (chapter 06). -/

namespace Sys2Proof.Machine

/-! ### Pattern images (06 Tables 06-2, 06-3, 06-6, 06-8) -/

/-- Node record `n` of an image. -/
def patNode (img : Bytes) (n : Nat) : Bytes := sub_ img (beAt img 12 4 + 64 * n) 64

/-- Profile record `i` of an image. -/
def patProf (img : Bytes) (i : Nat) : Bytes := sub_ img (beAt img 16 4 + 32 * i) 32

/-- Port-map byte of port `n`. -/
def patMap (img : Bytes) (n : Nat) : Nat := byteAt img (beAt img 16 4 + 512 + n)

/-- Rule record `r` of an image. -/
def patRule (img : Bytes) (r : Nat) : Bytes := sub_ img (beAt img 20 4 + 80 * r) 80

def patNodes (img : Bytes) : Nat := beAt img 24 2
def patRules (img : Bytes) : Nat := beAt img 26 2

/-- The profile of a port, when its map byte enables it (06 R163): its number and record. -/
def portProfile (img : Bytes) (n : Nat) : Option (Nat × Bytes) :=
  if img.isEmpty || !bitAt (patMap img n) 7 then none else some (patMap img n % 16, patProf img (patMap img n % 16))

/-! ### The parse (06 R164) -/

/-- What a parse yields. -/
structure Parse where
  key : Bytes
  mask : Nat
  perr : Bool
  short : Bool

/-- One extraction of a node. -/
def patExtract (frame node : Bytes) (off : Nat) (key : Bytes) (x : Nat) : Bytes :=
  let src := byteAt node (32 + 4 * x)
  let len := byteAt node (33 + 4 * x)
  let dst := byteAt node (34 + 4 * x)
  (List.range len).foldl (fun k j => setAt k (dst + j) (frame.getD (off + src + j) 0)) key

/-- Header length of a node at an offset. -/
def patHlen (frame node : Bytes) (off : Nat) : Nat :=
  let h := fld (byteAt node 1) 6 0
  if bitAt (byteAt node 0) 1 then
    h + (byteAt frame (off + fld (byteAt node 2) 5 0) &&& byteAt node 3) / 2 ^ fld (byteAt node 4) 2 0 * 2 ^ fld (byteAt node 4) 5 4
  else h

/-- The next node. -/
def patNext (frame node : Bytes) (off : Nat) : Nat :=
  let def_ := fld (byteAt node 7) 4 0
  let selLen := fld (byteAt node 6) 1 0
  if selLen = 0 then def_
  else
    let sel := ofBe ((List.range selLen).map (fun i => frame.getD (off + fld (byteAt node 5) 5 0 + i) 0))
    match (List.range 8).find? (fun t => bitAt (byteAt node (10 + 3 * t)) 7 && beAt node (8 + 3 * t) 2 == sel) with
    | some t => fld (byteAt node (10 + 3 * t)) 4 0
    | none => def_

/-- The walk from node `n`; node 16 is END. A frame's bytes beyond 255 are not read (06 R162). -/
def patWalk (img frame : Bytes) (flen : Nat) : Nat → Nat → Nat → Bytes → Nat → Parse
  | 0, _, _, key, mask => ⟨key, mask, true, false⟩
  | f + 1, n, off, key, mask =>
    if n = 16 then ⟨key, mask, false, false⟩
    else if bitAt mask n then ⟨key, mask, true, false⟩
    else
      let mask := setBit mask n true
      let node := patNode img n
      let len := patHlen frame node off
      if !bitAt (byteAt node 0) 0 then ⟨key, mask, true, false⟩
      else if decide (len > 64) || decide (off + len > 256) then ⟨key, mask, true, false⟩
      else
        let key := [0, 1, 2, 3].foldl (fun k x => patExtract frame node off k x) key
        if off + len > flen then ⟨key, mask, false, true⟩
        else patWalk img frame flen f (patNext frame node off) (off + len) key mask

/-- Parse a frame from a profile's start node. -/
def patParse (img prof frame : Bytes) : Parse :=
  patWalk img (frame.take 256) frame.length 17 (fld (byteAt prof 0) 3 0) 0 (zeros 32) 0

/-! ### The station table as a view holds it (06 R172, R173, R180) -/

/-- The partition that serves a clear port: its slice, 2m for a 1.6TbE port on pair m. -/
def portPart (n : Nat) : Nat := facePos n / 4

/-- The first index of an address's bucket. -/
def stnBucket (q domain mac : Nat) : Nat := q * 65536 + crc32c (be 2 (domain % 4096) ++ be 6 mac) % 16384 * 4

/-- The four ways of a bucket. -/
def stnWays (q domain mac : Nat) : List Nat := (List.range 4).map (fun w => stnBucket q domain mac + w)

def Tables.getStn (t : Tables) (i : Nat) : Option StnEntry := Tab.get none t.stn i

/-- The entry matches a pending flush filter of its partition. -/
def stnFlushed (f : FlushFilter) (q : Nat) (e : StnEntry) : Bool :=
  f.part == q && (if f.byChan then e.chid == f.value && (f.inclStatic || !e.static) else !e.static && e.port == f.value)

/-- A view of the tables with the filters of the flushes that are past their tack and wait behind another station command: for a read or a walk
they count from their tack on (06 R180). -/
def withFlushes (d : Dev) (t : Tables) : Tables := { t with filters := t.filters ++ d.stn.waiting.filterMap (fun w => w.filter) }

/-- A VALID entry is live for sweep number `s`. -/
def stnLive (t : Tables) (q : Nat) (e : StnEntry) : Bool :=
  (e.static || decide ((t.sweepNo + 4 - e.hitSw % 4) % 4 ≤ 1)) && !t.filters.any (fun f => stnFlushed f q e)

/-- The entry holds this address. -/
def stnIs (domain mac : Nat) (e : StnEntry) : Bool := e.domain == domain % 4096 && e.mac == mac

/-- The index of the live entry of an address. -/
def stnFind (t : Tables) (q domain mac : Nat) : Option Nat :=
  (stnWays q domain mac).find? (fun i => match t.getStn i with | some e => stnIs domain mac e && stnLive t q e | none => false)

/-- The lowest free or dead way of an address's bucket. -/
def stnFree (t : Tables) (q domain mac : Nat) : Option Nat :=
  (stnWays q domain mac).find? (fun i => match t.getStn i with | some e => !stnLive t q e | none => true)

/-- Entry `i` takes HITSW `h` where it still stands as `e` does, hit or learned no later (06 R173). -/
def Tables.hitStn (i : Nat) (e : StnEntry) (h : Nat) (t : Tables) : Tables :=
  { t with stn := Tab.upd none t.stn i (fun o => o.map (fun x =>
      if stnIs e.domain e.mac x && x.hitSw == e.hitSw then { x with hitSw := h } else x)) }

/-- A lookup in the view `t` finds the live entry `i`: HITSW becomes the view's sweep number there and in every view of that sweep or a
later one in which no later hit or learn has raised it: it is never lowered (06 R173). -/
def stnHit (t : Tables) (i : Nat) (d : Dev) : Dev :=
  match t.getStn i with
  | none => d
  | some e => d.updViews (fun u => if u.sweepNo < t.sweepNo then u else u.hitStn i e (t.sweepNo % 4))

/-! ### Classification (06 R165 to R168) -/

/-- The outcome of the action stage. -/
inductive Verdict where
  | noRule
  | protect (chid rule : Nat)
  | bypass (rule : Nat)
  | extract (q rule : Nat)
  | drop (rule : Nat)
  deriving DecidableEq, Repr

/-- What classification yields: the verdict, the parse error, and the station lookup (entry hit, miss, refused entry). -/
structure Cls where
  verdict : Verdict
  perr : Bool := false
  looked : Bool := false
  hit : Option Nat := none
  miss : Bool := false
  xslice : Bool := false

/-- The channel ID of a slice and local number (01 Table 01-1). -/
def txChid (s l : Nat) : Nat := s % 8 * 4096 + l % 4096

/-- compose(key, prof, port) of 06 R166. -/
def patCompose (t : Tables) (key prof : Bytes) (n : Nat) : Option Nat :=
  let w := fld (byteAt prof 8) 3 0
  let v := ofBe key / 2 ^ fld (leAt prof 6 2) 7 0 % 2 ^ w
  let sub := fld (leAt prof 10 2) 11 0
  let split := leAt prof 14 2
  if v < sub || v > fld (leAt prof 12 2) 11 0 then none
  else if isWide t n && decide (v ≥ split) then some (txChid (facePos n / 4 + 1) (v - split))
  else some (txChid (facePos n / 4) (v - sub))

/-- The pair carries a 1.6TbE port on one face (01 R10). -/
def pairWide (t : Tables) (m : Nat) : Bool := isWide t (8 * m) || isWide t (32 + 8 * m)

/-- The slice is the port's, or of its pair: a channel may lie in the pair when either of its ports is 1.6TbE (01 R12), so the pair counts for a
port whose pair carries such a port on either face (02 R43, R68, 06 R167; DEDUCED, log entry 67). -/
def portReaches (t : Tables) (n s : Nat) : Bool := facePos n / 4 == s || (facePos n / 8 == s / 2 && pairWide t (facePos n / 8))

/-- The metadata word (06 Table 06-4). -/
def patMeta (n prof : Nat) (hit : Bool) (p : Parse) : Nat :=
  n + at_ prof 6 + at_ hit.toNat 10 + at_ p.perr.toNat 11 + at_ p.short.toNat 12 + at_ p.mask 16

/-- A rule matches (06 R168). -/
def ruleMatches (key : Bytes) (meta_ : Nat) (r : Bytes) : Bool :=
  bitAt (byteAt r 72) 7
    && (List.range 32).all (fun i => (byteAt key i &&& byteAt r (32 + i)) == (byteAt r i &&& byteAt r (32 + i)))
    && (meta_ &&& leAt r 68 4) == (leAt r 64 4 &&& leAt r 68 4)

/-- The action of rule `i` for a port whose selected channel is `sel`. -/
def ruleVerdict (t : Tables) (n : Nat) (sel : Option Nat) (i : Nat) (r : Bytes) : Verdict :=
  let fix := fld (leAt r 74 2) 12 0
  match fld (byteAt r 72) 2 0 with
  | 0 => .protect (sel.getD 0) i
  | 1 => .protect (txChid (facePos n / 4 + (if isWide t n && bitAt fix 12 then 1 else 0)) (fld fix 11 0)) i
  | 2 => .bypass i
  | 3 => .extract (fld (byteAt r 73) 3 0) i
  | _ => .drop i

/-- Classify a frame of port `n` under an image and a view. -/
def classify (img : Bytes) (t : Tables) (n : Nat) (frame : Bytes) : Cls :=
  match portProfile img n with
  | none => { verdict := .noRule }
  | some (pi, prof) =>
    let p := patParse img prof frame
    let q := portPart n
    let sel := fld (byteAt prof 1) 1 0
    let found := if sel = 2 then stnFind t q (fld (leAt prof 2 2) 11 0) (beAt p.key (fld (byteAt prof 5) 4 0) 6) else none
    let entry := found.bind (fun i => t.getStn i)
    let xs := match entry with | some e => isRc e.chid || !portReaches t n (chSlice e.chid) | none => false
    let chan := if sel = 1 then patCompose t p.key prof n
      else if sel = 2 then (if xs then none else entry.map (fun e => e.chid)) else none
    let m := patMeta n pi chan.isSome p
    let rule := (List.range (patRules img)).find? (fun i => ruleMatches p.key m (patRule img i))
    { verdict := match rule with | some i => ruleVerdict t n chan i (patRule img i) | none => .noRule
      perr := p.perr, looked := sel == 2, hit := found, miss := sel == 2 && chan.isNone, xslice := xs }

/-- The image of a view's active bank. -/
def viewImage (t : Tables) (d : Dev) : Bytes := if t.actBank = 0 then d.pat.bank0.image else d.pat.bank1.image

/-- Classify and count (06 Table 06-17, 16 Table 16-10), with the effect of the lookup on HITSW. -/
def classifyFrame (t : Tables) (n : Nat) (frame : Bytes) (d : Dev) : Verdict × Dev :=
  let c := classify (viewImage t d) t n frame
  let d := when_ c.perr (patCount n 2) d
  let d := if c.looked then prfCount 11 (some (portPart n)) 1 d else d
  let d := match c.hit with | some i => stnHit t i d | none => d
  let d := when_ c.xslice (patCount n 4) d
  let d := if c.miss then prfCount 12 (some (portPart n)) 1 (patCount n 3 d) else d
  let d := match c.verdict with
    | .extract _ _ => patCount n 0 d
    | .drop _ => patCount n 1 d
    | _ => d
  (c.verdict, d)

/-! ### Bypass (02 R60, R61) -/

/-- A bypass entry of the port allows the frame. -/
def bypassAllowed (t : Tables) (n : Nat) (frame : Bytes) : Bool :=
  let e := beAt frame 12 2
  let g := t.getPrt n
  e != 0x88E5 && (List.range 8).any (fun k =>
    let v := Tab.get 0 g.bypass k
    bitAt v 16 && fld v 15 0 == e && (!bitAt v 17 || beAt frame 0 6 / 16 == 0x0180C200000))

/-- A denied bypass: counter and event 0x0201 (02 Table 02-23). -/
def bypassDenied (n rule : Nat) (frame : Bytes) (d : Dev) : Dev :=
  eventOnce 0x0201 n 1 (be 1 n ++ fit 2 (sub_ frame 12 2) ++ be 2 rule) (portCount n (if isCipher n then 11 else 2) d)

/-! ### Pattern load checks (06 Table 06-9, rows 2 to 7) -/

/-- Row 4: a VALID node is malformed. -/
def patNodeBad (img : Bytes) (n : Nat) : Bool :=
  let r := patNode img n
  let okNext := fun v => v == 16 || decide (v < patNodes img)
  bitAt (byteAt r 0) 0 &&
    (decide (fld (byteAt r 1) 6 0 > 64) || fld (byteAt r 6) 1 0 == 3
      || decide (fld (byteAt r 5) 5 0 + fld (byteAt r 6) 1 0 > 64)
      || (List.range 4).any (fun x => decide (byteAt r (33 + 4 * x) > 16) || decide (byteAt r (32 + 4 * x) + byteAt r (33 + 4 * x) > 64)
           || decide (byteAt r (34 + 4 * x) + byteAt r (33 + 4 * x) > 32))
      || !okNext (fld (byteAt r 7) 4 0)
      || (List.range 8).any (fun t => bitAt (byteAt r (10 + 3 * t)) 7 && !okNext (fld (byteAt r (10 + 3 * t)) 4 0)))

/-- Row 5: a profile is malformed. -/
def patProfBad (img : Bytes) (i : Nat) : Bool :=
  let p := patProf img i
  let w := fld (byteAt p 8) 3 0
  let sel := fld (byteAt p 1) 1 0
  decide (fld (byteAt p 0) 3 0 ≥ patNodes img) || sel == 3 || decide (fld (byteAt p 5) 4 0 > 26)
    || (sel == 1 && (w == 0 || decide (w > 12))) || decide (fld (leAt p 6 2) 7 0 + w > 256)
    || decide (fld (leAt p 10 2) 11 0 > fld (leAt p 12 2) 11 0)

/-- Row 6: a VALID rule is malformed. -/
def patRuleBad (img : Bytes) (i : Nat) : Bool :=
  let r := patRule img i
  let a := fld (byteAt r 72) 2 0
  bitAt (byteAt r 72) 7 && (decide (a ≥ 5) || (a == 0 && !(bitAt (leAt r 68 4) 10 && bitAt (leAt r 64 4) 10)))

/-- The first failing row of 2 to 7; 0 when the image passes. -/
def patCheck (img : Bytes) : Nat :=
  let len := beAt img 8 4
  if beAt img 0 4 ≠ 0x5041544E || byteAt img 4 ≠ 1 || len > img.length
      || beAt img 12 4 + 64 * patNodes img > len || beAt img 16 4 + 576 > len || beAt img 20 4 + 80 * patRules img > len then 2
  else if patNodes img = 0 || patNodes img > 16 || patRules img > 512 then 3
  else if (List.range (patNodes img)).any (patNodeBad img) then 4
  else if (List.range 16).any (patProfBad img) then 5
  else if (List.range (patRules img)).any (patRuleBad img) then 6
  else if (List.range 64).any (fun n => fld (patMap img n) 6 4 != 0) then 7
  else 0

end Sys2Proof.Machine
end

