-- ==== Sys2Proof/Machine/TwinOps.lean ====
section
/-! DEFINITION. Disposition records, frame hashes, digests and divergence (09 R243 to R247). -/

namespace Sys2Proof.Machine

/-- What a disposition record holds beside the frame's port and index (09 Table 09-1). -/
structure Dispo where
  out : Nat
  code : Nat := 0
  chid : Nat := 0
  an : Nat := 0
  slot : Nat := 0
  pnfc : Nat := 0
  slotSum : Nat := 0

/-- The 32 bytes of a disposition record. -/
def Dispo.bytes (x : Dispo) (p idx : Nat) : Bytes :=
  be 8 idx ++ be 1 p ++ be 1 x.out ++ be 2 x.code ++ be 2 x.chid ++ be 1 x.an ++ [0] ++ be 4 x.slot ++ be 8 x.pnfc ++ be 4 x.slotSum

/-- The device is a twin of a compared pair. -/
def isTwin (d : Dev) : Bool := d.mod.mode == .lead || d.mod.mode == .shadow

/-- The hash of frame `i` of a port. -/
def twnHash (t : TwnPort) (i : Nat) : Option Nat := (t.hashes.find? (fun e => e.1 == i)).map (fun e => e.2)

/-- The hashes of a range, when the history holds all of them. -/
def twnHashes (t : TwnPort) (first : Nat) : Nat → Option (List Nat)
  | 0 => some []
  | n + 1 => match twnHash t first, twnHashes t (first + 1) n with
    | some h, some l => some (h :: l)
    | _, _ => none

/-- The hashes of a range, up to the first frame that has none. -/
def twnPrefix (t : TwnPort) (first : Nat) : Nat → List Nat
  | 0 => []
  | n + 1 => match twnHash t first with
    | some h => h :: twnPrefix t (first + 1) n
    | none => []

/-- The digest of frame hashes (09 R244). -/
def digestOf (l : List Nat) : Bytes := shake256 ((l.map (be 8)).flatten) 16

/-- PAIRMODE of TWN_CFG (09 Table 09-12); 3 is taken as 0. -/
def pairMode (d : Dev) : Nat := if fld d.twn.cfg 1 0 = 3 then 0 else fld d.twn.cfg 1 0

/-! ### The pair's messages (09 R236, R244, R249; layouts of log entry 16) -/

/-- A digest of frames `first` and on, with its fingerprints during a hunt. -/
def digestMsg (p first : Nat) (l : List Nat) (fps : Bool) : Bytes :=
  be 1 p ++ be 10 first ++ be 2 l.length ++ digestOf l ++ (if fps then (l.map (fun h => be 4 (h / 2 ^ 32))).flatten else [])

/-- RESYNC, kind 0: the offset that the shadow reports. -/
def offsetMsg (p : Nat) (o : Int) : Bytes := be 1 0 ++ be 1 p ++ be 8 (twos 64 o)

/-- Bytes of a long RESYNC message in payloads of at most 2,016: all but the last of kind `part`, the last of kind `last` (09 R263). -/
def resyncParts (part last : Nat) (hdr b : Bytes) : List Bytes :=
  let l := pieces 2013 b
  l.dropLast.map (fun x => be 1 part ++ hdr ++ x) ++ [be 1 last ++ hdr ++ l.getLastD []]

/-- RESYNC, kinds 3 and 1: the lead's resync state of a port, 11 bytes a channel. -/
def resyncMsgs (p : Nat) (l : List (Nat × Nat × Nat)) : List Bytes :=
  resyncParts 3 1 (be 1 p) (l.map (fun x => be 2 x.1 ++ be 1 x.2.1 ++ be 8 x.2.2)).flatten

/-- RESYNC, kind 2: the offer of a compared pair: serial sought, own serial, SIDE, TCK_DPVER, role (0 LEAD, 1 SHADOW), and whether it answers one. -/
def offerMsg (answer : Bool) (d : Dev) : Bytes :=
  be 1 2 ++ be 8 d.twn.partner ++ be 8 d.mod.fuses.serial ++ be 1 (ownSide d) ++ be 2 dpVer
    ++ be 1 (if d.mod.mode = .lead then 0 else if d.mod.mode = .shadow then 1 else 2) ++ be 1 answer.toNat

/-- Offer a compared pair over path A (09 R236). -/
def sendOffer (answer : Bool) (d : Dev) : Dev := pathSend (some (6, (d.getHp 6).nbr)) 8 0 (offerMsg answer d) d

/-- The device offers a pair when PAIRMODE is 1, it is in LEAD or SHADOW, and it has none. -/
def offerPair (d : Dev) : Dev := if pairMode d = 1 && isTwin d && d.twn.pair != 1 then sendOffer false d else d

/-- A slice of the port is FAULTED or retired: the twin sends no batches for it (15 R420). -/
def portSliceDown (d : Dev) (p : Nat) : Bool := (portSlices d.tab p).any (sliceDown d)

/-- Send a digest of a range, with its fingerprints during a hunt. -/
def sendDigest (p first : Nat) (l : List Nat) (d : Dev) : Dev :=
  let t := d.getTwn p
  if t.sliceFault || portSliceDown d p then d else twinSend 6 (digestMsg p first l t.hunt) d

/-- The shadow has left the session; its next record may carry any RSEQ. -/
def unjoin (d : Dev) : Dev := { d with twn := { d.twn with joined := false, rejoin := false, rseqFree := true, joinBuf := [] } }

/-- The shadow gives up and starts a rejoin: every port is fenced, and it offers itself to the lead anew (09 R250, R252). -/
def giveUp (p reason : Nat) (d : Dev) : Dev :=
  if d.mod.mode ≠ .shadow then d
  else
    let d := event 0x0903 3 (be 1 p ++ be 1 reason) (twnCount 3 d)
    let d := unjoin (each (List.range 64) (fun n d => d.updTwn n (fun t => { t with state := 1, resync := none, resyncSt := none, resyncPart := [], waiting := [] })) d)
    offerPair (twnSet (fun t => { t with pair := 0, diverged := [] }) d)

/-- The fenced ports are not compared; the lead takes a port that its shadow has fenced for such a one (09 R245). -/
def notCompared (p : Nat) (d : Dev) : Bool := portFenced d p || (d.getTwn p).sliceFault || portSliceDown d p || (d.getTwn p).hunt

/-- A divergence of this millisecond is noted; more than eight ports within 100 microseconds make the shadow give up (09 R250; the model's
clock counts milliseconds, log entry 57). -/
def noteDiverged (p : Nat) (d : Dev) : Dev :=
  let now := d.evr.optime
  let l := (now, p) :: d.twn.diverged.filter (fun x => x.1 == now && x.2 != p)
  let d := { d with twn := { d.twn with diverged := l } }
  if 8 < l.length then giveUp 0xFF 2 d else d

/-- Divergence on a port: counted and recorded; the shadow fences the port and hunts, the lead sends its fingerprints (09 R245, R247, R249). -/
def diverge (p first : Nat) (notify : Bool) (d : Dev) : Dev :=
  if notCompared p d then d
  else
    let d := event 0x0901 3 (be 1 p ++ be 6 first) (twnCount 0 d)
    let d := if notify then twinSend 7 (mismatchMsg p first false) d else d
    if d.mod.mode = .shadow then noteDiverged p (d.updTwn p (fun t => { t with state := 2, waiting := [] }))
    else d.updTwn p (fun t => { t with hunt := true, waiting := [] })

/-- How a partner digest stands: `none` it waits, otherwise whether it was compared and agreed. -/
inductive Compare where
  | wait | skip | same | differ
  deriving DecidableEq

/-- Received slot frames of a Slot-mode cipher port are numbered by their FC, above every frame index: a stream of batches of their own (09 R243
and R244 give them a record and no index; DESIGN CHOICE, log entry 53). -/
def rxStream : Nat := 2 ^ 72

/-- The index after the last frame of the stream of index `i` that the port has passed. -/
def streamEnd (p i : Nat) (d : Dev) : Nat :=
  if i < rxStream then (d.getTck p).admitted
  else ((d.getTwn p).hashes.find? (fun e => decide (rxStream ≤ e.1))).elim 0 (fun e => e.1 + 1)

/-- Compare a partner digest with the twin's own frames (09 R245). -/
def compareDigest (p : Nat) (x : PartnerDigest) (d : Dev) : Compare :=
  let t := d.getTwn p
  let a := streamEnd p x.first d
  let verdict := fun (b : Bytes) => if b = x.digest then Compare.same else Compare.differ
  if a < x.first + x.count then .wait
  else if x.count = 256 then
    match t.digests.find? (fun e => e.1 == x.first / 256) with
    | some e => verdict e.2
    | none => if t.digests.any (fun e => decide (e.1 > x.first / 256) && decide (rxStream ≤ x.first) == decide (rxStream / 256 ≤ e.1)) then .skip else .wait
  else
    match twnHashes t x.first x.count with
    | some l => verdict (digestOf l)
    | none => if t.hashes.any (fun e => decide (e.1 ≥ x.first + 4096) && decide (rxStream ≤ x.first) == decide (rxStream ≤ e.1)) then .skip else .wait

/-- Act on a partner digest; the flag says that it goes on waiting. -/
def settleDigest (p : Nat) (x : PartnerDigest) (d : Dev) : Bool × Dev :=
  match compareDigest p x d with
  | .wait => (true, d)
  | .skip => (false, twnCount 1 d)
  | .same => (false, d)
  | .differ => (false, diverge p x.first true d)

/-- Compare every waiting digest of a port that can be compared now. -/
def settleWaiting (p : Nat) (d : Dev) : Dev :=
  (d.getTwn p).waiting.foldl (fun d x =>
    let r := settleDigest p x d
    if r.1 then r.2 else r.2.updTwn p (fun t => { t with waiting := t.waiting.filter (fun y => y != x) })) d

/-- The newest `n` entries of each stream of a history. -/
def keepNewest {α : Type} (n : Nat) (l : List (Nat × α)) : List (Nat × α) :=
  (l.filter (fun e => decide (rxStream / 256 ≤ e.1))).take n ++ (l.filter (fun e => decide (e.1 < rxStream / 256))).take n

/-- The first index of a partner digest that is compared on the port, in its stream (log entry 72). -/
def comparedFrom (p first : Nat) (d : Dev) : Nat := if first < rxStream then (d.getTwn p).cmpFrom else (d.getTwn p).cmpRx

/-- Close a batch once every frame of it has its hash: the digest is stored and sent (09 R244). -/
def closeBatch (p b : Nat) (d : Dev) : Dev :=
  let t := d.getTwn p
  if streamEnd p (256 * b) d < 256 * (b + 1) || t.digests.any (fun e => e.1 == b) then d
  else match twnHashes t (256 * b) 256 with
    | none => d
    | some l => sendDigest p (256 * b) l (d.updTwn p (fun t => { t with digests := keepNewest 1024 ((b, digestOf l) :: t.digests) }))

/-- The batches that a rise of the admitted count from `old` has completed close, and what waited for them is compared (09 R244, R245). -/
def closePassed (p old : Nat) (d : Dev) : Dev :=
  let a := (d.getTck p).admitted
  if !isTwin d || a = old then d
  else settleWaiting p (each (List.range (a / 256 - old / 256)) (fun i => closeBatch p (old / 256 + i)) d)

/-- Keep the frame hash of a frame passed, close its batch when it is whole, and compare what waited for it (09 R243 to R245). -/
def disposition (p idx fp : Nat) (x : Dispo) (d : Dev) : Dev :=
  if !isTwin d then d
  else
    let h := fp * 2 ^ 32 + crc32c (x.bytes p idx)
    let d := d.updTwn p (fun t => { t with hashes := keepNewest 4096 ((idx, h) :: t.hashes) })
    settleWaiting p (closeBatch p (idx / 256) d)

/-- The record and hash of a received slot frame of a Slot-mode cipher port, kept beside those of the frames it sends (09 R243; log entry 53). -/
def rxRecord (p fc : Nat) (x : Dispo) (d : Dev) : Dev :=
  if !isTwin d then d
  else
    let h := lo32 fc * 2 ^ 32 + crc32c (x.bytes p fc)
    let d := d.updTwn p (fun t => { t with hashes := keepNewest 4096 ((rxStream + fc, h) :: t.hashes) })
    settleWaiting p (closeBatch p ((rxStream + fc) / 256) d)

/-- The fingerprint of a line frame: CRC-32C from the destination address to the FCS (09 R243). The bits of a wrong FCS are free. -/
def fingerprint (bytes : Bytes) (fcsOk : Bool) (d : Dev) : Nat × Dev :=
  if fcsOk then (crc32c (bytes ++ le 4 (crc32 bytes)), d)
  else
    let r := freeBytes 4 d
    (crc32c (bytes ++ r.1), r.2)

end Sys2Proof.Machine
end

