-- ==== Sys2Proof/Machine/TckOps.lean ====
section
/-! DEFINITION. Port progress of the tack component: admitted counts, boundaries, disable, and the hold for learns (08 R215 to R225, 06 R478). -/

namespace Sys2Proof.Machine

/-- The port is a Slot-mode cipher port: configured so and enabled by SLT[p]_CTRL.EN (03 Table 03-11). -/
def slotPort (t : Tables) (n : Nat) : Bool := isCipher n && bitAt (t.getSlt (facePos n)).ctrl 0

/-! ### What a Slot-mode port holds ends (05 R146) -/

/-- Change parts of a Slot-mode port. -/
def updSTx (p : Nat) (f : SltTx → SltTx) (d : Dev) : Dev := d.updSlt p (fun s => { s with tx := f s.tx })
def updSRx (p : Nat) (f : SltRx → SltRx) (d : Dev) : Dev := d.updSlt p (fun s => { s with rx := f s.rx })
def updSDef (p : Nat) (f : SltDef → SltDef) (d : Dev) : Dev := d.updSlt p (fun s => { s with dfc := f s.dfc })
def updPm (p : Nat) (f : Pm → Pm) (d : Dev) : Dev := d.updSlt p (fun s => { s with pm := f s.pm })

/-- References of frames in the line end where no tag follows (03 R87, R89; 05 R146). -/
def dropTags (p : Nat) (d : Dev) : Dev :=
  let d := each (d.getSlt p).tx.refs relRef d
  updSTx p (fun x => { x with refs := [], tags := [], ptag := [] }) d

/-- What a transmitter that has stopped sending keeps (03 R89): its page and swap registers, TXTIMEOUT and the FC it shows (DESIGN CHOICE, log
entry 48). SEQ of the first management segment after the next start is 0 (DESIGN CHOICE, log entry 86). -/
def SltTx.stopped (x : SltTx) : SltTx :=
  { fc := x.fc, act := x.act, req := x.req, reqAt := x.reqAt, reqSent := x.reqSent, commit := x.commit, timeout := x.timeout, swMf := x.swMf,
    acked := x.acked, cvReq := x.cvReq }

/-- The transmitter of a Slot-mode port ends: tags, mapping buffers and messages in progress are gone. -/
def stopTx (p : Nat) (d : Dev) : Dev :=
  let d := dropTags p d
  updSTx p SltTx.stopped (each (d.getSlt p).tx.mapFrames (fun e d => freeMapped e.2 d) d)

/-- The received frames that a Slot-mode port holds end without a verdict: references and cells are released. -/
def freeHeld (p : Nat) (d : Dev) : Dev :=
  let r := (d.getSlt p).rx
  let d := updSRx p (fun r => { r with held := [], heldPort := none, prevIn := false }) d
  let d := each r.held (fun h d => if h.failed then d else freeStage (0x58 + chSlice h.chid) h.cells (relRef h.slot d)) d
  match r.heldPort with | some h => relRef h.slot d | none => d

/-- The same, and no frame stands before the next one. -/
def dropHeld (p : Nat) (d : Dev) : Dev := updSRx p (fun r => { r with hasPrev := false, prevErr := false }) (freeHeld p d)

/-- A Slot-mode cipher port stops sending and receiving: no frame follows to end what its last ones hold (05 R146). -/
def slotSilent (n : Nat) (d : Dev) : Dev :=
  if isCipher n then updSTx (facePos n) (fun x => { x with running := false, portSa := false }) (dropTags (facePos n) (dropHeld (facePos n) d)) else d

/-- A configured port that carries no traffic sends 802.3 idle: a disabled one (12 R348) and a fallow one (15 R422). -/
def idleEmit (n : Nat) (d : Dev) : Dev := if cfgSize (d.tab.getPrt n).cfg = 0 || linesOff d then d else lineEmit n (.idle n) d

/-- A disable has taken effect: the port is disabled and its held frames are gone (08 R225); a view from before the disable's tack goes on
showing the port as a destination (`gateOn`, R216). -/
def finishDisable (p : Nat) (d : Dev) : Dev :=
  let t := d.getTck p
  let d := slotSilent p (each t.rx (fun f d => freeStage (0x60 + p) f.cells d) d)
  let d := d.updTck p (fun t => { t with pstate := .disabled, bounds := [], deferred := [], rx := [], disableTack := none, wasOff := true,
                                         ownReport := none, peerReport := none })
  idleEmit p ((d.updViews (Tables.updPrt p (fun g => { g with enabled := false }))).updTab (Tables.updPrt p (fun g => { g with gateOn := false })))

/-- A later enable or configuration of a port whose disable still waits for its boundary: by the gate's view the port is disabled (05 R143), and
R225 restarts its index as the record is applied, so what the port holds of the old numbering ends here (DESIGN CHOICE, log entry 69). -/
def endDisable (p : Nat) (d : Dev) : Dev := if (d.getTck p).disableTack.isSome then finishDisable p d else d

/-- Boundaries reached and a disable are settled after the admitted count or a boundary moved (08 R224, R225). -/
def settleBounds (p : Nat) (d : Dev) : Dev :=
  let t := d.getTck p
  let next := match t.rx with | f :: _ => f.idx | [] => t.nextIdx
  let adm := Nat.max t.admitted (Nat.min t.horizon next)
  let reached := t.bounds.filter (fun b => decide (b.2 ≤ adm))
  let d := d.updTck p (fun t => { t with
    admitted := adm, bounds := t.bounds.filter (fun b => decide (adm < b.2)),
    effTno := reached.foldl (fun a b => Nat.max a b.1) t.effTno })
  let d := closePassed p t.admitted d
  match t.disableTack with
  | some k => if tackEffective p k d then finishDisable p d else d
  | none => d

/-! ### Resynchronisation at its boundary (09 R249) -/

/-- A transmit channel whose SRC is port `p`; SLOTSRC stands for the slot framer of DST. -/
def chanOfPort (p : Nat) (e : Nat × Chan) : Bool := !isRc e.1 && (if e.2.slotSrc then e.2.dst == p else e.2.src == p)

/-- The state that the lead sends: CURAN and NEXTPN of the current SA of every such channel. -/
def resyncChans (p : Nat) (d : Dev) : List (Nat × Nat × Nat) :=
  (d.tab.chn.filter (chanOfPort p)).filterMap (fun e =>
    (curSlot d.tab e.1 d).map (fun o => (e.1, (d.getChl e.1).curAn, (d.getLive o).nextPn)))

/-- Leave a channel fenced until its next seam to a fresh SA. -/
def fenceChan (chid : Nat) (d : Dev) : Dev :=
  if d.twn.chFence.contains chid then d else { d with twn := { d.twn with chFence := chid :: d.twn.chFence } }

/-- The shadow's SA of a channel takes the lead's AN and NEXTPN; a seam that waits for another AN goes on waiting. -/
def resyncChan (p : Nat) (x : Nat × Nat × Nat) (d : Dev) : Dev :=
  let chid := x.1
  let an := x.2.1
  let pn := x.2.2
  let l := d.getChl chid
  let raise := fun d => match curSlot d.tab chid d with
    | none => fenceChan chid d
    | some o =>
      if (d.getLive o).nextPn > pn then fenceChan chid d
      else softCheck o (d.updLive o (fun y => { y with nextPn := pn }))
  if l.curV && l.curAn == an then raise d
  else match anSlotOf d.tab chid an with
    | none => fenceChan chid d
    | some o =>
      let s := d.tab.getSa o
      if s.state ≠ .basting || !s.att || suiteShut o d then fenceChan chid d
      else
        let same := l.seamKind != 0 && l.nextAn == an
        let d := takeSeam chid (d.getTck p).admitted (d.updChl chid (fun y => { y with nextAn := an, seamSub := if same then y.seamSub else none }))
        raise (if same then d else d.updChl chid (fun y =>
          { y with nextAn := l.nextAn, seamKind := l.seamKind, seamAt := l.seamAt, seamSub := l.seamSub, seamTack := l.seamTack }))

/-- An index moved by an offset. -/
def shiftIdx (i : Nat) (o : Int) : Nat := ((i : Int) + o).toNat

/-- The frame index of a port moves: the frames of the second in progress are summed up to here (04 R129). -/
def pmMove (p new : Nat) (d : Dev) : Dev :=
  if isCipher p && !cfgSlot (d.tab.getPrt p).cfg then
    let old := (d.getTck p).nextIdx
    updPm (facePos p) (fun m => { m with periods := m.periods + (old - m.baseIdx), baseIdx := new }) d
  else d

/-- The port's frames are renumbered, and the base of its index moves with them. -/
def renumber (p : Nat) (o : Int) (d : Dev) : Dev :=
  ((pmMove p (shiftIdx (d.getTck p).nextIdx o) d).updTck p (fun t => { t with
    nextIdx := shiftIdx t.nextIdx o, admitted := shiftIdx t.admitted o, rx := t.rx.map (fun f => { f with idx := shiftIdx f.idx o }) })).updTwn p
    (fun t => { t with base := t.base + o })

/-- The shadow's port index moves to the lead's numbering (09 R249). -/
def rebasePort (p : Nat) (o : Int) (d : Dev) : Dev :=
  (renumber p o d).updTwn p (fun t => { t with state := 0, resync := none, resyncSt := none, resyncPart := [], hashes := [], digests := [], waiting := [], leadFp := [] })

/-- The lead stops its hunt at its own boundary, when the shadow's port is still fenced for a while: digests of frames before the boundary, in
the shadow's old numbering, go on being taken for a fenced port's, and so do those of the received slot frames of the next batch, 256 frames or more,
which is longer than the twins' inputs may lie apart (09 R245, R237; DEDUCED, log entry 72). -/
def leadResynced (p : Nat) (o : Int) (d : Dev) : Dev :=
  let a := (d.getTck p).admitted
  let r := streamEnd p rxStream d
  d.updTwn p (fun t => { t with resync := none, hunt := false, cmpFrom := Nat.max a (shiftIdx a (-o)), cmpRx := (r / 256 + 2) * 256 })

/-- At the boundary of TWN_RESYNC the lead sends its state; the shadow, once it holds that state, rebases, seams and unfences. -/
def resyncStep (p : Nat) (d : Dev) : Dev :=
  let t := d.getTwn p
  match t.resync with
  | none => d
  | some (o, k) =>
    if !tackEffective p k d then d
    else if d.mod.mode = .lead then leadResynced p o (each (resyncMsgs p (resyncChans p d)) (twinSend 8) d)
    else match t.resyncSt with
      | none => d
      | some l => event 0x0902 1 (be 1 p ++ be 4 (twos 32 o)) (twnCount 2 (rebasePort p o (each l (resyncChan p) d)))

/-- The shadow holds a port at the boundary of its TWN_RESYNC until the lead's state has arrived (09 R249). -/
def resyncHold (p : Nat) (d : Dev) : Bool :=
  match (d.getTwn p).resync with
  | some (_, k) => d.mod.mode == .shadow && tackEffective p k d
  | none => false

/-- The clear port serves a Slot-mode port client (03 R78). -/
def servesClient (t : Tables) (n : Nat) : Bool :=
  (portClients t false).any (fun x => clearPortOf x.2 (t.getChn x.2) == some n)
    || (portClients t true).any (fun x => clearPortOf x.2 (t.getChn x.2) == some n)

/-- The Frame-mode cipher ports whose frames can form learns of partition `q` (06 R478). -/
def learnPorts (q : Nat) (d : Dev) : List Nat :=
  ((List.range 32).map (· + 32)).filter (fun n => portEnabled d n && !slotPort d.tab n
    && (facePos n / 4 == q || (facePos n / 8 == q / 2 && (isWide d.tab n || isWide d.tab (q / 2 * 8)))))

/-- The learns of interval `k` of partition `q` are complete (06 R478). -/
def learnsComplete (q k : Nat) (d : Dev) : Bool :=
  decide (k + 1 ≤ d.tck.tno) && (learnPorts q d).all (fun n =>
    tackEffective n (k + 1) d && (d.getPort n).hold.all (fun h => decide (k < h.view)))

/-- A clear port holds a frame whose view takes in learns that are not applied yet (06 R478), or a station command that waits for them (R180). -/
def learnHold (p idx : Nat) (d : Dev) : Bool :=
  let v := viewTack p idx d
  let q := portPart p
  !isCipher p && (d.stn.waiting.any (fun w => w.part == q && decide (w.tack ≤ v)) || decide (2 ≤ v) && (d.stn.learns.any (fun l => l.part == q && decide (l.interval + 2 ≤ v)) || !learnsComplete q (v - 2) d))

/-- A frame at or above the horizon, or held for learns or for a resync state, waits (08 R215). -/
def frameHeld (p idx : Nat) (d : Dev) : Bool := decide ((d.getTck p).horizon ≤ idx) || learnHold p idx d || resyncHold p d

/-- A line frame's disposition, with its fingerprint. -/
def dispose (p idx : Nat) (bytes : Bytes) (fcsOk : Bool) (x : Dispo) (d : Dev) : Dev :=
  if !isTwin d then d
  else
    let r := fingerprint bytes fcsOk d
    disposition p idx r.1 x r.2

/-- Cells of a frame with its FCS (11 R313). -/
def frameCells (b : Bytes) : Nat := ceilDiv (b.length + 4) 256

/-- With its FCS the frame is longer than MAXLEN of its port, in a view of the gated tables (02 R35, Table 02-18). -/
def tooLong (t : Tables) (p : Nat) (f : RxFrame) : Bool := decide (f.bytes.length + 4 > (t.getPrt p).maxFrame)

/-- The frame is too long in its own view, as the records applied so far give it (08 R216; log entry 26). -/
def frameLong (p : Nat) (f : RxFrame) (d : Dev) : Bool := tooLong (tabAt (viewTack p f.idx d) d) p f

/-- A held frame takes its tack-hold cells, or is discarded before classification, its index still counted (08 R223). -/
def chargeFrame (p : Nat) (f : RxFrame) (d : Dev) : Dev :=
  let r := takeCells (0x60 + p) (frameCells f.bytes) d
  match r.1 with
  | some l => r.2.updTck p (fun t => { t with rx := t.rx.map (fun x => if x.idx = f.idx then { x with cells := l } else x) })
  | none =>
    let d := r.2.updTck p (fun t => { t with holdDrop := sat64 (t.holdDrop + 1), rx := t.rx.filter (fun x => x.idx != f.idx) })
    dispose p f.idx f.bytes f.fcsOk { out := 5 } (eventOnce 0x0803 p 2 (be 1 p) d)

/-- Every frame of a port that has become held takes its cells, in index order. -/
def chargeHeld (p : Nat) (d : Dev) : Dev :=
  (d.getTck p).rx.foldl (fun d f => if frameLong p f d || !f.cells.isEmpty || !frameHeld p f.idx d then d else chargeFrame p f d) d

/-- Boundaries, a disable and a resynchronisation of a port are settled, and the frames that they hold are charged. -/
def settlePort (p : Nat) (d : Dev) : Dev := pruneViews (settleBounds p (chargeHeld p (resyncStep p (settleBounds p d))))

/-- A frame of port `p` was fenced (09 R247). -/
def fenceDrop (p : Nat) (d : Dev) : Dev := d.updTwn p (fun t => { t with fenceDrop := sat64 (t.fenceDrop + 1) })

/-! ### The source (08 R218, R220) -/

/-- The tack margin of a port (08 Table 08-1); 0 for a port without a configuration. -/
def margin (t : Tables) (p : Nat) : Nat :=
  if slotPort t p then 4096
  else match cfgSize (t.getPrt p).cfg with
    | 1 => 7441 | 2 => 14881 | 3 => 29762 | 4 => 59524 | 5 => 119048 | _ => 0

/-- The device's own source runs (08 R218); a lead whose lease has lapsed forms no records (09 R257). -/
def sourceOn (d : Dev) : Bool :=
  !d.twn.split && !d.tck.stopped && !d.pins.stopped && (match d.mod.mode with
    | .reset => false | .kiln => false | .zeroised => false | .shadow => false | _ => true)

/-- TCK_STATUS.SOURCE (08 Table 08-6). -/
def sourceCode (d : Dev) : Nat :=
  match d.mod.mode with | .reset => 0 | .kiln => 0 | .zeroised => 0 | .shadow => 2 | _ => 1

/-- The enabled ports, ascending. -/
def enabledPorts (d : Dev) : List Nat := (List.range 64).filter (portEnabled d)

/-- RAISE of a port: its horizon and its highest horizon (08 Table 08-5). -/
def raiseHorizon (p v : Nat) (d : Dev) : Dev :=
  let d := d.updTck p (fun t =>
    let h := Nat.max t.horizon v
    { t with horizon := h, hmax := some (match t.hmax with | some m => Nat.max m h | none => h) })
  settlePort p d

end Sys2Proof.Machine
end

