-- ==== Sys2Proof/Machine/Frame.lean ====
section
/-! DEFINITION. The Frame-mode path: delineation, classification, transmit queue, protection, receive checks, release (chapters 01, 02 and 08). -/

namespace Sys2Proof.Machine

/-! ### Delineation (01 R15, 02 R35, 08 R223) -/

/-- A port's PCS delineates a frame: `bytes` run from the destination address up to the FCS; `fec` is what its RS decoder has handled since the
frame before. -/
def doDelineated (p : Nat) (bytes : Bytes) (fcsOk : Bool) (fec : FecRun) (d : Dev) : Dev :=
  if linesOff d || cfgSize (d.tab.getPrt p).cfg = 0 then d
  else
    let d := fecCount p fec d
    if !portEnabled d p || slotPort d.tab p then d
    else
      let idx := (d.getTck p).nextIdx
      let f : RxFrame := ⟨idx, bytes, fcsOk, []⟩
      let d := d.updTck p (fun t => { t with nextIdx := t.nextIdx + 1, rx := t.rx ++ [f] })
      if frameLong p f d || !frameHeld p idx d then d else settlePort p (chargeFrame p f d)

/-- FRAME_DELINEATED. -/
def execFrameDelineated (p : Nat) (bytes : Bytes) (fin : FrameEnd) (s : State) : Host.Outcome State Fault Refusal :=
  done s (doDelineated p bytes fin.ok fin.fec)

/-! ### The transmit side up to the queue (02 R52, R60 to R62; 08 R229) -/

/-- A dropped frame: its counter and its disposition. `frameErrors` counts RX_BADTAG and RX_FCSERR from those counters (04 Table 04-3). -/
def dropFrame (p : Nat) (f : RxFrame) (counter : Nat) (d : Dev) : Dev :=
  dispose p f.idx f.bytes f.fcsOk { out := 3, code := 0x500 + 8 * counter } (portCount p counter d)

/-- A frame dropped without a counter of its own. -/
def dropQuiet (p : Nat) (f : RxFrame) (code : Nat) (d : Dev) : Dev := dispose p f.idx f.bytes f.fcsOk { out := 3, code := code } d

/-- A packet client's transmit channel in a view: TYPE 2 in the table of its cipher port (03 Table 03-16). -/
def isPacketClient (t : Tables) (chid : Nat) : Bool :=
  (t.getSlt (facePos (t.getChn chid).dst)).txClient.any (fun e => fld e.2 15 0 == chid && fld e.2 17 16 == 2)

/-- A frame to be protected enters its slice's transmit queue (02 R52). -/
def admitTransmit (t : Tables) (v p : Nat) (f : RxFrame) (chid : Nat) (rule : Nat) (d : Dev) : Dev :=
  let s := chSlice chid
  let c := t.getChn chid
  if sliceDown d s then dropQuiet p f 0 d
  else if isTwin d && (c.slotSrc || c.src != p) then
    dropFrame p f 3 (d.updTck p (fun x => { x with srcDeny := sat64 (x.srcDeny + 1) }))
  else if !c.en || decide (2 ≤ c.kind) || (c.kind == 1 && !isPacketClient t chid) then dropFrame p f 3 d
  else
    let len := f.bytes.length + 4 + (if c.kind = 0 then (if c.txSci then 32 else 24) else 0)
    let n := ceilDiv len 256
    let r := passCells (0x60 + p) (0x40 + s) f.cells n d
    match r.1 with
    | none => dropFrame p f 4 r.2
    | some l => r.2.updSlice s (fun x => { x with txq := x.txq ++ [⟨p, f.idx, v, chid, c.dst, f.bytes, f.fcsOk, rule, l⟩] })

/-- A frame passed in clear to the port of the same number on the other face (02 R60, R62): it holds no cells there; read out of a
tack-hold cell with an uncorrectable error, it ends with an error (log entry 23). -/
def bypassFrame (p : Nat) (f : RxFrame) (rule : Nat) (d : Dev) : Dev :=
  let out := (p + 32) % 64
  let d := portCount p (if isCipher p then 10 else 1) d
  let d := when_ (!isCipher p && !f.fcsOk) (portCount p 5) d
  let ok := f.fcsOk && !badCells f.cells d
  let d := d.updPort out (fun x => { x with rel := x.rel ++ [⟨p, f.idx, none, 0, f.bytes, ok, []⟩] })
  dispose p f.idx f.bytes f.fcsOk { out := 1, code := rule } d

/-- An extracted frame. -/
def extractFrame (p : Nat) (f : RxFrame) (q rule : Nat) (d : Dev) : Dev :=
  dispose p f.idx f.bytes f.fcsOk { out := 2, code := rule } (extract q p rule f.idx false (0x60 + p) f.cells f.bytes d)

/-- A fenced frame is counted and goes no further (09 R247). -/
def fencedFrame (p : Nat) (f : RxFrame) (d : Dev) : Dev := dispose p f.idx f.bytes f.fcsOk { out := 4 } (fenceDrop p d)

/-- A clear port passes a frame on (06 Table 06-1). A frame that the Pattern bypasses towards a Slot-mode cipher port is denied: bypass does
not exist there (03 R80; DEDUCED: log entry 45). -/
def passClear (t : Tables) (v p : Nat) (f : RxFrame) (d : Dev) : Dev :=
  if tooLong t p f then dropQuiet p f 0x568 d
  else if servesClient t p then
    if portFenced d p then fencedFrame p f d else dispose p f.idx f.bytes f.fcsOk { out := 0 } d
  else if portDead d p then dropQuiet p f 0 d
  else
    let r := classifyFrame t p f.bytes (prfCount 2 (some (facePos p / 4)) 1 d)
    let d := r.2
    if portFenced d p then fencedFrame p f d
    else match r.1 with
      | .noRule => dropFrame p f 0 d
      | .drop _ => dropQuiet p f 8 d
      | .extract q rule => extractFrame p f q rule d
      | .bypass rule =>
        if bypassAllowed t p f.bytes && !slotPort t ((p + 32) % 64) then bypassFrame p f rule d
        else dropQuiet p f 0x510 (bypassDenied p rule f.bytes d)
      | .protect c rule => admitTransmit t v p f c rule d

/-! ### The receive side up to the hold (02 R33, R40, R43 to R48) -/

/-- The fields of a SecTAG (02 Tables 02-2 and 02-3). -/
structure SecTag where
  tci : Nat
  sl : Nat
  pn : Nat
  hlen : Nat
  sdlen : Nat

def SecTag.sc (s : SecTag) : Bool := bitAt s.tci 5
def SecTag.es (s : SecTag) : Bool := bitAt s.tci 6
def SecTag.scb (s : SecTag) : Bool := bitAt s.tci 4
def SecTag.e (s : SecTag) : Bool := bitAt s.tci 3
def SecTag.c (s : SecTag) : Bool := bitAt s.tci 2
def SecTag.an (s : SecTag) : Nat := fld s.tci 1 0

/-- Read a SecTAG; `none` when the frame is too short for it, two bytes of secure data and the ICV (02 Table 02-4, Truncation). -/
def readSecTag (b : Bytes) : Option SecTag :=
  let tci := byteAt b 14
  let h := if bitAt tci 5 then 28 else 20
  if b.length < 20 || b.length < h + 18 then none
  else some ⟨tci, byteAt b 15, beAt b 16 4, h, b.length - h - 16⟩

/-- The bad-tag conditions that the SecTAG alone shows (02 Table 02-4). -/
def badTag (s : SecTag) : Bool :=
  bitAt s.tci 7 || (s.es && s.sc) || (s.sc && s.scb) || s.e != s.c || decide (s.sl ≥ 48)
    || (s.sl != 0 && s.sl != s.sdlen) || (s.sl == 0 && decide (s.sdlen < 48))

/-- The member of a merge group that takes a short SCI matched by PEERMACk on port `p` (09 R240). -/
def mergeMember (t : Tables) (c p k : Nat) : Option Nat :=
  let g := (t.getChn c).mgrp
  if g = 0 then some c
  else ((t.chn.filter (fun e => isRc e.1 && chSlice e.1 == chSlice c && e.2.mgrp == g && e.2.src == p)).map (fun e => e.1))[k]?

/-- The receive channel of a frame and the SCI of its IV (02 R43, R41, 01 R18). -/
def findChannel (t : Tables) (p : Nat) (s : SecTag) (b : Bytes) : Option Nat × Option Nat :=
  let g := t.getPrt p
  let look := fun sci => (sciFind t.sciCipher sci).bind (fun i => (Tab.get none t.sciCipher i).map (fun e => e.chid))
  if s.scb then (none, none)
  else if s.sc then
    let sci := beAt b 20 8
    match (List.range 4).find? (fun k => bitAt g.fmCtrl k && Tab.get 0 g.peerMac k == sci / 65536) with
    | some k =>
      let c := sci % 65536
      if isRc c && portReaches t p (chSlice c) then (mergeMember t c p k, some sci) else (none, some sci)
    | none => (look sci, some sci)
  else if s.es then
    let sci := beAt b 6 6 * 65536 + 1
    (look sci, some sci)
  else if bitAt g.fmCtrl 4 then (some (fld g.fmCtrl 31 16), none)
  else (none, none)

/-- recover_pn of 02 R47. -/
def recoverPn (wire low : Nat) (xpn : Bool) : Nat :=
  if !xpn then wire else (if wire ≥ lo32 low then low / 2 ^ 32 else low / 2 ^ 32 + 1) * 2 ^ 32 + wire

/-- The lowest acceptable PN of a window (02 R48). -/
def Win.low (w : Win) : Nat := w.top + 1 - w.w

/-- The result of a replay check (02 R48). -/
inductive Replay where
  | late | dup | pass
  deriving DecidableEq, Repr

/-- pre_check, and the test of post_check. -/
def Win.check (w : Win) (pn : Nat) : Replay :=
  if pn < w.low then .late else if pn ≤ w.top && bitAt w.bitmap (pn % 4096) then .dup else .pass

/-- Clear the bits of PNs `a` to `a + n - 1`; `n` is at most 4,096. -/
def clearBits : Nat → Nat → Nat → Nat
  | 0, _, m => m
  | n + 1, a, m => clearBits n (a + 1) (setBit m (a % 4096) false)

/-- mark(pn) and the move of top (02 R48). -/
def Win.mark (w : Win) (pn : Nat) : Win :=
  let m := if pn > w.top then (if pn - w.top > 4096 then 0 else clearBits (pn - w.top - 1) (w.top + 1) w.bitmap) else w.bitmap
  { w with bitmap := setBit m (pn % 4096) true, top := Nat.max w.top pn }

/-- Confidentiality offset of a protection code, at most the secure data (02 Table 02-6). -/
def protOffset (pcode len : Nat) : Nat := Nat.min len (if pcode = 1 then 30 else if pcode = 2 then 50 else 0)

/-- The IV of a frame (02 R41). -/
def frameIv (sa : SaStat) (sci pn : Nat) : Bytes :=
  if isXpn sa.suite then xorB (be 12 sa.salt) (be 4 sa.ssci ++ be 8 pn) else be 8 sci ++ be 4 pn

/-- Count a late or duplicate frame (02 R48). -/
def countReplay (t : Tables) (slot chid : Nat) (r : Replay) (d : Dev) : Dev :=
  saCount slot (if r = .dup && (t.getChn chid).mgrp != 0 then 3 else 2) 1 d

/-- The code of an SA counter in a disposition record: its snapshot offset (02 Table 02-16). -/
def saCode (i : Nat) : Nat := 0x140 + 8 * i

/-- A receive frame fails after its reference was taken. -/
def rxFail (p : Nat) (f : RxFrame) (slot code : Nat) (d : Dev) : Dev := dropQuiet p f code (relRef slot d)

/-- The SA stage of a received frame: references, PN, protection code, pre-check, decryption into cells (02 R33, R40, R46 to R48, R58). -/
def rxSaStage (t : Tables) (v p : Nat) (f : RxFrame) (s : SecTag) (chid slot : Nat) (sci : Option Nat) (d : Dev) : Dev :=
  let sa := t.getSa slot
  let c := t.getChn chid
  let w := match winOf slot sa with | some h => d.getWin h | none => {}
  let d := takeRef slot d
  let pn := recoverPn s.pn w.low (isXpn sa.suite)
  if pn = 0 then rxFail p f slot 0x538 (portCount p 7 d)
  else if s.e == (c.pcode == 3) then rxFail p f slot (saCode 1) (errBlock c.src (saCount slot 1 1 d))
  else match w.check pn with
    | .pass =>
      let n := frameCells f.bytes
      let r := passCells (0x60 + p) (0x48 + chSlice chid) f.cells n d
      match r.1 with
      | none => rxFail p f slot (saCode 6) (saCount slot 6 1 r.2)
      | some l =>
        let iv := frameIv sa (sci.getD c.sci) pn
        let hdr := f.bytes.take s.hlen
        let sd := sub_ f.bytes s.hlen s.sdlen
        let tag := f.bytes.drop (s.hlen + s.sdlen)
        let off := if c.pcode = 3 then sd.length else protOffset c.pcode sd.length
        let ok := gcmTag sa.key iv (hdr ++ sd.take off) (sd.drop off) == tag
        let plain := sd.take off ++ gcmCrypt sa.key iv (sd.drop off)
        r.2.updPort p (fun x => { x with hold := x.hold ++ [⟨f.idx, v, f.bytes, chid, slot, pn, plain, ok, true, s.e, s.sdlen, l⟩] })
    | x => rxFail p f slot (saCode 2) (countReplay t slot chid x d)

/-- The SCI stage of a received 0x88E5 frame (02 R33, R43, R46). An SA that has no window, because its channel had another KIND when the SA was
attached, is none in use: DESIGN CHOICE (log entry 66). -/
def passMacsec (t : Tables) (v p : Nat) (f : RxFrame) (d : Dev) : Dev :=
  match readSecTag f.bytes with
  | none => dropFrame p f 7 d
  | some s =>
    if badTag s then dropFrame p f 7 d
    else
      let r := findChannel t p s f.bytes
      match r.1 with
      | none => dropFrame p f 8 d
      | some chid =>
        let c := t.getChn chid
        if !isRc chid || !portReaches t p (chSlice chid) || !c.en || c.kind != 0 then dropFrame p f 8 d
        else if isTwin d && c.src != p then dropFrame p f 8 (d.updTck p (fun x => { x with srcDeny := sat64 (x.srcDeny + 1) }))
        else if sliceDown d (chSlice chid) then dropQuiet p f 0 d
        else
          match anSlotOf t chid s.an with
          | some slot =>
            if (t.getSa slot).state = .active && (winOf slot (t.getSa slot)).isSome then rxSaStage t v p f s chid slot r.2 d
            else noSa chid s.an d
          | none => noSa chid s.an d
where
  /-- RX_NOTUSINGSA and PRT[n]_LASTNOSA (02 R46, Table 02-20). -/
  noSa (chid an : Nat) (d : Dev) : Dev :=
    dropFrame p f 9 (d.updPort p (fun x => if x.noSaValid then x else { x with noSaChid := chid, noSaAn := an, noSaValid := true }))

/-- A Frame-mode cipher port passes a frame on (06 Table 06-1). -/
def passCipher (t : Tables) (v p : Nat) (f : RxFrame) (d : Dev) : Dev :=
  if tooLong t p f then dropFrame p f 13 d
  else if portDead d p then dropQuiet p f 0 d
  else if !f.fcsOk then dropFrame p f 12 d
  else
    let d := prfCount 3 (some (facePos p / 4)) 1 d
    if beAt f.bytes 12 2 = 0x88E5 then passMacsec t v p f d
    else
      let r := classifyFrame t p f.bytes d
      let d := r.2
      match r.1 with
      | .noRule => dropFrame p f 6 d
      | .protect _ _ => dropFrame p f 6 d
      | .drop _ => dropQuiet p f 8 d
      | .extract q rule => extractFrame p f q rule d
      | .bypass rule =>
        if !bypassAllowed t p f.bytes then dropQuiet p f 0x558 (bypassDenied p rule f.bytes d)
        else if portFenced d p then fencedFrame p f d
        else bypassFrame p f rule d

/-- The cells that a frame no longer needs leave the tack hold: the others have passed to its next stage (11 R313). -/
def leaveHold (p : Nat) (f : RxFrame) (d : Dev) : Dev := freeCells (0x60 + p) (f.cells.filter (fun c => ownsCell (0x60 + p) c d)) d

/-- A frame below its port's horizon is passed on, under its view (08 R215, R216). -/
def doFramePassed (p : Nat) (d : Dev) : Dev :=
  match (d.getTck p).rx with
  | [] => d
  | f :: rest =>
    if !portEnabled d p || frameHeld p f.idx d then d
    else
      let v := viewTack p f.idx d
      let t := tabAt v d
      let off := match (d.getTck p).disableTack with | some k => decide (k ≤ v) | none => false
      let d := d.updTck p (fun x => { x with rx := rest, admitted := f.idx + 1, got := x.got + 1 })
      let d := if off then d else if isCipher p then passCipher t v p f d else passClear t v p f d
      settlePort p (leaveHold p f d)

/-- FRAME_PASSED. -/
def execFramePassed (p : Nat) (s : State) : Host.Outcome State Fault Refusal := done s (doFramePassed p)

/-! ### Channel, SA and protect stages (02 R30 to R32, R42, R53; 05 R148, R149, R152) -/

/-- A kind 1 seam is due for the frame that would take the old SA's next PN (05 R148). -/
def seamDue (t : Tables) (chid view : Nat) (d : Dev) : Bool :=
  let l := d.getChl chid
  if l.seamKind = 0 || view < l.seamTack then false
  else if l.seamKind = 3 then true
  else if l.seamKind ≠ 1 then false
  else match curSlot t chid d with
    | none => true
    | some o =>
      let x := d.getLive o
      (d.tab.getSa o).state != .active || decide (x.nextPn ≥ l.seamAt) || decide (x.nextPn ≥ x.hardPn) || x.limHit

/-- An SA reached its hard limit: LIMHIT, and it drains unless a kind 1 seam waits on its channel (05 R152). -/
def hardStop (slot chid : Nat) (d : Dev) : Dev :=
  let d := setLimHit slot d
  if (d.getChl chid).seamKind = 1 || (d.tab.getSa slot).state ≠ .active then d else startDrain slot 0 d

/-- A limit change has brought HARDPN down to the NEXTPN of an ACTIVE SA, or NEXTPN up to it: the SA stops at its next frame (05 R151, R152). -/
def stopAtLimit (t : Tables) (slot chid : Nat) (d : Dev) : Dev :=
  let l := d.getLive slot
  if (t.getSa slot).state = .active && decide (l.hardPn ≤ l.nextPn) && !l.limHit then hardStop slot chid d else d

/-- A transmit frame takes its PN and a reference (02 R42, 05 R146, R152): the slot, AN and PN, or `none` when it is dropped. No frame takes
PN 0, which an SA attached while its channel had another KIND may still hold: DESIGN CHOICE (log entry 66). -/
def takePn (chid view idx : Nat) (d : Dev) : Option (Nat × Nat × Nat) × Dev :=
  let d := match curSlot (tabAt view d) chid d with | some o => stopAtLimit (tabAt view d) o chid (applyDueLimits o view d) | none => d
  let d := if seamDue (tabAt view d) chid view d then takeSeam chid idx d else d
  match curSlot (tabAt view d) chid d with
  | none => (none, d)
  | some slot =>
    let st := ((tabAt view d).getSa slot).state
    let l := d.getLive slot
    if st = .draining || st = .spent then (none, saCount slot 4 1 d)
    else if st ≠ .active || l.nextPn = 0 then (none, d)
    else if l.nextPn ≥ l.hardPn || l.limHit then (none, saCount slot 4 1 (hardStop slot chid d))
    else
      let d := d.updLive slot (fun x => { x with nextPn := x.nextPn + 1, refs := x.refs + 1, lastPn := some x.nextPn })
      let d := softCheck slot d
      let d := if l.nextPn + 1 ≥ l.hardPn then hardStop slot chid d else d
      (some (slot, (d.getChl chid).curAn, l.nextPn), d)

/-- The SecTAG with the addresses before it (02 R30 to R32). -/
def secTagBytes (c : Chan) (b : Bytes) (an pn : Nat) : Bytes :=
  let sd := b.length - 12
  let ec := if c.pcode = 3 then 0 else 12
  b.take 12 ++ be 2 0x88E5 ++ be 1 (c.txSci.toNat * 32 + ec + an) ++ be 1 (if sd < 48 then sd else 0) ++ be 4 (lo32 pn)
    ++ (if c.txSci then be 8 c.sci else [])

/-- A protected frame without FCS (02 R30, R39, R41). -/
def protectFrame (c : Chan) (sa : SaStat) (b : Bytes) (an pn : Nat) : Bytes :=
  let hdr := secTagBytes c b an pn
  let sd := b.drop 12
  let off := if c.pcode = 3 then sd.length else protOffset c.pcode sd.length
  let r := gcmSeal sa.key (frameIv sa c.sci pn) (hdr ++ sd.take off) (sd.drop off)
  hdr ++ sd.take off ++ r.1 ++ r.2

/-- The Frame-mode frames for cipher port `p` in the transmit queue of slice `s`, the oldest first. -/
def jobsFor (p s : Nat) (d : Dev) : List TxJob :=
  (d.getSlice s).txq.filter (fun j => j.dst == p && (((tabAt j.view d).getChn j.chid).kind == 0))

/-- The next frame for a cipher port out of the two queues of its pair of slices, whose channels may name it (01 R12). The frames of one
source port leave in their order (R16): the second slice's head goes first when that slice holds an earlier frame of the first head's port. -/
def nextJob (p : Nat) (d : Dev) : Option (Nat × TxJob) :=
  let s0 := facePos p / 8 * 2
  match jobsFor p s0 d, jobsFor p (s0 + 1) d with
  | [], [] => none
  | a :: _, [] => some (s0, a)
  | [], b :: _ => some (s0 + 1, b)
  | a :: _, b :: bs => if (b :: bs).any (fun j => j.src == a.src && decide (j.idx < a.idx)) then some (s0 + 1, b) else some (s0, a)

/-- Remove a job from its slice's queue. -/
def popJob (s : Nat) (j : TxJob) (d : Dev) : Dev := d.updSlice s (fun x => { x with txq := x.txq.erase j })

/-- A job is dropped before it takes a PN: its cells are freed. -/
def dropJob (s : Nat) (j : TxJob) (d : Dev) : Dev := freeStage (0x40 + s) j.cells d

/-- A queued frame moves into the channel, SA and protect stages (02 R53), under its own view of the cipher port (08 R216, R231); a frame of
a port that is fenced takes no PN (09 R247). A frame longer than the cipher port's MAXLEN is ended with an error: DESIGN CHOICE, MAXLEN - 4
bytes of it leave (02 R55 gives no length; log entry 46). -/
def doDequeue (p : Nat) (d : Dev) : Dev :=
  if decide ((d.getPort p).egress.length > 1) then d
  else match nextJob p d with
    | none => d
    | some (s, j) =>
      let t := tabAt j.view d
      let c := t.getChn j.chid
      let d := popJob s j d
      if portFenced d j.src then
        pruneViews (dispose j.src j.idx j.bytes j.fcsOk { out := 4 } (fenceDrop j.src (dropJob s j d)))
      else if !(t.getPrt p).gateOn || portDead d p || slotPort t p then
        pruneViews (dispose j.src j.idx j.bytes j.fcsOk { out := 3 } (dropJob s j d))
      else if d.twn.chFence.contains j.chid && !seamDue t j.chid j.view d then
        pruneViews (dispose j.src j.idx j.bytes j.fcsOk { out := 4 } (fenceDrop j.src (dropJob s j d)))
      else
        let r := takePn j.chid j.view j.idx d
        let d := match r.1 with
          | none => dispose j.src j.idx j.bytes j.fcsOk { out := 3, code := 0x518 } (portCount j.src 3 (dropJob s j r.2))
          | some (slot, an, pn) =>
            let sa := r.2.tab.getSa slot
            let b := protectFrame c sa j.bytes an pn
            let long := decide (b.length + 4 > (t.getPrt p).maxFrame)
            let d := prfCount 4 (some s) 1 r.2
            let n := j.bytes.length - 12
            let d := if long || !j.fcsOk then d
              else if c.pcode = 3 then saCount slot 2 n (saCount slot 0 1 d) else saCount slot 3 n (saCount slot 1 1 d)
            let d := d.updPort p (fun x => { x with egress := x.egress ++
              [⟨slot, j.chid, pn, if long then b.take ((t.getPrt p).maxFrame - 4) else b, long || !j.fcsOk, j.src, j.idx, !j.fcsOk, long, j.cells⟩] })
            dispose j.src j.idx j.bytes j.fcsOk { out := 0, code := j.rule, chid := j.chid, an := an, slot := slot, pnfc := pn } d
        pruneViews d

/-- TRANSMIT_QUEUE_DEQUEUE. -/
def execTransmitQueueDequeue (p : Nat) (s : State) : Host.Outcome State Fault Refusal := done s (doDequeue p)

/-- The ICV of the head of a port's egress stage leaves: the frame is sent, or ended with an error, by an uncorrectable error of one of its
cells too (02 R55, 05 R146, 11 R311). -/
def doIcvEmitted (p : Nat) (d : Dev) : Dev :=
  match (d.getPort p).egress with
  | [] => d
  | f :: rest =>
    let d := d.updPort p (fun x => { x with egress := rest })
    let d := when_ f.fcsErr (portCount f.clearPort 5) d
    let d := when_ f.tooLong (saCount f.slot 5 1) d
    let d := if !portEnabled d p then idleEmit p d else if portFenced d p then lineEmit p (.idle p) (fenceDrop p d)
      else lineEmit p (.frame p f.bytes (!f.err && !badCells f.cells d)) d
    freeStage (0x40 + chSlice f.chid) f.cells (relRef f.slot d)

/-- ICV_EMITTED. -/
def execIcvEmitted (p : Nat) (s : State) : Host.Outcome State Fault Refusal := done s (doIcvEmitted p)

/-! ### Post-check and release (02 R48, R49, R59; 06 R175, R176) -/

/-- A lost learn: its counter, and event 0x0602 for the first of the sweep period in the partition (06 Table 06-14). -/
def learnLost (q why : Nat) (d : Dev) : Dev :=
  let d := stnCount q (if why = 1 then 2 else 3) 1 d
  if Tab.get false d.stn.lostMark q then d
  else event 0x0602 2 (be 1 q ++ be 1 why) { d with stn := { d.stn with lostMark := Tab.set false d.stn.lostMark q true } }

/-- An accepted frame on a learning profile forms a learn of its interval (06 R175, R176). -/
def formLearn (t : Tables) (p : Nat) (h : HoldFrame) (d : Dev) : Dev :=
  let dst := (t.getChn h.chid).dst
  let mac := beAt h.bytes 6 6
  match portProfile (viewImage t d) dst with
  | none => d
  | some (_, prof) =>
    if !bitAt (byteAt prof 4) 0 || bitAt mac 40 || mac = 0 then d
    else
      let dom := fld (leAt prof 2 2) 11 0
      let c := h.chid % 32768
      let mine := d.stn.learns.filter (fun l => l.port == p && l.interval == h.view)
      if mine.any (fun l => l.domain == dom && l.mac == mac && l.chid == c) then d
      else if mine.length ≥ 1024 then learnLost (portPart dst) 1 d
      else { d with stn := { d.stn with learns := d.stn.learns ++ [⟨p, h.view, h.idx, portPart dst, dom, mac, c⟩] } }

/-- The frame that a verified frame becomes: padded to 60 bytes before its FCS (02 R34). -/
def clearFrame (h : HoldFrame) : Bytes :=
  let b := h.bytes.take 12 ++ h.plain
  b ++ zeros (60 - b.length)

/-- A held frame fails after its cells were taken: they are freed, and its reference ends. -/
def holdFail (p : Nat) (h : HoldFrame) (code : Nat) (d : Dev) : Dev :=
  let d := freeStage (0x48 + chSlice h.chid) h.cells (relRef h.slot d)
  dispose p h.idx h.bytes true { out := 3, code := code } d

/-- The tag comparison of the oldest held frame of a port ends (02 R48); a cell with an uncorrectable error fails it too (11 R311).
A port that has gone fallow since discards the frame, with no window, count or learn (15 R422). -/
def doIcvVerified (p : Nat) (d : Dev) : Dev :=
  match (d.getPort p).hold with
  | [] => d
  | h :: rest =>
    let t := tabAt h.view d
    let sa := t.getSa h.slot
    let s := chSlice h.chid
    let d := d.updPort p (fun x => { x with hold := rest })
    let win := winOf h.slot sa
    let w := match win with | some i => d.getWin i | none => {}
    let d :=
      if portDead d p then holdFail p h 0 d
      else if !h.tagOk || badCells h.cells d then holdFail p h (saCode 1) (errBlock (t.getChn h.chid).src (saCount h.slot 1 1 d))
      else match w.check h.pn with
        | .pass =>
          let dst := (t.getChn h.chid).dst
          let d := match win with | some i => d.updWin i (fun x => x.mark h.pn) | none => d
          let d := saCount h.slot (if h.enc then 5 else 4) h.octets (saCount h.slot 0 1 (relRef h.slot d))
          let d := formLearn t p h (prfCount 5 (some s) 1 d)
          let acc := fun out d => dispose p h.idx h.bytes true { out := out, chid := h.chid, an := sa.an, slot := h.slot, pnfc := h.pn } d
          let free := fun d => freeStage (0x48 + s) h.cells d
          if portFenced d p || d.twn.chFence.contains h.chid then acc 4 (fenceDrop p (free d))
          else if !portEnabled d dst || portDead d dst then acc 0 (free d)
          else
            let r := moveCells (0x48 + s) (0x50 + s) h.cells d
            if r.1 then
              acc 0 (r.2.updPort dst (fun x => { x with rel := x.rel ++ [⟨p, h.idx, some h.chid, h.slot, clearFrame h, true, h.cells⟩] }))
            else dispose p h.idx h.bytes true { out := 3, code := 0x570 } (portCount dst 14 (free r.2))
        | x => holdFail p h (saCode (if x = .dup && (t.getChn h.chid).mgrp != 0 then 3 else 2)) (countReplay t h.slot h.chid x d)
    pruneViews d

/-- ICV_VERIFIED. -/
def execIcvVerified (p : Nat) (s : State) : Host.Outcome State Fault Refusal := done s (doIcvVerified p)

/-- The shadow sends idle on a clear port in place of received traffic (09 R238). -/
def suppressed (p : Nat) (d : Dev) : Bool := d.mod.mode == .shadow && !bitAt d.twn.cfg 2 && !isCipher p

/-- The oldest released or bypassed frame leaves its port (01 R16, 02 R62, 09 R238); one of which a cell has an uncorrectable error fails as at
a tag failure: InPktsNotValid, and idle in its place (11 R311, 02 R63). -/
def doEgressSend (p : Nat) (d : Dev) : Dev :=
  match (d.getPort p).rel with
  | [] => d
  | f :: rest =>
    let d := d.updPort p (fun x => { x with rel := rest })
    let bad := badCells f.cells d
    let d := match f.chid with | some c => freeStage (0x50 + chSlice c) f.cells d | none => d
    if !portEnabled d p || portDead d p then idleEmit p d
    else if suppressed p d then lineEmit p (.idle p) (d.updTwn p (fun t => { t with suppress := sat64 (t.suppress + 1) }))
    else if portFenced d p then lineEmit p (.idle p) (fenceDrop p d)
    else if bad then lineEmit p (.idle p) (errBlock f.src (saCount f.slot 1 1 d))
    else lineEmit p (.frame p f.bytes f.fcsOk) d

/-- RECEIVE_EGRESS_SEND. -/
def execReceiveEgressSend (p : Nat) (s : State) : Host.Outcome State Fault Refusal := done s (doEgressSend p)

/-- The interim digest of a stream whose last frame passed has index `a - 1`: over the frames of its open batch, up to the first one whose
record is not complete yet (09 R244). -/
def interimOf (p a : Nat) (d : Dev) : Dev :=
  let first := a / 256 * 256
  let l := twnPrefix (d.getTwn p) first (a - first)
  if l.isEmpty then d else sendDigest p first l d

/-- An interim digest of the open batch of a port is sent 2 microseconds after its first frame (09 R244). -/
def doInterimDigest (p : Nat) (d : Dev) : Dev :=
  if !isTwin d || d.twn.pair ≠ 1 then d else interimOf p (streamEnd p rxStream d) (interimOf p (d.getTck p).admitted d)

/-- INTERIM_DIGEST. -/
def execInterimDigest (p : Nat) (s : State) : Host.Outcome State Fault Refusal := done s (doInterimDigest p)

end Sys2Proof.Machine
end

