-- ==== Sys2Proof/Machine/Flags.lean ====
section
/-! DEFINITION. The results of Glonik arithmetic (10 R278, R279, Table 10-4). Glonik has no condition flags: a comparison writes 1 or 0 to a register. -/

namespace Sys2Proof.Machine

/-- 1 when the comparison holds, else 0. -/
def flag (b : Bool) : DWord := if b then 1 else 0

/-- Shifts by rb [5:0]. -/
def sll64 (a b : DWord) : DWord := a <<< (b.toNat % 64)
def srl64 (a b : DWord) : DWord := a >>> (b.toNat % 64)
def sra64 (a b : DWord) : DWord := a.sshiftRight (b.toNat % 64)

/-- High 64 bits of the product, signed or unsigned. -/
def mulh64 (a b : DWord) : DWord := BitVec.ofInt 64 (a.toInt * b.toInt / 2 ^ 64)
def mulhu64 (a b : DWord) : DWord := BitVec.ofNat 64 (a.toNat * b.toNat / 2 ^ 64)

/-- Quotients rounded towards zero; division by zero gives all ones (10 R279). -/
def div64 (a b : DWord) : DWord := if b = 0 then BitVec.allOnes 64 else BitVec.ofInt 64 (a.toInt.tdiv b.toInt)
def divu64 (a b : DWord) : DWord := if b = 0 then BitVec.allOnes 64 else BitVec.ofNat 64 (a.toNat / b.toNat)

/-- Remainders, with the sign of ra; division by zero gives ra. -/
def rem64 (a b : DWord) : DWord := if b = 0 then a else BitVec.ofInt 64 (a.toInt.tmod b.toInt)
def remu64 (a b : DWord) : DWord := if b = 0 then a else BitVec.ofNat 64 (a.toNat % b.toNat)

/-- Minima and maxima. -/
def min64 (a b : DWord) : DWord := if a.toInt ≤ b.toInt then a else b
def max64 (a b : DWord) : DWord := if a.toInt ≤ b.toInt then b else a
def minu64 (a b : DWord) : DWord := if a.toNat ≤ b.toNat then a else b
def maxu64 (a b : DWord) : DWord := if a.toNat ≤ b.toNat then b else a

/-- Leading zero bits, 0 to 64. -/
def clz64 (a : DWord) : DWord := BitVec.ofNat 64 (if a.toNat = 0 then 64 else 63 - a.toNat.log2)

/-- Set bits. -/
def popc64 (a : DWord) : DWord := BitVec.ofNat 64 (popN 64 a.toNat)

/-- The bytes in reverse order. -/
def bswap64 (a : DWord) : DWord := BitVec.ofNat 64 (ofBe (le 8 a.toNat))

/-- `a` with the halfword at bit `lo` replaced (HINS1 to HINS3). -/
def hins64 (a : DWord) (lo imm : Nat) : DWord := BitVec.ofNat 64 (setFld a.toNat lo 16 imm)

end Sys2Proof.Machine
end

