-- ==== Sys2Proof/Machine/Hif.lean ====
section
/-! DEFINITION. The host interface: version, rings, queues, messages, copies, signals, function reset, power state (chapter 13). -/

namespace Sys2Proof.Machine

/-- Any ring, queue or the message ring is enabled. -/
def anyQueueOn (d : Dev) : Bool :=
  d.hif.ring.any (fun e => e.2.en) || d.hif.inj.any (fun e => e.2.en) || d.hif.ext.any (fun e => e.2.en) || d.hif.hmbEn

/-- The highest common major: the device supports major 1 at minor 0 (13 R367). -/
def commonMajor (hostMap : Nat) : Option Nat := if bitAt hostMap 1 then some 1 else none

/-- A write of HIF_HOSTVER (13 R367): it shows that a link that was down has trained again (log entry 79). -/
def doHostver (v : Nat) (d : Dev) : Dev :=
  let d := when_ (d.hif.link == 0) linkTrain d
  if anyQueueOn d then d
  else
    let h := { d.hif with hostVer := fld v 19 0 }
    match commonMajor (fld v 15 0) with
    | some m => { d with hif := { h with maj := m, min := Nat.min 0 (fld v 19 16), valid := true, incompat := false } }
    | none => hostErr 5 { d with hif := { h with maj := 0, min := 0, valid := false, incompat := true } }

/-- HIF_HOSTVER. -/
def execHifHostver (v : Nat) (s : State) : Host.Outcome State Fault Refusal := doneReg s (doHostver v)

/-- A ring halts (13 R368, R378). -/
def haltRing (r cause : Nat) (d : Dev) : Dev :=
  event 0x0D01 2 (be 1 r ++ be 1 cause) (d.updRing r (fun g => { g with halt := true, cause := cause }))

/-- An enabled ring with more descriptors than entries halts (13 R368, Table 13-7). -/
def ringOverrun (r : Nat) (d : Dev) : Dev :=
  let g := d.getRing r
  if g.en && !g.halt && decide ((g.pi + 2 ^ 32 - g.ci) % 2 ^ 32 > 2 ^ fld g.rcfg 4 0) then haltRing r 2 d else d

/-- A write of a ring's RCFG (13 R368). Bits that Table 13-7 does not list are kept and read back: DESIGN CHOICE (log entry 90). -/
def ringCfgWrite (r v : Nat) (d : Dev) : Dev :=
  let g := d.getRing r
  let cfg := v % 2 ^ 31
  if !bitAt v 31 then
    d.updRing r (fun g => { g with rcfg := cfg, en := false, halt := false, cause := 0 })
  else if g.en then d
  else
    let log := fld v 4 0
    if !d.hif.valid || g.rbase % 64 != 0 || g.cbase % 64 != 0 || decide (log < 6) || decide (16 < log) then
      d.updRing r (fun g => { g with rcfg := cfg, cause := 1 })
    else ringOverrun r (d.updRing r (fun g => { g with rcfg := cfg, en := true }))

/-- A write of HIQ[q]_CFG: the enable rules of R368. -/
def injCfgWrite (q v : Nat) (d : Dev) : Dev :=
  let g := d.getInj q
  let cfg := v % 2 ^ 31
  if !bitAt v 31 then d.updInj q (fun g => { g with cfg := cfg, en := false })
  else if g.en then d
  else
    let log := fld v 11 8
    let ok := d.hif.valid && g.base % 16 == 0 && decide (4 ≤ log) && decide (log ≤ 12)
    d.updInj q (fun g => { g with cfg := cfg, en := ok })

/-- A write of HXQ[q]_CFG. -/
def extCfgWrite (q v : Nat) (d : Dev) : Dev :=
  let g := d.getExt q
  let cfg := v % 2 ^ 31
  if !bitAt v 31 then d.updExt q (fun g => { g with cfg := cfg, en := false })
  else if g.en then d
  else
    let log := fld v 11 8
    let ok := d.hif.valid && g.bbase % 8 == 0 && g.cbase % 32 == 0 && decide (4 ≤ log) && decide (log ≤ 12)
    d.updExt q (fun g => { g with cfg := cfg, en := ok })

/-- A write of HMB_CFG. -/
def hmbCfgWrite (v : Nat) (d : Dev) : Dev :=
  let h := d.hif
  let cfg := v % 2 ^ 31
  if !bitAt v 31 then { d with hif := { h with hmbCfg := cfg, hmbEn := false } }
  else if h.hmbEn then d
  else
    let log := fld v 3 0
    { d with hif := { h with hmbCfg := cfg, hmbEn := h.valid && h.hmbBase % 64 == 0 && decide (4 ≤ log) && decide (log ≤ 12) } }

/-- A write of a page's configuration word: pages 0 to 63 rings, 64 to 79 injection, 80 to 95 extraction, 96 the message ring (13 R365, R368). -/
def pageCfgWrite (page v : Nat) (d : Dev) : Dev :=
  if page < 64 then ringCfgWrite page v d
  else if page < 80 then injCfgWrite (page - 64) v d
  else if page < 96 then extCfgWrite (page - 80) v d
  else if page = 96 then hmbCfgWrite v d else d

/-- RING_ENABLE. -/
def execRingEnable (page v : Nat) (s : State) : Host.Outcome State Fault Refusal := doneReg s (pageCfgWrite page (v % 2 ^ 32))

/-- A failed DMA read: error bit and event (13 R378). -/
def dmaFailed (kind q : Nat) (d : Dev) : Dev := event 0x0D02 2 (be 1 kind ++ be 1 q) (hostErr 4 d)

/-- A write of HRG[r]_PI: more descriptors than entries halt the ring (13 R368, Table 13-7). -/
def ringPiWrite (r v : Nat) (d : Dev) : Dev := ringOverrun r (d.updRing r (fun g => { g with pi := v % 2 ^ 32 }))

/-- The ring of a command, in event 0x0D02; 0 for a command of a core (13 Table 13-12). -/
def subRing (b : Sub) : Nat := match b.origin with | .ring r => r | _ => 0

/-- RING_PI_WRITE. -/
def execRingPiWrite (r v : Nat) (s : State) : Host.Outcome State Fault Refusal := doneReg s (ringPiWrite r v)

/-- The frame that stands at an injection queue leaves it: its cells are freed, and a host queue's CI advances (13 R375). -/
def injPop (q : Nat) (d : Dev) : Dev :=
  match (d.getInj q).frames with
  | [] => d
  | f :: rest =>
    let d := each f.cells (queueFree (0xA0 + q)) d
    d.updInj q (fun g => { g with frames := rest, ci := if bitAt g.cfg 7 then g.ci else (g.ci + 1) % 2 ^ 32 })

/-- Count a dropped injected frame. -/
def injDrop (q : Nat) (d : Dev) : Dev := injPop q (d.updInj q (fun g => { g with drop := sat64 (g.drop + 1) }))

/-- The queue's EtherType filter passes the frame; 0x88E5 never passes (13 R376). -/
def injEtype (g : InjQ) (b : Bytes) : Bool :=
  let e := beAt b 12 2
  e != 0x88E5 && (List.range 4).any (fun k => bitAt (Tab.get 0 g.etype k) 16 && fld (Tab.get 0 g.etype k) 15 0 == e)

/-- The frame at the head of queue `q` leaves its port, or is dropped (13 R376); a cell with an uncorrectable error ends it with an error
(log entry 23). -/
def injSend (q : Nat) (d : Dev) : Dev :=
  let g := d.getInj q
  match g.frames with
  | [] => d
  | f :: _ =>
    if bitAt g.cfg 6 then (if f.bytes.length = 0 || decide (f.bytes.length > 16384) then injDrop q d else d)
    else
      let p := fld g.cfg 5 0
      if !injEtype g f.bytes || !portEnabled d p || portDead d p || decide (f.bytes.length < 60) || decide (9724 < f.bytes.length) then injDrop q d
      else injPop q (lineEmit p (.frame p f.bytes (!badCells f.cells d)) d)

/-- The host-owned queue has an entry to read. -/
def injReads (q : Nat) (d : Dev) : Bool :=
  let g := d.getInj q
  !bitAt g.cfg 7 && g.frames.isEmpty && g.pi != g.ci && !d.hif.d3hot

/-- The host-owned queue reads the entry at BASE + 16 x (CI mod size) and then its frame, into cells; fewer bytes than the entry's length are a
failed read (13 R375, R378). -/
def injRead (q : Nat) (f : HostFrame) (fail : Bool) (d : Dev) : Dev :=
  if !injReads q d then d
  else
    let g := d.getInj q
    let b := f.data
    let d := dmaRead (g.base + 16 * (g.ci % 2 ^ fld g.cfg 11 8)) 16 d
    let d := when_ (f.entry.length == 16) (dmaRead (leAt f.entry 0 8) (leAt f.entry 8 2)) d
    if fail || f.entry.length != 16 || b.length != leAt f.entry 8 2 then
      dmaFailed 1 q (d.updInj q (fun g => { g with drop := sat64 (g.drop + 1), ci := (g.ci + 1) % 2 ^ 32 }))
    else
    let n := ceilDiv b.length 256
    let r := takeCells (0xA0 + q) n d
    match r.1 with
    | some l => r.2.updInj q (fun g => { g with frames := [⟨b, l⟩] })
    | none => r.2

/-- INJECTION_FRAME_SEND: queue `q` takes and sends its next frame (R375, R376). -/
def execInjectionFrameSend (q : Nat) (frame : HostFrame) (fail : Bool) (s : State) : Host.Outcome State Fault Refusal :=
  done s (fun d => if (d.getInj q).en then injSend q (injRead q frame fail d) else d)

/-- NOP. -/
def execNop (b : Sub) (s : State) : Host.Outcome State Fault Refusal := done s (complete b 5 stOK [])

/-- MSG_SEND (13 R374). -/
def doMsgSend (b : Sub) (msg : Bytes) (d : Dev) : Dev :=
  let h := leAt msg 0 8
  let c := fld h 9 4
  if fld h 3 0 ≠ 0 || fld h 21 19 ≠ 0 then complete b 5 stBAD_COMMAND [] d
  else if !coreAlive (d.getCore c) then complete b 5 stBAD_DEST [] d
  else
    let r := mailboxPut c (withSrc (messageOf msg) reqHost) d
    complete b 5 (if r.1 then stOK else stBUSY) [] r.2

/-- MSG_SEND. -/
def execMsgSend (b : Sub) (msg : Bytes) (s : State) : Host.Outcome State Fault Refusal := done s (doMsgSend b msg)

/-- The host may reach `n` bytes at a window offset: the checks of R366, with MEC_CFG.LOCK. -/
def hostReach (off n : Nat) (write : Bool) (d : Dev) : Acc :=
  if !d.mem.lock then .blocked else match ddrCheck .host off n write d with | .bus => .blocked | a => a

/-- HIF_COPY (13 R366, R370): `data` are the host bytes read; another length is a failed read. -/
def doHifCopy (b : Sub) (host ddr len dir : Nat) (data : Bytes) (d : Dev) : Dev :=
  if len = 0 || decide (len > 2 ^ 24) || decide (1 < dir) then complete b 5 stBAD_COMMAND [] d
  else if ddr < ddrBase then complete b 5 stMEM_FAULT [] d
  else
    let off := offFrom ddrBase ddr
    match hostReach off len (dir == 0) d with
    | .ok =>
      if dir = 0 then
        let d := dmaRead host len d
        if data.length ≠ len then complete b 5 stDMA_FAULT [] (dmaFailed 2 (subRing b) d)
        else complete b 5 stOK [] (ddrWrite .host off data d).2
      else complete b 5 stOK [] (hostOut (.dma host (getBytes d.mem.ddr off len)) d)
    | a => complete b 5 stMEM_FAULT [] (ddrFail .host off len (dir == 0) a d)

/-- HIF_COPY. -/
def execHifCopy (b : Sub) (host ddr len dir : Nat) (data : Bytes) (s : State) : Host.Outcome State Fault Refusal :=
  done s (doHifCopy b host ddr len dir data)

/-- A write of HIQ[q]_PI: ignored on a core-owned queue (13 R375). -/
def hiqPiWrite (q v : Nat) (d : Dev) : Dev := d.updInj q (fun g => if bitAt g.cfg 7 then g else { g with pi := v % 2 ^ 32 })

/-- HIQ_PI_WRITE. -/
def execHiqPiWrite (q v : Nat) (s : State) : Host.Outcome State Fault Refusal := doneReg s (hiqPiWrite q v)

/-- The device reads `n` posted entries of a queue's buffer ring, at BBASE + 8 x (index mod size) (13 R377). -/
def bufReads (q n : Nat) (d : Dev) : Dev :=
  let g := d.getExt q
  each (List.range n) (fun i d => dmaRead (g.bbase + 8 * ((g.bpi + i) % 2 ^ 32 % 2 ^ fld g.cfg 11 8)) 8 d) d

/-- A write of HXQ[q]_BPI with the addresses of the buffers it posts (13 R377). -/
def hxqBpiWrite (q v : Nat) (bufs : List Nat) (d : Dev) : Dev := (bufReads q bufs.length d).updExt q (fun g => { g with bpi := v % 2 ^ 32, bufs := g.bufs ++ bufs })

/-- HXQ_BPI_WRITE. -/
def execHxqBpiWrite (q v : Nat) (bufs : List Nat) (s : State) : Host.Outcome State Fault Refusal := doneReg s (hxqBpiWrite q v bufs)

/-- A holdoff ends: sources 0 to 63 rings, 64 to 79 extraction queues, 80 the message ring (13 R379). -/
def holdoffEnd (src : Nat) (d : Dev) : Dev :=
  if src < 64 then
    let g := d.getRing src
    let d := d.updRing src (fun g => { g with holdoff := false, sigPend := false })
    if g.sigPend then ringSignal src d else d
  else if src < 80 then
    let g := d.getExt (src - 64)
    let d := d.updExt (src - 64) (fun g => { g with holdoff := false, sigPend := false })
    if g.sigPend then extSignal (src - 64) d else d
  else if src = 80 then
    let p := d.hif.hmbSigPend
    let d := { d with hif := { d.hif with hmbHoldoff := false, hmbSigPend := false } }
    if p then hmbSignal d else d
  else d

/-- MSIX_HOLDOFF_EXPIRY. -/
def execMsixHoldoffExpiry (src : Nat) (s : State) : Host.Outcome State Fault Refusal := done s (holdoffEnd src)

/-- Frames of a queue that the function reset drops, and their cells, with what a Slot-mode port still had of a management message of the queue; a core-owned queue goes on, its DROP at 0 (13 R380). -/
def injFlush (q : Nat) (d : Dev) : Dev :=
  let g := d.getInj q
  if bitAt g.cfg 7 then d.updInj q (fun g => { g with drop := 0 })
  else
    let d := each (List.range 32) (fun p d =>
      if fld (d.tab.getSlt p).ctrl 11 8 = q then d.updSlt p (fun s => { s with tx := { s.tx with mgmt := [], mgmtStarted := false } }) else d) d
    (each g.frames (fun f d => each f.cells (queueFree (0xA0 + q)) d) d).updInj q (fun g => { g with en := false, drop := 0, frames := [] })

/-- A function reset disables every ring; a fetched descriptor is forgotten. -/
def stopRings (d : Dev) : Dev :=
  each (List.range 64) (fun r d => d.updRing r (fun g =>
    { g with en := false, halt := false, cause := 0, reserved := 0, waiting := none, holdoff := false, sigPend := false })) d

/-- A function reset disables every extraction queue of the host; one whose consumer is a core goes on, its DROP at 0. -/
def stopExts (d : Dev) : Dev :=
  each (List.range 16) (fun q d => d.updExt q (fun g =>
    if bitAt g.cfg 0 then { g with drop := 0 } else { g with en := false, drop := 0, bufs := [], holdoff := false, sigPend := false })) d

/-- A function reset disables the message ring and forgets the host's version; completions of earlier commands are discarded, and the
MSI-X table and its pending bits take their reset values as PCI Express defines (13 R380, 16 Table 16-3, log entry 11). -/
def forgetHost (cause : Nat) (h : Hif) : Hif :=
  { h with hmbEn := false, hmbHoldoff := false, hmbSigPend := false, hostVer := 0, maj := 0, min := 0,
           valid := false, incompat := false, discardBelow := h.subno, held := [], msix := [], pba := [],
           link := if cause = 3 then 0 else h.link }

/-- Function-level reset, hot reset or link down (13 R380); after a hot reset the link trains again. -/
def doFunctionReset (cause : Nat) (d : Dev) : Dev :=
  when_ (cause == 2) linkTrain <| event 0x0D03 1 (be 1 cause) (sceOwnerGone reqHost 3 ((stopExts (each (List.range 16) injFlush (stopRings d))).updHif (forgetHost cause)))

/-- FUNCTION_RESET. -/
def execFunctionReset (cause : Nat) (s : State) : Host.Outcome State Fault Refusal := done s (doFunctionReset cause)

end Sys2Proof.Machine
end

