-- ==== Sys2Proof/Machine/Blocks.lean ====
section
/-! DEFINITION. 257-bit blocks: byte places, bit strings, the 802.3 transcoding of 66-bit blocks, idle, error and local-fault blocks, PRBS31. -/

namespace Sys2Proof.Machine

/-! ### Blocks as bits and bytes (03 R74) -/

/-- A block from its F bit and 32 bytes. -/
def mkBlock (f : Bool) (b : Bytes) : Block := BitVec.ofNat 257 (f.toNat * 2 ^ 256 + ofBe (fit 32 b))

/-- Bit b0. -/
def blockF (x : Block) : Bool := x.getMsbD 0

/-- Bytes 0 to 31 of a block. -/
def blockBytes (x : Block) : Bytes := be 32 x.toNat

/-- The bit string of blocks packed into bytes; eight blocks' bits or a multiple fill whole bytes. -/
def packBlocks (l : List Block) : Bytes := be (257 * l.length / 8) (l.foldl (fun a x => a * 2 ^ 257 + x.toNat) 0)

/-- `n` blocks from a bit string held as a number. -/
def cutBlocks : Nat → Nat → List Block
  | 0, _ => []
  | n + 1, v => BitVec.ofNat 257 (v / 2 ^ (257 * n)) :: cutBlocks n v

/-- The blocks of a byte string of 257-bit multiples. -/
def unpackBlocks (b : Bytes) : List Block := cutBlocks (8 * b.length / 257) (ofBe b)

/-- `n` bits of a byte string from bit `off` on, the first bit most significant. -/
def bitsAt (b : Bytes) (off n : Nat) : Nat :=
  let last := ceilDiv (off + n) 8
  ofBe (sub_ b (off / 8) (last - off / 8)) / 2 ^ (8 * last - off - n) % 2 ^ n

/-! ### 66-bit blocks and the transcoding of IEEE 802.3 (log entry 18) -/

/-- A 66-bit block: data or control, and its eight bytes; the first byte of a control block is its type. -/
structure Sub66 where
  data : Bool
  bytes : Bytes
  deriving DecidableEq, Repr

/-- The 64 payload bits in transmission order: each byte least significant bit first. -/
def Sub66.bits (x : Sub66) : List Bool := ((fit 8 x.bytes).map (fun b => (List.range 8).map b.getLsbD)).flatten

/-- Bytes of a bit list, least significant bit first. -/
def bytesOfBits (l : List Bool) : Bytes :=
  (groupsOf 8 (l.length / 8) l).map (fun g => BitVec.ofNat 8 (g.foldr (fun b a => 2 * a + b.toNat) 0))
where
  /-- Cut into groups. -/
  groupsOf (n : Nat) : Nat → List Bool → List (List Bool)
    | 0, _ => []
    | f + 1, l => l.take n :: groupsOf n f (l.drop n)

/-- The block types of 64b/66b coding. -/
def subTypes : List Nat := [0x1E, 0x78, 0x4B, 0x87, 0x99, 0xAA, 0xB4, 0xCC, 0xD2, 0xE1, 0xFF]

/-- The whole block type from its first nibble. -/
def typeOfNibble (n : Nat) : Nat := (subTypes.find? (fun t => t % 16 == n)).getD n

/-- A block from its bits in transmission order. -/
def blockOfBits (l : List Bool) : Block := BitVec.ofNat 257 (l.foldl (fun a b => 2 * a + b.toNat) 0)

/-- Four 66-bit blocks as one 257-bit block. -/
def transcode (l : List Sub66) : Block :=
  let pay := (l.map Sub66.bits).flatten
  if l.all (fun x => x.data) then blockOfBits (true :: pay)
  else
    let c := (l.findIdx? (fun x => !x.data)).getD 0
    blockOfBits (false :: l.map (fun x => x.data) ++ pay.take (64 * c + 4) ++ pay.drop (64 * c + 8))

/-- The bits of a block in transmission order. -/
def blockBits (x : Block) : List Bool := (List.range 257).map x.getMsbD

/-- The four 66-bit blocks of a 257-bit block. -/
def untranscode (x : Block) : List Sub66 :=
  let l := blockBits x
  let cut := fun (flags pay : List Bool) =>
    (List.range 4).map (fun j => (⟨flags.getD j false, bytesOfBits ((pay.drop (64 * j)).take 64)⟩ : Sub66))
  if blockF x then cut [true, true, true, true] (l.drop 1)
  else
    let flags := (l.drop 1).take 4
    let c := (flags.findIdx? (fun b => !b)).getD 0
    let pay := l.drop 5
    let nib := ((pay.drop (64 * c)).take 4).foldr (fun b a => 2 * a + b.toNat) 0
    let hi := (List.range 4).map (fun i => bitAt (typeOfNibble nib) (4 + i))
    cut flags (pay.take (64 * c + 4) ++ hi ++ pay.drop (64 * c + 4))

/-- A 66-bit block in the low 66 bits of a number, its first transmitted bit the highest: synchronisation header 01 for data, 10 for control. -/
def Sub66.word (x : Sub66) : Block := blockOfBits ((!x.data) :: x.data :: x.bits)

/-- The 66-bit block that the low 66 bits of a number hold. -/
def sub66Of (x : Block) : Sub66 := ⟨x.getLsbD 64 && !x.getLsbD 65, bytesOfBits ((List.range 64).map (fun i => x.getLsbD (63 - i)))⟩

/-- Every four 66-bit blocks become one 257-bit block; fewer than four wait (03 R78). -/
def gather66 : List Block → List Block × List Block
  | a :: b :: c :: e :: l => let r := gather66 l; (transcode [sub66Of a, sub66Of b, sub66Of c, sub66Of e] :: r.1, r.2)
  | l => ([], l)

/-- The 66-bit blocks of 257-bit blocks (03 R78). -/
def spread66 (l : List Block) : List Block := (l.map (fun x => (untranscode x).map Sub66.word)).flatten

/-- Idle, error and local-fault 66-bit blocks. -/
def idle66 : Sub66 := ⟨false, 0x1E :: zeros 7⟩
def error66 : Sub66 := ⟨false, 0x1E :: le 7 ((List.range 8).foldl (fun a i => a + 0x1E * 2 ^ (7 * i)) 0)⟩
def fault66 : Sub66 := ⟨false, [0x4B, 0, 0, 1, 0, 0, 0, 0]⟩

def idleBlock : Block := transcode [idle66, idle66, idle66, idle66]
def errorBlock : Block := transcode [error66, error66, error66, error66]
def faultBlock : Block := transcode [fault66, fault66, fault66, fault66]

/-- A start of packet, an end of packet. -/
def Sub66.isStart (x : Sub66) : Bool := !x.data && byteAt x.bytes 0 == 0x78
def Sub66.isEnd (x : Sub66) : Bool := !x.data && decide (0x80 ≤ byteAt x.bytes 0)

/-- A block holds a start control character. -/
def hasStart (x : Block) : Bool := (untranscode x).any Sub66.isStart

/-- Whether a client is inside a packet after a block, from whether it was before it. -/
def insideAfter (inside : Bool) (x : Block) : Bool :=
  (untranscode x).foldl (fun i s => if s.data then i else s.isStart) inside

/-- A run of blocks begins inside a packet: data or an end comes before any start. -/
def beginsInside (l : List Block) : Bool :=
  match (l.map untranscode).flatten.find? (fun s => s.data || s.isStart || s.isEnd) with
  | some s => !s.isStart
  | none => false

/-- The blocks up to the first that holds a start become error blocks (03 R96). -/
def errorToStart : List Block → List Block
  | [] => []
  | x :: l => if hasStart x then x :: l else errorBlock :: errorToStart l

/-- Playout holds its buffer by deleting and inserting idle blocks, only between packets (03 R97, 01 R26): where and how many the clocks decide, a
free choice at each block (log entry 47). `k` numbers the choices, `i` says that the client is inside a packet. -/
def adaptIdle : Nat → Bool → List Block → List Block × Bool
  | _, i, [] => ([], i)
  | k, i, x :: l =>
    let r := adaptIdle (k + 1) (insideAfter i x) l
    if !i && Config.freeNat k % 3 = 1 && x == idleBlock then r
    else if !i && Config.freeNat k % 3 = 2 then (idleBlock :: x :: r.1, r.2)
    else (x :: r.1, r.2)

/-- The end-of-packet type for `k` data bytes. -/
def endType (k : Nat) : Byte := BitVec.ofNat 8 (nth 0x87 [0x87, 0x99, 0xAA, 0xB4, 0xCC, 0xD2, 0xE1, 0xFF] k)

/-- Cut 66-bit blocks into fours. -/
def fours : Nat → List Sub66 → List Block
  | 0, _ => []
  | _, [] => []
  | f + 1, l => transcode ((l ++ List.replicate 4 idle66).take 4) :: fours f (l.drop 4)

/-- The blocks of a frame: preamble, data with FCS, end, then idle to the minimum gap and to a whole 257-bit block; a frame whose
received FCS is wrong ends with an error control character (03 R80, 02 R55). -/
def encodeFrame (b : Bytes) (ok : Bool) : List Block :=
  let whole := b ++ le 4 (crc32 b)
  let n := whole.length / 8
  let k := whole.length % 8
  let body := (List.range n).map (fun i => (⟨true, sub_ whole (8 * i) 8⟩ : Sub66))
  let term : List Sub66 := if ok then [⟨false, endType k :: whole.drop (8 * n)⟩] else [error66, ⟨false, [endType 0]⟩]
  let gap := if k ≤ 4 then 1 else 2
  let subs := (⟨false, [0x78, 0x55, 0x55, 0x55, 0x55, 0x55, 0x55, 0xD5]⟩ : Sub66) :: body ++ term ++ List.replicate gap idle66
  fours subs.length subs

/-- One 66-bit block of a packet client's stream: the packet in progress, and the frames that ended (bytes with FCS, whole). -/
def decodeSub (s : Option Bytes × List (Bytes × Bool)) (x : Sub66) : Option Bytes × List (Bytes × Bool) :=
  match s.1 with
  | none => if x.isStart then (some [], s.2) else s
  | some b =>
    if x.data then (some (b ++ x.bytes), s.2)
    else if x.isStart then (some [], s.2 ++ [(b, false)])
    else
      let k := (subTypes.drop 3).findIdx? (fun t => t == byteAt x.bytes 0)
      match k with
      | some n => (none, s.2 ++ [(b ++ sub_ x.bytes 1 n, true)])
      | none => (none, s.2 ++ [(b, false)])

/-- Decode a run of blocks. -/
def decodeBlocks (p : Option Bytes) (l : List Block) : Option Bytes × List (Bytes × Bool) :=
  ((l.map untranscode).flatten).foldl decodeSub (p, [])

/-! ### PRBS31 (03 Table 03-11; the inverted sequence of IEEE 802.3, log entry 18) -/

/-- The bit after the last 31, `s` holding them newest lowest: the inverted sequence of x^31 + x^28 + 1. -/
def prbsNext (s : Nat) : Bool := !(bitAt s 30 != bitAt s 27)

/-- Shift a bit into the last 31. -/
def prbsPush (s : Nat) (b : Bool) : Nat := (2 * s + b.toNat) % 2 ^ 31

/-- `n` bits of the sequence: the bits as a number, and the state after them. -/
def prbsRun : Nat → Nat → Nat → Nat × Nat
  | 0, s, acc => (acc, s)
  | n + 1, s, acc =>
    let b := prbsNext s
    prbsRun n (prbsPush s b) (2 * acc + b.toNat)

/-- Compare received bits with the sequence: errors, and the state after them. -/
def prbsCheck : List Bool → Nat → Nat → Nat × Nat
  | [], s, e => (e, s)
  | x :: l, s, e =>
    let b := prbsNext s
    prbsCheck l (prbsPush s b) (if x = b then e else e + 1)

/-- Clear the state from the first 31 bits. -/
def prbsSeed (l : List Bool) : Nat := (l.take 31).foldl prbsPush 0

end Sys2Proof.Machine
end

