-- ==== Sys2Proof/Machine/SltOps.lean ====
section
/-! DEFINITION. Shared operations on Slot-mode ports: geometry, calendars, defects and their actions (chapters 03 and 04). -/

namespace Sys2Proof.Machine

/-! ### Geometry and calendars (03 R69, R73, R101) -/

/-- PRT number of cipher port Kp. -/
def prtOf (p : Nat) : Nat := 32 + p

/-- N of a port, in a view (03 Table 03-1). -/
def slotCols (t : Tables) (p : Nat) : Nat :=
  match cfgSize (t.getPrt (prtOf p)).cfg with
  | 5 => 320 | 4 => 160 | 3 => 80 | 2 => 40 | _ => 0

/-- Slice of a column. -/
def colSlice (p c : Nat) : Nat := p / 4 + (if c < 160 then 0 else 1)

/-- Valid client of a calendar entry (03 Table 03-18). -/
def calClient (page : Tab Nat) (c : Nat) : Option Nat := let e := Tab.get 0 page c; if bitAt e 7 then some (fld e 5 0) else none

/-- Columns of a client in a page, ascending. -/
def clientCols (page : Tab Nat) (n i : Nat) : List Nat := (List.range n).filter (fun c => calClient page c == some i)

/-- Pages and versions by page bit. -/
def SltGated.txPage (g : SltGated) (b : Bool) : Tab Nat := if b then g.txPageB else g.txPageA
def SltGated.rxPage (g : SltGated) (b : Bool) : Tab Nat := if b then g.rxPageB else g.rxPageA
def SltGated.txVersion (g : SltGated) (b : Bool) : Nat := if b then fld g.txVer 31 16 else fld g.txVer 15 0
def SltGated.rxVersion (g : SltGated) (b : Bool) : Nat := if b then fld g.rxVer 31 16 else fld g.rxVer 15 0

/-- TYPE, RATE and CHID of a client-table entry (03 Table 03-16). -/
def cliType (e : Nat) : Nat := fld e 17 16
def cliRate (e : Nat) : Nat := fld e 19 18
def cliChid (e : Nat) : Nat := fld e 15 0

/-- SIZE code of a port client's rate, and its least slots (03 Table 03-4). -/
def rateSize (r : Nat) : Nat := if r < 3 then r + 1 else 0
def leastSlots (r : Nat) : Nat := nth 0 [21, 41, 81] r

/-- SLT[p]_CTRL fields. -/
def sltEn (g : SltGated) : Bool := bitAt g.ctrl 0
def sltTest (g : SltGated) : Bool := bitAt g.ctrl 2

/-- Client indices with an entry, in a direction. -/
def cliIndices (m : Tab Nat) : List Nat := (List.range 64).filter (fun i => cliType (Tab.get 0 m i) != 0)

/-- The clear port of a transmit client, of a receive client. -/
def txClear (t : Tables) (e : Nat) : Nat := (t.getChn (cliChid e)).src
def rxClear (t : Tables) (e : Nat) : Nat := (t.getChn (cliChid e)).dst

/-- Count on counter `i` of SLT[p]. -/
def sltCount (p i : Nat) (d : Dev) : Dev := d.updSlt p (fun s => { s with ctr := bump s.ctr i 1 })

/-- What an EN change leaves of the defects: the change bits, and the failures (04 R115, R119). -/
def SltDef.kept (x : SltDef) : SltDef := { dchg := x.dchg, fchg := x.fchg, failBits := x.failBits, csfFail := x.csfFail, ctagFail := x.ctagFail }

/-! ### Defects and consequent actions (04 R115 to R118, R121) -/

/-- A defect whose action replaces every port client's data: dLOS, dLOA, dLOF, dLOM, dFMT (04 Table 04-2). -/
def lineFault (b : Nat) : Bool := bitAt b 0 || bitAt b 1 || bitAt b 2 || bitAt b 3 || bitAt b 5

/-- RDI is sent (04 Table 04-2, R121). -/
def sendsRdi (b : Nat) : Bool := lineFault b || bitAt b 4

/-- Client `i` receives local fault: a port-level action, its own dCTAG, or a fence (04 R117, 09 R247). -/
def clientFault (p i : Nat) (d : Dev) : Bool :=
  let s := d.getSlt p
  lineFault s.dfc.bits || Tab.get false s.dfc.ctag i || portFenced d (prtOf p)

/-- The key of a merge group in the selection table. -/
def groupKey (chid g : Nat) : Nat := 1024 * chSlice chid + g

/-- The client's channel is in no merge group, or is the member that its group plays out (09 R242); before the first selection every member is. -/
def memberPlays (chid : Nat) (d : Dev) : Bool :=
  let g := (d.tab.getChn chid).mgrp
  let m := Tab.get 0 d.twn.mgSel (groupKey chid g)
  g == 0 || m == 0 || m == chid

/-- Local fault starts on client `i`: its playout ends (04 R117); a merge member that is not played out gives its clear port nothing (09 R242). -/
def startClientFault (p i : Nat) (d : Dev) : Dev :=
  let e := Tab.get 0 (d.tab.getSlt p).rxClient i
  if cliType e = 1 then
    when_ (memberPlays (cliChid e) d) (lineEmit (rxClear d.tab e) (.localFault (rxClear d.tab e)))
      (updSRx p (fun r => { r with
        play := Tab.set false r.play i false, buf := Tab.set [] r.buf i [], needStart := Tab.set false r.needStart i true }) d)
  else updSRx p (fun r => { r with pkt := Tab.set none r.pkt i none, needStart := Tab.set false r.needStart i true }) d

/-- Change the defect state; a bit of DEFCHG that becomes 1 sets DEFCHG on the cores that subscribe (10 Table 10-13). -/
def chgSDef (p : Nat) (f : SltDef → SltDef) (d : Dev) : Dev :=
  let o := (d.getSlt p).dfc
  let d := updSDef p f d
  let n := (d.getSlt p).dfc
  if (n.dchg ||| o.dchg) != o.dchg || (n.fchg ||| o.fchg) != o.fchg then evPendAll 10 d else d

/-- Set or clear a port defect: DEFCHG, the performance second, and the action that starts (04 R115, R116, R125). -/
def setDef (p k : Nat) (b : Bool) (d : Dev) : Dev :=
  let s := d.getSlt p
  if !sltEn (d.tab.getSlt p) || bitAt s.dfc.bits k == b then d
  else
    let d' := chgSDef p (fun x => { x with bits := setBit x.bits k b, dchg := setBit x.dchg k true }) d
    let d' := if b && (decide (k < 6)) then updPm p (fun m => { m with defect := true, hunted := m.hunted || k == 2 }) d' else d'
    if lineFault (d'.getSlt p).dfc.bits && !lineFault s.dfc.bits then
      each (cliIndices (d.tab.getSlt p).rxClient) (startClientFault p) d'
    else d'

/-- Set or clear dCTAG of a receive client. -/
def setCtag (p i : Nat) (b : Bool) (d : Dev) : Dev :=
  if Tab.get false (d.getSlt p).dfc.ctag i == b then d
  else
    let d := chgSDef p (fun x => { x with ctag := Tab.set false x.ctag i b, dchg := setBit x.dchg 9 true }) d
    if b then startClientFault p i d else d

/-- Set or clear dCSF of a transmit client. -/
def setCsf (p i : Nat) (b : Bool) (d : Dev) : Dev :=
  if Tab.get false (d.getSlt p).dfc.csf i == b then d
  else chgSDef p (fun x => { x with csf := Tab.set false x.csf i b, dchg := setBit x.dchg 8 true }) d

/-- A clear port reports loss of signal, of lock or of alignment. -/
def clearDown (n : Nat) (d : Dev) : Bool := (d.getPort n).los || (d.getPort n).loa

/-- dCSF of every transmit port client of Slot-mode port `p` follows its clear port (04 Table 04-1). -/
def updateCsf (p : Nat) (d : Dev) : Dev :=
  let g := d.tab.getSlt p
  if !sltEn g then d
  else each (List.range 64) (fun i d =>
    let e := Tab.get 0 g.txClient i
    setCsf p i (cliType e == 1 && clearDown (txClear d.tab e) d) d) d

/-- dCSF of every Slot-mode port. -/
def updateCsfAll (d : Dev) : Dev := each (d.tab.slt.map (fun e => e.1)) updateCsf d

/-- No AN is held for any client, and their channel records show none (03 R92, 05 Table 05-1 CURV). -/
def clearHeldAn (p : Nat) (d : Dev) : Dev :=
  let d := each (cliIndices (d.tab.getSlt p).rxClient) (fun i d =>
    Dev.updChl (cliChid (Tab.get 0 (d.tab.getSlt p).rxClient i)) (fun l => { l with curV := false }) d) d
  updSRx p (fun r => { r with an := [], anDiff := [], nan := none }) d

/-! ### Signal and alignment of a port (12 R351; 04 R109, Table 04-1) -/

/-- Port n's LOS: any lane reports LOS or LOL (12 R351). -/
def lanesLost (n : Nat) (d : Dev) : Bool :=
  (portLanes (d.tab.getPrt n).cfg n).any (fun l => (d.getLane l).los || (d.getLane l).lol)

/-- A defect of a Frame-mode cipher port makes the second severely errored (04 R125, Table 04-3); on a Slot-mode port dLOS and dLOA do, which read
0 while EN is 0 (R115). -/
def frameDefect (n : Nat) (d : Dev) : Dev :=
  if cfgSlot (d.tab.getPrt n).cfg then d else updPm (facePos n) (fun m => { m with defect := true }) d

/-- Recompute a port's LOS; dLOS and dCSF follow. -/
def updateLos (n : Nat) (d : Dev) : Dev :=
  let b := lanesLost n d
  if (d.getPort n).los == b then d
  else
    let d := d.updPort n (fun p => { p with los := b, losChg := true })
    if isCipher n then setDef (facePos n) 0 b (when_ b (frameDefect n) d) else updateCsfAll d

/-- The port that holds a line lane. -/
def lanePort (l : Nat) (d : Dev) : Option Nat := (List.range 64).find? (fun n => (portLanes (d.tab.getPrt n).cfg n).contains l)

/-- A clear port's egress takes a frame of a packet client (03 R97, 02 R59): `src` is the cipher port, `slot` the SA that verified it. -/
def releaseSlotFrame (src fc chid slot dst : Nat) (b : Bytes) (ok : Bool) (d : Dev) : Dev :=
  let s := chSlice chid
  if portFenced d src || !portEnabled d dst || portDead d dst then d
  else
    let n := frameCells b
    let r := takeCells (0x50 + s) n d
    match r.1 with
    | some l => r.2.updPort dst (fun x => { x with rel := x.rel ++ [⟨src, fc, some chid, slot, b, ok, l⟩] })
    | none => portCount dst 14 r.2

end Sys2Proof.Machine
end

