-- ==== Sys2Proof/Machine/SlotGate.lean ====
section
/-! DEFINITION. The gated commands of Slot mode: SLT_SET and SLT_SWAP (03 R81, R95, R102, R103, R106, R107). -/

namespace Sys2Proof.Machine

/-- The slice in which a port command's state lies (08 R226). -/
def portSlice (n : Nat) (d : Dev) : Nat := if isWide d.tab n then facePos n / 8 * 2 else facePos n / 4

/-- Set minimum and cap of a Slot-mode hold requester, under the test of R315: `none` when U would exceed C. -/
def setHold (s cells : Nat) (b : Bpm) : Option Bpm :=
  let b' := { b with min := Tab.set 0 b.min (0x58 + s) (cells + 1), cap := Tab.set 0 b.cap (0x58 + s) (cells + 1) }
  if b'.used ≤ b'.shared && decide ((requesters.map b'.minOf).sum ≤ 131072) then some b' else none

/-- Cells that a slice's part of a port reserves (03 R95): 2 x ceil(8.03125 S). -/
def reserveOf (slots : Nat) : Nat := 2 * ceilDiv (257 * slots) 32

/-- Add to (or take from) the holds of a port's slices. -/
def changeHold (p lo hi : Nat) (add : Bool) (d : Dev) : Option Dev :=
  let s := p / 4
  let f := fun (s n : Nat) (b : Bpm) =>
    if n = 0 then some b else setHold s (if add then b.minOf (0x58 + s) + n else b.minOf (0x58 + s) - n) b
  ((f s lo d.bpm).bind (f (s + 1) hi)).map (fun b => { d with bpm := b })

/-- Slot mode starts on a port: counters, defects, receiver (03 R107; 04 R115, Table 04-6). A transmitter that still sends frames of a view
before the tack goes on, and stops or starts at the boundaries of its frames (08 R216, `doSlotTransmit`). DESIGN CHOICE (log entry 48): the
active pages, a swap in progress, TXTIMEOUT, RXRECOV, TXSWMF and RXSWMF stay, for no rule of 03 R101 to R104 changes them at EN; failures stay
until their 10 s are over (04 R119). A transmitter that starts sends its first management segment with SEQ 0 (DESIGN CHOICE, log entry 86). -/
def startSlot (p lo hi : Nat) (d : Dev) : Dev :=
  let n := prtOf p
  let d := clearHeldAn p (d.updPort n (fun x => { x with fallowSa := false }))
  let d := if (d.getSlt p).tx.running then d else updSTx p (fun x => { x with fc := 0 }) (stopTx p d)
  let d := d.updSlt p (fun s => { s with
    ctr := [], prbsErr := 0, reserveLo := lo, reserveHi := hi
    rx := { act := s.rx.act, recov := s.rx.recov, swMf := s.rx.swMf }
    dfc := s.dfc.kept })
  let d := setDef p 2 true d
  let d := setDef p 0 (d.getPort n).los d
  let d := setDef p 1 (d.getPort n).loa d
  updateCsf p d

/-- The cells that EN reserves in the port's slice, and in the next one for a 1.6TbE port (03 R95). -/
def slotShare (t : Tables) (p : Nat) : Nat × Nat :=
  let cols := slotCols t p
  (reserveOf (if cols = 320 then 159 else cols - 1), if cols = 320 then reserveOf 160 else 0)

/-- Slot mode ends on a port: the reserve goes back and every defect reads 0 (03 R89, 04 R115); no bit of DEFCHG is set for it (DESIGN CHOICE, log
entry 71). CANDOVF and OOFCNT stay until the next start (Table 04-6). -/
def stopSlot (p : Nat) (d : Dev) : Dev :=
  let s := d.getSlt p
  let d := clearHeldAn p (dropHeld p (d.updPort (prtOf p) (fun x => { x with fallowSa := false })))
  let d := (changeHold p s.reserveLo s.reserveHi false d).getD d
  d.updSlt p (fun s => { s with reserveLo := 0, reserveHi := 0, rx := { act := s.rx.act, recov := s.rx.recov, swMf := s.rx.swMf, candOvf := s.rx.candOvf, oofCnt := s.rx.oofCnt }, dfc := s.dfc.kept })

/-- A slot attached to a channel has a 32-bit suite. -/
def shortSuite (t : Tables) (chid : Nat) : Bool := t.sa.any (fun e => e.2.att && e.2.chid == chid && decide (2 ≤ e.2.suite))

/-- Replace bits of a register by words at a base offset. -/
def setWordTab (m : Tab Nat) (i v : Nat) : Tab Nat := Tab.set 0 m i v

/-- The client-table entries with TYPE other than 0 over all cipher ports. -/
def clientCount (t : Tables) (rx : Bool) : Nat :=
  (t.slt.map (fun e => (if rx then e.2.rxClient else e.2.txClient).filter (fun x => cliType x.2 != 0) |>.length)).sum

/-- The entries of the client tables of a direction with a TYPE, but for entry `i` of cipher position `p`. -/
def otherClients (t : Tables) (rx : Bool) (p i : Nat) : List Nat :=
  (t.slt.map (fun e => ((if rx then e.2.rxClient else e.2.txClient).filter (fun x => cliType x.2 != 0 && !(e.1 == p && x.1 == i))).map
    (fun x => x.2))).flatten

/-- Another entry of the direction has the clear port, one of the two being a port client's: a clear port that serves a port client belongs to that
client alone (03 R78). A channel that is no client may not name it either, nor one of the other direction that is no half of that client. -/
def clearTaken (t : Tables) (rx : Bool) (p i chid type : Nat) : Bool :=
  let c := t.getChn chid
  match clearPortOf chid c with
  | none => false
  | some q =>
    (otherClients t rx p i).any (fun e => (type == 1 || cliType e == 1) && clearPortOf (cliChid e) (t.getChn (cliChid e)) == some q
        && !(cliChid e != chid && sameGroup t (cliChid e) chid))
      || (type == 1 && t.chn.any (fun e => e.1 != chid && isRc e.1 == rx && clearPortOf e.1 e.2 == some q && !sameGroup t e.1 chid))
      || (if type == 1 then crossNamed t rx q else crossClient t rx q)

/-- The slots that a standby page gives entry `i` do not fit what a write makes of it: too few for a port client of its rate, columns of a slice
other than its channel's, or no client left in them (03 Table 03-9). -/
def misplaced (t : Tables) (p i v : Nat) (page : Tab Nat) : Bool :=
  let cols := clientCols page (slotCols t p) i
  !cols.isEmpty && (cliType v == 0 || (cliType v == 1 && decide (cols.length < leastSlots (cliRate v)))
    || cols.any (fun c => chSlice (cliChid v) != colSlice p c))

/-- A write of a client-table entry (03 Table 03-9); a packet client's RATE is 0 (Table 03-16), and a CHID of any KIND is taken (DESIGN CHOICE, log
entry 50); TYPE 3 is a parameter that the command refuses (Table 03-16, 13 R369). A receive channel
shows the AN that the receiver holds for its index (03 R92). -/
def setClient (b : Sub) (p i v : Nat) (rx : Bool) (d : Dev) : Dev :=
  let g := d.tab.getSlt p
  let s := d.getSlt p
  let m := if rx then g.rxClient else g.txClient
  let page := if rx then g.rxPage s.rx.act else g.txPage s.tx.act
  let standby := if rx then g.rxPage (!s.rx.act) else g.txPage (!s.tx.act)
  let n := slotCols d.tab p
  let v := if fld v 17 16 = 2 then fld v 17 0 else v % 2 ^ 20
  let chid := cliChid v
  let c := d.tab.getChn chid
  let type := cliType v
  let clear := if rx then c.dst else c.src
  let held := Tab.get none s.rx.an i
  let inPair := decide (chSlice chid = p / 4) || (isWide d.tab (prtOf p) && decide (chSlice chid / 2 = p / 8))
  guards b
    [(type == 3, stBAD_COMMAND),
     (misplaced d.tab p i v standby, stBAD_CALENDAR),
     (v != Tab.get 0 m i && !(clientCols page n i).isEmpty, stIN_USE),
     (type != 0 && (isRc chid != rx || !inPair || clearTaken d.tab rx p i chid type), stBAD_CHANNEL),
     (type == 1 && (rateSize (cliRate v) == 0 || cfgSize (d.tab.getPrt clear).cfg != rateSize (cliRate v)), stBAD_CHANNEL),
     (type != 0 && cliType (Tab.get 0 m i) == 0 && decide (clientCount d.tab rx ≥ 128), stNO_CLIENT),
     (type != 0 && shortSuite d.tab chid, stBAD_SUITE)]
    (fun d =>
      let old := Tab.get 0 m i
      let d := when_ (rx && cliType old != 0) (Dev.updChl (cliChid old) (fun l => { l with curV := false })) d
      let d := when_ (rx && type != 0) (Dev.updChl chid (fun l => { l with curAn := held.getD l.curAn, curV := held.isSome })) d
      let d := d.updTab (Tables.updSlt p (fun g => if rx then { g with rxClient := Tab.set 0 g.rxClient i v } else { g with txClient := Tab.set 0 g.txClient i v }))
      gateDone b stOK [] (updateCsf p d)) d

/-- A swap of the calendar that the port receives is requested, whatever the answer, or committed (03 R102, R103). -/
def rxSwapping (s : SltPort) : Bool := s.rx.reqSeen || s.tx.ack || s.rx.commit || s.rx.recovery

/-- A word of a calendar page: entries for columns 4w to 4w + 3 (03 Table 03-9). -/
def setCal (b : Sub) (p w v : Nat) (rx pageB : Bool) (d : Dev) : Dev :=
  let g := d.tab.getSlt p
  let s := d.getSlt p
  let n := slotCols d.tab p
  let m := if rx then g.rxClient else g.txClient
  let ents := (List.range 4).map (fun k => (4 * w + k, let e := fld v (8 * k + 7) (8 * k); if bitAt e 6 then e - 64 else e))
  let valid := ents.filter (fun e => bitAt e.2 7)
  let busy := if rx then rxSwapping s else s.tx.req || s.tx.commit
  guards b
    [(pageB == (if rx then s.rx.act else s.tx.act), stPAGE_ACTIVE),
     (busy, stBUSY),
     (valid.any (fun e => e.1 == 0 || decide (n ≤ e.1)), stBAD_CALENDAR),
     (valid.any (fun e => cliType (Tab.get 0 m (fld e.2 5 0)) == 0), stBAD_CALENDAR),
     (valid.any (fun e => chSlice (cliChid (Tab.get 0 m (fld e.2 5 0))) != colSlice p e.1), stBAD_CALENDAR)]
    (fun d =>
      let put := fun (t : Tab Nat) => ents.foldl (fun t e => Tab.set 0 t e.1 e.2) t
      gateDone b stOK [] (d.updTab (Tables.updSlt p (fun g => match rx, pageB with
        | false, false => { g with txPageA := put g.txPageA }
        | false, true => { g with txPageB := put g.txPageB }
        | true, false => { g with rxPageA := put g.rxPageA }
        | true, true => { g with rxPageB := put g.rxPageB })))) d

/-- A port client of a page has fewer slots than its rate needs (03 Table 03-4). -/
def tooFewSlots (t : Tables) (p : Nat) (page m : Tab Nat) : Bool :=
  (List.range 64).any (fun i =>
    let e := Tab.get 0 m i
    let k := (clientCols page (slotCols t p) i).length
    cliType e == 1 && k != 0 && decide (k < leastSlots (cliRate e)))

/-- A write of TXVER or RXVER: the half that changes belongs to a page. A page is written word by word, so the row on too few slots is judged
where a page is handed over: SLT_SWAP for a transmit page, and for a receive page here, where its version is written, and again where the far end's
request is answered, so that no short page goes active (DEDUCED, log entry 49). -/
def setVer (b : Sub) (p v : Nat) (rx : Bool) (d : Dev) : Dev :=
  let g := d.tab.getSlt p
  let s := d.getSlt p
  let old := if rx then g.rxVer else g.txVer
  let act := if rx then s.rx.act else s.tx.act
  let chg := fun (pageB : Bool) => if pageB then hiHalf old != hiHalf v else loHalf old != loHalf v
  let busy := if rx then rxSwapping s else s.tx.req || s.tx.commit
  guards b [(chg act, stPAGE_ACTIVE), (chg (!act) && busy, stBUSY),
      (rx && chg (!act) && tooFewSlots d.tab p (g.rxPage (!act)) g.rxClient, stBAD_CALENDAR)]
    (fun d => gateDone b stOK [] (d.updTab (Tables.updSlt p (fun g => if rx then { g with rxVer := v } else { g with txVer := v })))) d
where
  /-- Halves of a version register. -/
  loHalf (v : Nat) : Nat := fld v 15 0
  hiHalf (v : Nat) : Nat := fld v 31 16

/-- A write of SLT[p]_CTRL (03 Table 03-11, R70, R95, R107). -/
def setSltCtrl (b : Sub) (p v : Nat) (d : Dev) : Dev :=
  let n := prtOf p
  let g := d.tab.getSlt p
  let v := fld v 2 0 + at_ (fld v 15 8) 8
  let lo := (slotShare d.tab p).1
  let hi := (slotShare d.tab p).2
  let starts := bitAt v 0 && !sltEn g
  guards b
    [(starts && !cfgSlot (d.tab.getPrt n).cfg, stBAD_PORT),
     (starts && (changeHold p lo hi true d).isNone, stNO_CELLS),
     (bitAt v 2 && d.mod.mode != .factory && d.mod.mode != .service, stBAD_MODE)]
    (fun d =>
      let d := if starts then (changeHold p lo hi true d).getD d else d
      let d := if sltEn g && !bitAt v 0 then stopSlot p d else d
      let d := d.updTab (Tables.updSlt p (fun g => { g with ctrl := v }))
      gateDone b stOK [] (if starts then startSlot p lo hi d else d)) d

/-- SLT_SET: one gated register of SLT[p] (03 R102, R106). DESIGN CHOICE (log entry 50): PORTCH and FILLCH take any channel that no row of Table
03-9 refuses, a channel of another port or KIND and FILL 0x0000 among them, and the framer uses what it finds there. -/
def doSltSet (b : Sub) (p off v : Nat) (d : Dev) : Dev :=
  let v := v % 2 ^ 32
  let set := fun (f : SltGated → SltGated) (d : Dev) => gateDone b stOK [] (d.updTab (Tables.updSlt p f))
  inSlice (portSlice (prtOf p) d) b (fun d =>
    if off = 0 then setSltCtrl b p v d
    else if off = 4 then guards b [(shortSuite d.tab (fld v 15 0) || shortSuite d.tab (fld v 31 16), stBAD_SUITE)] (set (fun g => { g with portCh := v })) d
    else if off = 8 then set (fun g => { g with fillCh := if isWide d.tab (prtOf p) then fld v 15 0 else 0 }) d
    else if off = 0x10 || off = 0x14 then
      guards b [(sltEn (d.tab.getSlt p), stBUSY)]
        (set (fun g => { g with fcBase := if off = 0x10 then hi32 g.fcBase * 2 ^ 32 + v else v * 2 ^ 32 + lo32 g.fcBase })) d
    else if off = 0x2C then setVer b p v false d
    else if off = 0x30 then setVer b p v true d
    else if 0x100 ≤ off && decide (off < 0x200) then setClient b p ((off - 0x100) / 4) v false d
    else if 0x200 ≤ off && decide (off < 0x300) then setClient b p ((off - 0x200) / 4) v true d
    else if 0x300 ≤ off && decide (off < 0x800) then
      let q := (off - 0x300) / 0x140
      setCal b p ((off - 0x300) % 0x140 / 4) v (decide (2 ≤ q)) (q % 2 == 1) d
    else gateDone b stBAD_COMMAND [] d) d

/-- SLT_SET. -/
def execSltSet (b : Sub) (p off v : Nat) (s : State) : Host.Outcome State Fault Refusal := done s (doSltSet b p off v)

/-- CH_WRITE (05 R133); a port client's dCSF follows its new clear port (04 Table 04-1). SAs attached before stay as they were attached: windows that
two channels hold apart stay apart when one MGRP comes to join the channels (DESIGN CHOICE, log entry 66). -/
def doChWrite (b : Sub) (chid : Nat) (image : Bytes) (d : Dev) : Dev :=
  let c := chanOfImage (d.tab.getChn chid) image
  inSlice (chSlice chid) b (guards b
    [((d.tab.getChn chid).en, stIN_USE), (badChannel d.tab chid c, stBAD_CHANNEL)]
    (fun d => gateDone b stOK [] (updateCsfAll (d.updTab (Tables.updChn chid (fun _ => c)))))) d

/-- CH_WRITE. -/
def execChWrite (b : Sub) (chid : Nat) (image : Bytes) (s : State) : Host.Outcome State Fault Refusal := done s (doChWrite b chid image)

/-- SLT_SWAP: REQ is sent from the tack's boundary on (03 R103, 08 R216). -/
def doSltSwap (b : Sub) (p : Nat) (d : Dev) : Dev :=
  let g := d.tab.getSlt p
  let x := (d.getSlt p).tx
  inSlice (portSlice (prtOf p) d) b (guards b
    [(x.req || x.commit, stBUSY),
     (tooFewSlots d.tab p (g.txPage (!x.act)) g.txClient, stBAD_CALENDAR)]
    (fun d => gateDone b stOK [] (updSTx p (fun x => { x with req := true, reqAt := d.tck.tno, reqSent := false, acked := false, cvReq := g.txVersion (!x.act) }) d))) d

/-- SLT_SWAP. -/
def execSltSwap (b : Sub) (p : Nat) (s : State) : Host.Outcome State Fault Refusal := done s (doSltSwap b p)

/-- A swap request without a matching ACK for 16 multiframes is dropped (03 R103, Table 03-21). -/
def doSwapTimeout (p : Nat) (d : Dev) : Dev :=
  let x := (d.getSlt p).tx
  if !x.req || !x.reqSent || x.acked || x.commit then d
  else event 0x0302 2 (be 1 p ++ be 2 x.cvReq) (updSTx p (fun x => { x with req := false, reqSent := false, timeout := true, cvReq := 0 }) d)

/-- SWAP_REQUEST_TIMEOUT. -/
def execSwapRequestTimeout (p : Nat) (s : State) : Host.Outcome State Fault Refusal := done s (doSwapTimeout p)

end Sys2Proof.Machine
end

