-- ==== Sys2Proof/Machine/Slot.lean ====
section
/-! DEFINITION. Slot frames: building and sending, hunting, receiving, playout (chapters 03 and 04, 09 R242). -/

namespace Sys2Proof.Machine

/-! ### The transmitter -/

/-- The IV of a slot frame under an SA (03 R82). -/
def slotIv (sa : SaStat) (fc : Nat) : Bytes := xorB (be 12 sa.salt) (be 4 sa.ssci ++ be 8 fc)

/-- The 14 bytes of associated data (03 R82, R85). -/
def slotAad (fc idx slots ver : Nat) : Bytes := be 8 fc ++ be 2 idx ++ be 2 slots ++ be 2 ver

/-- FC from which a pending seam of a Slot-mode channel may take effect: SEAMAT of a kind 2 seam; that of a kind 0 seam from its tack's boundary
(05 R148, 03 R88). -/
def seamFrom (c : Chan) (l : ChanLive) (d : Dev) : Nat :=
  if l.seamKind ≠ 3 then l.seamAt
  else if c.kind = 3 then (d.tab.getSlt (facePos c.dst)).fcBase + l.seamAt else seamFc c l.seamAt d

/-- The frames of the multiframe before FC `fc` have all been sent: what their NAN announced was announced for a whole multiframe (03 R88). -/
def announced (x : SltTx) (fc : Nat) : Bool := x.running && x.fc + 1 == fc && decide (x.sentFrom + 256 ≤ fc)

/-- A pending seam takes effect at the frame of FC `fc`: a client channel's or the port channel's at frame 0 of a multiframe, a client channel's
after a whole multiframe of announcement (03 R88); the fill channel's kind 0 seam at the tack (05 R148). -/
def fcSeamDue (c : Chan) (l : ChanLive) (view fc : Nat) (d : Dev) : Bool :=
  l.seamKind != 0 && decide (l.seamTack ≤ view) && decide (seamFrom c l d ≤ fc)
    && ((c.kind == 3 && l.seamKind == 3) || (fc % 256 == 0 && (c.kind != 1 || announced (d.getSlt (facePos c.dst)).tx fc)))

/-- A transmit SA of a Slot-mode channel takes the FC of a frame (03 R83, R84; 05 R148, R152): the slot, or whether an SA is in use at all. An SA of
a 32-bit suite, attached while its channel had KIND 0, is none in use: DESIGN CHOICE (log entry 66). -/
def takeFc (chid view fc : Nat) (d : Dev) : (Option Nat × Bool) × Dev :=
  let d := match curSlot (tabAt view d) chid d with | some o => stopAtLimit (tabAt view d) o chid (applyDueLimits o view d) | none => d
  let l := d.getChl chid
  let d := if fcSeamDue ((tabAt view d).getChn chid) l view fc d then takeSeam chid fc d else d
  match curSlot (tabAt view d) chid d with
  | none => ((none, false), d)
  | some slot =>
    let st := ((tabAt view d).getSa slot).state
    let l := d.getLive slot
    let spent := fun (d : Dev) => ((none, true), saCount slot 4 1 d)
    if !((tabAt view d).getChn chid).en then ((none, false), d)
    else if st = .draining || st = .spent then spent d
    else if st ≠ .active || !isXpn ((tabAt view d).getSa slot).suite then ((none, false), d)
    else if d.twn.chFence.contains chid || fc < l.nextPn || decide (2 ^ 64 - 1 ≤ fc) then spent d
    else if l.hardPn ≤ fc || l.limHit then spent (hardStop slot chid d)
    else
      let d := d.updLive slot (fun x => { x with nextPn := fc + 1, refs := x.refs + 1, lastPn := some fc })
      let d := prfCount 4 (some (chSlice chid)) 1 (softCheck slot d)
      ((some slot, true), if fc + 1 ≥ l.hardPn then hardStop slot chid d else d)

/-- One client of a frame: its columns, and its blocks with the slot that encrypts them, or fill when muted. -/
structure TxClient where
  idx : Nat
  cols : List Nat
  chid : Nat
  slot : Option Nat
  blocks : List Block
  tag : Bytes

/-- Blocks that arrive in the block period of position `pos` of `p`: `a` of them come evenly over the frame (DESIGN CHOICE, log entry 51). -/
def arrivals (a p pos : Nat) : Nat := a * (pos + 1) / p - a * pos / p

/-- Fill the last `n` of `p` positions from a client's mapping buffer, which the `a` blocks of `coming` join as the frame goes on, with idle blocks
where it has none to give (03 R79): blocks, buffer left, inside a packet. DESIGN CHOICE (log entry 51): a supply that ends inside a packet, which R79's threshold rules out while the clear port runs, ends that packet
with an error block: no idle goes inside it. A block that ends one packet and starts the next is mapped whatever waits behind it: R79 lets no idle
go before it, inside the first packet, and R78 lets the block not be changed. -/
def mapBlocks (a p : Nat) : Nat → List Block → List Block → Bool → List Block × List Block × Bool
  | 0, buf, coming, i => ([], buf ++ coming, i)
  | n + 1, buf, coming, i =>
    let k := arrivals a p (p - (n + 1))
    let buf := buf ++ coming.take k
    let coming := coming.drop k
    match buf with
    | [] => let r := mapBlocks a p n [] coming false; ((if i then errorBlock else idleBlock) :: r.1, r.2)
    | x :: rest =>
      let whole := ((List.range rest.length).any (fun k => !((rest.take (k + 1)).foldl insideAfter true))) || !insideAfter false x
      if i || !hasStart x || whole || decide (16 ≤ buf.length) then
        let r := mapBlocks a p n rest coming (insideAfter i x); (x :: r.1, r.2)
      else let r := mapBlocks a p n buf coming i; (idleBlock :: r.1, r.2)

/-- `n` blocks have left a mapping buffer: the frames whose last block was among them, and those that wait. -/
def takeMapped : Nat → List MapFrame → List MapFrame × List MapFrame
  | _, [] => ([], [])
  | n, m :: l =>
    if m.left ≤ n then let r := takeMapped (n - m.left) l; (m :: r.1, r.2)
    else ([], { m with left := m.left - n } :: l)

/-- A frame in the mapping buffer of which a cell has an uncorrectable error ends with an error block (11 R311). -/
def spoilMapped (d : Dev) : List MapFrame → List Block → List Block
  | [], buf => buf
  | m :: l, buf =>
    (if badCells m.cells d then (buf.take m.left).dropLast ++ [errorBlock] else buf.take m.left) ++ spoilMapped d l (buf.drop m.left)

/-- Frames of a packet client leave the transmit queue for its mapping buffer until `need` blocks wait (03 R80), their cells still charged to the
queue (11 R313); one of a fenced port goes no further (09 R247), and a cell with an uncorrectable error ends its frame with an error (11 R311). -/
def pullFrames (p i chid need : Nat) : Nat → Dev → Dev
  | 0, d => d
  | f + 1, d =>
    let s := chSlice chid
    let buf := Tab.get [] (d.getSlt p).tx.map i
    match (d.getSlice s).txq.find? (fun j => j.chid == chid) with
    | none => d
    | some j =>
      if need ≤ buf.length then d
      else
        let ok := j.fcsOk && !badCells j.cells d
        let d := popJob s j d
        if portFenced d j.src then
          pullFrames p i chid need f (dispose j.src j.idx j.bytes j.fcsOk { out := 4 } (fenceDrop j.src (dropJob s j d)))
        else
          let d := when_ (!j.fcsOk) (portCount j.src 5) d
          let d := dispose j.src j.idx j.bytes j.fcsOk { out := 0, code := j.rule, chid := chid } d
          let new := encodeFrame j.bytes ok
          pullFrames p i chid need f (updSTx p (fun x => { x with
            map := Tab.set [] x.map i (buf ++ new)
            mapFrames := Tab.set [] x.mapFrames i (Tab.get [] x.mapFrames i ++ [⟨s, new.length, j.cells⟩]) }) d)

/-- The clear port runs 64b/66b without RS-FEC (03 R78, 12 Table 12-4). -/
def plain66 (t : Tables) (n : Nat) : Bool := cfgFec (t.getPrt n).cfg == 2

/-- The 257-bit blocks that come from a port client's clear port in a frame, none where it is disabled or dead; 66-bit blocks join by fours
(03 R78). -/
def feedClient (t : Tables) (p i clear : Nat) (arrived : List Block) (d : Dev) : List Block × Dev :=
  if !portEnabled d clear || portDead d clear then ([], d)
  else if plain66 t clear then
    let r := gather66 (Tab.get [] (d.getSlt p).tx.part i ++ arrived)
    (r.1, updSTx p (fun x => { x with part := Tab.set [] x.part i r.2 }) d)
  else (arrived, d)

/-- A packet client's next frames join its mapping buffer, and those with a bad cell in it are spoilt. -/
def feedPackets (p i chid need : Nat) (d : Dev) : Dev :=
  let d := pullFrames p i chid need ((d.getSlice (chSlice chid)).txq.length) d
  updSTx p (fun x => { x with map := Tab.set [] x.map i (spoilMapped d (Tab.get [] x.mapFrames i) (Tab.get [] x.map i)) }) d

/-- The frames of a packet client whose last block went into the slot frame leave with it, and their cells are freed. -/
def passMapped (p i n : Nat) (d : Dev) : Dev :=
  let r := takeMapped n (Tab.get [] (d.getSlt p).tx.mapFrames i)
  freeMapped r.1 (updSTx p (fun x => { x with mapFrames := Tab.set [] x.mapFrames i r.2 }) d)

/-- The blocks that client `i` maps into a frame (03 R79, R80; 04 R118): `arrived` came from its clear port, 257-bit blocks, or 66-bit blocks in
the low bits of each from a port without RS-FEC. While dCSF stands, local fault goes in their place, and no buffered block is deleted. -/
def clientBlocks (t : Tables) (p i e k : Nat) (arrived : List Block) (d : Dev) : List Block × Dev :=
  let chid := cliChid e
  let need := 64 * k
  if cliType e = 1 && Tab.get false (d.getSlt p).dfc.csf i then
    (List.replicate need faultBlock, d)
  else
    let fed := if cliType e = 1 then feedClient t p i (txClear t e) arrived d else ([], feedPackets p i chid need d)
    let x := (fed.2.getSlt p).tx
    let buf := Tab.get [] x.map i
    let r := mapBlocks fed.1.length need need buf fed.1 (Tab.get false x.inPkt i)
    let d := updSTx p (fun x => { x with map := Tab.set [] x.map i r.2.1, inPkt := Tab.set false x.inPkt i r.2.2 }) fed.2
    (r.1, if cliType e = 1 then d else passMapped p i (buf.length - r.2.1.length) d)

/-- One client of a frame is mapped and encrypted, or muted (03 R82, R84). The blocks that a muted frame would have carried are gone: DESIGN
CHOICE (log entry 86). -/
def buildClient (t : Tables) (p view fc ver n : Nat) (page : Tab Nat) (maps : List (Nat × List Block)) (i : Nat) (d : Dev) : Option TxClient × Dev :=
  let e := Tab.get 0 (t.getSlt p).txClient i
  let cols := clientCols page n i
  if cliType e = 0 || cols.isEmpty then (none, d)
  else
    let chid := cliChid e
    let arrived := ((maps.find? (fun m => m.1 == i)).map (fun m => m.2)).getD []
    let r := clientBlocks t p i e cols.length arrived d
    let fenced := portFenced d (txClear t e)
    let sa := if fenced then ((none, true), match curSlot t chid r.2 with | some o => saCount o 4 1 r.2 | none => r.2)
              else takeFc chid view fc r.2
    match sa.1.1 with
    | none =>
      let d := if sa.1.2 then sa.2 else portCount (txClear t e) 3 sa.2
      (some ⟨i, cols, chid, none, [], []⟩, d)
    | some slot =>
      let x := sa.2.tab.getSa slot
      let plain := packBlocks r.1
      let g := gcmSeal x.key (slotIv x fc) (slotAad fc i cols.length ver) plain
      (some ⟨i, cols, chid, some slot, unpackBlocks g.1, g.2⟩, saCount slot 3 plain.length (saCount slot 1 1 sa.2))

/-- Build every client of a frame in index order. -/
def buildClients (t : Tables) (p view fc ver n : Nat) (page : Tab Nat) (maps : List (Nat × List Block)) : List Nat → Dev → List TxClient × Dev
  | [], d => ([], d)
  | i :: l, d =>
    let r := buildClient t p view fc ver n page maps i d
    let r' := buildClients t p view fc ver n page maps l r.2
    (match r.1 with | some c => c :: r'.1 | none => r'.1, r'.2)

/-- CAN and NAN: two bits for each client index (03 R75). -/
def anBytes (f : Nat → Nat) : Bytes :=
  (List.range 16).map (fun j => BitVec.ofNat 8 ((List.range 4).foldl (fun a k => a + at_ (f (4 * j + k) % 4) (6 - 2 * k)) 0))

/-- The AN of a client index in a CAN or NAN field. -/
def anOf (b : Bytes) (i : Nat) : Nat := fld (byteAt b (i / 4)) (7 - 2 * (i % 4)) (6 - 2 * (i % 4))

/-- The protected header (03 Table 03-3). -/
def slotHeader (x : SltTx) (rdi rei : Bool) (ver : Nat) : Bytes :=
  [0x10, BitVec.ofNat 8 (rdi.toNat * 128 + rei.toNat * 64),
   BitVec.ofNat 8 (x.act.toNat * 128 + x.req.toNat * 64 + x.commit.toNat * 32 + x.ack.toNat * 16)]
    ++ be 2 ver ++ be 2 (if x.req then x.cvReq else 0) ++ be 2 (if x.ack then x.cvAck else 0) ++ [0, 0]

/-- The management segment of a frame, and the queue after it (03 R99). -/
def mgmtSegment (g : SltGated) (p : Nat) (d : Dev) : Bytes × Dev :=
  let q := fld g.ctrl 11 8
  let x := (d.getSlt p).tx
  let head := match (d.getInj q).frames with | f :: _ => some f.bytes | [] => none
  if !bitAt g.ctrl 1 || !(d.getInj q).en || !bitAt (d.getInj q).cfg 6 then (zeros 928, d)
  else
    let rest := if x.mgmtStarted then x.mgmt else head.getD []
    if rest.isEmpty then (zeros 928, d)
    else if !x.mgmtStarted && decide (16384 < rest.length) then (zeros 928, injDrop q d)
    else
      let data := rest.take 924
      let eom := decide (rest.length ≤ 924)
      let seg := be 1 (128 + (!x.mgmtStarted).toNat * 64 + eom.toNat * 32) ++ be 1 x.mgmtSeq ++ be 2 data.length ++ fit 924 data
      let d := updSTx p (fun x => { x with mgmt := rest.drop 924, mgmtStarted := !eom, mgmtSeq := (x.mgmtSeq + 1) % 256 }) d
      (seg, if eom then injPop q d else d)

/-- The page, request and commit change at frame 0 of a multiframe (03 R103). -/
def txMultiframe (p fc : Nat) (d : Dev) : Dev :=
  if fc % 256 ≠ 0 then d
  else updSTx p (fun x =>
    if x.commit then { x with act := !x.act, req := false, reqSent := false, commit := false, acked := false, cvReq := 0, swMf := fld fc 15 8 }
    else if x.acked then { x with commit := true } else x) d

/-- What goes into the grid besides the clear fields: fill cursors, client blocks left, blocks built (newest first). -/
structure Grid where
  lo : Nat
  hi : Nat
  cli : Tab (List Block)
  out : List Block

/-- One grid position (03 R75, R86): `port` holds the port ciphertext, `fillLo` and `fillHi` the keystream of the two halves. -/
def gridStep (fc edc pan : Nat) (ptag port fillLo fillHi : Bytes) (tags : Tab Bytes) (page : Tab Nat) (live : List Nat) (r c : Nat) (g : Grid) : Grid :=
  if c = 0 then
    if r = 0 then { g with out := mkBlock true (be 8 0x3E8B17D4A2C65F09 ++ be 8 fc ++ be 4 edc ++ be 1 (64 * pan) ++ port.take 11) :: g.out }
    else if r = 1 then { g with lo := g.lo + 128, out := mkBlock false (fit 16 ptag ++ be 16 (bitsAt fillLo g.lo 128)) :: g.out }
    else if r < 32 then { g with out := mkBlock false (sub_ port (11 + 32 * (r - 2)) 32) :: g.out }
    else
      let tag := fun (i lo : Nat) => match Tab.get [] tags i with | [] => (be 16 (bitsAt fillLo lo 128), lo + 128) | b => (b, lo)
      let a := tag (2 * (r - 32)) g.lo
      let b := tag (2 * (r - 32) + 1) a.2
      { g with lo := b.2, out := mkBlock false (a.1 ++ b.1) :: g.out }
  else
    match (calClient page c).filter live.contains with
    | some i =>
      let l := Tab.get [] g.cli i
      { g with cli := Tab.set [] g.cli i (l.drop 1), out := l.headD 0 :: g.out }
    | none =>
      if c < 160 then { g with lo := g.lo + 257, out := BitVec.ofNat 257 (bitsAt fillLo g.lo 257) :: g.out }
      else { g with hi := g.hi + 257, out := BitVec.ofNat 257 (bitsAt fillHi g.hi 257) :: g.out }

/-- The whole grid in transmission order. -/
def gridAll (n : Nat) (step : Nat → Nat → Grid → Grid) (g : Grid) : Grid :=
  (List.range 64).foldl (fun g r => (List.range n).foldl (fun g c => step r c g) g) g

/-- Fill bits of the lower part and of the upper columns. -/
def fillNeed (n : Nat) (page : Tab Nat) (live : List Nat) (tags : Tab Bytes) : Nat × Nat :=
  let free := (List.range n).filter (fun c => c != 0 && ((calClient page c).filter live.contains).isNone)
  let slots := fun (l : List Nat) => 64 * 257 * l.length
  (128 * (65 - ((List.range 64).filter (fun i => !(Tab.get [] tags i).isEmpty)).length) + slots (free.filter (· < 160)),
   slots (free.filter (160 ≤ ·)))

/-- The tributary blocks of a frame: every block outside column 0. -/
def tributary (n : Nat) (l : List Block) : List Block := (l.zipIdx.filter (fun x => x.2 % n != 0)).map (fun x => x.1)

/-- The frame of the test pattern: F, FAW and FC, and PRBS31 in every slot (03 Table 03-11). -/
def testFrame (n fc s : Nat) : List Block × Nat :=
  let step := fun (a : List Block × Nat) (x : Nat) =>
    if x % n = 0 then ((if x = 0 then mkBlock true (be 8 0x3E8B17D4A2C65F09 ++ be 8 fc) else 0) :: a.1, a.2)
    else let r := prbsRun 257 a.2 0; (BitVec.ofNat 257 r.1 :: a.1, r.2)
  let r := (List.range (64 * n)).foldl step ([], s)
  (r.1.reverse, r.2)

/-- The fill SA of a frame of 320 columns, if its channel has one, counts the frame. -/
def fillFrame (chid view fc n : Nat) (d : Dev) : Option Nat × Dev :=
  let fr := if n = 320 then takeFc chid view fc d else ((none, false), d)
  (fr.1.1, match fr.1.1 with | some o => saCount o 1 1 fr.2 | none => fr.2)

/-- What the transmit side keeps of the frame it sent. -/
def slotSentTx (fc n : Nat) (clients req : Bool) (refs : List Nat) (tags : Tab Bytes) (ptag : Bytes) (blocks : List Block) (x : SltTx) : SltTx :=
  { x with fc := fc, rei := false, portSa := true, tags := tags, ptag := ptag, running := clients, refs := refs, reqSent := x.reqSent || req
           sentFrom := if x.running && x.fc + 1 == fc then x.sentFrom else fc
           edc := crc32c (packBlocks (tributary n blocks)) }

/-- The frame's disposition, and its blocks on the line. -/
def slotSent (p fc sum : Nat) (blocks : List Block) (d : Dev) : Dev :=
  lineEmit (prtOf p) (.slot (prtOf p) blocks) (disposition (prtOf p) (d.getTck (prtOf p)).nextIdx (lo32 fc) { out := 0, pnfc := fc, slotSum := sum } d)

/-- PTAG and EDC of frame n are over frame n - 1; after a start or after idle no such frame was sent, and a test frame has no port tag: the spec
gives those values nowhere, and they are free (DESIGN CHOICE, log entry 52). -/
def priorFields (p fc : Nat) (d : Dev) : (Bytes × Nat) × Dev :=
  let x := (d.getSlt p).tx
  let sent := x.running && x.fc + 1 == fc
  let a := if sent && !x.ptag.isEmpty then (x.ptag, d) else freeBytes 16 d
  if sent then ((a.1, x.edc), a.2)
  else
    let b := freeNat a.2
    ((a.1, b.1 % 2 ^ 32), b.2)

/-- A slot frame under the port SA `ps` is built and sent (03 R75, R82 to R87). `clients` false: the last frame after EN = 0 (R89). -/
def sendSlotFrame (t : Tables) (p view fc n : Nat) (maps : List (Nat × List Block)) (clients : Bool) (ps : Nat) (d : Dev) : Dev :=
  let g := t.getSlt p
  let prior := priorFields p fc d
  let d := each (prior.2.getSlt p).tx.refs relRef prior.2
  let x := (d.getSlt p).tx
  let req := x.req && decide (x.reqAt ≤ view)
  let page := g.txPage x.act
  let ver := g.txVersion x.act
  let idxs := if clients then cliIndices g.txClient else []
  let r := buildClients t p view fc ver n page maps idxs d
  let built := r.1
  let live := (built.filter (fun c => c.slot.isSome)).map (fun c => c.idx)
  let m := mgmtSegment g p r.2
  let d := m.2
  let nextPage := g.txPage (if x.commit then !x.act else x.act)
  let next := (fc / 256 + 1) * 256
  let whole := decide ((if x.running && x.fc + 1 == fc then x.sentFrom else fc) + 256 ≤ next)
  let an := fun (pg : Tab Nat) (isNext : Bool) (i : Nat) =>
    let e := Tab.get 0 g.txClient i
    let l := d.getChl (cliChid e)
    if cliType e = 0 || (clientCols pg n i).isEmpty then 0
    else if isNext && l.seamKind != 0 && decide (l.seamTack ≤ view) && decide (seamFrom (t.getChn (cliChid e)) l d ≤ next) && whole then l.nextAn
    else if l.curV then l.curAn else 0
  let can := anBytes (an page false)
  let fr := fillFrame (fld g.fillCh 15 0) view fc n d
  let d := fr.2
  let sa := d.tab.getSa ps
  let plain := slotHeader { x with req := req } (sendsRdi (d.getSlt p).dfc.bits) (x.rei || (sltEn (d.tab.getSlt p) && !(d.getSlt p).rx.sync)) ver ++ can ++ anBytes (an nextPage true) ++ m.1
  let iv := slotIv sa fc
  let sealed := gcmSeal sa.key iv (slotAad fc 0xFFFF n ver) plain
  let need := fillNeed n page live x.tags
  let stream := fun (key iv : Bytes) (first bits : Nat) => ctrStream inc32 (aesKeys key) (ceilDiv bits 128) (iv ++ be 4 first)
  let lo := stream sa.key iv 63 (need.1 + (if fr.1.isSome then 0 else need.2))
  let hi := match fr.1 with
    | some o => stream (d.tab.getSa o).key (slotIv (d.tab.getSa o) fc) 2 need.2
    | none => lo
  let cli := built.foldl (fun (m : Tab (List Block)) c => Tab.set [] m c.idx c.blocks) []
  let grid := gridAll n (gridStep fc prior.1.2 sa.an prior.1.1 sealed.1 lo hi x.tags page live)
    ⟨0, if fr.1.isSome then 0 else need.1, cli, []⟩
  let blocks := grid.out.reverse
  let tags := built.foldl (fun (m : Tab Bytes) c => if c.slot.isSome then Tab.set [] m c.idx c.tag else m) []
  let refs := ps :: built.filterMap (fun c => c.slot) ++ fr.1.toList
  let muted := (built.filter (fun c => c.slot.isNone)).foldl (fun a c => a + 2 ^ (63 - c.idx)) 0
  slotSent p fc (crc32c (can ++ be 8 muted)) blocks
    (updSTx p (slotSentTx fc n clients req refs tags sealed.2 blocks) (saCount ps 3 plain.length (saCount ps 1 1 d)))

/-- The record of a slot-frame period in which no slot frame of the datapath goes out: `out` 3 on a fallow port, 4 on a fenced one, 0 in test
mode (09 R243; log entry 53). -/
def slotPassed (p fc out : Nat) (d : Dev) : Dev :=
  disposition (prtOf p) (d.getTck (prtOf p)).nextIdx (lo32 fc) { out := out, pnfc := fc } d

/-- The port channel's SA may not encrypt the frame: the cipher port goes fallow (03 R87). -/
def portSaFallow (t : Tables) (p fc : Nat) (d : Dev) : Dev :=
  let chid := fld (t.getSlt p).portCh 15 0
  let slot := (curSlot t chid d).getD 0x1FFFF
  let was := (d.getPort (prtOf p)).fallowSa
  let d := updSTx p (fun x => { x with portSa := false, running := false }) (dropTags p (d.updPort (prtOf p) (fun x => { x with fallowSa := true })))
  slotPassed p fc 3 (lineEmit (prtOf p) (.idle (prtOf p)) (if was then d else event 0x0301 3 (be 1 p ++ be 3 slot ++ be 4 fc) d))

/-- The port is fallow by something other than its own port SA; SERVICE lets a test pattern go out (14 Table 14-1). -/
def slotFallow (t : Tables) (p : Nat) (d : Dev) : Bool :=
  let n := prtOf p
  (modeFallow d.mod.mode && !(d.mod.mode == .service && sltTest (t.getSlt p))) || d.flt.poolFallow
    || lcFallow d || (portSlices d.tab n).any (sliceDown d) || (d.getPort n).fallowSram

/-- A frame of the test pattern has left: it carries no NAN, so that no announcement reaches across it (03 R88), and no port tag; EDC of the next
frame is over it (R75). The port channel's SA encrypted nothing of it. -/
def testSent (fc n : Nat) (r : List Block × Nat) (x : SltTx) : SltTx :=
  { x with fc := fc, sentFrom := fc + 1, prbs := r.2, running := true, portSa := false, edc := crc32c (packBlocks (tributary n r.1)) }

/-- One slot frame period of a Slot-mode cipher port that is sending (03 R82; 08 R215). After EN = 0 in its own view (08 R216) it sends the frame with the last
tags, and then idle; no tag follows that frame, so its reference ends (R89, 05 R146). After EN = 0 with TESTPAT 1 it goes straight to idle: there is no tag of
a last frame to send (DESIGN CHOICE, log entry 70). -/
def doSlotTransmit (p : Nat) (maps : List (Nat × List Block)) (d : Dev) : Dev :=
  let n := prtOf p
  let k := d.getTck n
  let idx := k.nextIdx
  let v := viewTack n idx d
  let t := tabAt v d
  let g := t.getSlt p
  if linesOff d || !portEnabled d n || !(sltEn g || (d.getSlt p).tx.running) || k.horizon ≤ idx || resyncHold n d then d
  else
    let fc := g.fcBase + idx
    let off := match k.disableTack with | some j => decide (j ≤ v) | none => false
    let idle := fun (d : Dev) => updSTx p (fun x => { x with running := false }) (dropTags p (lineEmit n (.idle n) d))
    let d :=
      if off then updSTx p (fun x => { x with running := false }) (dropTags p d)
      else if slotFallow t p d then slotPassed p fc 3 (idle d)
      else if portFenced d n then slotPassed p fc 4 (fenceDrop n (idle d))
      else if sltTest g && !sltEn g then slotPassed p fc 3 (idle d)
      else if sltTest g then
        let r := testFrame (slotCols t p) fc (d.getSlt p).tx.prbs
        slotPassed p fc 0 (lineEmit n (.slot n r.1) (updSTx p (testSent fc (slotCols t p) r) (dropTags p d)))
      else
        let d := txMultiframe p fc d
        let ps := takeFc (fld g.portCh 15 0) v fc d
        match ps.1.1 with
        | none => portSaFallow t p fc ps.2
        | some slot =>
          let d := ps.2.updPort n (fun x => { x with fallowSa := false })
          let d := sendSlotFrame t p v fc (slotCols t p) maps (sltEn g) slot d
          if sltEn g then d else lineEmit n (.idle n) d
    let d := if sltEn g then d else stopTx p d
    settlePort n (d.updTck n (fun x => { x with nextIdx := idx + 1, admitted := idx + 1, got := x.got + 1 }))

/-- SLOT_FRAME_TRANSMIT. -/
def execSlotFrameTransmit (p : Nat) (maps : List (Nat × List Block)) (s : State) : Host.Outcome State Fault Refusal :=
  done s (doSlotTransmit p maps)

/-! ### Hunting (04 R109 to R111) -/

/-- The frame before counts as errored or not at the near end (04 R122, R124). -/
def judgeFrame (p : Nat) (errored : Bool) (d : Dev) : Dev :=
  if errored then updSTx p (fun x => { x with rei := true }) (updPm p (fun m => { m with errored := m.errored + 1 }) d) else d

/-- The FAW of 03 Table 03-2. -/
def slotFaw : Nat := 0x3E8B17D4A2C65F09

/-- One block of the hunt, as the procedure of 04 R110 runs over the candidates in turn: those before the confirmed one are judged, those after it
stay as they are. -/
def huntStep (n : Nat) (x : Block) (r : SltRx) : SltRx :=
  let pos := r.pos
  let b := blockBytes x
  let f := blockF x
  let faw := beAt b 0 8 == slotFaw
  let fc := beAt b 8 8
  let r := { r with pos := pos + 1 }
  let keep := fun (c : Nat × Nat) => let d := pos - c.1; !(d == 64 * n) && !(decide (d < 64 * n) && d % n == 0 && f)
  match r.cand.findIdx? (fun c => pos - c.1 == 64 * n && f && faw && fc == c.2 + 1) with
  | some i =>
    { r with sync := true, fcSync := true, first := true, fc := (fc + 1) % 2 ^ 64, cand := (r.cand.take i).filter keep ++ r.cand.drop i
             badFc := none, commit := false, recovery := false, fawErr := 0 }
  | none =>
    let cand := r.cand.filter keep
    if f && faw then
      if cand.length < 8 then { r with cand := cand ++ [(pos, fc)] } else { r with cand := cand, candOvf := Nat.min 255 (r.candOvf + 1) }
    else { r with cand := cand }

/-- HUNT_BLOCK: one block, while the framer hunts and the PCS is aligned; each frame period of blocks is a frame not received in alignment (04
R124). -/
def doHuntBlock (p : Nat) (x : Block) (d : Dev) : Dev :=
  let n := slotCols d.tab p
  if !sltEn (d.tab.getSlt p) || !portEnabled d (prtOf p) || linesOff d || (d.getSlt p).rx.sync || (d.getPort (prtOf p)).loa || n = 0 then d
  else
    let d := updSRx p (huntStep n x) d
    if (d.getSlt p).rx.sync then setDef p 2 false (clearHeldAn p d)
    else judgeFrame p ((d.getSlt p).rx.pos % (64 * n) == 0) d

/-- HUNT_BLOCK. -/
def execHuntBlock (p : Nat) (blk : Block) (s : State) : Host.Outcome State Fault Refusal := done s (doHuntBlock p blk)

/-! ### Playout and delivery of client frames (03 R96, R97; 04 R116, R117; 09 R242) -/

/-- A port client's frame goes to its playout buffer: `blocks` verified, or `none` when it failed. -/
def playPush (p i k : Nat) (blocks : Option (List Block)) (d : Dev) : Dev :=
  let r := (d.getSlt p).rx
  if clientFault p i d then d
  else match blocks with
    | none =>
      if Tab.get false r.play i then
        updSRx p (fun r => { r with buf := Tab.set [] r.buf i (Tab.get [] r.buf i ++ List.replicate (64 * k) errorBlock), needStart := Tab.set false r.needStart i true }) d
      else d
    | some l =>
      let need := !Tab.get false r.play i || Tab.get false r.needStart i
      let l := if need && beginsInside l then errorToStart l else l
      updSRx p (fun r => { r with play := Tab.set false r.play i true, needStart := Tab.set false r.needStart i false,
                                  buf := Tab.set [] r.buf i (Tab.get [] r.buf i ++ l) }) d

/-- A packet client's frame: the packets that end in it are released, or those it touches discarded. -/
def packetPush (p i chid slot fc : Nat) (blocks : Option (List Block)) (d : Dev) : Dev :=
  match blocks with
  | none => updSRx p (fun r => { r with pkt := Tab.set none r.pkt i none }) d
  | some l =>
    if clientFault p i d then updSRx p (fun r => { r with pkt := Tab.set none r.pkt i none }) d
    else
      let r := decodeBlocks (Tab.get none (d.getSlt p).rx.pkt i) l
      let d := updSRx p (fun x => { x with pkt := Tab.set none x.pkt i r.1 }) d
      each r.2 (fun f d =>
        let b := f.1.take (f.1.length - 4)
        if f.1.length < 18 then d
        else releaseSlotFrame (prtOf p) fc chid slot (d.tab.getChn chid).dst b (f.2 && ofLe (f.1.drop (f.1.length - 4)) == crc32 b) d) d

/-- Deliver or fail a client frame. -/
def clientPush (p i k chid slot fc : Nat) (blocks : Option (List Block)) (d : Dev) : Dev :=
  if cliType (Tab.get 0 (d.tab.getSlt p).rxClient i) = 2 then packetPush p i chid slot fc blocks d else playPush p i k blocks d

/-- Where a receive client channel stands: (cipher position, client index). -/
def clientPlace (t : Tables) (chid : Nat) : Option (Nat × Nat) :=
  (t.slt.map (fun e => (e.2.rxClient.filter (fun x => cliType x.2 != 0 && cliChid x.2 == chid)).map (fun x => (e.1, x.1)))).flatten.head?

/-- A merge group plays out another member from now on: the old one's playout ends, the switch is counted (09 R242). -/
def selectMember (chid g c : Nat) (d : Dev) : Dev :=
  let d := twnCount 6 { d with twn := { d.twn with
    mgSel := Tab.set 0 d.twn.mgSel (groupKey chid g) c, mgFail := Tab.set none d.twn.mgFail (groupKey chid g) none } }
  match clientPlace d.tab chid with
  | some pl => updSRx pl.1 (fun r => { r with play := Tab.set false r.play pl.2 false, buf := Tab.set [] r.buf pl.2 [] }) d
  | none => d

/-- The selected member failed: another member that holds a later verified frame takes over (09 R242); where none does yet, the first that
verifies a later frame will. -/
def mergeSwitch (chid g fc : Nat) (d : Dev) : Dev :=
  let others := (groupOthers d.tab chid g).filterMap (fun e => (clientPlace d.tab e.1).bind (fun pl =>
    (Tab.get none (d.getSlt pl.1).rx.spare pl.2).map (fun s => (e.1, pl, s))))
  match others.find? (fun o => decide (fc < o.2.2.1)) with
  | none => { d with twn := { d.twn with mgFail := Tab.set none d.twn.mgFail (groupKey chid g) (some fc) } }
  | some (c, pl, s) =>
    let d := updSRx pl.1 (fun r => { r with play := Tab.set false r.play pl.2 false, buf := Tab.set [] r.buf pl.2 [] }) (selectMember chid g c d)
    clientPush pl.1 pl.2 0 c s.2.1 s.1 (some s.2.2) d

/-- A client frame fails (03 R96, 04 Table 04-1): `slot` is its SA where one is known. -/
def clientFail (p i k chid fc : Nat) (slot : Option Nat) (d : Dev) : Dev :=
  let d := match slot with | some s => saCount s 1 1 d | none => d
  let run := Tab.get 0 (d.getSlt p).dfc.ctagRun i + 1
  let d := updSDef p (fun x => { x with ctagRun := Tab.set 0 x.ctagRun i run }) d
  let d := if run ≥ 3 then setCtag p i true d else d
  let g := (d.tab.getChn chid).mgrp
  if g = 0 then clientPush p i k chid 0 fc none d
  else if Tab.get 0 d.twn.mgSel (groupKey chid g) = chid then mergeSwitch chid g fc (clientPush p i k chid 0 fc none d)
  else updSRx p (fun r => { r with spare := Tab.set none r.spare i none }) d

/-- A client frame verifies (03 R91, R94, R108); one of a merge member that is not played out counts in InPktsMergeDup only (09 R242). -/
def clientOk (p : Nat) (h : HeldClient) (d : Dev) : Dev :=
  let d := d.updLive h.slot (fun l => { l with nextPn := h.fc + 1 })
  let d := setCtag p h.idx false (updSDef p (fun x => { x with ctagRun := Tab.set 0 x.ctagRun h.idx 0 }) d)
  let g := (d.tab.getChn h.chid).mgrp
  let key := groupKey h.chid g
  let d := if g = 0 then d
    else if Tab.get 0 d.twn.mgSel key = 0 then { d with twn := { d.twn with mgSel := Tab.set 0 d.twn.mgSel key h.chid } }
    else if Tab.get 0 d.twn.mgSel key = h.chid then { d with twn := { d.twn with mgFail := Tab.set none d.twn.mgFail key none } }
    else match Tab.get none d.twn.mgFail key with
      | some f => if f < h.fc then selectMember (Tab.get 0 d.twn.mgSel key) g h.chid d else d
      | none => d
  if g ≠ 0 && Tab.get 0 d.twn.mgSel key ≠ h.chid then
    saCount h.slot 3 1 (updSRx p (fun r => { r with spare := Tab.set none r.spare h.idx (some (h.fc, h.slot, h.blocks)) }) d)
  else clientPush p h.idx 0 h.chid h.slot h.fc (some h.blocks) (saCount h.slot 5 h.octets (saCount h.slot 0 1 d))

/-! ### The verified header (03 R76, R92, R93, R100, R103, R104; 04 R115, R127) -/

/-- A management segment that verified (03 R100): it is appended only when its SEQ follows and it is SOM or continues a message; otherwise a message
in progress is discarded and counted. The first valid segment, with none before it, follows (DESIGN CHOICE, log entry 70). A SOM segment in sequence
that finds a message in progress discards and counts that message and starts its own (DESIGN CHOICE, log entry 91). -/
def mgmtReceive (p fc : Nat) (seg : Bytes) (d : Dev) : Dev :=
  let g := d.tab.getSlt p
  let r := (d.getSlt p).rx
  let flags := byteAt seg 0
  if !bitAt flags 7 || !bitAt g.ctrl 1 then d
  else
    let seq := byteAt seg 1
    let len := beAt seg 2 2
    let som := bitAt flags 6
    let follows := match r.mgmtSeq with | none => true | some s => seq == (s + 1) % 256
    let soFar := if som then some [] else r.mgmt
    let d := updSRx p (fun r => { r with mgmtSeq := some seq }) d
    let drop := fun (d : Dev) => updSRx p (fun r => { r with mgmt := none }) (when_ r.mgmt.isSome (sltCount p 3) d)
    match soFar with
    | some b =>
      if !follows then drop d
      else
        let d := if som && r.mgmt.isSome then sltCount p 3 d else d
        let b := b ++ sub_ seg 4 (Nat.min len 924)
        if 16384 < b.length then updSRx p (fun r => { r with mgmt := none }) (sltCount p 3 d)
        else if bitAt flags 5 then
          extract (fld g.ctrl 15 12) (prtOf p) 0 fc true (0x58 + p / 4) [] b (updSRx p (fun r => { r with mgmt := none }) d)
        else updSRx p (fun r => { r with mgmt := some b }) d
    | none => drop d

/-- The AN held for a client changes; the channel record shows it (05 Table 05-1). -/
def setHeldAn (p i an : Nat) (d : Dev) : Dev :=
  let e := Tab.get 0 (d.tab.getSlt p).rxClient i
  let d := updSRx p (fun r => { r with an := Tab.set none r.an i (some an) }) d
  if cliType e = 0 then d else d.updChl (cliChid e) (fun l => { l with curAn := an, curV := true })

/-- CAN of a verified header against the ANs that were held for its frame (03 R92); what it changes applies from the next frame on. -/
def canReceive (p : Nat) (h : HeldPort) (can : Bytes) (d : Dev) : Dev :=
  each (List.range 64) (fun i d =>
    let an := anOf can i
    match Tab.get none h.an i with
    | none => if (Tab.get none (d.getSlt p).rx.an i).isNone then setHeldAn p i an d else d
    | some a =>
      if a = an || Tab.get none (d.getSlt p).rx.an i = some an then updSRx p (fun r => { r with anDiff := r.anDiff.erase i }) d
      else if (d.getSlt p).rx.anDiff.contains i then
        setHeldAn p i an (sltCount p 2 (updSRx p (fun r => { r with anDiff := r.anDiff.erase i }) d))
      else updSRx p (fun r => { r with anDiff := i :: r.anDiff }) d) d

/-- dRDI: three verified headers in a row (04 Table 04-1), and the far-end counts of the second (04 R127). -/
def rdiReceive (p : Nat) (rdi rei : Bool) (d : Dev) : Dev :=
  let d := updPm p (fun m => { m with hdrs := m.hdrs + 1, hdrRei := m.hdrRei + rei.toNat, hdrRdi := m.hdrRdi || rdi }) d
  let d := updSDef p (fun x => if rdi then { x with rdiRun := x.rdiRun + 1, rdiClr := 0 } else { x with rdiClr := x.rdiClr + 1, rdiRun := 0 }) d
  let x := (d.getSlt p).dfc
  if x.rdiRun ≥ 3 then setDef p 6 true d else if x.rdiClr ≥ 3 then setDef p 6 false d else d

/-- The far end's calendar fields (03 R103, R104): `late` when the header's frame was the last of its multiframe. -/
def calReceive (p : Nat) (h : HeldPort) (hdr : Bytes) (late : Bool) (d : Dev) : Dev :=
  let g := d.tab.getSlt p
  let f := byteAt hdr 2
  let cvAct := beAt hdr 3 2
  let cvReq := beAt hdr 5 2
  let s := d.getSlt p
  -- the answer to a request
  let d := if bitAt f 6 then
      (if s.rx.reqSeen then d
       else
         let d := updSRx p (fun r => { r with reqSeen := true }) d
         if g.rxVersion (!s.rx.act) = cvReq && !tooFewSlots d.tab p (g.rxPage (!s.rx.act)) g.rxClient then updSTx p (fun x => { x with ack := true, cvAck := cvReq }) d else sltCount p 5 d)
    else updSTx p (fun x => { x with ack := false, cvAck := 0 }) (updSRx p (fun r => { r with reqSeen := false }) d)
  -- the answer to the own request
  let d := if bitAt f 4 && s.tx.req && s.tx.reqSent && beAt hdr 7 2 == s.tx.cvReq then updSTx p (fun x => { x with acked := true }) d else d
  -- commit and recovery
  let d := if bitAt f 5 && !late then updSRx p (fun r => { r with commit := true }) d else d
  if bitAt f 7 != h.act && h.act == s.rx.act && cvAct == g.rxVersion (!h.act) && !tooFewSlots d.tab p (g.rxPage (!h.act)) g.rxClient then updSRx p (fun r => { r with recovery := true }) d else d

/-- A verified port plaintext is acted on (03 R93). The NAN of frame 255, whose tag verifies in frame 0 of the next multiframe, comes too late for
that boundary and is not latched (DESIGN CHOICE, log entry 70). -/
def headerReceive (p : Nat) (h : HeldPort) (d : Dev) : Dev :=
  let hdr := h.plain.take 11
  let can := sub_ h.plain 11 16
  let nan := sub_ h.plain 27 16
  let bad := fld (byteAt hdr 0) 7 4 != 1
  let late := h.fc % 256 == 255
  let d := setDef p 5 bad (updSRx p (fun r => { r with fmtBad := bad, nan := if late then r.nan else some nan }) d)
  let d := rdiReceive p (bitAt (byteAt hdr 1) 7) (bitAt (byteAt hdr 1) 6) d
  mgmtReceive p h.fc (sub_ h.plain 43 928) (calReceive p h hdr late (canReceive p h can d))

/-! ### Receiving a frame (03 R90 to R96; 04 R112, R124) -/

/-- Frame 0 of a multiframe: the latched NAN and a due calendar switch (03 R92, R103, R104). -/
def rxMultiframe (p fc : Nat) (d : Dev) : Dev :=
  if fc % 256 ≠ 0 then d
  else
    let r := (d.getSlt p).rx
    let d := match r.nan with
      | some b => each (List.range 64) (fun i d => setHeldAn p i (anOf b i) d) d
      | none => d
    let d := updSRx p (fun r => { r with nan := none, commit := false, recovery := false }) d
    if r.commit || r.recovery then
      let d := updSTx p (fun x => { x with ack := false, cvAck := 0 })
        (updSRx p (fun r => { r with act := !r.act, swMf := fld fc 15 8 }) d)
      if r.commit then d
      else
        event 0x0303 1 (be 1 p ++ be 2 ((d.tab.getSlt p).rxVersion (!r.act)) ++ be 1 (fld fc 15 8))
          (updSRx p (fun r => { r with recov := true }) d)
    else d

/-- The port tag of the frame before: `tag` is `none` when its carrier was not received in alignment. The flag says it failed. -/
def ptagVerify (p : Nat) (tag : Option Bytes) (d : Dev) : Bool × Dev :=
  let r := (d.getSlt p).rx
  if !r.hasPrev || !r.prevIn then (false, d)
  else
    let ok := match r.heldPort, tag with | some h, some b => decide (h.tag = b) | _, _ => false
    let d := updSRx p (fun r => { r with heldPort := none }) (match r.heldPort with | some h => relRef h.slot d | none => d)
    match r.heldPort with
    | some h =>
      if ok then
        let d := d.updLive h.slot (fun l => { l with nextPn := h.fc + 1 })
        let d := saCount h.slot 5 h.plain.length (saCount h.slot 0 1 d)
        let d := updSDef p (fun x => { x with ptagRun := 0, ptagOk := x.ptagOk + 1 }) d
        (false, headerReceive p h (if (d.getSlt p).dfc.ptagOk ≥ 2 then setDef p 4 false d else d))
      else fail (saCount h.slot 1 1 d)
    | none => fail d
where
  /-- A failed port tag: SLT[p]_CNT_PTAGFAIL and dPTAG. -/
  fail (d : Dev) : Bool × Dev :=
    let d := sltCount p 1 (updSDef p (fun x => { x with ptagRun := x.ptagRun + 1, ptagOk := 0 }) d)
    (true, if (d.getSlt p).dfc.ptagRun ≥ 8 then setDef p 4 true d else d)

/-- The cipher port discards what it receives: a fallow port's frames go on being counted (15 R422). -/
def slotDeaf (p : Nat) (d : Dev) : Bool := slotFallow d.tab p d || (d.getPort (prtOf p)).fallowSa

/-- The record of a received slot frame, numbered by its FC: it belongs to the receive stream's batches of its port (09 R243, log entry 53). A fallow
port drops what it receives, a fenced one discards it. -/
def rxDisposition (p fc failed : Nat) (d : Dev) : Dev :=
  let can := anBytes (fun i => (Tab.get none (d.getSlt p).rx.an i).getD 0)
  let out := if portFenced d (prtOf p) then 4 else if slotDeaf p d then 3 else 0
  rxRecord (prtOf p) fc { out := out, pnfc := fc, slotSum := crc32c (can ++ be 8 failed) } d

/-- The client tags of the frame before, and its disposition, which every received slot frame has (03 R94, R96; 09 R243): its FC is the one before
the FC expected now. A frame whose clients a foreign FMTMAJ fails is counted (R76). -/
def clientsVerify (p : Nat) (tags : Option (Nat → Bytes)) (d : Dev) : Dev :=
  let r := (d.getSlt p).rx
  let d := when_ (r.fmtBad && r.hasPrev && r.prevIn) (sltCount p 4) d
  let bad := r.held.filter (fun h => h.failed || r.fmtBad || (match tags with | some f => f h.idx != h.tag | none => true)
    || badCells h.cells d)
  let d := updSRx p (fun r => { r with held := [], heldPort := none }) d
  let d := each r.held (fun h d =>
    if h.failed then d
    else
      let d := freeStage (0x58 + chSlice h.chid) h.cells (relRef h.slot d)
      if bad.contains h then clientFail p h.idx (h.blocks.length / 64) h.chid h.fc (some h.slot) d else clientOk p h d) d
  when_ r.hasPrev (rxDisposition p ((r.fc + 2 ^ 64 - 1) % 2 ^ 64) (bad.foldl (fun a x => a + 2 ^ (63 - x.idx)) 0)) d

/-- The framer leaves alignment and hunts, with no candidate (04 R109, R112): the frame before is followed by none in alignment, so its tags and
it are lost (03 R93, R96; 04 R124). Only a FAW that is not errored resets their count. -/
def loseAlign (p : Nat) (d : Dev) : Dev :=
  let was := (d.getSlt p).rx.sync
  let had := (d.getSlt p).rx.hasPrev
  let d := if was then dropHeld p (judgeFrame p had (clientsVerify p none (ptagVerify p none d).2)) else d
  let d := clearHeldAn p (updSRx p (fun r => { r with
    sync := false, fcSync := false, first := false, cand := [], badFc := none, prbs := none
    oofCnt := if was then Nat.min 255 (r.oofCnt + 1) else r.oofCnt }) d)
  setDef p 2 true d

/-- A port's LOA changes; the framer loses its alignment with the PCS (12 R351, 04 R109). -/
def updateLoa (n : Nat) (b : Bool) (d : Dev) : Dev :=
  if (d.getPort n).loa == b then d
  else
    let d := d.updPort n (fun p => { p with loa := b, loaChg := true })
    if isCipher n then
      let d := setDef (facePos n) 1 b (when_ b (frameDefect n) d)
      if b && sltEn (d.tab.getSlt (facePos n)) then loseAlign (facePos n) d else d
    else updateCsfAll d

/-- A receive SA admits a frame's FC (03 R91; 05 R147): the slot, or the counts of its failure. -/
def rxSlotSa (p chid : Nat) (an : Option Nat) (fc : Nat) (d : Dev) : (Option Nat × Option Nat) × Dev :=
  let c := d.tab.getChn chid
  if !c.en || !isRc chid then ((none, none), portCount (prtOf p) 8 d)
  else match an.bind (anSlotOf d.tab chid) with
    | none => ((none, none), if an.isSome then portCount (prtOf p) 9 d else d)
    | some slot =>
      if (d.tab.getSa slot).state ≠ .active || !isXpn (d.tab.getSa slot).suite then ((none, some slot), portCount (prtOf p) 9 d)
      else if fc < (d.getLive slot).nextPn then ((none, some slot), saCount slot 2 1 d)
      else ((some slot, some slot), d)

/-- One client of a received frame is decrypted into held cells, or fails (03 R90 to R96); `ans` are the ANs held as the frame begins. A frame lost
for want of a cell counts in InPktsOverrun and, as a failed frame of its SA, in InPktsNotValid too (DESIGN CHOICE, log entry 92). -/
def clientReceive (p n fc ver : Nat) (page : Tab Nat) (ans : Tab (Option Nat)) (blocks : List Block) (readable : Bool) (i : Nat) (d : Dev) : Dev :=
  let e := Tab.get 0 (d.tab.getSlt p).rxClient i
  let cols := clientCols page n i
  if cliType e = 0 || cols.isEmpty then d
  else
    let chid := cliChid e
    let hold := fun (h : HeldClient) (d : Dev) => updSRx p (fun r => { r with held := r.held ++ [h] }) d
    let bad := fun (slot : Option Nat) (d : Dev) =>
      hold ⟨i, 0, [], [], chid, 0, [], true, fc⟩ (clientFail p i cols.length chid fc slot d)
    if !readable then
      bad ((Tab.get none ans i).bind (anSlotOf d.tab chid)) d
    else
      let r := rxSlotSa p chid (Tab.get none ans i) fc d
      match r.1.1 with
      | none => bad r.1.2 r.2
      | some slot =>
        let sa := d.tab.getSa slot
        let mine := (blocks.zipIdx.filter (fun x => cols.contains (x.2 % n))).map (fun x => x.1)
        let cipher := packBlocks mine
        let cells := ceilDiv cipher.length 256
        let c := takeCells (0x58 + chSlice chid) cells r.2
        match c.1 with
        | none => bad (some slot) (saCount slot 6 1 c.2)
        | some cells =>
          let iv := slotIv sa fc
          hold ⟨i, slot, unpackBlocks (gcmCrypt sa.key iv cipher), gcmTag sa.key iv (slotAad fc i cols.length ver) cipher, chid,
                cipher.length, cells, false, fc⟩ (takeRef slot c.2)

/-- The port plaintext of a received frame is decrypted and held (03 R85, R93). One that R90 or R91 fails counts in InPktsNotValid of the SA that PAN
names (R96, R108). -/
def portReceive (p n fc ver : Nat) (ans : Tab (Option Nat)) (blocks : List Block) (readable : Bool) (d : Dev) : Dev :=
  let col := fun (r : Nat) => blockBytes (blocks.getD (r * n) 0)
  let chid := fld (d.tab.getSlt p).portCh 31 16
  let pan := fld (byteAt (col 0) 20) 7 6
  let bad := fun (slot : Option Nat) (d : Dev) => match slot with | some o => saCount o 1 1 d | none => d
  let r := if readable then rxSlotSa p chid (some pan) fc d else ((none, anSlotOf d.tab chid pan), d)
  match r.1.1 with
  | none => bad r.1.2 r.2
  | some slot =>
    let sa := d.tab.getSa slot
    let iv := slotIv sa fc
    let cipher := (col 0).drop 21 ++ ((List.range 30).map (fun k => col (k + 2))).flatten
    let x := (r.2.getSlt p).rx
    updSRx p (fun y => { y with heldPort := some ⟨slot, gcmCrypt sa.key iv cipher, gcmTag sa.key iv (slotAad fc 0xFFFF n ver) cipher, fc, ans, x.act⟩ })
      (takeRef slot r.2)

/-- The FC of a received frame against the expected FC (03 R90, 04 Table 04-1): true when it is as expected. -/
def fcReceive (p fc expect : Nat) (d : Dev) : Bool × Dev :=
  if fc = expect then
    let d := updSRx p (fun r => { r with badFc := none, fc := (expect + 1) % 2 ^ 64 }) d
    let d := updSDef p (fun x => { x with lomRun := 0, lomClr := x.lomClr + 1 }) d
    (true, if (d.getSlt p).dfc.lomClr ≥ 2 then setDef p 3 false d else d)
  else
    let adopt := match (d.getSlt p).rx.badFc with | some b => fc == (b + 1) % 2 ^ 64 | none => false
    let d := updSRx p (fun r => { r with badFc := if adopt then none else some fc, fc := ((if adopt then fc else expect) + 1) % 2 ^ 64 }) d
    let d := sltCount p 0 (updSDef p (fun x => { x with lomRun := x.lomRun + 1, lomClr := 0 }) d)
    (false, if (d.getSlt p).dfc.lomRun ≥ 3 then setDef p 3 true d else d)

/-- The PRBS31 of a test-pattern frame: bit errors counted; the flag says that there was one (04 R124). -/
def prbsReceive (p n : Nat) (blocks : List Block) (d : Dev) : Bool × Dev :=
  let bits := ((tributary n blocks).map blockBits).flatten
  let r := match (d.getSlt p).rx.prbs with
    | some s => prbsCheck bits s 0
    | none => prbsCheck (bits.drop 31) (prbsSeed bits) 0
  let d := d.updSlt p (fun s => { s with prbsErr := sat64 (s.prbsErr + r.1), rx := { s.rx with prbs := some r.2 } })
  (r.1 != 0, d)

/-- A frame of a port in test mode: the frame before it is judged, and its own bits are. A frame that came before test mode gets no tags; EDC is not
checked (04 R124). -/
def slotTest (p n expect : Nat) (b : Bytes) (r : SltRx) (blocks : List Block) (uncorr : Bool) (d : Dev) : Dev :=
  let t := ptagVerify p none d
  let e := prbsReceive p n blocks (judgeFrame p (r.hasPrev && (r.prevErr || t.1)) (clientsVerify p none t.2))
  let f := fcReceive p (beAt b 8 8) expect e.2
  updSRx p (fun x => { x with hasPrev := true, prevIn := false, prevErr := e.1 || uncorr || !f.1, edc := crc32c (packBlocks (tributary n blocks)) }) f.2

/-- The tags the frame carries judge the frame before it, and its FC this one: is the FC the expected one? What a port held when it went fallow is
discarded, and the EDC judges alone (15 R422, 04 R124). -/
def slotJudge (p n expect : Nat) (b : Bytes) (r : SltRx) (blocks : List Block) (uncorr : Bool) (d : Dev) : Bool × Dev :=
  let col := fun (k : Nat) => blockBytes (blocks.getD (k * n) 0)
  let d := updSRx p (fun x => { x with prbs := none }) (if slotDeaf p d then freeHeld p d else d)
  let t := ptagVerify p (some ((col 1).take 16)) d
  let d := clientsVerify p (some (fun i => sub_ (col (32 + i / 2)) (16 * (i % 2)) 16)) t.2
  let f := fcReceive p (beAt b 8 8) expect (judgeFrame p (r.hasPrev && (r.prevErr || t.1 || beAt b 16 4 != r.edc)) d)
  (f.1, updSRx p (fun x => { x with hasPrev := true, prevIn := true, prevErr := uncorr || !f.1, edc := crc32c (packBlocks (tributary n blocks)) }) f.2)

/-- The frame's header and clients are taken, unless the port's slice is fallow. `ans` are the ANs held as the frame began: what the header of the
frame before has just said of them applies from the next frame on (03 R92, 04 R114). -/
def slotTake (p n expect : Nat) (fcOk : Bool) (ans : Tab (Option Nat)) (blocks : List Block) (d : Dev) : Dev :=
  if slotDeaf p d then updSRx p (fun x => { x with prevIn := false }) d
  else
    let d := when_ (portFenced d (prtOf p)) (fenceDrop (prtOf p)) d
    let ver := (d.tab.getSlt p).rxVersion (d.getSlt p).rx.act
    let page := (d.tab.getSlt p).rxPage (d.getSlt p).rx.act
    each (List.range 64) (clientReceive p n expect ver page ans blocks fcOk) (when_ (!blocks.isEmpty) (portReceive p n expect ver ans blocks fcOk) d)

/-- A frame whose alignment word is errored: nothing of it is used, its clients fail, and in test mode its PRBS31 bits are counted all the same (04
R124); five in a row lose alignment. DESIGN CHOICE (log entry 54): each such frame counts as not received in alignment at once, fewer than five in a row too. -/
def slotFawBad (p n expect : Nat) (hasPrev : Bool) (blocks : List Block) (d : Dev) : Dev :=
  let ans := (d.getSlt p).rx.an
  let d := if slotDeaf p d then freeHeld p d else d
  let d := judgeFrame p hasPrev (clientsVerify p none (ptagVerify p none d).2)
  let d := updSRx p (fun r => { r with fawErr := r.fawErr + 1, fc := (expect + 1) % 2 ^ 64, hasPrev := true, prevIn := false, prevErr := true }) d
  let d := if sltTest (d.tab.getSlt p) then (prbsReceive p n blocks d).2
    else slotTake p n expect false ans [] d
  if (d.getSlt p).rx.fawErr ≥ 5 then loseAlign p d else d

/-- The blocks of an uncorrectable codeword come marked in error: none passes as valid data (12 R351). -/
def markErr (err : List Nat) (blocks : List Block) : List Block := blocks.zipIdx.map (fun x => if err.contains x.2 then errorBlock else x.1)

/-- An aligned slot frame is received (03 R90). `uncorr`: an uncorrectable codeword carried part of it; `fec` is what the RS decoder has handled
since the frame before, on any configured port (12 R351). -/
def doSlotReceive (p : Nat) (blocks : List Block) (uncorr : Bool) (fec : FecRun) (d : Dev) : Dev :=
  let g := d.tab.getSlt p
  let n := slotCols d.tab p
  let d := if linesOff d || n = 0 then d else fecCount (prtOf p) fec d
  if !sltEn g || !portEnabled d (prtOf p) || linesOff d || !(d.getSlt p).rx.sync || blocks.length ≠ 64 * n then d
  else
    let r := (d.getSlt p).rx
    let expect := if r.first then (r.fc + 2 ^ 64 - 1) % 2 ^ 64 else r.fc
    let b0 := blocks.headD 0
    let b := blockBytes b0
    let d := updPm p (fun m => { m with periods := m.periods + 1 }) (updSRx p (fun r => { r with first := false }) d)
    let d := rxMultiframe p expect d
    if !blockF b0 || decide (3 < popN 64 (beAt b 0 8 ^^^ slotFaw)) then slotFawBad p n expect r.hasPrev blocks d
    else
      let d := updSRx p (fun r => { r with fawErr := 0 }) d
      if sltTest g then slotTest p n expect b r blocks uncorr d
      else
        let ans := (d.getSlt p).rx.an
        let f := slotJudge p n expect b r blocks uncorr d
        slotTake p n expect f.1 ans blocks f.2

/-- SLOT_FRAME_RECEIVE. -/
def execSlotFrameReceive (p : Nat) (blocks : List Block) (fin : FrameEnd) (s : State) : Host.Outcome State Fault Refusal :=
  done s (doSlotReceive p (markErr fin.err blocks) (!fin.ok || !fin.err.isEmpty) fin.fec)

/-- Packets that begin in a run of blocks. -/
def packetStarts (l : List Block) : Nat := (l.filter hasStart).length

/-- A port client's verified blocks leave for its clear port, with idle blocks deleted or inserted between packets, as 66-bit blocks where the port
has no RS-FEC; or local fault does (03 R78, R97, 04 R117). A merge member that is not played out gives its port nothing (09 R242); a shadow
that suppresses its clear ports counts the packets it releases (R238). -/
def doPlayout (p i : Nat) (d : Dev) : Dev :=
  let e := Tab.get 0 (d.tab.getSlt p).rxClient i
  let q := rxClear d.tab e
  let r := (d.getSlt p).rx
  if cliType e ≠ 1 || !sltEn (d.tab.getSlt p) || !portEnabled d q || portDead d q then d
  else if !memberPlays (cliChid e) d then d
  else if clientFault p i d || d.twn.chFence.contains (cliChid e) || !Tab.get false r.play i then lineEmit q (.localFault q) (updSRx p (fun r => { r with playIn := Tab.set false r.playIn i false }) d)
  else
    let l := Tab.get [] r.buf i
    let a := adaptIdle d.fresh (Tab.get false r.playIn i) l
    let d := { updSRx p (fun r => { r with buf := Tab.set [] r.buf i [], playIn := Tab.set false r.playIn i a.2 }) d with fresh := d.fresh + l.length }
    if suppressed q d then lineEmit q (.idle q) (d.updTwn q (fun t => { t with suppress := sat64 (t.suppress + packetStarts l) }))
    else lineEmit q (.client q (if plain66 d.tab q then spread66 a.1 else a.1)) d

/-- PORT_CLIENT_PLAYOUT. -/
def execPortClientPlayout (p client : Nat) (s : State) : Host.Outcome State Fault Refusal := done s (doPlayout p client)

end Sys2Proof.Machine
end

