-- ==== Sys2Proof/Machine/Maint.lean ====
section
/-! DEFINITION. Failures, performance seconds and intervals, and their snapshots (chapter 04). -/

namespace Sys2Proof.Machine

/-! ### Failures (04 R119) -/

/-- The defect of a bit of Table 04-1: bits 8 and 9 are client `i`'s dCSF and dCTAG. -/
def defectOn (x : SltDef) (k i : Nat) : Bool :=
  if k = 8 then Tab.get false x.csf i else if k = 9 then Tab.get false x.ctag i else bitAt x.bits k

/-- The failure of a bit. -/
def failureOn (x : SltDef) (k i : Nat) : Bool :=
  if k = 8 then Tab.get false x.csfFail i else if k = 9 then Tab.get false x.ctagFail i else bitAt x.failBits k

/-- A defect has stood, or been away, for its integration time: the failure follows it, with FCHG and a record (04 R119). -/
def doFailure (p k i : Nat) (present : Bool) (d : Dev) : Dev :=
  let x := (d.getSlt p).dfc
  if 10 ≤ k || defectOn x k i != present || failureOn x k i == present then d
  else
    let d := chgSDef p (fun x =>
      let x := { x with fchg := setBit x.fchg k true }
      if k = 8 then { x with csfFail := Tab.set false x.csfFail i present }
      else if k = 9 then { x with ctagFail := Tab.set false x.ctagFail i present }
      else { x with failBits := setBit x.failBits k present }) d
    event ((if present then 0x0400 else 0x0440) + k) (if !present then 1 else if k < 6 then 3 else 2)
      (be 1 p ++ be 1 (if 8 ≤ k then i else 0xFF)) d

/-- FAILURE_INTEGRATION. -/
def execFailureIntegration (p bit client : Nat) (present : Bool) (s : State) : Host.Outcome State Fault Refusal :=
  done s (doFailure p bit client present)

/-! ### Seconds (04 R120, R123 to R127, R129) -/

/-- Errored blocks of a Frame-mode cipher port since its counters began (04 Table 04-3). -/
def frameErrors (p : Nat) (d : Dev) : Nat :=
  let x := d.getPort (prtOf p)
  Tab.get 0 x.ctr 12 + Tab.get 0 x.ctr 7 + x.errBlk + x.fecUncorr

/-- A defect that makes an SES stands: bits 0 to 5 of Table 04-1, or in Frame mode LOS or LOA (04 R125, Table 04-3). -/
def sesStands (p : Nat) (d : Dev) : Bool :=
  if cfgSlot (d.tab.getPrt (prtOf p)).cfg then (d.getSlt p).dfc.bits % 64 != 0 else (d.getPort (prtOf p)).los || (d.getPort (prtOf p)).loa

/-- Classify the second that ends (04 R125, R127, R129). A second in which alignment was held for a part only has the nominal 305,176 periods as a
whole (DESIGN CHOICE, log entry 93). -/
def classifySecond (p : Nat) (d : Dev) : PmSec :=
  let m := (d.getSlt p).pm
  let slot := cfgSlot (d.tab.getPrt (prtOf p)).cfg
  let err := if slot then m.errored else frameErrors p d - m.baseErr
  let idx := (d.getTck (prtOf p)).nextIdx
  let periods := if slot then (if m.hunted then 305176 else m.periods) else m.periods + (idx - m.baseIdx)
  let ses := m.defect || sesStands p d || (if periods = 0 then decide (0 < err) else decide (10 * err ≥ 3 * periods))
  let feSes := m.hdrRdi || (decide (0 < m.hdrs) && decide (10 * m.hdrRei ≥ 3 * m.hdrs))
  { errored := err, es := ses || decide (0 < err), ses := ses
    feInvalid := !slot || decide (10 * m.hdrs < 9 * periods) || periods == 0
    feRei := m.hdrRei, feEs := feSes || decide (0 < m.hdrRei), feSes := feSes
    frameMode := !slot, partialSec := m.down || m.step || !portEnabled d (prtOf p)
    startOt := m.startOt, startCal := m.startCal, calq := m.startCalq }

/-- dDEG: consecutive bad seconds (04 R120). -/
def degSecond (p : Nat) (x : PmSec) (d : Dev) : Dev :=
  if x.frameMode then d
  else
    let s := d.getSlt p
    let bad := x.ses || decide (x.errored ≥ s.degThr)
    let d := updSDef p (fun y => if bad then { y with degRun := y.degRun + 1, degClr := 0 } else { y with degClr := y.degClr + 1, degRun := 0 }) d
    let y := (d.getSlt p).dfc
    if y.degRun ≥ s.degM then setDef p 7 true d else if y.degClr ≥ s.degM then setDef p 7 false d else d

/-- PM_SECOND_END: the second is classified and waits for its entry (04 R123, R125, R127, R128). A defect that stands as the next second begins is
one of that second too. -/
def doSecondEnd (p : Nat) (d : Dev) : Dev :=
  let x := classifySecond p d
  let d := degSecond p x d
  let now := d.evr
  updPm p (fun m => { m with
    errored := 0, periods := 0, defect := sesStands p d, step := false, hunted := !(d.getSlt p).rx.sync, hdrs := 0, hdrRei := 0, hdrRdi := false
    baseErr := frameErrors p d, baseIdx := (d.getTck (prtOf p)).nextIdx, down := !portEnabled d (prtOf p)
    startOt := now.optime, startCal := if now.calq = 0 then 0 else now.calSec, startCalq := now.calq
    last := some x, line := m.line ++ [x] }) d

/-- PM_SECOND_END. -/
def execPmSecondEnd (p : Nat) (s : State) : Host.Outcome State Fault Refusal := done s (doSecondEnd p)

/-! ### Intervals (04 R123, R126, R128, R131) -/

/-- The number of a second on its own time source: calendar while the input is qualified, otherwise operating time. -/
def PmSec.number (x : PmSec) : Nat := if x.calq = 3 then x.startCal else x.startOt / 1000

/-- Ten in a row (04 R126): `f` of each of the first ten. -/
def tenOf (l : List PmSec) (f : PmSec → Bool) : Bool := decide (10 ≤ l.length) && (l.take 10).all f

/-- Enter one second into an interval: near end, then far end (04 R125 to R127). -/
def enterSecond (x : PmSec) (ne fe jump : Bool) (start : Bool) (v : PmInt) : PmInt :=
  let v := if v.valid then v else
    { valid := true, partialInt := !start, startOt := x.startOt, startCal := x.startCal, calq := x.calq }
  let v := { v with partialInt := v.partialInt || jump || x.partialSec, fena := v.fena || x.frameMode }
  let v := if ne then { v with neUas := v.neUas + 1 }
    else { v with neEs := v.neEs + x.es.toNat, neSes := v.neSes + x.ses.toNat, neBbe := v.neBbe + (if x.ses then 0 else x.errored) }
  if x.frameMode then v
  else if x.feInvalid then { v with feSusp := true }
  else if fe then { v with feUas := v.feUas + 1 }
  else { v with feEs := v.feEs + x.feEs.toNat, feSes := v.feSes + x.feSes.toNat, feBbe := v.feBbe + (if x.feSes then 0 else x.feRei) }

/-- PM_SECOND_ENTRY: the oldest waiting second is entered, once ten seconds decide its availability (04 R126, R128). Two points the spec leaves open
(DESIGN CHOICE, log entries 55 and 56): a far-end run that invalid seconds stretch past the ten seconds is entered undecided, as no run (R127); and a
step that skips a boundary closes no interval there: the interval in progress goes on, PARTIAL (R123). The new current interval reads all zeros until
its first second is entered (DESIGN CHOICE, log entry 70). -/
def doSecondEntry (p : Nat) (d : Dev) : Dev :=
  let m := (d.getSlt p).pm
  match m.line with
  | [] => d
  | x :: rest =>
    if m.line.length < 10 then d
    else
      let far := m.line.filter (fun y => !y.feInvalid)
      let ne := if m.neUnavail then !tenOf m.line (fun y => !y.ses) else tenOf m.line (fun y => y.ses)
      let fe := if x.feInvalid then m.feUnavail
        else if m.feUnavail then !tenOf far (fun y => !y.feSes) else tenOf far (fun y => y.feSes)
      let jump := match m.entered with
        | some y => (y.calq == 3) != (x.calq == 3) || x.number != y.number + 1
        | none => false
      let ofs := if fld d.slt.pmCfg 16 0 > 86399 then 0 else fld d.slt.pmCfg 16 0
      let k := x.number
      let day := (k + 86400 - ofs) % 86400
      let c15 := enterSecond x ne fe jump (k % 900 == 0) m.cur15
      let cDay := enterSecond x ne fe jump (day == 0) m.curDay
      let end15 := (k + 1) % 900 == 0
      let endDay := day == 86399
      updPm p (fun m => { m with
        line := rest, entered := some x, neUnavail := ne, feUnavail := fe
        cur15 := if end15 then {} else c15, curDay := if endDay then {} else cDay
        hist15 := if end15 then (c15 :: m.hist15).take 96 else m.hist15
        histDay := if endDay then (cDay :: m.histDay).take 7 else m.histDay }) d

/-- PM_SECOND_ENTRY. -/
def execPmSecondEntry (p : Nat) (s : State) : Host.Outcome State Fault Refusal := done s (doSecondEntry p)

/-- The last completed second as an interval (04 R130, KIND 0). -/
def secondSnap (x : PmSec) : PmInt :=
  { valid := true, partialInt := x.partialSec, fena := x.frameMode, feSusp := !x.frameMode && x.feInvalid
    neEs := x.es.toNat, neSes := x.ses.toNat, neBbe := if x.ses then 0 else x.errored
    feEs := if x.feInvalid then 0 else x.feEs.toNat, feSes := if x.feInvalid then 0 else x.feSes.toNat
    feBbe := if x.feInvalid || x.feSes then 0 else x.feRei
    startOt := x.startOt, startCal := x.startCal, calq := x.calq }

/-- The interval that a selection names (04 R130). -/
def pmSelect (v : Nat) (d : Dev) : PmInt :=
  let m := (d.getSlt (fld v 4 0)).pm
  let bin := fld v 22 16
  match fld v 9 8 with
  | 0 => if bin = 0 then ((m.last.map secondSnap).getD {}) else {}
  | 1 => if bin = 0 then m.cur15 else m.hist15.getD (bin - 1) {}
  | 2 => if bin = 0 then m.curDay else m.histDay.getD (bin - 1) {}
  | _ => {}

/-- A write of SLT_PMSEL takes a snapshot in one step (04 R130, R131). -/
def doPmsel (v : Nat) (d : Dev) : Dev :=
  let v := fld v 4 0 + at_ (fld v 9 8) 8 + at_ (fld v 22 16) 16
  { d with slt := { d.slt with pmSel := v, pmSnap := pmSelect v d } }

/-- SLT_PMSEL. -/
def execSltPmsel (v : Nat) (s : State) : Host.Outcome State Fault Refusal := doneReg s (doPmsel v)

end Sys2Proof.Machine
end

