-- ==== Sys2Proof/Machine/Station.lean ====
section
/-! DEFINITION. The station table's commands, learning and aging, and the gated bank switch (chapter 06). -/

namespace Sys2Proof.Machine

/-- Replace an entry of a version of the station table. -/
def Tables.setStn (i : Nat) (e : Option StnEntry) (t : Tables) : Tables := { t with stn := Tab.set none t.stn i e }

/-! ### Learning (06 R177 to R179, Table 06-11) -/

/-- The row of Table 06-11 that one learn takes. -/
inductive LearnRow where
  | ignored
  | same (i : Nat) (e : StnEntry)
  | flaps (i : Nat) (e : StnEntry)
  | move (i : Nat) (e : StnEntry)
  | new (i : Nat) (e : StnEntry)
  | full

/-- HITSW raised to sweep `s`, never lowered. -/
def raiseHit (h s : Nat) : Nat := if (h + 4 - s % 4) % 4 ≤ 1 then h else s % 4

/-- The effect of one learn on a version of the table. -/
def learnRow (t : Tables) (l : Learn) : LearnRow :=
  let s := t.sweepNo
  match stnFind t l.part l.domain l.mac with
  | some i =>
    match t.getStn i with
    | none => .ignored
    | some e =>
      let moves := if e.movesSw = s % 4 then e.moves else 0
      if e.static then .ignored
      else if e.chid = l.chid then .same i { e with hitSw := raiseHit e.hitSw s, port := l.port }
      else if e.flap then .ignored
      else if moves ≥ 4 then .flaps i { e with flap := true, moves := moves, movesSw := s % 4 }
      else .move i { e with chid := l.chid, port := l.port, hitSw := raiseHit e.hitSw s, lastSw := s, moves := moves + 1, movesSw := s % 4 }
  | none =>
    match stnFree t l.part l.domain l.mac with
    | some i => .new i ⟨l.mac, l.domain, false, false, l.chid, l.port, s % 4, 0, s % 4, s⟩
    | none => .full

/-- An entry changes in the versions from tack `k` on: in those it still stood as before (log entry 17). -/
def stnChange (k i : Nat) (old new : Option StnEntry) (d : Dev) : Dev :=
  let f := fun (t : Tables) => if t.getStn i = old then t.setStn i new else t
  { d with tab := f d.tab, views := d.views.map (fun v => if k < v.1 then (v.1, f v.2) else v) }

/-- Apply one learn at tack `k`. -/
def applyLearn (k : Nat) (l : Learn) (d : Dev) : Dev :=
  let t := tabAt k d
  let q := l.part
  let set := fun i e d => stnChange k i (t.getStn i) (some e) d
  let d := prfCount 13 (some q) 1 d
  match learnRow t l with
  | .ignored => stnCount q 4 1 d
  | .same i e => set i e d
  | .flaps i e => event 0x0601 1 (be 3 i ++ be 2 e.chid ++ be 1 l.port) (stnCount q 4 1 (set i e d))
  | .move i e => stnCount q 1 1 (set i e d)
  | .new i e => stnCount q 0 1 (set i e d)
  | .full => learnLost q 2 d

/-- The learns of interval `k` of a partition, in ascending port and then frame index (06 R177). -/
def learnsOf (q k : Nat) (d : Dev) : List Learn :=
  ((List.range 64).map (fun p => d.stn.learns.filter (fun l => l.part == q && l.interval == k && l.port == p))).flatten

/-! ### Station commands that follow those learns (06 R177, R180, Table 06-13) -/

/-- Address and domain of a station key: MAC in bits [47:0], domain in bits [59:48] (10 R294). -/
def keyMac (key : Nat) : Nat := fld key 47 0
def keyDomain (key : Nat) : Nat := fld key 59 48

/-- Partition `q` serves slice `q`, and an even partition the next slice too. -/
def partServes (q s : Nat) : Bool := s == q || (q % 2 == 0 && s == q + 1)

/-- Every learn that an earlier tack than `k` applies is applied in partition `q`: those of intervals up to `k - 3` (06 R177, R478). -/
def learnsSettled (q k : Nat) (d : Dev) : Bool :=
  decide (k < 3) || (learnsComplete q (k - 3) d && !d.stn.learns.any (fun l => l.part == q && decide (l.interval + 3 ≤ k)))

/-- The first refusal that holds, at tack `k`, or the effect (05 R143). -/
def stnGuards (k : Nat) (b : Sub) : List (Bool × Nat) → (Dev → Dev) → Dev → Dev
  | [], f, d => gateLate b k stOK [] (f d)
  | (c, st) :: rest, f, d => if c then gateLate b k st [] d else stnGuards k b rest f d

/-- The entry of STN_INSERT: static, its FLAP and MOVES clear. -/
def stnStatic (key chid sweep : Nat) : StnEntry :=
  ⟨keyMac key, keyDomain key, true, false, chid, 0, sweep % 4, 0, sweep % 4, sweep⟩

/-- A flush filter counts in the versions from its tack on (06 R180). -/
def addFilter (f : FlushFilter) (d : Dev) : Dev :=
  let g := fun (t : Tables) => { t with filters := t.filters ++ [f] }
  { d with tab := g d.tab, views := d.views.map (fun v => if f.tack < v.1 then (v.1, g v.2) else v) }

/-- STN_INSERT, STN_DELETE or the filter of a flush takes effect in the versions from its tack on. -/
def StnWait.run (w : StnWait) (d : Dev) : Dev :=
  match w.filter with
  | some f => addFilter f d
  | none => act w d
where
  /-- STN_INSERT or STN_DELETE. -/
  act (w : StnWait) (d : Dev) : Dev :=
    let t := tabAt w.tack d
    let here := stnFind t w.part (keyDomain w.key) (keyMac w.key)
    let put := fun (i : Nat) (e : Option StnEntry) d => stnChange w.tack i (t.getStn i) e d
    let down := (sliceDown d w.part, stBAD_MODE)
    match w.chid with
    | some chid =>
      match here.or (stnFree t w.part (keyDomain w.key) (keyMac w.key)) with
      | some i => stnGuards w.tack w.sub [down, (isRc chid || !partServes w.part (chSlice chid), stBAD_CHANNEL)]
          (put i (some (stnStatic w.key chid t.sweepNo))) d
      | none => stnGuards w.tack w.sub [down, (isRc chid || !partServes w.part (chSlice chid), stBAD_CHANNEL), (true, stBUCKET_FULL)] id d
    | none =>
      match here with
      | some i => stnGuards w.tack w.sub [down] (put i none) d
      | none => stnGuards w.tack w.sub [down, (true, stNO_ENTRY)] id d

/-- Commands whose earlier learns are applied take effect, in gate order. -/
def stnDrain (d : Dev) : Dev :=
  each d.stn.waiting (fun w d =>
    if learnsSettled w.part w.tack d then w.run { d with stn := { d.stn with waiting := d.stn.waiting.erase w } } else d) d

/-- A station command at its tack: at once, or after the learns of the tacks before; a flush waits only behind another command of its partition,
because the walk that retires its filter waits for those learns. -/
def stnGated (w : StnWait) (d : Dev) : Dev :=
  let d := stnDrain d
  if learnsSettled w.part w.tack d || (w.filter.isSome && !d.stn.waiting.any (fun x => x.part == w.part)) then w.run d else { d with stn := { d.stn with waiting := d.stn.waiting ++ [w] } }

/-- The learns of interval `k` are applied in every partition in which they are complete (06 R177, R478). -/
def doLearnsApply (k : Nat) (d : Dev) : Dev :=
  if d.tck.tno < k + 2 then d
  else stnDrain <| each (List.range 8) (fun q d =>
    if !learnsComplete q k d || d.stn.learns.any (fun l => l.part == q && decide (l.interval < k)) then d
    else
      let mine := learnsOf q k d
      let d := { d with stn := { d.stn with learns := d.stn.learns.filter (fun l => !(l.part == q && l.interval == k)) } }
      each mine (applyLearn (k + 2)) d) (stnDrain d)

/-- LEARNS_APPLY. -/
def execLearnsApply (k : Nat) (s : State) : Host.Outcome State Fault Refusal := done s (doLearnsApply k)

/-! ### Walks (06 R174, R180) -/

/-- The enabled clear ports that use partition `q` (06 R172). -/
def partPorts (q : Nat) (d : Dev) : List Nat := (List.range 32).filter (fun n => portEnabled d n && portPart n == q)

/-- The walker of sweep `s` clears this entry; one that a pending filter matches is left to the walk that counts it in FLUSHED (06 R180). -/
def stnAged (t : Tables) (q s : Nat) (e : Nat × Option StnEntry) : Bool :=
  match e.2 with
  | some x => e.1 / 65536 == q && !x.static && !t.filters.any (fun f => stnFlushed f q x) && decide (2 ≤ (s + 4 - x.hitSw % 4) % 4)
  | none => false

/-- The walker visits partition `q` once its sweep tack has taken effect on every port that uses it (06 R174). -/
def doStationWalk (q : Nat) (d : Dev) : Dev :=
  match d.stn.walks.find? (fun w => w.1 == q) with
  | none => d
  | some w =>
    if (partPorts q d).all (fun n => tackEffective n w.2.2 d) then
      let d := { d with stn := { d.stn with walks := d.stn.walks.erase w } }
      let n := (d.tab.stn.filter (stnAged (withFlushes d d.tab) q w.2.1)).length
      stnCount q 5 n (d.updViews (fun t => { t with stn := t.stn.filter (fun e => !stnAged (withFlushes d t) q w.2.1 e) }))
    else d

/-- STATION_WALK. -/
def execStationWalk (q : Nat) (s : State) : Host.Outcome State Fault Refusal := done s (doStationWalk q)

/-- A walk removes what the partition's filters match, and retires them, in the versions that hold them (06 R180); a filter stays until the
learns and commands before its tack have been applied (06 R177, log entry 17). -/
def doFlushWalk (q : Nat) (d : Dev) : Dev :=
  let fs := d.tab.filters.filter (fun f => f.part == q && learnsSettled q f.tack d && !d.stn.waiting.any (fun w => w.part == q && decide (w.tack ≤ f.tack)))
  let hit := fun (t : Tables) (e : Nat × Option StnEntry) => match e.2 with
    | some x => e.1 / 65536 == q && fs.any (fun f => t.filters.contains f && stnFlushed f q x)
    | none => false
  let n := (d.tab.stn.filter (hit d.tab)).length
  if fs.isEmpty then d
  else stnCount q 6 n (d.updViews (fun t =>
    { t with stn := t.stn.filter (fun e => !hit t e), filters := t.filters.filter (fun f => !fs.contains f) }))

/-- FLUSH_WALK. -/
def execFlushWalk (q : Nat) (s : State) : Host.Outcome State Fault Refusal := done s (doFlushWalk q)

/-! ### Gated station commands (06 Table 06-13) -/

/-- STN_INSERT. -/
def doStnInsert (b : Sub) (part key chid : Nat) (d : Dev) : Dev := stnGated ⟨d.tck.tno, b, part, key, some chid, none⟩ d

/-- STN_INSERT. -/
def execStnInsert (b : Sub) (part key chid : Nat) (s : State) : Host.Outcome State Fault Refusal := done s (doStnInsert b part key chid)

/-- STN_DELETE. -/
def doStnDelete (b : Sub) (part key : Nat) (d : Dev) : Dev := stnGated ⟨d.tck.tno, b, part, key, none, none⟩ d

/-- STN_DELETE. -/
def execStnDelete (b : Sub) (part key : Nat) (s : State) : Host.Outcome State Fault Refusal := done s (doStnDelete b part key)

/-- STN_FLUSH: partition 8 stands for all. In each partition the flush follows the station commands before it in gate order (06 R177). -/
def doStnFlush (b : Sub) (part : Nat) (byChan : Bool) (value : Nat) (incl : Bool) (d : Dev) : Dev :=
  let parts := if part = 8 then List.range 8 else [part]
  if parts.any (sliceDown d) then gateDone b stBAD_MODE [] d
  else guards b [(parts.any (fun q => decide (Tab.get 0 d.stn.flushes q ≥ 4)), stBUSY)]
    (fun d =>
      let d := { d with stn := { d.stn with flushes := parts.foldl (fun f q => Tab.upd 0 f q (· + 1)) d.stn.flushes } }
      gateDone b stOK [] (each parts (fun q d => stnGated ⟨d.tck.tno, b, q, 0, none, some ⟨q, byChan, value, incl, d.tck.tno⟩⟩ d) d)) d

/-- STN_FLUSH. -/
def execStnFlush (b : Sub) (part : Nat) (byChan : Bool) (value : Nat) (incl : Bool) (s : State) : Host.Outcome State Fault Refusal :=
  done s (doStnFlush b part byChan value incl)

/-- STN_SETSWEEP. -/
def doStnSetsweep (b : Sub) (period : Nat) (d : Dev) : Dev :=
  guards b [(decide (period < 1000) || decide (100000000 < period), stBAD_LIMIT)]
    (fun d => gateDone b stOK [] (d.updTab (fun t => { t with stnPeriod := period, stnTacks := 0 }))) d

/-- STN_SETSWEEP. -/
def execStnSetsweep (b : Sub) (period : Nat) (s : State) : Host.Outcome State Fault Refusal := done s (doStnSetsweep b period)

/-- STN counts a tack: a sweep tack advances the sweep number and makes a walk due in every partition (06 R173, R174). -/
def stnTack (d : Dev) : Dev :=
  let d := { d with stn := { d.stn with flushes := [] } }
  let n := d.tab.stnTacks + 1
  if n < d.tab.stnPeriod then d.updTab (fun t => { t with stnTacks := n })
  else
    let s := (d.tab.sweepNo + 1) % 2 ^ 32
    let d := d.updTab (fun t => { t with stnTacks := 0, sweepNo := s })
    { d with stn := { d.stn with lostMark := [], walks := d.stn.walks ++ (List.range 8).map (fun q => (q, s, d.tck.tno)) } }

/-! ### Search and next (06 R181) -/

/-- The 16 bytes of an entry (06 Table 06-10). -/
def StnEntry.bytes (e : StnEntry) : Bytes :=
  be 6 e.mac ++ le 2 (e.domain + 4096 + e.static.toNat * 8192 + e.flap.toNat * 16384) ++ le 2 e.chid
    ++ be 1 (e.port % 64 + 64 * (e.hitSw % 4)) ++ be 1 (e.moves + 8 * (e.movesSw % 4)) ++ le 4 e.lastSw

/-- The first live entry at or above an index in a partition, of a domain where one is given (06 R181, 10 R294). -/
def stnNextFrom (t : Tables) (q i : Nat) (dom : Option Nat) : Option (Nat × StnEntry) :=
  t.stn.foldl (fun acc e => match acc, e.2 with
    | none, some x => if e.1 / 65536 = q && decide (i ≤ e.1) && stnLive t q x && (match dom with | some y => x.domain == y | none => true)
        then some (e.1, x) else none
    | a, _ => a) none

/-- A write of STN_OPCTRL (06 R181). A search or next that finds nothing leaves STN_OPRES and STN_OPIDX as they were: DESIGN CHOICE (log
entry 87). -/
def stnOpWrite (v : Nat) (d : Dev) : Dev :=
  let q := fld v 4 2
  let o : Stn := { d.stn with op := fld v 1 0, opPart := q, opDomF := bitAt v 5 }
  let dom := fld o.opKeyHi 27 16
  let give : Option (Nat × StnEntry) → Bool → Stn := fun r isEnd => match r with
    | some (i, e) => { o with opFound := true, opEnd := false, opIdx := i,
                              opRes := (List.range 4).foldl (fun t j => Tab.set 0 t j (leAt e.bytes (4 * j) 4)) [] }
    | none => { o with opFound := false, opEnd := isEnd }
  let n : Stn := if o.op = 1 then
      let mac := fld o.opKeyHi 15 0 * 2 ^ 32 + o.opKeyLo
      give ((stnFind (withFlushes d d.tab) q dom mac).bind (fun i => (d.tab.getStn i).map (fun e => (i, e)))) false
    else if o.op = 2 then give (stnNextFrom (withFlushes d d.tab) q o.opCursor (if o.opDomF then some dom else none)) true
    else o
  { d with stn := n }

/-- STN_SEARCH. -/
def execStnSearch (v : Nat) (s : State) : Host.Outcome State Fault Refusal := doneReg s (stnOpWrite v)

/-- STN_NEXT. -/
def execStnNext (v : Nat) (s : State) : Host.Outcome State Fault Refusal := doneReg s (stnOpWrite v)

/-! ### The bank switch (06 R169, R170) -/

/-- The standby bank. -/
def standbyBank (d : Dev) : PatBank := if d.tab.actBank = 0 then d.pat.bank1 else d.pat.bank0

/-- Replace a bank. -/
def setBank (i : Nat) (x : PatBank) (d : Dev) : Dev :=
  if i = 0 then { d with pat := { d.pat with bank0 := x } } else { d with pat := { d.pat with bank1 := x } }

/-- An applied PAT_SWITCH has not taken effect on every enabled port, or a frame from before it still waits for its tag, whose learn reads the
Pattern of its own view (06 R175). -/
def switchSpreads (d : Dev) : Bool :=
  (List.range 64).any (fun p => (portEnabled d p && (tabAt (viewTack p (d.getTck p).admitted d) d).actBank != d.tab.actBank)
    || (d.getPort p).hold.any (fun h => (tabAt h.view d).actBank != d.tab.actBank))

/-- A PAT_SWITCH is pending: at the gate, in a record not yet applied, or on a port. -/
def switchPending (d : Dev) : Bool :=
  switchSpreads d || d.tck.gate.any (fun e => e.desc.code == 0x0030) || d.tck.recq.any (fun r => r.cmds.any (fun e => e.desc.code == 0x0030))

/-- PAT_LOAD starts, or is refused while a load runs or a switch is pending. -/
def doPatLoad (b : Sub) (slot : Nat) (d : Dev) : Dev :=
  if d.pat.loading || switchPending d then complete b 4 stBUSY [] d
  else { d with pat := { d.pat with loading := true, loadSlot := slot, loadSub := some b } }

/-- PAT_LOAD. -/
def execPatLoad (b : Sub) (slot : Nat) (s : State) : Host.Outcome State Fault Refusal := done s (doPatLoad b slot)

/-- PAT_SWITCH. -/
def doPatSwitch (b : Sub) (d : Dev) : Dev :=
  guards b [(!(standbyBank d).valid, stNOT_LOADED)]
    (fun d =>
      let old := d.tab.actBank
      let bank := if old = 0 then d.pat.bank0 else d.pat.bank1
      gateDone b stOK [] ((setBank old { bank with valid := false } d).updTab (fun t => { t with actBank := 1 - old }))) d

/-- PAT_SWITCH. -/
def execPatSwitch (b : Sub) (s : State) : Host.Outcome State Fault Refusal := done s (doPatSwitch b)

end Sys2Proof.Machine
end

