-- ==== Sys2Proof/Machine/Images.lean ====
section
/-! DEFINITION. Signed images in flash: the envelope, the runtime image, the Pattern checks, loading and PAT_LOAD (06 R169, R171; 10 R304, R305; 14 R393 to R397). -/

namespace Sys2Proof.Machine

/-! ### The envelope (14 R395, R396, Table 14-8) -/

/-- First byte and size of an image slot in the flash (14 Table 14-5). -/
def slotBase (type slot : Nat) : Nat :=
  if type = 1 then 0x100000 + 0x2000000 * slot else if type = 2 then 0x4100000 + 0x200000 * slot else 0x4500000 + 0x100000 * slot

def slotSize (type : Nat) : Nat := if type = 1 then 0x2000000 else if type = 2 then 0x200000 else 0x100000

/-- The longest body of a type. -/
def bodyMax (type : Nat) : Nat := if type = 1 then 24 * 2 ^ 20 else if type = 2 then 2 ^ 20 else 2 ^ 16

/-- The fused anti-rollback value of a type (14 R400). -/
def fusedSvn (f : Fuses) (type : Nat) : Nat := if type = 1 then f.svnRt else if type = 2 then f.svnMc else f.svnPat

/-- The bit of REVMASK of this silicon. -/
def revBit : Nat := match Config.revision with | .a0 => 0 | .a1 => 1 | .b0 => 2

/-- The device accepts the signer's public key (14 R395). -/
def signerOk (f : Fuses) (signer type : Nat) (pk : Bytes) : Bool :=
  let h := shake256 pk 32
  (signer == 0 && h == Config.imageKeyHash && (!f.ownerOnly || type == 2))
    || (signer == 1 && f.ownerV && h == f.ownerHash && type != 2)

/-- An envelope read from flash: the image's record and its body; or the first check that fails. -/
inductive Checked where
  | bad (check : Nat)
  | good (i : Image) (body : Bytes)

/-- Sections of a runtime image: TYPE, ADDR, LENGTH, FILEOFF, SCORES (10 Table 10-19). -/
def rtSection (b : Bytes) (i : Nat) : Nat × Nat × Nat × Nat × Nat :=
  let o := 32 + 32 * i
  (byteAt b o, beAt b (o + 4) 4, beAt b (o + 8) 4, beAt b (o + 12) 4, beAt b (o + 16) 8)

/-- The sections of an image. -/
def rtSections (b : Bytes) : List (Nat × Nat × Nat × Nat × Nat) := (List.range (beAt b 6 2)).map (rtSection b)

/-- Two sections overlap for one core, or in shared memory. -/
def rtOverlap (x y : Nat × Nat × Nat × Nat × Nat) : Bool :=
  x.1 % 2 == y.1 % 2 && decide (x.2.1 < y.2.1 + y.2.2.1) && decide (y.2.1 < x.2.1 + x.2.2.1)
    && (x.1 % 2 == 1 || x.2.2.2.2 &&& y.2.2.2.2 != 0)

/-- The reasons of R305 to refuse a runtime image. -/
def rtBad (b : Bytes) : Bool :=
  let n := beAt b 6 2
  let cores := beAt b 16 8
  let entry := beAt b 12 4
  let secs := rtSections b
  beAt b 0 4 != 0x474E4B52 || byteAt b 4 != 1 || n == 0 || decide (64 < n) || decide (b.length < 32 + 32 * n)
    || secs.any (fun x =>
        decide (3 < x.1)
          || (if x.1 % 2 = 0 then decide (0x40000 < x.2.1 + x.2.2.1) else decide (x.2.1 < 0x10000000) || decide (0x10800000 < x.2.1 + x.2.2.1))
          || (decide (x.1 < 2) && decide (b.length < x.2.2.2.1 + x.2.2.1))
          || (x.1 % 2 == 0 && x.2.2.2.2 &&& cores != x.2.2.2.2))
    || (List.range n).any (fun i => (List.range i).any (fun j => rtOverlap (rtSection b i) (rtSection b j)))
    || (List.range 64).any (fun c => bitAt cores c
        && !secs.any (fun x => x.1 == 0 && decide (x.2.1 ≤ entry) && decide (entry < x.2.1 + x.2.2.1) && bitAt x.2.2.2.2 c))

/-! ### Verification (14 R396, R397) -/

/-- Verify the image of `type` in `slot` (0 A, 1 B). Check 6 of a Pattern is left to PAT_LOAD. -/
def checkImage (d : Dev) (type slot : Nat) : Checked :=
  let base := slotBase type slot
  let at_ := fun (o n : Nat) => flashBytes d.fls (base + o) n
  if ofBe (at_ 0 4) ≠ 0x4F56494D then .bad 1
  else
    let h := at_ 0 64
    let bodyLen := beAt h 8 4
    let manLen := beAt h 12 4
    let nTested := byteAt (at_ 2016 16) 7
    if byteAt h 4 ≠ 1 || byteAt h 6 ≠ type || bodyMax type < bodyLen || 32 < nTested || manLen ≠ 16 + 8 * nTested
        || slotSize type < 2016 + manLen + bodyLen + 3309 then .bad 1
    else
      let head := at_ 0 (2016 + manLen + bodyLen)
      let dg := shake256 head 64
      let pk := sub_ head 64 1952
      let man := sub_ head 2016 manLen
      let body := sub_ head (2016 + manLen) bodyLen
      let svn := byteAt h 16
      if !signerOk d.mod.fusesRead (byteAt h 7) type pk || !Config.mldsaVerify pk dg (at_ (2016 + manLen + bodyLen) 3309) then .bad 2
      else if !bitAt (byteAt man 6) revBit then .bad 3
      else if type = 1 && beAt man 4 2 ≠ dpVer then .bad 4
      else if svn < fusedSvn d.mod.fuses type then .bad 5
      else if type = 1 && rtBad body then .bad 6
      else
        .good { slot := slot, imgVer := beAt man 0 4, svn := svn, digest := dg,
                tested := (List.range nTested).map (fun i => (byteAt man (16 + 8 * i), beAt man (16 + 8 * i + 4) 4)) } body

/-- Two images are a tested pair (14 R397). -/
def testedPair (rt mc : Image) : Bool := rt.tested.contains (2, mc.imgVer) || mc.tested.contains (1, rt.imgVer)

/-- An image is refused: event 0x0E02. -/
def imageRefused (type slot check : Nat) (d : Dev) : Dev := event 0x0E02 2 (be 1 type ++ be 1 slot ++ be 1 check) d

/-! ### Loading a runtime image (10 R304, R305) -/

/-- Copy or zero-fill one section. -/
def loadSection (b : Bytes) (x : Nat × Nat × Nat × Nat × Nat) (d : Dev) : Dev :=
  let bytes := if x.1 < 2 then fit x.2.2.1 (sub_ b x.2.2.2.1 x.2.2.1) else zeros x.2.2.1
  if x.1 % 2 = 1 then { d with mem := { d.mem with shared := putBytes bytes (offFrom 0x10000000 x.2.1) d.mem.shared } }
  else each ((List.range 64).filter (fun c => bitAt x.2.2.2.2 c)) (fun c d =>
    if (d.getCore c).run = .retired then d else d.updCore c (fun k => { k with sram := putBytes bytes x.2.1 k.sram })) d

/-- Load the image and start the cores in CORES at ENTRY. -/
def loadRuntime (b : Bytes) (d : Dev) : Dev :=
  let d := each (rtSections b) (loadSection b) d
  each ((List.range 64).filter (fun c => bitAt (beAt b 16 8) c)) (fun c d => startCore c (beAt b 12 4) d) d

/-! ### PAT_LOAD ends (06 R169, R171; 14 R396, R407) -/

/-- PAT_LOAD_COMPLETE: the standby bank is valid, or the load ends with BAD_IMAGE and ERR. A load does not write the bank that frames below
the boundary of a later PAT_SWITCH still use (log entry 60). -/
def doPatLoadDone (d : Dev) : Dev :=
  match d.pat.loading && !switchSpreads d, d.pat.loadSub with
  | true, some b =>
    let slot := d.pat.loadSlot
    let stby := 1 - d.tab.actBank
    let d := { d with pat := { d.pat with loading := false, loadSub := none } }
    let fail := fun (err check : Nat) d =>
      let d := setBank stby {} { d with pat := { d.pat with err := err } }
      complete b 4 stBAD_IMAGE [] (imageRefused 3 slot check d)
    match checkImage d 3 slot with
    | .bad c => fail 1 c d
    | .good img body =>
      let err := patCheck body
      if err ≠ 0 then fail err 6 d
      else
        let d := setBank stby { valid := true, image := body, slot := slot, svn := img.svn, envVer := img.imgVer }
          { d with pat := { d.pat with err := 0 } }
        let d := mrExtend 3 3 (img.digest ++ be 1 slot) d
        let rt := match d.mod.runtime with | some r => r.imgVer | none => 0
        let d := if img.tested.contains (1, rt) then d else event 0x0E03 1 (be 1 3 ++ be 3 rt ++ be 4 img.imgVer) d
        complete b 4 stOK [] d
  | _, _ => d

/-- PAT_LOAD_COMPLETE. -/
def execPatLoadComplete (s : State) : Host.Outcome State Fault Refusal := done s doPatLoadDone

end Sys2Proof.Machine
end

