-- ==== Sys2Proof/Machine/KeyOps.lean ====
section
/-! DEFINITION. KEK slots, LPK slots, tickets, derivations and blobs as operations (07 R184 to R197). -/

namespace Sys2Proof.Machine

/-! ### Destinations (13 R370) -/

/-- A destination: a ticket, or an LPK or KEK slot. -/
def destTicket : Nat := 0x80000000
def destLpk (dest : Nat) : Option Nat := if 0x40000000 ≤ dest && decide (dest < 0x40000040) then some (offFrom 0x40000000 dest) else none

/-- USAGE bits (07 Table 07-2). -/
def uUNWRAP : Nat := 0
def uWRAP : Nat := 1
def uDERIVE : Nat := 2
def uSAK : Nat := 3
def uEXPORT : Nat := 4
def uSCE : Nat := 5

/-- A slot of this USAGE and key length would break R189. -/
def badUsage (usage len : Nat) : Bool :=
  decide (64 ≤ usage) || !(len == 16 || len == 32 || len == 48 || len == 64)
    || (bitAt usage uSCE && usage != 2 ^ uSCE) || ((len == 48 || len == 64) && usage != 0 && usage != 2 ^ uDERIVE)

/-- The KEK slot exists and holds a key. -/
def kekValid (n : Nat) (d : Dev) : Bool := decide (n < 1024) && (d.getKek n).valid

/-- A free KEK slot as destination: neither slot 0 nor 1. -/
def kekFree (n : Nat) (d : Dev) : Bool := decide (2 ≤ n) && decide (n < 1024) && !(d.getKek n).valid

/-- A free LPK slot. -/
def lpkFree (n : Nat) (d : Dev) : Bool := decide (2 ≤ n) && decide (n < 64) && !(d.getLpk n).valid

/-- A KEYID that no rule gives: a free value. -/
def freeKeyId (d : Dev) : Nat × Dev :=
  let r := freeNat d
  (r.1 % 2 ^ 32, r.2)

/-- Create a KEK slot; FRESHLEFT is 1 for GENERATED and EPHEMERAL (07 R190). -/
def putKek (n : Nat) (o : KeyOrigin) (usage keyId : Nat) (key : Bytes) (d : Dev) : Dev :=
  d.updKek n (fun _ => { valid := true, origin := o, freshLeft := o == .generated || o == .ephemeral, usage := usage, keyId := keyId, key := key })

/-- Clear a KEK or LPK slot. -/
def clearKek (n : Nat) (d : Dev) : Dev := d.updKek n (fun _ => {})
def clearLpk (n : Nat) (d : Dev) : Dev := d.updLpk n (fun _ => {})

/-- A ticket can be issued: fewer than 256 are held (07 R191). -/
def ticketRoom (d : Dev) : Bool := decide (d.keys.tickets.length < 256)

/-- The first handle from `h` on that no ticket has; `fuel` bounds the search. -/
def freeHandleFrom (l : List Ticket) : Nat → Nat → Nat
  | 0, h => h % 256
  | f + 1, h => if l.any (fun t => t.handle == h % 256) then freeHandleFrom l f (h + 1) else h % 256

/-- Issue a ticket: its handle is a free value among the free handles. -/
def newTicket (key : Bytes) (fresh : Bool) (req : Nat) (d : Dev) : Nat × Dev :=
  let r := freeNat d
  let h := freeHandleFrom r.2.keys.tickets 256 r.1
  (h, { r.2 with keys := { r.2.keys with tickets := r.2.keys.tickets ++ [⟨h, key, fresh, req, r.2.evr.optime⟩] } })

/-! ### Who may run key commands, and when (14 Table 14-1, 07 R186) -/

/-- The mode refuses the requester's key and lattice commands (14 Table 14-1); `wrap` marks KEY_UNWRAP and KEY_WRAP, and `alien` a command that
would put a key into a slot that neither KEY_GEN made nor is derived from one it made: RETURN has KEY_GEN keys only (DEDUCED, log entry 88). -/
def keyBadMode (req : Nat) (wrap alien : Bool) (d : Dev) : Bool :=
  match d.mod.mode with
  | .reset => true | .kiln => true | .fallow => true | .zeroised => true
  | .swap => req != reqHost
  | .factory => wrap
  | .returned => alien
  | _ => false

/-- A command that needs fresh random bits is refused while the source fails its tests (07 R186). -/
def rngBad (d : Dev) : Bool := !d.keys.rngOk

/-- A command that would store a key is refused while KWR does not stand. -/
def noKwr (d : Dev) : Bool := !d.keys.kwrValid

/-! ### Derivation (07 R194, R206) -/

/-- derive0. -/
def derive0 (kind : Nat) (label key : Bytes) (ctr : Nat) (ctx : Bytes) (n : Nat) : Bytes :=
  shake256 (be 1 kind ++ be 1 label.length ++ label ++ key ++ be 8 ctr ++ ctx) n

/-- The KDF of IEEE 802.1X-2020 with AES-CMAC. -/
def kdf8021x (key label ctx : Bytes) (n : Nat) : Bytes :=
  (((List.range (ceilDiv n 16)).map (fun i => cmac key (be 1 (i + 1) ++ label ++ [0] ++ ctx ++ be 2 (8 * n)))).flatten).take n

/-- The connectivity key of a session. -/
def combineKey (a b hash : Bytes) : Bytes := shake256 (ascii "OVPKX1-CK" ++ a ++ b ++ hash) 32

/-- Only USAGE DERIVE, ORIGIN EPHEMERAL. -/
def isEphDerive (k : Kek) : Bool := k.valid && k.origin == .ephemeral && k.usage == 2 ^ uDERIVE

/-! ### Blobs (07 R195, R196) -/

/-- The material of a blob with its KIND, USAGE and KEYID, when every condition of R196 holds. -/
def openBlob (kek : Bytes) (wrapSlot : Nat) (b : Bytes) : Option (Nat × Bytes × Nat × Nat) :=
  let kind := byteAt b 6
  let klen := byteAt b 7
  let usage := byteAt b 8
  let bind := byteAt b 9
  let wlen := beAt b 16 2
  if b.length < 32 || beAt b 0 4 ≠ 0x4F564B42 || byteAt b 4 ≠ 1 || decide (1 < kind)
      || !(if kind = 0 then klen == 16 || klen == 32 || klen == 48 || klen == 64 else klen == 32)
      || (kind == 1 && usage != 0) || decide (1 < bind) || beAt b 10 2 != 0 || sub_ b 18 14 != zeros 14
      || wlen != klen + 24 || decide (b.length < 32 + wlen) || (bind == 1 && wrapSlot != 0) then none
  else match kwpUnwrap kek (sub_ b 32 wlen) with
    | none => none
    | some p => if p.length = 16 + klen && p.take 16 == shake256 (b.take 32) 16 then some (kind, p.drop 16, usage, beAt b 12 4) else none

/-- The blob of a key: BINDING 0, the source's KEYID, its USAGE with EXPORT cleared (07 R197). FMTMIN, of which a reader accepts any
value (R195), is written 0 (DESIGN CHOICE, log entry 96). -/
def makeBlob (kek : Bytes) (k : Kek) : Bytes :=
  let hdr := be 4 0x4F564B42 ++ [1, 0, 0] ++ be 1 k.key.length ++ be 1 (setBit k.usage uEXPORT false) ++ [0, 0, 0] ++ be 4 k.keyId
    ++ be 2 (k.key.length + 24) ++ zeros 14
  hdr ++ kwpWrap kek (shake256 hdr 16 ++ k.key)

/-! ### The lock of the service cipher (07 R200) -/

/-- The requester owns the service cipher. -/
def ownsSce (req : Nat) (d : Dev) : Bool := d.keys.sceOwner == req

end Sys2Proof.Machine
end

