-- ==== Sys2Proof/Machine/Ports.lean ====
section
/-! DEFINITION. Port configuration, enable and gated port registers (12 R345 to R348; 08 R225; 02 R68). -/

namespace Sys2Proof.Machine

/-! ### CMD_PORT_CONFIG (12 R345 to R347) -/

/-- The rows of Table 12-4: SIZE, lanes, rate code, allowed FEC codes, allowed offsets. -/
def portRows : List (Nat × Nat × Nat × List Nat × List Nat) :=
  [(1, 4, 3, [1, 2], [0]), (1, 2, 2, [0], [0, 2]), (1, 1, 1, [0], [0, 1, 2, 3]),
   (2, 4, 2, [0], [0]), (2, 2, 1, [0], [0, 2]), (2, 1, 0, [0], [0, 1, 2, 3]),
   (3, 4, 1, [0], [0]), (3, 2, 0, [0], [0, 2]), (4, 4, 0, [0], [0]), (5, 8, 0, [0], [0])]

/-- The configuration is a row of Table 12-4 at an allowed offset. -/
def rowOk (n cfg : Nat) : Bool :=
  portRows.any (fun r => r.1 == cfgSize cfg && r.2.1 == cfgLanes cfg && r.2.2.1 == cfgRate cfg
    && r.2.2.2.1.contains (cfgFec cfg) && r.2.2.2.2.contains (n % 4))

/-- Two ports lie on one face. -/
def sameFace (a b : Nat) : Bool := a / 32 == b / 32

/-- The new lanes overlap a lane of another port of the face. -/
def lanesOverlap (n cfg : Nat) (d : Dev) : Bool :=
  (List.range 64).any (fun m => m != n && sameFace m n && (portLanes (d.tab.getPrt m).cfg m).any (portLanes cfg n).contains)

/-- SIZE 5 where R10 forbids it: off the pair's first port, or beside a port of another size on the face; or another size beside SIZE 5. -/
def pairRule (n cfg : Nat) (d : Dev) : Bool :=
  let others := (List.range 64).filter (fun m => m != n && sameFace m n && facePos m / 8 == facePos n / 8 && cfgSize (d.tab.getPrt m).cfg != 0)
  if cfgSize cfg = 5 then n % 8 != 0 || !others.isEmpty else others.any (fun m => isWide d.tab m)

/-- An enabled channel names the port as SRC or DST. -/
def portNamed (n : Nat) (t : Tables) : Bool := t.chn.any (fun e => e.2.en && (chanPorts e.1 e.2).contains n)

/-- The rate of a line lane in no port: TRATE while TEST sets a pattern, the checker or a loopback; else the reset value of RATE, as for a TRATE
that Table 12-1 does not list (12 R339, R355; log entry 76). -/
def testRate (test : Nat) : Nat := if fld test 4 0 ≠ 0 && fld test 7 5 < 5 then fld test 7 5 else 0

/-- The lanes of a port start to acquire at its rate; a lane that leaves it belongs to no port from then on (12 R339, R352). -/
def moveLanes (n old new : Nat) (d : Dev) : Dev :=
  let d := each ((portLanes old n).filter (fun l => !(portLanes new n).contains l)) (fun l d => d.updLane l (fun x => { x with rate := testRate x.test })) d
  each (portLanes new n) (fun l d => d.updLane l (fun x =>
    if x.retired then x else { x with rate := cfgRate new, lol := true, lolChg := x.lolChg || !x.lol, acq := !bitAt d.pins.refLost (laneRef l) })) d

/-- What the calendars and FILLCH of a cipher port keep under a new configuration: VALID is always 0 for a column at or above N, and FILL 0 off
1.6TbE ports (03 Tables 03-12, 03-18). -/
def fitSlt (n cfg : Nat) (t : Tables) : Tables :=
  if !isCipher n then t
  else
    let cols := slotCols t (facePos n)
    let fit := fun (page : Tab Nat) => page.filter (fun e => decide (e.1 < cols))
    t.updSlt (facePos n) (fun g => { g with
      fillCh := if cfgSize cfg = 5 then g.fillCh else 0
      txPageA := fit g.txPageA, txPageB := fit g.txPageB, rxPageA := fit g.rxPageA, rxPageB := fit g.rxPageB })

/-- CMD_PORT_CONFIG: a port whose disable waits for its boundary is disabled at the gate (05 R143). -/
def doPortConfig (b : Sub) (n cfg : Nat) (d : Dev) : Dev :=
  let g := d.tab.getPrt n
  let cfg := if cfgSize cfg = 0 then 0 else fld cfg 12 0
  let some_ := cfg != 0
  inSlice (portSlice n d) b (guards b
    [(g.gateOn || (isCipher n && sltEn (d.tab.getSlt (facePos n))), stIN_USE),
     (some_ && lanesOverlap n cfg d, stIN_USE),
     (cfgSize g.cfg != 0 && (cfgSize cfg == 0 || (cfgSize cfg == 5) != (cfgSize g.cfg == 5)) && portNamed n d.tab, stIN_USE),
     (some_ && !rowOk n cfg, stBAD_PORT),
     (some_ && pairRule n cfg d, stBAD_PORT),
     (cfgSlot cfg && (!isCipher n || cfgSize cfg == 1), stBAD_PORT),
     ((portLanes cfg n).any (fun l => (d.getLane l).retired), stBAD_PORT)]
    (fun d =>
      let d := moveLanes n g.cfg cfg ((endDisable n d).updTab (fun t => fitSlt n cfg (t.updPrt n (fun x => { x with cfg := cfg }))))
      gateDone b stOK [] (idleEmit n (updateLos n (d.updPort n (fun x => { x with laneFail := false })))))) d

/-- CMD_PORT_CONFIG. -/
def execCmdPortConfig (b : Sub) (p cfg : Nat) (s : State) : Host.Outcome State Fault Refusal := done s (doPortConfig b p cfg)

/-! ### Enable and disable (08 R225) -/

/-- A port begins at index 0, frozen, with its counters at 0 (08 R225, R234; 02 R64; 06 R183; 09 R274; 12 R362). -/
def enablePort (n : Nat) (d : Dev) : Dev :=
  let idx := (d.getTck n).nextIdx
  let d := d.updTab (Tables.updPrt n (fun g => { g with enabled := true, gateOn := true }))
  let d := d.updTck n (fun t => { pstate := .frozen, effTno := d.tck.tno, freezeRseq := t.freezeRseq })
  let d := d.updPort n (fun p => { p with
    errBlk := Tab.get 0 p.ctr 12 + Tab.get 0 p.ctr 7 + p.errBlk + p.fecUncorr, ctr := [], pat := [], fecCw := 0, fecCorr := 0, fecUncorr := 0, fecSymErr := 0 })
  let d := d.updTwn n (fun t => { t with fenceDrop := 0, suppress := 0, base := 0, hashes := [], digests := [], waiting := [], leadFp := [], cmpFrom := 0, cmpRx := 0 })
  if isCipher n then updPm (facePos n) (fun m => { m with down := true, periods := if cfgSlot (d.tab.getPrt n).cfg then m.periods else m.periods + (idx - m.baseIdx), baseIdx := 0 }) d else d

/-- CMD_PORT_ENABLE: OK and no change on a port that is enabled at the gate (05 R143); BAD_PORT without lanes or with a retired lane (12 R347); BAD_MODE in ENROL (14 R390). -/
def doPortEnable (b : Sub) (n : Nat) (d : Dev) : Dev :=
  let lanes := portLanes (d.tab.getPrt n).cfg n
  inSlice (portSlice n d) b (fun d =>
    if d.mod.mode = .enrol then gateDone b stBAD_MODE [] d
    else if (d.tab.getPrt n).gateOn then gateDone b stOK [] d
    else guards b [(lanes.isEmpty || lanes.any (fun l => (d.getLane l).retired), stBAD_PORT)] (fun d => gateDone b stOK [] (enablePort n (endDisable n d))) d) d

/-- CMD_PORT_ENABLE. -/
def execCmdPortEnable (b : Sub) (p : Nat) (s : State) : Host.Outcome State Fault Refusal := done s (doPortEnable b p)

/-- CMD_PORT_DISABLE: it takes effect at the tack's boundary on the port. -/
def doPortDisable (b : Sub) (n : Nat) (d : Dev) : Dev :=
  inSlice (portSlice n d) b (fun d =>
    let d := gateDone b stOK [] d
    if !portEnabled d n || (d.getTck n).disableTack.isSome then d
    else settlePort n ((d.updTck n (fun t => { t with disableTack := some d.tck.tno })).updTab (Tables.updPrt n (fun g => { g with gateOn := false })))) d

/-- CMD_PORT_DISABLE. -/
def execCmdPortDisable (b : Sub) (p : Nat) (s : State) : Host.Outcome State Fault Refusal := done s (doPortDisable b p)

/-! ### PRT_SET (02 R68) -/

/-- A gated register of a port takes a value (02 Tables 02-18 to 02-22). -/
def prtSetReg (off v : Nat) (g : PrtGated) : PrtGated :=
  if off = 0x400 then { g with fmCtrl := fld v 4 0 + at_ (fld v 31 16) 16 }
  else if off = 0x404 then { g with maxFrame := fld v 13 0 }
  else if 0x410 ≤ off && decide (off < 0x430) then
    let k := (off - 0x410) / 8
    let old := Tab.get 0 g.peerMac k
    { g with peerMac := Tab.set 0 g.peerMac k (if off % 8 = 0 then old / 2 ^ 32 * 2 ^ 32 + lo32 v else fld v 15 0 * 2 ^ 32 + lo32 old) }
  else if 0x440 ≤ off && decide (off < 0x460) then { g with bypass := Tab.set 0 g.bypass ((off - 0x440) / 4) (fld v 17 0) }
  else g

/-- The gated Frame-mode registers of a port. -/
def prtGatedOff (off : Nat) : Bool :=
  off % 4 == 0 && (off == 0x400 || off == 0x404 || (decide (0x410 ≤ off) && decide (off < 0x430)) || (decide (0x440 ≤ off) && decide (off < 0x460)))

/-- PRT_SET. -/
def doPrtSet (b : Sub) (n off v : Nat) (d : Dev) : Dev :=
  inSlice (portSlice n d) b (guards b
    [(!prtGatedOff off, stBAD_COMMAND),
     (!isCipher n && (off == 0x400 || (decide (0x410 ≤ off) && decide (off < 0x430))), stBAD_PORT),
     (off == 0x404 && (decide (fld v 13 0 < 64) || decide (9728 < fld v 13 0)), stBAD_LIMIT),
     (off == 0x400 && bitAt v 4 && (!isRc (fld v 31 16) || !portReaches d.tab n (chSlice (fld v 31 16))), stBAD_CHANNEL)]
    (fun d => gateDone b stOK [] (d.updTab (Tables.updPrt n (prtSetReg off v))))) d

/-- PRT_SET. -/
def execPrtSet (b : Sub) (p off v : Nat) (s : State) : Host.Outcome State Fault Refusal := done s (doPrtSet b p off v)

end Sys2Proof.Machine
end

