-- ==== Sys2Proof/Machine/Lanes.lean ====
section
/-! DEFINITION. Lanes and reference clocks: signal, lock, acquisition, figure of merit, faults, tests (12 R344, R349 to R362). -/

namespace Sys2Proof.Machine

/-- A Holpen lane, numbered from 64. -/
def isHln (l : Nat) : Bool := decide (64 ≤ l)

/-- Bytes 24 and 25 of a lane's events (12 Table 12-15). -/
def laneData (l : Nat) : Bytes := be 1 (isHln l).toNat ++ be 1 (if isHln l then l - 64 else l)

/-- Both lanes of Holpen port `j` carry signal and lock, and its PCS and FEC are aligned (12 R358). -/
def hpLanesUp (j : Nat) (d : Dev) : Bool :=
  [64 + 2 * j, 65 + 2 * j].all (fun l => !(d.getLane l).los && !(d.getLane l).lol) && !(d.getHp j).loa

/-- The frames of the pair that a port has not delivered: sent and not acknowledged, then waiting (09 R265). -/
def pathFrames (h : HpPort) : List HpFrame := ((h.sent.map (fun x => x.2.2)) ++ h.txq).filter (fun f => decide (4 ≤ f.type) && decide (f.type ≤ 8))

/-- A Holpen port leaves service: its link keys and sequences end, and the frames of the pair that it has not delivered go by the other path,
where records are repeated (12 R358, 09 R235, R265). -/
def hpDown (j : Nat) (d : Dev) : Dev :=
  let l := if isTwinPort j d then pathFrames (d.getHp j) else []
  let d := d.updHp j (fun h => if h.state = 5 then h else
    { h with state := 0, txKey := [], rxKey := [], txSalt := [], rxSalt := [], txCtr := 0, rxCtr := 0, lseq := 0, lack := 0, fails := 0
             txq := [], sent := [] })
  each l (fun f d => pathSend (twinPath d) f.type f.eseq f.payload d) d

/-- HP7 in role 0 is off (09 R262); in RESET and KILN every lane is squelched (14 Table 14-1). -/
def hpOff (j : Nat) (d : Dev) : Bool := (j == 7 && fld d.twn.hpCfg 1 0 == 0) || regsShut d

/-- A node that loses all lanes of a torus port, at once or one after the other, broadcasts the neighbour as lost, once (09 R270; MBOX payload of log
entry 16). -/
def neighbourLost (j : Nat) (d : Dev) : Dev :=
  if j < 6 && nodeLocked d && (d.getHp j).known && [64 + 2 * j, 65 + 2 * j].all (fun l => (d.getLane l).los || (d.getLane l).lol) then
    let d := { d with twn := { d.twn with eseq := (d.twn.eseq + 1) % 2 ^ 32 } }
    meshFlood 0x0B 2 (nodeAddr d) 24 d.twn.eseq (be 2 (d.getHp j).nbr) (some j) (d.updHp j (fun h => { h with known := false }))
  else d

/-- A Holpen port follows its lanes: down, or training once both are up, when it sends its LINKHELLO (12 R358, 09 R262, R266). -/
def hpFollow (j : Nat) (d : Dev) : Dev :=
  if hpLanesUp j d && !hpOff j d then (if (d.getHp j).state = 0 then linkHello j (d.updHp j (fun h => { h with state := 1 })) else d)
  else neighbourLost j (if (d.getHp j).state = 0 || (d.getHp j).state = 5 then d else hpDown j d)

/-- What depends on a lane's LOS and LOL follows it: its port's LOS, or its Holpen port. -/
def laneFollow (l : Nat) (d : Dev) : Dev :=
  if isHln l then hpFollow ((l - 64) / 2) d
  else match lanePort l d with
    | some n => updateLos n d
    | none => d

/-- Set LOS and LOL of a lane, with the change bits. -/
def laneSet (los lol acq : Bool) (x : Lane) : Lane :=
  { x with los := los, lol := lol, acq := acq, losChg := x.losChg || x.los != los, lolChg := x.lolChg || x.lol != lol }

/-- A lane changes, and what depends on it follows; none acquires while its reference is lost (12 R344). -/
def laneStep (l : Nat) (f : Lane → Lane) (d : Dev) : Dev :=
  laneFollow l (d.updLane l (fun x => let y := f x; { y with acq := y.acq && !bitAt d.pins.refLost (laneRef l) }))

/-- Change a lane that is not retired. -/
def onLane (l : Nat) (f : Lane → Lane) (d : Dev) : Dev := if (d.getLane l).retired then d else laneStep l f d

/-- LANE_LOS_DECLARE (12 R349, R350). -/
def execLaneLosDeclare (l : Nat) (s : State) : Host.Outcome State Fault Refusal := done s (onLane l (laneSet true true false))

/-- LANE_LOS_CLEAR: the lane acquires (12 R349, R352). -/
def execLaneLosClear (l : Nat) (s : State) : Host.Outcome State Fault Refusal :=
  done s (fun d => if (d.getLane l).los then onLane l (fun x => laneSet false x.lol true x) d else d)

/-- LANE_LOL_DECLARE (12 R350). -/
def execLaneLolDeclare (l freqOfs : Nat) (s : State) : Host.Outcome State Fault Refusal :=
  done s (onLane l (fun x => { laneSet x.los true (!x.los) x with freqOfs := fld freqOfs 15 0 }))

/-- LANE_ACQUIRE_COMPLETE: LOL clears (12 R352). -/
def execLaneAcquireComplete (l freqOfs : Nat) (s : State) : Host.Outcome State Fault Refusal :=
  done s (fun d => if bitAt d.pins.refLost (laneRef l) || !(d.getLane l).acq || (d.getLane l).los then d
    else onLane l (fun x => { laneSet false false false x with freqOfs := fld freqOfs 15 0 }) d)

/-- LANE_ACQUIRE_TIMEOUT: the acquisition starts again (12 R352). -/
def execLaneAcquireTimeout (l : Nat) (s : State) : Host.Outcome State Fault Refusal :=
  done s (fun d => if (d.getLane l).acq then onLane l (fun x => { x with cntAcq := Nat.min 255 (x.cntAcq + 1) }) d else d)

/-- The PCS and FEC of port `p` gain or lose alignment (12 R351); `p` from 64 on stands for Holpen port p - 64 (12 R358). -/
def doAlign (p : Nat) (aligned : Bool) (d : Dev) : Dev :=
  if p < 64 then updateLoa p (!aligned) d else hpFollow (p - 64) (d.updHp (p - 64) (fun h => { h with loa := !aligned }))

/-- PCS_ALIGN_CHANGE (12 R351). -/
def execPcsAlignChange (p : Nat) (aligned : Bool) (s : State) : Host.Outcome State Fault Refusal := done s (doAlign p aligned)

/-- A figure of merit of an acquired lane (12 R356, R357). -/
def fomStep (rate fom eye : Nat) (x : Lane) : Lane :=
  let m := fld x.margin 7 0
  let x := { x with fom := fom, eye := if rate ≥ 3 then 3 else eye, fomValid := true, fomMin := if x.fomValid then Nat.min x.fomMin fom else fom
                    lowRun := if fom < m then x.lowRun + 1 else 0, highRun := if m + 5 ≤ fom then x.highRun + 1 else 0 }
  { x with marginLow := if x.lowRun ≥ 10 then true else if x.highRun ≥ 10 then false else x.marginLow }

/-- FOM_MEASURE. -/
def execFomMeasure (l fom eye : Nat) (s : State) : Host.Outcome State Fault Refusal :=
  done s (fun d =>
    let x := d.getLane l
    if x.los || x.lol || x.retired then d
    else
      let fom := Nat.min 255 fom
      let y := fomStep (laneRate l d) fom (eye % 4) x
      let d := d.updLane l (fun _ => y)
      if y.marginLow && !x.marginLow then event 0x0C03 2 (laneData l ++ be 1 fom) d else d)

/-! ### Lane faults and retirement (12 R359 to R361) -/

/-- A lane is retired: LOS and LOL, LANEFAIL of its port, or its Holpen port retired (12 R360). -/
def laneRetire (l row how : Nat) (d : Dev) : Dev :=
  let d := d.updLane l (fun x => { laneSet true true false x with retired := true, squelch := true })
  let d := event 0x0C02 3 (laneData l ++ be 1 row) d
  let d := retireUnit (if isHln l then 5 else 4) (if isHln l then l - 64 else l) how d
  let d := laneFollow l d
  if isHln l then (hpDown ((l - 64) / 2) d).updHp ((l - 64) / 2) (fun h => { h with state := 5 })
  else match lanePort l d with
    | some n => d.updPort n (fun p => { p with laneFail := true })
    | none => d

/-- A transient lane fault, or its recurrence (12 Table 12-7, 15 R413). -/
def laneFault (l row : Nat) (f : Lane → Lane) (d : Dev) : Dev :=
  let cls := if isHln l then 5 else 4
  let unit := if isHln l then l - 64 else l
  if (d.getLane l).retired then d
  else
    let d' := laneStep l f d
    if recurs cls unit 3600 d then laneRetire l row 0 d'
    else event 0x0C04 1 (laneData l ++ be 1 row) (markFault cls unit d')

/-- TX_PLL_UNLOCK: the transmitter is squelched. -/
def execTxPllUnlock (l : Nat) (s : State) : Host.Outcome State Fault Refusal :=
  done s (laneFault l 1 (fun x => { x with squelch := true, cntPll := Nat.min 255 (x.cntPll + 1) }))

/-- TX_PLL_RELOCK: the transmitter sends again. -/
def execTxPllRelock (l : Nat) (s : State) : Host.Outcome State Fault Refusal :=
  done s (fun d => if (d.getLane l).retired then d else d.updLane l (fun x => { x with squelch := false }))

/-- LANE_WATCHDOG_EXPIRE: the controller restarts and the lane acquires again. -/
def execLaneWatchdogExpire (l : Nat) (s : State) : Host.Outcome State Fault Refusal :=
  done s (laneFault l 2 (fun x => { laneSet x.los true (!x.los) x with cntCtlr := Nat.min 255 (x.cntCtlr + 1) }))

/-- The cold reset's lane self-test ends: each failing lane, with the rate at which it failed, is retired. It runs once, in KILN, where no
port can be enabled (12 R361, 14 Table 14-9). -/
def doLaneSelftest (fails : List (Nat × Nat)) (d : Dev) : Dev :=
  if !d.mod.laneTest || d.mod.mode ≠ .kiln then d
  else each fails (fun f d =>
    if (d.getLane f.1).retired then d else laneRetire f.1 3 3 (event 0x0C05 3 (laneData f.1 ++ be 1 3 ++ be 1 f.2) d))
    (d.updMod (fun m => { m with laneTest := false }))

/-- LANE_SELFTEST_COMPLETE. -/
def execLaneSelftestComplete (fails : List (Nat × Nat)) (s : State) : Host.Outcome State Fault Refusal := done s (doLaneSelftest fails)

/-! ### Lane registers with actions (12 R354, R355, R362) -/

/-- The modes of R354. -/
def laneMode (d : Dev) : Bool := d.mod.mode == .factory || d.mod.mode == .enrol || d.mod.mode == .service || d.mod.mode == .returned

/-- The lane belongs to an enabled port. -/
def laneInUse (l : Nat) (d : Dev) : Bool := if isHln l then false else match lanePort l d with | some n => portEnabled d n | none => false

/-- A write of LNE[l]_CAL: GO, and the two bits that a 1 clears (12 R354). -/
def doLneCal (l v : Nat) (d : Dev) : Dev :=
  let d := d.updLane l (fun x => { x with calDone := x.calDone && !bitAt v 2, calRefused := x.calRefused && !bitAt v 3 })
  if !bitAt v 0 then d
  else
    let x := d.getLane l
    if !laneMode d || x.acq || x.calBusy then d.updLane l (fun x => { x with calRefused := true })
    else onLane l (fun x => { laneSet x.los true false x with calBusy := true }) d

/-- LNE_CAL. -/
def execLneCal (l v : Nat) (s : State) : Host.Outcome State Fault Refusal := doneReg s (doLneCal l v)

/-- FOREGROUND_RECALIBRATION_END: the lane acquires again (12 R352, R354). -/
def execForegroundRecalibrationEnd (l : Nat) (s : State) : Host.Outcome State Fault Refusal :=
  done s (fun d => if (d.getLane l).calBusy then onLane l (fun x => { x with calBusy := false, calDone := true, acq := !x.los }) d else d)

/-- A write of LNE[l]_TEST (12 R355): a line lane in no port runs its test at TRATE; a Holpen lane's rate is fixed (12 R358). -/
def doLneTest (l v : Nat) (d : Dev) : Dev :=
  let d := d.updLane l (fun x => { x with testRefused := x.testRefused && !bitAt v 31 })
  let v := fld v 7 0
  if (fld v 1 0 != 0 || fld v 4 3 != 0) && (!laneMode d || laneInUse l d) then d.updLane l (fun x => { x with testRefused := true })
  else d.updLane l (fun x => { x with test := v, rate := if l < 64 && (lanePort l d).isNone then testRate v else x.rate })

/-- LNE_TEST. -/
def execLneTest (l v : Nat) (s : State) : Host.Outcome State Fault Refusal := doneReg s (doLneTest l v)

/-- A write of LNE[l]_CTRL (12 R362). -/
def doLneCtrl (l v : Nat) (d : Dev) : Dev :=
  if laneInUse l d then d.updLane l (fun x => { x with werr := true }) else d.updLane l (fun x => { x with ctrl := fld v 3 0 })

/-- LNE_CTRL. -/
def execLneCtrl (l v : Nat) (s : State) : Host.Outcome State Fault Refusal := doneReg s (doLneCtrl l v)

/-- The magnitude of a six-bit tap. -/
def tapMag (v : Nat) : Nat := if v < 32 then v else 64 - v

/-- A write of LNE[l]_TXEQ: tap magnitudes above 63 in sum change nothing (12 R362). MAIN is unsigned, as its reset value 56 is; the other taps are two's complement. -/
def doLneTxeq (l v : Nat) (d : Dev) : Dev :=
  let sum := tapMag (fld v 5 0) + tapMag (fld v 13 8) + fld v 21 16 + tapMag (fld v 29 24)
  if 63 < sum then d.updLane l (fun x => { x with werr := true })
  else d.updLane l (fun x => { x with txeq := fld v 5 0 + at_ (fld v 13 8) 8 + at_ (fld v 21 16) 16 + at_ (fld v 29 24) 24 })

/-- LNE_TXEQ. -/
def execLneTxeq (l v : Nat) (s : State) : Host.Outcome State Fault Refusal := doneReg s (doLneTxeq l v)

/-! ### Reference clocks (12 R344) -/

/-- The lanes that a reference serves. -/
def refLanes (i : Nat) : List Nat :=
  if i = 0 then List.range 32 else if i = 1 then (List.range 32).map (· + 32) else if i = 2 then (List.range 16).map (· + 64) else []

/-- Set the presence bit of a clock. -/
def setClk (i : Nat) (b : Bool) (d : Dev) : Dev :=
  { d with pins := { d.pins with clk := setBit d.pins.clk i b, refLost := setBit d.pins.refLost i (!b),
                                 clkChg := if bitAt d.pins.clk i == b then d.pins.clkChg else setBit d.pins.clkChg i true } }

/-- REFCLK_LOSS: its lanes lose lock and are squelched; the system reference's loss is a device fault (15 Table 15-4). -/
def doRefLoss (i : Nat) (d : Dev) : Dev :=
  if 5 ≤ i || bitAt d.pins.refLost i then d
  else
    let d := event 0x0C01 3 (be 1 i) (setClk i false d)
    let d := each (refLanes i) (fun l => onLane l (fun x => laneSet x.los true false x)) d
    if i = 4 then archiveFlush (deviceFault 1 d) else d

/-- REFCLK_LOSS. -/
def execRefclkLoss (i : Nat) (s : State) : Host.Outcome State Fault Refusal := done s (doRefLoss i)

/-- REFCLK_RETURN: the lanes acquire again. -/
def doRefReturn (i : Nat) (d : Dev) : Dev :=
  if 5 ≤ i then d
  else each (refLanes i) (fun l => onLane l (fun x => if x.los || !x.lol then x else { x with acq := true })) (setClk i true d)

/-- REFCLK_RETURN. -/
def execRefclkReturn (i : Nat) (s : State) : Host.Outcome State Fault Refusal := done s (doRefReturn i)

end Sys2Proof.Machine
end

