-- ==== Sys2Proof/Machine/Pool.lean ====
section
/-! DEFINITION. The buffer-pool manager's own steps and quota registers (11 R315, R316, R338). -/

namespace Sys2Proof.Machine

/-! ### Bobbins (11 R316) -/

/-- A bobbin below its low mark is filled to its target, while U allows it. -/
def doRefill (q : Nat) (d : Dev) : Dev :=
  let b := d.bpm
  if q < 0xC0 && b.bobOf q < bobLow q && b.used + (bobTarget q - b.bobOf q) ≤ b.shared then
    { d with bpm := { b with bob := Tab.set 0 b.bob q (bobTarget q) } }
  else d

/-- BOBBIN_REFILL. -/
def execBobbinRefill (q : Nat) (s : State) : Host.Outcome State Fault Refusal := done s (doRefill q)

/-- A bobbin above its high mark is spilled to its target. -/
def doSpill (q : Nat) (d : Dev) : Dev :=
  if q < 0xC0 && d.bpm.bobOf q > bobHigh q then { d with bpm := { d.bpm with bob := Tab.set 0 d.bpm.bob q (bobTarget q) } } else d

/-- BOBBIN_SPILL. -/
def execBobbinSpill (q : Nat) (s : State) : Host.Outcome State Fault Refusal := done s (doSpill q)

/-- C - U has fallen below 4,096: every bobbin goes to its low mark. -/
def doSpillAll (d : Dev) : Dev :=
  if d.bpm.shared - d.bpm.used < 4096 then
    { d with bpm := { d.bpm with bob := requesters.foldl (fun t q => Tab.upd 0 t q (fun n => Nat.min n (bobLow q))) d.bpm.bob } }
  else d

/-- BOBBIN_SPILL_ALL. -/
def execBobbinSpillAll (s : State) : Host.Outcome State Fault Refusal := done s doSpillAll

/-- Every bobbin is filled after the wipe (11 R336). -/
def fillBobbins (d : Dev) : Dev := each requesters doRefill d

/-! ### Quotas (11 R315, Tables 11-3 and 11-11) -/

/-- BPM_QSEL: 0xC0 to 0xFF change nothing. -/
def qselWrite (v : Nat) (d : Dev) : Dev := if fld v 7 0 < 0xC0 then { d with bpm := { d.bpm with qsel := fld v 7 0 } } else d

/-- BPM_QSEL. -/
def execBpmQsel (v : Nat) (s : State) : Host.Outcome State Fault Refusal := doneReg s (qselWrite v)

/-- The cap of the requester is fixed (11 Table 11-3, R315). -/
def capFixed (q : Nat) : Bool := (decide (0x40 ≤ q) && decide (q < 0x48)) || (decide (0x50 ≤ q) && decide (q < 0xA0))

/-- The device sets both quotas of the Slot-mode receive holds (11 R315). -/
def slotHold (q : Nat) : Bool := decide (0x58 ≤ q) && decide (q < 0x60)

/-- The ranges of Table 11-3 for a minimum `mn` and a cap `cp`. -/
def quotaRange (q mn cp : Nat) : Bool :=
  if q < 0x40 then decide (cp ≤ 16384)
  else if q < 0x48 then decide (mn ≤ 4096)
  else if q < 0x50 then decide (1024 ≤ mn) && decide (mn ≤ 4096) && decide (cp ≤ 4096)
  else if q < 0x58 then decide (mn ≤ 4096)
  else if q < 0xA0 then decide (mn ≤ 2048)
  else if q < 0xB0 then decide (cp ≤ 4096) else decide (cp ≤ 8192)

/-- The sum of the minimums is within the pool and U does not exceed C (11 R314). -/
def poolSound (b : Bpm) : Bool := decide ((requesters.map b.minOf).sum ≤ 131072) && decide (b.used ≤ b.shared)

/-- The quota write is refused. -/
def quotaRefused (d : Dev) : Dev := { d with bpm := { d.bpm with refused := Tab.set false d.bpm.refused d.bpm.qsel true } }

/-- Change a quota of the selected requester, under the three conditions of R315. -/
def quotaWrite (fixed : Bool) (f : Bpm → Bpm) (d : Dev) : Dev :=
  let q := d.bpm.qsel
  let b := f d.bpm
  if fixed || !poolSound b || decide (b.capOf q < b.minOf q) || !quotaRange q (b.minOf q) (b.capOf q) then quotaRefused d
  else { d with bpm := b }

/-- BPM_QMIN. -/
def qminWrite (v : Nat) (d : Dev) : Dev :=
  quotaWrite (slotHold d.bpm.qsel) (fun b => { b with min := Tab.set 0 b.min b.qsel (fld v 17 0 + 1) }) d

/-- BPM_QMIN. -/
def execBpmQmin (v : Nat) (s : State) : Host.Outcome State Fault Refusal := doneReg s (qminWrite v)

/-- BPM_QCAP. -/
def qcapWrite (v : Nat) (d : Dev) : Dev :=
  quotaWrite (capFixed d.bpm.qsel) (fun b => { b with cap := Tab.set 0 b.cap b.qsel (fld v 17 0 + 1) }) d

/-- BPM_QCAP. -/
def execBpmQcap (v : Nat) (s : State) : Host.Outcome State Fault Refusal := doneReg s (qcapWrite v)

end Sys2Proof.Machine
end

