-- ==== Sys2Proof/Machine/Recorder.lean ====
section
/-! DEFINITION. The event recorder: restore, copies, checkpoints, postings, calendar and 1PPS (15 R433 to R436, 17 R465 to R467). -/

namespace Sys2Proof.Machine

/-! ### Restore (15 R434, R438) -/

/-- The highest value of a field in the archive. -/
def arcMax (f : EvRec → Nat) (l : List EvRec) : Nat := l.foldl (fun a r => Nat.max a (f r)) 0

/-- The record of the archive whose sequence number was issued last (15 R431). -/
def newestRec (l : List EvRec) : Option EvRec :=
  l.foldl (fun a x => match a with | none => some x | some y => if seqBefore y.seq x.seq then some x else a) none

/-- The sequence number after the highest in the archive (15 R431, R434). -/
def arcNextSeq (l : List EvRec) : Nat := match newestRec l with | some r => (r.seq + 1) % 2 ^ 32 | none => 0

/-- The recorder restores its state before it places a record; the held records follow event 0x0F01. -/
def restoreRec (cold : Bool) (d : Dev) : Dev :=
  let e := d.evr
  let usable := 128 ≤ d.fls.size
  let l := if usable then (e.sectors.map (fun (s : Nat × ArcSector) => s.2.recs)).flatten else []
  let blank := l.isEmpty
  let unclean := !blank && !e.cleanStop
  let missed := match newestRec l with | some r => if r.code = 0x0F05 then beAt r.data 4 4 else 0 | none => 0
  let early := e.early
  let e := { e with
    ready := true, flashOk := usable, ramOnly := !usable, unclean := unclean, early := []
    optime := arcMax (fun r => r.optime) l
    pwrCyc := if blank then 0 else (arcMax (fun r => r.pwrCyc) l + (if cold then 1 else 0)) % 2 ^ 24
    nextSeq := (arcNextSeq l + (if unclean then 1048576 else 0)) % 2 ^ 32
    spares := fld e.arcCfg 23 16 - e.retired.length }
  let d := { d with evr := e }
  -- the second in progress began no earlier than the restored operating time (04 R123)
  let d := each (List.range 32) (fun p => Dev.updSlt p (fun s => { s with pm := { s.pm with startOt := e.optime } })) d
  let d := recordFull 0x0F01 1 4 (if unclean then 2 else 0) (be 1 (if unclean then 0 else 1) ++ be 4 missed) false d
  let d := if usable then d else event 0x0F04 3 (be 1 2) d
  each early (fun r d => recordFull r.code r.sev r.src r.flags r.data false d) d

/-! ### Copies, checkpoints, postings (15 R433, R434, R436) -/

/-- ARCHIVE_COPY. -/
def execArchiveCopy (s : State) : Host.Outcome State Fault Refusal := done s archiveFlush

/-- CHECKPOINT: an archive-only record. -/
def execCheckpoint (s : State) : Host.Outcome State Fault Refusal := done s (recordFull 0x0F02 0 4 0 [] true)

/-- A write of EVR_POSTCTL by requester `r`. -/
def postWrite (r v : Nat) (d : Dev) : Dev :=
  let m := d.mod.mode
  if r = reqJtag || m = .reset || m = .kiln || m = .zeroised then d
  else
    recordFull (fld v 15 0) (fld v 17 16) (if r = reqHost then 62 else 63) 1
      (le 4 (Tab.get 0 d.evr.postLo r) ++ le 4 (Tab.get 0 d.evr.postHi r)) false d

/-- EVR_POSTCTL. -/
def execEvrPostctl (r v : Nat) (s : State) : Host.Outcome State Fault Refusal := doneReg s (postWrite r v)

/-! ### Calendar (15 R435, Table 15-11) -/

/-- Calendar time steps, or the time source of the performance records changes: their intervals in progress are PARTIAL (04 R123). -/
def markStep (d : Dev) : Dev := each (List.range 32) (fun p => Dev.updSlt p (fun s => { s with pm := { s.pm with step := true } })) d

/-- The calendar quality changes: event 0x1101. Quality 3 is what makes the time-of-day input qualified. -/
def setCalq (q : Nat) (d : Dev) : Dev :=
  let old := d.evr.calq
  if old = q then d else event 0x1101 1 (be 1 q ++ be 1 old) { when_ ((old == 3) != (q == 3)) markStep d with evr := { d.evr with calq := q } }

/-- A write of EVR_CALSET sets the calendar with quality 1. -/
def calSet (v : Nat) (d : Dev) : Dev :=
  setCalq 1 { when_ (v % 2 ^ 48 != d.evr.calSec) markStep d with evr := { d.evr with calSec := v % 2 ^ 48, calSetLo := lo32 v, calSetHi := fld v 47 32, ppsRun := 0 } }

/-- EVR_CALSET. -/
def execEvrCalset (v : Nat) (s : State) : Host.Outcome State Fault Refusal := doneReg s (calSet v)

/-- CALENDAR_HOLDOVER: 1,000 s after quality 3 was lost. -/
def execCalendarHoldover (s : State) : Host.Outcome State Fault Refusal := done s (fun d => if d.evr.calq = 2 then setCalq 1 d else d)

/-! ### 1PPS and time of day (17 R465 to R467) -/

/-- An edge is accepted: the calendar takes the accepted message's value; three agreements in a row give quality 3. Edge and message agree by the
value that the edge before left, whatever the calendar has done since, and a disagreement is a step (17 R466, R467); before a first edge there
is none to agree with, and a change of the calendar is the step. -/
def doPpsEdge (d : Dev) : Dev :=
  let e := d.evr
  let known := e.ppsOn || e.calq ≠ 0
  let next := if known then (e.calSec + 1) % 2 ^ 48 else e.calSec
  match e.ppsMsg with
  | none =>
    let d := { d with evr := { e with calSec := next, ppsOn := true, ppsRun := 0, ppsPrev := some next } }
    if e.calq = 3 then setCalq 2 d else d
  | some m =>
    let v := m / 2
    let agree := match e.ppsPrev with
      | some p => v == (p + 1) % 2 ^ 48 || (m % 2 == 1 && v == p)
      | none => false
    let step := if e.ppsPrev.isSome then !agree else v != next
    let run := if agree then Nat.min 3 (e.ppsRun + 1) else 0
    let d := { when_ step markStep d with evr := { e with calSec := v, ppsPrev := some v, ppsMsg := none, ppsOn := true, ppsRun := run } }
    if run = 3 then setCalq 3 d else if e.calq = 3 then setCalq 2 d else d

/-- PPS_EDGE. -/
def execPpsEdge (s : State) : Host.Outcome State Fault Refusal := done s doPpsEdge

/-- No edge within 1 s + 100 us: the system reference gives the second's boundary; an accepted message waits for the next accepted edge (17 R467). -/
def doPpsMissing (d : Dev) : Dev :=
  if !d.evr.ppsOn then d
  else
    let e := d.evr
    let d := { d with evr := { e with ppsOn := false, ppsRun := 0, calSec := (e.calSec + 1) % 2 ^ 48 } }
    if e.calq = 3 then setCalq 2 d else d

/-- PPS_MISSING. -/
def execPpsMissing (s : State) : Host.Outcome State Fault Refusal := done s doPpsMissing

/-- CRC-16 with polynomial 0x1021 and initial value 0xFFFF (17 Table 17-6). -/
def crc16Bits : Nat → Nat → Nat
  | 0, c => c
  | n + 1, c => crc16Bits n (if c ≥ 0x8000 then ((c * 2) % 0x10000) ^^^ 0x1021 else c * 2)

def crc16 (b : Bytes) : Nat := b.foldl (fun c x => crc16Bits 8 (c ^^^ (x.toNat * 256))) 0xFFFF

/-- A time-of-day message: accepted, or discarded with event 0x1102 at most once in any 60 s. -/
def doTod (b : Bytes) (inTime : Bool) (d : Dev) : Dev :=
  let why := if b.length ≠ 12 || beAt b 0 2 ≠ 0xC5A7 || beAt b 10 2 ≠ crc16 (b.take 10) then 1
    else if byteAt b 2 ≠ 1 || byteAt b 3 % 2 ≠ 1 then 2 else if !inTime then 3 else 0
  if why = 0 then { d with evr := { d.evr with ppsMsg := some (2 * beAt b 4 6 + byteAt b 3 / 2 % 2) } }
  else if d.evr.todBad = 0 || d.evr.todBad + 59999 ≤ d.evr.optime then
    event 0x1102 2 (be 1 why) { d with evr := { d.evr with todBad := d.evr.optime + 1 } }
  else d

/-- TOD_MESSAGE. -/
def execTodMessage (bytes : Bytes) (inTime : Bool) (s : State) : Host.Outcome State Fault Refusal := done s (doTod bytes inTime)

end Sys2Proof.Machine
end

