-- ==== Sys2Proof/Machine/Reset.lean ====
section
/-! DEFINITION. Cold and warm resets, and Kiln: keys, images, start mode (14 R392 to R399, R404; 07 R184, R187, R188; 17 R458). -/

namespace Sys2Proof.Machine

/-! ### Resets (14 R392, Table 14-4) -/

/-- A retired lane after a warm reset. -/
def laneKept (t : Tab Lane) : Tab Lane := t.filterMap (fun e => if e.2.retired then some (e.1, { retired := true, squelch := true }) else none)

/-- What a reset keeps of the recorder: the archive, which is non-volatile (15 R434, R438). -/
def evrKept (e : Evr) : Evr :=
  { sectors := e.sectors, openSector := e.openSector, retired := e.retired, cleanStop := e.cleanStop, flashOps := e.flashOps }

/-- A warm reset's flush lets an erase that it finds running resume, and the flash, which no reset touches, ends it (16 R452; DESIGN CHOICE, log
entry 80). -/
def settleErase (d : Dev) : Dev := if d.fls.op.isSome then doFlsDone true d else d

/-- A reset: fuses, flash and unprotected DDR5 stay; a warm one keeps RWS fields and retired units too (R392, R410, R413), and a twin that
leaves LEAD or SHADOW by it first sends DEPART (09 R254). -/
def resetDev (cold : Bool) (cause : Nat) (d : Dev) : Dev :=
  let d := if !cold && (d.mod.mode = .lead || d.mod.mode = .shadow) then sendDepart d else d
  let d := lcInterrupt d
  let d := if cold then d else settleErase (cleanFlush d)
  let n := freeBytes 32 d
  let d := n.2
  let m := d.mod
  let kept : Faults := if cold then {} else { lastAt := d.flt.lastAt, retired := d.flt.retired, repairUsed := d.flt.repairUsed, rowCe := d.flt.rowCe }
  let slices := (List.range 8).filter (fun s => kept.retired.contains (2, s))
  { out := d.out, fresh := d.fresh
    mod := { fuses := m.fuses, fusesRead := m.fuses, nonce := n.1, rstCause := if cold then 0 else cause,
             laneTest := cold, nextMode := if cold then 0 else m.nextMode, bistRes := if cold then 0 else m.bistRes }
    fls := { flash := d.fls.flash, size := d.fls.size }
    evr := evrKept d.evr
    mem := { ddr := d.mem.ddr.filter (fun e => decide (metaEnd d ≤ e.1)) }
    flt := kept
    slice := slices.map (fun s => (s, { state := 3 }))
    core := if cold then [] else d.core.filterMap (fun e => if e.2.run = .retired then some (e.1, { run := .retired }) else none)
    lane := if cold then [] else laneKept d.lane
    hln := if cold then [] else laneKept d.hln
    twn := { hp := if cold then [] else d.twn.hp.filterMap (fun e => if e.2.state = 5 then some (e.1, { state := 5 }) else none) }
    pins := { tamper := d.pins.tamper, refLost := d.pins.refLost, thermTrip := d.pins.thermTrip && !cold } }

/-- COLD_RESET: SYSRST_N low for 1 us, or power-on; it restarts a device that has stopped, too (15 R427, 17 R458). -/
def execColdReset (s : State) : Host.Outcome State Fault Refusal := doneAlways s (resetDev true 0)

/-- MOD_RESET: 0x57525354 starts a warm reset (14 R384). -/
def modReset (v : Nat) (d : Dev) : Dev := if v ≠ 0x57525354 then d else resetDev false 1 d

/-! ### Keys of the device (07 R187, R188; 14 R404, R406) -/

/-- DKEK, the identity key and the attestation key, while the DUS can be read. -/
def loadDeviceKeys (d : Dev) : Dev :=
  let f := d.mod.fuses
  if !f.dusV || f.dusKill || !d.keys.kwrValid then d
  else
    let owner := if d.mod.fusesRead.ownerV then d.mod.fusesRead.ownerHash else zeros 32
    let d := putKek 0 .device 3 0 (shake256 (ascii "OV6400-DKEK" ++ f.dus) 32) d
    let a := freeKeyId d
    let b := freeKeyId a.2
    let d := b.2.updLpk 0 (fun _ => { valid := true, type := 3, keyId := a.1, key := shake256 (ascii "OV6400-IDK" ++ f.dus) 32 })
    d.updLpk 1 (fun _ => { valid := true, type := 3, keyId := b.1, key := shake256 (ascii "OV6400-ATK" ++ f.dus ++ owner) 32 })

/-- The cold-store key, random at every reset, in KEK slot 1. -/
def loadColdKey (d : Dev) : Dev :=
  if !d.keys.kwrValid || (d.getKek 1).valid then d
  else
    let r := freeBytes 32 d
    putKek 1 .device 0 0 r.1 r.2

/-! ### Entering ENROL and SOLO (14 R390, R404; 09 R260, R261) -/

/-- ENROL is entered: ports are disabled at the next tack, and the DUS is drawn, blown and read back while DUSV is 0; whether the read-back
matches is a free choice (14 R404; log entry 77). -/
def onEnrol (d : Dev) : Dev :=
  let d := { d with tck := { d.tck with enrolDisable := true } }
  if d.mod.fuses.dusV then d
  else if !d.keys.rngOk then { d with mod := { d.mod with lcCode := 7 } }
  else
    let r := freeBytes 32 d
    let k := freeNat r.2
    if k.1 % 2 = 1 then { k.2 with mod := { k.2.mod with fuses := { k.2.mod.fuses with dus := r.1 }, lcCode := 7 } }
    else loadDeviceKeys { k.2 with mod := { k.2.mod with fuses := { k.2.mod.fuses with dus := r.1, dusV := true } } }

/-- SOLO is entered: heartbeat pairing starts afresh, active unless a port is fenced. -/
def onSolo (d : Dev) : Dev :=
  { d with twn := { d.twn with hbFirst := false, hbActive := (List.range 64).all (fun n => !portFenced d n) } }

/-! ### Kiln (14 R398, R399) -/

/-- A valid copy of the boot record (14 R394). -/
def bootCopy (d : Dev) (base : Nat) : Option Bytes :=
  let b := flashBytes d.fls base 16
  if beAt b 0 4 == 0x4F564252 && decide (byteAt b 8 < 2) && decide (byteAt b 9 < 2) && decide (byteAt b 10 < 3) && byteAt b 11 == 0
      && beAt b 12 4 == crc32c (b.take 12) then some b else none

/-- The boot record: the valid copy with the higher SEQ. -/
def bootRecord (d : Dev) : Option Bytes :=
  match bootCopy d 0, bootCopy d 0x8000 with
  | some a, some b => if beAt a 4 4 < beAt b 4 4 then some b else some a
  | some a, none => some a
  | none, b => b

/-- Try the preferred slot of an image type, then the other one: image, body, and whether it fell back. -/
def tryImage (type pref : Nat) (d : Dev) : Option (Image × Bytes × Bool) × Dev :=
  match checkImage d type pref with
  | .good i b => (some (i, b, false), d)
  | .bad c =>
    let d := imageRefused type pref c d
    match checkImage d type (1 - pref) with
    | .good i b => (some (i, b, true), d)
    | .bad c => (none, imageRefused type (1 - pref) c d)

/-- GLB_REV of a revision (14 Table 14-10). -/
def revCode : Nat := match Config.revision with | .a0 => 0x00 | .a1 => 0x01 | .b0 => 0x10

/-- MR0 (14 Table 14-11); the widths of its fields are of log entry 24. -/
def mr0Data (f : Fuses) : Bytes :=
  be 4 Config.kilnVer ++ be 4 revCode ++ be 1 f.life.code ++ fit 32 f.ownerHash ++ be 1 f.ownerOnly.toNat ++ be 1 f.svnRt ++ be 1 f.svnMc ++ be 1 f.svnPat

/-- MR1 and MR2: an image's digest and slot. -/
def mrImage (i : Image) : Bytes := i.digest ++ be 1 i.slot

/-- KWR and the memory-protection keys are loaded from the random source, unless it fails (07 R184, R186, 11 R326). -/
def loadKwr (d : Dev) : Dev :=
  if d.keys.rngFault then d
  else
    let r := freeBytes 192 d
    let cut := fun i => sub_ r.1 (32 * i) 32
    { r.2 with keys := { r.2.keys with kwr := cut 0, kwrValid := true, rngOk := true },
               mem := { r.2.mem with xtsKey1 := cut 1, xtsKey2 := cut 2, macKey := cut 3, root := sub_ r.1 128 64 } }

/-- RESET ends: KWR, bobbins, pipelines, recorder; KILN is entered. -/
def kilnEnter (d : Dev) : Dev :=
  let d := fillBobbins (loadKwr d)
  let d := each (List.range 16) (fun k d =>
    let s := k / 2
    let dir := k % 2
    let gone := (List.range 5).filter (fun p => d.flt.retired.contains (1, pipeUnit s dir p))
    if gone.isEmpty then setRole s dir 4 1 d else each gone (fun p => setRole s dir p 3) d) d
  enterMode .kiln 1 (restoreRec (d.mod.rstCause = 0) (linkTrain d))

/-- The start mode and its REASON (14 Table 14-6), once both images have been tried. -/
def startMode (req : Mode) (mc rt : Option Image) (d : Dev) : Mode × Nat :=
  match mc, rt with
  | none, _ => (.fallow, 5)
  | _, none => (.fallow, 4)
  | some m, some r =>
    match d.mod.fuses.life with
    | .returned => (.returned, 1)
    | .virgin => (if req = .enrol then .enrol else .factory, 1)
    | l =>
      if d.mem.fail then (.service, 3)
      else if !testedPair r m then (.service, 2)
      else (if req = .enrol && l = .sealed then .service else req, 1)

/-- The requested start mode: MOD_NEXTMODE, or STARTMODE of the boot record. -/
def startReq (next : Nat) (br : Option Bytes) : Mode :=
  let code := if next = 0 then (match br with | some b => byteAt b 10 | none => 0) else next - 1
  if code = 1 then .service else if code = 2 then .enrol else .solo

/-- Event 0x0E03 of a pair that has not been tested together (14 Table 14-16). -/
def untestedPair (r m : Image) (d : Dev) : Dev := event 0x0E03 2 (be 4 r.imgVer ++ be 4 m.imgVer) d

/-- MR0 takes the fuses' values. -/
def measureFuses (d : Dev) : Dev := mrExtend 0 0 (mr0Data d.mod.fusesRead) d

/-- A loaded image is measured into MR`i`. -/
def measureImage (i : Nat) (x : Option Image) (d : Dev) : Dev := match x with | some y => mrExtend i i (mrImage y) d | none => d

/-- A pair that did not pass its test is reported when it is the reason to start SERVICE. -/
def reportUntested (reason : Nat) (mc rt : Option Image) (d : Dev) : Dev :=
  match mc, rt with
  | some m, some r => if reason = 2 then untestedPair r m d else d
  | _, _ => d

/-- What the mode that KILN starts does first. -/
def modeStarted (m : Mode) (d : Dev) : Dev := if m = .enrol then onEnrol d else if m = .solo then onSolo d else d

/-- Steps 1 and 2 of R398, once per reset: both images are tried, MOD_NEXTMODE is read and cleared, keys are loaded and MR0 to MR2 extended;
without lane microcode no runtime runs (14 R398, R407, Tables 14-6, 14-9). -/
def kilnImages (d : Dev) : Dev :=
  let br := bootRecord d
  let pick := fun i => match br with | some b => byteAt b i | none => 0
  let next := d.mod.nextMode
  let mc := tryImage 2 (pick 9) d
  let rt := tryImage 1 (pick 8) mc.2
  let d := rt.2
  let stat := fun (x : Option (Image × Bytes × Bool)) (used fb : Nat) => match x with | some y => y.1.slot * 2 ^ used + y.2.2.toNat * 2 ^ fb | none => 0
  let mcI := mc.1.map (fun x => x.1)
  let rtI := rt.1.map (fun x => x.1)
  let d := d.updMod (fun m => { m with
    nextMode := 0, kilnDone := true, kilnReq := startReq next br, kilnBody := (match mcI, rt.1 with | some _, some y => y.2.1 | _, _ => [])
    micro := mcI, runtime := if mcI.isSome then rtI else none
    bootStat := stat rt.1 0 2 + stat mc.1 1 3 + br.isSome.toNat * 16 + (if next = 0 then 0 else 256) })
  measureImage 2 rtI (measureImage 1 mcI (measureFuses (loadDeviceKeys (loadColdKey d))))

/-- Step 3 of R398: the first row of Table 14-6 that the conditions meet; the cores start where a runtime was loaded, and the Holpen ports
follow their lanes, which KILN kept quiet (Table 14-1). -/
def kilnStart (d : Dev) : Dev :=
  if d.mod.fuses.life = .scrapped then d.updMod (fun m => { m with reason := 11 })
  else if d.pins.tamper then d.updMod (fun m => { m with reason := 12, kilnWait := true })
  else
    let t := startMode d.mod.kilnReq d.mod.micro d.mod.runtime d
    let d' := when_ d.mod.runtime.isSome (loadRuntime d.mod.kilnBody) (reportUntested t.2 d.mod.micro d.mod.runtime d)
    each (List.range 8) hpFollow <| modeStarted t.1 (enterMode t.1 t.2 (d'.updMod (fun m => { m with kilnWait := false, kilnBody := [] })))

/-- The lane self-test of a cold reset is due: it runs once microcode has started the lane controllers (12 R361, 14 Table 14-9). -/
def laneTestDue (d : Dev) : Bool :=
  d.mod.laneTest && (tryImage 2 (match bootRecord d with | some b => byteAt b 9 | none => 0) d).1.isSome

/-- Kiln boots once DDR5 training and the lane self-test have ended (14 Table 14-9). -/
def kilnGo (d : Dev) : Dev :=
  if d.mod.kilnDone || (!d.mem.trained && !d.mem.fail) || laneTestDue d then d else kilnStart (kilnImages d)

/-- KILN_BOOT: from RESET it enters KILN, and in KILN it goes on. -/
def doKilnBoot (d : Dev) : Dev :=
  let d := if d.mod.mode = .reset then kilnEnter d else d
  if d.mod.mode = .kiln then kilnGo d else d

/-- KILN_BOOT. -/
def execKilnBoot (s : State) : Host.Outcome State Fault Refusal := done s doKilnBoot

/-- TAMPER_N has been deasserted for 100 ms: a waiting Kiln goes on (14 Table 14-6). -/
def doTamperRelease (d : Dev) : Dev :=
  let d := { d with pins := { d.pins with tamper := false } }
  if d.mod.mode = .kiln && d.mod.kilnWait then kilnStart { d with mod := { d.mod with kilnWait := false } } else d

/-- TAMPER_RELEASE_WAIT. -/
def execTamperReleaseWait (s : State) : Host.Outcome State Fault Refusal := done s doTamperRelease

end Sys2Proof.Machine
end

