-- ==== Sys2Proof/Machine/Records.lean ====
section
/-! DEFINITION. Tack records as bytes, and their way to the partner (08 Tables 08-4 and 08-5, 09 R235; log entry 16). -/

namespace Sys2Proof.Machine

/-- A descriptor's 64 bytes (13 Table 13-3) and the 64-byte image that goes with it in a record (log entry 16). -/
def descBytes (e : GateEnt) : Bytes :=
  let x := e.desc
  le 2 x.code ++ be 1 (x.nbt.isSome.toNat + 2 * x.nlt.isSome.toNat + 4 * x.shadowOnly.toNat) ++ [0] ++ le 4 e.sub.tag
    ++ le 8 (x.nbt.getD 0) ++ le 8 (x.nlt.getD 0) ++ le 8 x.p0 ++ le 8 x.p1 ++ le 8 x.p2 ++ le 8 x.p3 ++ le 8 x.p4 ++ fit 64 x.image

/-- A descriptor read back from a record. -/
def gateEntOf (b : Bytes) : GateEnt :=
  let f := byteAt b 2
  ⟨⟨.lead, leAt b 4 4, 0, 0⟩,
   { code := leAt b 0 2, shadowOnly := bitAt f 2, nbt := if bitAt f 0 then some (leAt b 8 8) else none,
     nlt := if bitAt f 1 then some (leAt b 16 8) else none, p0 := leAt b 24 8, p1 := leAt b 32 8, p2 := leAt b 40 8,
     p3 := leAt b 48 8, p4 := leAt b 56 8, image := sub_ b 64 64 }⟩

/-- The bytes of a record (08 Table 08-4). -/
def TackRec.bytes (r : TackRec) : Bytes :=
  be 8 r.rseq ++ be 8 r.tno ++ be 1 r.kind ++ [0x10] ++ be 2 r.entries.length ++ be 4 r.cmds.length ++ be 8 r.srcSer
    ++ (r.entries.map (fun e => be 1 e.port ++ be 1 e.op ++ zeros 6 ++ be 8 e.value)).flatten ++ (r.cmds.map descBytes).flatten

/-- The length of the record that begins with these 32 bytes. -/
def recLength (b : Bytes) : Nat := 32 + 16 * beAt b 18 2 + 128 * beAt b 20 4

/-- A whole record read back; a foreign format or a wrong filler byte gives KIND 2, which R217 refuses as malformed. -/
def recOf (b : Bytes) : TackRec :=
  let n := beAt b 18 2
  let m := beAt b 20 4
  let ents := (List.range n).map (fun i => sub_ b (32 + 16 * i) 16)
  let bad := byteAt b 17 / 16 != 1 || decide (64 < n) || ents.any (fun e => sub_ e 2 6 != zeros 6)
  ⟨beAt b 0 8, beAt b 8 8, if bad then 2 else byteAt b 16, ents.map (fun e => ⟨byteAt e 0, byteAt e 1, beAt e 8 8⟩),
   (List.range m).map (fun i => gateEntOf (sub_ b (32 + 16 * n + 128 * i) 128)), beAt b 24 8⟩

/-- The lead sends a record to the shadow, in frames of at most 2,016 payload bytes (08 R218, 09 R263). -/
def sendRec (r : TackRec) (d : Dev) : Dev :=
  if d.mod.mode ≠ .lead || d.twn.pair ≠ 1 then d
  else each (pieces 2016 r.bytes) (fun b d =>
    let d := { d with twn := { d.twn with eseq := (d.twn.eseq + 1) % 2 ^ 32 } }
    pathSend (twinPath d) 4 d.twn.eseq b d) d

/-- A TACKREC frame that has been taken before: it is repeated on a change of path (09 R265). -/
def oldPiece (eseq : Nat) (d : Dev) : Bool :=
  match d.twn.recEseq with
  | some q => decide (eseq = q) || decide (2 ^ 31 < (eseq + 2 ^ 32 - q) % 2 ^ 32)
  | none => false

/-- Bytes of a TACKREC frame arrive: every whole record whose RSEQ is above the last one held waits to be applied (09 R265). -/
def takeRec (eseq : Nat) (b : Bytes) (d : Dev) : Dev :=
  if oldPiece eseq d then d
  else
  let d := { d with twn := { d.twn with recEseq := some eseq } }
  let buf := d.twn.recBuf ++ b
  if buf.length < 32 || buf.length < recLength buf then { d with twn := { d.twn with recBuf := buf } }
  else
    let r := recOf buf
    let d := { d with twn := { d.twn with recBuf := [] } }
    let last := d.tck.recq.foldl (fun a x => Nat.max a x.rseq) d.tck.rseq
    if d.mod.mode ≠ .shadow || (!(d.twn.rseqFree && d.tck.recq.isEmpty) && decide (r.rseq ≤ last)) then d
    else { d with tck := { d.tck with recq := d.tck.recq ++ [r] } }

end Sys2Proof.Machine
end

