-- ==== Sys2Proof/Machine/Twin.lean ====
section
/-! DEFINITION. Twin pairs, resynchronisation, primacy, heartbeats, and how a node sends on its Holpen ports (chapter 09). -/

namespace Sys2Proof.Machine

/-- The device is a twin of a formed compared pair. -/
def paired (d : Dev) : Bool := isTwin d && d.twn.pair == 1

/-! ### Forming a pair (09 R236, R261) -/

/-- No pair forms: event 0x0907 and its reason. -/
def pairRefused (why : Nat) (d : Dev) : Dev := event 0x0907 2 (be 1 why) d

/-- The partner is told of the ports whose slice is down (15 R420). -/
def sliceNotices (d : Dev) : Dev :=
  each ((enabledPorts d).filter (portSliceDown d)) (fun p d => twinSend 7 (mismatchMsg p 0 true) d) d

/-- What becomes of a partner's offer over path A (09 R236): 0, a pair forms; 1 to 4, the reason of its refusal; 5, nothing. Role 0 is LEAD, 1 SHADOW,
2 another mode. A differing TCK_DPVER comes first, for it is what heartbeat pairing follows from (R261). A lead in a pair forms it anew with a
shadow that rejoins (R252); an offer from a serial that TWN_PARTNER does not name is none to this device. -/
def pairCheck (serial side dpver role : Nat) (d : Dev) : Nat :=
  if pairMode d ≠ 1 || serial ≠ d.twn.partner || (d.twn.pair = 1 && d.mod.mode ≠ .lead) then 5
  else if dpver ≠ dpVer then 2
  else if side = ownSide d then 1
  else if (d.getHp 6).state = 4 then 3
  else if !((d.mod.mode = .lead && role == 1) || (d.mod.mode = .shadow && role == 0)) then 4
  else if (d.getHp 6).state ≠ 3 then 5
  else 0

/-- The pair forms. A lead that forms it anew goes on sparing the ports whose slice is down until that join (15 R420). -/
def pairMade (dpver : Nat) (d : Dev) : Dev :=
  let lead := d.mod.mode == .lead
  let node := (d.getHp 6).nbr
  let again := d.twn.pair == 1
  let d := twnSet (fun t => { t with pair := 1, primacy := t.primacy || lead, pdpVer := dpver, rseqFree := !lead, joined := false, rejoin := !lead
                                     partnerNode := some node }) { d with tck := { d.tck with recq := if d.tck.stopped then [] else d.tck.recq } }
  each (enabledPorts d) (fun p d => d.updTwn p (fun t =>
    { t with hunt := t.hunt || lead, sliceFault := portSliceDown d p || (again && t.sliceFault), noticed := false, waiting := if lead then [] else t.waiting })) d

/-- A partner's offer takes its effect, but for the notices of a pair that forms. -/
def pairForm (serial side dpver role : Nat) (d : Dev) : Dev :=
  match pairCheck serial side dpver role d with
  | 0 => pairMade dpver d
  | 2 => pairRefused 2 (twnSet (fun t => { t with pdpVer := dpver }) d)
  | 5 => d
  | why => pairRefused why d

/-- PAIR_FORM: the checks, and the notices of a pair that formed. -/
def doPairForm (serial side dpver role : Nat) (d : Dev) : Dev :=
  when_ (pairCheck serial side dpver role d == 0) sliceNotices (pairForm serial side dpver role d)

/-- PAIR_FORM. -/
def execPairForm (peer : Peer) (dpver role : Nat) (s : State) : Host.Outcome State Fault Refusal := done s (doPairForm peer.serial peer.side dpver role)

/-! ### Digests and divergence (09 R245, 15 R420) -/

/-- A partner digest arrives; a hunt keeps the lead's fingerprints (09 R249). -/
def doPartnerDigest (p first count : Nat) (digest : Bytes) (fps : List Nat) (d : Dev) : Dev :=
  let t := d.getTwn p
  if !paired d || t.sliceFault then d
  else
    let new := ((List.range fps.length).map (fun i => (first + i, nth 0 fps i))).filter (fun e => !t.leadFp.any (fun x => x.1 == e.1))
    let d := if d.mod.mode = .shadow then d.updTwn p (fun t => { t with leadFp := (new.reverse ++ t.leadFp).take 4096 }) else d
    if notCompared p d || decide (first < comparedFrom p first d) then d
    else
      let full := decide (t.waiting.length ≥ 1024)
      let d := if full then twnCount 1 d else d
      settleWaiting p (d.updTwn p (fun t => { t with waiting := (if full then t.waiting.drop 1 else t.waiting) ++ [⟨first, count, digest⟩] }))

/-- PARTNER_DIGEST. -/
def execPartnerDigest (p first count : Nat) (digest : Bytes) (fps : List Nat) (s : State) : Host.Outcome State Fault Refusal :=
  done s (doPartnerDigest p first count digest fps)

/-- A MISMATCH notice: divergence without a notice back, or a slice fault of the partner. -/
def doMismatch (p first : Nat) (flt : Bool) (d : Dev) : Dev :=
  if !paired d then d
  else if flt then d.updTwn p (fun t => { t with sliceFault := true, noticed := true, waiting := [] })
  else diverge p first false d

/-- MISMATCH. -/
def execMismatch (p first : Nat) (sliceFault : Bool) (s : State) : Host.Outcome State Fault Refusal := done s (doMismatch p first sliceFault)

/-! ### Resynchronisation (09 R249, R250) -/

/-- 64 consecutive fingerprints of the shadow from index `i` on equal the lead's, `o` later. -/
def fpRun (own lead : List (Nat × Nat)) (o : Int) (i : Nat) : Bool :=
  (List.range 64).all (fun k =>
    match own.find? (fun e => e.1 == i + k), lead.find? (fun e => (e.1 : Int) == (i + k : Int) + o) with
    | some a, some b => a.2 == b.2
    | _, _ => false)

/-- The offsets at which the shadow's history matches the lead's ring. -/
def fpOffsets (own lead : List (Nat × Nat)) : List Int :=
  ((own.map (fun e => lead.map (fun l => (l.1 : Int) - e.1))).flatten.eraseDups).filter (fun o => own.any (fun e => fpRun own lead o e.1))

/-- The shadow reports the one offset of a hunting port; a Slot-mode cipher port's offset is 0 at once. -/
def doOffsetReport (p : Nat) (d : Dev) : Dev :=
  let t := d.getTwn p
  if d.mod.mode ≠ .shadow || !paired d || t.state ≠ 2 then d
  else
    let report := fun (o : Int) => (twinSend 8 (offsetMsg p o) d).updTwn p (fun t => { t with state := 3 })
    if slotPort d.tab p then report 0
    else match fpOffsets (t.hashes.map (fun e => (e.1, e.2 / 2 ^ 32))) t.leadFp with
      | [o] => report o
      | _ => d

/-- RESYNC_OFFSET_REPORT. -/
def execResyncOffsetReport (p : Nat) (s : State) : Host.Outcome State Fault Refusal := done s (doOffsetReport p)

/-- The code under which TWN_RESYNC travels in a record: Table 13-4 gives it none (log entry 16). -/
def codeResync : Nat := 0xFF00

/-- TWN_RESYNC at its tack: the boundary of the port in the shadow's own numbering lies `o` lower. -/
def applyResync (p : Nat) (o : Int) (d : Dev) : Dev :=
  let k := d.tck.tno
  let d := d.updTwn p (fun t => { t with resync := some (o, k), resyncSt := none, state := if d.mod.mode = .shadow then 3 else t.state })
  if d.mod.mode = .shadow then
    d.updTck p (fun t => { t with bounds := t.bounds.map (fun b => if b.1 = k then (b.1, shiftIdx b.2 (-o)) else b) })
  else d

/-- TWN_RESYNC: the lead's TWN queues it for the next record; the shadow applies it. -/
def doTwnResync (p : Nat) (o : Int) (d : Dev) : Dev :=
  if !paired d then d
  else if d.mod.mode = .shadow then settlePort p (applyResync p o d)
  else if d.tck.gate.length ≥ 4096 then d
  else { d with tck := { d.tck with gate := d.tck.gate ++
      [⟨⟨.lead, 0, 0, 0⟩, { code := codeResync, shadowOnly := false, nbt := none, nlt := none, p0 := p, p1 := twos 64 o, p2 := 0, p3 := 0, p4 := 0, image := [] }⟩] } }

/-- TWN_RESYNC. -/
def execTwnResync (p : Nat) (o : Int) (s : State) : Host.Outcome State Fault Refusal := done s (doTwnResync p o)

/-- The lead's resync state of a port arrives at the shadow. -/
def doResyncState (p : Nat) (l : List (Nat × Nat × Nat)) (d : Dev) : Dev :=
  if d.mod.mode ≠ .shadow || (d.getTwn p).resync.isNone then d else settlePort p (d.updTwn p (fun t => { t with resyncSt := some l }))

/-- RESYNC_STATE. -/
def execResyncState (p : Nat) (chans : List (Nat × Nat × Nat)) (s : State) : Host.Outcome State Fault Refusal := done s (doResyncState p chans)

/-- A cause of R250 holds: port `p` hunts (its 10 ms are over when the row comes), more than eight ports diverged, or the shadow has stopped. -/
def giveUpCause (p reason : Nat) (d : Dev) : Bool :=
  match reason with
  | 1 => (d.getTwn p).state == 2
  | 2 => decide (8 < d.twn.diverged.length)
  | _ => d.tck.stopped

/-- RESYNC_GIVEUP: the hunt of a port has found no unique offset in 10 ms, or another cause of R250 holds. -/
def execResyncGiveup (p reason : Nat) (s : State) : Host.Outcome State Fault Refusal :=
  done s (fun d => if paired d && giveUpCause p reason d then giveUp p reason d else d)

/-! ### Joining a running lead (09 R252) -/

/-- A shadow's slot takes the lead's record, keeping its own key material, when DIR and SUITE are equal. A slot that is SPENT on the shadow
does not come back to use (05 R155). -/
def joinSlotOk (own lead : SaStat) : Bool :=
  lead.state != .free && (if lead.state = .window then own.state == .free || own.state == .window
    else own.state != .free && own.state != .window && own.dir == lead.dir && own.suite == lead.suite
      && (own.state != .spent || lead.state == .spent))

/-- The installed record. -/
def joinSlot (own lead : SaStat) : SaStat :=
  if lead.state = .window then lead
  else { lead with key := own.key, salt := own.salt, ssci := own.ssci, pinned := own.pinned, coldIdx := own.coldIdx }

/-- The live state that comes with it; NEXTPN is the greater of the two (05 R154). -/
def joinLive (own lead : SaLive) : SaLive :=
  { own with nextPn := Nat.max own.nextPn lead.nextPn, softPn := lead.softPn, hardPn := lead.hardPn, softHit := lead.softHit, limHit := lead.limHit, keep := lead.keep }

/-- The slots of both twins. -/
def joinSlots (t : Tables) (d : Dev) : List Nat := ((t.sa.map (fun e => e.1)) ++ (d.tab.sa.map (fun e => e.1))).eraseDups

/-- A port takes the lead's enable and tack state: its frames are renumbered by the lead's count, and its boundaries and horizons are the
lead's. A port that the join enables begins as at any enable (08 R225; 04 R123). -/
def joinPort (t : Tables) (tck : Tab TckPort) (p : Nat) (d : Dev) : Dev :=
  let l := Tab.get {} tck p
  match (t.getPrt p).enabled, portEnabled d p with
  | false, true => finishDisable p d
  | false, false => d
  | true, on =>
    let d := if on then d else enablePort p d
    (renumber p ((l.nextIdx : Int) - (d.getTck p).nextIdx) d).updTck p (fun x => { x with
      pstate := l.pstate, horizon := l.horizon, hmax := l.hmax, freezeAt := l.freezeAt, bounds := l.bounds, deferred := l.deferred
      effTno := l.effTno, disableTack := l.disableTack, ownReport := none, peerReport := none, freezeRseq := l.freezeRseq })

/-- The joining shadow takes the lead's tables and live states. -/
def joinTables (t : Tables) (sa : Tab SaStat) (lv : Tab SaLive) (ch : Tab ChanLive) (win : Tab Win) (d : Dev) : Dev :=
  { d.updSas (fun x => { x with live := lv, chan := ch.map (fun (e : Nat × ChanLive) => (e.1, { e.2 with seamSub := none })), win := win }) with
    tab := { t with sa := sa, side := d.tab.side }, views := [] }

/-- Slot mode ends, before the lead's tables come, on a port where the lead's EN is 0, and starts after them where only the lead's is 1 (03 R107,
04 Table 04-1). -/
def joinStops (t : Tables) (d : Dev) : Dev :=
  each (List.range 32) (fun p d => if sltEn (d.tab.getSlt p) && !sltEn (t.getSlt p) then stopSlot p d else d) d
def joinStarts (old : Tables) (d : Dev) : Dev :=
  each (List.range 32) (fun p d =>
    if sltEn (old.getSlt p) || !sltEn (d.tab.getSlt p) then d
    else
      let sh := slotShare d.tab p
      startSlot p sh.1 sh.2 ((changeHold p sh.1 sh.2 true d).getD d)) d

/-- The active TSI pages of a Slot-mode port are the lead's. -/
def joinActs (acts : Tab (Bool × Bool)) (d : Dev) : Dev :=
  each acts (fun e d => d.updSlt e.1 (fun s => { s with tx := { s.tx with act := e.2.1 }, rx := { s.rx with act := e.2.2 } })) d

/-- From a join on, the ports are compared but for those whose slice is down now, here or by the partner's notice (15 R420). -/
def spareSlices (d : Dev) : Dev :=
  each (enabledPorts d) (fun p d => d.updTwn p (fun x => { x with sliceFault := portSliceDown d p || x.noticed })) d

/-- The shadow has joined; a stopped tack sequence restarts, with nothing queued that came before its pair formed. -/
def joinDone (d : Dev) : Dev :=
  { d with twn := { d.twn with joined := true, rejoin := false }
           tck := { d.tck with stopped := false, recq := if d.tck.stopped && !d.twn.rejoin then [] else d.tck.recq } }

/-- The lead's state stream is installed; channels that use a slot of another DIR or SUITE stay fenced. Every port is then resynchronised, but for one
whose slice is down on a twin: no digest of it comes, and it carries its traffic unfenced (15 R420; DESIGN CHOICE, log entry 74). -/
def joinState (t : Tables) (live : Tab SaLive) (ch : Tab ChanLive) (win : Tab Win) (tck : Tab TckPort) (acts : Tab (Bool × Bool)) (d : Dev) : Dev :=
  let slots := joinSlots t d
  let ok := fun i => joinSlotOk (d.tab.getSa i) (t.getSa i)
  let bad := (t.sa.filter (fun e => e.2.att && !ok e.1)).map (fun e => e.2.chid)
  let sa := slots.foldl (fun (m : Tab SaStat) i => if ok i then Tab.set {} m i (joinSlot (d.tab.getSa i) (t.getSa i)) else m) d.tab.sa
  let lv := slots.foldl (fun (m : Tab SaLive) i => if ok i then Tab.upd {} m i (fun o => joinLive o (Tab.get {} live i)) else m) d.sas.live
  let d := updateCsfAll (each (List.range 64) updateLos (each bad fenceChan (joinDone (joinActs acts (joinStarts d.tab (joinTables t sa lv ch win (joinStops t (each (List.range 64) (joinPort t tck) d))))))))
  each (enabledPorts d) (fun p d => d.updTwn p (fun x => { x with state := if x.sliceFault then 0 else 2 })) (spareSlices d)

/-- What the lead streams of an SA slot: its record without KEY, HKEY, SALT and SSCI. -/
def bareSa (s : SaStat) : SaStat := { s with key := [], salt := 0, ssci := 0 }

/-- What the lead streams (09 Table 09-4, order 4). -/
def joinOffer (d : Dev) : JoinState :=
  { tables := { d.tab with sa := d.tab.sa.map (fun e => (e.1, bareSa e.2)) }, sas := ⟨d.sas.live, d.sas.chan, d.sas.win⟩, tck := d.tck.port
    acts := d.slt.port.map (fun e => (e.1, (e.2.tx.act, e.2.rx.act))) }

/-- The lead's stream goes out in RESYNC frames, kinds 4 and 5; its layout is a free value (09 Table 09-8; log entry 16). -/
def sendJoin (d : Dev) : Dev := each (resyncParts 4 5 [] (Config.joinBytes (joinOffer d))) (twinSend 8) d

/-- JOIN_STATE_STREAM: the lead sends its state at the tack it has chosen; the shadow that has not joined installs it (09 R252). -/
def doJoin (t : Tables) (sas : JoinSas) (tck : Tab TckPort) (acts : Tab (Bool × Bool)) (d : Dev) : Dev :=
  if !paired d then d
  else if d.mod.mode = .lead then sendJoin (spareSlices d)
  else if d.mod.mode ≠ .shadow || d.twn.joined then d
  else joinState t sas.live sas.chan sas.win tck acts d

/-- JOIN_STATE_STREAM. -/
def execJoinStateStream (t : Tables) (sas : JoinSas) (tck : Tab TckPort) (acts : Tab (Bool × Bool)) (s : State) : Host.Outcome State Fault Refusal :=
  done s (doJoin t sas tck acts)

/-! ### Primacy (09 R254 to R257) -/

/-- HEARTBEAT_SEND: a heartbeat on each path every 50 microseconds. -/
def doHeartbeatSend (d : Dev) : Dev :=
  if !isTwin d || !(d.twn.pair = 1 || d.twn.pair = 3) then d
  else
    let d := { d with twn := { d.twn with hbSeq := d.twn.hbSeq + 1 } }
    sendHeartbeat 1 false (sendHeartbeat 0 false d)

/-- HEARTBEAT_SEND. -/
def execHeartbeatSend (s : State) : Host.Outcome State Fault Refusal := done s doHeartbeatSend

/-- The lead's primacy ends without partner-gone evidence (09 R257). -/
def splitLead (d : Dev) : Dev :=
  event 0x0905 3 (be 8 d.twn.partner) (twnSet (fun t => { t with primacy := false, split := true }) (fenceAll d))

/-- No lane of Holpen port `j` carries signal and lock. -/
def hpDark (j : Nat) (d : Dev) : Bool := [64 + 2 * j, 65 + 2 * j].all (fun l => (d.getLane l).los || (d.getLane l).lol)

/-- Partner-gone evidence (09 R255): a DEPART, every lane of both paths dark, or the partner reported lost by the torus. Path B over the
torus has the lanes of every torus port. -/
def partnerGone (d : Dev) : Bool :=
  d.twn.evDepart || d.twn.evNbr
    || (hpDark 6 d && (if fld d.twn.hpCfg 1 0 = 3 then hpDark 7 d else d.twn.partnerNode.isNone || (List.range 6).all (fun j => hpDark j d)))

/-- Contact has returned: the device without primacy rejoins as shadow (09 R257, R252). REASON 9 is the model's choice (log entry 59). -/
def rejoin (d : Dev) : Dev :=
  let d := enterMode .shadow 9 (fenceAll d)
  offerPair (twnSet (fun t => { t with pair := 0, split := false, tookOver := false, rseqFree := true, joined := false, joinBuf := [], recBuf := [], recEseq := none })
    { d with tck := { d.tck with recq := [] } })

/-- A heartbeat of the partner arrives on a path (09 R254 to R257): `role` 0 lead, 1 shadow, 2 taken over. A lead that split is in contact again by
it, whatever role it names: a partner that is still shadow then takes over, for it hears no lead (R256). Times of silence and of the lease
end in the rows HEARTBEATS_LOST_ON_ONE_PATH, TAKEOVER and LEAD_LEASE_LAPSE, so that `ack` has no other use here. -/
def doHeartbeat (path serial role seq : Nat) (depart : Bool) (d : Dev) : Dev :=
  if !isTwin d || serial ≠ d.twn.partner then d
  else
    let d := twnSet (fun t => { t with
      pathA := t.pathA || path == 0, pathB := t.pathB || path == 1, hbRx := seq, contact := !depart
      evDepart := depart, evNbr := t.evNbr && depart }) d
    if d.mod.mode = .lead && d.twn.primacy && role == 2 then splitLead d
    else if d.mod.mode = .lead && !d.twn.primacy && d.twn.split && !depart then rejoin d
    else d

/-- HEARTBEAT. -/
def execHeartbeat (path serial _side _dpver role seq _ack : Nat) (depart : Bool) (s : State) : Host.Outcome State Fault Refusal :=
  done s (doHeartbeat path serial role seq depart)

/-- HEARTBEATS_LOST_ON_ONE_PATH. -/
def execHeartbeatsLostOnOnePath (path : Nat) (s : State) : Host.Outcome State Fault Refusal :=
  done s (fun d =>
    if !isTwin d || !(if path = 0 then d.twn.pathA else d.twn.pathB) then d
    else event 0x0906 2 (be 1 path) (twnSet (fun t => if path = 0 then { t with pathA := false } else { t with pathB := false }) d))

/-- A beat's raise of every ACTIVE port (08 R219 form_beat). -/
def raiseAll (d : Dev) : Dev :=
  each (enabledPorts d) (fun p d => if (d.getTck p).pstate = .active then raiseHorizon p ((d.getTck p).admitted + margin d.tab p) d else d) d

/-- The shadow coasts (09 R256). -/
def doCoast (d : Dev) : Dev :=
  if d.mod.mode ≠ .shadow || !paired d || d.tck.stopped then d else raiseAll (twnSet (fun t => { t with coast := true }) d)

/-- SHADOW_COAST. -/
def execShadowCoast (s : State) : Host.Outcome State Fault Refusal := done s doCoast

/-- The shadow takes over as lead, within 50 microseconds of partner-gone evidence or after 1.0 ms of silence (09 R256). -/
def doTakeover (evidence : Bool) (d : Dev) : Dev :=
  if d.mod.mode ≠ .shadow || !paired d || (evidence && !partnerGone d) then d
  else
    let d := enterMode .lead 9 d
    let d := twnSet (fun t => { t with
      tookOver := true, primacy := true, coast := false, contact := false, pair := if evidence then 3 else t.pair
      recBuf := [], recEseq := none }) d
    let d := { d with tck := { d.tck with recq := [] } }
    doHeartbeatSend (event 0x0904 3 (be 1 (if evidence then 2 else 1)) (twnCount 4 d))

/-- TAKEOVER. -/
def execTakeover (evidence : Bool) (s : State) : Host.Outcome State Fault Refusal := done s (doTakeover evidence)

/-- The lease lapses: alone with evidence, otherwise split (09 R257); a device that took over keeps primacy until contact returns (R256). The
row names one of the two lapses; it takes place only where the device's evidence is as it says. -/
def doLeaseLapse (evidence : Bool) (d : Dev) : Dev :=
  if d.mod.mode ≠ .lead || !paired d || !d.twn.primacy || (d.twn.tookOver && !d.twn.contact) || evidence != partnerGone d then d
  else if evidence then twnSet (fun t => { t with pair := 3 }) d else splitLead d

/-- LEAD_LEASE_LAPSE. -/
def execLeadLeaseLapse (evidence : Bool) (s : State) : Host.Outcome State Fault Refusal := done s (doLeaseLapse evidence)

/-! ### Pairing by heartbeats (09 R259 to R261) -/

/-- The device runs heartbeat pairing. -/
def hbOn (d : Dev) : Bool := d.mod.mode == .solo && pairMode d == 2

/-- Ports of a face are in service: every enabled one has a signal and carries traffic. -/
def faceInService (cipher : Bool) (d : Dev) : Bool :=
  (enabledPorts d).all (fun p => isCipher p != cipher || (!(d.getPort p).los && !portDead d p))

/-- ROLE of a heartbeat frame: 1 active, 2 standby, 3 taking over (09 Table 09-6). -/
def hbFrRole (d : Dev) : Nat := if d.twn.hbTaking then 3 else if d.twn.hbActive then 1 else 2

/-- The 46-byte payload of a heartbeat frame (09 Table 09-6). -/
def hbPayload (role : Nat) (d : Dev) : Bytes :=
  be 2 0x4842 ++ be 1 2 ++ be 1 role ++ be 1 (fld d.twn.hbCfg 23 16)
    ++ be 1 ((faceInService false d).toNat + 2 * (faceInService true d).toNat) ++ be 4 (d.twn.hbFrSeq % 2 ^ 32)
    ++ be 4 (d.twn.hbFrRx % 2 ^ 32) ++ be 8 d.mod.fuses.serial ++ zeros 24

/-- The heartbeat ports that TWN_HBCFG enables. -/
def hbPorts (d : Dev) : List Nat :=
  (if bitAt d.twn.hbCfg 6 then [fld d.twn.hbCfg 5 0] else []) ++ (if bitAt d.twn.hbCfg 14 then [fld d.twn.hbCfg 13 8] else [])

/-- A heartbeat frame for each heartbeat port, by way of a frame-injection queue; its source address is a free value (09 R259). -/
def hbFrames (role : Nat) (d : Dev) : Dev :=
  let d := { d with twn := { d.twn with hbFrSeq := d.twn.hbFrSeq + 1 } }
  let r := freeBytes 6 d
  each (hbPorts d) (fun p => osfSend p (be 6 0x035A0C000001 ++ r.1 ++ be 2 0x88B6 ++ hbPayload role d)) r.2

/-- OSF's heartbeat every 0.5 ms; the first one of a device that takes over says so. -/
def doHbSend (d : Dev) : Dev :=
  if !hbOn d then d else twnSet (fun t => { t with hbTaking := false }) (hbFrames (hbFrRole d) d)

/-- HB_FRAME_SEND. -/
def execHbFrameSend (s : State) : Host.Outcome State Fault Refusal := done s doHbSend

/-- The device becomes the active one and transmits, or stands by fenced. -/
def hbRoleSet (active : Bool) (d : Dev) : Dev :=
  let d := { d with twn := { d.twn with hbActive := active, hbTaking := false } }
  if active then unfenceAll d else fenceAll d

/-- The standby takes over (09 R260). -/
def hbTakeover (d : Dev) : Dev := twnSet (fun t => { t with hbTaking := true }) (hbRoleSet true d)

/-- A heartbeat frame's payload arrives: the first one elects, ROLE 4 hands over to the standby. -/
def doHbFrame (b : Bytes) (d : Dev) : Dev :=
  let prio := byteAt b 4
  let own := fld d.twn.hbCfg 23 16
  let serial := beAt b 14 8
  if !hbOn d || b.length < 46 || beAt b 0 2 ≠ 0x4842 || byteAt b 2 ≠ 2 then d
  else
    let first := !d.twn.hbFirst
    let d := { d with twn := { d.twn with hbFrRx := beAt b 6 4 } }
    let d := if first then
        hbRoleSet (decide (own > prio) || (own == prio && decide (d.mod.fuses.serial < serial)))
          (twnSet (fun t => { t with pair := 2, hbFirst := true }) d)
      else d
    if byteAt b 3 = 4 && !d.twn.hbActive then hbTakeover d else d

/-- HB_FRAME. -/
def execHbFrame (payload : Bytes) (s : State) : Host.Outcome State Fault Refusal := done s (doHbFrame payload)

/-- STANDBY_TAKEOVER: 2.0 ms without a heartbeat on either port. -/
def execStandbyTakeover (s : State) : Host.Outcome State Fault Refusal :=
  done s (fun d => if hbOn d && d.twn.hbFirst && !d.twn.hbActive then hbTakeover d else d)

/-- ACTIVE_ACK_TIMEOUT: 2.4 ms without an ACKSEQ; no fence while both heartbeat ports report loss of signal. -/
def execActiveAckTimeout (s : State) : Host.Outcome State Fault Refusal :=
  done s (fun d =>
    let los := (d.getPort (fld d.twn.hbCfg 5 0)).los && (d.getPort (fld d.twn.hbCfg 13 8)).los
    if hbOn d && d.twn.hbFirst && d.twn.hbActive && !los then hbRoleSet false d else d)

/-- FENCED_SOLO_TIMEOUT: a device that entered SOLO fenced hears nothing for 10 ms. -/
def execFencedSoloTimeout (s : State) : Host.Outcome State Fault Refusal :=
  done s (fun d => if hbOn d && !d.twn.hbFirst && !d.twn.hbActive then hbTakeover d else d)

/-! ### Link keys (09 R266) -/

/-- Link key and salt of the end with the lower serial (CTR 0) or of the other (CTR 1). -/
def linkKeyOf (ck : Bytes) (ctr : Nat) : Bytes := derive0 0 (ascii "OVHLP1-LINK") ck ctr [] 32
def linkSaltOf (ck : Bytes) (ctr : Nat) : Bytes := derive0 1 (ascii "OVHLP1-LSALT") ck ctr [] 12

/-- The link keys of a port, with new frame counters. -/
def linkKeys (j : Nat) (ck : Bytes) (d : Dev) : Dev :=
  d.updHp j (fun h =>
    let own := if h.lowSerial then 0 else 1
    { h with txKey := linkKeyOf ck own, txSalt := linkSaltOf ck own, rxKey := linkKeyOf ck (1 - own), rxSalt := linkSaltOf ck (1 - own), txCtr := 0, rxCtr := 0 })

/-- The link's PKX session is established: the port takes its keys, and comes up when it was not (09 R266); on path A a pair is then offered
(R236). -/
def linkUp (j : Nat) (ck : Bytes) (d : Dev) : Dev :=
  match (d.getHp j).state with
  | 3 => linkKeys j ck d
  | 2 =>
    let d := (linkKeys j ck d).updHp j (fun h => { h with state := 3, lseq := 0, lack := 255, fails := 0, txq := h.txq.filter (fun f => f.type == 1), sent := [] })
    if j = 6 then offerPair d else d
  | _ => d

/-! ### Mesh-wide zeroise (09 R271) -/

/-- A ZEROISE with a valid tag arrives on port `j`: onward copies, event 0x0909 unless the device is ZEROISED, then the zeroise sequence (09 R271,
14 R409, R410). -/
def zeroiseIn (j origin hops eseq : Nat) (payload : Bytes) (d : Dev) : Dev :=
  let d := if hops ≤ 1 then twnCount 5 d else meshFlood 2 0 origin (hops - 1) eseq payload (some j) d
  zeroiseNow 8 4 2 (when_ (d.mod.mode != .zeroised) (event 0x0909 3 (be 2 origin ++ be 1 (25 - hops))) d)

/-- ZEROISE: the command names no ESEQ, which is then a free value. -/
def execZeroise (j origin reason hops : Nat) (s : State) : Host.Outcome State Fault Refusal :=
  done s (fun d =>
    let r := freeNat d
    zeroiseIn j origin hops (r.1 % 2 ^ 32) (be 2 origin ++ be 1 reason) r.2)

/-! ### Holpen links (09 R263 to R268) -/

/-- The request that the frames after the last one received in order be sent again: an empty frame of TYPE 0, whose LACK says which one that is
(09 R265; log entry 58). -/
def hpRequest (j : Nat) (d : Dev) : Dev := hpTransmit j (d.getHp j).lseq ⟨0, 0, (d.getHp j).nbr, nodeAddr d, 24, 0, []⟩ d

/-- A message for a core's mailbox comes over the mesh; one that finds no room or no core is counted (10 R297). -/
def meshMessage (p : Bytes) (d : Dev) : Dev :=
  let c := fld (leAt p 0 8) 9 4
  if p.length ≠ 64 then d
  else
    let r := if coreAlive (d.getCore c) then mailboxPut c (messageOf p) d else (false, d)
    if r.1 then r.2 else r.2.updCore c (fun k => { k with mbxDrop := sat64 (k.mbxDrop + 1) })

/-- Too many failures take the port down, and a recurrence retires it (09 R265, 15 R413). -/
def hpLose (j : Nat) (d : Dev) : Dev :=
  let again := recurs 6 j 3600 d
  let d := event 0x0908 2 (be 1 j ++ be 1 2) (markFault 6 j (hpDown j d))
  if again then retireUnit 6 j 0 (d.updHp j (fun h => { h with state := 5 })) else d

/-- A frame fails its tag, its FEC or its sequence: it is asked for again, and the fourth failure takes the port down (09 R265). A ZEROISE or
HEARTBEAT is never asked for again. -/
def holpenFail (j : Nat) (lossless : Bool) (d : Dev) : Dev :=
  if !lossless then d
  else
    let d := d.updHp j (fun h => { h with fails := h.fails + 1 })
    if (d.getHp j).fails < 4 then hpRequest j d else hpLose j d

/-- LACK acknowledges every frame of the resend buffer up to its LSEQ (09 R265). -/
def hpAck (j lack : Nat) (d : Dev) : Dev :=
  d.updHp j (fun h => { h with sent := h.sent.filter (fun x => decide (128 ≤ (lack + 256 - x.1) % 256)) })

/-- A request to resend: every frame after LACK goes again, in order, and is counted; a frame asked for a fourth time takes the port down
(09 R265). They go before what waits: a waiting frame gets its LSEQ when it is first sent, and one sent between them would stand out of sequence. -/
def hpResend (j : Nat) (d : Dev) : Dev :=
  let l := (d.getHp j).sent
  if l.any (fun x => decide (3 ≤ x.2.1)) then hpLose j d
  else
    let d := d.updHp j (fun h => { h with retry := sat64 (h.retry + l.length), sent := h.sent.map (fun x => (x.1, x.2.1 + 1, x.2.2)) })
    each l (fun x => hpTransmit j x.1 x.2.2) d

/-- The address of the neighbour in a torus port's direction (09 R262, R267). -/
def torusNeighbour (j : Nat) (d : Dev) : Nat :=
  let k := j / 2
  let n := fld d.twn.nodeAddr (18 + 3 * k) (16 + 3 * k) + 1
  let x := fld (nodeAddr d) (8 - 3 * k) (6 - 3 * k)
  setFld (nodeAddr d) (6 - 3 * k) 3 ((if j % 2 = 0 then x + 1 else x + n - 1) % n)

/-- The torus port that Holpen port `j` serves: itself, or SPAREFOR of a spare HP7. -/
def servesTorus (j : Nat) (d : Dev) : Option Nat :=
  if j < 6 then some j else if j = 7 && fld d.twn.hpCfg 1 0 == 1 then some (fld d.twn.hpCfg 4 2) else none

/-- HOLPEN_PORT_RESTART: the bring-up starts again 10 ms after a fall (15 R413). -/
def execHolpenPortRestart (j : Nat) (s : State) : Host.Outcome State Fault Refusal :=
  done s (fun d => if (d.getHp j).state = 0 then hpFollow j d else d)

/-- TWN_BLOCK_FAULT: every Holpen lane is squelched, and a device fault (09 R254, 15 R421). -/
def execTwnBlockFault (s : State) : Host.Outcome State Fault Refusal :=
  done s (fun d =>
    let d := each (List.range 16) (fun i d => d.updLane (64 + i) (fun l => { l with squelch := true })) d
    deviceFault 6 (each (List.range 8) hpDown d))

/-- The address is not the adjacent one in the direction of the torus port that `j` serves (09 R267). -/
def wrongNeighbour (j nbr : Nat) (d : Dev) : Bool := match servesTorus j d with | some t => nodeLocked d && nbr != torusNeighbour t d | none => false

/-- A wrong neighbour takes the port down (09 R267). -/
def refuseNeighbour (j : Nat) (d : Dev) : Dev := event 0x0908 2 (be 1 j ++ be 1 3) (hpDown j d)

/-- A write of TWN_NODEADDR: the fields change only while LOCK is 0, and LOCK is set by writing 1, from when on the
torus ports send; a neighbour that has already said LINKHELLO with another address than LOCK now gives it takes its port down (09 R267,
Table 09-14). -/
def nodeAddrWrite (v : Nat) (d : Dev) : Dev :=
  let v := v % 2 ^ 32
  if nodeLocked d then d
  else
    let d := { d with twn := { d.twn with nodeAddr := fld v 8 0 + at_ (fld v 24 16) 16 + (if bitAt v 31 then 2 ^ 31 else 0) } }
    if bitAt v 31 then each (List.range 8) (fun j d => when_ (decide (2 ≤ (d.getHp j).state ∧ (d.getHp j).state ≤ 3) && wrongNeighbour j (d.getHp j).nbr d)
      (refuseNeighbour j) d) (relabelTorus d) else d

/-- TWN_NODEADDR_LOCK. -/
def execTwnNodeaddrLock (v : Nat) (s : State) : Host.Outcome State Fault Refusal := doneReg s (nodeAddrWrite v)

end Sys2Proof.Machine
end

