-- ==== Sys2Proof/Machine/Modes.lean ====
section
/-! DEFINITION. Mode requests, SWAP, the life cycle, zeroise, BIST, anti-rollback, measurements and attestation: the MOD block (chapter 14). -/

namespace Sys2Proof.Machine

/-! ### Writes of the MOD block -/

/-- Any write of the MOD block disarms the writer's MOD_LCREQ, but for the key value (14 R384). -/
def disarm (r : Nat) (d : Dev) : Dev := { d with mod := { d.mod with lcArmed := d.mod.lcArmed.filter (fun x => x != r) } }

/-- A write by `r` of a register of the MOD block. -/
def modWrite (r : Nat) (f : Dev → Dev) (d : Dev) : Dev := f (disarm r d)

/-- A write of the register at BAR0 offset `off` that a core at task level may not make: there it raises BUSSTORE (14 R388, 16 R446). -/
def modWriteSup (r off : Nat) (f : Dev → Dev) (d : Dev) : Dev := if taskReq r d then taskStore r off d else modWrite r f d

/-! ### Requested modes (14 R388 to R390) -/

/-- The mode of a code (14 Table 14-1). -/
def modeOf (code : Nat) : Option Mode :=
  nth none [some .reset, some .kiln, some .factory, some .enrol, some .solo, some .lead, some .shadow, some .service, some .swap,
    some .fallow, some .zeroised, some .returned] code

/-- The targets that may be requested from a mode (14 Table 14-3). -/
def targetsOf : Mode → List Mode
  | .factory => [.enrol, .fallow]
  | .enrol => [.solo, .service, .factory, .fallow]
  | .solo => [.lead, .shadow, .service, .swap, .enrol, .fallow]
  | .lead => [.solo, .service, .fallow]
  | .shadow => [.solo, .service, .fallow]
  | .service => [.solo, .lead, .shadow, .swap, .enrol, .fallow]
  | .returned => [.fallow]
  | _ => []

/-- The life-cycle states of a mode (14 Table 14-1). -/
def modeLife (m : Mode) (l : Life) : Bool :=
  match m with
  | .reset => true | .kiln => true
  | .factory => l == .virgin
  | .enrol => l == .virgin || l == .enrolled
  | .fallow => l != .scrapped | .zeroised => l != .scrapped
  | .returned => l == .returned
  | _ => l == .enrolled || l == .sealed

/-- A transmit SA of SUITE 2 or 3 is ACTIVE (14 R390, 02 R38). -/
def weakTx (d : Dev) : Bool := d.tab.sa.any (fun e => e.2.state == .active && e.2.dir == 0 && (e.2.suite == 2 || e.2.suite == 3))

/-- The code of a refusal; 0 accepts (14 Table 14-7). A life-cycle change that runs counts as a change. -/
def modRefCode (t : Mode) (d : Dev) : Nat :=
  if d.mod.change.isSome || lcFallow d then 3
  else if !(targetsOf d.mod.mode).contains t then 1
  else if !modeLife t d.mod.fuses.life then 2
  else if (t = .lead || t = .shadow) && pairMode d != 1 then 5
  else if (t = .lead || t = .shadow) && weakTx d then 4 else 0

/-- A request is refused (14 R388). -/
def modRefuse (t code r : Nat) (d : Dev) : Dev :=
  event 0x0E06 1 (be 1 t ++ be 1 code ++ be 1 r) { d with mod := { d.mod with refused := true, refCode := code } }

/-- The pair ends for a device that leaves LEAD or SHADOW, and begins unformed for one that enters. -/
def pairReset (d : Dev) : Dev :=
  let d := twnSet (fun t => { t with
    pair := 0, tookOver := false, split := false, joined := false, rejoin := false, rseqFree := false, recBuf := [], recEseq := none
    evDepart := false, evNbr := false, contact := false, partnerNode := none, diverged := [] }) d
  { d with tck := { d.tck with recq := [], stopped := false } }

/-- An accepted change is carried out (14 R390); a device of a heartbeat pair announces that it departs (09 Table 09-6), and one that enters LEAD or
SHADOW offers a compared pair (09 R236). -/
def modEnter (t : Mode) (d : Dev) : Dev :=
  let from_ := d.mod.mode
  let d := if hbOn d then hbFrames 4 d else d
  let d := if t = .service || t = .fallow then enterFallow t 0 d else enterMode t 0 d
  let d := if from_ = .lead || from_ = .shadow || t = .lead || t = .shadow then pairReset d else d
  match t with
  | .solo => onSolo (if from_ = .shadow && pairMode d != 2 then unfenceAll d else d)
  | .lead => offerPair (twnSet (fun x => { x with primacy := true }) d)
  | .shadow => offerPair (fenceAll (twnSet (fun x => { x with primacy := false }) d))
  | .enrol => onEnrol d
  | _ => d

/-- A SWAP request is accepted: the device stays in its mode while it verifies the named images (14 R401). -/
def swapStart (rt mc r : Nat) (d : Dev) : Dev :=
  { d with mod := { d.mod with change := some (.swap, d.mod.mode), changeReq := r, swapRt := rt, swapMc := mc, swapOrigin := d.mod.mode,
                               swapNewRt := none, swapNewMc := none } }

/-- A write of MOD_REQ by `r`. -/
def modReq (code rt mc r : Nat) (d : Dev) : Dev :=
  match modeOf code with
  | none => modRefuse code (if d.mod.change.isSome || lcFallow d then 3 else 1) r d
  | some t =>
    let c := modRefCode t d
    if c ≠ 0 then modRefuse code c r d
    else if t = .swap then swapStart rt mc r d else modEnter t d

/-- The register's fields. -/
def modReqWrite (r v : Nat) (d : Dev) : Dev := modWriteSup r 0x10004 (modReq (fld v 3 0) (fld v 5 4) (fld v 7 6) r) d

/-- MOD_REQ_FACTORY. -/
def execModReqFactory (r : Nat) (s : State) : Host.Outcome State Fault Refusal := done s (modReqWrite r 2)
/-- MOD_REQ_ENROL. -/
def execModReqEnrol (r : Nat) (s : State) : Host.Outcome State Fault Refusal := done s (modReqWrite r 3)
/-- MOD_REQ_SOLO. -/
def execModReqSolo (r : Nat) (s : State) : Host.Outcome State Fault Refusal := done s (modReqWrite r 4)
/-- MOD_REQ_LEAD. -/
def execModReqLead (r : Nat) (s : State) : Host.Outcome State Fault Refusal := done s (modReqWrite r 5)
/-- MOD_REQ_SHADOW. -/
def execModReqShadow (r : Nat) (s : State) : Host.Outcome State Fault Refusal := done s (modReqWrite r 6)
/-- MOD_REQ_SERVICE. -/
def execModReqService (r : Nat) (s : State) : Host.Outcome State Fault Refusal := done s (modReqWrite r 7)
/-- MOD_REQ_FALLOW. -/
def execModReqFallow (r : Nat) (s : State) : Host.Outcome State Fault Refusal := done s (modReqWrite r 9)
/-- MOD_REQ_SWAP. -/
def execModReqSwap (r rt mc : Nat) (s : State) : Host.Outcome State Fault Refusal :=
  done s (modReqWrite r (8 + 16 * (rt % 4) + 64 * (mc % 4)))

/-! ### Firmware activation (14 R401 to R403) -/

/-- The image that a SWAP takes for a type: the running one, or the named slot's when it verifies. -/
def swapImage (type sel : Nat) (cur : Option Image) (d : Dev) : Option Image × Dev :=
  if sel = 0 then (cur, d)
  else if sel = 3 then (none, d)
  else match checkImage d type (sel - 1) with
    | .good i _ => (some i, d)
    | .bad c => (none, imageRefused type (sel - 1) c d)

/-- SWAP halts a core and clears its SRAM, mailbox and cells. -/
def swapCore (c : Nat) (d : Dev) : Dev :=
  (if (d.getCore c).run = .retired then d else stopCore .halted c d).updCore c
    (fun k => { k with mailbox := [], held := [], outstanding := 0, deferredSub := [], sram := [] })

/-- Bad words of the SRAMs that SWAP clears go. -/
def swapFlt (d : Dev) : Dev := { d with flt := { d.flt with bad := d.flt.bad.filter (fun b => b.1 != 6 && b.1 != 7) } }

/-- SWAP steps 1 and 2: cores halted, their cells, lock, mailboxes and completions gone, staging buffers and tickets cleared, memories wiped. -/
def swapEnter (rt mc : Image) (d : Dev) : Dev :=
  let named := d.mod.swapMc
  let d := enterMode .swap 0 d
  let d := each (List.range 64) swapCore d
  let d := each (List.range 32) (fun i d => if (d.getStage i).state = 0 then d else clearStage i d) d
  let d := ((d.updHif (fun h => { h with coreDiscard := h.subno })).updKeys (fun k => { k with tickets := [] })).updMem (fun m => { m with shared := [] })
  (swapFlt d).updMod (fun m => { m with swapNewRt := some rt, swapNewMc := if named = 0 then none else some mc })

/-- The named images have been read: the SWAP begins, or the request is refused with REFCODE 6; a pair that has not been tested together is
reported (log entry 64). -/
def doSwapVerified (d : Dev) : Dev :=
  match d.mod.change with
  | some (.swap, _) =>
    let rt := swapImage 1 d.mod.swapRt d.mod.runtime d
    let mc := swapImage 2 d.mod.swapMc d.mod.micro rt.2
    let d := mc.2
    match rt.1, mc.1 with
    | some r, some m =>
      if testedPair r m then swapEnter r m d
      else modRefuse 8 6 d.mod.changeReq (untestedPair r m { d with mod := { d.mod with change := none } })
    | _, _ => modRefuse 8 6 d.mod.changeReq { d with mod := { d.mod with change := none } }
  | _ => d

/-- SWAP_IMAGES_VERIFIED. -/
def execSwapImagesVerified (s : State) : Host.Outcome State Fault Refusal := done s doSwapVerified

/-- The body of an image, when its slot still holds the image that was verified. -/
def bodyAgain (i : Image) (d : Dev) : Option Bytes :=
  match checkImage d 1 i.slot with
  | .good j b => if j.digest = i.digest then some b else none
  | .bad _ => none

/-- The runtime image that a SWAP loads: the new one when its digest matches, else the one that ran before. -/
def swapChoice (ok : Bool) (d : Dev) : Option (Image × Bytes) :=
  let try_ := fun (o : Option Image) => match o with | some i => (bodyAgain i d).map (fun b => (i, b)) | none => none
  match (if ok then try_ d.mod.swapNewRt else none) with
  | some x => some x
  | none => try_ d.mod.runtime

/-- Every lane controller restarts from new microcode (14 R402 step 4). -/
def restartLanes (d : Dev) : Dev := each (List.range 80) (fun l => onLane l (fun x => laneSet x.los true (!x.los) x)) d

/-- The image has been read again: cores start, new microcode restarts the lanes, and the mode returns (14 R402, R403). -/
def doSwapReload (ok : Bool) (d : Dev) : Dev :=
  if d.mod.mode ≠ .swap then d
  else match swapChoice ok d with
    | none => enterFallow .fallow 4 d
    | some (i, b) =>
      let d := loadRuntime b (mrExtend 2 2 (mrImage i) { d with mod := { d.mod with runtime := some i } })
      let d := match d.mod.swapNewMc with
        | some m => restartLanes (mrExtend 1 1 (mrImage m) { d with mod := { d.mod with micro := some m } })
        | none => d
      enterMode d.mod.swapOrigin 13 { d with mod := { d.mod with swapNewRt := none, swapNewMc := none } }

/-- SWAP_RELOAD_COMPLETE: `ok` false, the digest read does not match. -/
def execSwapReloadComplete (ok : Bool) (s : State) : Host.Outcome State Fault Refusal := done s (doSwapReload ok)

/-! ### Life cycle (14 R383 to R387) -/

/-- A write of MOD_LCKEY. -/
def lcKeyWrite (r v : Nat) (d : Dev) : Dev :=
  modWriteSup r 0x10010 (fun d => if v = 0x4C435943 then { d with mod := { d.mod with lcArmed := r :: d.mod.lcArmed } } else d) d

/-- MOD_LCKEY. -/
def execModLckey (r v : Nat) (s : State) : Host.Outcome State Fault Refusal := done s (lcKeyWrite r v)

/-- A request is refused. -/
def lcRefuse (code : Nat) (d : Dev) : Dev := { d with mod := { d.mod with lcRefused := true, lcCode := code } }

/-- The modes in which an operation is accepted (14 Table 14-2). -/
def lcModeOk (op : Nat) (m : Mode) : Bool :=
  if op = 2 then m == .enrol || m == .service
  else if op = 3 then m == .service
  else if op = 4 then m != .reset && m != .kiln && m != .zeroised
  else m == .enrol

/-- The states in which it is accepted. -/
def lcStateOk (op : Nat) (l : Life) : Bool :=
  if op = 1 then l == .virgin else if op = 2 then l == .enrolled else if op = 3 then l == .enrolled || l == .sealed
  else if op = 4 then l != .scrapped else l == .virgin || l == .enrolled

/-- A return authorisation for this device and its present nonce (14 R386). -/
def authOk (b : Bytes) (d : Dev) : Bool :=
  let msg := ascii "OV6400-RETURN" ++ be 8 d.mod.fuses.serial ++ d.mod.nonce.take 20
  b.length == 3350 && b.take 41 == msg && Config.mldsaVerify Config.returnKey msg (b.drop 41)

/-- MOD_NONCE is drawn afresh. -/
def newNonce (d : Dev) : Dev :=
  let r := freeBytes 32 d
  { r.2 with mod := { r.2.mod with nonce := r.1 } }

/-- An operation begins: OPs 1 to 4 destroy KWR and make every output fallow first (14 R385). -/
def lcStart (op : Nat) (target : Life) (d : Dev) : Dev :=
  let d := if op ≤ 4 then destroyKwr 3 true d else d
  let d := { d with mod := { d.mod with lcBusy := true, lcOp := some (op, target) } }
  if op ≤ 4 then fallowAll d else d

/-- The state an operation leads to. -/
def lcTarget (op : Nat) (l : Life) : Life := if op = 1 then .enrolled else if op = 2 then .sealed else if op = 3 then .returned else if op = 4 then .scrapped else l

/-- The conditions of an armed request in their order; 0 accepts. -/
def lcCheck (op : Nat) (d : Dev) : Nat :=
  let f := d.mod.fuses
  if d.mod.change.isSome then 6
  else if op = 0 || 6 < op then 2
  else if !lcModeOk op d.mod.mode then 1
  else if !lcStateOk op f.life then 2
  else if op = 1 && !f.dusV then 7
  else if (op = 5 && f.ownerV) || (op = 6 && !f.ownerV) then 2 else 0

/-- A request of MOD_LCREQ by `r`, armed or not; one made while BUSY is ignored (14 R411). -/
def lcRequest (op r : Nat) (armed : Bool) (d : Dev) : Dev :=
  if d.mod.lcBusy then d
  else if !armed then lcRefuse 3 d
  else
    let c := lcCheck op d
    if op = 3 then
      let a := engRead r d.mod.lcArg 3350 d
      let valid := match a.1 with | some b => authOk b d | none => false
      let d := newNonce a.2
      if c ≠ 0 then lcRefuse c d else if !valid then lcRefuse 4 d else lcStart 3 .returned d
    else if c ≠ 0 then lcRefuse c d
    else if op = 5 then
      let k := engRead r d.mod.lcArg 1952 d
      match k.1 with
      | none => lcRefuse 2 k.2
      | some b => lcStart 5 d.mod.fuses.life { k.2 with mod := { k.2.mod with lcHash := shake256 b 32 } }
    else lcStart op (lcTarget op d.mod.fuses.life) d

/-- A write of MOD_LCREQ. -/
def lcReqWrite (r v : Nat) (d : Dev) : Dev :=
  let armed := d.mod.lcArmed.contains r
  modWriteSup r 0x10014 (lcRequest (fld v 2 0) r armed) d

/-- ENROL_DONE. -/
def execEnrolDone (r : Nat) (s : State) : Host.Outcome State Fault Refusal := done s (lcReqWrite r 1)
/-- SEAL. -/
def execLcSeal (r : Nat) (s : State) : Host.Outcome State Fault Refusal := done s (lcReqWrite r 2)
/-- RETURN. -/
def execLcReturn (r : Nat) (s : State) : Host.Outcome State Fault Refusal := done s (lcReqWrite r 3)
/-- SCRAP. -/
def execScrap (r : Nat) (s : State) : Host.Outcome State Fault Refusal := done s (lcReqWrite r 4)
/-- FUSE_OWNER. -/
def execFuseOwner (r : Nat) (s : State) : Host.Outcome State Fault Refusal := done s (lcReqWrite r 5)
/-- FUSE_OWNERONLY. -/
def execFuseOwneronly (r : Nat) (s : State) : Host.Outcome State Fault Refusal := done s (lcReqWrite r 6)

/-- The fuses have been blown and read back; `ok` false: the read-back differs after the retry (14 R385). -/
def doFuseBlow (ok : Bool) (d : Dev) : Dev :=
  match d.mod.lcOp with
  | none => d
  | some (op, target) =>
    if !ok then
      let d := lcInterrupt d
      let d := { d with mod := { d.mod with lcCode := 5 } }
      if op ≤ 4 && d.mod.mode ≠ .fallow then enterFallow .fallow 10 d else d
    else
      let old := d.mod.fuses.life
      let d := { d with mod := { d.mod with fuses := lcFuses op target d.mod, lcOp := none, lcBusy := false, lcDone := true } }
      if op ≤ 4 then resetDev false 2 (event 0x0E05 3 (be 1 old.code ++ be 1 target.code) d) else d

/-- FUSE_BLOW_COMPLETE. -/
def execFuseBlowComplete (ok : Bool) (s : State) : Host.Outcome State Fault Refusal := done s (doFuseBlow ok)

/-! ### Reset and zeroise (14 R392, R409) -/

/-- A write of MOD_RESET. -/
def modResetWrite (r v : Nat) (d : Dev) : Dev := modWriteSup r 0x10030 (modReset v) d

/-- MOD_RESET. -/
def execModReset (r v : Nat) (s : State) : Host.Outcome State Fault Refusal := done s (modResetWrite r v)

/-- A write of MOD_ZEROISE: 0x5A3E0001 local, 0x5A3E0002 mesh-wide, others ignored. In RESET and KILN no mode follows. -/
def zeroiseWrite (r v : Nat) (d : Dev) : Dev :=
  modWriteSup r 0x1003C (fun d =>
    if v = 0x5A3E0001 then zeroiseNow 7 2 2 d
    else if v = 0x5A3E0002 then zeroiseNow 8 3 2 (zeroiseOut 3 d)
    else d) d

/-- MOD_ZEROISE_LOCAL. -/
def execModZeroiseLocal (r : Nat) (s : State) : Host.Outcome State Fault Refusal := done s (zeroiseWrite r 0x5A3E0001)
/-- MOD_ZEROISE_MESH. -/
def execModZeroiseMesh (r : Nat) (s : State) : Host.Outcome State Fault Refusal := done s (zeroiseWrite r 0x5A3E0002)

/-! ### BIST (14 R391) -/

/-- A write of MOD_BIST: REFUSED by writing 1, GO refused outside four modes. -/
def bistWrite (r v : Nat) (d : Dev) : Dev :=
  modWrite r (fun d =>
    let m := { d.mod with bistRefused := d.mod.bistRefused && !bitAt v 1 }
    let m := if !bitAt v 0 then m else if laneMode d then { m with bistRun := true } else { m with bistRefused := true }
    { d with mod := m }) d

/-- MOD_BIST. -/
def execModBist (r v : Nat) (s : State) : Host.Outcome State Fault Refusal := done s (bistWrite r v)

/-- A unit that fails BIST is retired by its class (15 R413, Table 15-2). -/
def bistUnit (cls unit : Nat) (d : Dev) : Dev :=
  match cls with
  | 1 => if unit < 80 then retirePipe (unit / 10) (unit % 10 / 5) (unit % 5) 3 d else d
  | 2 => if unit < 8 then retireUnit 2 unit 3 (d.updSlice unit (fun x => { x with state := 3 })) else d
  | 3 => if unit < 64 then coreRetire unit 3 d else d
  | 4 => if unit < 64 then laneRetire unit 3 3 d else d
  | 5 => if unit < 16 then laneRetire (64 + unit) 3 3 d else d
  | 6 => if unit < 8 then retireUnit 6 unit 3 ((hpDown unit d).updHp unit (fun h => { h with state := 5 })) else d
  | 7 => rowRepair 12 unit 0 d
  | 8 => doEngineKat false true d
  | 9 => doEngineKat true false d
  | _ => d

/-- BIST ends with its result and a warm reset. -/
def doBistDone (pass : Bool) (cls unit : Nat) (d : Dev) : Dev :=
  if !d.mod.bistRun then d
  else
    let res := if pass then 3 else 1 + at_ (cls % 256) 8 + at_ (unit % 65536) 16
    let d := { d with mod := { d.mod with bistRun := false, bistRes := res } }
    let d := if pass then d else bistUnit cls unit (event 0x0E07 3 (be 1 cls ++ be 1 unit) d)
    resetDev false 3 d

/-- BIST_COMPLETE. -/
def execBistComplete (pass : Bool) (cls unit : Nat) (s : State) : Host.Outcome State Fault Refusal := done s (doBistDone pass cls unit)

/-! ### Anti-rollback (14 R400) -/

/-- Raise one fused value to an active image's SVN. -/
def svnRaise (type svn cap : Nat) (d : Dev) : Dev :=
  let old := fusedSvn d.mod.fuses type
  let new := Nat.min svn cap
  if new ≤ old then d
  else
    let f := d.mod.fuses
    event 0x0E08 1 (be 1 type ++ be 1 new) { d with mod := { d.mod with
      fuses := if type = 1 then { f with svnRt := new } else if type = 2 then { f with svnMc := new } else { f with svnPat := new } } }

/-- The Pattern in the active bank. -/
def activeBank (d : Dev) : PatBank := if d.tab.actBank = 0 then d.pat.bank0 else d.pat.bank1

/-- A write of MOD_SVNCOMMIT. -/
def svnCommit (r v : Nat) (d : Dev) : Dev :=
  modWrite r (fun d =>
    let m := d.mod.mode
    if !(m = .solo || m = .lead || m = .shadow || m = .service) then d
    else
      let d := match bitAt v 0, d.mod.runtime with | true, some i => svnRaise 1 i.svn 64 d | _, _ => d
      let d := match bitAt v 1, d.mod.micro with | true, some i => svnRaise 2 i.svn 32 d | _, _ => d
      if bitAt v 2 && (activeBank d).valid then svnRaise 3 (activeBank d).svn 32 d else d) d

/-- MOD_SVNCOMMIT. -/
def execModSvncommit (r v : Nat) (s : State) : Host.Outcome State Fault Refusal := done s (svnCommit r v)

/-! ### Measurements and attestation (14 R407, R408, R411) -/

/-- A write of MOD_MREXT by the host or supervisor code; an address that cannot be read extends nothing. -/
def mrExtWrite (r v : Nat) (d : Dev) : Dev :=
  if taskReq r d then d else modWrite r (fun d =>
    let i := fld v 2 0
    if i < 5 then d
    else
      let x := engRead r d.mod.mrArg 64 d
      match x.1 with
      | some b => mrExtend i 5 b x.2
      | none => x.2) d

/-- MOD_MREXT. -/
def execModMrext (r v : Nat) (s : State) : Host.Outcome State Fault Refusal := done s (mrExtWrite r v)

/-- A write of MOD_MRSEL: the selected register is copied. -/
def mrSelWrite (r v : Nat) (d : Dev) : Dev :=
  modWrite r (fun d => { d with mod := { d.mod with mrSel := fld v 2 0, mrData := fit 64 (Tab.get [] d.mod.mr (fld v 2 0)) } }) d

/-- MOD_MRSEL. -/
def execModMrsel (r v : Nat) (s : State) : Host.Outcome State Fault Refusal := done s (mrSelWrite r v)

/-- A write of MOD_ATTCTRL. -/
def attWrite (r v : Nat) (d : Dev) : Dev :=
  modWrite r (fun d =>
    let d := if bitAt v 2 then { d with mod := { d.mod with attDone := false } } else d
    if !bitAt v 0 || d.mod.attBusy then d
    else if !(d.getLpk 1).valid then { d with mod := { d.mod with attErr := 1 } }
    else
      let n := engRead r d.mod.attSrc 64 d
      if n.1.isNone || !engCanWrite r d.mod.attDst 3949 d then { n.2 with mod := { n.2.mod with attErr := 2 } }
      else { n.2 with mod := { n.2.mod with attBusy := true, attErr := 0, attReq := r } }) d

/-- MOD_ATTCTRL. -/
def execModAttctrl (r v : Nat) (s : State) : Host.Outcome State Fault Refusal := done s (attWrite r v)

/-- Bytes 0 to 639 of an attestation report (14 Table 14-12). -/
def attBody (nonce : Bytes) (d : Dev) : Bytes :=
  let f := d.mod.fuses
  be 4 0x4F564154 ++ [1, 0] ++ be 1 f.life.code ++ be 1 d.mod.mode.code ++ be 8 f.serial ++ be 2 0x6400 ++ be 1 revCode
    ++ be 1 (f.ownerV.toNat + 2 * f.ownerOnly.toNat) ++ be 1 f.svnRt ++ be 1 f.svnMc ++ be 1 f.svnPat ++ [0] ++ be 8 d.evr.optime
    ++ fit 32 f.ownerHash ++ fit 64 nonce ++ ((List.range 8).map (fun i => fit 64 (Tab.get [] d.mod.mr i))).flatten

/-- An attestation report: its body, and the ML-DSA-65 signature under LPK1 over it (14 Table 14-12, R406). -/
def attReport (nonce : Bytes) (d : Dev) : Bytes × Dev :=
  let body := attBody nonce d
  let rnd := freeBytes 32 d
  (body ++ fit 3309 (Config.mldsaSign (d.getLpk 1).key body rnd.1), rnd.2)

/-- The report is written; an address that the requester no longer reaches gives ERR 2. -/
def doAttest (d : Dev) : Dev :=
  if !d.mod.attBusy then d
  else
    let n := engRead d.mod.attReq d.mod.attSrc 64 d
    let d := { n.2 with mod := { n.2.mod with attBusy := false } }
    match n.1 with
    | none => { d with mod := { d.mod with attErr := 2 } }
    | some nonce =>
      let r := attReport nonce d
      let w := engWrite d.mod.attReq d.mod.attDst r.1 r.2
      if w.1 then { w.2 with mod := { w.2.mod with attDone := true } } else { w.2 with mod := { w.2.mod with attErr := 2 } }

/-- ATTEST_COMPLETE. -/
def execAttestComplete (s : State) : Host.Outcome State Fault Refusal := done s doAttest

end Sys2Proof.Machine
end

