-- ==== Sys2Proof/Machine/Snaps.lean ====
section
/-! DEFINITION. Records as bytes, and the snapshots that selection registers take (02 R66, 05 R132, R136, R138, R160, 07 Table 07-18). -/

namespace Sys2Proof.Machine

/-- A channel record: the configured part `c`, and what frames and seams change (05 Table 05-1); SCI in wire order. -/
def chanBytes (c : Chan) (l : ChanLive) : Bytes :=
  be 1 (c.en.toNat + 2 * (c.kind % 4) + c.txSci.toNat * 8 + 16 * (c.pcode % 4))
    ++ be 1 (l.curAn % 4 + l.curV.toNat * 4 + 8 * (l.nextAn % 4) + 32 * (l.seamKind % 4))
    ++ be 1 (c.src % 64 + c.slotSrc.toNat * 64) ++ be 1 (c.dst % 64)
    ++ ((List.range 4).map (fun an => le 2 (match Tab.get none c.anSlot an with | some i => i % 16384 + 32768 | none => 0))).flatten
    ++ be 8 c.sci ++ le 8 l.seamAt ++ le 2 (c.replayW % 4096) ++ le 2 (c.mgrp % 1024) ++ zeros 32

/-- Bytes 0 to 63 of an SA record (05 Table 05-3); the key and its subkey lie beyond them. -/
def saBytes (s : SaStat) (l : SaLive) : Bytes :=
  be 1 (s.dir % 2 + s.att.toNat * 2 + 4 * (s.an % 4) + 16 * (s.suite % 4) + s.pinned.toNat * 64)
    ++ be 1 (l.softHit.toNat + 2 * l.limHit.toNat) ++ le 2 s.chid ++ le 4 s.ssci ++ le 12 s.salt
    ++ le 4 (match s.coldIdx with | some i => i % 2 ^ 20 + 2 ^ 31 | none => 0)
    ++ le 8 l.nextPn ++ le 8 l.softPn ++ le 8 l.hardPn
    ++ le 2 (match s.win with | some w => w % 16384 + 32768 | none => 0) ++ le 2 l.refs ++ zeros 12

/-- The first 64 of the 128 bytes of a window block's slot: the header, or the bitmap's part (05 R138). -/
def winBytes (slot header : Nat) (w : Win) : Bytes :=
  if slot = header then
    le 8 w.top ++ le 2 (w.w % 4096) ++ le 2 w.members ++ be 1 w.init.toNat ++ zeros 51
  else le 64 (w.bitmap / 2 ^ (1024 * (slot - header - 1)))

/-- Bytes 0 to 63 of an SA slot: an SA record, a window block's part, or zeros of a FREE slot. -/
def slotBytes (slot : Nat) (d : Dev) : Bytes :=
  let s := d.tab.getSa slot
  if s.state = .free then zeros 64
  else if s.state = .window then
    let header := match s.win with | some l => slotSlice slot * 16384 + l | none => slot
    winBytes slot header (d.getWin header)
  else saBytes s (d.getLive slot)

/-- Sixteen snapshot words of 64 bytes: byte k in bits [8(k mod 4) + 7 : 8(k mod 4)] of word k / 4 (05 R160). -/
def snapWords (b : Bytes) (n : Nat) : Tab Nat := (List.range n).foldl (fun t j => Tab.set 0 t j (leAt b (4 * j) 4)) []

/-- A write of SAS_STATSEL copies eight counters in one clock (02 R66). -/
def statselWrite (v : Nat) (d : Dev) : Dev :=
  let slot := fld v 16 0
  { d with sas := { d.sas with statSel := slot, statSnap := (d.getLive slot).ctr } }

/-- SAS_STATSEL. -/
def execSasStatsel (v : Nat) (s : State) : Host.Outcome State Fault Refusal := doneReg s (statselWrite v)

/-- A write of SAS_RECSEL copies the slot's bytes 0 to 63 and its state. -/
def recselWrite (v : Nat) (d : Dev) : Dev :=
  let slot := fld v 16 0
  { d with sas := { d.sas with recSel := slot, recState := (d.tab.getSa slot).state.code, recSnap := snapWords (slotBytes slot d) 16 } }

/-- SAS_RECSEL. -/
def execSasRecsel (v : Nat) (s : State) : Host.Outcome State Fault Refusal := doneReg s (recselWrite v)

/-- A write of CHN_RECSEL copies the channel's bytes 0 to 63. -/
def chnselWrite (v : Nat) (d : Dev) : Dev :=
  let c := fld v 15 0
  { d with sas := { d.sas with chnSel := c, chnSnap := snapWords (chanBytes (d.tab.getChn c) (d.getChl c)) 16 } }

/-- CHN_RECSEL. -/
def execChnRecsel (v : Nat) (s : State) : Host.Outcome State Fault Refusal := doneReg s (chnselWrite v)

/-- LEN of the attribute record: the key length's code (07 Table 07-2). -/
def keyLenCode (k : Kek) : Nat := if k.key.isEmpty then 0 else k.key.length / 16 - 1

/-- The attribute record of a KEK slot (07 Table 07-2). -/
def kekBytes (k : Kek) : Bytes :=
  be 1 (k.valid.toNat + 2 * k.origin.code + 8 * keyLenCode k + k.freshLeft.toNat * 32) ++ be 1 (k.usage % 64) ++ zeros 2
    ++ le 4 k.keyId ++ le 8 k.dctr

/-- The record of an LPK slot (07 Table 07-18). -/
def lpkBytes (k : Lpk) : Bytes := be 1 (k.valid.toNat + 2 * (k.type % 8)) ++ zeros 3 ++ le 4 k.keyId ++ zeros 8

/-- A write of KEY_SLOTSEL copies an attribute record; an LPK selection above 63 names no slot and shows zeros. -/
def slotselWrite (v : Nat) (d : Dev) : Dev :=
  let n := fld v 9 0
  let b := if bitAt v 10 then (if n < 64 then lpkBytes (d.getLpk n) else zeros 16) else kekBytes (d.getKek n)
  { d with keys := { d.keys with slotSel := fld v 10 0, slotInfo := snapWords b 4 } }

/-- KEY_SLOTSEL. -/
def execKeySlotsel (v : Nat) (s : State) : Host.Outcome State Fault Refusal := doneReg s (slotselWrite v)

end Sys2Proof.Machine
end

