-- ==== Sys2Proof/Machine/RegRead.lean ====
section
/-! DEFINITION. What every BAR0 register reads, block by block (16 Tables 16-1 to 16-12 and the tables that they name). -/

namespace Sys2Proof.Machine

/-- What a 32-bit word of BAR0 shows: a register, or half of a 64-bit read-only value (00 R5). -/
inductive RegVal where
  | word (v : Nat)
  | low (v : Nat)
  | high (v : Nat)
  deriving DecidableEq, Repr

/-- Half of a 64-bit read-only value: every one lies 8-aligned in its block. -/
def quad (o v : Nat) : RegVal := if o % 8 = 0 then .low v else .high v

/-- Half of a 64-bit value that is not read-only. -/
def half (o v : Nat) : RegVal := .word (if o % 8 = 0 then lo32 v else hi32 v)

/-- A reserved offset reads 0 (16 R442). -/
def reserved : RegVal := .word 0

/-- A bit of a register. -/
def bit_ (b : Bool) (i : Nat) : Nat := if b then 2 ^ i else 0

/-- The first register of a list of (offset, contents). -/
def pick (o : Nat) (l : List (Nat × RegVal)) : RegVal := ((l.find? (fun e => e.1 == o)).map (fun e => e.2)).getD reserved

/-- `o` lies in a range. -/
def inR (o lo hi : Nat) : Bool := decide (lo ≤ o) && decide (o ≤ hi)

/-- The low word's offset. -/
def dw (o : Nat) : Nat := o / 8 * 8

/-- GLB (14 Table 14-10). -/
def readGlb (o : Nat) (d : Dev) : RegVal :=
  if inR o 0x8 0xC then quad o d.mod.fuses.serial
  else pick o [(0, .word 0x40086400), (4, .word revCode), (0x10, .word (Config.kilnVer % 65536))]

/-- MOD (14 Table 14-15). -/
def readMod (o : Nat) (d : Dev) : RegVal :=
  let m := d.mod
  let f := m.fuses
  let busy := m.change.isSome
  let ver := fun (i : Option Image) => RegVal.word (match i with | some x => x.imgVer | none => 0)
  if inR o 0x18 0x1C then half o m.lcArg
  else if inR o 0x68 0x6C then half o m.mrArg
  else if inR o 0x70 0x74 then half o m.attSrc
  else if inR o 0x78 0x7C then half o m.attDst
  else if inR o 0xC0 0xDC then .word (leAt m.nonce (o - 0xC0) 4)
  else if inR o 0x100 0x13C then .word (leAt m.mrData (o - 0x100) 4)
  else pick o
    [(0x00, .word (m.mode.code + 16 * m.prev.code + 256 * m.reason + bit_ busy 16)),
     (0x08, .word (bit_ busy 0 + bit_ m.refused 1 + 256 * m.refCode)),
     (0x0C, .word (f.life.code + bit_ f.dusV 3 + bit_ f.ownerV 4 + bit_ f.ownerOnly 5 + bit_ f.dusKill 6)),
     (0x20, .word (bit_ m.lcBusy 0 + bit_ m.lcDone 1 + bit_ m.lcRefused 2 + 256 * m.lcCode)),
     (0x34, .word m.rstCause), (0x38, .word m.nextMode), (0x40, .word (bit_ m.bistRefused 1)), (0x44, .word m.bistRes),
     (0x48, .word m.bootStat), (0x4C, ver m.runtime), (0x50, ver m.micro),
     (0x54, .word (f.svnRt + 256 * f.svnMc + 65536 * f.svnPat)),
     (0x80, .word (bit_ m.attBusy 1 + bit_ m.attDone 2 + 16 * m.attErr)), (0x90, .word m.mrSel)]

/-- HIF with the MSI-X table and PBA (13 Tables 13-1, 13-11). -/
def readHif (o : Nat) (d : Dev) : RegVal :=
  let h := d.hif
  if inR o 0x8000 0xFFFF then .word (msixWord d ((o - 0x8000) / 4))
  else if inR o 0x4000 0x40FF then
    .word ((List.range 32).foldl (fun a i => a + bit_ (Tab.get false h.pba ((o - 0x4000) / 4 * 32 + i)) i) 0)
  else pick o
    [(0x00, .word 2), (0x04, .word h.hostVer), (0x08, .word (h.maj + 16 * h.min + bit_ h.valid 8 + bit_ h.incompat 9)),
     (0x10, .word h.err), (0x14, .word h.errVec), (0x18, .word h.apBase), (0x20, .word h.link)]

/-- Records of one severity in the ring. -/
def ringCount (s : Nat) (d : Dev) : Nat := (d.evr.ring.filter (fun e => match e.2 with | some r => r.sev == s | none => false)).length

/-- EVR with the ring window of the requester's page (15 R432, Table 15-15). The words of a record show its bytes as the posting
data of R436 does, byte 4j in bits [7:0]. -/
def readEvr (req o : Nat) (d : Dev) : RegVal :=
  let e := d.evr
  if inR o 0x8000 0xFFFF then
    match Tab.get none e.ring (1024 * Tab.get 0 e.winSel req + (o - 0x8000) / 32) with
    | some r => .word (leAt r.bytes ((o - 0x8000) % 32) 4)
    | none => .word 0
  else if inR o 0x18 0x1C then quad o e.drops
  else if inR o 0x20 0x24 then quad o e.arcLost
  else if inR o 0x28 0x2C then quad o e.optime
  else
    let rotation := if e.ready && !e.ramOnly then archiveTotal d.fls.size - e.retired.length - e.spares else 0
    let arc := if e.ready && !e.ramOnly then rotation + at_ e.retired.length 12 + at_ e.spares 24 else 0
    pick o
      [(0x00, .word (bit_ e.ready 0 + bit_ e.flashOk 1 + bit_ e.ramOnly 2 + bit_ e.unclean 3 + 256 * e.calq)),
       (0x04, .word e.headSeq), (0x08, .word e.lastSlot), (0x0C, .word (Tab.get 0 e.winSel req)),
       (0x10, .word (ringCount 0 d + 65536 * ringCount 1 d)), (0x14, .word (ringCount 2 d + 65536 * ringCount 3 d)),
       (0x30, .word e.pwrCyc), (0x38, .word e.calSetLo), (0x3C, .word e.calSetHi),
       (0x40, .word (Tab.get 0 e.postLo req)), (0x44, .word (Tab.get 0 e.postHi req)), (0x50, .word e.arcCfg), (0x54, .word arc)]

/-- PRF (16 Table 16-9). -/
def readPrf (o : Nat) (d : Dev) : RegVal :=
  let get := fun i => Tab.get {} d.prf i
  if inR o 0x100 0x13C then
    let c := get ((o - 0x100) / 4)
    .word (c.event + bit_ c.edge 6 + bit_ c.en 7 + 256 * c.unit + bit_ c.sat 16)
  else if inR o 0x200 0x27C then quad o (get ((o - 0x200) / 8)).cnt
  else pick o [(0, .word d.prfFreeze.toNat)]

/-- TMP with the board-sensor ports (15 Table 15-16, 17 Table 17-7). -/
def readTmp (o : Nat) (d : Dev) : RegVal :=
  if o = 0 then .word (bit_ d.pins.tamper 0 + bit_ d.pins.pwrFail 1 + bit_ d.pins.hot 2 + 65536 * d.pins.tj)
  else if inR o 0x100 0x1FF then
    let x := d.getI3c ((o - 0x100) / 0x80)
    let r := (o - 0x100) % 0x80
    if inR r 0x40 0x5F then .word (ofLe (getBytes x.data (r - 0x40) 4))
    else pick r [(0, .word x.ctrl), (8, .word (bit_ x.busy 0 + bit_ x.done 1 + bit_ x.nack 2 + bit_ x.err 3 + bit_ x.ibi 4 + bit_ x.refused 5
      + 256 * x.ibiAddr + 65536 * x.ibiData))]
  else reserved

/-- FLS (16 Table 16-11). -/
def readFls (o : Nat) (d : Dev) : RegVal :=
  let f := d.fls
  if inR o 0x1000 0x1FFF then .word (ofLe (getBytes f.buf (o - 0x1000) 4))
  else pick o [(4, .word f.addr), (8, .word f.len),
    (0xC, .word (bit_ f.busy 0 + bit_ f.done 1 + bit_ f.refused 2 + bit_ f.err 3 + bit_ f.suspended 4 + 256 * f.code)), (0x10, .word f.size)]

/-- One lane's region (12 Tables 12-11 to 12-13). -/
def readLane (l r : Nat) (d : Dev) : RegVal :=
  let x := d.getLane l
  if inR r 0x20 0x24 then quad r x.testErr
  else pick r
    [(0x00, .word x.ctrl), (0x04, .word x.txeq),
     (0x08, .word (bit_ x.los 0 + bit_ x.lol 1 + bit_ (x.acq || x.calBusy) 2 + bit_ x.retired 3 + bit_ x.marginLow 4 + bit_ x.werr 5 + bit_ x.losChg 6
        + bit_ x.lolChg 7 + 256 * laneRate l d + 65536 * x.freqOfs)),
     (0x0C, .word (x.fom + 256 * x.eye + 65536 * x.fomMin + bit_ x.fomValid 31)), (0x10, .word x.margin),
     (0x14, .word (bit_ x.calBusy 1 + bit_ x.calDone 2 + bit_ x.calRefused 3)), (0x18, .word (x.test + bit_ x.testRefused 31)),
     (0x28, .word (x.cntPll + 256 * x.cntCtlr + 65536 * x.cntAcq))]

/-- One port's region (12 Table 12-10, 02 Tables 02-17 to 02-22). -/
def readPrt (n r : Nat) (d : Dev) : RegVal :=
  let g := d.tab.getPrt n
  let p := d.getPort n
  if inR r 0x100 0x11C then quad r (nth 0 [p.fecCw, p.fecCorr, p.fecUncorr, p.fecSymErr] ((r - 0x100) / 8))
  else if inR r 0x410 0x42C then quad r (Tab.get 0 g.peerMac ((r - 0x410) / 8))
  else if inR r 0x440 0x45C then .word (Tab.get 0 g.bypass ((r - 0x440) / 4))
  else if inR r 0x500 0x574 then quad r (Tab.get 0 p.ctr ((r - 0x500) / 8))
  else pick r
    [(0x000, .word g.cfg),
     (0x004, .word (bit_ p.los 0 + bit_ p.loa 1 + bit_ g.enabled 2 + bit_ p.laneFail 3 + bit_ p.losChg 8 + bit_ p.loaChg 9)),
     (0x400, .word g.fmCtrl), (0x404, .word g.maxFrame),
     (0x408, .word (p.noSaChid + 65536 * p.noSaAn + bit_ p.noSaValid 31))]

/-- Sixty-four flags as a number. -/
def flags64 (t : Tab Bool) : Nat := (List.range 64).foldl (fun a i => a + bit_ (Tab.get false t i) i) 0

/-- Four calendar entries as a word. -/
def calWord (t : Tab Nat) (w : Nat) : Nat := (List.range 4).foldl (fun a k => a + at_ (Tab.get 0 t (4 * w + k)) (8 * k)) 0

/-- One Slot-mode port's region (03 Tables 03-11 to 03-19, 04 Tables 04-5 to 04-7). -/
def readSlt (p r : Nat) (d : Dev) : RegVal :=
  let g := d.tab.getSlt p
  let s := d.getSlt p
  let x := s.dfc
  let anyOf := fun (t : Tab Bool) => t.any (fun e => e.2)
  if inR r 0x10 0x14 then quad r g.fcBase
  else if inR r 0x18 0x1C then quad r s.tx.fc
  else if inR r 0x20 0x24 then quad r s.rx.fc
  else if inR r 0x38 0x3C then quad r s.prbsErr
  else if inR r 0x40 0x6C then quad r (Tab.get 0 s.ctr ((r - 0x40) / 8))
  else if inR r 0x80 0x9C then quad r (flags64 (nth [] [x.ctag, x.csf, x.ctagFail, x.csfFail] ((r - 0x80) / 8)))
  else if inR r 0x100 0x1FC then .word (Tab.get 0 g.txClient ((r - 0x100) / 4))
  else if inR r 0x200 0x2FC then .word (Tab.get 0 g.rxClient ((r - 0x200) / 4))
  else if inR r 0x300 0x7FC then
    .word (calWord (nth [] [g.txPageA, g.txPageB, g.rxPageA, g.rxPageB] ((r - 0x300) / 0x140)) ((r - 0x300) % 0x140 / 4))
  else pick r
    [(0x00, .word g.ctrl), (0x04, .word g.portCh), (0x08, .word g.fillCh),
     (0x28, .word (bit_ s.tx.act 0 + bit_ (s.tx.req && s.tx.reqSent) 1 + bit_ s.tx.commit 2 + bit_ s.tx.timeout 3 + bit_ s.rx.act 4 + bit_ s.tx.ack 5
        + bit_ s.rx.recov 6 + 256 * (s.tx.swMf % 256) + 65536 * (s.rx.swMf % 256))),
     (0x2C, .word g.txVer), (0x30, .word g.rxVer),
     (0x34, .word (bit_ s.tx.portSa 0 + bit_ s.rx.fcSync 1 + bit_ s.rx.fmtBad 2)),
     (0x70, .word (x.bits % 256 + bit_ (anyOf x.csf) 8 + bit_ (anyOf x.ctag) 9)),
     (0x74, .word (x.failBits % 256 + bit_ (anyOf x.csfFail) 8 + bit_ (anyOf x.ctagFail) 9)),
     (0x78, .word (x.dchg % 1024 + 65536 * (x.fchg % 1024))),
     (0x7C, .word (bit_ s.rx.sync 0 + 2 * s.rx.fawErr + 16 * s.rx.cand.length + 256 * s.rx.candOvf + 65536 * s.rx.oofCnt)),
     (0xA0, .word (s.degThr + at_ s.degM 20))]

/-- The shared Slot-mode registers, by block offset above 0x1_0000 (04 Tables 04-8, 04-9). -/
def readPm (r : Nat) (d : Dev) : RegVal :=
  let x := d.slt.pmSnap
  if inR r 0x50 0x54 then quad r x.neBbe
  else if inR r 0x68 0x6C then quad r x.feBbe
  else if inR r 0x70 0x74 then quad r x.startOt
  else if inR r 0x78 0x7C then quad r x.startCal
  else pick r
    [(0x00, .word d.slt.pmSel), (0x04, .word d.slt.pmCfg), (0x40, .word x.neEs), (0x44, .word x.neSes), (0x48, .word x.neUas),
     (0x58, .word x.feEs), (0x5C, .word x.feSes), (0x60, .word x.feUas),
     (0x80, .word (bit_ x.valid 0 + bit_ x.partialInt 1 + bit_ x.fena 2 + bit_ x.feSusp 3 + 256 * x.calq))]

/-- PAT (06 Tables 06-15 to 06-17). STBYVER while STBYVALID is 0 after a switch goes on showing the IMGVER of the bank switched out: DESIGN CHOICE
(log entry 87). -/
def readPat (o : Nat) (d : Dev) : RegVal :=
  let act := activeBank d
  let sby := standbyBank d
  if inR o 0x1000 0x1FFF then
    if (o - 0x1000) % 0x40 < 0x28 then quad o (Tab.get 0 (d.getPort ((o - 0x1000) / 0x40)).pat ((o - 0x1000) % 0x40 / 8)) else reserved
  else pick o
    [(0, .word (d.tab.actBank + bit_ act.valid 1 + bit_ sby.valid 2 + bit_ d.pat.loading 3 + 16 * d.pat.err + 65536 * beAt sby.image 6 2)),
     (4, .word (if act.valid then beAt act.image 6 2 + 65536 * (byteAt act.image 5 % 16) + at_ (byteAt act.image 4 % 16) 20 else 0))]

/-- STN (06 Tables 06-18 to 06-21). -/
def readStn (o : Nat) (d : Dev) : RegVal :=
  let s := d.stn
  if inR o 0x1000 0x11FF then
    if (o - 0x1000) % 0x40 < 0x38 then quad o (Tab.get 0 s.ctr (8 * ((o - 0x1000) / 0x40) + (o - 0x1000) % 0x40 / 8)) else reserved
  else pick o
    [(0x00, .word d.tab.stnPeriod), (0x04, .word d.tab.sweepNo), (0x10, .word s.opKeyLo), (0x14, .word s.opKeyHi),
     (0x18, .word (s.op + 4 * s.opPart + bit_ s.opDomF 5 + bit_ s.opFound 29 + bit_ s.opEnd 30)), (0x1C, .word s.opCursor),
     (0x20, .word (Tab.get 0 s.opRes 0)), (0x24, .word (Tab.get 0 s.opRes 1)), (0x28, .word (Tab.get 0 s.opRes 2)),
     (0x2C, .word (Tab.get 0 s.opRes 3)), (0x30, .word s.opIdx)]

/-- CHN (05 Tables 05-11, 05-12). -/
def readChn (o : Nat) (d : Dev) : RegVal :=
  if inR o 0x140 0x17C then .word (Tab.get 0 d.sas.chnSnap ((o - 0x140) / 4))
  else pick o [(0x100, .word d.sas.chnSel)]

/-- SAS_STAGESTAT of buffer `i` of slice `s` (05 Table 05-14). -/
def stageWord (s i : Nat) (d : Dev) : Nat :=
  let x := d.getStage (s + 8 * i)
  x.state + 4 * x.src + 8 * x.image.dir + (if x.src = 1 then at_ (x.image.coldIdx.getD 0) 12 else 0)

/-- SAS (02 Tables 02-15, 02-16; 05 Tables 05-10 to 05-14). -/
def readSas (o : Nat) (d : Dev) : RegVal :=
  let s := d.sas
  if inR o 0x140 0x17C then quad o (Tab.get 0 s.statSnap ((o - 0x140) / 8))
  else if inR o 0x1C0 0x1FC then .word (Tab.get 0 s.recSnap ((o - 0x1C0) / 4))
  else if inR o 0x200 0x204 then half o s.coldBase
  else if inR o 0x300 0x37C then .word (stageWord ((o - 0x300) / 0x10) ((o - 0x300) % 0x10 / 4) d)
  else pick o [(0x000, .word d.tab.side), (0x100, .word s.statSel), (0x180, .word (s.recSel + at_ s.recState 17)),
    (0x208, .word (s.coldSize + bit_ s.coldLock 31))]

/-- SLC (15 Table 15-14). -/
def readSlc (o : Nat) (d : Dev) : RegVal :=
  if inR o 0x100 0x2FF then
    let x := d.getSlice ((o - 0x100) / 0x40)
    pick ((o - 0x100) % 0x40)
      [(0, .word (x.state + 256 * x.cause + bit_ x.noSpareTx 16 + bit_ x.noSpareRx 17)),
       (4, .word ((List.range 10).foldl (fun a i => a + at_ (Tab.get 0 x.pipe i) (2 * i)) 0)),
       (8, .word (x.fltTransient + 256 * x.fltMirror + 65536 * x.fltSlice))]
  else reserved

/-- The highest boundary of a port that has not taken effect. -/
def pbound (t : TckPort) : Nat := t.bounds.foldl (fun a b => Nat.max a b.2) 0

/-- TCK (08 Tables 08-6, 08-7). -/
def readTck (o : Nat) (d : Dev) : RegVal :=
  let t := d.tck
  if inR o 0x1000 0x1FFF then
    let n := (o - 0x1000) / 0x40
    let r := (o - 0x1000) % 0x40
    let p := d.getTck n
    if r < 8 then (if r = 0 then .word p.pstate.code else reserved)
    else quad o (nth 0 [p.admitted, p.horizon, pbound p, p.effTno, if portEnabled d n then margin d.tab n else 0, p.holdDrop, p.srcDeny] (r / 8 - 1))
  else if inR o 0x8 0xC then quad o t.tno
  else if inR o 0x10 0x14 then quad o t.rseq
  else pick o [(0, .word t.cfg), (4, .word (sourceCode d + bit_ t.stopped 2 + bit_ t.badRec 3)), (0x18, .word t.gate.length), (0x1C, .word dpVer)]

/-- TWN (09 Tables 09-12 to 09-17). -/
def readTwn (o : Nat) (d : Dev) : RegVal :=
  let t := d.twn
  if inR o 0x1000 0x17FF then
    let p := d.getTwn ((o - 0x1000) / 0x20)
    let r := (o - 0x1000) % 0x20
    if r < 8 then (if r = 0 then .word p.state else reserved)
    else quad o (nth 0 [twos 64 p.base, p.fenceDrop, p.suppress] (r / 8 - 1))
  else if inR o 0x100 0x1FF then
    let h := d.getHp ((o - 0x100) / 0x20)
    let r := (o - 0x100) % 0x20
    if inR r 8 0xC then quad o h.retry
    else if r = 0 then .word (h.state + 16 * h.vmaj + 256 * h.vmin + at_ h.nbr 12) else reserved
  else if inR o 0x8 0xC then half o t.partner
  else if inR o 0x20 0x24 then quad o ((List.range 64).foldl (fun a n => a + bit_ (portFenced d n) n) 0)
  else if inR o 0x40 0x74 then quad o (Tab.get 0 t.ctr ((o - 0x40) / 8))
  else pick o [(0, .word t.cfg), (4, .word (twnStatusWord t)), (0x10, .word t.nodeAddr), (0x14, .word t.hpCfg), (0x18, .word t.hbCfg),
    (0x1C, .word t.collect)]

/-- SCE, LAT and KEY (07 Tables 07-17 to 07-20, 16 Table 16-12). -/
def readSce (o : Nat) (d : Dev) : RegVal :=
  let k := d.keys
  pick o [(0, .word (k.sceOwner + 65536 * k.sceGen)), (4, .word k.sceLease),
    (8, .word (bit_ k.sceJob.isSome 0 + bit_ k.sceHeld 1 + 256 * k.sceLast + 65536 * k.sceReleases))]

def readLat (o : Nat) (d : Dev) : RegVal :=
  pick o [(0, .word (d.keys.latQueue.length + bit_ (!d.keys.latQueue.isEmpty) 9 + bit_ (d.keys.latKatFail || d.flt.retired.any (fun r => r.1 == 9)) 10))]

def readKey (o : Nat) (d : Dev) : RegVal :=
  let k := d.keys
  if inR o 0x20 0x2C then .word (Tab.get 0 k.slotInfo ((o - 0x20) / 4))
  else pick o [(0, .word (bit_ k.kwrValid 0 + bit_ k.rngOk 1 + bit_ k.rngFault 2 + 256 * k.tickets.length)), (0x10, .word k.slotSel)]

/-- BPM (11 Tables 11-11, 11-12). -/
def readBpm (o : Nat) (d : Dev) : RegVal :=
  let b := d.bpm
  let q := b.qsel
  if inR o 0x20 0x24 then quad o (Tab.get 0 b.deny q)
  else if inR o 0x28 0x2C then quad o b.badFree
  else pick o
    [(0x00, .word b.ring), (0x04, .word b.shared), (0x08, .word b.used), (0x10, .word q), (0x14, .word (b.minOf q)), (0x18, .word (b.capOf q)),
     (0x1C, .word (b.cnt q + at_ (b.bobOf q) 18 + bit_ (Tab.get false b.refused q) 30 + bit_ (capFixed q) 31)),
     (0x30, .word (b.badCell + at_ b.badReq 17 + bit_ b.badValid 31)), (0x34, .word b.badOwner)]

/-- MEM and MEC (11 Tables 11-13 to 11-15). -/
def readMem (o : Nat) (d : Dev) : RegVal :=
  let m := d.mem
  if inR o 0x10 0x14 then quad o m.sramCe
  else if inR o 0x100 0x1FF then
    let r := (o - 0x100) % 0x40
    let ch := (o - 0x100) / 0x40
    if r < 8 then quad o (Tab.get 0 m.ceCnt ch) else if r < 16 then quad o (Tab.get 0 m.ueCnt ch) else reserved
  else pick o
    [(0, .word (m.rate + bit_ m.trained 2 + bit_ m.fail 3 + 65536 * m.dimmGib)), (8, .word m.scrub), (0xC, .word (bit_ m.clearBusy 1 + bit_ m.clearDone 2))]

/-- The MEC block (11 Tables 11-14, 11-15). MEC_DOUBTi lies at 0x100 + 8 i for i = 0 to 63, as Table 11-15 defines it, so entries 32 to 63 lie above
the 0x1FC at which 16 Table 16-7 ends its row (DEDUCED, log entry 81). -/
def readMec (o : Nat) (d : Dev) : RegVal :=
  let m := d.mem
  if inR o 0x10 0x14 then quad o m.writes
  else if inR o 0x20 0x24 then quad o m.doubtAcc
  else if inR o 0x28 0x2C then quad o m.masterBlk
  else if inR o 0x100 0x2FC then
    match m.doubts[(o - 0x100) / 8]? with
    | some x => quad o (x.index + at_ x.level 27 + 2 ^ 31 + at_ x.cause 32)
    | none => quad o 0
  else pick o
    [(0, .word (m.psize + bit_ m.lock 31)),
     (4, .word (bit_ m.ready 0 + bit_ m.cfgErr 1 + bit_ m.rootDoubt 2 + bit_ m.alarm 3 + 16 * m.doubts.length)),
     (0xC, .word (bit_ m.reprovBusy 0 + bit_ m.reprovDone 1 + bit_ m.reprovRefused 2))]

/-- The low half of SMPSTAT (10 Table 10-9): LOST and the records that wait. -/
def smpStat (k : Core) : Nat := k.samples.length + at_ k.smpLost 16

/-- A core's region (10 Table 10-22). -/
def readGnk (c r : Nat) (d : Dev) : RegVal :=
  let k := d.getCore c
  if inR r 0x8 0xC then quad r k.pc.toNat
  else if inR r 0x18 0x1C then quad r k.mbxDrop
  else if inR r 0x100 0x13C then quad r (Tab.get 0 k.pcnt ((r - 0x100) / 8))
  else if inR r 0x140 0x15C then .word (lo32 (Tab.get 0 k.pcSel ((r - 0x140) / 4)).toNat)
  else pick r [(0x000, .word (k.run.code + bit_ (k.run != .halted && k.super) 3)), (0x010, .word (k.mailbox.length + 65536 * Nat.min 511 k.held.length)),
    (0x160, .word (lo32 (smpStat k)))]

/-- The word at a DWORD-aligned BAR0 offset, or `none` in an unassigned range (16 Table 16-1, R441). -/
def regVal (req off : Nat) (d : Dev) : Option RegVal :=
  let o := off % 0x10000
  match off / 0x10000 with
  | 0x00 => some (readGlb o d) | 0x01 => some (readMod o d) | 0x02 => some (pick o [(0, .word (d.pins.clk + 256 * d.pins.clkChg))])
  | 0x03 => some (readHif o d) | 0x04 => some (readEvr req o d) | 0x05 => some (readPrf o d) | 0x06 => some (readTmp o d)
  | 0x07 => some (readFls o d)
  | 0x10 => some (readLane (o / 0x400) (o % 0x400) d)
  | 0x11 => some (if o < 0x4000 then readLane (64 + o / 0x400) (o % 0x400) d else reserved)
  | 0x12 => some (readPrt (o / 0x800) (o % 0x800) d) | 0x13 => some (readPrt (32 + o / 0x800) (o % 0x800) d)
  | 0x14 => some (readSlt (o / 0x800) (o % 0x800) d) | 0x15 => some (readPm o d)
  | 0x16 => some (readPat o d) | 0x17 => some (readStn o d) | 0x18 => some (readChn o d) | 0x19 => some (readSas o d)
  | 0x1A => some (readSlc o d) | 0x1B => some (readTck o d) | 0x1C => some (readTwn o d) | 0x1D => some (readSce o d)
  | 0x1E => some (readLat o d) | 0x1F => some (readKey o d) | 0x20 => some (readBpm o d) | 0x21 => some (readMem o d)
  | 0x22 => some (readMec o d)
  | b => if 0x30 ≤ b && b < 0x38 then some (if o < 0x8000 then readGnk (8 * (b - 0x30) + o / 0x1000) (o % 0x1000) d else reserved) else none

/-- A read of an aligned DWORD: the low word of a 64-bit read-only value captures the high word for its requester (00 R5). -/
def regRead (req off : Nat) (d : Dev) : Option Nat × Dev :=
  match regVal req off d with
  | none => (none, d)
  | some (.word v) => (some (lo32 v), d)
  | some (.low v) => (some (lo32 v), { d with hold := Tab.set none d.hold req (some (off, hi32 v)) })
  | some (.high v) =>
    match Tab.get none d.hold req with
    | some (a, h) => (some (if a + 4 = off then h else hi32 v), d)
    | none => (some (hi32 v), d)

end Sys2Proof.Machine
end

