-- ==== Sys2Proof/Machine/Keys.lean ====
section
/-! DEFINITION. Key commands, ticket expiry and the random source (chapter 07). -/

namespace Sys2Proof.Machine

/-- Engine 1 runs the key commands (13 Table 13-4). -/
def engKey : Nat := 1

/-- The refusals of a key command, each before the effect. -/
def keyGuards (b : Sub) (l : List (Bool × Nat)) (f : Dev → Dev) (d : Dev) : Dev := eguards b engKey l f d

/-- KEY_GEN. -/
def doKeyGen (b : Sub) (len dest usage keyId : Nat) (d : Dev) : Dev :=
  let t := dest == destTicket
  keyGuards b
    [(keyBadMode (subReq b) false false d, stBAD_MODE),
     (rngBad d || noKwr d, stRNG_FAULT),
     (!t && !kekFree dest d, stBAD_SLOT),
     (!(len == 16 || len == 32) || (!t && badUsage usage len), stBAD_USAGE),
     (t && !ticketRoom d, stNO_TICKET)]
    (fun d =>
      let r := freeBytes len d
      if t then
        let n := newTicket r.1 true (subReq b) r.2
        complete b engKey stOK [n.1] n.2
      else complete b engKey stOK [] (putKek dest .generated usage keyId r.1 r.2)) d

/-- KEY_GEN. -/
def execKeyGen (b : Sub) (len dest usage keyId : Nat) (s : State) : Host.Outcome State Fault Refusal := done s (doKeyGen b len dest usage keyId)

/-- KEY_TICKET (07 R192). -/
def doKeyTicket (b : Sub) (slot : Nat) (fresh : Bool) (d : Dev) : Dev :=
  let k := d.getKek slot
  keyGuards b
    [(keyBadMode (subReq b) false false d, stBAD_MODE),
     (noKwr d, stRNG_FAULT),
     (!kekValid slot d, stBAD_SLOT),
     (!bitAt k.usage uSAK, stBAD_USAGE),
     (fresh && !k.freshLeft, stNOT_FRESH),
     (!ticketRoom d, stNO_TICKET)]
    (fun d =>
      let d := if fresh then d.updKek slot (fun k => { k with freshLeft := false }) else d
      let n := newTicket k.key fresh (subReq b) d
      complete b engKey stOK [n.1] n.2) d

/-- KEY_TICKET. -/
def execKeyTicket (b : Sub) (slot : Nat) (fresh : Bool) (s : State) : Host.Outcome State Fault Refusal := done s (doKeyTicket b slot fresh)

/-- A derivation that may be FRESH: function 0 from a GENERATED or EPHEMERAL source with CTR > DCTR (07 R190, R192). -/
def freshSource (k : Kek) (func ctr : Nat) : Bool :=
  func == 0 && (k.origin == .generated || k.origin == .ephemeral) && decide (k.dctr < ctr)

/-- The derived bytes. -/
def derived (k : Kek) (func kind : Nat) (label : Bytes) (ctr : Nat) (ctx : Bytes) (len : Nat) : Bytes :=
  if func = 0 then derive0 kind label k.key ctr ctx len else kdf8021x k.key label ctx len

/-- KEY_DERIVE (07 R190, R192, R194): KIND public goes to memory at `dest`. Function 1 takes a source key of 16 or 32 bytes, the keys of its
AES-CMAC; a longer one is refused with BAD_USAGE (DESIGN CHOICE, log entry 95). -/
def doKeyDerive (b : Sub) (src func kind : Nat) (label : Bytes) (ctr : Nat) (ctx : Bytes) (len dest usage keyId : Nat) (fresh : Bool) (d : Dev) : Dev :=
  let k := d.getKek src
  let pub := kind == 1
  let t := !pub && dest == destTicket
  let qual := freshSource k func ctr
  keyGuards b
    [(keyBadMode (subReq b) false false d, stBAD_MODE),
     (!pub && noKwr d, stRNG_FAULT),
     (!kekValid src d || (!pub && !t && !kekFree dest d), stBAD_SLOT),
     (!bitAt k.usage uDERIVE || decide (1 < func) || decide (1 < kind) || (pub && func == 1) || decide (64 < len) || decide (32 < label.length)
        || decide (64 < ctx.length) || (t && !(len == 16 || len == 32)) || (!pub && !t && badUsage usage len)
        || (func == 1 && !(k.key.length == 16 || k.key.length == 32)), stBAD_USAGE),
     (fresh && !qual, stNOT_FRESH),
     (t && !ticketRoom d, stNO_TICKET)]
    (fun d =>
      let out := derived k func kind label ctr ctx len
      let raise := fun (c : Bool) (d : Dev) => if c then d.updKek src (fun k => { k with dctr := ctr }) else d
      if pub then
        let w := engWrite (subReq b) dest out d
        complete b engKey (if w.1 then stOK else stMEM_FAULT) (if w.1 then [len] else []) w.2
      else if t then
        let n := newTicket out fresh (subReq b) (raise fresh d)
        complete b engKey stOK [n.1] n.2
      else complete b engKey stOK [] (putKek dest (if qual then .ephemeral else .persistent) usage keyId out (raise qual d))) d

/-- KEY_DERIVE. -/
def execKeyDerive (b : Sub) (src func kind : Nat) (label : Bytes) (ctr : Nat) (ctx : Bytes) (len dest usage keyId : Nat) (fresh : Bool) (s : State) :
    Host.Outcome State Fault Refusal :=
  done s (doKeyDerive b src func kind label ctr ctx len dest usage keyId fresh)

/-- KEY_COMBINE: the destination takes the combined key, and both sources are cleared. -/
def doKeyCombine (b : Sub) (slotA : Nat) (slotB : Option Nat) (hash : Bytes) (dest : Nat) (d : Dev) : Dev :=
  let ok := fun n => decide (n < 1024) && isEphDerive (d.getKek n)
  keyGuards b
    [(keyBadMode (subReq b) false false d, stBAD_MODE),
     (noKwr d, stRNG_FAULT),
     (!ok slotA || (match slotB with | some x => !ok x | none => false) || !kekFree dest d, stBAD_SLOT)]
    (fun d =>
      let kb := match slotB with | some x => (d.getKek x).key | none => []
      let ck := combineKey (d.getKek slotA).key kb (fit 64 hash)
      let d := clearKek slotA d
      let d := match slotB with | some x => clearKek x d | none => d
      let r := freeKeyId d
      complete b engKey stOK [] (putKek dest .ephemeral (2 ^ uDERIVE) r.1 ck r.2)) d

/-- KEY_COMBINE. -/
def execKeyCombine (b : Sub) (slotA : Nat) (slotB : Option Nat) (hash : Bytes) (dest : Nat) (s : State) : Host.Outcome State Fault Refusal :=
  done s (doKeyCombine b slotA slotB hash dest)

/-- A blob or key wrap that fails: event 0x0703, BAD_BLOB, nothing written (07 R196). -/
def badBlob (b : Sub) (fmt wrapSlot : Nat) (data : Bytes) (d : Dev) : Dev :=
  complete b engKey stBAD_BLOB [] (event 0x0703 2 (be 2 wrapSlot ++ be 4 (if fmt = 0 then beAt data 12 4 else 0)) d)

/-- KEY_UNWRAP (07 R195, R196): a KIND 0 key goes to a KEK slot or a ticket, a KIND 1 seed to an LPK slot. What the operands of FMT 1 alone make
impossible, a key of 16 or 32 bytes in an LPK slot or with a USAGE that R189 forbids, is refused before the data is looked at (Table 07-3). -/
def doKeyUnwrap (b : Sub) (fmt : Nat) (data : Bytes) (wrapSlot dest usage : Nat) (d : Dev) : Dev :=
  let w := d.getKek wrapSlot
  let t := dest == destTicket
  let lpk := destLpk dest
  keyGuards b
    [(keyBadMode (subReq b) true true d, stBAD_MODE),
     (!ownsSce (subReq b) d, stNOT_OWNER),
     (noKwr d, stRNG_FAULT),
     (!kekValid wrapSlot d || (match lpk with | some n => fmt == 1 || !lpkFree n d | none => !t && !kekFree dest d), stBAD_SLOT),
     (!bitAt w.usage uUNWRAP || decide (1 < fmt) || (fmt == 1 && !t && lpk.isNone && badUsage usage 16), stBAD_USAGE)]
    (fun d =>
      let got : Option (Nat × Bytes × Nat × Option Nat) :=
        if fmt = 0 then (openBlob w.key wrapSlot data).map (fun x => (x.1, x.2.1, x.2.2.1, some x.2.2.2))
        else (kwUnwrap w.key data).bind (fun k => if k.length = 16 || k.length = 32 then some (0, k, usage, none) else none)
      match got with
      | none => badBlob b fmt wrapSlot data d
      | some (kind, key, use, kid) =>
        let id := match kid with | some i => (i, d) | none => freeKeyId d
        match lpk with
        | some n =>
          if kind = 0 then complete b engKey stBAD_SLOT [] d
          else complete b engKey stOK [] (id.2.updLpk n (fun _ => { valid := true, type := 3, keyId := id.1, key := key }))
        | none =>
          if kind = 1 then complete b engKey stBAD_SLOT [] d
          else if (t && !(key.length == 16 || key.length == 32)) || (!t && badUsage use key.length) then complete b engKey stBAD_USAGE [] d
          else if t then
            if !ticketRoom d then complete b engKey stNO_TICKET [] d
            else
              let n := newTicket key false (subReq b) d
              complete b engKey stOK [n.1] n.2
          else complete b engKey stOK [] (putKek dest .persistent use id.1 key id.2)) d

/-- KEY_UNWRAP. -/
def execKeyUnwrap (b : Sub) (fmt : Nat) (data : Bytes) (wrapSlot dest usage : Nat) (s : State) : Host.Outcome State Fault Refusal :=
  done s (doKeyUnwrap b fmt data wrapSlot dest usage)

/-- KEY_WRAP (07 R197). -/
def doKeyWrap (b : Sub) (src wrapSlot fmt addr : Nat) (d : Dev) : Dev :=
  let k := d.getKek src
  let w := d.getKek wrapSlot
  keyGuards b
    [(keyBadMode (subReq b) true false d, stBAD_MODE),
     (!ownsSce (subReq b) d, stNOT_OWNER),
     (!kekValid src d || !kekValid wrapSlot d || decide (src < 2), stBAD_SLOT),
     (!bitAt k.usage uEXPORT || !bitAt w.usage uWRAP || decide (1 < fmt) || (fmt == 1 && !(k.key.length == 16 || k.key.length == 32)), stBAD_USAGE)]
    (fun d =>
      let out := if fmt = 0 then makeBlob w.key k else kwWrap w.key k.key
      let r := engWrite (subReq b) addr out d
      complete b engKey (if r.1 then stOK else stMEM_FAULT) (if r.1 then [out.length] else []) r.2) d

/-- KEY_WRAP. -/
def execKeyWrap (b : Sub) (src wrapSlot fmt addr : Nat) (s : State) : Host.Outcome State Fault Refusal := done s (doKeyWrap b src wrapSlot fmt addr)

/-- KEY_CLEAR: KEK slots 2 to 1,023 and LPK2 to LPK63. -/
def doKeyClear (b : Sub) (slot : Nat) (d : Dev) : Dev :=
  let lpk := destLpk slot
  keyGuards b
    [(keyBadMode (subReq b) false false d, stBAD_MODE),
     (match lpk with | some n => decide (n < 2) | none => decide (slot < 2) || decide (1024 ≤ slot), stBAD_SLOT)]
    (fun d => complete b engKey stOK [] (match lpk with | some n => clearLpk n d | none => clearKek slot d)) d

/-- KEY_CLEAR. -/
def execKeyClear (b : Sub) (slot : Nat) (s : State) : Host.Outcome State Fault Refusal := done s (doKeyClear b slot)

/-- A ticket is cleared 100 ms after its creation (07 R191). -/
def doTicketExpiry (h : Nat) (d : Dev) : Dev :=
  match d.keys.tickets.find? (fun t => t.handle == h) with
  | none => d
  | some t =>
    event 0x0701 1 (be 1 h ++ be 1 t.requester) { d with keys := { d.keys with tickets := d.keys.tickets.filter (fun t => t.handle != h) } }

/-- TICKET_EXPIRY. -/
def execTicketExpiry (h : Nat) (s : State) : Host.Outcome State Fault Refusal := done s (doTicketExpiry h)

/-- RNG_HEALTH_FAIL (07 R186). -/
def execRngHealthFail (test : Nat) (s : State) : Host.Outcome State Fault Refusal :=
  done s (fun d => event 0x0704 3 (be 1 test) { d with keys := { d.keys with rngFault := true, rngOk := false } })

/-- RNG_RETEST: the start-up tests run again every 1 s while the source fails. -/
def execRngRetest (pass : Bool) (s : State) : Host.Outcome State Fault Refusal :=
  done s (fun d => if d.keys.rngOk then d else { d with keys := { d.keys with rngOk := pass } })

end Sys2Proof.Machine
end

