-- ==== Sys2Proof/Machine/Sce.lean ====
section
/-! DEFINITION. The service cipher: its lock and its jobs (07 R200 to R203). -/

namespace Sys2Proof.Machine

/-- Engine 0 is the service cipher. -/
def engSce : Nat := 0

/-- A job descriptor (07 Table 07-7). -/
def sceJobOf (b : Sub) (x : Bytes) : SceJob :=
  ⟨b, (subReq b), byteAt x 0, byteAt x 1, leAt x 2 2, leAt x 4 4, leAt x 8 8, leAt x 16 8, leAt x 24 8, leAt x 32 4, byteAt x 36, byteAt x 37, sub_ x 40 16⟩

/-- The mode authenticates. -/
def SceJob.aead (j : SceJob) : Bool := j.mode == 4 || j.mode == 5

/-- Two ranges overlap. -/
def rangesMeet (a n b m : Nat) : Bool := n != 0 && m != 0 && decide (a < b + m) && decide (b < a + n)

/-- R202 refuses the descriptor with BAD_JOB. -/
def badJob (j : SceJob) (d : Dev) : Bool :=
  let tag := if j.aead then j.tagLen else 0
  decide (1 < j.op) || decide (5 < j.mode) || decide (1024 ≤ j.keySlot) || !(d.getKek j.keySlot).valid || !bitAt (d.getKek j.keySlot).usage uSCE
    || decide (2 ^ 20 < j.len) || (j.mode == 0 && j.len % 16 != 0)
    || (j.aead && (decide (65536 < j.aadLen) || (j.op == 1 && decide (65536 < j.len))))
    || (j.mode == 4 && (j.tagLen != 16 || j.nonceLen != 12))
    || (j.mode == 5 && (decide (j.nonceLen < 7) || decide (13 < j.nonceLen) || decide (j.tagLen < 4) || decide (16 < j.tagLen) || j.tagLen % 2 != 0
          || decide (256 ^ (15 - j.nonceLen) ≤ j.len)))
    || rangesMeet j.src (j.len + (if j.op = 1 then tag else 0)) j.dst (j.len + (if j.op = 0 then tag else 0))

/-- A refused job leaves its status in LASTST (07 Table 07-20). -/
def sceRefuse (j : SceJob) (status last : Nat) (d : Dev) : Dev :=
  complete j.sub engSce status [] { d with keys := { d.keys with sceLast := last } }

/-- SCE_JOB: the job starts with its key in the key register, or is refused. -/
def doSceJob (b : Sub) (job : Bytes) (d : Dev) : Dev :=
  let j := sceJobOf b job
  if !ownsSce j.requester d then sceRefuse j stNOT_OWNER 3 d
  else if d.keys.sceJob.isSome then complete b engSce stBUSY [] d
  else if badJob j d then sceRefuse j stBAD_JOB 2 d
  else { d with keys := { d.keys with sceJob := some j, sceKey := (d.getKek j.keySlot).key, sceHeld := j.aead && j.op == 1 } }

/-- SCE_JOB. -/
def execSceJob (b : Sub) (job : Bytes) (s : State) : Host.Outcome State Fault Refusal := done s (doSceJob b job)

/-- Ciphertext or plaintext of a job that does not authenticate (07 Table 07-6). -/
def sceCrypt (j : SceJob) (key p : Bytes) : Bytes :=
  match j.mode with
  | 0 => if j.op = 0 then cbcEnc (aesKeys key) (pieces 16 p) j.iv else cbcDec key (pieces 16 p) j.iv
  | 1 => ctr128 key j.iv p
  | 2 => if j.op = 0 then cfbEnc (aesKeys key) (pieces 16 p) j.iv else cfbDec (aesKeys key) (pieces 16 p) j.iv
  | _ => ofb (aesKeys key) (pieces 16 p) j.iv

/-- What a job writes at DST, or `none` on a tag failure (07 R203). -/
def sceOutput (j : SceJob) (key p aad tag : Bytes) : Option Bytes :=
  let nonce := j.iv.take j.nonceLen
  if !j.aead then some (sceCrypt j key p)
  else if j.op = 0 then
    if j.mode = 4 then
      let r := gcmSeal key nonce aad p
      some (r.1 ++ r.2)
    else some (ccmCrypt key nonce p ++ ccmTag key nonce aad p j.tagLen)
  else if j.mode = 4 then gcmOpen key nonce aad p tag
  else
    let q := ccmCrypt key nonce p
    if ccmTag key nonce aad q j.tagLen = tag then some q else none

/-- The engine ends the job it runs: `st` is its completion status, `last` its LASTST. -/
def sceEnd (j : SceJob) (st last : Nat) (d : Dev) : Dev :=
  sceDone j.requester (complete j.sub engSce st [] { d with keys := { d.keys with sceJob := none, sceKey := [], sceHeld := false, sceLast := last } })

/-- LASTST after an address that cannot be reached: Table 07-20 has no code for it, so its value is free. -/
def sceMemFault (j : SceJob) (d : Dev) : Dev :=
  let r := freeNat d
  sceEnd j stMEM_FAULT (r.1 % 256) r.2

/-- A read for a job: local SRAM lies outside its range (07 Table 07-7). -/
def sceRead (j : SceJob) (addr n : Nat) (d : Dev) : Option Bytes × Dev :=
  if n ≠ 0 && decide (addr < 0x40000) then (none, d) else engRead j.requester addr n d

/-- SCE_JOB_COMPLETE (07 R203). -/
def doSceComplete (d : Dev) : Dev :=
  match d.keys.sceJob with
  | none => d
  | some j =>
    let key := d.keys.sceKey
    let p := sceRead j j.src j.len d
    let aad := sceRead j j.aadAdr (if j.aead then j.aadLen else 0) p.2
    let tag := sceRead j (j.src + j.len) (if j.aead && j.op == 1 then j.tagLen else 0) aad.2
    match p.1, aad.1, tag.1 with
    | some pb, some ab, some tb =>
      match sceOutput j key pb ab tb with
      | none => sceEnd j stTAG_FAIL 1 tag.2
      | some out =>
        let w := if j.dst < 0x40000 && !out.isEmpty then (false, tag.2) else engWrite j.requester j.dst out tag.2
        if w.1 then sceEnd j stOK 0 w.2 else sceMemFault j w.2
    | _, _, _ => sceMemFault j tag.2

/-- SCE_JOB_COMPLETE. -/
def execSceJobComplete (s : State) : Host.Outcome State Fault Refusal := done s doSceComplete

/-- SCE_CLAIM: a free lock goes to the writer, and GEN counts the grant (07 R200). -/
def sceClaim (r : Nat) (d : Dev) : Dev :=
  if d.keys.sceOwner ≠ 0 then d else { d with keys := { d.keys with sceOwner := r, sceGen := (d.keys.sceGen + 1) % 65536 } }

/-- SCE_CLAIM. -/
def execSceClaim (r : Nat) (s : State) : Host.Outcome State Fault Refusal := doneReg s (sceClaim r)

/-- RELEASE by the owner. -/
def sceReleaseBy (r : Nat) (d : Dev) : Dev := if d.keys.sceOwner = r then sceRelease 0 d else d

/-- SCE_RELEASE. -/
def execSceRelease (r : Nat) (s : State) : Host.Outcome State Fault Refusal := doneReg s (sceReleaseBy r)

/-- FORCE by the host or by supervisor-level code; a store of task level raises BUSSTORE (16 R446). -/
def sceForceBy (r : Nat) (d : Dev) : Dev :=
  if taskReq r d then taskStore r 0x1D0000 d
  else if r = reqHost || (decide (1 ≤ r) && decide (r ≤ 64)) then sceRelease 4 d else d

/-- SCE_FORCE. -/
def execSceForce (r : Nat) (s : State) : Host.Outcome State Fault Refusal := doneReg s (sceForceBy r)

/-- SCE_LEASE_EXPIRY: the lease does not run while a job runs (07 R201). -/
def execSceLeaseExpiry (s : State) : Host.Outcome State Fault Refusal :=
  done s (fun d => if d.keys.sceJob.isSome then d else sceRelease 1 d)

/-- A write of SCE_LOCK: releases first, then the claim. -/
def sceLockWrite (r v : Nat) (d : Dev) : Dev :=
  let d := when_ (bitAt v 10) (sceForceBy r) d
  let d := when_ (bitAt v 9) (sceReleaseBy r) d
  when_ (bitAt v 8) (sceClaim r) d

end Sys2Proof.Machine
end

