-- ==== Sys2Proof/Machine/RegWrite.lean ====
section
/-! DEFINITION. What a write of every BAR0 register does, block by block (00 R6, 01 R21, 16 Tables 16-1 to 16-12). -/

namespace Sys2Proof.Machine

/-- Replace one half of a 64-bit value. -/
def setHalf (o v old : Nat) : Nat := if o % 8 = 0 then hi32 old * 2 ^ 32 + lo32 v else lo32 old + lo32 v * 2 ^ 32

/-- MOD (14 Table 14-15): any other write of the block disarms MOD_LCREQ. -/
def writeMod (req o v : Nat) (d : Dev) : Dev :=
  let upd := fun (f : Mod → Mod) => modWrite req (fun d => { d with mod := f d.mod }) d
  match o with
  | 0x04 => modReqWrite req v d
  | 0x08 => upd (fun m => { m with refused := m.refused && !bitAt v 1 })
  | 0x10 => lcKeyWrite req v d
  | 0x14 => lcReqWrite req v d
  | 0x18 => upd (fun m => { m with lcArg := setHalf o v m.lcArg })
  | 0x1C => upd (fun m => { m with lcArg := setHalf o v m.lcArg })
  | 0x20 => upd (fun m => { m with lcDone := m.lcDone && !bitAt v 1, lcRefused := m.lcRefused && !bitAt v 2 })
  | 0x30 => modResetWrite req v d
  | 0x34 => upd (fun m => { m with rstCause := fld v 3 0 })
  | 0x38 => upd (fun m => { m with nextMode := fld v 1 0 })
  | 0x3C => zeroiseWrite req v d
  | 0x40 => bistWrite req v d
  | 0x44 => upd (fun m => { m with bistRes := fld v 1 0 + at_ (fld v 31 8) 8 })
  | 0x58 => svnCommit req v d
  | 0x60 => mrExtWrite req v d
  | 0x68 => upd (fun m => { m with mrArg := setHalf o v m.mrArg })
  | 0x6C => upd (fun m => { m with mrArg := setHalf o v m.mrArg })
  | 0x70 => upd (fun m => { m with attSrc := setHalf o v m.attSrc })
  | 0x74 => upd (fun m => { m with attSrc := setHalf o v m.attSrc })
  | 0x78 => upd (fun m => { m with attDst := setHalf o v m.attDst })
  | 0x7C => upd (fun m => { m with attDst := setHalf o v m.attDst })
  | 0x80 => attWrite req v d
  | 0x90 => mrSelWrite req v d
  | _ => disarm req d

/-- A word of the MSI-X table; a vector that is unmasked while pending is signalled (13 R363). -/
def msixWrite (i v : Nat) (d : Dev) : Dev :=
  let new := if i % 4 = 3 then v % 2 ^ 32 % 2 else v % 2 ^ 32
  let d := { d with hif := { d.hif with msix := Tab.set 0 d.hif.msix i (new ^^^ (if i % 4 = 3 then 1 else 0)) } }
  let vec := i / 4
  if i % 4 = 3 && new = 0 && Tab.get false d.hif.pba vec then
    sendMsix vec { d with hif := { d.hif with pba := Tab.set false d.hif.pba vec false } }
  else d

/-- HIF (13 Table 13-11). -/
def writeHif (o v : Nat) (d : Dev) : Dev :=
  if inR o 0x8000 0xFFFF then msixWrite ((o - 0x8000) / 4) v d
  else match o with
    | 0x04 => doHostver v d
    | 0x10 => { d with hif := { d.hif with err := (List.range 6).foldl (fun e i => if bitAt v i then setBit e i false else e) d.hif.err } }
    | 0x14 => { d with hif := { d.hif with errVec := fld v 10 0 + bit_ (bitAt v 31) 31 } }
    | 0x18 => { d with hif := { d.hif with apBase := fld v 10 0 } }
    | _ => d

/-- A write of EVR_ARCCFG: a field outside its range changes neither (15 Table 15-15); the spares held follow SPARES (R438). -/
def arcCfgWrite (v : Nat) (e : Evr) : Evr :=
  let en := fld v 9 0
  let sp := fld v 23 16
  if en < 10 || 1000 < en || sp < 4 then e else { e with arcCfg := en + at_ sp 16, spares := if e.ready then sp - e.retired.length else e.spares }

/-- EVR (15 Table 15-15). -/
def writeEvr (req o v : Nat) (d : Dev) : Dev :=
  let e := d.evr
  match o with
  | 0x0C => { d with evr := { e with winSel := Tab.set 0 e.winSel req (fld v 4 0) } }
  | 0x38 => { d with evr := { e with calSetLo := lo32 v } }
  | 0x3C => calSet (e.calSetLo + fld v 15 0 * 2 ^ 32) d
  | 0x40 => if req = reqJtag then d else { d with evr := { e with postLo := Tab.set 0 e.postLo req (lo32 v) } }
  | 0x44 => if req = reqJtag then d else { d with evr := { e with postHi := Tab.set 0 e.postHi req (lo32 v) } }
  | 0x48 => postWrite req v d
  | 0x50 => { d with evr := arcCfgWrite v e }
  | _ => d

/-- PRF (16 Table 16-9). -/
def writePrf (o v : Nat) (d : Dev) : Dev :=
  if o = 0 then
    let d := { d with prfFreeze := bitAt v 0 }
    if bitAt v 1 then prfClearAll d else d
  else if inR o 0x100 0x13C then
    let i := (o - 0x100) / 4
    let d := { d with prf := Tab.upd {} d.prf i (fun c =>
      { c with event := fld v 5 0, edge := bitAt v 6, en := bitAt v 7, unit := fld v 15 8, sat := c.sat && !bitAt v 16 }) }
    if bitAt v 17 then prfClrOne i d else d
  else d

/-- TMP: the board-sensor ports (17 Table 17-7). -/
def writeTmp (o v : Nat) (d : Dev) : Dev :=
  if inR o 0x100 0x1FF then
    let i := (o - 0x100) / 0x80
    let r := (o - 0x100) % 0x80
    if inR r 0x40 0x5F then d.updI3c i (fun x => { x with data := putBytes (le 4 v) (r - 0x40) x.data })
    else match r with
      | 0 => d.updI3c i (fun x => { x with ctrl := fld v 3 0 })
      | 4 => i3cCmdWrite i v d
      | 8 => d.updI3c i (fun x => { x with done := x.done && !bitAt v 1, nack := x.nack && !bitAt v 2, err := x.err && !bitAt v 3,
                                           ibi := x.ibi && !bitAt v 4, refused := x.refused && !bitAt v 5 })
      | _ => d
  else d

/-- FLS (16 Table 16-11). -/
def writeFls (o v : Nat) (d : Dev) : Dev :=
  let f := d.fls
  if inR o 0x1000 0x1FFF then { d with fls := { f with buf := putBytes (le 4 v) (o - 0x1000) f.buf } }
  else match o with
    | 0 => flsCmdWrite v d
    | 4 => { d with fls := { f with addr := fld v 27 0 } }
    | 8 => { d with fls := { f with len := fld v 12 0 } }
    | 0xC => { d with fls := { f with done := f.done && !bitAt v 1, refused := f.refused && !bitAt v 2, err := f.err && !bitAt v 3 } }
    | _ => d

/-- One lane's region (12 Tables 12-11 to 12-13). -/
def writeLane (l r v : Nat) (d : Dev) : Dev :=
  match r with
  | 0x00 => doLneCtrl l v d
  | 0x04 => doLneTxeq l v d
  | 0x08 => d.updLane l (fun x => { x with werr := x.werr && !bitAt v 5, losChg := x.losChg && !bitAt v 6, lolChg := x.lolChg && !bitAt v 7 })
  | 0x0C => if bitAt v 30 then d.updLane l (fun x => { x with fomMin := x.fom }) else d
  | 0x10 => d.updLane l (fun x => { x with margin := fld v 7 0 })
  | 0x14 => doLneCal l v d
  | 0x18 => doLneTest l v d
  | _ => d

/-- One port's ungated writable bits (12 Table 12-10, 02 Table 02-20). -/
def writePrt (n r v : Nat) (d : Dev) : Dev :=
  match r with
  | 0x004 => d.updPort n (fun p => { p with losChg := p.losChg && !bitAt v 8, loaChg := p.loaChg && !bitAt v 9 })
  | 0x408 => d.updPort n (fun p => { p with noSaValid := p.noSaValid && !bitAt v 31 })
  | _ => d

/-- SLT[p]_DEGCFG: a field out of range changes neither (04 R120). -/
def degCfgWrite (v : Nat) (s : SltPort) : SltPort :=
  let t := fld v 18 0
  let m := fld v 23 20
  if t = 0 || 305175 < t || m < 2 || 10 < m then s else { s with degThr := t, degM := m }

/-- Bits of a mask cleared by ones. -/
def w1c (old v n : Nat) : Nat := (List.range n).foldl (fun e i => if bitAt v i then setBit e i false else e) old

/-- One Slot-mode port's ungated writable bits (03 Table 03-14, 04 Tables 04-5, 04-6). -/
def writeSlt (p r v : Nat) (d : Dev) : Dev :=
  match r with
  | 0x28 => d.updSlt p (fun s => { s with tx := { s.tx with timeout := s.tx.timeout && !bitAt v 3 }, rx := { s.rx with recov := s.rx.recov && !bitAt v 6 } })
  | 0x78 => d.updSlt p (fun s => { s with dfc := { s.dfc with dchg := w1c s.dfc.dchg v 10, fchg := w1c s.dfc.fchg (v / 65536) 10 } })
  | 0xA0 => d.updSlt p (degCfgWrite v)
  | _ => d

/-- The shared Slot-mode registers (04 Table 04-8). -/
def writePm (r v : Nat) (d : Dev) : Dev :=
  match r with
  | 0 => doPmsel v d
  | 4 => { d with slt := { d.slt with pmCfg := fld v 16 0 } }
  | _ => d

/-- STN (06 Table 06-19). -/
def writeStn (o v : Nat) (d : Dev) : Dev :=
  match o with
  | 0x10 => { d with stn := { d.stn with opKeyLo := lo32 v } }
  | 0x14 => { d with stn := { d.stn with opKeyHi := fld v 27 0 } }
  | 0x18 => stnOpWrite v d
  | 0x1C => { d with stn := { d.stn with opCursor := fld v 18 0 } }
  | _ => d

/-- SAS_COLDBASE: bits [11:0] are ignored, and all of it while LOCK is 1 (05 Table 05-13). -/
def coldBaseWrite (o v : Nat) (s : Sas) : Sas := if s.coldLock then s else { s with coldBase := setHalf o v s.coldBase / 4096 * 4096 }

/-- SAS. -/
def writeSas (o v : Nat) (d : Dev) : Dev :=
  match o with
  | 0x100 => statselWrite v d
  | 0x180 => recselWrite v d
  | 0x200 => { d with sas := coldBaseWrite o v d.sas }
  | 0x204 => { d with sas := coldBaseWrite o v d.sas }
  | 0x208 => coldCfgWrite v d
  | _ => d

/-- TCK: INTERVAL and BEATPER, both in range or neither (08 Table 08-6). -/
def writeTck (o v : Nat) (d : Dev) : Dev :=
  let iv := fld v 13 0
  let bp := fld v 19 16
  match o with
  | 0 => if iv < 10 || 10000 < iv || bp < 1 || 10 < bp then d else { d with tck := { d.tck with cfg := iv + at_ bp 16 } }
  | 4 => { d with tck := { d.tck with badRec := d.tck.badRec && !bitAt v 3 } }
  | _ => d

/-- TWN_CFG: PAIRMODE 2 written in SOLO begins heartbeat pairing, and another PAIRMODE ends it (09 R259, R260); PAIRMODE 1 offers a compared pair (R236). -/
def twnCfgWrite (v : Nat) (d : Dev) : Dev :=
  let old := pairMode d
  let d := { d with twn := { d.twn with cfg := fld v 4 0 } }
  if pairMode d = 2 && old ≠ 2 && d.mod.mode = .solo then onSolo d
  else if pairMode d ≠ 2 && old = 2 && d.twn.pair = 2 then twnSet (fun t => { t with pair := 0 }) d
  else if old ≠ 1 then offerPair d else d

/-- TWN (09 Tables 09-12, 09-14). -/
def writeTwn (o v : Nat) (d : Dev) : Dev :=
  let t := d.twn
  match o with
  | 0x00 => twnCfgWrite v d
  | 0x08 => if pairMode d = 0 then { d with twn := { t with partner := setHalf o v t.partner } } else d
  | 0x0C => if pairMode d = 0 then { d with twn := { t with partner := setHalf o v t.partner } } else d
  | 0x10 => nodeAddrWrite v d
  | 0x14 => hpFollow 7 { d with twn := { t with hpCfg := fld v 4 0 } }
  | 0x18 => { d with twn := { t with hbCfg := fld v 6 0 + at_ (fld v 14 8) 8 + at_ (fld v 23 16) 16 } }
  | 0x1C => { d with twn := { t with collect := fld v 8 0 + bit_ (bitAt v 15) 15 } }
  | _ => d

/-- SCE (07 Tables 07-19, 07-20). -/
def writeSce (req o v : Nat) (d : Dev) : Dev :=
  match o with
  | 0 => sceLockWrite req v d
  | 4 => if d.keys.sceOwner = 0 then { d with keys := { d.keys with sceLease := fld v 23 0 } } else d
  | _ => d

/-- KEY (07 Tables 07-17, 07-18). -/
def writeKey (o v : Nat) (d : Dev) : Dev :=
  match o with
  | 0 => { d with keys := { d.keys with rngFault := d.keys.rngFault && !bitAt v 2 } }
  | 0x10 => slotselWrite v d
  | _ => d

/-- BPM (11 Tables 11-11, 11-12). -/
def writeBpm (o v : Nat) (d : Dev) : Dev :=
  match o with
  | 0x10 => qselWrite v d
  | 0x14 => qminWrite v d
  | 0x18 => qcapWrite v d
  | 0x1C => if bitAt v 30 then { d with bpm := { d.bpm with refused := Tab.set false d.bpm.refused d.bpm.qsel false } } else d
  | 0x30 => if bitAt v 31 then { d with bpm := { d.bpm with badValid := false } } else d
  | _ => d

/-- MEM (11 Table 11-13). -/
def writeMem (o v : Nat) (d : Dev) : Dev :=
  match o with
  | 8 => if 1 ≤ fld v 7 0 && fld v 7 0 ≤ 168 then { d with mem := { d.mem with scrub := fld v 7 0 } } else d
  | 0xC => memClearWrite v d
  | _ => d

/-- MEC (11 Tables 11-14, 11-15). -/
def writeMec (o v : Nat) (d : Dev) : Dev :=
  match o with
  | 0 => mecCfgWrite v d
  | 4 => { d with mem := { d.mem with cfgErr := d.mem.cfgErr && !bitAt v 1, alarm := d.mem.alarm && !bitAt v 3 } }
  | 8 => reprovWrite v d
  | 0xC => { d with mem := { d.mem with reprovDone := d.mem.reprovDone && !bitAt v 1, reprovRefused := d.mem.reprovRefused && !bitAt v 2 } }
  | _ => d

/-- The gated registers of Tables 16-4 and 16-5: a direct write has no effect (01 R21). -/
def gatedOff (off : Nat) : Bool :=
  let o := off % 0x10000
  match off / 0x10000 with
  | 0x12 => o % 0x800 == 0 || prtGatedOff (o % 0x800)
  | 0x13 => o % 0x800 == 0 || prtGatedOff (o % 0x800)
  | 0x14 =>
    let r := o % 0x800
    inR r 0x00 0x08 || inR r 0x10 0x14 || inR r 0x2C 0x30 || inR r 0x100 0x1FC || inR r 0x200 0x2FC || inR r 0x300 0x7FC
  | 0x16 => o == 0 || o == 4
  | 0x17 => o == 0
  | 0x19 => o == 0
  | _ => false

/-- An ungated register's write (16 R442, R443): reserved offsets and read-only fields discard it. -/
def regEffect (req off v : Nat) (d : Dev) : Dev :=
  let o := off % 0x10000
  match off / 0x10000 with
  | 0x01 => writeMod req o v d
  | 0x02 => if o = 0 then { d with pins := { d.pins with clkChg := w1c d.pins.clkChg (v / 256) 5 } } else d
  | 0x03 => writeHif o v d
  | 0x04 => writeEvr req o v d
  | 0x05 => writePrf o v d
  | 0x06 => writeTmp o v d
  | 0x07 => writeFls o v d
  | 0x10 => writeLane (o / 0x400) (o % 0x400) v d
  | 0x11 => if o < 0x4000 then writeLane (64 + o / 0x400) (o % 0x400) v d else d
  | 0x12 => writePrt (o / 0x800) (o % 0x800) v d
  | 0x13 => writePrt (32 + o / 0x800) (o % 0x800) v d
  | 0x14 => writeSlt (o / 0x800) (o % 0x800) v d
  | 0x15 => writePm o v d
  | 0x17 => writeStn o v d
  | 0x18 => if o = 0x100 then chnselWrite v d else d
  | 0x19 => writeSas o v d
  | 0x1B => writeTck o v d
  | 0x1C => writeTwn o v d
  | 0x1D => writeSce req o v d
  | 0x1F => writeKey o v d
  | 0x20 => writeBpm o v d
  | 0x21 => writeMem o v d
  | 0x22 => writeMec o v d
  | _ => d

/-- How a write ends. -/
inductive WriteEnd where
  | ok
  /-- An unassigned range (16 R441). -/
  | unassigned
  /-- A gated field (01 R21). -/
  | gated
  /-- A register that task level may not store to (16 R446). -/
  | denied
  deriving DecidableEq, Repr

/-- The registers whose store raises BUSSTORE at task level (16 R446). -/
def taskDenied (off v : Nat) : Bool :=
  [0x10004, 0x10010, 0x10014, 0x10030, 0x1003C, 0x70000].contains off || (off == 0x1D0000 && bitAt v 10)

/-- A write of an aligned DWORD of BAR0. A write to a gated field is recorded at most once per requester and second. -/
def regWrite (req off v : Nat) (d : Dev) : WriteEnd × Dev :=
  if (regVal req off d).isNone then (.unassigned, d)
  else if gatedOff off then
    let d := if req = reqHost then hostErr 0 d else d
    (.gated, eventOnce 0x0804 req 2 (be 1 req ++ be 4 off) d)
  else if taskReq req d && taskDenied off v then (.denied, d)
  else (.ok, regEffect req off v d)

end Sys2Proof.Machine
end

