-- ==== Sys2Proof/Machine/Glonik.lean ====
section
/-! DEFINITION. What every Glonik instruction shares: fetch, exceptions, retirement, sampling, memory operands (10 R276, R280, R281, R285 to R290, R307). -/

namespace Sys2Proof.Machine

/-! ### Exceptions (10 R287 to R289) -/

/-- Cause codes of 10 Table 10-6. -/
def cILLEGAL : Nat := 0
def cPRIV : Nat := 1
def cFETCH : Nat := 2
def cDEFERRED : Nat := 7
def cECC : Nat := 8
def cHANDLE : Nat := 9
def cTRAP : Nat := 10
def cTIMER : Nat := 11

/-! ### Fetch and jumps (10 R276, R281, R286) -/

/-- Instructions stand in local SRAM and shared firmware memory, on 4 bytes. -/
def fetchable (addr : Nat) : Bool :=
  addr % 4 == 0 && (decide (addr + 4 ≤ 0x40000) || (decide (0x10000000 ≤ addr) && decide (addr + 4 ≤ 0x10800000)))

/-- The cause of a failed fetch at an address: FETCH, or ECC for a word with an uncorrectable error. -/
def fetchFault (c addr : Nat) (d : Dev) : Option Nat :=
  let k := d.getCore c
  if !fetchable addr || (!k.super && !taskRegionOk k addr 4 2) then some cFETCH
  else if addr < 0x40000 then (if badIn 6 c addr 4 d then some cECC else none)
  else if badIn 7 0 (offFrom 0x10000000 addr) 4 d then some cECC else none

/-- The program counter goes to `t`; outside local SRAM and shared firmware memory that raises FETCH at the target. -/
def jumpTo (c : Nat) (t : DWord) (d : Dev) : Dev :=
  let d := d.updCore c (fun k => { k with pc := t.setWidth 32 })
  if fetchable t.toNat then d else takeExc c cFETCH t t d

/-! ### Retirement and sampling (10 R306, R307) -/

/-- How an instruction ends. -/
inductive How where
  /-- The next instruction follows. -/
  | next
  /-- Control goes to an address. -/
  | jump (t : DWord)
  /-- An exception with EPC the instruction's address: cause and EVAL. -/
  | exc (cause : Nat) (eval : DWord)
  /-- A posted DDR5 store failed: DEFERRED follows the instruction, with the store's address (10 R288). -/
  | deferred (addr : DWord)
  deriving DecidableEq, Repr

/-- The end of an instruction, with what counters and sampling see: redirection and misprediction, data address, data source. -/
structure Ending where
  how : How := .next
  redirect : Bool := false
  mispredict : Bool := false
  addr : Nat := 0
  src : Nat := 0
  deriving DecidableEq, Repr

/-- PERIOD, a value below 64 taken as 64 (10 Table 10-17), with the jitter of this interval. -/
def Core.period (k : Core) : Nat := Nat.max 64 (fld k.smpCfg.toNat 27 4) + k.smpJitter

/-- One retired instruction: counter events 1 and 3, and the sample's instruction when the count has reached PERIOD. -/
def Core.retire (w : Nat) (e : Ending) (k : Core) : Core :=
  let super := k.super
  let k := coreCount 1 k
  let k := if e.redirect then coreCount 3 k else k
  if !k.smpCfg.getLsbD 0 then k
  else
    let k := if k.smpCfg.getLsbD 1 then k else { k with smpCount := k.smpCount + 1 }
    if k.smpHit then k
    else
      let raised := match e.how with | .exc _ _ => true | _ => false
      { k with lastPc := k.pc.toNat, lastInsn := w, lastAddr := e.addr, lastSrc := e.src, lastCycle := k.cycle,
               lastFlags := super.toNat + raised.toNat * 8 + e.mispredict.toNat * 16,
               smpHit := decide (k.period ≤ k.smpCount) }

/-- The end of the instruction at `pc`. -/
def finish (c : Nat) (e : Ending) (d : Dev) : Dev :=
  let pc := (d.getCore c).pc
  let nx := fun (d : Dev) => d.updCore c (fun k => { k with pc := pc + 4 })
  match e.how with
  | .next => nx d
  | .jump t => jumpTo c t d
  | .exc cause eval => takeExc c cause (pc.setWidth 64) eval d
  | .deferred a => takeExc c cDEFERRED ((pc + 4).setWidth 64) a (nx d)

/-- Core `c` executes the instruction with word `w`: it runs only while the core does. An instruction whose effect has stopped the
core goes no further, nor does an EWAIT that sleeps. -/
def coreRun (c w : Nat) (body : Dev → Ending × Dev) (d : Dev) : Dev :=
  let k := d.getCore c
  if 64 ≤ c || k.run != .running then d
  else match fetchFault c k.pc.toNat d with
    | some cause => takeExc c cause (k.pc.setWidth 64) (k.pc.setWidth 64) d
    | none =>
      let r := body d
      if (r.2.getCore c).run != .running then r.2
      else finish c r.1 (r.2.updCore c (Core.retire w r.1))

/-- An instruction that writes one register from the core's own state. -/
def regOp (c w rd : Nat) (f : Core → DWord) (d : Dev) : Dev :=
  coreRun c w (fun d => ({}, d.updCore c (fun k => k.setReg rd (f k)))) d

/-! ### Memory operands (10 R276, R280, R286, R290) -/

/-- SRC of a sample record (10 Table 10-21). -/
def srcOf (addr n : Nat) (d : Dev) : Nat :=
  match rangeOf addr n d with
  | .sram => 1
  | .shared => 2
  | .window => 3
  | .ddr => if offFrom ddrBase addr < protSize d then 5 else 4
  | .none => 0

/-- Task code needs a region with the right: 0 read, 1 write, 2 fetch (10 R286). -/
def denied (c addr n right : Nat) (d : Dev) : Bool := !(d.getCore c).super && !taskRegionOk (d.getCore c) addr n right

/-- A load of `n` bytes: the bytes, or the cause of its exception. -/
def coreLoad (c addr n : Nat) (d : Dev) : (Option Nat × Bytes) × Dev :=
  if addr % n ≠ 0 then ((some cMISALIGN, []), d)
  else if denied c addr n 0 d then ((some cACCESS, []), d)
  else match rangeOf addr n d with
    | .sram => (if badIn 6 c addr n d then (some cECC, []) else (none, getBytes (d.getCore c).sram addr n), d)
    | .shared => (if badIn 7 0 (offFrom 0x10000000 addr) n d then (some cECC, []) else (none, getBytes d.mem.shared (offFrom 0x10000000 addr) n), d)
    | .window =>
      if n ≠ 4 then ((some cBUSLOAD, []), d)
      else
        let r := regRead (reqCore c) (offFrom 0x40000000 addr) d
        (match r.1 with | some v => (none, le 4 v) | none => (some cBUSLOAD, []), r.2)
    | .ddr =>
      let r := ddrRead (.core c (d.getCore c).super) (offFrom ddrBase addr) n d
      (if r.1.1 = .ok then (none, r.1.2) else (some cBUSLOAD, []), r.2)
    | .none => ((some cBUSLOAD, []), d)

/-- How a store ends. -/
inductive Stored where
  | ok
  | fails (cause : Nat)
  /-- A posted store to DDR5 failed. -/
  | later
  deriving DecidableEq, Repr

/-- Bytes into local SRAM; a whole word repairs it (10 R290). -/
def sramWrite (c addr : Nat) (b : Bytes) (d : Dev) : Dev :=
  (badClear 6 c addr b.length d).updCore c (fun k => { k with sram := putBytes b addr k.sram })

/-- Bytes into shared firmware memory at an offset. -/
def sharedWrite (off : Nat) (b : Bytes) (d : Dev) : Dev :=
  let d := badClear 7 0 off b.length d
  { d with mem := { d.mem with shared := putBytes b off d.mem.shared } }

/-- A store: the register window and the cold range refuse precisely, other DDR5 stores are posted (10 R283, Table 10-15). -/
def coreStore (c addr : Nat) (b : Bytes) (d : Dev) : Stored × Dev :=
  if addr % b.length ≠ 0 then (.fails cMISALIGN, d)
  else if denied c addr b.length 1 d then (.fails cACCESS, d)
  else match rangeOf addr b.length d with
    | .sram => (.ok, sramWrite c addr b d)
    | .shared => (.ok, sharedWrite (offFrom 0x10000000 addr) b d)
    | .window =>
      if b.length ≠ 4 then (.fails cBUSSTORE, d)
      else
        let r := regWrite (reqCore c) (offFrom 0x40000000 addr) (ofLe b) d
        (if r.1 = .ok then .ok else .fails cBUSSTORE, r.2)
    | .ddr =>
      let r := ddrWrite (.core c (d.getCore c).super) (offFrom ddrBase addr) b d
      (if r.1 = .ok then .ok else if inCold d (offFrom ddrBase addr) then .fails cBUSSTORE else .later, r.2)
    | .none => (.fails cBUSSTORE, d)

end Sys2Proof.Machine
end

