-- ==== Sys2Proof/Machine/GlonikAlu.lean ====
section
/-! DEFINITION. Glonik arithmetic: the ALU function codes and the immediate forms (10 Tables 10-3 and 10-4, R278, R279). -/

namespace Sys2Proof.Machine

/-- A three-register ALU instruction. -/
def aluOp (func : Nat) (f : DWord → DWord → DWord) (c rd ra rb : Nat) (d : Dev) : Dev :=
  regOp c (wordR 0 rd ra rb func) rd (fun k => f (k.reg ra) (k.reg rb)) d

/-- A two-register ALU instruction. -/
def aluOne (func : Nat) (f : DWord → DWord) (c rd ra : Nat) (d : Dev) : Dev :=
  regOp c (wordR 0 rd ra 0 func) rd (fun k => f (k.reg ra)) d

/-- A format I instruction with one source register. -/
def immOp (op : Nat) (f : DWord → DWord) (c rd ra imm : Nat) (d : Dev) : Dev :=
  regOp c (wordI op rd ra imm) rd (fun k => f (k.reg ra)) d

/-- ADD: func 0x000. -/
def doAdd (c rd ra rb : Nat) (d : Dev) : Dev := aluOp 0x000 (fun a b => a + b) c rd ra rb d

/-- ADD. -/
def execAdd (c rd ra rb : Nat) (s : State) : Host.Outcome State Fault Refusal := done s (doAdd c rd ra rb)

/-- SUB: func 0x001. -/
def doSub (c rd ra rb : Nat) (d : Dev) : Dev := aluOp 0x001 (fun a b => a - b) c rd ra rb d

/-- SUB. -/
def execSub (c rd ra rb : Nat) (s : State) : Host.Outcome State Fault Refusal := done s (doSub c rd ra rb)

/-- AND: func 0x002. -/
def doAnd (c rd ra rb : Nat) (d : Dev) : Dev := aluOp 0x002 (fun a b => a &&& b) c rd ra rb d

/-- AND. -/
def execAnd (c rd ra rb : Nat) (s : State) : Host.Outcome State Fault Refusal := done s (doAnd c rd ra rb)

/-- OR: func 0x003. -/
def doOr (c rd ra rb : Nat) (d : Dev) : Dev := aluOp 0x003 (fun a b => a ||| b) c rd ra rb d

/-- OR. -/
def execOr (c rd ra rb : Nat) (s : State) : Host.Outcome State Fault Refusal := done s (doOr c rd ra rb)

/-- XOR: func 0x004. -/
def doXor (c rd ra rb : Nat) (d : Dev) : Dev := aluOp 0x004 (fun a b => a ^^^ b) c rd ra rb d

/-- XOR. -/
def execXor (c rd ra rb : Nat) (s : State) : Host.Outcome State Fault Refusal := done s (doXor c rd ra rb)

/-- SLL: func 0x005. -/
def doSll (c rd ra rb : Nat) (d : Dev) : Dev := aluOp 0x005 (fun a b => sll64 a b) c rd ra rb d

/-- SLL. -/
def execSll (c rd ra rb : Nat) (s : State) : Host.Outcome State Fault Refusal := done s (doSll c rd ra rb)

/-- SRL: func 0x006. -/
def doSrl (c rd ra rb : Nat) (d : Dev) : Dev := aluOp 0x006 (fun a b => srl64 a b) c rd ra rb d

/-- SRL. -/
def execSrl (c rd ra rb : Nat) (s : State) : Host.Outcome State Fault Refusal := done s (doSrl c rd ra rb)

/-- SRA: func 0x007. -/
def doSra (c rd ra rb : Nat) (d : Dev) : Dev := aluOp 0x007 (fun a b => sra64 a b) c rd ra rb d

/-- SRA. -/
def execSra (c rd ra rb : Nat) (s : State) : Host.Outcome State Fault Refusal := done s (doSra c rd ra rb)

/-- SLT: func 0x008. -/
def doSlt (c rd ra rb : Nat) (d : Dev) : Dev := aluOp 0x008 (fun a b => flag (a.slt b)) c rd ra rb d

/-- SLT. -/
def execSlt (c rd ra rb : Nat) (s : State) : Host.Outcome State Fault Refusal := done s (doSlt c rd ra rb)

/-- SLTU: func 0x009. -/
def doSltu (c rd ra rb : Nat) (d : Dev) : Dev := aluOp 0x009 (fun a b => flag (a.ult b)) c rd ra rb d

/-- SLTU. -/
def execSltu (c rd ra rb : Nat) (s : State) : Host.Outcome State Fault Refusal := done s (doSltu c rd ra rb)

/-- MUL: func 0x00A. -/
def doMul (c rd ra rb : Nat) (d : Dev) : Dev := aluOp 0x00A (fun a b => a * b) c rd ra rb d

/-- MUL. -/
def execMul (c rd ra rb : Nat) (s : State) : Host.Outcome State Fault Refusal := done s (doMul c rd ra rb)

/-- MULH: func 0x00B. -/
def doMulh (c rd ra rb : Nat) (d : Dev) : Dev := aluOp 0x00B (fun a b => mulh64 a b) c rd ra rb d

/-- MULH. -/
def execMulh (c rd ra rb : Nat) (s : State) : Host.Outcome State Fault Refusal := done s (doMulh c rd ra rb)

/-- MULHU: func 0x00C. -/
def doMulhu (c rd ra rb : Nat) (d : Dev) : Dev := aluOp 0x00C (fun a b => mulhu64 a b) c rd ra rb d

/-- MULHU. -/
def execMulhu (c rd ra rb : Nat) (s : State) : Host.Outcome State Fault Refusal := done s (doMulhu c rd ra rb)

/-- DIV: func 0x00D. -/
def doDiv (c rd ra rb : Nat) (d : Dev) : Dev := aluOp 0x00D (fun a b => div64 a b) c rd ra rb d

/-- DIV. -/
def execDiv (c rd ra rb : Nat) (s : State) : Host.Outcome State Fault Refusal := done s (doDiv c rd ra rb)

/-- DIVU: func 0x00E. -/
def doDivu (c rd ra rb : Nat) (d : Dev) : Dev := aluOp 0x00E (fun a b => divu64 a b) c rd ra rb d

/-- DIVU. -/
def execDivu (c rd ra rb : Nat) (s : State) : Host.Outcome State Fault Refusal := done s (doDivu c rd ra rb)

/-- REM: func 0x00F. -/
def doRem (c rd ra rb : Nat) (d : Dev) : Dev := aluOp 0x00F (fun a b => rem64 a b) c rd ra rb d

/-- REM. -/
def execRem (c rd ra rb : Nat) (s : State) : Host.Outcome State Fault Refusal := done s (doRem c rd ra rb)

/-- REMU: func 0x010. -/
def doRemu (c rd ra rb : Nat) (d : Dev) : Dev := aluOp 0x010 (fun a b => remu64 a b) c rd ra rb d

/-- REMU. -/
def execRemu (c rd ra rb : Nat) (s : State) : Host.Outcome State Fault Refusal := done s (doRemu c rd ra rb)

/-- MIN: func 0x011. -/
def doMin (c rd ra rb : Nat) (d : Dev) : Dev := aluOp 0x011 (fun a b => min64 a b) c rd ra rb d

/-- MIN. -/
def execMin (c rd ra rb : Nat) (s : State) : Host.Outcome State Fault Refusal := done s (doMin c rd ra rb)

/-- MAX: func 0x012. -/
def doMax (c rd ra rb : Nat) (d : Dev) : Dev := aluOp 0x012 (fun a b => max64 a b) c rd ra rb d

/-- MAX. -/
def execMax (c rd ra rb : Nat) (s : State) : Host.Outcome State Fault Refusal := done s (doMax c rd ra rb)

/-- MINU: func 0x013. -/
def doMinu (c rd ra rb : Nat) (d : Dev) : Dev := aluOp 0x013 (fun a b => minu64 a b) c rd ra rb d

/-- MINU. -/
def execMinu (c rd ra rb : Nat) (s : State) : Host.Outcome State Fault Refusal := done s (doMinu c rd ra rb)

/-- MAXU: func 0x014. -/
def doMaxu (c rd ra rb : Nat) (d : Dev) : Dev := aluOp 0x014 (fun a b => maxu64 a b) c rd ra rb d

/-- MAXU. -/
def execMaxu (c rd ra rb : Nat) (s : State) : Host.Outcome State Fault Refusal := done s (doMaxu c rd ra rb)

/-- CLZ: func 0x015. -/
def doClz (c rd ra : Nat) (d : Dev) : Dev := aluOne 0x015 clz64 c rd ra d

/-- CLZ. -/
def execClz (c rd ra : Nat) (s : State) : Host.Outcome State Fault Refusal := done s (doClz c rd ra)

/-- POPC: func 0x016. -/
def doPopc (c rd ra : Nat) (d : Dev) : Dev := aluOne 0x016 popc64 c rd ra d

/-- POPC. -/
def execPopc (c rd ra : Nat) (s : State) : Host.Outcome State Fault Refusal := done s (doPopc c rd ra)

/-- BSWAP: func 0x017. -/
def doBswap (c rd ra : Nat) (d : Dev) : Dev := aluOne 0x017 bswap64 c rd ra d

/-- BSWAP. -/
def execBswap (c rd ra : Nat) (s : State) : Host.Outcome State Fault Refusal := done s (doBswap c rd ra)

/-- ADDI: OP 0x01. -/
def doAddi (c rd ra imm : Nat) (d : Dev) : Dev := immOp 0x01 (fun a => a + simm imm) c rd ra imm d

/-- ADDI. -/
def execAddi (c rd ra imm : Nat) (s : State) : Host.Outcome State Fault Refusal := done s (doAddi c rd ra imm)

/-- ANDI: OP 0x02. -/
def doAndi (c rd ra imm : Nat) (d : Dev) : Dev := immOp 0x02 (fun a => a &&& zimm imm) c rd ra imm d

/-- ANDI. -/
def execAndi (c rd ra imm : Nat) (s : State) : Host.Outcome State Fault Refusal := done s (doAndi c rd ra imm)

/-- ORI: OP 0x03. -/
def doOri (c rd ra imm : Nat) (d : Dev) : Dev := immOp 0x03 (fun a => a ||| zimm imm) c rd ra imm d

/-- ORI. -/
def execOri (c rd ra imm : Nat) (s : State) : Host.Outcome State Fault Refusal := done s (doOri c rd ra imm)

/-- XORI: OP 0x04. -/
def doXori (c rd ra imm : Nat) (d : Dev) : Dev := immOp 0x04 (fun a => a ^^^ zimm imm) c rd ra imm d

/-- XORI. -/
def execXori (c rd ra imm : Nat) (s : State) : Host.Outcome State Fault Refusal := done s (doXori c rd ra imm)

/-- SLTI: OP 0x05. -/
def doSlti (c rd ra imm : Nat) (d : Dev) : Dev := immOp 0x05 (fun a => flag (a.slt (simm imm))) c rd ra imm d

/-- SLTI. -/
def execSlti (c rd ra imm : Nat) (s : State) : Host.Outcome State Fault Refusal := done s (doSlti c rd ra imm)

/-- SLTIU: OP 0x06. -/
def doSltiu (c rd ra imm : Nat) (d : Dev) : Dev := immOp 0x06 (fun a => flag (a.ult (simm imm))) c rd ra imm d

/-- SLTIU. -/
def execSltiu (c rd ra imm : Nat) (s : State) : Host.Outcome State Fault Refusal := done s (doSltiu c rd ra imm)

/-- HINS1: OP 0x09. -/
def doHins1 (c rd ra imm : Nat) (d : Dev) : Dev := immOp 0x09 (fun a => hins64 a 16 imm) c rd ra imm d

/-- HINS1. -/
def execHins1 (c rd ra imm : Nat) (s : State) : Host.Outcome State Fault Refusal := done s (doHins1 c rd ra imm)

/-- HINS2: OP 0x0A. -/
def doHins2 (c rd ra imm : Nat) (d : Dev) : Dev := immOp 0x0A (fun a => hins64 a 32 imm) c rd ra imm d

/-- HINS2. -/
def execHins2 (c rd ra imm : Nat) (s : State) : Host.Outcome State Fault Refusal := done s (doHins2 c rd ra imm)

/-- HINS3: OP 0x0B. -/
def doHins3 (c rd ra imm : Nat) (d : Dev) : Dev := immOp 0x0B (fun a => hins64 a 48 imm) c rd ra imm d

/-- HINS3. -/
def execHins3 (c rd ra imm : Nat) (s : State) : Host.Outcome State Fault Refusal := done s (doHins3 c rd ra imm)

/-- SLLI: SHI with imm16 [7:6] = 0. -/
def doSlli (c rd ra sh : Nat) (d : Dev) : Dev := immOp 0x07 (fun a => a <<< (sh % 64)) c rd ra (0 + sh % 64) d

/-- SLLI. -/
def execSlli (c rd ra sh : Nat) (s : State) : Host.Outcome State Fault Refusal := done s (doSlli c rd ra sh)

/-- SRLI: SHI with imm16 [7:6] = 1. -/
def doSrli (c rd ra sh : Nat) (d : Dev) : Dev := immOp 0x07 (fun a => a >>> (sh % 64)) c rd ra (64 + sh % 64) d

/-- SRLI. -/
def execSrli (c rd ra sh : Nat) (s : State) : Host.Outcome State Fault Refusal := done s (doSrli c rd ra sh)

/-- SRAI: SHI with imm16 [7:6] = 2. -/
def doSrai (c rd ra sh : Nat) (d : Dev) : Dev := immOp 0x07 (fun a => a.sshiftRight (sh % 64)) c rd ra (128 + sh % 64) d

/-- SRAI. -/
def execSrai (c rd ra sh : Nat) (s : State) : Host.Outcome State Fault Refusal := done s (doSrai c rd ra sh)

/-- LUI: rd := sext(imm16) x 2^16. -/
def doLui (c rd imm : Nat) (d : Dev) : Dev := regOp c (wordI 0x08 rd 0 imm) rd (fun _ => simm imm <<< 16) d

/-- LUI. -/
def execLui (c rd imm : Nat) (s : State) : Host.Outcome State Fault Refusal := done s (doLui c rd imm)

end Sys2Proof.Machine
end

