-- ==== Sys2Proof/Machine/GlonikCtl.lean ====
section
/-! DEFINITION. Glonik branches, jumps, control registers, system instructions and illegal words (10 R277, R281, R282, R285, R287, R303). -/

namespace Sys2Proof.Machine

/-! ### Branches and jumps (10 R281) -/

/-- A branch on `f ra rb`: taken backward branches are predicted taken, forward ones not taken. -/
def branchOp (op : Nat) (f : DWord → DWord → Bool) (c ra rb disp : Nat) (d : Dev) : Dev :=
  coreRun c (wordI op ra rb disp) (fun d =>
    let k := d.getCore c
    if f (k.reg ra) (k.reg rb) then
      ({ how := .jump (k.pc.setWidth 64 + disp4 16 disp), redirect := !backward 16 disp, mispredict := !backward 16 disp }, d)
    else ({ redirect := backward 16 disp, mispredict := backward 16 disp }, d)) d

/-- BEQ: ra and rb equal. -/
def doBeq (c ra rb disp : Nat) (d : Dev) : Dev := branchOp 0x20 (fun a b => a == b) c ra rb disp d

/-- BEQ. -/
def execBeq (c ra rb disp : Nat) (s : State) : Host.Outcome State Fault Refusal := done s (doBeq c ra rb disp)

/-- BNE: ra and rb not equal. -/
def doBne (c ra rb disp : Nat) (d : Dev) : Dev := branchOp 0x21 (fun a b => a != b) c ra rb disp d

/-- BNE. -/
def execBne (c ra rb disp : Nat) (s : State) : Host.Outcome State Fault Refusal := done s (doBne c ra rb disp)

/-- BLT: ra and rb less, signed. -/
def doBlt (c ra rb disp : Nat) (d : Dev) : Dev := branchOp 0x22 (fun a b => a.slt b) c ra rb disp d

/-- BLT. -/
def execBlt (c ra rb disp : Nat) (s : State) : Host.Outcome State Fault Refusal := done s (doBlt c ra rb disp)

/-- BGE: ra and rb greater or equal, signed. -/
def doBge (c ra rb disp : Nat) (d : Dev) : Dev := branchOp 0x23 (fun a b => !a.slt b) c ra rb disp d

/-- BGE. -/
def execBge (c ra rb disp : Nat) (s : State) : Host.Outcome State Fault Refusal := done s (doBge c ra rb disp)

/-- BLTU: ra and rb less, unsigned. -/
def doBltu (c ra rb disp : Nat) (d : Dev) : Dev := branchOp 0x24 (fun a b => a.ult b) c ra rb disp d

/-- BLTU. -/
def execBltu (c ra rb disp : Nat) (s : State) : Host.Outcome State Fault Refusal := done s (doBltu c ra rb disp)

/-- BGEU: ra and rb greater or equal, unsigned. -/
def doBgeu (c ra rb disp : Nat) (d : Dev) : Dev := branchOp 0x25 (fun a b => !a.ult b) c ra rb disp d

/-- BGEU. -/
def execBgeu (c ra rb disp : Nat) (s : State) : Host.Outcome State Fault Refusal := done s (doBgeu c ra rb disp)

/-- The address of the next instruction, as a link. -/
def Core.link (k : Core) : DWord := (k.pc + 4).setWidth 64

/-- JAL: g31 := PC + 4; PC := PC + 4 x sext(disp26). -/
def doJal (c disp : Nat) (d : Dev) : Dev :=
  coreRun c (wordJ 0x26 disp) (fun d =>
    let k := d.getCore c
    ({ how := .jump (k.pc.setWidth 64 + disp4 26 disp) }, d.updCore c (fun k => k.setReg 31 k.link))) d

/-- JAL. -/
def execJal (c disp : Nat) (s : State) : Host.Outcome State Fault Refusal := done s (doJal c disp)

/-- JALR: rd := PC + 4; PC := (ra + sext(imm16)) with bits [1:0] cleared; ra is read before rd is written. -/
def doJalr (c rd ra imm : Nat) (d : Dev) : Dev :=
  coreRun c (wordI 0x27 rd ra imm) (fun d =>
    let k := d.getCore c
    ({ how := .jump ((k.reg ra + simm imm) &&& ~~~ (3 : DWord)), redirect := true }, d.updCore c (fun k => k.setReg rd k.link))) d

/-- JALR. -/
def execJalr (c rd ra imm : Nat) (s : State) : Host.Outcome State Fault Refusal := done s (doJalr c rd ra imm)

/-! ### Control registers (10 R282, R285, R303, Table 10-9) -/

/-- EVPEND with its level bits: MBOX and TIMER (10 Table 10-13). -/
def Core.events (k : Core) : DWord :=
  k.evPend ||| (if k.mailbox.isEmpty then 0 else 1) ||| (if k.timeCmp.toNat ≤ k.cycle then 4 else 0)

/-- The value of a control register. -/
def csrValue (c num : Nat) (k : Core) : DWord :=
  if 0x020 ≤ num && num ≤ 0x027 then Tab.get 0 k.trBase (num - 0x020)
  else if 0x028 ≤ num && num ≤ 0x02F then Tab.get 0 k.trLim (num - 0x028)
  else if 0x050 ≤ num && num ≤ 0x057 then Tab.get 0 k.pcSel (num - 0x050)
  else if 0x058 ≤ num && num ≤ 0x05F then BitVec.ofNat 64 (Tab.get 0 k.pcnt (num - 0x058))
  else if 0x062 ≤ num && num ≤ 0x065 then
    (match k.samples with | [] => 0 | r :: _ => BitVec.ofNat 64 (leAt r (8 * (num - 0x062)) 8))
  else match num with
    | 0x000 => k.status | 0x001 => k.estatus | 0x002 => k.epc | 0x003 => k.ecause | 0x004 => k.eval | 0x005 => k.evbase
    | 0x006 => k.scratch0 | 0x007 => k.scratch1 | 0x008 => k.taskCap | 0x010 => BitVec.ofNat 64 c
    | 0x011 => BitVec.ofNat 64 k.cycle | 0x012 => k.timeCmp | 0x040 => k.events | 0x041 => k.evSub
    | 0x060 => k.smpCfg | 0x061 => BitVec.ofNat 64 (smpStat k) | _ => 0

/-- The bits that a control register holds (10 Tables 10-9, 10-16, 10-17). -/
def csrMask (num : Nat) : DWord :=
  if 0x020 ≤ num && num ≤ 0x027 then 0xFFFFFFFFFFFFF000
  else if 0x028 ≤ num && num ≤ 0x02F then 0xFFFFFFFFFFFFF007
  else if 0x050 ≤ num && num ≤ 0x057 then 0xFFF
  else if 0x058 ≤ num && num ≤ 0x05F then 0xFFFFFFFFFFFF
  else match num with
    | 0x000 => 7 | 0x001 => 7 | 0x003 => 0xF | 0x005 => 0xFFFFFFFFFFFFF000 | 0x008 => 0x7F | 0x041 => 0xE70 | 0x060 => 0xFFFFFF7
    | _ => BitVec.allOnes 64

/-- A written value takes its place; `ones` are the bits of ra, which clear SAT of a PCSEL (10 Table 10-16). -/
def csrStore (num : Nat) (v ones : DWord) (k : Core) : Core :=
  let v := v &&& csrMask num
  if 0x020 ≤ num && num ≤ 0x027 then { k with trBase := Tab.set 0 k.trBase (num - 0x020) v }
  else if 0x028 ≤ num && num ≤ 0x02F then { k with trLim := Tab.set 0 k.trLim (num - 0x028) v }
  else if 0x050 ≤ num && num ≤ 0x057 then
    let sat := (Tab.get 0 k.pcSel (num - 0x050)).getLsbD 10 && !ones.getLsbD 10
    { k with pcSel := Tab.set 0 k.pcSel (num - 0x050) ((v &&& 0xBFF) ||| (if sat then 0x400 else 0)) }
  else if 0x058 ≤ num && num ≤ 0x05F then { k with pcnt := Tab.set 0 k.pcnt (num - 0x058) v.toNat }
  else match num with
    | 0x000 => k.setStatus v | 0x001 => { k with estatus := v } | 0x002 => { k with epc := v }
    | 0x003 => { k with ecause := v } | 0x004 => { k with eval := v } | 0x005 => { k with evbase := v }
    | 0x006 => { k with scratch0 := v } | 0x007 => { k with scratch1 := v } | 0x008 => { k with taskCap := v }
    | 0x012 => { k with timeCmp := v } | 0x041 => { k with evSub := v }
    | 0x060 => { k with smpCfg := v, smpCount := 0, smpHit := false } | _ => k

/-- A new sampling interval draws its jitter, a free value of 0 to 63, while SMPCFG.JITTER is 1 (10 R307). -/
def drawJitter (c : Nat) (d : Dev) : Dev :=
  if (d.getCore c).smpCfg.getLsbD 2 then
    let r := freeNat d
    r.2.updCore c (fun k => { k with smpJitter := r.1 % 64 })
  else d.updCore c (fun k => { k with smpJitter := 0 })

/-- Task level may read COREID and CYCLE, and EVPEND and PCNT0-7 where TASKCAP grants them (10 R285). -/
def csrTaskOk (num : Nat) (write : Bool) (k : Core) : Bool :=
  !write && (num == 0x010 || num == 0x011 || (num == 0x040 && k.taskCap.getLsbD 5)
    || (decide (0x058 ≤ num) && decide (num ≤ 0x05F) && k.taskCap.getLsbD 6))

/-- An operation writes the register: a read-only one is only read. -/
def csrWrites (kind num : Nat) : Bool := kind != 0 && !csrReadOnly num

/-- A write of `v` to register `num`, where `kind` writes it (`x` is the operand); a write of SMPCFG starts a new interval. -/
def csrPut (kind c num : Nat) (v x : DWord) (d : Dev) : Dev :=
  if csrWrites kind num then when_ (num == 0x060) (drawJitter c) (d.updCore c (csrStore num v x)) else d

/-- A read of SMPDATA takes the sample. -/
def csrTake (c num : Nat) (d : Dev) : Dev := if num = 0x065 then d.updCore c (fun k => { k with samples := k.samples.drop 1 }) else d

/-- The operation: refused as ILLEGAL or PRIV, or the register is read and written. -/
def csrBody (kind c rd ra num w : Nat) (d : Dev) : Ending × Dev :=
  let k := d.getCore c
  if !csrListed num || (kind != 0 && csrReadOnly num && ra % 32 != 0) then ({ how := .exc cILLEGAL (BitVec.ofNat 64 w) }, d)
  else if !k.super && !csrTaskOk num (csrWrites kind num) k then ({ how := .exc cPRIV (BitVec.ofNat 64 w) }, d)
  else
    let old := csrValue c num k
    let x := k.reg ra
    let v := if kind = 1 then x else if kind = 2 then old ||| x else old &&& ~~~ x
    ({}, (csrTake c num (csrPut kind c num v x d)).updCore c (fun k => k.setReg rd old))

/-- A control register instruction, `kind` 0 CSRR, 1 CSRW, 2 CSRS, 3 CSRC. -/
def csrOp (kind c rd ra num : Nat) (d : Dev) : Dev :=
  coreRun c (wordCsr kind rd ra num) (csrBody kind c rd ra (num % 4096) (wordCsr kind rd ra num)) d

/-- CSRR. -/
def doCsrr (c rd num : Nat) (d : Dev) : Dev := csrOp 0 c rd 0 num d

/-- CSRR. -/
def execCsrr (c rd num : Nat) (s : State) : Host.Outcome State Fault Refusal := done s (doCsrr c rd num)

/-- CSRW. -/
def doCsrw (c rd ra num : Nat) (d : Dev) : Dev := csrOp 1 c rd ra num d

/-- CSRW. -/
def execCsrw (c rd ra num : Nat) (s : State) : Host.Outcome State Fault Refusal := done s (doCsrw c rd ra num)

/-- CSRS. -/
def doCsrs (c rd ra num : Nat) (d : Dev) : Dev := csrOp 2 c rd ra num d

/-- CSRS. -/
def execCsrs (c rd ra num : Nat) (s : State) : Host.Outcome State Fault Refusal := done s (doCsrs c rd ra num)

/-- CSRC. -/
def doCsrc (c rd ra num : Nat) (d : Dev) : Dev := csrOp 3 c rd ra num d

/-- CSRC. -/
def execCsrc (c rd ra num : Nat) (s : State) : Host.Outcome State Fault Refusal := done s (doCsrc c rd ra num)

/-! ### ERET, TRAP and illegal words (10 R277, R287) -/

/-- ERET: STATUS := ESTATUS and PC := EPC; PRIV at task level. -/
def doEret (c : Nat) (d : Dev) : Dev :=
  let w := wordR 0x31 0 0 0 0
  coreRun c w (fun d =>
    let k := d.getCore c
    if !k.super then ({ how := .exc cPRIV (BitVec.ofNat 64 w) }, d)
    else ({ how := .jump ((k.epc.setWidth 32).setWidth 64) }, d.updCore c (fun k => k.setStatus k.estatus))) d

/-- ERET. -/
def execEret (c : Nat) (s : State) : Host.Outcome State Fault Refusal := done s (doEret c)

/-- TRAP: exception 10 with the 15-bit code in EVAL. -/
def doTrap (c code : Nat) (d : Dev) : Dev :=
  coreRun c (wordTrap code) (fun d => ({ how := .exc cTRAP (BitVec.ofNat 64 (code % 2 ^ 15)) }, d)) d

/-- TRAP. -/
def execTrap (c code : Nat) (s : State) : Host.Outcome State Fault Refusal := done s (doTrap c code)

/-- FENCE: an instruction's accesses are complete and visible when its step ends, so the core only goes on (10 R284). -/
def doFence (c : Nat) (d : Dev) : Dev := coreRun c wordFence (fun d => ({}, d)) d

/-- ILLEGAL: the core meets a word that is no instruction. FENCE, an instruction of which the table has no row, is executed (log entry 62). -/
def doIllegal (c w : Nat) (d : Dev) : Dev :=
  let w := w % 2 ^ 32
  if w = wordFence then doFence c d
  else if legalWord w then d else coreRun c w (fun d => ({ how := .exc cILLEGAL (BitVec.ofNat 64 w) }, d)) d

/-- ILLEGAL. -/
def execIllegal (c w : Nat) (s : State) : Host.Outcome State Fault Refusal := done s (doIllegal c w)

end Sys2Proof.Machine
end

