-- ==== Sys2Proof/Machine/GlonikDev.lean ====
section
/-! DEFINITION. Glonik device instructions: handles, cells, messages (10 R291 to R298, Table 10-10). -/

namespace Sys2Proof.Machine

/-! ### Shared operations (10 R285, R288, R291) -/

/-- Status codes of 10 Table 10-7. -/
def dOK : Nat := 0
def dEMPTY : Nat := 1
def dFULL : Nat := 2
def dNOT_OWNED : Nat := 3
def dBUSY : Nat := 4
def dBAD_MODE : Nat := 5
def dBAD_DEST : Nat := 6
def dNOT_OWNER : Nat := 7
def dBAD_COMMAND : Nat := 8
def dBAD_HANDLE : Nat := 9

/-- A device instruction; task level needs its TASKCAP bit, HOPEN needs supervisor level (10 R285). -/
def devOp (dop : Nat) (cap : Option Nat) (c rd ra rb imm : Nat) (body : Dev → Ending × Dev) (d : Dev) : Dev :=
  let w := wordD dop rd ra rb imm
  coreRun c w (fun d =>
    let k := d.getCore c
    let granted := k.super || (match cap with | some b => k.taskCap.getLsbD b | none => false)
    if granted then body d else ({ how := .exc cPRIV (BitVec.ofNat 64 w), src := 6 }, d)) d

/-- The instruction completes with a value in rd. -/
def devGive (c rd addr : Nat) (v : DWord) (d : Dev) : Ending × Dev := ({ addr := addr, src := 6 }, d.updCore c (fun k => k.setReg rd v))

/-- The instruction completes with a status in rd. -/
def devStat (c rd addr st : Nat) (d : Dev) : Ending × Dev := devGive c rd addr (BitVec.ofNat 64 st) d

/-- The instruction raises an exception. -/
def devExc (addr cause : Nat) (eval : DWord) (d : Dev) : Ending × Dev := ({ how := .exc cause eval, addr := addr, src := 6 }, d)

/-- A memory operand's first checks: alignment and task region (right 0 read, 1 write). -/
def opPre (c a n align right : Nat) (d : Dev) : Option Nat :=
  if a % align ≠ 0 then some cMISALIGN else if denied c a n right d then some cACCESS else none

/-- A memory operand's later checks: local SRAM, and no uncorrectable error where it is read. -/
def opPost (c a n : Nat) (read : Bool) (d : Dev) : Option Nat :=
  if 0x40000 < a + n then some cBUSLOAD else if read && badIn 6 c a n d then some cECC else none

/-- An instruction whose operand of `n` bytes at `a` passes every check. -/
def withOp (c a n align right : Nat) (f : Dev → Ending × Dev) (d : Dev) : Ending × Dev :=
  match opPre c a n align right d with
  | some x => devExc a x (BitVec.ofNat 64 a) d
  | none => match opPost c a n (right == 0) d with
    | some x => devExc a x (BitVec.ofNat 64 a) d
    | none => f d

/-! ### Table handles (10 R292 to R294, Table 10-11) -/

/-- Entries and words of a handle kind. -/
def kindEntries (k : Nat) : Nat := nth 0 [0, 131072, 131072, 65536, 524288, 16384] k
def kindWords (k : Nat) : Nat := nth 0 [0, 9, 8, 8, 2, 2] k

/-- HOPEN's descriptor is refused; a KIND or COUNT of 0 closes the handle. -/
def badHandle (v : Nat) : Bool :=
  let kind := fld v 3 0
  let count := fld v 51 32
  fld v 11 6 != 0 || fld v 63 52 != 0 || decide (6 ≤ kind)
    || (kind != 0 && count != 0 && (decide (kindEntries kind < fld v 31 12 + count) || (bitAt v 5 && kind != 4)))

/-- HOPEN. -/
def doHopen (c rd ra h : Nat) (d : Dev) : Dev :=
  devOp 0 none c rd ra 0 h (fun d =>
    let v := ((d.getCore c).reg ra).toNat
    if badHandle v then devStat c rd 0 dBAD_HANDLE d
    else
      let x := if fld v 3 0 = 0 || fld v 51 32 = 0 then none else some ⟨fld v 3 0, bitAt v 4, bitAt v 5, fld v 31 12, fld v 51 32⟩
      devStat c rd 0 dOK (d.updCore c (fun k => { k with handles := Tab.set none k.handles (h % 64) x }))) d

/-- HOPEN. -/
def execHopen (c rd ra h : Nat) (s : State) : Host.Outcome State Fault Refusal := done s (doHopen c rd ra h)

/-- The open handle. -/
def Core.handle (k : Core) (h : Nat) : Option Handle := Tab.get none k.handles (h % 64)

/-- The entry lies in the handle's range. -/
def Handle.holds (x : Handle) (e : Nat) : Bool := decide (x.base ≤ e) && decide (e < x.base + x.count)

/-- EVAL of a HANDLE exception: handle number in bits [63:56], entry in bits [19:0]. -/
def handleEval (h e : Nat) : DWord := BitVec.ofNat 64 (at_ (h % 64) 56 + e % 2 ^ 20)

/-- The 16 bytes of an SCI map entry (02 Table 02-8), CHID least significant byte first, as the station entry holds it (DESIGN CHOICE, log entry
68). -/
def sciBytes (x : Option SciEnt) : Bytes :=
  match x with
  | some e => be 8 e.sci ++ le 2 e.chid ++ [1] ++ zeros 5
  | none => zeros 16

/-- The bytes of a table entry behind a handle; SA records end with the state's byte, counters are eight words. -/
def entryBytes (kind e : Nat) (d : Dev) : Bytes :=
  match kind with
  | 1 => slotBytes e d ++ le 8 (d.tab.getSa e).state.code
  | 2 => ((List.range 8).map (fun i => le 8 (Tab.get 0 (d.getLive e).ctr i))).flatten
  | 3 => chanBytes (d.tab.getChn e) (d.getChl e)
  | 4 => (match d.tab.getStn e with | some x => x.bytes | none => zeros 16)
  | 5 => sciBytes (Tab.get none (d.tab.sciMap (e / 8192)) (e % 8192))
  | _ => []

/-- HRD: word rb of entry ra. -/
def doHrd (c rd ra rb h : Nat) (d : Dev) : Dev :=
  devOp 1 (some 0) c rd ra rb h (fun d =>
    let k := d.getCore c
    let e := (k.reg ra).toNat
    let j := (k.reg rb).toNat
    match k.handle h with
    | some x =>
      if x.read && x.holds e && decide (j < kindWords x.kind) then
        devGive c rd 0 (BitVec.ofNat 64 (leAt (entryBytes x.kind e d) (8 * j) 8)) d
      else devExc 0 cHANDLE (handleEval h e) d
    | none => devExc 0 cHANDLE (handleEval h e) d) d

/-- HRD. -/
def execHrd (c rd ra rb h : Nat) (s : State) : Host.Outcome State Fault Refusal := done s (doHrd c rd ra rb h)

/-- HSNAP: every word of entry rb to local address ra. A closed handle has no words: its operand is held to alignment alone. -/
def doHsnap (c rd ra rb h : Nat) (d : Dev) : Dev :=
  devOp 2 (some 0) c rd ra rb h (fun d =>
    let k := d.getCore c
    let a := (k.reg ra).toNat
    let e := (k.reg rb).toNat
    let n := match k.handle h with | some x => 8 * kindWords x.kind | none => 8
    match opPre c a n 8 1 d with
    | some x => devExc a x (BitVec.ofNat 64 a) d
    | none => match k.handle h with
      | some x =>
        if x.read && x.holds e then
          (match opPost c a n false d with
          | some y => devExc a y (BitVec.ofNat 64 a) d
          | none => devStat c rd a dOK (sramWrite c a (entryBytes x.kind e d) d))
        else devExc a cHANDLE (handleEval h e) d
      | none => devExc a cHANDLE (handleEval h e) d) d

/-- HSNAP. -/
def execHsnap (c rd ra rb h : Nat) (s : State) : Host.Outcome State Fault Refusal := done s (doHsnap c rd ra rb h)

/-- A search's result: the index in the handle's range, or all ones. -/
def searchGive (x : Handle) (r : Option Nat) : DWord :=
  match r with
  | some i => if x.holds i then BitVec.ofNat 64 i else BitVec.allOnes 64
  | none => BitVec.allOnes 64

/-- HSRCH: the live entry of the key in ra. The spec names no entry for its HANDLE exception: a free value. -/
def doHsrch (c rd ra rb h : Nat) (d : Dev) : Dev :=
  devOp 3 (some 0) c rd ra rb h (fun d =>
    let k := d.getCore c
    let v := (k.reg ra).toNat
    let bad := fun (d : Dev) =>
      let r := freeNat d
      devExc 0 cHANDLE (handleEval h r.1) r.2
    match k.handle h with
    | some x => if x.search then devGive c rd 0 (searchGive x (stnFind (withFlushes d d.tab) (fld (k.reg rb).toNat 2 0) (fld v 59 48) (fld v 47 0))) d else bad d
    | none => bad d) d

/-- HSRCH. -/
def execHsrch (c rd ra rb h : Nat) (s : State) : Host.Outcome State Fault Refusal := done s (doHsrch c rd ra rb h)

/-- HNEXT: the first live entry at or above max(ra, BASE) in that index's partition and the handle's range. -/
def doHnext (c rd ra rb h : Nat) (d : Dev) : Dev :=
  devOp 4 (some 0) c rd ra rb h (fun d =>
    let k := d.getCore c
    let v := (k.reg rb).toNat
    let e := (k.reg ra).toNat
    match k.handle h with
    | some x =>
      if x.search then
        let start := Nat.max e x.base
        let r := (stnNextFrom (withFlushes d d.tab) (start / 65536) start (if bitAt v 12 then some (fld v 11 0) else none)).map (fun r => r.1)
        devGive c rd 0 (searchGive x r) d
      else devExc 0 cHANDLE (handleEval h e) d
    | none => devExc 0 cHANDLE (handleEval h e) d) d

/-- HNEXT. -/
def execHnext (c rd ra rb h : Nat) (s : State) : Host.Outcome State Fault Refusal := done s (doHnext c rd ra rb h)

/-! ### Cells (10 R295, 11 R312 to R320) -/

/-- CALLOC: a cell number, or all ones. -/
def doCalloc (c rd : Nat) (d : Dev) : Dev :=
  devOp 5 (some 1) c rd 0 0 0 (fun d =>
    match grantCell c d with
    | some r => devGive c rd 0 (BitVec.ofNat 64 r.1) r.2
    | none => devGive c rd 0 (BitVec.allOnes 64) ((bpmDeny c d).updCore c (coreCount 12))) d

/-- CALLOC. -/
def execCalloc (c rd : Nat) (s : State) : Host.Outcome State Fault Refusal := done s (doCalloc c rd)

/-- CFREE. -/
def doCfree (c rd ra : Nat) (d : Dev) : Dev :=
  devOp 6 (some 1) c rd ra 0 0 (fun d =>
    let cell := ((d.getCore c).reg ra).toNat
    if ownsCell c cell d then devStat c rd 0 dOK (dropCell c cell d) else devStat c rd 0 dNOT_OWNED (badFree c cell d)) d

/-- CFREE. -/
def execCfree (c rd ra : Nat) (s : State) : Host.Outcome State Fault Refusal := done s (doCfree c rd ra)

/-- The 256 bytes of a cell. -/
def cellBytes (cell : Nat) (d : Dev) : Bytes := fit 256 (Tab.get [] d.bpm.data cell)

/-- CMOVE: 256 bytes between cell ra and local address rb. A cell with an uncorrectable error gives its data with ECC (11 Table 11-2). -/
def doCmove (c rd ra rb dir : Nat) (d : Dev) : Dev :=
  devOp 7 (some 1) c rd ra rb dir (fun d =>
    let k := d.getCore c
    let cell := (k.reg ra).toNat
    let a := (k.reg rb).toNat
    let out := dir % 2 == 0
    withOp c a 256 32 (if out then 1 else 0) (fun d =>
      if !ownsCell c cell d then devStat c rd a dNOT_OWNED d
      else if out then
        let bad := badIn 0 cell 0 256 d
        let d := sramWrite c a (cellBytes cell d) d
        if bad then devExc a cECC (BitVec.ofNat 64 a) d else devStat c rd a dOK d
      else
        let b := getBytes k.sram a 256
        let d := badClear 0 cell 0 256 d
        devStat c rd a dOK { d with bpm := { d.bpm with data := Tab.set [] d.bpm.data cell b } }) d) d

/-- CMOVE. -/
def execCmove (c rd ra rb dir : Nat) (s : State) : Host.Outcome State Fault Refusal := done s (doCmove c rd ra rb dir)

/-! ### Messages (10 R296, R297, R300; 13 R374, R375) -/

/-- Cells pass to another owner; their charges stay (11 R313). -/
def giveCells (q : Nat) (cells : List Nat) (d : Dev) : Dev :=
  each cells (fun x d => { d with bpm := { d.bpm with cells := Tab.upd none d.bpm.cells x (fun o => o.map (fun y => { y with owner := q })) } }) d

/-- Word `j` of a message. -/
def msgWord (m : Message) (j : Nat) : Nat := (nth 0 m j).toNat

/-- The cells that a message lists. -/
def msgCells (m : Message) : List Nat := (List.range (fld (msgWord m 0) 21 19)).map (fun j => msgWord m (j + 1))

/-- The core may send the listed cells: its own, each once. -/
def maySend (c : Nat) (m : Message) (d : Dev) : Bool := (msgCells m).all (fun x => ownsCell c x d) && (msgCells m).eraseDups.length == (msgCells m).length

/-- A message to the host's ring (13 R374, Table 13-10). -/
def msendHost (c : Nat) (m : Message) (d : Dev) : Nat × Dev :=
  let h := d.hif
  let size := 2 ^ fld h.hmbCfg 3 0
  if !h.hmbEn || fld (msgWord m 0) 9 4 != 0 || !(msgCells m).isEmpty then (dBAD_DEST, d)
  else if (h.hmbPi + 2 ^ 32 - h.hmbCi) % 2 ^ 32 ≥ size then (dFULL, d)
  else
    let d := hostOut (.dma (h.hmbBase + 64 * (h.hmbPi % size)) (messageBytes (withSrc m (reqCore c)))) d
    (dOK, hmbSignal { d with hif := { d.hif with hmbPi := (d.hif.hmbPi + 1) % 2 ^ 32, hmbLate := lateNow d.hif.hmbLate d } })

/-- A message with a frame, or part of one, for injection queue `q` (10 R296, 13 R375). -/
def msendQueue (c q : Nat) (m : Message) (d : Dev) : Nat × Dev :=
  let g := d.getInj q
  let cells := msgCells m
  if 16 ≤ q || !g.en || !bitAt g.cfg 7 then (dBAD_DEST, d)
  else if g.frames.length ≥ 2 ^ fld g.cfg 11 8 then (dFULL, d)
  else if !maySend c m d then (dNOT_OWNED, d)
  else
    let bytes := g.building ++ ((cells.map (fun x => cellBytes x d)).flatten).take (msgWord m (cells.length + 1))
    let all := g.buildCells ++ cells
    let d := giveCells (0xA0 + q) cells d
    (dOK, d.updInj q (fun g =>
      if bitAt (msgWord m 0) 22 then { g with building := bytes, buildCells := all }
      else { g with building := [], buildCells := [], frames := g.frames ++ [⟨bytes, all⟩] }))

/-- Every coordinate of the node lies below its dimension's size (09 R267). -/
def nodeInside (a : Nat) (d : Dev) : Bool :=
  (List.range 3).all (fun k => decide (fld a (8 - 3 * k) (6 - 3 * k) < fld d.twn.nodeAddr (18 + 3 * k) (16 + 3 * k) + 1))

/-- A message to a core of a mesh node (10 R297). -/
def msendMesh (c : Nat) (m : Message) (d : Dev) : Nat × Dev :=
  let node := fld (msgWord m 0) 18 10
  let p := messageBytes (withSrc m (reqCore c))
  if !(msgCells m).isEmpty || !nodeLocked d || !nodeInside node d then (dBAD_DEST, d)
  else if node = nodeAddr d then (dOK, meshMessage p d)
  else if (routePort node d).isNone then (dBAD_DEST, d)
  else (dOK, meshSend 11 2 node p d)

/-- A message to a core of the device. -/
def msendCore (c : Nat) (m : Message) (d : Dev) : Nat × Dev :=
  let t := fld (msgWord m 0) 9 4
  if !coreAlive (d.getCore t) then (dBAD_DEST, d)
  else if 64 ≤ (d.getCore t).mailbox.length then (dFULL, d)
  else if !maySend c m d then (dNOT_OWNED, d)
  else (dOK, (mailboxPut t (withSrc m (reqCore c)) (giveCells t (msgCells m) d)).2)

/-- MSEND's status and effect, by the message's CLASS. -/
def msend (c : Nat) (m : Message) (d : Dev) : Nat × Dev :=
  if 7 ≤ fld (msgWord m 0) 21 19 then (dBAD_DEST, d)
  else match fld (msgWord m 0) 3 0 with
    | 0 => msendCore c m d
    | 1 => msendHost c m d
    | 2 => msendQueue c (fld (msgWord m 0) 9 4) m d
    | 3 => msendMesh c m d
    | _ => (dBAD_DEST, d)

/-- MSEND: the message at local address ra. -/
def doMsend (c rd ra : Nat) (d : Dev) : Dev :=
  devOp 8 (some 2) c rd ra 0 0 (fun d =>
    let a := ((d.getCore c).reg ra).toNat
    withOp c a 64 8 0 (fun d =>
      let r := msend c (messageOf (getBytes (d.getCore c).sram a 64)) d
      devStat c rd a r.1 (if r.1 = dFULL then r.2.updCore c (coreCount 11) else r.2)) d) d

/-- MSEND. -/
def execMsend (c rd ra : Nat) (s : State) : Host.Outcome State Fault Refusal := done s (doMsend c rd ra)

/-- MRECV: the oldest message to local address ra. -/
def doMrecv (c rd ra : Nat) (d : Dev) : Dev :=
  devOp 9 (some 2) c rd ra 0 0 (fun d =>
    let a := ((d.getCore c).reg ra).toNat
    withOp c a 64 8 1 (fun d =>
      match (d.getCore c).mailbox with
      | [] => devStat c rd a dEMPTY d
      | m :: rest =>
        devStat c rd a dOK ((sramWrite c a (messageBytes m) d).updCore c (fun k => { coreCount 10 k with mailbox := rest }))) d) d

/-- MRECV. -/
def execMrecv (c rd ra : Nat) (s : State) : Host.Outcome State Fault Refusal := done s (doMrecv c rd ra)

/-- EVPOST: DOORBELL on core ra [5:0]. -/
def doEvpost (c rd ra : Nat) (d : Dev) : Dev :=
  devOp 13 (some 2) c rd ra 0 0 (fun d =>
    let t := fld ((d.getCore c).reg ra).toNat 5 0
    if coreAlive (d.getCore t) then devStat c rd 0 dOK (evPendCore t 1 d) else devStat c rd 0 dBAD_DEST d) d

/-- EVPOST. -/
def execEvpost (c rd ra : Nat) (s : State) : Host.Outcome State Fault Refusal := done s (doEvpost c rd ra)

end Sys2Proof.Machine
end

