-- ==== Sys2Proof/Machine/GlonikEv.lean ====
section
/-! DEFINITION. Waiting for events, the timer, deferred store failures, completions and samples (10 R287, R288, R299 to R301, R307, R308). -/

namespace Sys2Proof.Machine

/-! ### EWAIT (10 R301) -/

/-- EWAIT returns `ev`; with CLR the sticky bits that it returns are cleared. -/
def Core.ewaitGive (rd : Nat) (ev : DWord) (clr : Bool) (k : Core) : Core :=
  { k with evPend := if clr then k.evPend &&& ~~~ ev else k.evPend }.setReg rd ev

/-- EWAIT: flags bit 0 POLL, bit 1 CLR. -/
def doEwait (c rd ra rb flags : Nat) (d : Dev) : Dev :=
  devOp 12 (some 5) c rd ra rb flags (fun d =>
    let k := d.getCore c
    let mask := k.reg ra
    let ev := k.events &&& mask
    let clr := bitAt flags 1
    if ev ≠ 0 || bitAt flags 0 then ({ src := 6 }, d.updCore c (Core.ewaitGive rd ev clr))
    else
      ({ src := 6 }, d.updCore c (fun k =>
        coreEdge 8 { k with run := .waiting, sleep := some ⟨wordD 12 rd ra rb flags, rd, mask.toNat, (k.reg rb).toNat, clr, k.cycle⟩ }))) d

/-- EWAIT. -/
def execEwait (c rd ra rb flags : Nat) (s : State) : Host.Outcome State Fault Refusal := done s (doEwait c rd ra rb flags)

/-- A pending DEFERRED is raised at an instruction boundary (10 R288). -/
def raiseDeferred (c : Nat) (d : Dev) : Dev :=
  match (d.getCore c).deferred with
  | some a => takeExc c cDEFERRED ((d.getCore c).pc.setWidth 64) (BitVec.ofNat 64 a) (d.updCore c (fun k => { k with deferred := none }))
  | none => d

/-- The core leaves its sleep. -/
def Core.wake (k : Core) : Core := { k with run := .running, sleep := none }

/-- A sleeping EWAIT returns the events of its mask, or 0 when its limit has passed. -/
def doEwaitWake (c : Nat) (d : Dev) : Dev :=
  let k := d.getCore c
  match k.run == .waiting, k.sleep with
  | true, some s =>
    let ev := k.events &&& BitVec.ofNat 64 s.mask
    if ev ≠ 0 || (s.limit ≠ 0 && decide (s.since + s.limit ≤ k.cycle)) then
      raiseDeferred c (finish c { src := 6 } (d.updCore c (fun k => ((k.wake).ewaitGive s.rd ev s.clr).retire s.word { src := 6 })))
    else d
  | _, _ => d

/-- EWAIT_WAKE. -/
def execEwaitWake (c : Nat) (s : State) : Host.Outcome State Fault Refusal := done s (doEwaitWake c)

/-! ### TIMER and DEFERRED (10 R287, R288) -/

/-- TIMER is due: TIE is 1, EXL 0 and CYCLE at or above TIMECMP. -/
def Core.timerDue (k : Core) : Bool := k.tie && !k.exl && decide (k.timeCmp.toNat ≤ k.cycle)

/-- TIMER at an instruction boundary or in an EWAIT that sleeps; a pending DEFERRED goes first. -/
def doTimer (c : Nat) (d : Dev) : Dev :=
  let k := d.getCore c
  if (k.run == .running || k.run == .waiting) && k.timerDue then
    let d := d.updCore c Core.wake
    if k.deferred.isSome then raiseDeferred c d else takeExc c cTIMER (k.pc.setWidth 64) 0 d
  else d

/-- TIMER_EXCEPTION. -/
def execTimerException (c : Nat) (s : State) : Host.Outcome State Fault Refusal := done s (doTimer c)

/-- A posted store to DDR5 has failed: DEFERRED at the boundary that the core stands at, or when its EWAIT has ended. -/
def doDeferredFail (c addr : Nat) (d : Dev) : Dev :=
  let k := d.getCore c
  if !coreAlive k then d
  else
    let d := d.updCore c (fun k => { k with deferred := some (k.deferred.getD addr) })
    if k.run = .running then raiseDeferred c d else d

/-- DEFERRED_STORE_FAIL. -/
def execDeferredStoreFail (c addr : Nat) (s : State) : Host.Outcome State Fault Refusal := done s (doDeferredFail c addr)

/-! ### Completions (10 R299) -/

/-- The delivered completion is the submission's first: it leaves the 256. A first completion of two has status DEFERRED. -/
def Core.countDelivery (m : Message) (k : Core) : Core :=
  let no := msgWord m 1
  if msgWord m 2 % 65536 = stDEFERRED then { k with outstanding := k.outstanding - 1, deferredSub := no :: k.deferredSub }
  else if k.deferredSub.contains no then { k with deferredSub := k.deferredSub.filter (fun x => x != no) }
  else { k with outstanding := k.outstanding - 1 }

/-- The oldest held completion enters the mailbox when it has room. -/
def doCompletionDeliver (c : Nat) (d : Dev) : Dev :=
  match (d.getCore c).held with
  | [] => d
  | m :: rest =>
    if coreAlive (d.getCore c) && decide ((d.getCore c).mailbox.length < 64) then
      d.updCore c (fun k => { k.countDelivery m with held := rest, mailbox := k.mailbox ++ [m] })
    else d

/-- COMPLETION_DELIVER. -/
def execCompletionDeliver (c : Nat) (s : State) : Host.Outcome State Fault Refusal := done s (doCompletionDeliver c)

/-! ### Samples (10 R307, R308) -/

/-- The 32 bytes of a sample record (10 Table 10-21); `flags` gives bits 1 and 2, which issue timing sets. -/
def sampleBytes (c latency flags : Nat) (k : Core) : Bytes :=
  le 8 k.lastCycle ++ le 4 k.lastPc ++ le 4 k.lastInsn ++ le 8 k.lastAddr ++ le 2 (Nat.min latency 65535) ++ le 1 k.lastSrc
    ++ le 1 (k.lastFlags + at_ (fld flags 2 1) 1) ++ le 1 c ++ le 3 k.smpSeq

/-- The record is kept, or dropped and counted while the buffer holds 512; SAMPLE is set when the count reaches 256. -/
def Core.keepSample (r : Bytes) (k : Core) : Core :=
  if 512 ≤ k.samples.length then { k with smpLost := Nat.min (k.smpLost + 1) 65535 }
  else { k with samples := k.samples ++ [r],
                evPend := if k.samples.length + 1 = 256 then k.evPend ||| BitVec.twoPow 64 7 else k.evPend }

/-- A sample is taken of the instruction whose retirement met PERIOD. -/
def doSampleTake (c latency flags : Nat) (d : Dev) : Dev :=
  let k := d.getCore c
  if !k.smpHit then d
  else
    drawJitter c (d.updCore c (fun k =>
      { k.keepSample (sampleBytes c latency flags k) with
        smpCount := k.smpCount - k.period, smpSeq := (k.smpSeq + 1) % 2 ^ 24, smpHit := false }))

/-- SAMPLE_TAKE. -/
def execSampleTake (c latency flags : Nat) (s : State) : Host.Outcome State Fault Refusal := done s (doSampleTake c latency flags)

end Sys2Proof.Machine
end

