-- ==== Sys2Proof/Machine/GlonikMem.lean ====
section
/-! DEFINITION. Glonik loads, stores and atomics (10 R276, R280, R286, Table 10-3). -/

namespace Sys2Proof.Machine

/-- The address ra + sext(imm16) (10 Table 10-3). -/
def effAddr (k : Core) (ra imm : Nat) : Nat := (k.reg ra + simm imm).toNat

/-- A load of `n` bytes into rd, extended by `f`. -/
def loadOp (op n : Nat) (f : Bytes → DWord) (c rd ra imm : Nat) (d : Dev) : Dev :=
  coreRun c (wordI op rd ra imm) (fun d =>
    let a := effAddr (d.getCore c) ra imm
    let src := srcOf a n d
    let r := coreLoad c a n d
    match r.1.1 with
    | some cause => ({ how := .exc cause (BitVec.ofNat 64 a), addr := a, src := src }, r.2)
    | none => ({ addr := a, src := src }, r.2.updCore c (fun k => k.setReg rd (f r.1.2)))) d

/-- A store of the low `n` bytes of rs. -/
def storeOp (op n : Nat) (c rs ra imm : Nat) (d : Dev) : Dev :=
  coreRun c (wordI op rs ra imm) (fun d =>
    let k := d.getCore c
    let a := effAddr k ra imm
    let src := srcOf a n d
    let r := coreStore c a (le n (k.reg rs).toNat) d
    match r.1 with
    | .ok => ({ addr := a, src := src }, r.2)
    | .fails cause => ({ how := .exc cause (BitVec.ofNat 64 a), addr := a, src := src }, r.2)
    | .later => ({ how := .deferred (BitVec.ofNat 64 a), addr := a, src := src }, r.2)) d

/-- An atomic's access to the 64-bit word at `a`: the old value, or the cause of its exception (10 R280, R286). -/
def atomLoad (c a : Nat) (d : Dev) : (Option Nat × Bytes) × Dev :=
  if a % 8 ≠ 0 then ((some cMISALIGN, []), d)
  else if !(d.getCore c).super && !(List.range 8).any (fun i =>
      let lim := (Tab.get 0 (d.getCore c).trLim i).toNat
      decide ((Tab.get 0 (d.getCore c).trBase i).toNat / 4096 * 4096 ≤ a) && decide (a + 8 ≤ lim / 4096 * 4096) && bitAt lim 0 && bitAt lim 1) then
    ((some cACCESS, []), d)
  else match rangeOf a 8 d with
    | .window => ((some cBUSLOAD, []), d)
    | .none => ((some cBUSLOAD, []), d)
    | _ => coreLoad c a 8 d

/-- An atomic: `f old rd rb` is the value stored, if any. A store that DDR5 refuses fails the instruction. -/
def atomOp (func : Nat) (f : DWord → DWord → DWord → Option DWord) (c rd ra rb : Nat) (d : Dev) : Dev :=
  coreRun c (wordR 0x1C rd ra rb func) (fun d =>
    let k := d.getCore c
    let a := (k.reg ra).toNat
    let src := srcOf a 8 d
    let r := atomLoad c a d
    match r.1.1 with
    | some cause => ({ how := .exc cause (BitVec.ofNat 64 a), addr := a, src := src }, r.2)
    | none =>
      let old := zbytes r.1.2
      match f old (k.reg rd) (k.reg rb) with
      | none => ({ addr := a, src := src }, r.2.updCore c (fun k => k.setReg rd old))
      | some v =>
        let t := coreStore c a (le 8 v.toNat) r.2
        if t.1 = .ok then ({ addr := a, src := src }, t.2.updCore c (fun k => k.setReg rd old))
        else ({ how := .exc cBUSLOAD (BitVec.ofNat 64 a), addr := a, src := src }, t.2)) d

/-- LB: 8 bits, sign-extended. -/
def doLb (c rd ra imm : Nat) (d : Dev) : Dev := loadOp 0x10 1 sbytes c rd ra imm d

/-- LB. -/
def execLb (c rd ra imm : Nat) (s : State) : Host.Outcome State Fault Refusal := done s (doLb c rd ra imm)

/-- LBU: 8 bits, zero-extended. -/
def doLbu (c rd ra imm : Nat) (d : Dev) : Dev := loadOp 0x11 1 zbytes c rd ra imm d

/-- LBU. -/
def execLbu (c rd ra imm : Nat) (s : State) : Host.Outcome State Fault Refusal := done s (doLbu c rd ra imm)

/-- LH: 16 bits, sign-extended. -/
def doLh (c rd ra imm : Nat) (d : Dev) : Dev := loadOp 0x12 2 sbytes c rd ra imm d

/-- LH. -/
def execLh (c rd ra imm : Nat) (s : State) : Host.Outcome State Fault Refusal := done s (doLh c rd ra imm)

/-- LHU: 16 bits, zero-extended. -/
def doLhu (c rd ra imm : Nat) (d : Dev) : Dev := loadOp 0x13 2 zbytes c rd ra imm d

/-- LHU. -/
def execLhu (c rd ra imm : Nat) (s : State) : Host.Outcome State Fault Refusal := done s (doLhu c rd ra imm)

/-- LW: 32 bits, sign-extended. -/
def doLw (c rd ra imm : Nat) (d : Dev) : Dev := loadOp 0x14 4 sbytes c rd ra imm d

/-- LW. -/
def execLw (c rd ra imm : Nat) (s : State) : Host.Outcome State Fault Refusal := done s (doLw c rd ra imm)

/-- LWU: 32 bits, zero-extended. -/
def doLwu (c rd ra imm : Nat) (d : Dev) : Dev := loadOp 0x15 4 zbytes c rd ra imm d

/-- LWU. -/
def execLwu (c rd ra imm : Nat) (s : State) : Host.Outcome State Fault Refusal := done s (doLwu c rd ra imm)

/-- LD: 64 bits. -/
def doLd (c rd ra imm : Nat) (d : Dev) : Dev := loadOp 0x16 8 zbytes c rd ra imm d

/-- LD. -/
def execLd (c rd ra imm : Nat) (s : State) : Host.Outcome State Fault Refusal := done s (doLd c rd ra imm)

/-- SB: 8 bits. -/
def doSb (c rs ra imm : Nat) (d : Dev) : Dev := storeOp 0x18 1 c rs ra imm d

/-- SB. -/
def execSb (c rs ra imm : Nat) (s : State) : Host.Outcome State Fault Refusal := done s (doSb c rs ra imm)

/-- SH: 16 bits. -/
def doSh (c rs ra imm : Nat) (d : Dev) : Dev := storeOp 0x19 2 c rs ra imm d

/-- SH. -/
def execSh (c rs ra imm : Nat) (s : State) : Host.Outcome State Fault Refusal := done s (doSh c rs ra imm)

/-- SW: 32 bits. -/
def doSw (c rs ra imm : Nat) (d : Dev) : Dev := storeOp 0x1A 4 c rs ra imm d

/-- SW. -/
def execSw (c rs ra imm : Nat) (s : State) : Host.Outcome State Fault Refusal := done s (doSw c rs ra imm)

/-- SD: 64 bits. -/
def doSd (c rs ra imm : Nat) (d : Dev) : Dev := storeOp 0x1B 8 c rs ra imm d

/-- SD. -/
def execSd (c rs ra imm : Nat) (s : State) : Host.Outcome State Fault Refusal := done s (doSd c rs ra imm)

/-- AMOSWAP: stores rb. -/
def doAmoswap (c rd ra rb : Nat) (d : Dev) : Dev := atomOp 0 (fun _ _ b => some b) c rd ra rb d

/-- AMOSWAP. -/
def execAmoswap (c rd ra rb : Nat) (s : State) : Host.Outcome State Fault Refusal := done s (doAmoswap c rd ra rb)

/-- AMOADD: stores old + rb. -/
def doAmoadd (c rd ra rb : Nat) (d : Dev) : Dev := atomOp 1 (fun o _ b => some (o + b)) c rd ra rb d

/-- AMOADD. -/
def execAmoadd (c rd ra rb : Nat) (s : State) : Host.Outcome State Fault Refusal := done s (doAmoadd c rd ra rb)

/-- AMOAND: stores old AND rb. -/
def doAmoand (c rd ra rb : Nat) (d : Dev) : Dev := atomOp 2 (fun o _ b => some (o &&& b)) c rd ra rb d

/-- AMOAND. -/
def execAmoand (c rd ra rb : Nat) (s : State) : Host.Outcome State Fault Refusal := done s (doAmoand c rd ra rb)

/-- AMOOR: stores old OR rb. -/
def doAmoor (c rd ra rb : Nat) (d : Dev) : Dev := atomOp 3 (fun o _ b => some (o ||| b)) c rd ra rb d

/-- AMOOR. -/
def execAmoor (c rd ra rb : Nat) (s : State) : Host.Outcome State Fault Refusal := done s (doAmoor c rd ra rb)

/-- CAS: stores rb when the old value equals rd. -/
def doCas (c rd ra rb : Nat) (d : Dev) : Dev := atomOp 4 (fun o x b => if o = x then some b else none) c rd ra rb d

/-- CAS. -/
def execCas (c rd ra rb : Nat) (s : State) : Host.Outcome State Fault Refusal := done s (doCas c rd ra rb)

end Sys2Proof.Machine
end

