-- ==== Sys2Proof/Machine/Lattice.lean ====
section
/-! DEFINITION. The lattice engine: its queue and its nine commands (07 R198, R199). -/

namespace Sys2Proof.Machine

/-- Engine 2 is the lattice engine. -/
def engLat : Nat := 2

/-- The command puts a key of its own drawing, or of a peer's, into a slot. -/
def latAlien (c : LatCmd) : Bool := [0x0280, 0x0281, 0x0286].contains c.code

/-- A lattice command joins the queue of 256 (07 R199), unless the mode refuses it. -/
def latQueue (c : LatCmd) (d : Dev) : Dev :=
  eguards c.sub engLat
    [(keyBadMode (subReq c.sub) false (latAlien c) d, stBAD_MODE), (decide (d.keys.latQueue.length ≥ 256), stBUSY)]
    (fun d => { d with keys := { d.keys with latQueue := d.keys.latQueue ++ [c] } }) d

/-- LAT_KEMKEYGEN. -/
def execLatKemkeygen (b : Sub) (lpk addr : Nat) (s : State) : Host.Outcome State Fault Refusal :=
  done s (latQueue ⟨b, 0x0280, [lpk, addr], [], false, none⟩)

/-- LAT_ENCAP. -/
def execLatEncap (b : Sub) (ek : Bytes) (kek addr : Nat) (s : State) : Host.Outcome State Fault Refusal :=
  done s (latQueue ⟨b, 0x0281, [kek, addr], [ek], false, none⟩)

/-- LAT_DECAP. -/
def execLatDecap (b : Sub) (lpk : Nat) (ct : Bytes) (kek : Nat) (s : State) : Host.Outcome State Fault Refusal :=
  done s (latQueue ⟨b, 0x0282, [lpk, kek], [ct], false, none⟩)

/-- LAT_SIGN. -/
def execLatSign (b : Sub) (lpk : Nat) (msg : Bytes) (addr : Nat) (s : State) : Host.Outcome State Fault Refusal :=
  done s (latQueue ⟨b, 0x0283, [lpk, addr], [msg], false, none⟩)

/-- LAT_VERIFY. -/
def execLatVerify (b : Sub) (pk msg sig : Bytes) (s : State) : Host.Outcome State Fault Refusal :=
  done s (latQueue ⟨b, 0x0284, [], [pk, msg, sig], false, none⟩)

/-- LAT_PUBKEY. -/
def execLatPubkey (b : Sub) (lpk addr : Nat) (s : State) : Host.Outcome State Fault Refusal :=
  done s (latQueue ⟨b, 0x0285, [lpk, addr], [], false, none⟩)

/-- LAT_ECKEYGEN. -/
def execLatEckeygen (b : Sub) (lpk addr : Nat) (s : State) : Host.Outcome State Fault Refusal :=
  done s (latQueue ⟨b, 0x0286, [lpk, addr], [], false, none⟩)

/-- LAT_ECDH. -/
def execLatEcdh (b : Sub) (lpk : Nat) (point : Bytes) (kek : Nat) (s : State) : Host.Outcome State Fault Refusal :=
  done s (latQueue ⟨b, 0x0287, [lpk, kek], [point], false, none⟩)

/-- LAT_HASH. -/
def execLatHash (b : Sub) (data : Bytes) (alg outLen addr : Nat) (s : State) : Host.Outcome State Fault Refusal :=
  done s (latQueue ⟨b, 0x0288, [alg, outLen, addr], [data], false, none⟩)

/-- The LPK slot holds a key of this type (07 Table 07-18). -/
def lpkIs (n type : Nat) (d : Dev) : Bool := decide (n < 64) && (d.getLpk n).valid && (d.getLpk n).type == type

/-- The private key that a LAT_DECAP or LAT_ECDH took when it started was of this type (07 R198, R199). -/
def LatCmd.held (c : LatCmd) (type : Nat) : Option Bytes :=
  match c.run with
  | some x => if x.key.valid && x.key.type == type then some x.key.key else none
  | none => none

/-- A command that started earlier and still runs has claimed the destination slot (07 R199). -/
def LatCmd.clash (c : LatCmd) : Bool := match c.run with | some x => x.clash | none => false

/-- Write an output to memory and complete with its length, or with MEM_FAULT. -/
def latOut (c : LatCmd) (addr : Nat) (out : Bytes) (f : Dev → Dev) (d : Dev) : Dev :=
  let r := engWrite (subReq c.sub) addr out d
  if r.1 then complete c.sub engLat stOK [out.length] (f r.2) else complete c.sub engLat stMEM_FAULT [] r.2

/-- A shared secret goes to a free KEK slot: EPHEMERAL, USAGE DERIVE (07 R198). -/
def putSecret (kek : Nat) (ss : Bytes) (d : Dev) : Dev :=
  let r := freeKeyId d
  putKek kek .ephemeral (2 ^ uDERIVE) r.1 ss r.2

/-- A private key goes to a free LPK slot. -/
def putPrivate (lpk type : Nat) (key : Bytes) (d : Dev) : Dev :=
  let r := freeKeyId d
  r.2.updLpk lpk (fun _ => { valid := true, type := type, keyId := r.1, key := key })

/-- A queued command's `i`-th argument. -/
def LatCmd.arg (c : LatCmd) (i : Nat) : Nat := nth 0 c.args i

/-- A queued command's `i`-th input. -/
def LatCmd.dat (c : LatCmd) (i : Nat) : Bytes := nth [] c.data i

/-- LAT_KEM_KEYGEN runs, or is refused. -/
def latKemGen (c : LatCmd) (d : Dev) : Dev :=
  eguards c.sub engLat [(rngBad d || noKwr d, stRNG_FAULT), (c.clash || !lpkFree (c.arg 0) d, stBAD_SLOT)]
  (fun d =>
    let r := freeBytes 64 d
    latOut c (c.arg 1) (fit 1568 (Config.mlkemEk r.1)) (putPrivate (c.arg 0) 1 r.1) r.2) d

/-- LAT_ENCAP runs, or is refused. -/
def latEncap (c : LatCmd) (d : Dev) : Dev :=
  eguards c.sub engLat [(rngBad d || noKwr d, stRNG_FAULT), (c.clash || !kekFree (c.arg 0) d, stBAD_SLOT), ((c.dat 0).length != 1568 || !Config.mlkemEkOk (c.dat 0), stBAD_KEY)]
  (fun d =>
    let r := freeBytes 32 d
    latOut c (c.arg 1) (fit 1568 (Config.mlkemCt (c.dat 0) r.1)) (putSecret (c.arg 0) (fit 32 (Config.mlkemSs (c.dat 0) r.1))) r.2) d

/-- The private key that a LAT_DECAP or LAT_ECDH names is cleared, whether the operation succeeds or fails (07 R198). -/
def latSpend (c : LatCmd) (d : Dev) : Dev :=
  if (c.code = 0x0282 && lpkIs (c.arg 0) 1 d) || (c.code = 0x0287 && lpkIs (c.arg 0) 2 d) then clearLpk (c.arg 0) d else d

/-- LAT_DECAP runs, or is refused. -/
def latDecap (c : LatCmd) (d : Dev) : Dev :=
  eguards c.sub engLat [(noKwr d, stRNG_FAULT), ((c.held 1).isNone || c.clash || !kekFree (c.arg 1) d, stBAD_SLOT), ((c.dat 0).length != 1568, stBAD_KEY)]
    (fun d => complete c.sub engLat stOK [] (putSecret (c.arg 1) (fit 32 (Config.mlkemDecap ((c.held 1).getD []) (c.dat 0))) d)) d

/-- LAT_SIGN runs, or is refused: LPK1 signs attestation reports alone (14 R406). -/
def latSign (c : LatCmd) (d : Dev) : Dev :=
  eguards c.sub engLat [(rngBad d, stRNG_FAULT), (!lpkIs (c.arg 0) 3 d, stBAD_SLOT), (c.arg 0 == 1, stBAD_USAGE), (decide (65536 < (c.dat 0).length), stBAD_COMMAND)]
  (fun d =>
    let r := freeBytes 32 d
    latOut c (c.arg 1) (fit 3309 (Config.mldsaSign (d.getLpk (c.arg 0)).key (c.dat 0) r.1)) id r.2) d

/-- LAT_VERIFY runs, or is refused. -/
def latVerify (c : LatCmd) (d : Dev) : Dev :=
  eguards c.sub engLat [(decide (65536 < (c.dat 1).length), stBAD_COMMAND)]
  (fun d => complete c.sub engLat stOK
    [Config.verifyCode ((c.dat 0).length == 1952 && (c.dat 2).length == 3309 && Config.mldsaVerify (c.dat 0) (c.dat 1) (c.dat 2))] d) d

/-- LAT_DSA_PUB runs, or is refused. -/
def latPub (c : LatCmd) (d : Dev) : Dev :=
  eguards c.sub engLat [(!lpkIs (c.arg 0) 3 d, stBAD_SLOT)]
  (fun d => latOut c (c.arg 1) (fit 1952 (Config.mldsaPk (d.getLpk (c.arg 0)).key)) id d) d

/-- LAT_EC_KEYGEN runs, or is refused. -/
def latEcGen (c : LatCmd) (d : Dev) : Dev :=
  eguards c.sub engLat [(rngBad d || noKwr d, stRNG_FAULT), (c.clash || !lpkFree (c.arg 0) d, stBAD_SLOT)]
  (fun d =>
    let r := freeBytes 48 d
    latOut c (c.arg 1) (fit 97 (Config.p384Pub r.1)) (putPrivate (c.arg 0) 2 r.1) r.2) d

/-- LAT_ECDH runs, or is refused. -/
def latEcdh (c : LatCmd) (d : Dev) : Dev :=
  eguards c.sub engLat [(noKwr d, stRNG_FAULT), ((c.held 2).isNone || c.clash || !kekFree (c.arg 1) d, stBAD_SLOT), ((c.dat 0).length != 97 || !Config.p384Ok (c.dat 0), stBAD_KEY)]
    (fun d => complete c.sub engLat stOK [] (putSecret (c.arg 1) (fit 48 (Config.p384Ecdh ((c.held 2).getD []) (c.dat 0))) d)) d

/-- LAT_HASH runs, or is refused. -/
def latHash (c : LatCmd) (d : Dev) : Dev :=
  eguards c.sub engLat [(decide (3 < c.arg 0) || decide (2 ^ 20 < (c.dat 0).length) || (c.arg 0 == 0 && (c.arg 1 == 0 || decide (256 < c.arg 1))), stBAD_COMMAND)]
  (fun d => latOut c (c.arg 2) (match c.arg 0 with | 0 => shake256 (c.dat 0) (c.arg 1) | 1 => sha3_256 (c.dat 0) | 2 => sha3_384 (c.dat 0) | _ => sha3_512 (c.dat 0)) id d) d

/-- A command of the engine is executed. -/
def latRun (c : LatCmd) (d : Dev) : Dev :=
  match c.code with
  | 0x0280 => latKemGen c d
  | 0x0281 => latEncap c d
  | 0x0282 => latDecap c d
  | 0x0283 => latSign c d
  | 0x0284 => latVerify c d
  | 0x0285 => latPub c d
  | 0x0286 => latEcGen c d
  | 0x0287 => latEcdh c d
  | _ => latHash c d

/-- The slot that a command fills, `true` for an LPK slot. -/
def LatCmd.dest (c : LatCmd) : Option (Bool × Nat) :=
  match c.code with
  | 0x0280 => some (true, c.arg 0)
  | 0x0281 => some (false, c.arg 0)
  | 0x0282 => some (false, c.arg 1)
  | 0x0286 => some (true, c.arg 0)
  | 0x0287 => some (false, c.arg 1)
  | _ => none

/-- The `i`-th queued command starts: it takes the private key that it clears, and claims its destination. -/
def latStart (i : Nat) (d : Dev) : Dev :=
  match d.keys.latQueue[i]? with
  | none => d
  | some c =>
    if c.run.isSome then d
    else
      let x : LatStart := ⟨d.getLpk (c.arg 0), (d.keys.latQueue.take i).any (fun e => c.dest.isSome && e.dest == c.dest && !e.fault && !e.clash)⟩
      let d := latSpend c d
      { d with keys := { d.keys with latQueue := d.keys.latQueue.set i { c with run := some x } } }

/-- Commands start in submission order: every one up to the `n`-th has started (07 R199). -/
def latStartTo (n : Nat) (d : Dev) : Dev := each (List.range (n + 1)) latStart d

/-- The `n`-th queued command ends: commands start in submission order and may complete in any order (07 R199). -/
def doLatComplete (n : Nat) (d : Dev) : Dev :=
  let d := latStartTo n d
  match d.keys.latQueue[n]? with
  | none => d
  | some c =>
    let d := { d with keys := { d.keys with latQueue := d.keys.latQueue.eraseIdx n } }
    if c.fault then complete c.sub engLat stMEM_FAULT [] d else latRun c d

/-- LAT_COMMAND_COMPLETE. -/
def execLatCommandComplete (n : Nat) (s : State) : Host.Outcome State Fault Refusal := done s (doLatComplete n)

end Sys2Proof.Machine
end

