-- ==== Sys2Proof/Machine/Tack.lean ====
section
/-! DEFINITION. The tack source, the gate, and the application of records (chapter 08). -/

namespace Sys2Proof.Machine

/-! ### Gated commands as descriptors (13 Table 13-4, 08 R226, R228) -/

/-- The gated commands of Table 13-4. -/
def gateCodes : List Nat :=
  [0x0001, 0x0002, 0x0003, 0x0004, 0x0005, 0x0006, 0x0007, 0x0008, 0x0009, 0x000A, 0x000B, 0x000C, 0x000D, 0x000E, 0x000F, 0x0010, 0x0011]
    ++ [0x0020, 0x0021, 0x0022, 0x0023, 0x0030, 0x0040, 0x0041, 0x0042, 0x0043, 0x0050, 0x0051, 0x0060]

/-- The commands that may carry SHADOWONLY (09 R251): SA_LOAD, SA_ATTACH, SA_ACTIVATE, WIN_CREATE, SA_ERASE. -/
def shadowCodes : List Nat := [0x0001, 0x0004, 0x0005, 0x0002, 0x0008]

/-- The slice of a port for the limits of R226: S2m for a 1.6TbE port on pair m. -/
def limitSlice (p : Nat) (d : Dev) : Nat := if isWide d.tab p then facePos p / 8 * 2 else facePos p / 4

/-- The slices in which a command's datapath state lies (08 R226). -/
def descSlices (x : Desc) (d : Dev) : List Nat :=
  let c := x.code
  if [0x0001, 0x0002, 0x0003, 0x0004, 0x0005, 0x0007, 0x0008, 0x0009, 0x000A, 0x000B].contains c then [slotSlice x.p0]
  else if [0x0006, 0x000C, 0x000D, 0x000E].contains c then [chSlice x.p0]
  else if [0x0020, 0x0021].contains c then [x.p0 % 8]
  else if c = 0x0022 then (if x.p0 ≥ 8 then List.range 8 else [x.p0])
  else if [0x0040, 0x0041, 0x0042, 0x0043].contains c || c == codeResync then [limitSlice (x.p0 % 64) d]
  else if [0x0050, 0x0051].contains c then [limitSlice (prtOf (x.p0 % 32)) d]
  else if c = 0x0060 then [x.p0 % 8] else []

/-- The effect of a gated command at the tack being applied; SHADOWONLY completes with OK on the lead and changes nothing (09 R251). -/
def applyGated (e : GateEnt) (d : Dev) : Dev :=
  let x := e.desc
  let b := e.sub
  if x.shadowOnly && d.mod.mode != .shadow then gateDone b stOK [] d
  else match x.code with
    | 0x0001 => doSaLoad b x.p0 x.p1 d
    | 0x0002 => doWinCreate b x.p0 x.p1 d
    | 0x0003 => doWinErase b x.p0 d
    | 0x0004 => doSaAttach b x.p0 x.p1 x.p2 (if x.p3 = 2 ^ 64 - 1 then none else some x.p3) d
    | 0x0005 => doSaActivate b x.p0 d
    | 0x0006 => doChSeam b x.p0 x.p1 x.p2 x.p3 d
    | 0x0007 => doSaRetire b x.p0 (x.p1 == 1) d
    | 0x0008 => doSaErase b x.p0 d
    | 0x0009 => doSaSetlimit b x.p0 x.p1 x.p2 d
    | 0x000A => doSaRaisepn b x.p0 x.p1 d
    | 0x000B => doSaPark b x.p0 x.p1 d
    | 0x000C => doChWrite b x.p0 x.image d
    | 0x000D => doChEnable b x.p0 d
    | 0x000E => doChDisable b x.p0 d
    | 0x000F => doSasSide b x.p0 d
    | 0x0010 => doSciInsert b x.p0 x.p1 x.p2 d
    | 0x0011 => doSciDelete b x.p0 x.p1 d
    | 0x0020 => doStnInsert b x.p0 x.p1 x.p2 d
    | 0x0021 => doStnDelete b x.p0 x.p1 d
    | 0x0022 => doStnFlush b x.p0 (bitAt x.p1 63) (fld x.p1 15 0) (x.p2 == 1) d
    | 0x0023 => doStnSetsweep b x.p0 d
    | 0x0030 => doPatSwitch b d
    | 0x0040 => doPortConfig b x.p0 x.p1 d
    | 0x0041 => doPortEnable b x.p0 d
    | 0x0042 => doPortDisable b x.p0 d
    | 0x0043 => doPrtSet b x.p0 x.p1 x.p2 d
    | 0x0050 => doSltSet b x.p0 x.p1 x.p2 d
    | 0x0051 => doSltSwap b x.p0 d
    | 0x0060 => doSlcRestart b x.p0 d
    | 0xFF00 => applyResync x.p0 (signed 64 x.p1) d
    | _ => d

/-- The gate refuses submissions in this mode (14 Table 14-1); in SHADOW every local one (08 R226). -/
def gateClosed (d : Dev) : Bool :=
  match d.mod.mode with
  | .reset => true | .kiln => true | .swap => true | .fallow => true | .zeroised => true | .shadow => true | _ => false

/-- A submission reaches the gate: the refusals of R226 in their order, or its place in the queue. -/
def doGateSubmit (b : Sub) (x : Desc) (d : Dev) : Dev :=
  let refuse := fun st d => completeX b st engGate true false 0 [] d
  if !gateCodes.contains x.code || (x.shadowOnly && (!shadowCodes.contains x.code || d.twn.pair != 1)) then refuse stBAD_COMMAND d
  else if gateClosed d then refuse stBAD_MODE d
  else if d.tck.gate.length ≥ 4096 then refuse stBUSY d
  else { d with tck := { d.tck with gate := d.tck.gate ++ [⟨b, x⟩] } }

/-- GATE_SUBMIT. -/
def execGateSubmit (b : Sub) (x : Desc) (s : State) : Host.Outcome State Fault Refusal := done s (doGateSubmit b x)

/-! ### Placing commands (08 R226) -/

/-- What placing has chosen: the commands placed, those that wait, those that are late, and the count of each slice. -/
structure Placing where
  placed : List GateEnt := []
  waits : List GateEnt := []
  late : List GateEnt := []
  count : Tab Nat := []

/-- One queued command is placed in tack `k`, waits, or is late. -/
def placeOne (k : Nat) (d : Dev) (w : Placing) (e : GateEnt) : Placing :=
  let sl := descSlices e.desc d
  if (match e.desc.nlt with | some n => decide (n < k) | none => false) then { w with late := w.late ++ [e] }
  else if (match e.desc.nbt with | some n => decide (k < n) | none => false) || decide (w.placed.length ≥ 4096)
      || sl.any (fun s => decide (Tab.get 0 w.count s ≥ 1024)) then { w with waits := w.waits ++ [e] }
  else { w with placed := w.placed ++ [e], count := sl.foldl (fun t s => Tab.upd 0 t s (· + 1)) w.count }

/-- The queue divided for tack `k`; in FALLOW a record carries no commands (08 R218). -/
def placeGate (k : Nat) (d : Dev) : Placing :=
  if d.mod.mode = .fallow then { waits := d.tck.gate } else d.tck.gate.foldl (placeOne k d) {}

/-! ### Applying a record (08 R216, R217, R221, R222) -/

/-- The OP is allowed in a record of this kind (08 Table 08-5). -/
def opOk (kind op : Nat) : Bool := if kind = 0 then op == 1 || op == 3 || op == 4 else op == 2 || op == 5 || op == 6

/-- A record that R217 calls malformed. A shadow that has not joined yet holds other ports enabled than the lead (09 Table 09-4); a disable
ends on each twin at its own time, so a record may have or lack an entry for a port between its disable's tack and its end (R225). -/
def malformed (r : TackRec) (d : Dev) : Bool :=
  let ports := r.entries.map (fun e => e.port)
  let strict := d.mod.mode != .shadow || d.twn.joined
  decide (1 < r.kind) || r.entries.any (fun e => !opOk r.kind e.op || decide (64 ≤ e.port)) || ports.eraseDups.length != ports.length
    || (r.kind == 1 && !r.cmds.isEmpty)
    || (!d.twn.rseqFree && r.tno != (if r.kind = 0 then d.tck.tno + 1 else d.tck.tno))
    || (strict && (ports.any (fun p => !portEnabled d p && !(d.getTck p).wasOff)
        || (r.kind == 0 && (enabledPorts d).any (fun p => !ports.contains p && (d.getTck p).disableTack.isNone))))

/-- Why a record is refused, with the port: 1 sequence gap, 4 malformed, 2 boundary below the horizon, 3 SEAL below the report. -/
def recRefusal (r : TackRec) (d : Dev) : Option (Nat × Nat) :=
  if !d.twn.rseqFree && r.rseq != d.tck.rseq + 1 then some (1, 0xFF)
  else if malformed r d then some (4, 0xFF)
  else match r.entries.find? (fun e => e.op == 1 && portEnabled d e.port && decide (e.value < (d.getTck e.port).hmax.getD (d.getTck e.port).freezeAt)) with
    | some e => some (2, e.port)
    | none => match r.entries.find? (fun e => e.op == 5 && portEnabled d e.port && (match (d.getTck e.port).ownReport with | some z => decide (e.value < z) | none => false)) with
      | some e => some (3, e.port)
      | none => none

/-- One port entry takes effect (08 Table 08-5); a shadow reports its count to the lead (09 R235). -/
def applyEntry (r : TackRec) (e : RecEnt) (d : Dev) : Dev :=
  let p := e.port
  if !portEnabled d p then d
  else match e.op with
    | 1 => d.updTck p (fun t => { t with bounds := t.bounds ++ [(r.tno, e.value)] })
    | 2 => raiseHorizon p e.value d
    | 3 =>
      let z := (d.getTck p).admitted
      let d := d.updTck p (fun t => { t with pstate := .freezing, horizon := z, deferred := t.deferred ++ [r.tno], ownReport := some z,
                                             peerReport := none, freezeRseq := r.rseq })
      chargeHeld p (if d.mod.mode = .shadow then twinSend 5 (be 1 p ++ be 8 r.rseq ++ be 8 z) d else d)
    | 4 => d.updTck p (fun t => { t with deferred := t.deferred ++ [r.tno] })
    | 5 => settlePort p (d.updTck p (fun t => { t with
        pstate := .frozen, freezeAt := e.value, horizon := e.value, hmax := none, ownReport := none, peerReport := none, deferred := []
        bounds := t.bounds.map (fun b => (b.1, Nat.min b.2 e.value)) ++ t.deferred.map (fun k => (k, e.value)) }))
    | 6 => settlePort p (d.updTck p (fun t => { t with pstate := .active, horizon := e.value, hmax := some (match t.hmax with | some m => Nat.max m e.value | none => e.value) }))
    | _ => d

/-- Every enabled port is disabled at the first tack after ENROL is entered (14 R390). -/
def enrolTack (d : Dev) : Dev :=
  if !d.tck.enrolDisable then d
  else
    let d := each (enabledPorts d) (fun p d => if (d.getTck p).disableTack.isSome then d else (d.updTck p (fun t => { t with disableTack := some d.tck.tno })).updTab (Tables.updPrt p (fun g => { g with gateOn := false }))) d
    { d with tck := { d.tck with enrolDisable := false } }

/-- The tack last applied and its record's RSEQ. -/
def Dev.setTack (d : Dev) (tno rseq : Nat) : Dev := { d with tck := { d.tck with tno := tno, rseq := rseq } }

/-- A refused record stops the tack sequence. -/
def stopTacks (d : Dev) : Dev := { d with tck := { d.tck with stopped := true, badRec := true } }

/-- Every enabled port settles the boundaries it has passed. -/
def settleEnabled (d : Dev) : Dev := pruneViews (each (List.range 64) (fun p d => if portEnabled d p then settlePort p d else d) d)

/-- A record is applied, or refused as R217 states; a shadow that stops gives up (09 R250), and applies records again once it has a pair for its
rejoin (09 Table 09-4, order 2). -/
def applyRec (r : TackRec) (d : Dev) : Dev :=
  if d.tck.stopped && !d.twn.rejoin then d
  else match recRefusal r d with
    | some (why, p) =>
      giveUp 0xFF 3 (event 0x0801 3 (be 1 why ++ be 1 p ++ be 6 r.rseq) (stopTacks d))
    | none =>
      let d := d.setTack d.tck.tno r.rseq
      let d := if d.twn.coast || d.twn.rseqFree then twnSet (fun t => { t with coast := false, rseqFree := false }) d else d
      let d := prfCount 14 none 1 d
      if r.kind = 1 then each r.entries (applyEntry r) (d.setTack r.tno r.rseq)
      else
        let d := ({ d with views := d.views ++ [(r.tno, d.tab)] } : Dev).setTack r.tno r.rseq
        settleEnabled (each r.cmds applyGated (enrolTack (stnTack (each r.entries (applyEntry r) (evPendAll 6 d)))))

/-- RECORD_APPLY: the oldest record received from the lead. -/
def doRecordApply (d : Dev) : Dev :=
  match d.tck.recq with
  | [] => d
  | r :: rest => if d.mod.mode = .shadow then applyRec r { d with tck := { d.tck with recq := rest } } else { d with tck := { d.tck with recq := rest } }

/-- RECORD_APPLY. -/
def execRecordApply (s : State) : Host.Outcome State Fault Refusal := done s doRecordApply

/-! ### Forming records (08 R219 to R222) -/

/-- The freeze threshold of a port. -/
def freezeBelow (p : Nat) (d : Dev) : Nat := ceilDiv (margin d.tab p) 64

/-- The port is a Slot-mode cipher port for the source: by the newest tables, by the view of its next slot frame, or because the frame with its
last tags is still to go (03 R89; 08 R216, R219). -/
def slotNow (p : Nat) (d : Dev) : Bool :=
  isCipher p && (slotPort d.tab p || slotPort (tabAt (viewTack p (d.getTck p).nextIdx d) d) p || (d.getSlt (facePos p)).tx.running)

/-- The margin by which the source raises a port's boundary and horizon now (08 R220). -/
def marginNow (p : Nat) (d : Dev) : Nat := if slotNow p d then 4096 else margin d.tab p

/-- form_tack's entry for a port. -/
def tackEntry (d : Dev) (p : Nat) : RecEnt :=
  let t := d.getTck p
  if t.pstate = .active && !slotNow p d && decide (t.got < freezeBelow p d) then ⟨p, 3, 0⟩
  else if t.pstate = .active then ⟨p, 1, Nat.max (t.hmax.getD t.freezeAt) (t.admitted + marginNow p d)⟩
  else if t.pstate = .freezing then ⟨p, 4, 0⟩ else ⟨p, 1, t.freezeAt⟩

/-- The source sends a record and applies it as it forms it (08 R219). -/
def formRec (kind : Nat) (entries : List RecEnt) (cmds : List GateEnt) (d : Dev) : Dev :=
  let r : TackRec := ⟨d.tck.rseq + 1, if kind = 0 then d.tck.tno + 1 else d.tck.tno, kind, entries, cmds, d.mod.fuses.serial⟩
  applyRec r (sendRec r d)

/-- TACK_FORM: a TACK record every INTERVAL; commands that cannot be placed by their NLT are LATE. -/
def doTackForm (d : Dev) : Dev :=
  if !sourceOn d then d
  else
    let w := placeGate (d.tck.tno + 1) d
    let d := each w.late (fun e d => completeX e.sub stLATE engGate true false 0 [] d) { d with tck := { d.tck with gate := w.waits } }
    let ents := (enabledPorts d).map (tackEntry d)
    let d := each (enabledPorts d) (fun p d => d.updTck p (fun t => { t with got := 0 })) d
    formRec 0 ents w.placed d

/-- TACK_FORM. -/
def execTackForm (s : State) : Host.Outcome State Fault Refusal := done s doTackForm

/-- BEAT_FORM: RAISE for every ACTIVE port. -/
def doBeatForm (d : Dev) : Dev :=
  if !sourceOn d then d
  else formRec 1 (((enabledPorts d).filter (fun p => (d.getTck p).pstate == .active)).map (fun p => ⟨p, 2, (d.getTck p).admitted + marginNow p d⟩)) [] d

/-- BEAT_FORM. -/
def execBeatForm (s : State) : Host.Outcome State Fault Refusal := done s doBeatForm

/-- The source waits for the shadow's reports too. -/
def needsPeer (d : Dev) : Bool := d.mod.mode == .lead && d.twn.pair == 1

/-- The port is being frozen by this source. -/
def freezingHere (p : Nat) (d : Dev) : Bool := sourceOn d && portEnabled d p && (d.getTck p).pstate == .freezing

/-- SEAL with the highest reported count, once every report is held (08 R221). -/
def trySeal (p : Nat) (d : Dev) : Dev :=
  let t := d.getTck p
  match t.ownReport with
  | none => d
  | some z =>
    if needsPeer d && t.peerReport.isNone then d
    else formRec 1 [⟨p, 5, Nat.max z (t.peerReport.getD 0)⟩] [] d

/-- FREEZE_REPORT_RECEIVED: the device's own report, or the shadow's count. -/
def doFreezeReport (p z : Nat) (own : Bool) (d : Dev) : Dev :=
  if !freezingHere p d then d
  else trySeal p (if own then d else d.updTck p (fun t => { t with peerReport := some z }))

/-- FREEZE_REPORT_RECEIVED. -/
def execFreezeReportReceived (p z : Nat) (own : Bool) (s : State) : Host.Outcome State Fault Refusal := done s (doFreezeReport p z own)

/-- FREEZE_REPORT_MISSING: a report is missing 20 microseconds after FREEZE (08 R221). -/
def execFreezeReportMissing (p : Nat) (s : State) : Host.Outcome State Fault Refusal :=
  done s (fun d =>
    if freezingHere p d && needsPeer d && (d.getTck p).peerReport.isNone then event 0x0802 2 (be 1 p ++ be 6 (d.getTck p).freezeRseq) d else d)

/-- FREEZE_SEAL_TIMEOUT: SEAL with the lead's own report after 200 microseconds (09 R253). -/
def execFreezeSealTimeout (p : Nat) (s : State) : Host.Outcome State Fault Refusal :=
  done s (fun d =>
    match freezingHere p d && needsPeer d && (d.getTck p).peerReport.isNone, (d.getTck p).ownReport with
    | true, some z => formRec 1 [⟨p, 5, z⟩] [] d
    | _, _ => d)

/-- WAKE_SEND: a FROZEN port holds frame F; a Slot-mode cipher port has a frame to send at once (08 R222). -/
def doWakeSend (p : Nat) (d : Dev) : Dev :=
  let t := d.getTck p
  let holds := slotNow p d || t.rx.any (fun f => !frameLong p f d && decide (t.horizon ≤ f.idx))
  if sourceOn d && portEnabled d p && t.pstate == .frozen && holds then formRec 1 [⟨p, 6, t.freezeAt + marginNow p d⟩] [] d else d

/-- WAKE_SEND. -/
def execWakeSend (p : Nat) (s : State) : Host.Outcome State Fault Refusal := done s (doWakeSend p)

end Sys2Proof.Machine
end

