-- ==== Sys2Proof/Machine/Pkx.lean ====
section
/-! DEFINITION. PKX sessions as OSF runs them (07 R204 to R210; log entry 19). -/

namespace Sys2Proof.Machine

def getPkx (n : Nat) (d : Dev) : PkxSession := Tab.get {} d.keys.pkx n
def updPkx (n : Nat) (f : PkxSession → PkxSession) (d : Dev) : Dev := { d with keys := { d.keys with pkx := Tab.upd {} d.keys.pkx n f } }

/-! ### Messages on the wire (07 Tables 07-8 to 07-10) -/

/-- The header of a message's fragment: version 1.0. -/
def pkxHeader (code len session frag nfrag : Nat) : Bytes :=
  be 4 0x4F56504B ++ [0x10] ++ be 1 code ++ be 2 len ++ be 8 session ++ be 1 frag ++ be 1 nfrag ++ [0, 0]

/-- Send a message by way of a frame-injection queue: fragments in frames of a Frame-mode port, whole on the management channel of a Slot-mode
port (07 R204). Port 64 + j stands for Holpen port j, whose sessions travel in LINKHELLO payloads (09 R266). -/
def pkxSend (p code session : Nat) (body : Bytes) (d : Dev) : Dev :=
  let parts := pieces 1456 body
  let part := fun (i : Nat) => pkxHeader code body.length session i parts.length ++ nth [] parts i
  if 64 ≤ p then each (List.range parts.length) (fun i => linkSend (p - 64) (part i)) d
  else if slotPort d.tab p then
    osfPut (osfQueue (some (fld (d.tab.getSlt (facePos p)).ctrl 11 8)) p d) (pkxHeader code body.length session 0 1 ++ body) d
  else
    let r := freeBytes 12 d
    each (List.range parts.length) (fun i =>
      let b := r.1 ++ be 2 0x88B5 ++ part i
      osfSend p (b ++ zeros (60 - b.length))) r.2

/-- A HELLO or REPLY body, parsed. -/
structure PkxBody where
  hybrid : Bool
  vermap : Nat
  keyId : Bytes
  serial : Nat
  groups : List (Nat × Nat)
  kem : Bytes
  ec : Bytes
  unsigned : Bytes
  sig : Bytes

/-- Read a body; `none` when its length does not fit its fields. -/
def pkxBody (b : Bytes) : Option PkxBody :=
  let hy := bitAt (byteAt b 0) 0
  let g := byteAt b 1
  let ec := if hy then 97 else 0
  let u := 76 + 8 * g + 1568 + ec
  if g = 0 || decide (64 < g) || decide (1 < byteAt b 0) || b.length ≠ u + 3309 then none
  else some ⟨hy, beAt b 2 2, sub_ b 36 32, beAt b 68 8, (List.range g).map (fun i => (beAt b (76 + 8 * i) 4, byteAt b (80 + 8 * i))),
    sub_ b (76 + 8 * g) 1568, sub_ b (76 + 8 * g + 1568) ec, b.take u, b.drop u⟩

/-- The bytes before the signature. -/
def pkxUnsigned (hybrid : Bool) (vermap : Nat) (nonce keyId : Bytes) (serial : Nat) (groups : List (Nat × Nat)) (kem ec : Bytes) : Bytes :=
  be 1 hybrid.toNat ++ be 1 groups.length ++ be 2 vermap ++ fit 32 nonce ++ fit 32 keyId ++ be 8 serial
    ++ (groups.map (fun g => be 4 g.1 ++ be 1 g.2 ++ zeros 3)).flatten ++ fit 1568 kem ++ (if hybrid then fit 97 ec else [])

/-- The peer whose identity key signed the body (07 R208). -/
def pkxPeerOf (keyId m sig : Bytes) (d : Dev) : Option PkxPeer :=
  d.keys.pkxPeers.find? (fun x => x.keyId == keyId && Config.mldsaVerify x.pubKey m sig)

/-! ### Slots of a session -/

/-- The first free KEK slot from `i` on; `fuel` bounds the search. OSF's choice among the free slots is a free value. -/
def freeKekFrom (d : Dev) : Nat → Nat → Option Nat
  | 0, _ => none
  | f + 1, i => if kekFree (i % 1024) d then some (i % 1024) else freeKekFrom d f (i + 1)

/-- A free KEK slot. -/
def pickKek (d : Dev) : Option Nat × Dev :=
  let r := freeNat d
  (freeKekFrom r.2 1024 r.1, r.2)

/-- The lowest free LPK slots. -/
def freeLpks (d : Dev) : List Nat := (List.range 64).filter (fun n => lpkFree n d)

/-- A slot for a derived message key, with SCE usage (07 R206). -/
def putMsgKey (key : Bytes) (d : Dev) : Option Nat × Dev :=
  let r := pickKek d
  match r.1 with
  | none => (none, r.2)
  | some n =>
    let i := freeKeyId r.2
    (some n, putKek n .persistent (2 ^ uSCE) i.1 key i.2)

/-- Clear the slots of a session. -/
def pkxClear (n : Nat) (d : Dev) : Dev :=
  let s := getPkx n d
  let k := fun (o : Option Nat) (d : Dev) => match o with | some i => clearKek i d | none => d
  let l := fun (o : Option Nat) (d : Dev) => match o with | some i => clearLpk i d | none => d
  updPkx n (fun s => { s with ckSlot := none, mkI := none, mkR := none, lpkKem := none, lpkEc := none })
    (l s.lpkKem (l s.lpkEc (k s.ckSlot (k s.mkI (k s.mkR d)))))

/-- A session fails: its slots are cleared, event 0x0706 as OSF posts it, and the next wait doubles up to 64 s (07 R207). One that has failed
already waits on. -/
def pkxFail (n reason : Nat) (d : Dev) : Dev :=
  let s := getPkx n d
  if s.state = .failed then d else
  let d := recordFull 0x0706 2 63 1 (be 1 reason ++ be 4 (s.peerSerial % 2 ^ 32)) false (pkxClear n d)
  updPkx n (fun s => { s with state := .failed, backoff := Nat.min 64 (2 * s.backoff) }) d

/-- The session keys from the secrets: CK by KEY_COMBINE, mk_i and mk_r by KEY_DERIVE (07 R206). -/
def pkxKeys (n : Nat) (ssKem ssEc th : Bytes) (d : Dev) : Option Dev :=
  let ck := combineKey ssKem ssEc th
  let r := pickKek d
  match r.1 with
  | none => none
  | some c =>
    let i := freeKeyId r.2
    let d := putKek c .ephemeral (2 ^ uDERIVE) i.1 ck i.2
    let a := putMsgKey (derive0 0 (ascii "OVPKX1-MSG-I") ck 0 th 32) d
    let b := putMsgKey (derive0 0 (ascii "OVPKX1-MSG-R") ck 0 th 32) a.2
    match a.1, b.1 with
    | some x, some y => some (updPkx n (fun s => { s with ckSlot := some c, mkI := some x, mkR := some y, th := th }) b.2)
    | _, _ => none

/-- Remember and send the session's message. -/
def pkxSay (n code : Nat) (body : Bytes) (d : Dev) : Dev :=
  let s := getPkx n d
  pkxSend s.port code s.session body (updPkx n (fun s => { s with lastCode := code, lastMsg := body, retx := 0 }) d)

/-! ### Starting and answering (07 R205 to R209) -/

/-- The identity key and its label. -/
def idKey (d : Dev) : Bytes := (d.getLpk 0).key
def idKeyId (d : Dev) : Bytes := shake256 (Config.mldsaPk (idKey d)) 32

/-- The random source, the identity key and the mode allow OSF a session (07 R205; 14 Table 14-1). -/
def pkxReady (d : Dev) : Bool := !rngBad d && !noKwr d && (d.getLpk 0).valid && !keyBadMode (reqCore 0) false true d

/-- Free LPK slots for the initiator's keys: one for the ML-KEM key, and in a HYBRID session one more for the EC key (07 Table 07-10). -/
def pkxSlots (hybrid : Bool) (d : Dev) : Option (Nat × Option Nat) :=
  match hybrid, freeLpks d with
  | true, a :: e :: _ => some (a, some e)
  | false, a :: _ => some (a, none)
  | _, _ => none

/-- The initiator draws its keys and sends HELLO. -/
def pkxStart (n : Nat) (d : Dev) : Dev :=
  let s := getPkx n d
  match pkxReady d, pkxSlots s.hybrid d with
  | true, some (a, e) =>
    let k := freeBytes 64 d
    let c := freeBytes 48 k.2
    let no := freeBytes 32 c.2
    let sid := freeBytes 8 no.2
    let rnd := freeBytes 32 sid.2
    let d := putPrivate a 1 k.1 rnd.2
    let d := match e with | some e => putPrivate e 2 c.1 d | none => d
    let u := pkxUnsigned s.hybrid 2 no.1 (idKeyId d) d.mod.fuses.serial s.groups (Config.mlkemEk k.1) (Config.p384Pub c.1)
    let body := u ++ fit 3309 (Config.mldsaSign (idKey d) u rnd.1)
    let d := updPkx n (fun s => { s with session := ofBe sid.1, state := .helloSent, initiator := true, helloUnsigned := u, hello := body,
                                         lpkKem := some a, lpkEc := e, seqTx := 1, seqRx := 0, keyNo := [] }) d
    pkxSay n 1 body d
  | _, _ => pkxFail n 4 (updPkx n (fun s => { s with initiator := true }) d)

/-- The session that carries an ID on a port. -/
def pkxFind (p session : Nat) (d : Dev) : Option Nat :=
  (d.keys.pkx.find? (fun e => e.2.session == session && e.2.port == p && e.2.state != .idle)).map (fun e => e.1)

/-- A free session number: one above every number in use. -/
def pkxNew (d : Dev) : Nat := d.keys.pkx.foldl (fun a e => Nat.max a (e.1 + 1)) 0

/-- ABORT with a reason. -/
def pkxAbort (p session reason : Nat) (d : Dev) : Dev := pkxSend p 7 session (be 1 reason) d

/-- The responder answers a valid HELLO: encapsulation, keys, and a signed REPLY. Its session replaces the established one with that peer on the
port, if any (Table 07-11). -/
def pkxAnswer (p session : Nat) (x : PkxBody) (body : Bytes) (peer : PkxPeer) (d : Dev) : Dev :=
  let groups := if 64 ≤ p then x.groups else x.groups.filter (fun g => d.keys.pkxGroups.any (fun y => y.1 == g.1))
  let old := (d.keys.pkx.find? (fun e => e.2.state == .established && e.2.port == p && e.2.peerSerial == x.serial)).map (fun e => e.1)
  if groups.isEmpty then pkxAbort p session 3 d
  else if !pkxReady d || !Config.mlkemEkOk x.kem || (x.hybrid && !Config.p384Ok x.ec) then pkxAbort p session 4 d
  else
    let n := pkxNew d
    let m := freeBytes 32 d
    let c := freeBytes 48 m.2
    let no := freeBytes 32 c.2
    let rnd := freeBytes 32 no.2
    let d := rnd.2
    let u := pkxUnsigned x.hybrid 0 no.1 (idKeyId d) d.mod.fuses.serial groups (Config.mlkemCt x.kem m.1) (Config.p384Pub c.1)
    let th := shake256 (x.unsigned ++ u) 64
    let d' := updPkx n (fun _ => { session := session, port := p, hybrid := x.hybrid, peerSerial := x.serial, peerKeyId := peer.keyId,
                                   groups := groups, helloUnsigned := x.unsigned, hello := body, replaces := old }) d
    match pkxKeys n (fit 32 (Config.mlkemSs x.kem m.1)) (if x.hybrid then fit 48 (Config.p384Ecdh c.1 x.ec) else []) th d' with
    | none => pkxAbort p session 4 d
    | some d =>
      let reply := u ++ fit 3309 (Config.mldsaSign (idKey d) th rnd.1)
      pkxSay n 2 reply (updPkx n (fun s => { s with state := .replySent, reply := reply }) d)

/-- HELLO (07 R208, R209). -/
def pkxHelloIn (p session : Nat) (body : Bytes) (d : Dev) : Dev :=
  match pkxFind p session d with
  | some n => if (getPkx n d).hello = body && !(getPkx n d).initiator && !(getPkx n d).reply.isEmpty then pkxSend p 2 session (getPkx n d).reply d else d
  | none =>
    if !bitAt (beAt body 2 2) 1 then pkxAbort p session 1 d
    else match pkxBody body with
      | none => d
      | some x => match pkxPeerOf x.keyId x.unsigned x.sig d with
        | none => d
        | some peer =>
          match d.keys.pkx.find? (fun e => e.2.state == .helloSent && e.2.port == p && e.2.peerSerial == x.serial) with
          | some own =>
            if d.mod.fuses.serial < x.serial then d
            else pkxAnswer p session x body peer (updPkx own.1 (fun s => { s with state := .idle, initiator := false }) (pkxClear own.1 d))
          | none => pkxAnswer p session x body peer d

/-! ### Key notes: a new SA of a group (07 R210) -/

/-- The message key of this end's direction (`own`) or of the peer's. -/
def pkxMk (s : PkxSession) (own : Bool) (d : Dev) : Bytes :=
  match if s.initiator == own then s.mkI else s.mkR with | some n => (d.getKek n).key | none => []

/-- The AAD of a KEYNOTE or KEYACK: PKX header bytes 0 to 15. -/
def pkxAad (code session : Nat) : Bytes := (pkxHeader code 48 session 0 1).take 16

/-- Send a KEYNOTE or KEYACK. -/
def pkxNote (n code : Nat) (plain : Bytes) (d : Dev) : Dev :=
  let s := getPkx n d
  let r := gcmSeal (pkxMk s true d) (be 4 0 ++ be 8 s.seqTx) (pkxAad code s.session) (fit 24 plain)
  pkxSend s.port code s.session (be 8 s.seqTx ++ r.1 ++ r.2) (updPkx n (fun s => { s with seqTx := s.seqTx + 1 }) d)

/-- The first of `width` free SA slots of a slice, none of them meant for an installation whose commands wait at the gate. -/
def freeSlots (sl width : Nat) (d : Dev) : Option Nat :=
  let taken := d.keys.osfSas.filter (fun s => s.phase == 0)
  ((List.range (16384 - width + 1)).map (fun i => 16384 * sl + i)).find? (fun w => (List.range width).all (fun j =>
    (d.tab.getSa (w + j)).state == .free && !taken.any (fun s => decide (s.slot ≤ w + j) && decide (w + j < s.slot + 6))))

/-- A free staging buffer of a slice. -/
def freeBuf (sl : Nat) (d : Dev) : Option Nat := [sl, sl + 8, sl + 16, sl + 24].find? (fun b => (d.getStage b).state == 0)

/-- What a shadow's OSF asks of the lead's over the pair's path: a mailbox message of the model's layout (09 Table 09-4 order 3; log entry 89). -/
def shadowAsk (code chid an dir buf suite slot : Nat) : Bytes :=
  ascii "OSF-TWIN" ++ be 2 code ++ be 2 chid ++ be 1 an ++ be 1 dir ++ be 1 buf ++ be 1 suite ++ be 4 slot

/-- OSF queues a gated command of its own; tag 0 marks one whose completion it does not wait for. A shadow's gate takes no local command (08 R226):
there OSF has the lead commit an SA_ERASE, marked SHADOWONLY, and leaves the others to the lead, whose own commands take effect on both
twins (09 R251, R252). -/
def osfGate (tag code p0 p1 p2 p3 : Nat) (d : Dev) : Dev :=
  if d.mod.mode = .shadow then (if code = 0x0008 then twinSend 0x0B (shadowAsk code 0 0 0 0 0 p0) d else d)
  else doGateSubmit ⟨.osf, tag, 0, 0⟩ { code := code, shadowOnly := false, nbt := none, nlt := none, p0 := p0, p1 := p1, p2 := p2, p3 := p3, p4 := 0, image := [] } d

/-- The commands of an installation: window, load, attachment, and on receive activation. The last of them carries the tag. -/
def osfCommit (gate : Nat → Nat → Nat → Nat → Nat → Nat → Dev → Dev) (tag slot buf chid an dir : Nat) (win : Bool) (d : Dev) : Dev :=
  let d := if win then gate 0 0x0002 (slot + 1) chid 0 0 d else d
  let d := gate (if dir = 1 then 0 else tag) 0x0004 slot chid an (if win then slot + 1 else 2 ^ 64 - 1) (gate 0 0x0001 slot buf 0 0 d)
  if dir = 1 then gate tag 0x0005 slot 0 0 0 d else d

/-- The slot of an installation that the lead commits for a shadow, until the shadow sees which one it is. -/
def unknownSlot : Nat := 2 ^ 17

/-- OSF stages a derived SA and queues its load and attachment, and its activation on receive; `none` without a slot or a buffer. The last of
these commands carries the tag by which OSF knows that the SA is installed. In SHADOW the lead's gate commits it, marked SHADOWONLY, to the
slot that the lead uses for the AN (09 R252). `of_` names the PKX session, group and key number. -/
def osfInstall (of_ : Option Nat × Nat × Nat) (chid an suite ssci pn dir : Nat) (salt key : Bytes) (d : Dev) : Option Dev :=
  let sl := chSlice chid
  let win := if dir = 1 && (d.tab.getChn chid).kind == 0 then some 5 else none
  match freeBuf sl d, freeSlots sl (1 + win.getD 0) d with
  | some buf, some slot =>
    let lim := if dir = 0 then (defSoft suite, defHard suite) else (0, 0)
    let d := d.setStage buf { state := 2, image := { state := .basting, dir := dir, suite := suite, ssci := ssci, salt := ofBe salt, key := key },
                              live := { nextPn := pn, softPn := lim.1, hardPn := lim.2 } }
    let tag := d.keys.osfTag + 1
    let shadow := d.mod.mode == .shadow
    let d := d.updKeys (fun k => { k with
      osfTag := tag, osfSas := k.osfSas ++ [⟨chid, if shadow then unknownSlot else slot, dir, of_.1, of_.2.1, of_.2.2, tag, 0, none⟩] })
    some (if shadow then twinSend 0x0B (shadowAsk 0x0001 chid an dir buf suite 0) d
          else osfCommit osfGate tag slot buf chid an dir win.isSome d)
  | _, _ => none

/-- Key and salt of a group's SA (07 R206). -/
def pkxSak (ck : Bytes) (g s k suite : Nat) : Bytes := derive0 0 (ascii "OVPKX1-SAK") ck (2 * k + s) (be 4 g) (suiteKeyLen suite)
def pkxSalt (ck : Bytes) (g s k : Nat) : Bytes := derive0 1 (ascii "OVPKX1-SALT") ck (2 * k + s) (be 4 g) 12

/-- The key number of a group's next transmit SA: above the group's last one, and high enough for a FRESH derivation, whose CTR = 2k + s must exceed the
CK's DCTR whichever group raised that (07 R192, R206; DEDUCED, log entry 75). -/
def pkxNextKey (s : PkxSession) (g dir : Nat) (d : Dev) : Nat :=
  let dctr := match s.ckSlot with | some c => (d.getKek c).dctr | none => 0
  Nat.max (((s.keyNo.find? (fun x => x.1 == g)).map (fun x => x.2)).getD 0 + 1) ((dctr - dir) / 2 + 1)

/-- This end starts a new transmit SA of a group: a FRESH derivation, its staging, and KEYNOTE. -/
def pkxStartSa (n : Nat) (g : Nat × Nat) (d : Dev) : Dev :=
  let s := getPkx n d
  match d.keys.pkxGroups.find? (fun y => y.1 == g.1), s.ckSlot with
  | some (_, tc, _), some c =>
    let dir := if s.initiator then 0 else 1
    let k := pkxNextKey s g.1 dir d
    let ck := (d.getKek c).key
    let r := freeNat d
    let ssci := (2 * r.1 + d.tab.side) % 2 ^ 32
    let pn := if (d.tab.getChn tc).kind = 0 then 1 else 0
    match osfInstall (some n, g.1, k) tc (k % 4) g.2 ssci pn 0 (pkxSalt ck g.1 dir k) (pkxSak ck g.1 dir k g.2) (r.2.updKek c (fun x => { x with dctr := 2 * k + dir })) with
    | none => r.2
    | some d =>
      let d := updPkx n (fun s => { s with keyNo := (g.1, k) :: s.keyNo.filter (fun x => x.1 != g.1) }) d
      pkxNote n 5 (be 4 g.1 ++ be 4 k ++ be 1 (k % 4) ++ be 1 g.2 ++ be 1 (d.tab.getChn tc).pcode ++ [0] ++ be 4 ssci ++ be 8 pn) d
  | _, _ => d

/-- The session is established: backoff starts again at 1 s, and each end starts its SAs (07 Table 07-15); a Holpen link takes its keys (09 R266). -/
def pkxEstablish (n : Nat) (d : Dev) : Dev :=
  let d := updPkx n (fun s => { s with state := .established, backoff := 1 }) d
  let s := getPkx n d
  if 64 ≤ s.port then (match s.ckSlot with | some c => linkUp (s.port - 64) (d.getKek c).key d | none => d)
  else each s.groups (pkxStartSa n) d

/-- A KEYNOTE or KEYACK opened: its SEQ must exceed the last one accepted. -/
def pkxOpen (n code : Nat) (body : Bytes) (d : Dev) : Option Bytes :=
  let s := getPkx n d
  let seq := beAt body 0 8
  if body.length ≠ 48 || decide (seq ≤ s.seqRx) then none
  else gcmOpen (pkxMk s false d) (be 4 0 ++ be 8 seq) (pkxAad code s.session) (sub_ body 8 24) (sub_ body 32 16)

/-- KEYACK of a group's key: status 0 ready, 1 refused. -/
def pkxAck (n g k st : Nat) (d : Dev) : Dev := pkxNote n 6 (be 4 g ++ be 4 k ++ be 1 st ++ zeros 15) d

/-- KEYNOTE: the receive SA's installation and activation go to the gate, and KEYACK follows once it is active (`osfDone`); a note that does
not fit the group's suite, AN or protection code is refused. -/
def pkxKeynoteIn (n : Nat) (body : Bytes) (d : Dev) : Dev :=
  let s := getPkx n d
  match pkxOpen n 5 body d, s.ckSlot with
  | some x, some c =>
    let g := beAt x 0 4
    let k := beAt x 4 4
    let suite := byteAt x 9
    let d := updPkx n (fun s => { s with seqRx := beAt body 0 8 }) d
    let dir := if s.initiator then 1 else 0
    let ck := (d.getKek c).key
    match s.groups.find? (fun y => y.1 == g), d.keys.pkxGroups.find? (fun y => y.1 == g) with
    | some gr, some (_, _, rc) =>
      if gr.2 ≠ suite || byteAt x 8 ≠ k % 4 || byteAt x 10 ≠ (d.tab.getChn rc).pcode then pkxAck n g k 1 d
      else match osfInstall (some n, g, k) rc (k % 4) suite (beAt x 12 4) (beAt x 16 8) 1 (pkxSalt ck g dir k) (pkxSak ck g dir k suite) d with
        | none => pkxAck n g k 1 d
        | some d => d
    | _, _ => pkxAck n g k 1 d
  | _, _ => pkxFail n 2 d

/-- KEYACK: with status 0 OSF submits the transmit seam. -/
def pkxKeyackIn (n : Nat) (body : Bytes) (d : Dev) : Dev :=
  match pkxOpen n 6 body d with
  | none => pkxFail n 2 d
  | some x =>
    let d := updPkx n (fun s => { s with seqRx := beAt body 0 8 }) d
    match d.keys.pkxGroups.find? (fun y => y.1 == beAt x 0 4) with
    | some (_, tc, _) => if byteAt x 8 = 0 then osfGate 0 0x0006 tc (beAt x 4 4 % 4) (if (d.tab.getChn tc).kind = 0 then 0 else 2) 0 d else d
    | none => d

/-! ### The other messages -/

/-- The initiator's EC key is cleared when it had one. -/
def clearEc (e : Option Nat) (d : Dev) : Dev := match e with | some i => clearLpk i d | none => d

/-- A CONFIRM's or FINISH's tag verifies under the message key of its sender (07 Table 07-9). -/
def pkxTagOk (mk : Option Nat) (th : Bytes) (code : Nat) (body : Bytes) (d : Dev) : Bool :=
  match mk with
  | some k => gcmTag (d.getKek k).key (zeros 12) (th ++ be 1 code) [] == body
  | none => false

/-- The initiator has both shared secrets: it makes the keys and sends CONFIRM. -/
def pkxConfirm (n : Nat) (ss se th : Bytes) (d : Dev) : Dev :=
  match pkxKeys n ss se th d with
  | none => pkxFail n 4 d
  | some d => pkxSay n 3 (gcmTag (pkxMk (getPkx n d) true d) (zeros 12) (th ++ [3]) []) (updPkx n (fun s => { s with state := .confirmSent }) d)

/-- REPLY: an invalid one fails the session in every state; a valid one makes the initiator that waits for it decapsulate, derive and confirm
(07 R208). -/
def pkxReplyIn (n : Nat) (body : Bytes) (d : Dev) : Dev :=
  let s := getPkx n d
  match pkxBody body with
  | none => pkxFail n 2 d
  | some x =>
    let th := shake256 (s.helloUnsigned ++ x.unsigned) 64
    match pkxPeerOf x.keyId th x.sig d with
    | none => pkxFail n 2 d
    | some peer =>
      match decide (s.state = .helloSent), s.lpkKem with
      | true, some a =>
        if x.groups.isEmpty || x.groups.any (fun g => !s.groups.contains g) || x.hybrid != s.hybrid || (x.hybrid && !Config.p384Ok x.ec) then pkxFail n 2 d
        else
          let ss := fit 32 (Config.mlkemDecap (d.getLpk a).key x.kem)
          let se := match s.lpkEc with | some e => fit 48 (Config.p384Ecdh (d.getLpk e).key x.ec) | none => []
          let d := clearEc s.lpkEc (clearLpk a d)
          pkxConfirm n ss se th
            (updPkx n (fun s => { s with lpkKem := none, lpkEc := none, peerSerial := x.serial, peerKeyId := peer.keyId, groups := x.groups }) d)
      | _, _ => d

/-- CONFIRM: the responder that waits for it finishes; an invalid one fails the session in every state (07 R208). -/
def pkxConfirmIn (n : Nat) (body : Bytes) (d : Dev) : Dev :=
  let s := getPkx n d
  if !pkxTagOk s.mkI s.th 3 body d then pkxFail n 2 d
  else if s.state ≠ .replySent then d
  else pkxEstablish n (pkxSay n 4 (gcmTag (pkxMk s true d) (zeros 12) (s.th ++ [4]) []) d)

/-- FINISH: the initiator that waits for it is established; an invalid one fails the session in every state (07 R208). -/
def pkxFinishIn (n : Nat) (body : Bytes) (d : Dev) : Dev :=
  let s := getPkx n d
  if !pkxTagOk s.mkR s.th 4 body d then pkxFail n 2 d
  else if s.state ≠ .confirmSent then d
  else pkxEstablish n d

/-- ABORT counts in HELLO_SENT and for its own session only; another one is recorded and ignored (07 R208). -/
def pkxAbortIn (p session : Nat) (body : Bytes) (d : Dev) : Dev :=
  match (pkxFind p session d).filter (fun n => (getPkx n d).state == .helloSent) with
  | some n => pkxFail n (byteAt body 0) d
  | none => d.updKeys (fun k => { k with pkxAborts := (p, session, byteAt body 0) :: k.pkxAborts })

/-- A whole message acts on its session. A key note of a session that is not established fails it when it is invalid, and is ignored when it is valid
(07 R208, R210). -/
def pkxMessage (p code session : Nat) (body : Bytes) (d : Dev) : Dev :=
  if code = 1 then pkxHelloIn p session body d
  else if code = 7 then pkxAbortIn p session body d
  else match pkxFind p session d with
    | none => d
    | some n =>
      let st := (getPkx n d).state
      if code = 2 then pkxReplyIn n body d
      else if code = 3 then pkxConfirmIn n body d
      else if code = 4 then pkxFinishIn n body d
      else if st ≠ .established then (if (pkxOpen n code body d).isSome then d else pkxFail n 2 d)
      else if code = 5 then pkxKeynoteIn n body d else pkxKeyackIn n body d

/-- A fragment arrives; the last one completes its message (07 R204). A message of a version that is not accepted fails its session (R208), but for
HELLO, which is answered, and ABORT, which is not authenticated and whose reason may be the version itself. -/
def pkxFragment (p code : Nat) (hdr body : Bytes) (d : Dev) : Dev :=
  let len := beAt hdr 6 2
  let session := beAt hdr 8 8
  let i := byteAt hdr 16
  let nf := byteAt hdr 17
  let same := fun (f : PkxFrag) => f.port == p && f.session == session && f.code == code
  if hdr.length ≠ 20 || beAt hdr 0 4 ≠ 0x4F56504B || byteAt hdr 5 ≠ code
      || nf = 0 || decide (12 < nf) || decide (nf ≤ i) || len = 0 || decide (16364 < len) then d
  else if code != 1 && code != 7 && byteAt hdr 4 / 16 != 1 then
    (match pkxFind p session d with | some n => pkxFail n 1 d | none => d)
  else
    let old := (d.keys.pkxFrags.find? same).getD ⟨p, session, code, len, nf, []⟩
    let f := { old with parts := Tab.set [] old.parts i body }
    let rest := d.keys.pkxFrags.filter (fun f => !same f)
    let whole := ((List.range nf).map (fun i => Tab.get [] f.parts i)).flatten
    if f.parts.length < nf then { d with keys := { d.keys with pkxFrags := rest ++ [f] } }
    else
      let d := { d with keys := { d.keys with pkxFrags := rest } }
      if whole.length < len then d else pkxMessage p code session (whole.take len) d

/-- PKX_HELLO. -/
def execPkxHello (p : Nat) (hdr body : Bytes) (s : State) : Host.Outcome State Fault Refusal := done s (pkxFragment p 1 hdr body)

/-- PKX_REPLY. -/
def execPkxReply (p : Nat) (hdr body : Bytes) (s : State) : Host.Outcome State Fault Refusal := done s (pkxFragment p 2 hdr body)

/-- PKX_CONFIRM. -/
def execPkxConfirm (p : Nat) (hdr body : Bytes) (s : State) : Host.Outcome State Fault Refusal := done s (pkxFragment p 3 hdr body)

/-- PKX_FINISH. -/
def execPkxFinish (p : Nat) (hdr body : Bytes) (s : State) : Host.Outcome State Fault Refusal := done s (pkxFragment p 4 hdr body)

/-- PKX_KEYNOTE. -/
def execPkxKeynote (p : Nat) (hdr body : Bytes) (s : State) : Host.Outcome State Fault Refusal := done s (pkxFragment p 5 hdr body)

/-- PKX_KEYACK. -/
def execPkxKeyack (p : Nat) (hdr body : Bytes) (s : State) : Host.Outcome State Fault Refusal := done s (pkxFragment p 6 hdr body)

/-- PKX_ABORT. -/
def execPkxAbort (p : Nat) (hdr body : Bytes) (s : State) : Host.Outcome State Fault Refusal := done s (pkxFragment p 7 hdr body)

/-- PKX_FRAGMENT_TIMEOUT: the fragments of a session on a port are discarded after 250 ms. -/
def execPkxFragmentTimeout (p session : Nat) (s : State) : Host.Outcome State Fault Refusal :=
  done s (fun d => { d with keys := { d.keys with pkxFrags := d.keys.pkxFrags.filter (fun f => !(f.port == p && f.session == session)) } })

/-! ### Timers (07 Table 07-12) -/

/-- T_RETX: the last message again, at most four times. -/
def doTRetx (n : Nat) (d : Dev) : Dev :=
  let s := getPkx n d
  if (s.state = .helloSent || s.state = .replySent || s.state = .confirmSent) && decide (s.retx < 4) then
    pkxSend s.port s.lastCode s.session s.lastMsg (updPkx n (fun s => { s with retx := s.retx + 1 }) d)
  else d

/-- T_RETX. -/
def execTRetx (n : Nat) (s : State) : Host.Outcome State Fault Refusal := done s (doTRetx n)

/-- T_SESSION: a session that is not established within 3 s fails. -/
def doTSession (n : Nat) (d : Dev) : Dev :=
  match (getPkx n d).state with
  | .helloSent => pkxFail n 5 d
  | .replySent => pkxFail n 5 d
  | .confirmSent => pkxFail n 5 d
  | _ => d

/-- T_SESSION. -/
def execTSession (n : Nat) (s : State) : Host.Outcome State Fault Refusal := done s (doTSession n)

/-- T_CK: a new session of the same groups starts beside the old one. -/
def doTCk (n : Nat) (d : Dev) : Dev :=
  let s := getPkx n d
  if s.state ≠ .established then d
  else
    let m := pkxNew d
    pkxStart m (updPkx m (fun _ => { port := s.port, hybrid := s.hybrid, peerSerial := s.peerSerial, peerKeyId := s.peerKeyId, groups := s.groups, replaces := some n }) d)

/-- T_CK. -/
def execTCk (n : Nat) (s : State) : Host.Outcome State Fault Refusal := done s (doTCk n)

/-- OSF gives up an SA: it is retired when it is in use or its installation is under way, and then erased. -/
def osfEnd (s : OsfSa) (d : Dev) : Dev :=
  let st := (d.tab.getSa s.slot).state
  osfGate 0 0x0008 s.slot 0 0 0 (if st = .active || st = .basting || s.phase = 0 then osfGate 0 0x0007 s.slot 0 0 0 d else d)

/-- T_OVERLAP: a session that an established one replaces ends, with its slots, its CK and the SAs of that CK (Table 07-12). -/
def doTOverlap (n : Nat) (d : Dev) : Dev :=
  if d.keys.pkx.any (fun e => e.2.replaces == some n && e.2.state == .established) then
    let d := each (d.keys.osfSas.filter (fun s => s.session == some n)) osfEnd d
    updPkx n (fun _ => {}) (pkxClear n (d.updKeys (fun k => { k with osfSas := k.osfSas.filter (fun s => s.session != some n) })))
  else d

/-- T_OVERLAP. -/
def execTOverlap (n : Nat) (s : State) : Host.Outcome State Fault Refusal := done s (doTOverlap n)

/-- T_BACKOFF: a failed session is IDLE again, and an initiator starts anew. -/
def doTBackoff (n : Nat) (d : Dev) : Dev :=
  let s := getPkx n d
  if s.state ≠ .failed then d
  else
    let d := updPkx n (fun s => { s with state := .idle }) d
    if s.initiator then pkxStart n d else d

/-- T_BACKOFF. -/
def execTBackoff (n : Nat) (s : State) : Host.Outcome State Fault Refusal := done s (doTBackoff n)

/-! ### What OSF does as time passes (05 R150, 07 R210; log entry 19) -/

/-- A command of an installation has completed: the SA is installed, or the installation has failed; on receive its KEYACK says which. -/
def osfDone (x : Nat × Nat) (d : Dev) : Dev :=
  match d.keys.osfSas.find? (fun s => s.phase == 0 && s.tag == x.1) with
  | none => d
  | some s =>
    let ok := x.2 == stOK
    let mark := fun (y : OsfSa) => if y.tag = x.1 then { y with phase := 1 } else y
    let d := d.updKeys (fun k => { k with osfSas := if ok then k.osfSas.map mark else k.osfSas.filter (fun y => y.tag != x.1) })
    match s.session with
    | some n => if s.dir = 1 then pkxAck n s.group s.key (if ok then 0 else 1) d else d
    | none => d

/-- A shadow's OSF sees in the tables that the lead's SHADOWONLY commands have installed an SA that it staged, and in which slot (09 R252). -/
def osfWatch (d : Dev) : Dev :=
  if d.mod.mode ≠ .shadow then d
  else each d.keys.osfSas (fun s d =>
    match anSlotOf d.tab s.chid (s.key % 4) with
    | some o =>
      if s.phase = 0 && s.slot = unknownSlot && (s.dir = 0 || (d.tab.getSa o).state == .active) then
        osfDone (s.tag, stOK) (d.updKeys (fun k => { k with osfSas := k.osfSas.map (fun y => if y.tag = s.tag then { y with slot := o } else y) }))
      else d
    | none => d) d

/-- The lead's OSF commits what a shadow's OSF has staged: the installation, marked SHADOWONLY, in the slot that its own table gives the AN, or
an erasure (09 R251, R252). -/
def osfForShadow (p : Bytes) (d : Dev) : Dev :=
  let gate := fun (tag code p0 p1 p2 p3 : Nat) (d : Dev) => doGateSubmit ⟨.osf, tag, 0, 0⟩
    { code := code, shadowOnly := true, nbt := none, nlt := none, p0 := p0, p1 := p1, p2 := p2, p3 := p3, p4 := 0, image := [] } d
  let chid := beAt p 10 2
  let an := byteAt p 12
  let dir := byteAt p 13
  if d.mod.mode ≠ .lead then d
  else if beAt p 8 2 = 0x0008 then gate 0 0x0008 (beAt p 16 4) 0 0 0 d
  else match anSlotOf d.tab chid an with
    | some slot => osfCommit gate 0 slot (byteAt p 14) chid an dir (dir == 1 && (d.tab.getChn chid).kind == 0) d
    | none => d

/-- OSF notes when an SA has verified its first frame. -/
def osfFirst (d : Dev) : Dev :=
  let seen := fun (s : OsfSa) => s.dir == 1 && s.phase == 1 && s.first.isNone && decide (0 < Tab.get 0 (d.getLive s.slot).ctr 0)
  d.updKeys (fun k => { k with osfSas := k.osfSas.map (fun s => if seen s then { s with first := some d.evr.optime } else s) })

/-- A receive SA is old: a later one of its channel verified its first frame at least 2 s ago (05 R150). -/
def osfOld (s : OsfSa) (d : Dev) : Bool :=
  s.dir == 1 && s.phase == 1 && d.keys.osfSas.any (fun y => y.chid == s.chid && y.dir == 1 && decide (s.tag < y.tag)
    && (match y.first with | some t => decide (t + 2000 ≤ d.evr.optime) | none => false))

/-- OSF retires the old receive SAs. -/
def osfRetire (d : Dev) : Dev :=
  let old := d.keys.osfSas.filter (fun s => osfOld s d)
  let d := each old (fun s => osfGate 0 0x0007 s.slot 0 0 0) d
  d.updKeys (fun k => { k with osfSas := k.osfSas.map (fun s => if old.contains s then { s with phase := 2 } else s) })

/-- A new transmit SA of a group is due: none has been started, or the last one has been installed and its NEXTPN has reached SOFTPN, which is what
wakes firmware (05 R152; when OSF starts a later SA is a DESIGN CHOICE, log entry 75). -/
def pkxDue (n : Nat) (g : Nat × Nat) (d : Dev) : Bool :=
  match (getPkx n d).keyNo.find? (fun x => x.1 == g.1) with
  | none => true
  | some x => d.keys.osfSas.any (fun s => s.session == some n && s.group == g.1 && s.dir == 0 && s.key == x.2 && s.phase == 1 && (d.getLive s.slot).softHit)

/-- OSF starts the sessions that it is configured to initiate, and the SAs that are due in the established ones (07 R207, R210). -/
def pkxBegin (n : Nat) (d : Dev) : Dev :=
  let s := getPkx n d
  if 64 ≤ s.port || !portEnabled d s.port then d
  else if s.state = .idle && s.initiator && !s.groups.isEmpty then pkxStart n d
  else if s.state = .established then each s.groups (fun g d => if pkxDue n g d then pkxStartSa n g d else d) d
  else d

/-- OSF reads the completions of its commands, answers its peers, retires what is old, and starts what is due. -/
def osfTick (d : Dev) : Dev :=
  let l := d.hif.osfDone
  let d := osfRetire (osfFirst (osfWatch (each l osfDone (d.updHif (fun h => { h with osfDone := [] })))))
  each d.keys.pkx (fun e => pkxBegin e.1) d

end Sys2Proof.Machine
end

