-- ==== Sys2Proof/Machine/Holpen.lean ====
section
/-! DEFINITION. Holpen links and the mesh: frames received, LINKHELLO, and what a node does with each type (09 R263 to R271). -/

namespace Sys2Proof.Machine

/-! ### What a node consumes (09 Table 09-9; layouts of log entry 16) -/

/-- The path of the pair by which port `j` brought a frame of node `src`: 0 path A, 1 path B (09 R235). -/
def pathOf (j src : Nat) (d : Dev) : Option Nat :=
  if j = 6 then some 0
  else if j = 7 && fld d.twn.hpCfg 1 0 == 3 then some 1
  else if fld d.twn.hpCfg 1 0 ≠ 3 && d.twn.partnerNode == some src then some 1 else none

/-- A fingerprint list as a digest carries it. -/
def fpsOf (b : Bytes) : List Nat := (pieces 4 b).map (fun x => beAt x 0 4)

/-- The triples of a resync state. -/
def chansOf (b : Bytes) : List (Nat × Nat × Nat) := (pieces 11 b).map (fun x => (beAt x 0 2, byteAt x 2, beAt x 3 8))

/-- A partner's offer of a compared pair; the side that has a pair after it answers an offer that is no answer itself (09 R236), before its notices,
which the partner takes only in a pair (15 R420). -/
def takeOffer (p : Bytes) (d : Dev) : Dev :=
  if beAt p 1 8 ≠ d.mod.fuses.serial then d
  else
    let forms := pairCheck (beAt p 9 8) (byteAt p 17) (beAt p 18 2) (byteAt p 20) d == 0
    let d := pairForm (beAt p 9 8) (byteAt p 17) (beAt p 18 2) (byteAt p 20) d
    when_ forms sliceNotices (if byteAt p 21 = 0 && d.twn.pair == 1 then sendOffer true d else d)

/-- The last part of a port's resync state has come: it takes effect as a whole (09 R249, R263). -/
def takeChans (n : Nat) (l : List (Nat × Nat × Nat)) (d : Dev) : Dev :=
  let all := (d.getTwn n).resyncPart ++ l
  doResyncState n all (d.updTwn n (fun t => { t with resyncPart := [] }))

/-- The last bytes of the lead's join state have come: what they say is installed (09 R252). -/
def takeJoin (b : Bytes) (d : Dev) : Dev :=
  let x := Config.joinOf (d.twn.joinBuf ++ b)
  let d := { d with twn := { d.twn with joinBuf := [] } }
  match x with
  | some s => if d.mod.mode = .shadow then doJoin s.tables s.sas s.tck s.acts d else d
  | none => d

/-- RESYNC: an offset for the lead's TWN, the resync state for the shadow, an offer, or the join state (09 R236, R249, R252, Table 09-8). -/
def takeResync (p : Bytes) (d : Dev) : Dev :=
  match byteAt p 0 with
  | 0 => if d.mod.mode = .lead then doTwnResync (byteAt p 1) (signed 64 (beAt p 2 8)) d else d
  | 1 => takeChans (byteAt p 1) (chansOf (p.drop 2)) d
  | 2 => takeOffer p d
  | 3 => d.updTwn (byteAt p 1) (fun t => { t with resyncPart := t.resyncPart ++ chansOf (p.drop 2) })
  | 4 => { d with twn := { d.twn with joinBuf := d.twn.joinBuf ++ p.drop 1 } }
  | 5 => takeJoin (p.drop 1) d
  | _ => d

/-- A frame between the twins, on path A or B: HEARTBEAT, TACKREC, FREEZEREP, DIGEST, MISMATCH, RESYNC. -/
def takeTwin (path type eseq : Nat) (p : Bytes) (d : Dev) : Dev :=
  match type with
  | 3 => doHeartbeat path (beAt p 0 8) (byteAt p 9) (beAt p 12 4) (byteAt p 20 == 1) d
  | 4 => takeRec eseq p d
  | 5 => if (d.getTck (byteAt p 0)).freezeRseq = beAt p 1 8 then doFreezeReport (byteAt p 0) (beAt p 9 8) false d else d
  | 6 => doPartnerDigest (byteAt p 0) (beAt p 1 10) (beAt p 11 2) (sub_ p 13 16) (fpsOf (p.drop 29)) d
  | 7 => doMismatch (byteAt p 0) (beAt p 1 10) (byteAt p 11 == 1) d
  | 8 => takeResync p d
  | _ => d

/-- SADIST, ATTEST and EVENT payloads go to a frame-extraction queue for OSF; which one is a free value (09 R270; log entry 16). -/
def takeForOsf (p : Bytes) (d : Dev) : Dev :=
  let r := freeNat d
  extract (r.1 % 16) 0 0 0 false 0 [] p r.2

/-- MBOX: a message for a core, the address of a neighbour that is lost, which of the partner is partner-gone evidence (09 R255, R270), or what a
shadow's OSF asks of the lead's (09 R252). -/
def takeMbox (p : Bytes) (d : Dev) : Dev :=
  if p.length = 2 then (if d.twn.partnerNode = some (beAt p 0 2) then { d with twn := { d.twn with evNbr := true } } else d)
  else if p.length = 20 && p.take 8 == ascii "OSF-TWIN" then osfForShadow p d
  else meshMessage p d

/-- ATTEST: a report request, kind 0 with a nonce, is answered to the node that sent it by the node's own signed report, in two frames; every
report, and a request that a node without an attestation key cannot answer, goes to OSF (09 R270, 14 R408; log entry 16). -/
def takeAttest (src : Nat) (p : Bytes) (d : Dev) : Dev :=
  if p.length ≠ 65 || byteAt p 0 ≠ 0 || !(d.getLpk 1).valid then takeForOsf p d
  else
    let r := attReport (p.drop 1) d
    meshSend 10 2 src (be 1 2 ++ r.1.drop 2000) (meshSend 10 2 src (be 1 1 ++ r.1.take 2000) r.2)

/-- A node consumes a frame that reached it by port `j`. -/
def holpenConsume (j type src eseq : Nat) (p : Bytes) (d : Dev) : Dev :=
  if 3 ≤ type && type ≤ 8 then (match pathOf j src d with | some path => takeTwin path type eseq p d | none => d)
  else if type = 9 || type = 12 then takeForOsf p d
  else if type = 10 then takeAttest src p d
  else if type = 11 then takeMbox p d else d

/-! ### Reception (09 R263, R265, R268, R269) -/

/-- A verified frame is routed, flooded or consumed; a broadcast is consumed and flooded on (09 R268, R269). -/
def holpenAct (j type prio dst src hops eseq : Nat) (p : Bytes) (d : Dev) : Dev :=
  if bitAt dst 15 then
    if d.twn.flooded.contains (src, eseq) then d
    else if type = 2 then zeroiseIn j (beAt p 0 2) hops eseq p d
    else
      let d := holpenConsume j type src eseq p d
      if hops ≤ 1 then twnCount 5 d else meshFlood type prio src (hops - 1) eseq p (some j) d
  else if isTwinPort j d || fld dst 8 0 = nodeAddr d then holpenConsume j type src eseq p d
  else if hops ≤ 1 then twnCount 5 d
  else match routePort (fld dst 8 0) d with
    | none => d
    | some k => hpSend k type prio (fld dst 8 0) src (hops - 1) eseq p d

/-- A frame that opened and stands in sequence: it acknowledges, asks again, or acts. -/
def holpenTake (j : Nat) (b p : Bytes) (d : Dev) : Dev :=
  let type := fld (byteAt b 1) 5 0
  let d := hpAck j (byteAt b 10) (d.updHp j (fun h => { h with fails := 0, lack := if hpLossless type then byteAt b 9 else h.lack }))
  if type = 0 then hpResend j d
  else holpenAct j type (byteAt b 1 / 64) (beAt b 4 2) (beAt b 6 2) (byteAt b 8) (beAt b 12 4) p d

/-- A protected frame arrives on a port that is up: each takes one link frame counter; then its tag, its sequence, and its effect. -/
def protectedFrame (j : Nat) (b : Bytes) (d : Dev) : Dev :=
  let h := d.getHp j
  let n := beAt b 2 2
  let type := fld (byteAt b 1) 5 0
  let d := d.updHp j (fun h => { h with rxCtr := h.rxCtr + 1 })
  if b.length ≠ n + 32 || decide (2048 < b.length) then holpenFail j (hpLossless type) d
  else match gcmOpen h.rxKey (hpIv h.rxSalt (if h.lowSerial then 1 else 0) h.rxCtr) (b.take 16) (sub_ b 16 n) (b.drop (16 + n)) with
    | none => holpenFail j (hpLossless type) d
    | some p => if hpLossless type && byteAt b 9 != (h.lack + 1) % 256 then holpenFail j true d else holpenTake j b p d

/-! ### LINKHELLO and link keys (09 R266, R267) -/

/-- The end with the lower serial starts the link's PKX session, on the port number 64 + j, with one group of its own (log entry 58). -/
def linkStart (j : Nat) (d : Dev) : Dev :=
  let n := pkxNew d
  if (d.getHp j).lowSerial then pkxStart n (updPkx n (fun _ => { port := 64 + j, hybrid := true, groups := [(0, 0)] }) d) else d

/-- A neighbour's LINKHELLO: version agreement and the neighbour's address, which is checked on a port that is up too; the end that hears the first one answers it and begins the key
exchange (09 R266, R267). -/
def doLinkhello (j majors minor nbr serial : Nat) (d : Dev) : Dev :=
  let st := (d.getHp j).state
  if st ≠ 1 && st != 2 && st != 3 then d
  else if st != 3 && !bitAt majors 1 then event 0x0908 2 (be 1 j ++ be 1 1) (d.updHp j (fun h => { h with state := 4 }))
  else
    if wrongNeighbour j nbr d then refuseNeighbour j d
    else if st = 3 then d
    else
      let d := d.updHp j (fun h => { h with vmaj := 1, vmin := Nat.min 0 minor, nbr := nbr, known := true, lowSerial := decide (d.mod.fuses.serial < serial), state := 2 })
      if st = 1 then linkStart j (linkHello j d) else d

/-- A part of a PKX message over a Holpen port that trains or is up. -/
def linkPart (j : Nat) (p : Bytes) (d : Dev) : Dev :=
  let st := (d.getHp j).state
  if st = 1 || st = 2 || st = 3 then pkxFragment (64 + j) (byteAt p 5) (p.take 20) (p.drop 20) d else d

/-- LINKHELLO. -/
def execLinkhello (j majors minor nbr serial : Nat) (pkx : Bytes) (s : State) : Host.Outcome State Fault Refusal :=
  done s (fun d => if pkx.isEmpty then doLinkhello j majors minor nbr serial d else linkPart j pkx d)

/-- A LINKHELLO frame arrives, unprotected: a part of a PKX message, or the version offer. -/
def helloFrame (j : Nat) (p : Bytes) (d : Dev) : Dev :=
  if beAt p 0 4 = 0x4F56504B then linkPart j p d
  else if p.length = 28 then doLinkhello j (beAt p 0 2) (byteAt p 3) (beAt p 18 2) (beAt p 20 8) d else d

/-- A Holpen frame arrives: a port accepts only LINKHELLO until its link keys exist (09 R263, R265, R266). -/
def doHolpenFrame (j : Nat) (b : Bytes) (d : Dev) : Dev :=
  let st := (d.getHp j).state
  if fld (byteAt b 1) 5 0 = 1 then
    if (st = 1 || st = 2 || st = 3) && b.length == beAt b 2 2 + 32 && decide (b.length ≤ 2048) then helloFrame j (sub_ b 16 (beAt b 2 2)) d else d
  else if st = 3 then protectedFrame j b d else d

/-- HOLPEN_FRAME. -/
def execHolpenFrame (j : Nat) (bytes : Bytes) (s : State) : Host.Outcome State Fault Refusal := done s (doHolpenFrame j bytes)

/-- LINK_REKEY, every T_CK: the initiator of the link's session starts the one that replaces it; the other end waits for it (09 R266). -/
def doLinkRekey (j : Nat) (d : Dev) : Dev :=
  if (d.getHp j).state ≠ 3 then d
  else match d.keys.pkx.find? (fun e => e.2.port == 64 + j && e.2.state == .established && e.2.initiator) with
    | some e => doTCk e.1 d
    | none => d

/-- LINK_REKEY. -/
def execLinkRekey (j : Nat) (s : State) : Host.Outcome State Fault Refusal := done s (doLinkRekey j)

end Sys2Proof.Machine
end

