-- ==== Sys2Proof/Machine/Mka.lean ====
section
/-! DEFINITION. The MKA subset that OSF runs (07 R203, R212 to R214; log entry 20). -/

namespace Sys2Proof.Machine

def getMka (n : Nat) (d : Dev) : Option MkaCa := Tab.get none d.keys.mka n
def setMka (n : Nat) (c : MkaCa) (d : Dev) : Dev := { d with keys := { d.keys with mka := Tab.set none d.keys.mka n (some c) } }

/-- OSF runs no MKA CA in LEAD or SHADOW (07 R214). -/
def mkaOff (d : Dev) : Bool := d.mod.mode == .lead || d.mod.mode == .shadow

/-! ### Keys of a CA (07 Table 07-14) -/

/-- ICK and KEK are derived from the CAK by function 1 when their slots are empty: ICK with SCE usage, KEK with UNWRAP and WRAP. The context is
the CKN (log entry 20). -/
def mkaKeys (c : MkaCa) (d : Dev) : Dev :=
  let cak := (d.getKek c.cak).key
  let put := fun (slot usage : Nat) (label : String) (d : Dev) =>
    if (d.getKek slot).valid || !(d.getKek c.cak).valid || !bitAt (d.getKek c.cak).usage uDERIVE then d
    else
      let i := freeKeyId d
      putKek slot .persistent usage i.1 (kdf8021x cak (ascii label) (fit 16 c.ckn) cak.length) i.2
  put c.kek (2 ^ uUNWRAP + 2 ^ uWRAP) "IEEE8021 KEK" (put c.ick (2 ^ uSCE) "IEEE8021 ICK" d)

/-! ### MKPDUs (07 R203, R212; the layout is the model's, log entry 20) -/

/-- What an MKPDU says, with its ICV apart. -/
structure Mkpdu where
  priority : Nat
  sci : Nat
  memberId : Nat
  mn : Nat
  peerId : Nat
  peerMn : Nat
  suite : Nat
  confOfs : Nat
  an : Nat
  ssci : Nat
  wrapped : Bytes

/-- The body of an MKPDU of MKA version 3. -/
def Mkpdu.bytes (x : Mkpdu) : Bytes :=
  be 1 3 ++ be 1 x.priority ++ be 8 x.sci ++ be 12 x.memberId ++ be 4 x.mn ++ be 12 x.peerId ++ be 4 x.peerMn
    ++ be 1 x.suite ++ be 1 x.confOfs ++ be 1 x.an ++ be 4 x.ssci ++ x.wrapped

/-- A body of version 1, 2 or 3, read back. -/
def mkpduOf (b : Bytes) : Option Mkpdu :=
  if b.length < 49 || byteAt b 0 < 1 || 3 < byteAt b 0 then none
  else some ⟨byteAt b 1, beAt b 2 8, beAt b 10 12, beAt b 22 4, beAt b 26 12, beAt b 38 4, byteAt b 42, byteAt b 43, byteAt b 44, beAt b 45 4, b.drop 49⟩

/-- The service cipher is free: OSF's jobs for an ICV can claim its lock (07 R200). -/
def sceFree (d : Dev) : Bool := d.keys.sceOwner == 0 && d.keys.sceJob.isNone

/-- The ICV: AES-CMAC under ICK, which OSF computes from CBC jobs of the service cipher: a grant of its lock, the jobs, which end well, and the
release (07 R203). A slot that the jobs may not use refuses them with BAD_JOB. -/
def mkaIcv (c : MkaCa) (body : Bytes) (d : Dev) : Option Bytes × Dev :=
  let ok := (d.getKek c.ick).valid && bitAt (d.getKek c.ick).usage uSCE
  (if ok then some (cmac (d.getKek c.ick).key body) else none,
   d.updKeys (fun k => { k with sceGen := (k.sceGen + 1) % 65536, sceLast := if ok then 0 else 2 }))

/-- An MKPDU as a frame with EtherType 0x888E, to the PAE group address. -/
def mkaFrame (src body icv : Bytes) : Bytes :=
  be 6 0x0180C2000003 ++ src ++ be 2 0x888E ++ [3, 5] ++ be 2 (body.length + 16) ++ body ++ icv

/-! ### Election and SAKs (07 R212, R213) -/

/-- The key server has the lower priority number, then the lower SCI (07 Table 07-14). -/
def mkaOwnWins (c : MkaCa) : Bool := decide (c.priority < c.peerPriority) || (c.priority == c.peerPriority && decide (c.sci < c.peerSci))

/-- The salt of a CA's SAs: the key server's member identifier (log entry 20). -/
def mkaSalt (id : Nat) : Bytes := be 12 id

/-- OSF installs a SAK on an SA of the CA; a CA without slots or buffers goes on without it. -/
def mkaInstall (ch an suite ssci dir salt : Nat) (key : Bytes) (d : Dev) : Dev :=
  (osfInstall (none, 0, 0) ch an suite ssci 1 dir (mkaSalt salt) key d).getD d

/-- The protection code of a confidentiality offset (02 Table 02-6, 07 Table 07-14). -/
def mkaPcode (ofs : Nat) : Nat := if ofs = 30 then 1 else if ofs = 50 then 2 else 0

/-- A channel of the CA takes the protection code of the CA's confidentiality offset, by CH_WRITE, for which OSF disables it; an integrity-only
channel stays one. -/
def mkaOffset (ch ofs : Nat) (d : Dev) : Dev :=
  let c := d.tab.getChn ch
  if c.pcode = 3 || c.pcode = mkaPcode ofs then d
  else
    let gate := fun (code : Nat) (image : Bytes) (d : Dev) => doGateSubmit ⟨.osf, 0, 0, 0⟩
      { code := code, shadowOnly := false, nbt := none, nlt := none, p0 := ch, p1 := 0, p2 := 0, p3 := 0, p4 := 0, image := image } d
    when_ c.en (gate 0x000D []) (gate 0x000C (chanBytes { c with pcode := mkaPcode ofs } (d.getChl ch)) (when_ c.en (gate 0x000E []) d))

/-- The CA holds no SAK that it generated itself and may distribute (07 Table 07-14, R192). -/
def mkaNeedsSak (c : MkaCa) (d : Dev) : Bool :=
  match c.sakSlot with
  | none => true
  | some k => (d.getKek k).origin != .generated || !bitAt (d.getKek k).usage uEXPORT

/-- A key server that loses an election transmits nothing more on its CA: its channel is disabled and its transmit SAs are given up (07 R213). -/
def mkaSilence (c : MkaCa) (d : Dev) : Dev :=
  let mine := fun (s : OsfSa) => s.session.isNone && s.chid == c.txCh && s.dir == 0
  let d := each (d.keys.osfSas.filter mine) osfEnd (osfGate 0 0x000E c.txCh 0 0 0 d)
  d.updKeys (fun k => { k with osfSas := k.osfSas.filter (fun s => !mine s) })

/-- The new key server generates a SAK into a slot with SAK and EXPORT, takes an SSCI whose bit 0 equals SAS_CFG.SIDE, and installs the SAK on its
transmit and receive SAs: the transmit SA takes the slot's one FRESH ticket (07 R192, R212). A channel that an election lost had disabled is enabled again. -/
def mkaGenerate (n k : Nat) (c : MkaCa) (peerSsci : Nat) (d : Dev) : Dev :=
  let d := match c.sakSlot with | some old => clearKek old d | none => d
  let r := freeBytes (suiteKeyLen c.suite) d
  let i := freeKeyId r.2
  let f := freeNat i.2
  let c' := { c with keyServer := true, receiveOnly := false, sakSlot := some k, an := (c.an + 1) % 4, ssci := (2 * f.1 + f.2.tab.side) % 2 ^ 32 }
  let d := setMka n c' ((putKek k .generated (2 ^ uSAK + 2 ^ uEXPORT) i.1 r.1 f.2).updKek k (fun x => { x with freshLeft := false }))
  let d := mkaInstall c'.rxCh c'.an c'.suite peerSsci 1 c'.memberId r.1 (mkaOffset c'.txCh c'.confOfs (mkaOffset c'.rxCh c'.confOfs d))
  let d := osfGate 0 0x0006 c'.txCh c'.an 0 0 (mkaInstall c'.txCh c'.an c'.suite c'.ssci 0 c'.memberId r.1 d)
  when_ c.receiveOnly (osfGate 0 0x000D c'.txCh 0 0 0) d

/-- The election: as key server OSF distributes a SAK of its own, a new one for a peer that was not live before and when it comes back from
receiving only (log entry 20); otherwise it only receives, and what it still transmits on the CA ends (07 R213). -/
def mkaElect (n : Nat) (c : MkaCa) (peerSsci : Nat) (newPeer : Bool) (d : Dev) : Dev :=
  if !mkaOwnWins c then setMka n { c with keyServer := false, receiveOnly := true } (when_ (!c.receiveOnly) (mkaSilence c) d)
  else if rngBad d || noKwr d || !(mkaNeedsSak c d || newPeer || c.receiveOnly) then setMka n { c with keyServer := true } d
  else match (pickKek d).1 with
    | some k => mkaGenerate n k c peerSsci (pickKek d).2
    | none => setMka n { c with keyServer := true } d

/-- A distributed SAK is unwrapped under the CA's KEK into a PERSISTENT slot, and installed on a receive SA only (07 R213); the same one again
changes nothing. A suite that Table 02-5 does not have, or a key of another length than its suite's, gives no SAK. -/
def mkaTakeSak (n : Nat) (c : MkaCa) (x : Mkpdu) (d : Dev) : Dev :=
  match kwUnwrap (d.getKek c.kek).key x.wrapped, (pickKek d).1 with
  | some key, some k =>
    if x.suite ≥ 4 || key.length ≠ suiteKeyLen x.suite then d else
    let held := match c.sakSlot with | some old => (d.getKek old).key == key && c.an == x.an % 4 | none => false
    if held then d
    else
      let d := match c.sakSlot with | some old => clearKek old (pickKek d).2 | none => (pickKek d).2
      let i := freeKeyId d
      let d := setMka n { c with sakSlot := some k, an := x.an % 4 } (putKek k .persistent (2 ^ uSAK) i.1 key i.2)
      mkaInstall c.rxCh (x.an % 4) x.suite x.ssci 1 x.memberId key (mkaOffset c.rxCh x.confOfs d)
  | _, _ => d

/-- OSF reports a CA that has become receive-only in a message on the host's ring (07 R213; its layout is the model's, log entry 20). -/
def mkaReport (n : Nat) (was : Bool) (d : Dev) : Dev :=
  match getMka n d with
  | some c => if c.receiveOnly && !was then (msendHost 0 [1, BitVec.ofNat 64 n, 1, 0, 0, 0, 0, 0] d).2 else d
  | none => d

/-- An MKPDU of the peer, with a valid ICV, takes effect. -/
def mkaPeer (n : Nat) (c : MkaCa) (x : Mkpdu) (d : Dev) : Dev :=
  let d := mkaElect n { c with peerId := some x.memberId, peerMn := x.mn, peerPriority := x.priority, peerSci := x.sci } x.ssci c.peerId.isNone d
  let d := match getMka n d with
    | some y => if y.keyServer || x.wrapped.isEmpty then d else mkaTakeSak n y x d
    | none => d
  mkaReport n c.receiveOnly d

/-- An MKPDU received: its ICV is checked, a third participant is counted and ignored, and so is an old message number. -/
def mkaReceive (n : Nat) (body icv : Bytes) (d : Dev) : Dev :=
  match mkaOff d, getMka n d, mkpduOf body with
  | false, some c, some x =>
    let r := mkaIcv c body (mkaKeys c d)
    let d := r.2
    if r.1 ≠ some icv then d
    else if c.peerId.isSome && c.peerId != some x.memberId then setMka n { c with third := c.third + 1 } d
    else if c.peerId.isSome && decide (x.mn ≤ c.peerMn) then d
    else mkaPeer n c x d
  | _, _, _ => d

/-- OSF's work waits until it can claim the service cipher (07 R200, R203; log entry 20). -/
def mkaLater (w : MkaWork) (d : Dev) : Dev := d.updKeys (fun k => { k with mkaWait := k.mkaWait ++ [w] })

/-- An MKPDU arrives. -/
def doMkpdu (n : Nat) (body icv : Bytes) (d : Dev) : Dev := if sceFree d then mkaReceive n body icv d else mkaLater (.received n body icv) d

/-- MKPDU_RECEIVE. -/
def execMkpduReceive (ca version priority sci : Nat) (body icv : Bytes) (s : State) : Host.Outcome State Fault Refusal :=
  done s (doMkpdu ca (be 1 version ++ be 1 priority ++ be 8 sci ++ body) icv)

/-- OSF's MKPDU of a CA, with the SAK wrapped under the CA's KEK when it is the key server. -/
def mkpduOwn (c : MkaCa) (d : Dev) : Mkpdu :=
  ⟨c.priority, c.sci, c.memberId, c.mn, c.peerId.getD 0, c.peerMn, c.suite, c.confOfs, c.an, c.ssci,
    match c.keyServer && !mkaNeedsSak c d, c.sakSlot with
    | true, some k => kwWrap (d.getKek c.kek).key (d.getKek k).key
    | _, _ => []⟩

/-- OSF sends its MKPDU through a frame-injection queue of the CA's port; the source address is a free value. -/
def mkaSend (n : Nat) (d : Dev) : Dev :=
  match mkaOff d, getMka n d with
  | false, some c =>
    let c := { c with mn := c.mn + 1 }
    let d := mkaKeys c (setMka n c d)
    let r := freeBytes 6 d
    let body := (mkpduOwn c d).bytes
    let icv := mkaIcv c body r.2
    match icv.1 with
    | some b => osfSend c.port (mkaFrame r.1 body b) icv.2
    | none => icv.2
  | _, _ => d

/-- MKA hello time, 2 s. -/
def doMkaHello (n : Nat) (d : Dev) : Dev := if sceFree d then mkaSend n d else mkaLater (.hello n) d

/-- MKA_HELLO_TIME. -/
def execMkaHelloTime (ca : Nat) (s : State) : Host.Outcome State Fault Refusal := done s (doMkaHello ca)

/-- Work that has waited is done once the service cipher is free. -/
def mkaTick (d : Dev) : Dev :=
  if d.keys.mkaWait.isEmpty || !sceFree d then d
  else each d.keys.mkaWait (fun w d => match w with | .received n body icv => mkaReceive n body icv d | .hello n => mkaSend n d)
    (d.updKeys (fun k => { k with mkaWait := [] }))

/-- MKA life time, 6 s without an MKPDU of the peer: the peer is no longer live. A CA that receives only goes on so until it wins an election. -/
def doMkaLife (n : Nat) (d : Dev) : Dev :=
  match getMka n d with
  | some c => setMka n { c with peerId := none, peerMn := 0, peerPriority := 0, peerSci := 0, keyServer := false } d
  | none => d

/-- MKA_LIFE_TIME. -/
def execMkaLifeTime (ca : Nat) (s : State) : Host.Outcome State Fault Refusal := done s (doMkaLife ca)

end Sys2Proof.Machine
end

