-- ==== Sys2Proof/Machine/Regs.lean ====
section
/-! DEFINITION. Register accesses from the host, JTAG and the cores: BAR0, the BAR2 pages and the DDR5 aperture (13 R364 to R366, 16 R441 to R446). -/

namespace Sys2Proof.Machine

/-! ### The PCI Express function (13 R363, Table 13-1) -/

/-- Vendor, device and class code; the revision is GLB_REV's (14 Table 14-10). -/
def pciVendor : Nat := 0x1F0C
def pciDevice : Nat := 0x6400
def pciClass : Nat := 0x108000
def pciRevision : Nat := revCode

/-- Max payload and max read request size, in bytes; vectors of MSI-X. -/
def maxPayload : Nat := 512
def maxReadRequest : Nat := 4096
def msixVectors : Nat := 2048

/-! ### Who may access (14 Table 14-1, 16 R446) -/

/-- Offsets from `bar2` on stand for BAR2: its offset plus `bar2` (log entry 25). -/
def bar2 : Nat := 0x1000000

/-- The DDR5 aperture's place in BAR2 (13 Table 13-2). -/
def aperture : Nat := 0x100000000

/-- Only GLB and MOD answer the host in RESET and KILN, and so in a SCRAPPED device (R446, 14 R387). -/
def hostClosed (off : Nat) (d : Dev) : Bool := (d.mod.mode == .reset || d.mod.mode == .kiln) && decide (0x20000 ≤ off)

/-- What the JTAG port gives: IDCODE and BYPASS alone, boundary scan too, or debug access too. -/
inductive Jtag where
  | idcode
  | scan
  | debug
  deriving DecidableEq, Repr

/-- The JTAG column of Table 14-1; in FALLOW, a VIRGIN or RETURNED device, of which the table says nothing, gives IDCODE and BYPASS
(log entry 82). -/
def jtagAccess (d : Dev) : Jtag :=
  match d.mod.mode with
  | .reset => .idcode
  | .kiln => .idcode
  | .zeroised => .idcode
  | .factory => .debug
  | .returned => .debug
  | .enrol => .scan
  | _ => if d.mod.fuses.life = .enrolled then .scan else .idcode

/-- Debug access exists in FACTORY and RETURN only (14 Table 14-1). -/
def debugOpen (d : Dev) : Bool := jtagAccess d == .debug

/-! ### BAR2 pages (13 Tables 13-7 to 13-10) -/

/-- A word of a ring page. -/
def readRing (g : Ring) (r : Nat) : RegVal :=
  if inR r 0 4 then half r g.rbase
  else if inR r 8 0xC then half r g.cbase
  else pick r [(0x10, .word (g.rcfg + bit_ g.en 31)), (0x14, .word g.pi), (0x18, .word g.ci), (0x1C, .word (shownIdx g.cpi g.late)), (0x20, .word g.cci),
    (0x24, .word (bit_ (g.en && !g.halt) 0 + bit_ g.halt 1 + 4 * g.cause))]

/-- A word of an injection page. -/
def readInj (g : InjQ) (r : Nat) : RegVal :=
  if inR r 0 4 then half r g.base
  else if inR r 0x20 0x2C then .word (Tab.get 0 g.etype ((r - 0x20) / 4))
  else if inR r 0x30 0x34 then quad r g.drop
  else pick r [(0x08, .word (g.cfg + bit_ g.en 31)), (0x0C, .word g.vec), (0x10, .word g.pi), (0x14, .word g.ci)]

/-- A word of an extraction page. -/
def readExt (g : ExtQ) (r : Nat) : RegVal :=
  if inR r 0 4 then half r g.bbase
  else if inR r 8 0xC then half r g.cbase
  else if inR r 0x28 0x2C then quad r g.drop
  else pick r [(0x10, .word (g.cfg + bit_ g.en 31)), (0x14, .word g.vec), (0x18, .word g.bpi), (0x1C, .word (shownIdx g.bci g.late)), (0x20, .word (shownIdx g.cpi g.late)),
    (0x24, .word g.cci)]

/-- A word of the message page. -/
def readHmb (h : Hif) (r : Nat) : RegVal :=
  if inR r 0 4 then half r h.hmbBase
  else pick r [(0x08, .word (h.hmbCfg + bit_ h.hmbEn 31)), (0x0C, .word (shownIdx h.hmbPi h.hmbLate)), (0x10, .word h.hmbCi)]

/-- A word of the BAR2 pages by BAR2 offset; reserved offsets read 0 (13 Table 13-2). -/
def readPage (b : Nat) (d : Dev) : RegVal :=
  let page := b / 0x1000
  let r := b % 0x1000
  if page < 0x40 then readRing (d.getRing page) r
  else if page < 0x50 then readInj (d.getInj (page - 0x40)) r
  else if page < 0x60 then readExt (d.getExt (page - 0x50)) r
  else if page = 0x60 then readHmb d.hif r else reserved

/-- A write of a ring page: addresses are ignored while EN is 1 (13 R368). -/
def writeRing (q r v : Nat) (d : Dev) : Dev :=
  let upd := fun (f : Ring → Ring) => d.updRing q f
  if inR r 0 4 then upd (fun g => if g.en then g else { g with rbase := setHalf r v g.rbase })
  else if inR r 8 0xC then upd (fun g => if g.en then g else { g with cbase := setHalf r v g.cbase })
  else match r with
    | 0x10 => pageCfgWrite q v d
    | 0x14 => ringPiWrite q v d
    | 0x20 => upd (fun g => { g with cci := v })
    | _ => d

/-- A write of an injection page. -/
def writeInj (q r v : Nat) (d : Dev) : Dev :=
  let upd := fun (f : InjQ → InjQ) => d.updInj q f
  if inR r 0 4 then upd (fun g => if g.en then g else { g with base := setHalf r v g.base })
  else if inR r 0x20 0x2C then upd (fun g => { g with etype := Tab.set 0 g.etype ((r - 0x20) / 4) (fld v 16 0) })
  else match r with
    | 0x08 => pageCfgWrite (64 + q) v d
    | 0x0C => upd (fun g => { g with vec := fld v 7 0 + at_ (fld v 26 16) 16 })
    | 0x10 => hiqPiWrite q v d
    | _ => d

/-- `n` free buffer addresses, 4 KiB-aligned: what the posted entries hold in host memory is the host's. -/
def freeBufs : Nat → Dev → List Nat × Dev
  | 0, d => ([], d)
  | n + 1, d =>
    let r := freeNat d
    let l := freeBufs n r.2
    (r.1 / 4096 * 4096 :: l.1, l.2)

/-- A write of an extraction page: BPI posts buffers whose addresses the device reads from host memory. -/
def writeExt (q r v : Nat) (d : Dev) : Dev :=
  let upd := fun (f : ExtQ → ExtQ) => d.updExt q f
  if inR r 0 4 then upd (fun g => if g.en then g else { g with bbase := setHalf r v g.bbase })
  else if inR r 8 0xC then upd (fun g => if g.en then g else { g with cbase := setHalf r v g.cbase })
  else match r with
    | 0x10 => pageCfgWrite (80 + q) v d
    | 0x14 => upd (fun g => { g with vec := fld v 10 0 })
    | 0x18 =>
      let g := d.getExt q
      let l := freeBufs (Nat.min ((v + 2 ^ 32 - g.bpi) % 2 ^ 32) (2 ^ fld g.cfg 11 8)) d
      hxqBpiWrite q v l.1 l.2
    | 0x24 => upd (fun g => { g with cci := v })
    | _ => d

/-- A write of the message page. -/
def writeHmb (r v : Nat) (d : Dev) : Dev :=
  let h := d.hif
  if inR r 0 4 then (if h.hmbEn then d else { d with hif := { h with hmbBase := setHalf r v h.hmbBase } })
  else match r with
    | 0x08 => pageCfgWrite 96 v d
    | 0x10 => { d with hif := { h with hmbCi := v } }
    | _ => d

/-- A write of the BAR2 pages. -/
def writePage (b v : Nat) (d : Dev) : Dev :=
  let page := b / 0x1000
  let r := b % 0x1000
  if page < 0x40 then writeRing page r v d
  else if page < 0x50 then writeInj (page - 0x40) r v d
  else if page < 0x60 then writeExt (page - 0x50) r v d
  else if page = 0x60 then writeHmb r v d else d

/-! ### The DDR5 aperture (13 R366) -/

/-- The DDR5 window offset of aperture byte `a`; debug access names the window offset itself. -/
def apertureOff (req a : Nat) (d : Dev) : Nat := if req = reqHost then 2 ^ 28 * d.hif.apBase + a else a

/-- The master of an aperture access. -/
def apertureMaster (req : Nat) : Master := if req = reqHost then .host else .jtag

/-- The error bit of a failed aperture access, for the host. -/
def apertureErr (req : Nat) (a : Acc) (d : Dev) : Dev :=
  if req = reqHost then hostErr (if a = .uncorr then 3 else 2) d else d

/-- How an aperture access of `n` bytes ends. -/
def apertureAcc (req a n : Nat) (write : Bool) (d : Dev) : Acc :=
  if req = reqHost then hostReach (apertureOff req a d) n write d
  else ddrCheck .jtag (apertureOff req a d) n write d

/-- A request of the aperture has 1 to 512 bytes, the max payload size (13 R366, Table 13-1; log entry 78). -/
def apertureLen (n : Nat) : Bool := decide (1 ≤ n) && decide (n ≤ maxPayload)

/-- A read of `n` bytes: a blocked or failed one completes with Completer Abort. -/
def apertureRead (req a n : Nat) (d : Dev) : BusAns × Dev :=
  if !apertureLen n then (.unsupported, d)
  else match apertureAcc req a n false d with
    | .ok => (.data (ofLe (ddrBytes d (apertureOff req a d) n)), d)
    | x => (.abort, apertureErr req x (ddrFail (apertureMaster req) (apertureOff req a d) n false x d))

/-- A write of `n` bytes. -/
def apertureWrite (req a n v : Nat) (d : Dev) : Dev :=
  if !apertureLen n then emit (.refusedAccess req (bar2 + aperture + a)) d
  else match apertureAcc req a n true d with
    | .ok => (ddrWrite (apertureMaster req) (apertureOff req a d) (le n v) d).2
    | x => apertureErr req x (ddrFail (apertureMaster req) (apertureOff req a d) n true x d)

/-! ### Requests (13 R364, R365; 16 R441, R446) -/

/-- A naturally aligned QWORD of the MSI-X table or PBA (13 R364, Table 13-1). -/
def msixQword (a : Access) : Bool :=
  a.len == 8 && a.off % 8 == 0 && (inR a.off 0x38000 0x3FFFF || inR a.off 0x34000 0x340FF)

/-- A request of BAR0 that is neither one naturally aligned DWORD nor a QWORD of the MSI-X table or PBA (13 R364). -/
def badShape (a : Access) : Bool := decide (a.off < bar2) && !msixQword a && (a.off % 4 != 0 || a.len != 4)

/-- A read of BAR0: one naturally aligned DWORD, or a QWORD of the MSI-X table or PBA; any other request of the host sets SIZE (13 R364). -/
def barRead (req : Nat) (a : Access) (d : Dev) : BusAns × Dev :=
  if msixQword a then
    let x := regRead req a.off d
    let y := regRead req (a.off + 4) x.2
    (.data (x.1.getD 0 + 2 ^ 32 * y.1.getD 0), y.2)
  else if badShape a then (.unsupported, if req = reqHost then hostErr 1 d else d)
  else
    let x := regRead req a.off d
    ((match x.1 with | some v => .data v | none => .unsupported), x.2)

/-- A DWORD of the BAR2 pages as a read gives it: the low word of a 64-bit read-only value (DROP of an injection or extraction page) captures the
high word, as 00 R5 says of every such read, although 13 R365 says that no BAR2 register has a side effect on read: the holding copy is the
host's and no BAR2 register. -/
def pageWord (req off : Nat) (d : Dev) : Nat × Dev :=
  match readPage (offFrom bar2 off) d with
  | .word v => (lo32 v, d)
  | .low v => (lo32 v, { d with hold := Tab.set none d.hold req (some (off, hi32 v)) })
  | .high v =>
    match Tab.get none d.hold req with
    | some (a, h) => (if a + 4 = off then h else hi32 v, d)
    | none => (hi32 v, d)

/-- The DWORDs that a request of the BAR2 pages touches. -/
def pageWords (a : Access) : List Nat := (List.range ((a.off % 4 + a.len + 3) / 4)).map (fun i => a.off / 4 * 4 + 4 * i)

/-- A read of the BAR2 pages, of any length: the bytes of the DWORDs that it touches, read in rising order (13 R365; log entry 78). -/
def pagesRead (req : Nat) (a : Access) (d : Dev) : BusAns × Dev :=
  let r := (pageWords a).foldl (fun r o => let x := pageWord req o r.2; (r.1 ++ le 4 x.1, x.2)) (([] : Bytes), d)
  (.data (ofLe (sub_ r.1 (a.off % 4) a.len)), r.2)

/-- The DWORD at `o` after a write of `a.len` bytes: those that the request does not cover keep the value that the DWORD reads as (13 R365). -/
def mergeWord (a : Access) (v o old : Nat) : Nat :=
  ofLe ((List.range 4).map (fun k => if a.off ≤ o + k && o + k < a.off + a.len then BitVec.ofNat 8 (v / 256 ^ (o + k - a.off)) else BitVec.ofNat 8 (old / 256 ^ k)))

/-- A write of the BAR2 pages: its DWORDs in rising order (13 R365; log entry 78). -/
def pagesWrite (req : Nat) (a : Access) (v : Nat) (d : Dev) : Dev :=
  each (pageWords a) (fun o d => writePage (offFrom bar2 o) (mergeWord a v o (pageWord req o d).1) d) d

/-- The requester is a core (07 R200). -/
def coreReq (req : Nat) : Bool := decide (1 ≤ req) && decide (req ≤ 64)

/-- A read by `req`, and how it completes. -/
def busRead (req : Nat) (a : Access) (d : Dev) : BusAns × Dev :=
  if req = reqJtag && !debugOpen d then (.unsupported, d)
  else if req = reqHost && hostClosed a.off d then (.unsupported, when_ (badShape a) (hostErr 1) d)
  else if a.off < bar2 then barRead req a d
  else if coreReq req then (.unsupported, d)
  else if bar2 + aperture ≤ a.off then
    (if a.off < bar2 + 2 * aperture then apertureRead req (offFrom (bar2 + aperture) a.off) a.len d else (.unsupported, d))
  else if req ≠ reqHost then (.unsupported, d)
  else pagesRead req a d

/-- An access of a running core to the register window raises an exception there, with the address (10 R283, R286; 16 R441, R446). -/
def windowExc (req off cause : Nat) (d : Dev) : Dev :=
  let k := d.getCore (req - 1)
  if k.run ≠ .running then d else takeExc (req - 1) cause (k.pc.setWidth 64) (BitVec.ofNat 64 (0x40000000 + off)) d

/-- What keeps a core's access from the window at all: its alignment, or at task level a region without the right, 0 read or 1 write. -/
def windowBar (req : Nat) (a : Access) (right : Nat) (d : Dev) : Option Nat :=
  let k := d.getCore (req - 1)
  if a.off % a.len ≠ 0 then some cMISALIGN
  else if !k.super && !taskRegionOk k (0x40000000 + a.off) a.len right then some cACCESS
  else none

/-- REGISTER_READ; a load of a core that the window does not answer raises BUSLOAD (16 R441). -/
def doRegisterRead (req : Nat) (a : Access) (d : Dev) : Dev :=
  match coreReq req, windowBar req a 0 d with
  | true, some e => emit (.read req a.off .unsupported) (windowExc req a.off e d)
  | core, _ =>
    let r := busRead req a d
    emit (.read req a.off r.1) (when_ (core && r.1 == .unsupported) (windowExc req a.off cBUSLOAD) r.2)

/-- REGISTER_READ. -/
def execRegisterRead (r : Nat) (a : Access) (s : State) : Host.Outcome State Fault Refusal := done s (doRegisterRead r a)

/-- A DWORD of BAR0 is written; one of an unassigned range is discarded (16 R441). -/
def barWriteWord (req off v : Nat) (d : Dev) : Dev :=
  let r := regWrite req off (lo32 v) d
  if r.1 = .unassigned then emit (.refusedAccess req off) r.2 else r.2

/-- A write of BAR0, as `barRead`. -/
def barWrite (req : Nat) (a : Access) (v : Nat) (d : Dev) : Dev :=
  if msixQword a then barWriteWord req (a.off + 4) (hi32 v) (barWriteWord req a.off v d)
  else if badShape a then emit (.refusedAccess req a.off) (if req = reqHost then hostErr 1 d else d)
  else barWriteWord req a.off v d

/-- A core stores to the register window: what the window does not take raises BUSSTORE (10 R283; 16 R441, R446). -/
def coreWindowWrite (req : Nat) (a : Access) (v : Nat) (d : Dev) : Dev :=
  match windowBar req a 1 d with
  | some e => emit (.refusedAccess req a.off) (windowExc req a.off e d)
  | none =>
    if a.len ≠ 4 || bar2 ≤ a.off then emit (.refusedAccess req a.off) (windowExc req a.off cBUSSTORE d)
    else
      let r := regWrite req a.off (lo32 v) d
      if r.1 = .ok then r.2
      else when_ (r.1 == .unassigned) (emit (.refusedAccess req a.off)) (windowExc req a.off cBUSSTORE r.2)

/-- A write by `req`: an access that the device does not accept is discarded (13 R364, 16 R441, R446). -/
def doRegisterWrite (req : Nat) (a : Access) (v : Nat) (d : Dev) : Dev :=
  if coreReq req then coreWindowWrite req a v d
  else if req = reqJtag && !debugOpen d then emit (.refusedAccess req a.off) d
  else if req = reqHost && hostClosed a.off d then emit (.refusedAccess req a.off) (when_ (badShape a) (hostErr 1) d)
  else if a.off < bar2 then barWrite req a v d
  else if bar2 + aperture ≤ a.off then
    (if a.off < bar2 + 2 * aperture then apertureWrite req (offFrom (bar2 + aperture) a.off) a.len v d else emit (.refusedAccess req a.off) d)
  else if req ≠ reqHost then emit (.refusedAccess req a.off) d
  else pagesWrite req a v d

/-- REGISTER_WRITE. -/
def execRegisterWrite (r : Nat) (a : Access) (v : Nat) (s : State) : Host.Outcome State Fault Refusal := done s (doRegisterWrite r a v)

end Sys2Proof.Machine
end

