-- ==== Sys2Proof/Machine/Submit.lean ====
section
/-! DEFINITION. Command descriptors and their submission by the host's rings and by the cores (13 R368 to R371, R378; 10 R299). -/

namespace Sys2Proof.Machine

/-! ### Descriptors (13 R369, R370, Tables 13-3 and 13-4) -/

/-- A descriptor's fields, with the host-memory input. -/
def descOf (b image : Bytes) : Desc :=
  let f := byteAt b 2
  { code := leAt b 0 2, shadowOnly := bitAt f 2
    nbt := if bitAt f 0 then some (leAt b 8 8) else none, nlt := if bitAt f 1 then some (leAt b 16 8) else none
    p0 := leAt b 24 8, p1 := leAt b 32 8, p2 := leAt b 40 8, p3 := leAt b 48 8, p4 := leAt b 56 8, image := image }

/-- Its TAG and FENCE flag. -/
def descTag (b : Bytes) : Nat := leAt b 4 4
def descFence (b : Bytes) : Bool := bitAt (byteAt b 2) 3

/-- The engine of a code, or `none` for a code that Table 13-4 does not list. -/
def codeEngine (c : Nat) : Option Nat :=
  if gateCodes.contains c then some engGate
  else if 0x0100 ≤ c && c ≤ 0x0103 then some 3
  else if c = 0x0180 then some 4
  else if 0x0200 ≤ c && c ≤ 0x0206 then some engKey
  else if 0x0280 ≤ c && c ≤ 0x0288 then some engLat
  else if c = 0x0300 then some engSce
  else if 0x0400 ≤ c && c ≤ 0x0402 then some 5
  else none

/-- Widths of the parameter words that a code uses; the words after them are 0. -/
def codeBits (c : Nat) : List Nat :=
  match c with
  | 0x0001 => [17, 5] | 0x0002 => [17, 16] | 0x0003 => [17] | 0x0004 => [17, 16, 2, 64] | 0x0005 => [17] | 0x0006 => [16, 2, 2, 64]
  | 0x0007 => [17, 1] | 0x0008 => [17] | 0x0009 => [17, 64, 64] | 0x000A => [17, 64] | 0x000B => [17, 20] | 0x000C => [16, 64]
  | 0x000D => [16] | 0x000E => [16] | 0x000F => [1] | 0x0010 => [1, 64, 16] | 0x0011 => [1, 64]
  | 0x0020 => [3, 60, 16] | 0x0021 => [3, 60] | 0x0022 => [4, 64, 1] | 0x0023 => [64] | 0x0030 => []
  | 0x0040 => [6, 13] | 0x0041 => [6] | 0x0042 => [6] | 0x0043 => [6, 12, 32] | 0x0050 => [5, 12, 32] | 0x0051 => [5] | 0x0060 => [3]
  | 0x0100 => [5, 8, 64] | 0x0101 => [5, 20] | 0x0102 => [5] | 0x0103 => [20] | 0x0180 => [1]
  | 0x0300 => [64] | 0x0400 => [] | 0x0401 => [64] | 0x0402 => [64, 64, 25, 1]
  | _ => [64]

/-- The ranges that Table 13-4 and R369 give beyond the widths. -/
def codeRange (x : Desc) : Bool :=
  match x.code with
  | 0x0004 => decide (x.p3 < 2 ^ 17) || x.p3 == 2 ^ 64 - 1
  | 0x0006 => decide (x.p2 ≤ 2)
  | 0x0022 => decide (x.p0 ≤ 8) && fld x.p1 62 16 == 0 && (bitAt x.p1 63 || decide (fld x.p1 15 0 < 64))
  | 0x0043 => prtGatedOff x.p1
  | 0x0050 => x.p1 % 4 == 0 && decide (x.p1 < 0x800) && gatedOff (0x140000 + x.p1)
  | 0x0402 => decide (1 ≤ x.p2) && decide (x.p2 ≤ 2 ^ 24)
  | _ => true

/-- The five parameter words. -/
def descWords (x : Desc) : List Nat := [x.p0, x.p1, x.p2, x.p3, x.p4]

/-- The descriptor keeps R369: a listed code, reserved bits 0, flags that its class allows, words in range. -/
def descOk (b : Bytes) (x : Desc) : Bool :=
  let f := byteAt b 2
  (match codeEngine x.code with
   | none => false
   | some e => e == engGate || fld f 2 0 == 0)
  && fld f 7 4 == 0 && byteAt b 3 == 0
  && (List.range 5).all (fun i => decide (nth 0 (descWords x) i < 2 ^ nth 0 (codeBits x.code) i))
  && codeRange x

/-- The commands whose host-memory input is read with the descriptor (13 R378). -/
def readsImage (c : Nat) : Bool := c == 0x000C || c == 0x0100 || c == 0x0401

/-! ### Engines 1 and 2: parameter blocks (13 R370, 07 Tables 07-3 and 07-5) -/

/-- The parameter block of `n` words at P0; an unreadable block completes with MEM_FAULT. -/
def withParams (b : Sub) (eng addr n : Nat) (f : (Nat → Nat) → Dev → Dev) (d : Dev) : Dev :=
  let r := engRead (subReq b) addr (8 * n) d
  match r.1 with
  | none => complete b eng stMEM_FAULT [] r.2
  | some x => f (fun i => leAt x (8 * i) 8) r.2

/-- A memory input. -/
def withInput (b : Sub) (eng addr len : Nat) (f : Bytes → Dev → Dev) (d : Dev) : Dev :=
  let r := engRead (subReq b) addr len d
  match r.1 with
  | none => complete b eng stMEM_FAULT [] r.2
  | some x => f x r.2

/-- All ones in a parameter word: none. -/
def noneOr (v : Nat) : Option Nat := if v = 2 ^ 64 - 1 then none else some v

/-- A key command: its inputs in the order of Table 07-3. -/
def submitKey (b : Sub) (x : Desc) (d : Dev) : Dev :=
  match x.code with
  | 0x0200 => withParams b engKey x.p0 4 (fun p => doKeyGen b (p 0) (p 1) (p 2) (p 3)) d
  | 0x0201 => withParams b engKey x.p0 2 (fun p => doKeyTicket b (p 0) (p 1 != 0)) d
  | 0x0202 => withParams b engKey x.p0 13 (fun p => withInput b engKey (p 3) (p 4) (fun label => withInput b engKey (p 6) (p 7) (fun ctx =>
      doKeyDerive b (p 0) (p 1) (p 2) label (p 5) ctx (p 8) (p 9) (p 10) (p 11) (p 12 != 0)))) d
  | 0x0203 => withParams b engKey x.p0 5 (fun p => withInput b engKey (p 2) (p 3) (fun h => doKeyCombine b (p 0) (noneOr (p 1)) h (p 4))) d
  | 0x0204 => withParams b engKey x.p0 6 (fun p => withInput b engKey (p 0) (p 1) (fun w => doKeyUnwrap b (p 2) w (p 3) (p 4) (p 5))) d
  | 0x0205 => withParams b engKey x.p0 4 (fun p => doKeyWrap b (p 0) (p 1) (p 2) (p 3)) d
  | _ => withParams b engKey x.p0 1 (fun p => doKeyClear b (p 0)) d

/-- A lattice command with one memory input: an unreadable input is a fault of the command when it is executed. -/
def latOne (b : Sub) (code addr len : Nat) (args : List Nat) (d : Dev) : Dev :=
  let r := engRead (subReq b) addr len d
  latQueue ⟨b, code, args, [r.1.getD []], r.1.isNone, none⟩ r.2

/-- A lattice command: inputs in the order of Table 07-5, then the output's address. -/
def submitLat (b : Sub) (x : Desc) (d : Dev) : Dev :=
  match x.code with
  | 0x0280 => withParams b engLat x.p0 2 (fun p => latQueue ⟨b, 0x0280, [p 0, p 1], [], false, none⟩) d
  | 0x0281 => withParams b engLat x.p0 4 (fun p => latOne b 0x0281 (p 0) (p 1) [p 2, p 3]) d
  | 0x0282 => withParams b engLat x.p0 4 (fun p => latOne b 0x0282 (p 1) (p 2) [p 0, p 3]) d
  | 0x0283 => withParams b engLat x.p0 4 (fun p => latOne b 0x0283 (p 1) (p 2) [p 0, p 3]) d
  | 0x0284 => withParams b engLat x.p0 6 (fun p d =>
      let k := engRead (subReq b) (p 0) (p 1) d
      let m := engRead (subReq b) (p 2) (p 3) k.2
      let s := engRead (subReq b) (p 4) (p 5) m.2
      latQueue ⟨b, 0x0284, [], [k.1.getD [], m.1.getD [], s.1.getD []], k.1.isNone || m.1.isNone || s.1.isNone, none⟩ s.2) d
  | 0x0285 => withParams b engLat x.p0 2 (fun p => latQueue ⟨b, 0x0285, [p 0, p 1], [], false, none⟩) d
  | 0x0286 => withParams b engLat x.p0 2 (fun p => latQueue ⟨b, 0x0286, [p 0, p 1], [], false, none⟩) d
  | 0x0287 => withParams b engLat x.p0 4 (fun p => latOne b 0x0287 (p 1) (p 2) [p 0, p 3]) d
  | _ => withParams b engLat x.p0 5 (fun p => latOne b 0x0288 (p 0) (p 1) [p 2, p 3, p 4]) d

/-! ### Submission -/

/-- The gate or engine queue of a command is full (13 R371, 07 R199, R200). -/
def queueFull (x : Desc) (d : Dev) : Bool :=
  match codeEngine x.code with
  | some e => (e == engGate && !gateClosed d && decide (4096 ≤ d.tck.gate.length)) || (e == engLat && decide (256 ≤ d.keys.latQueue.length))
      || (e == engSce && d.keys.sceJob.isSome)
  | none => false

/-- A well-formed command goes to its gate or engine. -/
def submit (b : Sub) (x : Desc) (d : Dev) : Dev :=
  match codeEngine x.code with
  | none => d
  | some e =>
    if e = engGate then doGateSubmit b x d
    else if e = engKey then submitKey b x d
    else if e = engLat then submitLat b x d
    else match x.code with
      | 0x0100 => doSaStage b x.p0 x.p1 x.image d
      | 0x0101 => doSaStagepin b x.p0 x.p1 d
      | 0x0102 => doSaUnstage b x.p0 d
      | 0x0103 => doColdErase b x.p0 d
      | 0x0180 => doPatLoad b x.p0 d
      | 0x0300 => withInput b engSce x.p0 64 (doSceJob b) d
      | 0x0400 => complete b 5 stOK [] d
      | 0x0401 => doMsgSend b x.image d
      | _ => doHifCopy b x.p0 x.p1 x.p2 x.p3 x.image d

/-- A submission number is taken: one counter for the device. -/
def takeSubno (b : Sub) (d : Dev) : Sub × Dev := ({ b with subno := d.hif.subno }, { d with hif := { d.hif with subno := d.hif.subno + 1 } })

/-- The engine number that a completion carries; the spec names none for a code outside Table 13-4: a free value. -/
def refEngine (code : Nat) (d : Dev) : Nat × Dev :=
  match codeEngine code with
  | some e => (e, d)
  | none =>
    let r := freeNat d
    (r.1 % 256, r.2)

/-- A descriptor that completes at once, without reaching its gate or engine. -/
def refuseDesc (b : Sub) (code st : Nat) (d : Dev) : Dev :=
  let s := takeSubno b d
  let e := refEngine code s.2
  completeX s.1 st e.1 true false 0 [] e.2

/-! ### Command rings (13 R368, R371, R378) -/

/-- The descriptor that a ring holds is submitted when its queue has room and its FENCE, if any, is met. -/
def ringTry (r : Nat) (d : Dev) : Dev :=
  let g := d.getRing r
  match g.waiting with
  | none => d
  | some (b, x, fence) =>
    if queueFull x d || (fence && g.reserved != 2) then d
    else
      let s := takeSubno b (d.updRing r (fun g => { g with waiting := none }))
      submit s.1 x s.2

/-- A ring runs: it is enabled, has not halted, and the function is in D0. -/
def ringRuns (r : Nat) (d : Dev) : Bool := (d.getRing r).en && !(d.getRing r).halt && !d.hif.d3hot

/-- A ring that runs fetches its next descriptor: one is posted, none waits, and two completion entries are free (13 R371). -/
def ringFetches (r : Nat) (d : Dev) : Bool :=
  let g := d.getRing r
  ringRuns r d && g.waiting.isNone && g.ci != g.pi && decide ((g.cpi + 2 ^ 32 - g.cci) % 2 ^ 32 + g.reserved + 2 ≤ 2 ^ fld g.rcfg 4 0)

/-- The host address of a command's input, read with the descriptor (13 R378, Table 13-4). -/
def imageAddr (x : Desc) : Nat := if x.code = 0x000C then x.p1 else if x.code = 0x0100 then x.p2 else x.p0

/-- The device fetches the descriptor at RBASE + 64 x (CI mod size), reserves two completion entries and submits it (13 R368, R371). -/
def doDescriptorFetch (r : Nat) (desc image : Bytes) (ringFail imageFail : Bool) (d : Dev) : Dev :=
  if ringRuns r d && (d.getRing r).waiting.isSome then ringTry r d
  else if !ringFetches r d then d
  else
    let g := d.getRing r
    let d := dmaRead (g.rbase + 64 * (g.ci % 2 ^ fld g.rcfg 4 0)) 64 d
    if ringFail then haltRing r 3 (dmaFailed 0 r d)
    else
    let b := fit 64 desc
    let x := descOf b image
    let s : Sub := ⟨.ring r, descTag b, 0, g.ci⟩
    let d := d.updRing r (fun g => { g with ci := (g.ci + 1) % 2 ^ 32, reserved := g.reserved + 2 })
    if !descOk b x then refuseDesc s x.code stBAD_COMMAND d
    else
    let d := when_ (readsImage x.code) (dmaRead (imageAddr x) 64) d
    if readsImage x.code && (imageFail || image.length != 64) then refuseDesc s x.code stDMA_FAULT (dmaFailed 2 r d)
    else ringTry r (d.updRing r (fun g => { g with waiting := some (s, x, descFence b) }))

/-- DESCRIPTOR_FETCH. -/
def execDescriptorFetch (r : Nat) (desc image : Bytes) (ringFail imageFail : Bool) (s : State) : Host.Outcome State Fault Refusal :=
  done s (doDescriptorFetch r desc image ringFail imageFail)

/-- The command of a descriptor reads host memory (13 R378). -/
def readsHost (x : Desc) : Bool := readsImage x.code || (x.code == 0x0402 && x.p3 == 0)

/-- A DMA read gets no completion within 50 ms: the descriptor fetch halts its ring, the frame is dropped, and the command that the ring fetches
with its descriptor completes with DMA_FAULT (13 R378). -/
def doDmaTimeout (kind : DmaRead) (q : Nat) (d : Dev) : Dev :=
  match kind with
  | .fetch => if ringFetches q d then doDescriptorFetch q [] [] true false d else d
  | .frame => if (d.getInj q).en then injRead q ⟨[], []⟩ true d else d
  | .command desc =>
    let b := fit 64 desc
    if ringFetches q d && readsHost (descOf b []) then doDescriptorFetch q desc [] false true d else d

/-- DMA_READ_TIMEOUT. -/
def execDmaReadTimeout (kind : DmaRead) (q : Nat) (s : State) : Host.Outcome State Fault Refusal := done s (doDmaTimeout kind q)

/-! ### TACKG and ENGQ (10 R299) -/

/-- The core's submission is accepted: rd receives OK and the submission number, and one more completion is due. -/
def coreSubmit (c rd a tag : Nat) (f : Sub → Dev → Dev) (d : Dev) : Ending × Dev :=
  let s := takeSubno ⟨.core c, tag, 0, 0⟩ d
  let d := f s.1 (s.2.updCore c (fun k => { k with outstanding := k.outstanding + 1 }))
  devGive c rd a (BitVec.ofNat 64 (dOK + at_ (s.1.subno % 2 ^ 32) 32)) d

/-- 256 submissions of the core are without a delivered completion. -/
def coreFull (c : Nat) (d : Dev) : Bool := decide (256 ≤ (d.getCore c).outstanding)

/-- A command whose host-memory read fails completes with DMA_FAULT (13 R378); in D3hot the read waits, and the command with it (R363). -/
def submitOrFault (x : Desc) (dmaOk : Bool) (b : Sub) (d : Dev) : Dev :=
  if readsImage x.code && d.hif.d3hot then d.updHif (fun h => { h with heldSubs := h.heldSubs ++ [(b, x, dmaOk)] })
  else
  let d := when_ (readsImage x.code) (dmaRead (imageAddr x) 64) d
  if readsImage x.code && (!dmaOk || x.image.length != 64) then
    let e := refEngine x.code (dmaFailed 2 0 d)
    completeX b stDMA_FAULT e.1 true false 0 [] e.2
  else submit b x d

/-- The gate refuses a core's submission: BAD_COMMAND, BAD_MODE, BUSY, in the order of R226. -/
def tackgStatus (b : Bytes) (x : Desc) (d : Dev) : Nat :=
  if !descOk b x || codeEngine x.code != some engGate || (x.shadowOnly && (!shadowCodes.contains x.code || d.twn.pair != 1)) then dBAD_COMMAND
  else if gateClosed d then dBAD_MODE
  else if 4096 ≤ d.tck.gate.length then dBUSY else dOK

/-- TACKG: the gated descriptor at local address ra; `image` is what the device reads from host memory for CH_WRITE. -/
def doTackg (c rd ra : Nat) (image : Bytes) (dmaOk : Bool) (d : Dev) : Dev :=
  devOp 10 (some 3) c rd ra 0 0 (fun d =>
    let a := ((d.getCore c).reg ra).toNat
    withOp c a 64 8 0 (fun d =>
      let b := getBytes (d.getCore c).sram a 64
      let x := descOf b image
      if coreFull c d then devStat c rd a dFULL d
      else
        let st := tackgStatus b x d
        if st ≠ dOK then devStat c rd a st d
        else coreSubmit c rd a (descTag b) (submitOrFault x dmaOk) (d.updCore c (coreCount 13))) d) d

/-- TACKG. -/
def execTackg (c rd ra : Nat) (image : Bytes) (dmaOk : Bool) (s : State) : Host.Outcome State Fault Refusal := done s (doTackg c rd ra image dmaOk)

/-- ENGQ's refusal; engine 0 takes a job descriptor, engines 1 to 4 command descriptors of their own. -/
def engqStatus (c engine : Nat) (b : Bytes) (x : Desc) (d : Dev) : Nat :=
  if coreFull c d then dFULL
  else if 4 < engine then dBAD_COMMAND
  else if engine = 0 then
    if !ownsSce (reqCore c) d then dNOT_OWNER else if d.keys.sceJob.isSome then dFULL else dOK
  else if !descOk b x || codeEngine x.code != some engine then dBAD_COMMAND
  else if queueFull x d then dFULL else dOK

/-- ENGQ. A job descriptor has no TAG: its completion's TAG is a free value. -/
def doEngq (c rd ra engine : Nat) (image : Bytes) (dmaOk : Bool) (d : Dev) : Dev :=
  devOp 11 (some 4) c rd ra 0 engine (fun d =>
    let a := ((d.getCore c).reg ra).toNat
    withOp c a 64 8 0 (fun d =>
      let b := getBytes (d.getCore c).sram a 64
      let e := engine % 64
      let x := descOf b image
      let st := engqStatus c e b x d
      if st = dFULL then devStat c rd a st (d.updCore c (coreCount 17))
      else if st ≠ dOK then devStat c rd a st d
      else if e = 0 then
        let r := freeNat d
        coreSubmit c rd a (r.1 % 2 ^ 16) (fun s d => doSceJob s b d) r.2
      else coreSubmit c rd a (descTag b) (submitOrFault x dmaOk) d) d) d

/-- ENGQ. -/
def execEngq (c rd ra engine : Nat) (image : Bytes) (dmaOk : Bool) (s : State) : Host.Outcome State Fault Refusal :=
  done s (doEngq c rd ra engine image dmaOk)

/-- POWER_STATE_D3HOT: DMA and interrupts stop; on the return to D0 what waited goes out, its records show in the producer registers, and the
commands whose host-memory input waited are submitted (13 R363, log entry 14). -/
def execPowerStateD3hot (on : Bool) (s : State) : Host.Outcome State Fault Refusal :=
  done s (fun d =>
    if on then { d with hif := { d.hif with d3hot := true } }
    else
      let h := d.hif
      each h.heldSubs (fun x d => submitOrFault x.2.1 x.2.2 x.1 d) { d with
        hif := { h with d3hot := false, held := [], heldSubs := [], hmbLate := 0,
                        ring := h.ring.map (fun e => (e.1, { e.2 with late := 0 })), ext := h.ext.map (fun e => (e.1, { e.2 with late := 0 })) }
        out := h.held.map Out.host ++ d.out })

end Sys2Proof.Machine
end

