-- ==== Sys2Proof/Machine/Dispatch.lean ====
section
/-! DEFINITION. The effect of each command: one direct call of its meaning. -/

namespace Sys2Proof.Machine

/-- The effect of a command on everything but the queue. -/
def exec (i : Instr) (s : State) : Host.Outcome State Fault Refusal :=
  match i with
  | .frameDelineated p bytes fin => Sys2Proof.Machine.execFrameDelineated p bytes fin s
  | .framePassed p => Sys2Proof.Machine.execFramePassed p s
  | .transmitQueueDequeue p => Sys2Proof.Machine.execTransmitQueueDequeue p s
  | .icvEmitted p => Sys2Proof.Machine.execIcvEmitted p s
  | .icvVerified p => Sys2Proof.Machine.execIcvVerified p s
  | .receiveEgressSend p => Sys2Proof.Machine.execReceiveEgressSend p s
  | .interimDigest p => Sys2Proof.Machine.execInterimDigest p s
  | .slotFrameTransmit p maps => Sys2Proof.Machine.execSlotFrameTransmit p maps s
  | .huntBlock p blk => Sys2Proof.Machine.execHuntBlock p blk s
  | .slotFrameReceive p blocks fin => Sys2Proof.Machine.execSlotFrameReceive p blocks fin s
  | .swapRequestTimeout p => Sys2Proof.Machine.execSwapRequestTimeout p s
  | .failureIntegration p bit client present => Sys2Proof.Machine.execFailureIntegration p bit client present s
  | .pmSecondEnd p => Sys2Proof.Machine.execPmSecondEnd p s
  | .pmSecondEntry p => Sys2Proof.Machine.execPmSecondEntry p s
  | .sltPmsel v => Sys2Proof.Machine.execSltPmsel v s
  | .tackForm => Sys2Proof.Machine.execTackForm s
  | .beatForm => Sys2Proof.Machine.execBeatForm s
  | .recordApply => Sys2Proof.Machine.execRecordApply s
  | .freezeReportReceived p z own => Sys2Proof.Machine.execFreezeReportReceived p z own s
  | .freezeReportMissing p => Sys2Proof.Machine.execFreezeReportMissing p s
  | .freezeSealTimeout p => Sys2Proof.Machine.execFreezeSealTimeout p s
  | .wakeSend p => Sys2Proof.Machine.execWakeSend p s
  | .gateSubmit b d => Sys2Proof.Machine.execGateSubmit b d s
  | .stationWalk q => Sys2Proof.Machine.execStationWalk q s
  | .learnsApply k => Sys2Proof.Machine.execLearnsApply k s
  | .flushWalk q => Sys2Proof.Machine.execFlushWalk q s
  | .saStage b buf ticket image => Sys2Proof.Machine.execSaStage b buf ticket image s
  | .saStagepin b buf cold => Sys2Proof.Machine.execSaStagepin b buf cold s
  | .stageFillComplete buf fault => Sys2Proof.Machine.execStageFillComplete buf fault s
  | .saUnstage b buf => Sys2Proof.Machine.execSaUnstage b buf s
  | .coldErase b cold => Sys2Proof.Machine.execColdErase b cold s
  | .saLoad b slot buf => Sys2Proof.Machine.execSaLoad b slot buf s
  | .winCreate b w chid => Sys2Proof.Machine.execWinCreate b w chid s
  | .winErase b w => Sys2Proof.Machine.execWinErase b w s
  | .saAttach b slot chid an win => Sys2Proof.Machine.execSaAttach b slot chid an win s
  | .saActivate b slot => Sys2Proof.Machine.execSaActivate b slot s
  | .chSeam b chid an kind seamAt => Sys2Proof.Machine.execChSeam b chid an kind seamAt s
  | .saRetire b slot keep => Sys2Proof.Machine.execSaRetire b slot keep s
  | .saErase b slot => Sys2Proof.Machine.execSaErase b slot s
  | .saSetlimit b slot soft hard => Sys2Proof.Machine.execSaSetlimit b slot soft hard s
  | .saRaisepn b slot pn => Sys2Proof.Machine.execSaRaisepn b slot pn s
  | .saPark b slot cold => Sys2Proof.Machine.execSaPark b slot cold s
  | .parkWritebackComplete slot => Sys2Proof.Machine.execParkWritebackComplete slot s
  | .drainComplete slot => Sys2Proof.Machine.execDrainComplete slot s
  | .drainTimeout slot => Sys2Proof.Machine.execDrainTimeout slot s
  | .chWrite b chid image => Sys2Proof.Machine.execChWrite b chid image s
  | .chEnable b chid => Sys2Proof.Machine.execChEnable b chid s
  | .chDisable b chid => Sys2Proof.Machine.execChDisable b chid s
  | .sasSide b side => Sys2Proof.Machine.execSasSide b side s
  | .sciInsert b face sci chid => Sys2Proof.Machine.execSciInsert b face sci chid s
  | .sciDelete b face sci => Sys2Proof.Machine.execSciDelete b face sci s
  | .stnInsert b part key chid => Sys2Proof.Machine.execStnInsert b part key chid s
  | .stnDelete b part key => Sys2Proof.Machine.execStnDelete b part key s
  | .stnFlush b part byChan value inclStatic => Sys2Proof.Machine.execStnFlush b part byChan value inclStatic s
  | .stnSetsweep b period => Sys2Proof.Machine.execStnSetsweep b period s
  | .patLoad b slot => Sys2Proof.Machine.execPatLoad b slot s
  | .patLoadComplete => Sys2Proof.Machine.execPatLoadComplete s
  | .patSwitch b => Sys2Proof.Machine.execPatSwitch b s
  | .cmdPortConfig b p cfg => Sys2Proof.Machine.execCmdPortConfig b p cfg s
  | .cmdPortEnable b p => Sys2Proof.Machine.execCmdPortEnable b p s
  | .cmdPortDisable b p => Sys2Proof.Machine.execCmdPortDisable b p s
  | .prtSet b p off v => Sys2Proof.Machine.execPrtSet b p off v s
  | .sltSet b p off v => Sys2Proof.Machine.execSltSet b p off v s
  | .sltSwap b p => Sys2Proof.Machine.execSltSwap b p s
  | .slcRestart b x2 => Sys2Proof.Machine.execSlcRestart b x2 s
  | .slcRestartComplete x1 pass => Sys2Proof.Machine.execSlcRestartComplete x1 pass s
  | .twnResync p d => Sys2Proof.Machine.execTwnResync p d s
  | .keyGen b len dest usage keyId => Sys2Proof.Machine.execKeyGen b len dest usage keyId s
  | .keyTicket b slot fresh => Sys2Proof.Machine.execKeyTicket b slot fresh s
  | .keyDerive b src func kind label ctr ctx len dest usage keyId fresh => Sys2Proof.Machine.execKeyDerive b src func kind label ctr ctx len dest usage keyId fresh s
  | .keyCombine b slotA slotB hash dest => Sys2Proof.Machine.execKeyCombine b slotA slotB hash dest s
  | .keyUnwrap b fmt data wrapSlot dest usage => Sys2Proof.Machine.execKeyUnwrap b fmt data wrapSlot dest usage s
  | .keyWrap b src wrapSlot fmt addr => Sys2Proof.Machine.execKeyWrap b src wrapSlot fmt addr s
  | .keyClear b slot => Sys2Proof.Machine.execKeyClear b slot s
  | .ticketExpiry handle => Sys2Proof.Machine.execTicketExpiry handle s
  | .rngHealthFail test => Sys2Proof.Machine.execRngHealthFail test s
  | .rngRetest pass => Sys2Proof.Machine.execRngRetest pass s
  | .latKemkeygen b lpk addr => Sys2Proof.Machine.execLatKemkeygen b lpk addr s
  | .latEncap b ek kek addr => Sys2Proof.Machine.execLatEncap b ek kek addr s
  | .latDecap b lpk ct kek => Sys2Proof.Machine.execLatDecap b lpk ct kek s
  | .latSign b lpk msg addr => Sys2Proof.Machine.execLatSign b lpk msg addr s
  | .latVerify b pk msg sig => Sys2Proof.Machine.execLatVerify b pk msg sig s
  | .latPubkey b lpk addr => Sys2Proof.Machine.execLatPubkey b lpk addr s
  | .latEckeygen b lpk addr => Sys2Proof.Machine.execLatEckeygen b lpk addr s
  | .latEcdh b lpk point kek => Sys2Proof.Machine.execLatEcdh b lpk point kek s
  | .latHash b data alg outLen addr => Sys2Proof.Machine.execLatHash b data alg outLen addr s
  | .latCommandComplete n => Sys2Proof.Machine.execLatCommandComplete n s
  | .sceJob b job => Sys2Proof.Machine.execSceJob b job s
  | .sceJobComplete => Sys2Proof.Machine.execSceJobComplete s
  | .sceClaim r => Sys2Proof.Machine.execSceClaim r s
  | .sceRelease r => Sys2Proof.Machine.execSceRelease r s
  | .sceForce r => Sys2Proof.Machine.execSceForce r s
  | .sceLeaseExpiry => Sys2Proof.Machine.execSceLeaseExpiry s
  | .pkxHello p hdr body => Sys2Proof.Machine.execPkxHello p hdr body s
  | .pkxReply p hdr body => Sys2Proof.Machine.execPkxReply p hdr body s
  | .pkxConfirm p hdr body => Sys2Proof.Machine.execPkxConfirm p hdr body s
  | .pkxFinish p hdr body => Sys2Proof.Machine.execPkxFinish p hdr body s
  | .pkxKeynote p hdr body => Sys2Proof.Machine.execPkxKeynote p hdr body s
  | .pkxKeyack p hdr body => Sys2Proof.Machine.execPkxKeyack p hdr body s
  | .pkxAbort p hdr body => Sys2Proof.Machine.execPkxAbort p hdr body s
  | .pkxFragmentTimeout p session => Sys2Proof.Machine.execPkxFragmentTimeout p session s
  | .tRetx n => Sys2Proof.Machine.execTRetx n s
  | .tSession n => Sys2Proof.Machine.execTSession n s
  | .tCk n => Sys2Proof.Machine.execTCk n s
  | .tOverlap n => Sys2Proof.Machine.execTOverlap n s
  | .tBackoff n => Sys2Proof.Machine.execTBackoff n s
  | .mkpduReceive ca version priority sci body icv => Sys2Proof.Machine.execMkpduReceive ca version priority sci body icv s
  | .pairForm peer dpver role => Sys2Proof.Machine.execPairForm peer dpver role s
  | .partnerDigest p first count digest fps => Sys2Proof.Machine.execPartnerDigest p first count digest fps s
  | .mismatch p first sliceFault => Sys2Proof.Machine.execMismatch p first sliceFault s
  | .resyncOffsetReport p => Sys2Proof.Machine.execResyncOffsetReport p s
  | .resyncState p chans => Sys2Proof.Machine.execResyncState p chans s
  | .resyncGiveup p reason => Sys2Proof.Machine.execResyncGiveup p reason s
  | .joinStateStream t sas tck acts => Sys2Proof.Machine.execJoinStateStream t sas tck acts s
  | .heartbeatSend => Sys2Proof.Machine.execHeartbeatSend s
  | .heartbeat path serial side dpver role seq ack depart => Sys2Proof.Machine.execHeartbeat path serial side dpver role seq ack depart s
  | .shadowCoast => Sys2Proof.Machine.execShadowCoast s
  | .takeover evidence => Sys2Proof.Machine.execTakeover evidence s
  | .leadLeaseLapse evidence => Sys2Proof.Machine.execLeadLeaseLapse evidence s
  | .hbFrameSend => Sys2Proof.Machine.execHbFrameSend s
  | .hbFrame payload => Sys2Proof.Machine.execHbFrame payload s
  | .standbyTakeover => Sys2Proof.Machine.execStandbyTakeover s
  | .activeAckTimeout => Sys2Proof.Machine.execActiveAckTimeout s
  | .fencedSoloTimeout => Sys2Proof.Machine.execFencedSoloTimeout s
  | .holpenFrame j bytes => Sys2Proof.Machine.execHolpenFrame j bytes s
  | .linkhello j majors minor nbr serial pkx => Sys2Proof.Machine.execLinkhello j majors minor nbr serial pkx s
  | .linkRekey j => Sys2Proof.Machine.execLinkRekey j s
  | .holpenPortRestart j => Sys2Proof.Machine.execHolpenPortRestart j s
  | .zeroise j origin reason hops => Sys2Proof.Machine.execZeroise j origin reason hops s
  | .add c rd ra rb => Sys2Proof.Machine.execAdd c rd ra rb s
  | .sub c rd ra rb => Sys2Proof.Machine.execSub c rd ra rb s
  | .and c rd ra rb => Sys2Proof.Machine.execAnd c rd ra rb s
  | .or c rd ra rb => Sys2Proof.Machine.execOr c rd ra rb s
  | .xor c rd ra rb => Sys2Proof.Machine.execXor c rd ra rb s
  | .sll c rd ra rb => Sys2Proof.Machine.execSll c rd ra rb s
  | .srl c rd ra rb => Sys2Proof.Machine.execSrl c rd ra rb s
  | .sra c rd ra rb => Sys2Proof.Machine.execSra c rd ra rb s
  | .slt c rd ra rb => Sys2Proof.Machine.execSlt c rd ra rb s
  | .sltu c rd ra rb => Sys2Proof.Machine.execSltu c rd ra rb s
  | .mul c rd ra rb => Sys2Proof.Machine.execMul c rd ra rb s
  | .mulh c rd ra rb => Sys2Proof.Machine.execMulh c rd ra rb s
  | .mulhu c rd ra rb => Sys2Proof.Machine.execMulhu c rd ra rb s
  | .div c rd ra rb => Sys2Proof.Machine.execDiv c rd ra rb s
  | .divu c rd ra rb => Sys2Proof.Machine.execDivu c rd ra rb s
  | .rem c rd ra rb => Sys2Proof.Machine.execRem c rd ra rb s
  | .remu c rd ra rb => Sys2Proof.Machine.execRemu c rd ra rb s
  | .min c rd ra rb => Sys2Proof.Machine.execMin c rd ra rb s
  | .max c rd ra rb => Sys2Proof.Machine.execMax c rd ra rb s
  | .minu c rd ra rb => Sys2Proof.Machine.execMinu c rd ra rb s
  | .maxu c rd ra rb => Sys2Proof.Machine.execMaxu c rd ra rb s
  | .clz c rd ra => Sys2Proof.Machine.execClz c rd ra s
  | .popc c rd ra => Sys2Proof.Machine.execPopc c rd ra s
  | .bswap c rd ra => Sys2Proof.Machine.execBswap c rd ra s
  | .addi c rd ra imm => Sys2Proof.Machine.execAddi c rd ra imm s
  | .andi c rd ra imm => Sys2Proof.Machine.execAndi c rd ra imm s
  | .ori c rd ra imm => Sys2Proof.Machine.execOri c rd ra imm s
  | .xori c rd ra imm => Sys2Proof.Machine.execXori c rd ra imm s
  | .slti c rd ra imm => Sys2Proof.Machine.execSlti c rd ra imm s
  | .sltiu c rd ra imm => Sys2Proof.Machine.execSltiu c rd ra imm s
  | .slli c rd ra sh => Sys2Proof.Machine.execSlli c rd ra sh s
  | .srli c rd ra sh => Sys2Proof.Machine.execSrli c rd ra sh s
  | .srai c rd ra sh => Sys2Proof.Machine.execSrai c rd ra sh s
  | .lui c rd imm => Sys2Proof.Machine.execLui c rd imm s
  | .hins1 c rd ra imm => Sys2Proof.Machine.execHins1 c rd ra imm s
  | .hins2 c rd ra imm => Sys2Proof.Machine.execHins2 c rd ra imm s
  | .hins3 c rd ra imm => Sys2Proof.Machine.execHins3 c rd ra imm s
  | .lb c rd ra imm => Sys2Proof.Machine.execLb c rd ra imm s
  | .lbu c rd ra imm => Sys2Proof.Machine.execLbu c rd ra imm s
  | .lh c rd ra imm => Sys2Proof.Machine.execLh c rd ra imm s
  | .lhu c rd ra imm => Sys2Proof.Machine.execLhu c rd ra imm s
  | .lw c rd ra imm => Sys2Proof.Machine.execLw c rd ra imm s
  | .lwu c rd ra imm => Sys2Proof.Machine.execLwu c rd ra imm s
  | .ld c rd ra imm => Sys2Proof.Machine.execLd c rd ra imm s
  | .sb c rs ra imm => Sys2Proof.Machine.execSb c rs ra imm s
  | .sh c rs ra imm => Sys2Proof.Machine.execSh c rs ra imm s
  | .sw c rs ra imm => Sys2Proof.Machine.execSw c rs ra imm s
  | .sd c rs ra imm => Sys2Proof.Machine.execSd c rs ra imm s
  | .amoswap c rd ra rb => Sys2Proof.Machine.execAmoswap c rd ra rb s
  | .amoadd c rd ra rb => Sys2Proof.Machine.execAmoadd c rd ra rb s
  | .amoand c rd ra rb => Sys2Proof.Machine.execAmoand c rd ra rb s
  | .amoor c rd ra rb => Sys2Proof.Machine.execAmoor c rd ra rb s
  | .cas c rd ra rb => Sys2Proof.Machine.execCas c rd ra rb s
  | .beq c ra rb disp => Sys2Proof.Machine.execBeq c ra rb disp s
  | .bne c ra rb disp => Sys2Proof.Machine.execBne c ra rb disp s
  | .blt c ra rb disp => Sys2Proof.Machine.execBlt c ra rb disp s
  | .bge c ra rb disp => Sys2Proof.Machine.execBge c ra rb disp s
  | .bltu c ra rb disp => Sys2Proof.Machine.execBltu c ra rb disp s
  | .bgeu c ra rb disp => Sys2Proof.Machine.execBgeu c ra rb disp s
  | .jal c disp => Sys2Proof.Machine.execJal c disp s
  | .jalr c rd ra imm => Sys2Proof.Machine.execJalr c rd ra imm s
  | .csrr c rd num => Sys2Proof.Machine.execCsrr c rd num s
  | .csrw c rd ra num => Sys2Proof.Machine.execCsrw c rd ra num s
  | .csrs c rd ra num => Sys2Proof.Machine.execCsrs c rd ra num s
  | .csrc c rd ra num => Sys2Proof.Machine.execCsrc c rd ra num s
  | .eret c => Sys2Proof.Machine.execEret c s
  | .trap c code => Sys2Proof.Machine.execTrap c code s
  | .hopen c rd ra h => Sys2Proof.Machine.execHopen c rd ra h s
  | .hrd c rd ra rb h => Sys2Proof.Machine.execHrd c rd ra rb h s
  | .hsnap c rd ra rb h => Sys2Proof.Machine.execHsnap c rd ra rb h s
  | .hsrch c rd ra rb h => Sys2Proof.Machine.execHsrch c rd ra rb h s
  | .hnext c rd ra rb h => Sys2Proof.Machine.execHnext c rd ra rb h s
  | .calloc c rd => Sys2Proof.Machine.execCalloc c rd s
  | .cfree c rd ra => Sys2Proof.Machine.execCfree c rd ra s
  | .cmove c rd ra rb dir => Sys2Proof.Machine.execCmove c rd ra rb dir s
  | .msend c rd ra => Sys2Proof.Machine.execMsend c rd ra s
  | .mrecv c rd ra => Sys2Proof.Machine.execMrecv c rd ra s
  | .tackg c rd ra image dmaOk => Sys2Proof.Machine.execTackg c rd ra image dmaOk s
  | .engq c rd ra engine image dmaOk => Sys2Proof.Machine.execEngq c rd ra engine image dmaOk s
  | .ewait c rd ra rb flags => Sys2Proof.Machine.execEwait c rd ra rb flags s
  | .evpost c rd ra => Sys2Proof.Machine.execEvpost c rd ra s
  | .ewaitWake c => Sys2Proof.Machine.execEwaitWake c s
  | .timerException c => Sys2Proof.Machine.execTimerException c s
  | .deferredStoreFail c addr => Sys2Proof.Machine.execDeferredStoreFail c addr s
  | .completionDeliver c => Sys2Proof.Machine.execCompletionDeliver c s
  | .sampleTake c latency flags => Sys2Proof.Machine.execSampleTake c latency flags s
  | .coreSelftestComplete c pass => Sys2Proof.Machine.execCoreSelftestComplete c pass s
  | .bobbinRefill q => Sys2Proof.Machine.execBobbinRefill q s
  | .bobbinSpill q => Sys2Proof.Machine.execBobbinSpill q s
  | .bobbinSpillAll => Sys2Proof.Machine.execBobbinSpillAll s
  | .bpmQsel v => Sys2Proof.Machine.execBpmQsel v s
  | .bpmQmin v => Sys2Proof.Machine.execBpmQmin v s
  | .bpmQcap v => Sys2Proof.Machine.execBpmQcap v s
  | .ddr5TrainComplete rate dimmGib failMap ok => Sys2Proof.Machine.execDdr5TrainComplete rate dimmGib failMap ok s
  | .patrolScrub addr corrected uncorr => Sys2Proof.Machine.execPatrolScrub addr corrected uncorr s
  | .sasColdLock v => Sys2Proof.Machine.execSasColdLock v s
  | .mecCfgLock v => Sys2Proof.Machine.execMecCfgLock v s
  | .mecInitComplete => Sys2Proof.Machine.execMecInitComplete s
  | .mecReprov v => Sys2Proof.Machine.execMecReprov v s
  | .reprovComplete => Sys2Proof.Machine.execReprovComplete s
  | .memClear v => Sys2Proof.Machine.execMemClear v s
  | .memClearComplete => Sys2Proof.Machine.execMemClearComplete s
  | .sramPatrol region row addr unit uncorr => Sys2Proof.Machine.execSramPatrol region row addr unit uncorr s
  | .laneLosDeclare l => Sys2Proof.Machine.execLaneLosDeclare l s
  | .laneLosClear l => Sys2Proof.Machine.execLaneLosClear l s
  | .laneLolDeclare l freqOfs => Sys2Proof.Machine.execLaneLolDeclare l freqOfs s
  | .pcsAlignChange p aligned => Sys2Proof.Machine.execPcsAlignChange p aligned s
  | .laneAcquireComplete l freqOfs => Sys2Proof.Machine.execLaneAcquireComplete l freqOfs s
  | .laneAcquireTimeout l => Sys2Proof.Machine.execLaneAcquireTimeout l s
  | .fomMeasure l fom eye => Sys2Proof.Machine.execFomMeasure l fom eye s
  | .txPllUnlock l => Sys2Proof.Machine.execTxPllUnlock l s
  | .laneWatchdogExpire l => Sys2Proof.Machine.execLaneWatchdogExpire l s
  | .laneSelftestComplete fails => Sys2Proof.Machine.execLaneSelftestComplete fails s
  | .lneCal l v => Sys2Proof.Machine.execLneCal l v s
  | .lneTest l v => Sys2Proof.Machine.execLneTest l v s
  | .lneCtrl l v => Sys2Proof.Machine.execLneCtrl l v s
  | .lneTxeq l v => Sys2Proof.Machine.execLneTxeq l v s
  | .refclkLoss x1 => Sys2Proof.Machine.execRefclkLoss x1 s
  | .refclkReturn x1 => Sys2Proof.Machine.execRefclkReturn x1 s
  | .hifHostver v => Sys2Proof.Machine.execHifHostver v s
  | .ringEnable page v => Sys2Proof.Machine.execRingEnable page v s
  | .ringPiWrite r v => Sys2Proof.Machine.execRingPiWrite r v s
  | .descriptorFetch r desc image ringFail imageFail => Sys2Proof.Machine.execDescriptorFetch r desc image ringFail imageFail s
  | .dmaReadTimeout kind q => Sys2Proof.Machine.execDmaReadTimeout kind q s
  | .nop b => Sys2Proof.Machine.execNop b s
  | .msgSend b msg => Sys2Proof.Machine.execMsgSend b msg s
  | .hifCopy b host ddr len dir data => Sys2Proof.Machine.execHifCopy b host ddr len dir data s
  | .hiqPiWrite q v => Sys2Proof.Machine.execHiqPiWrite q v s
  | .injectionFrameSend q bytes fail => Sys2Proof.Machine.execInjectionFrameSend q bytes fail s
  | .hxqBpiWrite q v bufs => Sys2Proof.Machine.execHxqBpiWrite q v bufs s
  | .msixHoldoffExpiry src => Sys2Proof.Machine.execMsixHoldoffExpiry src s
  | .functionReset cause => Sys2Proof.Machine.execFunctionReset cause s
  | .modReqFactory r => Sys2Proof.Machine.execModReqFactory r s
  | .modReqEnrol r => Sys2Proof.Machine.execModReqEnrol r s
  | .modReqSolo r => Sys2Proof.Machine.execModReqSolo r s
  | .modReqLead r => Sys2Proof.Machine.execModReqLead r s
  | .modReqShadow r => Sys2Proof.Machine.execModReqShadow r s
  | .modReqService r => Sys2Proof.Machine.execModReqService r s
  | .modReqFallow r => Sys2Proof.Machine.execModReqFallow r s
  | .modReqSwap r rt mc => Sys2Proof.Machine.execModReqSwap r rt mc s
  | .swapImagesVerified => Sys2Proof.Machine.execSwapImagesVerified s
  | .swapReloadComplete ok => Sys2Proof.Machine.execSwapReloadComplete ok s
  | .modLckey r v => Sys2Proof.Machine.execModLckey r v s
  | .enrolDone r => Sys2Proof.Machine.execEnrolDone r s
  | .lcSeal r => Sys2Proof.Machine.execLcSeal r s
  | .lcReturn r => Sys2Proof.Machine.execLcReturn r s
  | .scrap r => Sys2Proof.Machine.execScrap r s
  | .fuseOwner r => Sys2Proof.Machine.execFuseOwner r s
  | .fuseOwneronly r => Sys2Proof.Machine.execFuseOwneronly r s
  | .fuseBlowComplete ok => Sys2Proof.Machine.execFuseBlowComplete ok s
  | .modReset r v => Sys2Proof.Machine.execModReset r v s
  | .coldReset => Sys2Proof.Machine.execColdReset s
  | .kilnBoot => Sys2Proof.Machine.execKilnBoot s
  | .tamperReleaseWait => Sys2Proof.Machine.execTamperReleaseWait s
  | .modZeroiseLocal r => Sys2Proof.Machine.execModZeroiseLocal r s
  | .modZeroiseMesh r => Sys2Proof.Machine.execModZeroiseMesh r s
  | .modBist r v => Sys2Proof.Machine.execModBist r v s
  | .bistComplete pass cls unit => Sys2Proof.Machine.execBistComplete pass cls unit s
  | .modSvncommit r v => Sys2Proof.Machine.execModSvncommit r v s
  | .modMrext r v => Sys2Proof.Machine.execModMrext r v s
  | .modAttctrl r v => Sys2Proof.Machine.execModAttctrl r v s
  | .attestComplete => Sys2Proof.Machine.execAttestComplete s
  | .modMrsel r v => Sys2Proof.Machine.execModMrsel r v s
  | .tamperAssert => Sys2Proof.Machine.execTamperAssert s
  | .pwrfailAssert => Sys2Proof.Machine.execPwrfailAssert s
  | .railUndervoltage rail => Sys2Proof.Machine.execRailUndervoltage rail s
  | .tempHot tj => Sys2Proof.Machine.execTempHot tj s
  | .tempFault tj => Sys2Proof.Machine.execTempFault tj s
  | .pipeParityFault x1 dir pipe mirror => Sys2Proof.Machine.execPipeParityFault x1 dir pipe mirror s
  | .spareRotate x1 dir => Sys2Proof.Machine.execSpareRotate x1 dir s
  | .spareKatFail x1 dir => Sys2Proof.Machine.execSpareKatFail x1 dir s
  | .pipeKatComplete x1 dir pipe pass => Sys2Proof.Machine.execPipeKatComplete x1 dir pipe pass s
  | .engineKat scePass latPass => Sys2Proof.Machine.execEngineKat scePass latPass s
  | .archiveCopy => Sys2Proof.Machine.execArchiveCopy s
  | .checkpoint => Sys2Proof.Machine.execCheckpoint s
  | .evrPostctl r v => Sys2Proof.Machine.execEvrPostctl r v s
  | .evrCalset v => Sys2Proof.Machine.execEvrCalset v s
  | .calendarHoldover => Sys2Proof.Machine.execCalendarHoldover s
  | .ppsEdge => Sys2Proof.Machine.execPpsEdge s
  | .ppsMissing => Sys2Proof.Machine.execPpsMissing s
  | .todMessage bytes inTime => Sys2Proof.Machine.execTodMessage bytes inTime s
  | .flsRead r => Sys2Proof.Machine.execFlsRead r s
  | .flsProgram r => Sys2Proof.Machine.execFlsProgram r s
  | .flsErase r => Sys2Proof.Machine.execFlsErase r s
  | .flsOpComplete ok => Sys2Proof.Machine.execFlsOpComplete ok s
  | .i3cCmd x1 v => Sys2Proof.Machine.execI3cCmd x1 v s
  | .i3cTransferComplete x1 nack err data => Sys2Proof.Machine.execI3cTransferComplete x1 nack err data s
  | .i3cIbi x1 addr data => Sys2Proof.Machine.execI3cIbi x1 addr data s
  | .prfFreeze on => Sys2Proof.Machine.execPrfFreeze on s
  | .prfClear => Sys2Proof.Machine.execPrfClear s
  | .prfClr x1 => Sys2Proof.Machine.execPrfClr x1 s
  | .sasStatsel v => Sys2Proof.Machine.execSasStatsel v s
  | .sasRecsel v => Sys2Proof.Machine.execSasRecsel v s
  | .chnRecsel v => Sys2Proof.Machine.execChnRecsel v s
  | .keySlotsel v => Sys2Proof.Machine.execKeySlotsel v s
  | .stnSearch v => Sys2Proof.Machine.execStnSearch v s
  | .stnNext v => Sys2Proof.Machine.execStnNext v s
  | .twnNodeaddrLock v => Sys2Proof.Machine.execTwnNodeaddrLock v s
  | .registerWrite r off v => Sys2Proof.Machine.execRegisterWrite r off v s
  | .registerRead r off => Sys2Proof.Machine.execRegisterRead r off s
  | .illegal c w => Sys2Proof.Machine.execIllegal c w s
  | .mkaHelloTime ca => Sys2Proof.Machine.execMkaHelloTime ca s
  | .mkaLifeTime ca => Sys2Proof.Machine.execMkaLifeTime ca s
  | .heartbeatsLostOnOnePath path => Sys2Proof.Machine.execHeartbeatsLostOnOnePath path s
  | .twnBlockFault => Sys2Proof.Machine.execTwnBlockFault s
  | .txPllRelock l => Sys2Proof.Machine.execTxPllRelock l s
  | .foregroundRecalibrationEnd l => Sys2Proof.Machine.execForegroundRecalibrationEnd l s
  | .portClientPlayout p client => Sys2Proof.Machine.execPortClientPlayout p client s
  | .powerStateD3hot on => Sys2Proof.Machine.execPowerStateD3hot on s

end Sys2Proof.Machine
end

