-- ==== Sys2Proof/Machine/Tick.lean ====
section
/-! DEFINITION. One millisecond of operating time, the effect of a step with no command waiting (log entry 2). -/

namespace Sys2Proof.Machine

/-- A core's clock counters in level mode over `n` control clocks (10 R306, Table 10-20: events 0, 8, 15 and 16); in edge mode they count
where those clocks begin. -/
def coreClocks (n : Nat) (k : Core) : Core :=
  let evs := [0] ++ (if k.run = .waiting then [8] else []) ++ (if k.super then [16] else [15])
  let k := evs.foldl (fun k e => k.countIf (fun s => !s.getLsbD 6) e n) k
  { k with cycle := (k.cycle + n) % 2 ^ 64,
           smpCount := if k.smpCfg.getLsbD 0 && k.smpCfg.getLsbD 1 then k.smpCount + n else k.smpCount }

/-- The clock events of 16 Table 16-10 whose value is not 0 now, as (code, UNIT); those without units have UNIT 0 here. -/
def prfNow (d : Dev) : List (Nat × Nat) :=
  ((List.range 8).filter (fun s => decide (d.bpm.cnt (0x40 + s) > 2048))).map (fun s => (6, s))
  ++ ((List.range 64).filter (fun p => (d.getTck p).rx.any (fun f => decide (f.idx ≥ (d.getTck p).horizon)))).map (fun p => (7, p))
  ++ if d.bpm.shared - d.bpm.used < 4096 then [(10, 0)] else []

/-- A device counter over `n` datapath clocks in which the events `now` are high: in level mode it adds each clock's value, in edge mode 1 where the
event was not high in the clock before (16 R448). Event 1 is high in every clock. -/
def PrfCtr.clocks (n : Nat) (was now : List (Nat × Nat)) (c : PrfCtr) : PrfCtr :=
  let key := (c.event, if c.event = 6 || c.event = 7 then c.unit else 0)
  let on := fun (l : List (Nat × Nat)) => c.event = 1 || l.contains key
  if !c.en || !on now then c else c.add (if !c.edge then n else if on was then 0 else 1)

/-- The clock events of Table 16-10 over `n` datapath clocks; what was high is known whether or not a counter counts it. -/
def prfClocks (n : Nat) (d : Dev) : Dev :=
  let now := prfNow d
  let f := PrfCtr.clocks n d.prfHigh now
  { d with prfHigh := now, prf := if d.prfFreeze then d.prf else (List.range 16).foldl (fun t i => Tab.upd {} t i f) d.prf }

/-- The checker of every lane that has acquired and has CHECK set counts the bit errors of the millisecond, a free number: no command carries the
bits that a lane receives (12 R355; log entry 76). -/
def checkTick (d : Dev) : Dev :=
  each (List.range 80) (fun l d =>
    let x := d.getLane l
    if bitAt x.test 2 && !x.los && !x.lol && !x.retired then
      let r := freeNat d
      r.2.updLane l (fun x => { x with testErr := sat64 (x.testErr + r.1) })
    else d) d

/-- One millisecond passes: operating time, calendar, datapath and control clocks; OSF reads the completions of its commands; every Holpen
port transmits what waits there, in the order of 09 R264; and station commands whose earlier learns are complete take effect (log entry 2). -/
def tick (d : Dev) : Dev :=
  if d.pins.stopped then d
  else
    let e := d.evr
    let d := if e.ready then
        { d with evr := { e with optime := (e.optime + 1) % 2 ^ 48,
                                 calSec := if e.calq ≠ 0 && !e.ppsOn && (e.optime + 1) % 1000 == 0 then (e.calSec + 1) % 2 ^ 48 else e.calSec } }
      else d
    let d := { d with core := (List.range 64).foldl (fun t c =>
      Tab.upd {} t c (fun k => if coreAlive k then coreClocks 2000000 k else k)) d.core }
    prfClocks 1600000 (hpDrainAll (mkaTick (osfTick (stnDrain (checkTick d)))))

end Sys2Proof.Machine
end

