-- ==== Sys2Proof/Machine/Step.lean ====
section
/-! DEFINITION. One step: the command at the front of the queue, or a tick of operating time on an empty queue. -/

namespace Sys2Proof.Machine

/-- One step of the block (log entry 2 for the empty queue). -/
def step (s : State) : Host.Outcome State Fault Refusal :=
  match s.pending with
  | [] => .next { s with dev := tick s.dev }
  | c :: rest => exec c { s with pending := rest }

/-- The state with the command that a word spells at the front of its queue; unchanged where the word spells none. -/
def State.withFetchWord (s : State) (nbits w : Nat) : State :=
  match decodeTableWord nbits w with
  | none => s
  | some c => { s with pending := c :: s.pending }

/-- The state with the instruction that core `c` reads in the word `w` at the front of its queue (10 R277, R278, R291); every word spells one, for
what is no instruction, and FENCE, is the row ILLEGAL (log entry 62). -/
def State.withGlonikWord (s : State) (c w : Nat) (image : Bytes) (dmaOk : Bool) : State :=
  match glonikWord c w image dmaOk with
  | none => s
  | some i => { s with pending := i :: s.pending }

end Sys2Proof.Machine
end

