-- ==== Sys2Proof/Machine/LineCode.lean ====
section
/-! DEFINITION. What a lane sends for a run of bits: Gray-coded PAM4 symbols, their levels, precoding, polarity (12 R340, R341, R348, R358). -/

namespace Sys2Proof.Machine

/-- The Gray-coded symbol value of a pair of bits, the first bit the more significant (12 R340). -/
def grayOf (first second : Bool) : Nat :=
  match first, second with
  | false, false => 0
  | false, true => 1
  | true, true => 2
  | true, false => 3

/-- The pair of a symbol value. -/
def grayPair (g : Nat) : List Bool :=
  match g % 4 with
  | 0 => [false, false]
  | 1 => [false, true]
  | 2 => [true, true]
  | _ => [true, false]

/-- Symbol values of bits taken in pairs; a last bit without a partner waits for it. -/
def graySymbols : List Bool → List Nat
  | a :: b :: rest => grayOf a b :: graySymbols rest
  | _ => []

/-- P(j) := (G(j) - P(j-1)) mod 4, from P(-1) = `p` (12 R341). -/
def precode (p : Nat) : List Nat → List Nat
  | [] => []
  | g :: rest => (g + 4 - p % 4) % 4 :: precode ((g + 4 - p % 4) % 4) rest

/-- G(j) := (P(j) + P(j-1)) mod 4. -/
def unprecode (p : Nat) : List Nat → List Nat
  | [] => []
  | q :: rest => (q + p) % 4 :: unprecode q rest

/-- The level of a symbol value: 2 v - 3 (12 R340). -/
def pamLevel (v : Nat) : Int := 2 * (v : Int) - 3

/-- The symbol value of a level. -/
def pamSymbol (x : Int) : Nat := ((x + 3) / 2).toNat

/-- A PAM4 rate: codes 0 to 2 (12 Table 12-1). -/
def isPam4 (rate : Nat) : Bool := decide (rate < 3)

/-- Levels of a run of bits that starts when the lane has acquired, where P(-1) is 0: CTRL.TXPRE precodes on PAM4 lanes alone, CTRL.TXINV
inverts. On NRZ lanes the low level is -1 and the high level +1. -/
def sendLevels (rate ctrl : Nat) (bits : List Bool) : List Int :=
  let l := if isPam4 rate then
      let g := graySymbols bits
      (if bitAt ctrl 0 then precode 0 g else g).map pamLevel
    else bits.map (fun b => if b then 1 else -1)
  if bitAt ctrl 2 then l.map (fun x => -x) else l

/-- The bits that a receiver recovers from levels, by CTRL.RXPRE and RXINV. -/
def recoverBits (rate ctrl : Nat) (levels : List Int) : List Bool :=
  let l := if bitAt ctrl 3 then levels.map (fun x => -x) else levels
  if isPam4 rate then
    let g := l.map pamSymbol
    ((if bitAt ctrl 1 then unprecode 0 g else g).map grayPair).flatten
  else l.map (fun x => decide (0 < x))

/-- The lane is squelched (12 R348): quiet, in a port that holds a retired lane, or in no port and without a test of its own (12 R355). -/
def squelched (l : Nat) (d : Dev) : Bool :=
  laneQuiet l d || (!isHln l && (match lanePort l d with
    | some n => (portLanes (d.tab.getPrt n).cfg n).any (fun m => (d.getLane m).retired)
    | none => fld (d.getLane l).test 1 0 == 0 && fld (d.getLane l).test 4 3 == 0))

/-- The levels of lane `l`; a squelched lane sends no swing. -/
def laneLevels (l : Nat) (bits : List Bool) (d : Dev) : Option (List Int) :=
  if squelched l d then none else some (sendLevels (laneRate l d) (d.getLane l).ctrl bits)

/-! ### Test patterns and loopback (12 R355) -/

/-- The first `n` bits of a test pattern: PRBS31 from a state of its generator, PRBS13Q's bits, which the spec does not give (log entry 76), or
eight 1s and eight 0s by turns. -/
def patternBits (pattern state n : Nat) : List Bool :=
  match pattern with
  | 1 => let r := prbsRun n state 0; (List.range n).map (fun i => bitAt r.1 (n - 1 - i))
  | 2 => (List.range n).map (fun i => Config.prbs13 (state + i))
  | 3 => (List.range n).map (fun i => decide ((state + i) % 16 < 8))
  | _ => []

/-- The bits that a lane's transmitter takes: the receiver's recovered data in far-end loopback, the generator's pattern, or its port's bits. -/
def laneSource (l state : Nat) (bits recovered : List Bool) (d : Dev) : List Bool :=
  let t := (d.getLane l).test
  if fld t 4 3 = 2 then recovered else if fld t 1 0 ≠ 0 then patternBits (fld t 1 0) state bits.length else bits

/-- The levels that a lane's receiver gets: its own transmitter's in near-end loopback, else the line's. -/
def laneHears (l : Nat) (sent line : List Int) (d : Dev) : List Int := if fld (d.getLane l).test 4 3 = 1 then sent else line

/-- Bit errors that the checker counts over a run of received bits: those that differ from the pattern. -/
def checkerErrors (pattern state : Nat) (got : List Bool) : Nat :=
  ((got.zip (patternBits pattern state got.length)).filter (fun x => x.1 != x.2)).length

end Sys2Proof.Machine
end

