-- ==== Sys2Proof/Machine/Package.lean ====
section
/-! DEFINITION. The package's balls and the IDCODE of the TAP (17 R463, R473 to R475, Tables 17-10 and 17-11). -/

namespace Sys2Proof.Machine

/-! ### Names (17 R473) -/

/-- The nineteen row letters. -/
def rowLetters : List Char := ['A', 'B', 'C', 'D', 'E', 'F', 'G', 'H', 'J', 'K', 'L', 'M', 'N', 'P', 'T', 'U', 'V', 'W', 'Y']

/-- letters(row), for rows 1 to 84. -/
def letters (row : Nat) : List Char :=
  let l := fun (i : Nat) => rowLetters.getD (i - 1) 'A'
  if row ≤ 19 then [l row]
  else if row ≤ 38 then ['A', l (row - 19)]
  else if row ≤ 57 then ['B', l (row - 38)]
  else if row ≤ 76 then ['C', l (row - 57)]
  else ['D', l (row - 76)]

/-- A position of the grid that holds a ball: the four corners of 6 by 6 hold none. -/
def hasBall (row col : Nat) : Bool :=
  let edge := fun (x : Nat) => decide (x ≤ 6) || decide (79 ≤ x)
  decide (1 ≤ row) && decide (row ≤ 84) && decide (1 ≤ col) && decide (col ≤ 84) && !(edge row && edge col)

/-! ### Functions (17 R474, R475) -/

/-- The rails (17 Table 17-1) but VREC and VSS, by row order. -/
inductive Rail where
  | core | sram | laneA | laneH | pcie | ddr | io | vrec
  deriving DecidableEq, Repr

/-- The pins of a lane. -/
inductive LanePin where
  | txp | txn | rxp | rxn
  deriving DecidableEq, Repr

/-- The references that have balls. -/
inductive RefClk where
  | clear | cipher | holpen | system | pcie
  deriving DecidableEq, Repr

/-- The signals of a DDR5 sub-channel and of its channel (17 R475). -/
inductive DdrPin where
  | dq (i : Nat) | dqsT (j : Nat) | dqsC (j : Nat) | ca (i : Nat) | par | cs0 | cs1 | ckT | ckC | alert | resetN | spdScl | spdSda
  deriving DecidableEq, Repr

/-- The low-speed pins (17 Tables 17-5 and 17-11). -/
inductive LowPin where
  | sysrst | tamper | pwrfail | thermtrip | ppsIn | todRxd | flClk | flCs | flDqs | flReset | flDq (i : Nat)
  | i3cScl (b : Nat) | i3cSda (b : Nat) | tck | tms | tdi | tdo | trst | perst | rsvd
  deriving DecidableEq, Repr

/-- What a ball carries. -/
inductive Ball where
  | vss
  | rail (r : Rail)
  /-- Line lane CL(n) for n below 32, else KL(n - 32). -/
  | line (n : Nat) (pin : LanePin)
  | holpen (h : Nat) (pin : LanePin)
  | pcie (i : Nat) (pin : LanePin)
  | ref (c : RefClk) (negative : Bool)
  /-- Channel, sub-channel B, pin. -/
  | ddr (ch : Nat) (b : Bool) (pin : DdrPin)
  | low (p : LowPin)
  deriving DecidableEq, Repr

/-- A band of line lanes, `c` counted from the package's edge. -/
def bandBall (base row c : Nat) (clk : RefClk) (aCols : List Nat) : Ball :=
  let pins := [(2, LanePin.txp), (3, .txn), (6, .rxp), (7, .rxn)]
  if aCols.contains c then .rail .laneA
  else if c = 12 then .rail .laneH
  else if row = 76 && c = 2 then .ref clk false
  else if row = 76 && c = 3 then .ref clk true
  else if 10 ≤ row && row ≤ 72 && row % 2 = 0 then
    match pins.find? (fun x => x.1 == c) with
    | some x => .line (base + (row - 10) / 2) x.2
    | none => .vss
  else .vss

/-- Row 1 (17 Table 17-11). -/
def rowOneBall (col : Nat) : Ball :=
  let l : List (Nat × Ball) :=
    [(8, .ref .system false), (9, .ref .system true), (11, .low .sysrst), (12, .low .tamper), (13, .low .pwrfail), (14, .low .thermtrip),
     (15, .low .ppsIn), (16, .low .todRxd), (27, .low .flClk), (28, .low .flCs), (29, .low .flDqs), (30, .low .flReset),
     (40, .low (.i3cScl 0)), (41, .low (.i3cSda 0)), (42, .low (.i3cScl 1)), (43, .low (.i3cSda 1)),
     (45, .low .tck), (46, .low .tms), (47, .low .tdi), (48, .low .tdo), (49, .low .trst)]
  if 18 ≤ col && col ≤ 25 then .rail .vrec
  else if 31 ≤ col && col ≤ 38 then .low (.flDq (col - 31))
  else if 51 ≤ col && col ≤ 62 then .rail .io
  else if 64 ≤ col && col ≤ 75 then .low .rsvd
  else ((l.find? (fun x => x.1 == col)).map (fun x => x.2)).getD .vss

/-- Four lane pins of a row pair: outputs in one row, inputs in the other, at columns 10 + 4 i and 11 + 4 i. -/
def rowLane (f : Nat → LanePin → Ball) (out : Bool) (col : Nat) : Ball :=
  if 10 ≤ col && col ≤ 71 && (col - 10) % 4 ≤ 1 then
    f ((col - 10) / 4) (if (col - 10) % 4 = 0 then (if out then .txp else .rxp) else (if out then .txn else .rxn))
  else .vss

/-- The top band, rows 1 to 6. -/
def topBall (row col : Nat) : Ball :=
  if row = 1 then rowOneBall col
  else if row = 3 then .rail .pcie
  else if row = 2 && col = 74 then .ref .pcie false
  else if row = 2 && col = 75 then .ref .pcie true
  else if row = 2 && col = 77 then .low .perst
  else if row = 2 || row = 5 then rowLane .pcie (row == 2) col
  else .vss

/-- The bottom band, rows 79 to 84. -/
def bottomBall (row col : Nat) : Ball :=
  if row = 81 then .rail .laneA
  else if row = 84 then .rail .laneH
  else if row = 83 && col = 74 then .ref .holpen false
  else if row = 83 && col = 75 then .ref .holpen true
  else if row = 83 || row = 80 then rowLane .holpen (row == 83) col
  else .vss

/-- A DDR5 channel's region; `r` and `c` are counted from its first row and column (17 R475). -/
def ddrBall (ch r c : Nat) : Ball :=
  if c = 10 && r < 30 then .rail .ddr
  else if r < 30 then
    let b := decide (6 ≤ c)
    let x := if b then c - 6 else c - 1
    let j := r / 3
    if c = 0 || x ≥ 3 || r % 3 = 2 || (b && c ≥ 9) then .vss
    else if r % 3 = 0 then .ddr ch b (if x = 0 then .dq (4 * j) else if x = 1 then .dq (4 * j + 1) else .dqsT j)
    else .ddr ch b (if x = 0 then .dq (4 * j + 2) else if x = 1 then .dq (4 * j + 3) else .dqsC j)
  else
    let pin := fun (l : List DdrPin) => if 1 ≤ c then (l.map some).getD (c - 1) none else none
    let o : Option (Bool × DdrPin) :=
      if r = 30 || r = 32 then (pin ((List.range 7).map .ca)).map (fun x => (r == 32, x))
      else if r = 31 || r = 33 then (pin [.par, .cs0, .cs1, .ckT, .ckC, .alert]).map (fun x => (r == 33, x))
      else if r = 34 then (pin [.resetN, .spdScl, .spdSda]).map (fun x => (false, x)) else none
    match o with | some x => .ddr ch x.1 x.2 | none => .vss

/-- What the ball at a row and a column carries (17 Table 17-10); none in a corner. -/
def ball (row col : Nat) : Option Ball :=
  if !hasBall row col then none
  else some (
    if row ≤ 6 then topBall row col
    else if 79 ≤ row then bottomBall row col
    else if col ≤ 12 then bandBall 0 row col .clear [10, 11]
    else if 73 ≤ col then bandBall 32 row (85 - col) .cipher [10, 11]
    else if col ≤ 24 then (if row ≤ 42 then ddrBall 0 (row - 7) (col - 13) else ddrBall 1 (row - 43) (col - 13))
    else if 61 ≤ col then (if row ≤ 42 then ddrBall 2 (row - 7) (col - 61) else ddrBall 3 (row - 43) (col - 61))
    else if (row + col) % 2 = 0 then .vss
    else .rail (if col ≤ 30 || 55 ≤ col then .sram else .core))

/-! ### The TAP (17 R463) -/

/-- IDCODE's fields that the spec gives: part number in bits [27:12], silicon revision in bits [31:28]; bit 0 is 1 and bits [11:1] are the
manufacturer's, as IEEE 1149.1 has them (log entry 65). -/
def idcode : Nat :=
  1 + (0x6400 * 2 ^ 12 + (2 ^ 28 * (match Config.revision with | .a0 => 0 | .a1 => 1 | .b0 => 2) + 2 * (Config.jtagMaker % 2048)))

end Sys2Proof.Machine
end

