-- ==== Sys2Proof/Machine/Locks.lean ====
section
/-! DEFINITION. The configuration that few commands write, and its legal values: the cold range, the protected region's size and
locks, MEM_SCRUB, TCK_CFG and SCE_LEASE. -/

namespace Sys2Proof.Machine

/-- SAS_COLDBASE, SAS_COLDCFG, MEC_CFG, MEC_STATUS.READY, MEM_SCRUB, TCK_CFG and SCE_LEASE. -/
structure Locks where
  coldLock : Bool
  coldBase : Nat
  coldSize : Nat
  psize : Nat
  lock : Bool
  ready : Bool
  scrub : Nat
  tckCfg : Nat
  lease : Nat
  deriving DecidableEq, Repr

/-- That configuration of a device. -/
def Dev.locks (d : Dev) : Locks :=
  ⟨d.sas.coldLock, d.sas.coldBase, d.sas.coldSize, d.mem.psize, d.mem.lock, d.mem.ready, d.mem.scrub, d.tck.cfg, d.keys.sceLease⟩

/-- The legal values: PSIZE 1 to 64, READY only under LOCK (11 R325); a locked cold range lies in the protected region, whose size
its LOCK has fixed (05 R157, 11 R325); SAS_COLDBASE is a multiple of 4,096; the ranges of MEM_SCRUB and TCK_CFG;
the field widths of SCE_LEASE (07 Table 07-20). -/
def Locks.Ok (l : Locks) : Prop :=
  1 ≤ l.psize ∧ l.psize ≤ 64 ∧ (l.ready = true → l.lock = true) ∧ l.coldBase % 4096 = 0 ∧
  (l.coldLock = true → l.lock = true ∧ l.coldBase + 262144 * Nat.min 1024 l.coldSize ≤ l.psize * gib) ∧
  1 ≤ l.scrub ∧ l.scrub ≤ 168 ∧ 10 ≤ fld l.tckCfg 13 0 ∧ fld l.tckCfg 13 0 ≤ 10000 ∧ 1 ≤ fld l.tckCfg 19 16 ∧ fld l.tckCfg 19 16 ≤ 10 ∧
  l.lease < 2 ^ 24

end Sys2Proof.Machine
end

