-- ==== Sys2Proof/Safety.lean ====
section
/-! DEFINITION. What counts as a safe step of the block, and the words the statements use: a powered device, a command that runs. -/

namespace Sys2Proof

/-- A step neither faults nor is refused. -/
def SafeStep (s : Machine.State) : Prop := ∃ t, Machine.step s = .next t

/-- Every step of a run of `n` steps answers a next state. -/
def SafeRun : Nat → Machine.State → Prop
  | 0, _ => True
  | n + 1, s => ∃ t, Machine.step s = .next t ∧ SafeRun n t

namespace Machine

/-- A power failure has not stopped the device (15 R427). -/
abbrev Powered (s : State) : Prop := s.dev.pins.stopped = false

/-- Command `i` at `s` ANSWERS A NEXT STATE: the queue of `s`, and the device `d`. Every part of the device that the expression `d`
does not name is therefore as it was. -/
def Runs (i : Instr) (s : State) (d : Dev) : Prop := exec i s = .next { s with dev := d }

/-- The legal configuration (Locks.Ok) of a state. -/
def Inv (s : State) : Prop := s.dev.locks.Ok

/-! ### Glonik cores -/

/-- Supervisor code may reach every address; task code reaches `n` bytes at `addr` through one region that holds them and grants every right
of `rights` (10 R286): right 0 read, 1 write. -/
def MayAccess (k : Core) (addr n : Nat) (rights : List Nat) : Prop :=
  k.super = true ∨ ∃ i : Nat, i < 8 ∧ (Tab.get 0 k.trBase i).toNat / 4096 * 4096 ≤ addr ∧ addr + n ≤ (Tab.get 0 k.trLim i).toNat / 4096 * 4096 ∧
    ∀ r ∈ rights, (Tab.get 0 k.trLim i).getLsbD r = true

/-- Task code has the grant of TASKCAP bit `b` (10 R285). -/
def Granted (k : Core) (b : Nat) : Prop := k.super = true ∨ k.taskCap.getLsbD b = true

/-- Core `c` executes an instruction: it runs, and the word at its program counter can be fetched (10 R276, R286). -/
abbrev Ready (c : Nat) (s : State) : Prop :=
  Powered s ∧ c < 64 ∧ (s.dev.getCore c).run = .running ∧ fetchFault c (s.dev.getCore c).pc.toNat s.dev = none

/-- Nothing but core `c` differs. -/
def OnlyCore (c : Nat) (d d' : Dev) : Prop := d' = { d with core := d'.core } ∧ ∀ x, x ≠ c → d'.getCore x = d.getCore x

/-- Nothing of a core differs but its general registers, its program counter, and what the event counters and the sampling keep of a
retired instruction (10 R306, R307): of EVPEND bit 8 alone. -/
def Core.keeps (k k' : Core) : Prop :=
  k' = { k with
    regs := k'.regs, pc := k'.pc, pcnt := k'.pcnt, pcSel := k'.pcSel, evPend := k'.evPend, smpCount := k'.smpCount, smpHit := k'.smpHit
    lastPc := k'.lastPc, lastInsn := k'.lastInsn, lastAddr := k'.lastAddr, lastSrc := k'.lastSrc, lastCycle := k'.lastCycle
    lastFlags := k'.lastFlags }
  ∧ k'.evPend ||| 256 = k.evPend ||| 256

/-- Register `rd` of core `c` has taken `v`, unless it is g0; every other general register is as it was (10 R275). -/
def RegsAfter (c rd : Nat) (v : DWord) (d d' : Dev) : Prop :=
  ∀ r : Nat, (d'.getCore c).reg r = if r % 32 = rd % 32 ∧ rd % 32 ≠ 0 then v else (d.getCore c).reg r

/-- Instruction `i` of core `c` completes on the device `d1` that its effect left: rd takes `v` and control goes to `pc`. -/
def Completes (i : Instr) (c rd : Nat) (v : DWord) (pc : BitVec 32) (s : State) (d1 : Dev) : Prop :=
  ∃ d, Runs i s d ∧ OnlyCore c d1 d ∧ Core.keeps (d1.getCore c) (d.getCore c) ∧ RegsAfter c rd v d1 d ∧ (d.getCore c).pc = pc

/-- Instruction `i` of core `c` raises an exception on the device `d1`: the state is saved, supervisor level entered, and control goes
to the vector (10 R287). -/
def Traps (i : Instr) (c cause : Nat) (epc eval : DWord) (s : State) (d1 : Dev) : Prop :=
  ∃ d, Runs i s d ∧ OnlyCore c d1 d ∧ RegsAfter c 0 0 d1 d ∧
    (d.getCore c).estatus = (d1.getCore c).status ∧ (d.getCore c).epc = epc ∧ (d.getCore c).ecause = BitVec.ofNat 64 cause ∧
    (d.getCore c).eval = eval ∧ (d.getCore c).status = 3 ∧
    (d.getCore c).pc = BitVec.ofNat 32 ((d1.getCore c).evbase.toNat + 64 * cause) ∧ (d.getCore c).sram = (d1.getCore c).sram ∧
    (d.getCore c).evbase = (d1.getCore c).evbase ∧ (d.getCore c).handles = (d1.getCore c).handles ∧ (d.getCore c).mailbox = (d1.getCore c).mailbox

end Machine

end Sys2Proof
end

