-- ==== Sys2Proof/Certificates/Slice0/Obligations.lean ====
section
/-! DEFINITION. The statements for the provers. -/

open Sys2Proof Sys2Proof.Machine

/-! ### Frames (chapters 01 and 02) -/

/-- FRAME_DELINEATED, FRAME_PASSED: an enabled Frame-mode port gives a delineated frame its next index; a frame that its port holds is
charged to the tack hold; a configured port that is disabled, or in Slot mode, counts the codewords and nothing else, and a port whose lines
are off or that has no configuration does nothing. The oldest waiting frame below the horizon is admitted under its view, goes to the clear
or the cipher path, and leaves the tack hold; from its view on, a pending disable passes it on nowhere (01 R15, 02 R35, 08 R215, R216, R223).
MODEL'S CHOICE (log entry 26, DEDUCED): MAXLEN is judged in the frame's own view, and a frame too long for it takes no tack-hold cell. -/
def Obligations.FrameArrival : Prop :=
  ∀ s : State, Powered s → ∀ p : Nat,
    (∀ (bytes : Bytes) (x : FrameEnd),
      (linesOff s.dev = true ∨ cfgSize (s.dev.tab.getPrt p).cfg = 0 → Runs (.frameDelineated p bytes x) s s.dev) ∧
      (linesOff s.dev = false → cfgSize (s.dev.tab.getPrt p).cfg ≠ 0 →
        (portEnabled s.dev p = false ∨ slotPort s.dev.tab p = true → Runs (.frameDelineated p bytes x) s (fecCount p x.fec s.dev)) ∧
        (portEnabled s.dev p = true → slotPort s.dev.tab p = false →
          let f : RxFrame := ⟨(s.dev.getTck p).nextIdx, bytes, x.ok, []⟩
          let d := (fecCount p x.fec s.dev).updTck p (fun t => { t with nextIdx := t.nextIdx + 1, rx := t.rx ++ [f] })
          (frameLong p f d = true ∨ frameHeld p f.idx d = false → Runs (.frameDelineated p bytes x) s d) ∧
          (frameLong p f d = false → frameHeld p f.idx d = true →
            Runs (.frameDelineated p bytes x) s (settlePort p (chargeFrame p f d)))))) ∧
    ((s.dev.getTck p).rx = [] ∨ portEnabled s.dev p = false → Runs (.framePassed p) s s.dev) ∧
    (∀ (f : RxFrame) (rest : List RxFrame), (s.dev.getTck p).rx = f :: rest → portEnabled s.dev p = true →
      (frameHeld p f.idx s.dev = true → Runs (.framePassed p) s s.dev) ∧
      (frameHeld p f.idx s.dev = false →
        let v := viewTack p f.idx s.dev
        let d := s.dev.updTck p (fun x => { x with rx := rest, admitted := f.idx + 1, got := x.got + 1 })
        ((s.dev.getTck p).disableTack = none ∨ (∃ k, (s.dev.getTck p).disableTack = some k ∧ v < k) →
          Runs (.framePassed p) s (settlePort p (leaveHold p f
            (if isCipher p = true then passCipher (tabAt v s.dev) v p f d else passClear (tabAt v s.dev) v p f d)))) ∧
        (∀ k : Nat, (s.dev.getTck p).disableTack = some k → k ≤ v →
          Runs (.framePassed p) s (settlePort p (leaveHold p f d)))))

/-- TRANSMIT_QUEUE_DEQUEUE: the queue's head takes its SA's next PN, is protected as 802.1AE lays it out, counts its octets and waits
for its ICV to leave; its disposition names the SA and the PN (02 R30 to R32, R41, R42, R53, 01 R16). -/
def Obligations.FrameProtect : Prop :=
  ∀ s : State, Powered s → ∀ (p sl : Nat) (j : TxJob) (slot an pn : Nat) (d : Dev),
    (s.dev.getPort p).egress.length ≤ 1 → nextJob p s.dev = some (sl, j) → portFenced s.dev j.src = false →
    let t := tabAt j.view s.dev
    (t.getPrt p).gateOn = true → portDead (popJob sl j s.dev) p = false → slotPort t p = false →
    s.dev.twn.chFence = [] → takePn j.chid j.view j.idx (popJob sl j s.dev) = (some (slot, an, pn), d) → j.fcsOk = true →
    let c := t.getChn j.chid
    let b := protectFrame c (d.tab.getSa slot) j.bytes an pn
    b.length + 4 ≤ (t.getPrt p).maxFrame →
    let n := j.bytes.length - 12
    let d := prfCount 4 (some sl) 1 d
    let d := if c.pcode = 3 then saCount slot 2 n (saCount slot 0 1 d) else saCount slot 3 n (saCount slot 1 1 d)
    let d := d.updPort p (fun x => { x with egress := x.egress ++ [⟨slot, j.chid, pn, b, false, j.src, j.idx, false, false, j.cells⟩] })
    Runs (.transmitQueueDequeue p) s
      (pruneViews (dispose j.src j.idx j.bytes true { out := 0, code := j.rule, chid := j.chid, an := an, slot := slot, pnfc := pn } d))

/-- ICV_EMITTED, ICV_VERIFIED, RECEIVE_EGRESS_SEND, INTERIM_DIGEST in every form. The head of the egress stage is sent, ended with an error
where its FCS, its length or a cell is bad, or replaced by idle where its port is disabled or fenced, and its reference and its cells end.
The oldest held frame is discarded on a fallow port, fails at a wrong tag or a bad cell, is refused as a replay, or passes: its window is
marked, it is counted, learnt from, and released to its clear port. A released frame, verified or bypassed, frees its own cells and is
sent, or idle is sent in its place where the port is disabled or fallow, sends no received traffic, is fenced, or a cell is bad. A twin
of a formed pair sends the digest of the open batch of each of its streams (02 R48, R49, R55, R62, R63, 01 R16, 09 R238, R244, R247, 15 R422).
MODEL'S CHOICE (log entry 53): the received slot frames are the second stream. -/
def Obligations.FrameRelease : Prop :=
  ∀ s : State, Powered s → ∀ p : Nat,
    ((s.dev.getPort p).egress = [] → Runs (.icvEmitted p) s s.dev) ∧
    (∀ (f : EgFrame) (rest : List EgFrame), (s.dev.getPort p).egress = f :: rest →
      let d := s.dev.updPort p (fun x => { x with egress := rest })
      let d := when_ f.fcsErr (portCount f.clearPort 5) d
      let d := when_ f.tooLong (saCount f.slot 5 1) d
      let ends := fun d => freeStage (0x40 + chSlice f.chid) f.cells (relRef f.slot d)
      (portEnabled d p = false → Runs (.icvEmitted p) s (ends (idleEmit p d))) ∧
      (portEnabled d p = true → portFenced d p = true → Runs (.icvEmitted p) s (ends (lineEmit p (.idle p) (fenceDrop p d)))) ∧
      (portEnabled d p = true → portFenced d p = false →
        Runs (.icvEmitted p) s (ends (lineEmit p (.frame p f.bytes (!f.err && !badCells f.cells d)) d)))) ∧
    ((s.dev.getPort p).hold = [] → Runs (.icvVerified p) s s.dev) ∧
    (∀ (h : HoldFrame) (rest : List HoldFrame), (s.dev.getPort p).hold = h :: rest →
      let t := tabAt h.view s.dev
      let sa := t.getSa h.slot
      let sl := chSlice h.chid
      let d := s.dev.updPort p (fun x => { x with hold := rest })
      (portDead d p = true → Runs (.icvVerified p) s (pruneViews (holdFail p h 0 d))) ∧
      (portDead d p = false → (h.tagOk = false ∨ badCells h.cells d = true) → Runs (.icvVerified p) s
        (pruneViews (holdFail p h (saCode 1) (errBlock (t.getChn h.chid).src (saCount h.slot 1 1 d))))) ∧
      let win := winOf h.slot sa
      let w := match win with | some i => d.getWin i | none => {}
      (portDead d p = false → h.tagOk = true → badCells h.cells d = false →
        (w.check h.pn ≠ .pass → Runs (.icvVerified p) s (pruneViews (holdFail p h
          (saCode (if w.check h.pn = .dup && (t.getChn h.chid).mgrp != 0 then 3 else 2)) (countReplay t h.slot h.chid (w.check h.pn) d)))) ∧
        (w.check h.pn = .pass →
          let dst := (t.getChn h.chid).dst
          let d := match win with | some i => d.updWin i (fun x => x.mark h.pn) | none => d
          let d := saCount h.slot (if h.enc then 5 else 4) h.octets (saCount h.slot 0 1 (relRef h.slot d))
          let d := formLearn t p h (prfCount 5 (some sl) 1 d)
          let acc := fun out d => pruneViews (dispose p h.idx h.bytes true { out := out, chid := h.chid, an := sa.an, slot := h.slot, pnfc := h.pn } d)
          let free := fun d => freeStage (0x48 + sl) h.cells d
          let m := moveCells (0x48 + sl) (0x50 + sl) h.cells d
          (portFenced d p = true ∨ d.twn.chFence.contains h.chid = true → Runs (.icvVerified p) s (acc 4 (fenceDrop p (free d)))) ∧
          (portFenced d p = false → d.twn.chFence.contains h.chid = false →
            (portEnabled d dst = false ∨ portDead d dst = true → Runs (.icvVerified p) s (acc 0 (free d))) ∧
            (portEnabled d dst = true → portDead d dst = false →
              (m.1 = true → Runs (.icvVerified p) s (acc 0 (m.2.updPort dst
                (fun x => { x with rel := x.rel ++ [⟨p, h.idx, some h.chid, h.slot, clearFrame h, true, h.cells⟩] })))) ∧
              (m.1 = false → Runs (.icvVerified p) s
                (pruneViews (dispose p h.idx h.bytes true { out := 3, code := 0x570 } (portCount dst 14 (free m.2)))))))))) ∧
    ((s.dev.getPort p).rel = [] → Runs (.receiveEgressSend p) s s.dev) ∧
    (∀ (f : RelFrame) (rest : List RelFrame), (s.dev.getPort p).rel = f :: rest →
      let d0 := s.dev.updPort p (fun x => { x with rel := rest })
      let d := match f.chid with | some c => freeStage (0x50 + chSlice c) f.cells d0 | none => d0
      (portEnabled d p = false ∨ portDead d p = true → Runs (.receiveEgressSend p) s (idleEmit p d)) ∧
      (portEnabled d p = true → portDead d p = false →
        (suppressed p d = true → Runs (.receiveEgressSend p) s
          (lineEmit p (.idle p) (d.updTwn p (fun t => { t with suppress := sat64 (t.suppress + 1) })))) ∧
        (suppressed p d = false →
          (portFenced d p = true → Runs (.receiveEgressSend p) s (lineEmit p (.idle p) (fenceDrop p d))) ∧
          (portFenced d p = false →
            (badCells f.cells d0 = true → Runs (.receiveEgressSend p) s (lineEmit p (.idle p) (errBlock f.src (saCount f.slot 1 1 d)))) ∧
            (badCells f.cells d0 = false → Runs (.receiveEgressSend p) s (lineEmit p (.frame p f.bytes f.fcsOk) d)))))) ∧
    (isTwin s.dev = false ∨ s.dev.twn.pair ≠ 1 → Runs (.interimDigest p) s s.dev) ∧
    (isTwin s.dev = true → s.dev.twn.pair = 1 →
      let first := (s.dev.getTck p).admitted / 256 * 256
      let l := twnPrefix (s.dev.getTwn p) first ((s.dev.getTck p).admitted - first)
      Runs (.interimDigest p) s (interimOf p (streamEnd p rxStream s.dev) (interimOf p (s.dev.getTck p).admitted s.dev)) ∧
      (streamEnd p rxStream s.dev = 0 →
        (l = [] → Runs (.interimDigest p) s s.dev) ∧ (l ≠ [] → Runs (.interimDigest p) s (sendDigest p first l s.dev))))

/-! ### Tacks and the gate (chapter 08) -/

/-- TACK_FORM, BEAT_FORM, RECORD_APPLY, WAKE_SEND: a running source forms the next TACK record from its ports and the queued commands
that can be placed, a BEAT that raises every ACTIVE port, and a WAKE for a frozen port that holds a frame or is a Slot-mode port whose next frame is due; the shadow applies its oldest
received record (08 R218, R219, R220, R222, R226, 09 R235). FREEZE_REPORT_RECEIVED, FREEZE_REPORT_MISSING, FREEZE_SEAL_TIMEOUT: the
source seals a freezing port at the higher of the two counts; a report that is missing is recorded; after the timeout the lead seals with
its own report (08 R221, 09 R253). GATE_SUBMIT: the refusals in the order of the gate's rows, each with its one completion and nothing
queued; a submission that none refuses waits at the end of the gate's queue (08 R226, 09 R251). The model's choice (log entry 28): a command that waits lets later
ones pass, a LATE completion carries TACK 0, a too-long frame wakes no port. -/
def Obligations.TackGate : Prop :=
  (∀ s : State, Powered s →
     (sourceOn s.dev = true →
       (let w := placeGate (s.dev.tck.tno + 1) s.dev
        let d := each w.late (fun e d => completeX e.sub stLATE engGate true false 0 [] d) { s.dev with tck := { s.dev.tck with gate := w.waits } }
        Runs .tackForm s (formRec 0 ((enabledPorts d).map (tackEntry d)) w.placed
         (each (enabledPorts d) (fun p d => d.updTck p (fun t => { t with got := 0 })) d))) ∧
       Runs .beatForm s (formRec 1 (((enabledPorts s.dev).filter (fun p => (s.dev.getTck p).pstate == .active)).map
         (fun p => ⟨p, 2, (s.dev.getTck p).admitted + marginNow p s.dev⟩)) [] s.dev) ∧
       (∀ p : Nat, portEnabled s.dev p = true → (s.dev.getTck p).pstate = .frozen →
         (slotNow p s.dev = true ∨ ∃ f ∈ (s.dev.getTck p).rx, frameLong p f s.dev = false ∧ (s.dev.getTck p).horizon ≤ f.idx) →
         Runs (.wakeSend p) s (formRec 1 [⟨p, 6, (s.dev.getTck p).freezeAt + marginNow p s.dev⟩] [] s.dev))) ∧
     (∀ (r : TackRec) (rest : List TackRec), s.dev.tck.recq = r :: rest → s.dev.mod.mode = .shadow →
       Runs .recordApply s (applyRec r { s.dev with tck := { s.dev.tck with recq := rest } }))) ∧
  (∀ s : State, Powered s → ∀ p z own : Nat, freezingHere p s.dev = true → (s.dev.getTck p).ownReport = some own →
     Runs (.freezeReportReceived p z false) s
       (formRec 1 [⟨p, 5, Nat.max own z⟩] [] (s.dev.updTck p (fun t => { t with peerReport := some z }))) ∧
     (needsPeer s.dev = true → (s.dev.getTck p).peerReport = none →
       Runs (.freezeReportMissing p) s (event 0x0802 2 (be 1 p ++ be 6 (s.dev.getTck p).freezeRseq) s.dev) ∧
       Runs (.freezeSealTimeout p) s (formRec 1 [⟨p, 5, own⟩] [] s.dev))) ∧
  (∀ s : State, Powered s → ∀ (b : Sub) (x : Desc),
     let bad := !gateCodes.contains x.code || (x.shadowOnly && (!shadowCodes.contains x.code || s.dev.twn.pair != 1))
     (bad = true → Runs (.gateSubmit b x) s (completeX b stBAD_COMMAND engGate true false 0 [] s.dev)) ∧
     (bad = false → gateClosed s.dev = true → Runs (.gateSubmit b x) s (completeX b stBAD_MODE engGate true false 0 [] s.dev)) ∧
     (bad = false → gateClosed s.dev = false → 4096 ≤ s.dev.tck.gate.length →
       Runs (.gateSubmit b x) s (completeX b stBUSY engGate true false 0 [] s.dev)) ∧
     (bad = false → gateClosed s.dev = false → s.dev.tck.gate.length < 4096 →
       Runs (.gateSubmit b x) s { s.dev with tck := { s.dev.tck with gate := s.dev.tck.gate ++ [⟨b, x⟩] } }))

/-! ### SA slots, channels and windows (chapter 05) -/

/-- SA_STAGE, SA_STAGEPIN, STAGE_FILL_COMPLETE, SA_UNSTAGE, COLD_ERASE: staging. A ticket is consumed and the buffer fills with the
image, whose absent limits take their defaults; a PARKED entry becomes STAGED and the buffer fills from it; a fill ends READY; an
unstaged buffer is EMPTY; an erased entry is EMPTY (05 R140, R142, R151, R158). Every access to a cold entry opens its sector first; where that fails, the entry
reads as FAULT and a slot pinned to it stops (05 R159, 11 R332). SA_LOAD: the refusals in the order of the table, each its
one completion with nothing changed; otherwise the slot takes the staged image, pinned from a cold entry or not, the buffer empties and a
soft limit already passed is reported (05 R141, R156, R158). SA_PARK, PARK_WRITEBACK_COMPLETE: a detached BASTING slot is PARKING, into an EMPTY
entry or into the one PINNED to it, and any other entry is IN_USE; when the write-back completes its entry is PARKED with the slot's values and
the slot is FREE (05 R143, R158). The model's choice (log entry 44): COLD_ERASE of an entry in a doubtful subtree answers COLD_FAULT, SA_LOAD from
one answers OK and the slot stops, and SA_PARK into one answers COLD_FAULT. -/
def Obligations.SaLoading : Prop :=
  (∀ s : State, Powered s → ∀ (b : Sub) (buf : Nat),
     (∀ (ticket : Nat) (image : Bytes) (t : Ticket), (s.dev.getStage buf).state = 0 →
       s.dev.keys.tickets.find? (fun t => t.handle == ticket) = some t →
       let dir := fld (byteAt image 0) 0 0
       let suite := fld (byteAt image 0) 5 4
       let next := leAt image 24 8
       let lim := stagedLimits dir suite (leAt image 32 8) (leAt image 40 8)
       (dir = 0 → t.fresh = true) → t.key.length = suiteKeyLen suite → badStagedLimits dir suite next lim.1 lim.2 = false →
       Runs (.saStage b buf ticket image) s
         (({ s.dev with keys := { s.dev.keys with tickets := s.dev.keys.tickets.filter (fun t => t.handle != ticket) } } : Dev).setStage buf
           { state := 1, src := 0, sub := some b,
             image := { state := .basting, dir := dir, suite := suite, ssci := leAt image 4 4, salt := leAt image 8 12, key := t.key },
             live := { nextPn := next, softPn := lim.1, hardPn := lim.2 } })) ∧
     (∀ (cold : Nat) (o : Dev), (s.dev.getStage buf).state = 0 → coldHas cold s.dev = true → (s.dev.getCold cold).state = 1 →
       coldOpen cold s.dev = (true, o) →
       let e := s.dev.getCold cold
       Runs (.saStagepin b buf cold) s
         ((o.updCold cold (fun e => { e with state := 2, stage := buf })).setStage buf
           { state := 1, src := 1, sub := some b,
             image := { state := .basting, dir := e.dir, suite := e.suite, ssci := e.ssci, salt := e.salt, key := e.key, coldIdx := some cold },
             live := { nextPn := e.nextPn, softPn := e.softPn, hardPn := e.hardPn, ctr := e.ctr } })) ∧
     ((s.dev.getStage buf).state = 1 → (s.dev.getStage buf).src = 0 → (s.dev.getStage buf).sub = some b →
       Runs (.stageFillComplete buf false) s
         (complete b 3 stOK [] (s.dev.setStage buf { s.dev.getStage buf with state := 2, sub := none }))) ∧
     Runs (.saUnstage b buf) s (complete b 3 stOK [] (clearStage buf s.dev)) ∧
     (∀ (cold : Nat) (o : Dev), coldHas cold s.dev = true → (s.dev.getCold cold).state = 1 ∨ (s.dev.getCold cold).state = 4 →
       (coldOpen cold s.dev = (true, o) → Runs (.coldErase b cold) s (complete b 3 stOK [] (o.updCold cold (fun _ => {})))) ∧
       (coldOpen cold s.dev = (false, o) → Runs (.coldErase b cold) s (complete b 3 stCOLD_FAULT [] (coldFail cold o))))) ∧
  (∀ s : State, Powered s → ∀ (b : Sub) (slot buf : Nat), sliceDown s.dev (slotSlice slot) = false →
     let x := s.dev.getStage buf
     let free := (s.dev.tab.getSa slot).state == .free
     ((free = false → Runs (.saLoad b slot buf) s (gateDone b stIN_USE [] s.dev)) ∧
      (free = true → x.state ≠ 2 → Runs (.saLoad b slot buf) s (gateDone b stNOT_STAGED [] s.dev)) ∧
      (free = true → x.state = 2 → buf % 8 ≠ slotSlice slot → Runs (.saLoad b slot buf) s (gateDone b stBAD_SLOT [] s.dev)) ∧
      (free = true → x.state = 2 → buf % 8 = slotSlice slot → x.image.dir = 0 → x.image.ssci % 2 ≠ s.dev.tab.side →
         Runs (.saLoad b slot buf) s (gateDone b stBAD_SSCI [] s.dev))) ∧
     (free = true → x.state = 2 → buf % 8 = slotSlice slot → (x.image.dir = 0 → x.image.ssci % 2 = s.dev.tab.side) →
       let d := (s.dev.updTab (Tables.updSa slot (fun _ => { x.image with pinned := x.src == 1 }))).updLive slot (fun _ => x.live)
       (x.src = 0 → Runs (.saLoad b slot buf) s (gateDone b stOK [] (softCheck slot (d.setStage buf {})))) ∧
       (∀ (i : Nat) (o : Dev), x.src = 1 → x.image.coldIdx = some i →
         (coldOpen i d = (true, o) → Runs (.saLoad b slot buf) s
           (gateDone b stOK [] (softCheck slot ((o.updCold i (fun e => { e with state := 3, stage := 0, slot := slot })).setStage buf {})))) ∧
         (coldOpen i d = (false, o) → Runs (.saLoad b slot buf) s
           (gateDone b stOK [] (softCheck slot ((stopSlot_ slot (coldFail i o)).setStage buf {}))))))) ∧
  (∀ s : State, Powered s → ∀ (b : Sub) (slot cold : Nat) (o : Dev),
     (sliceDown s.dev (slotSlice slot) = false → (s.dev.tab.getSa slot).state = .basting → (s.dev.tab.getSa slot).att = false →
       coldHas cold s.dev = true →
       let e := s.dev.getCold cold
       (e.state = 0 ∨ (e.state = 3 ∧ e.slot = slot) →
         (coldOpen cold s.dev = (true, o) →
           let d := o.updTab (Tables.updSa slot (fun x => { x with state := .parking }))
           Runs (.saPark b slot cold) s { d with sas := { d.sas with parks := d.sas.parks ++ [(slot, cold, b, d.tck.tno)] } }) ∧
         (coldOpen cold s.dev = (false, o) → Runs (.saPark b slot cold) s (gateDone b stCOLD_FAULT [] (coldFail cold o)))) ∧
       (e.state ≠ 0 → (e.state = 3 → e.slot ≠ slot) → Runs (.saPark b slot cold) s (gateDone b stIN_USE [] s.dev))) ∧
     (∀ tack : Nat, s.dev.sas.parks.find? (fun k => k.1 == slot) = some (slot, cold, b, tack) →
       let sa := s.dev.tab.getSa slot
       let l := s.dev.getLive slot
       let d := { s.dev with sas := { s.dev.sas with parks := s.dev.sas.parks.filter (fun k => k.1 != slot) } }
       coldOpen cold d = (true, o) →
       Runs (.parkWritebackComplete slot) s (gateLate b tack stOK [] (freeSlot slot (o.updCold cold (fun _ =>
         { state := 1, nextPn := l.nextPn, softPn := l.softPn, hardPn := l.hardPn, ssci := sa.ssci, salt := sa.salt, dir := sa.dir,
           suite := sa.suite, key := sa.key, ctr := l.ctr }))))))

/-- WIN_CREATE, WIN_ERASE: the slots of a window block leave and re-enter FREE, and the window takes its channel's replay width (05
R138). SA_ATTACH: a BASTING SA is attached under its AN; a receive SA of a KIND 0 channel names a window of its slice, whose other SAs have
its AN, its merge group and its suite and whose MEMBERS rise by one, and one of another channel names none; a window named or left out where it
may not be is BAD_SLOT (05 R139, R143, 09 R241). SA_ACTIVATE: an attached receive SA becomes ACTIVE and initialises its window once, below its
lowest PN; one that stopped while it was BASTING drains at once (05 R139, R159). MODEL'S CHOICE (log entry 73): SA_ACTIVATE ends the fence that a
join left on its channel. -/
def Obligations.SaAttaching : Prop :=
  (∀ s : State, Powered s → ∀ (b : Sub) (w : Nat), sliceDown s.dev (slotSlice w) = false →
     (∀ chid : Nat, (∀ x ∈ winSlotsIn w, (s.dev.tab.getSa x).state = .free) → w % 16384 ≤ 16379 → isRc chid = true →
       (s.dev.tab.getChn chid).kind = 0 → chSlice chid = slotSlice w →
       Runs (.winCreate b w chid) s (gateDone b stOK []
         ((each (winSlots w) (fun x d => d.updTab (Tables.updSa x (fun _ => { state := .window, win := some (w % 16384) }))) s.dev).updWin w
           (fun _ => { w := (s.dev.tab.getChn chid).replayW })))) ∧
     (isHeader s.dev.tab w = true → (s.dev.getWin w).members = 0 →
       Runs (.winErase b w) s (gateDone b stOK []
         ((each (winSlots w) (fun x d => d.updTab (Tables.updSa x (fun _ => {}))) s.dev).updWin w (fun _ => {}))))) ∧
  (∀ s : State, Powered s → ∀ (b : Sub) (slot : Nat), sliceDown s.dev (slotSlice slot) = false →
     (s.dev.tab.getSa slot).state = .basting →
     (∀ chid an : Nat, (s.dev.tab.getSa slot).att = false → chSlice chid = slotSlice slot → anSlotOf s.dev.tab chid an = none →
       let sa := s.dev.tab.getSa slot
       let kind := (s.dev.tab.getChn chid).kind
       let joined := fun (win : Option Nat) => s.dev.updTab (fun t =>
         (t.updChn chid (fun c => { c with anSlot := Tab.set none c.anSlot an (some (slot % 16384)) })).updSa slot
           (fun x => { x with att := true, an := an, chid := chid, win := win.map (· % 16384) }))
       (sa.dir = 0 → isRc chid = false →
         ((2 ≤ sa.suite → kind = 0) → (kind = 0 → (s.dev.getLive slot).nextPn ≠ 0) →
           Runs (.saAttach b slot chid an none) s (gateDone b stOK [] (joined none))) ∧
         (∀ w : Nat, Runs (.saAttach b slot chid an (some w)) s (gateDone b stBAD_SLOT [] s.dev)) ∧
         (2 ≤ sa.suite → kind ≠ 0 → Runs (.saAttach b slot chid an none) s (gateDone b stBAD_SUITE [] s.dev)) ∧
         (kind = 0 → (s.dev.getLive slot).nextPn = 0 → Runs (.saAttach b slot chid an none) s (gateDone b stBAD_LIMIT [] s.dev))) ∧
       (sa.dir = 1 → isRc chid = true →
         (kind = 0 → Runs (.saAttach b slot chid an none) s (gateDone b stBAD_SLOT [] s.dev)) ∧
         (kind ≠ 0 → sa.suite < 2 → Runs (.saAttach b slot chid an none) s (gateDone b stOK [] (joined none))) ∧
         (∀ w : Nat, (kind ≠ 0 ∨ isHeader s.dev.tab w = false ∨ slotSlice w ≠ chSlice chid) →
           Runs (.saAttach b slot chid an (some w)) s (gateDone b stBAD_SLOT [] s.dev)) ∧
         (∀ w : Nat, kind = 0 → isHeader s.dev.tab w = true → slotSlice w = chSlice chid → (s.dev.getLive slot).nextPn ≠ 0 →
           (∀ e ∈ winNamers s.dev.tab w, e.2.an = an ∧ sameGroup s.dev.tab chid e.2.chid = true ∧ e.2.suite = sa.suite) →
           (∀ e ∈ s.dev.tab.sa, e.2.att = true → e.2.dir = 1 → e.2.an = an → e.2.chid ≠ chid → sameGroup s.dev.tab chid e.2.chid = true →
             winOf e.1 e.2 = none ∨ winOf e.1 e.2 = some w) →
           Runs (.saAttach b slot chid an (some w)) s
             (gateDone b stOK [] ((joined (some w)).updWin w (fun x => { x with members := x.members + 1 })))))) ∧
     ((s.dev.tab.getSa slot).att = true → (s.dev.tab.getSa slot).dir = 1 →
       let sa := s.dev.tab.getSa slot
       let up := s.dev.updTab (Tables.updSa slot (fun x => { x with state := .active }))
       let first := fun (w : Nat) => if (s.dev.getWin w).init = true then up
         else up.updWin w (fun x => { x with top := (s.dev.getLive slot).nextPn - 1, bitmap := 0, init := true })
       let ends := fun (d : Dev) => gateDone b stOK []
         (let d := if (s.dev.getLive slot).limHit = true then startDrain slot 0 d else d
          { d with twn := { d.twn with chFence := d.twn.chFence.erase sa.chid } })
       (winOf slot sa = none → Runs (.saActivate b slot) s (ends up)) ∧
       (∀ w : Nat, winOf slot sa = some w → Runs (.saActivate b slot) s (ends (first w)))))

/-- CH_SEAM: the refusals in the order of Table 05-4 (a receive channel before all others, 05 R150; an AN that names no attached BASTING SA; a seam
that is pending; SUITE 2 or 3 in LEAD and SHADOW; a kind that the channel's KIND does not take), each its one completion with nothing changed; a
seam that none refuses waits on its channel and names the tack it was applied at: kind 0, and kind 1 on a channel without a current SA or whose
NEXTPN is already at SEAMAT, at that tack's boundary; kind 1 otherwise at the PN of SEAMAT; kind 2 at its multiframe (05 R143, R148, 03 R88, 02 R38).
MODEL'S CHOICE (log entry 94): SEAMAT of a boundary seam is the boundary known as the record is applied. -/
def Obligations.ChannelSeam : Prop :=
  ∀ s : State, Powered s → ∀ (b : Sub) (chid an kind seamAt : Nat), sliceDown s.dev (chSlice chid) = false →
    let c := s.dev.tab.getChn chid
    (isRc chid = true → Runs (.chSeam b chid an kind seamAt) s (gateDone b stBAD_CHANNEL [] s.dev)) ∧
    (isRc chid = false → anSlotOf s.dev.tab chid an = none → Runs (.chSeam b chid an kind seamAt) s (gateDone b stBAD_STATE [] s.dev)) ∧
    (∀ new : Nat, isRc chid = false → anSlotOf s.dev.tab chid an = some new →
      let sa := s.dev.tab.getSa new
      (sa.state ≠ .basting ∨ sa.att = false → Runs (.chSeam b chid an kind seamAt) s (gateDone b stBAD_STATE [] s.dev)) ∧
      (sa.state = .basting → sa.att = true →
        ((s.dev.getChl chid).seamKind ≠ 0 → Runs (.chSeam b chid an kind seamAt) s (gateDone b stBUSY [] s.dev)) ∧
        ((s.dev.getChl chid).seamKind = 0 →
          ((s.dev.mod.mode = .lead ∨ s.dev.mod.mode = .shadow) → 2 ≤ sa.suite →
            Runs (.chSeam b chid an kind seamAt) s (gateDone b stBAD_SUITE [] s.dev)) ∧
          ((sa.suite < 2 ∨ (s.dev.mod.mode ≠ .lead ∧ s.dev.mod.mode ≠ .shadow)) →
            let waits := fun (k v : Nat) => Runs (.chSeam b chid an kind seamAt) s (s.dev.updChl chid (fun l =>
              { l with nextAn := an, seamKind := k, seamAt := v, seamSub := some b, seamTack := s.dev.tck.tno }))
            ((kind = 1 ∧ c.kind ≠ 0) ∨ (kind = 2 ∧ c.kind = 0) →
              Runs (.chSeam b chid an kind seamAt) s (gateDone b stBAD_CHANNEL [] s.dev)) ∧
            (kind = 0 → waits 3 (boundAt (chanPort chid c) s.dev)) ∧
            (kind = 1 → c.kind = 0 →
              (curSlot s.dev.tab chid s.dev = none → waits 3 (boundAt (chanPort chid c) s.dev)) ∧
              (∀ old : Nat, curSlot s.dev.tab chid s.dev = some old →
                (seamAt ≤ (s.dev.getLive old).nextPn → waits 3 (boundAt (chanPort chid c) s.dev)) ∧
                ((s.dev.getLive old).nextPn < seamAt → waits 1 seamAt))) ∧
            (kind = 2 → c.kind ≠ 0 → waits 2 (seamFc c (boundAt c.dst s.dev) s.dev))))))

/-- SA_RETIRE, SA_ERASE, DRAIN_COMPLETE, DRAIN_TIMEOUT: an ACTIVE SA drains; the erase of a DRAINING slot is deferred, a SPENT slot and a
BASTING slot that is not attached are freed at once, and the other states are refused; a drain that ends leaves the slot SPENT and serves the commands that waited (05 R144, R146, R147). SA_SETLIMIT,
SA_RAISEPN: the limits of a BASTING or ACTIVE transmit SA, or its NEXTPN, change at once when the SA is not its channel's current one, and otherwise with
its channel's first frame at the boundary; a NEXTPN that does not rise is refused (05 R151, R154). -/
def Obligations.SaLifetime : Prop :=
  (∀ s : State, Powered s → ∀ (b : Sub) (slot : Nat), sliceDown s.dev (slotSlice slot) = false →
     ((s.dev.tab.getSa slot).att = true → (s.dev.tab.getSa slot).state = .active → isCurrent slot s.dev = false → seamTarget slot s.dev = false →
       Runs (.saRetire b slot false) s (gateDone b stOK []
         ((s.dev.updTab (Tables.updSa slot (fun x => { x with state := .draining }))).updLive slot
           (fun l => { l with drainTack := s.dev.tck.tno, keep := false, pendRetire := none }))) ∧
       Runs (.saRetire b slot true) s (gateDeferred b
         ((s.dev.updTab (Tables.updSa slot (fun x => { x with state := .draining }))).updLive slot
           (fun l => { l with drainTack := s.dev.tck.tno, keep := true, pendRetire := some (b, s.dev.tck.tno) })))) ∧
     ((s.dev.tab.getSa slot).state = .draining → (s.dev.getLive slot).pendErase = none →
       Runs (.saErase b slot) s (gateDeferred b (s.dev.updLive slot (fun l => { l with pendErase := some (b, s.dev.tck.tno) })))) ∧
     ((s.dev.tab.getSa slot).state = .spent ∨ ((s.dev.tab.getSa slot).state = .basting ∧ (s.dev.tab.getSa slot).att = false) →
       Runs (.saErase b slot) s (gateDone b stOK [] (freeSlot slot s.dev))) ∧
     ((s.dev.tab.getSa slot).state = .parking ∨ ((s.dev.tab.getSa slot).att = true ∧ ((s.dev.tab.getSa slot).state = .basting ∨ (s.dev.tab.getSa slot).state = .active)) →
       Runs (.saErase b slot) s (gateDone b stIN_USE [] s.dev)) ∧
     ((s.dev.tab.getSa slot).state = .free ∨ (s.dev.tab.getSa slot).state = .window → Runs (.saErase b slot) s (gateDone b stBAD_STATE [] s.dev)) ∧
     (∀ q : Sub × Nat, (s.dev.tab.getSa slot).state = .draining → (s.dev.getLive slot).pendErase = some q →
       Runs (.saErase b slot) s (gateDone b stBUSY [] s.dev)) ∧
     ((s.dev.tab.getSa slot).state = .draining →
       Runs (.drainTimeout slot) s (sliceFault (slotSlice slot) 2
         (event 0x0503 3 (be 3 slot ++ [0] ++ be 2 (s.dev.getLive slot).refs) s.dev)) ∧
       ((s.dev.getLive slot).refs = 0 → (s.dev.getLive slot).keep = false → (s.dev.getLive slot).pendRetire = none →
         (s.dev.getLive slot).pendSeam = none → (∀ j ∈ (s.dev.getSlice (slotSlice slot)).txq, j.chid ≠ (s.dev.tab.getSa slot).chid) →
         tackEffective (chanPort (s.dev.tab.getSa slot).chid (s.dev.tab.getChn (s.dev.tab.getSa slot).chid)) (s.dev.getLive slot).drainTack s.dev = true →
         let d := (setStateAll slot .spent s.dev).updLive slot (fun x => { x with keep := false, pendErase := none, pendRetire := none, pendSeam := none })
         ((s.dev.getLive slot).pendErase = none → Runs (.drainComplete slot) s d) ∧
         (∀ tack : Nat, (s.dev.getLive slot).pendErase = some (b, tack) → Runs (.drainComplete slot) s (gateFinal b tack stOK [] (freeSlot slot d)))))) ∧
  (∀ s : State, Powered s → ∀ (b : Sub) (slot : Nat), sliceDown s.dev (slotSlice slot) = false →
     ((s.dev.tab.getSa slot).state = .active ∨ (s.dev.tab.getSa slot).state = .basting) → (s.dev.tab.getSa slot).dir = 0 →
     (∀ soft hard : Nat, soft ≤ hard → hard ≤ spentPn (s.dev.tab.getSa slot).suite →
       (isCurrent slot s.dev = true → Runs (.saSetlimit b slot soft hard) s (gateDone b stOK []
         { s.dev with sas := { s.dev.sas with pend := s.dev.sas.pend ++ [⟨slot, s.dev.tck.tno, none, some (soft, hard)⟩] } })) ∧
       (isCurrent slot s.dev = false → Runs (.saSetlimit b slot soft hard) s
         (gateDone b stOK [] (applyLimit ⟨slot, s.dev.tck.tno, none, some (soft, hard)⟩ s.dev)))) ∧
     (∀ pn : Nat, (pn ≤ (s.dev.getLive slot).nextPn → Runs (.saRaisepn b slot pn) s (gateDone b stBAD_LIMIT [] s.dev)) ∧
       ((s.dev.getLive slot).nextPn < pn → pn ≤ (s.dev.getLive slot).hardPn →
         (isCurrent slot s.dev = true → Runs (.saRaisepn b slot pn) s (gateDone b stOK []
           { s.dev with sas := { s.dev.sas with pend := s.dev.sas.pend ++ [⟨slot, s.dev.tck.tno, some pn, none⟩] } })) ∧
         (isCurrent slot s.dev = false → Runs (.saRaisepn b slot pn) s
           (gateDone b stOK [] (applyLimit ⟨slot, s.dev.tck.tno, some pn, none⟩ s.dev))))))

/-- CH_WRITE, CH_ENABLE, CH_DISABLE, SAS_SIDE: the channel records and the side (05 R133, R134, R156). SCI_INSERT, SCI_DELETE: the first
applicable refusal, else the entry takes a free way of its bucket; the deleted entry's way is free again (02 R44, R45). MODEL'S CHOICE (log
entry 68): the way that an entry takes is the first free one of its bucket. -/
def Obligations.ChannelRecords : Prop :=
  (∀ s : State, Powered s → ∀ b : Sub,
     (∀ chid : Nat, sliceDown s.dev (chSlice chid) = false →
       (∀ image : Bytes, (s.dev.tab.getChn chid).en = false →
         let c := chanOfImage (s.dev.tab.getChn chid) image
         badChannel s.dev.tab chid c = false → Runs (.chWrite b chid image) s
           (gateDone b stOK [] (updateCsfAll (s.dev.updTab (Tables.updChn chid (fun _ => c)))))) ∧
       (∀ image : Bytes, (s.dev.tab.getChn chid).en = true → Runs (.chWrite b chid image) s (gateDone b stIN_USE [] s.dev)) ∧
       Runs (.chEnable b chid) s (gateDone b stOK [] (s.dev.updTab (Tables.updChn chid (fun c => { c with en := true })))) ∧
       ((s.dev.getChl chid).seamKind = 0 →
         Runs (.chDisable b chid) s (gateDone b stOK [] (s.dev.updTab (Tables.updChn chid (fun c => { c with en := false }))))) ∧
       ((s.dev.getChl chid).seamKind ≠ 0 → Runs (.chDisable b chid) s (gateDone b stBUSY [] s.dev))) ∧
     (∀ side : Nat, (∀ e ∈ s.dev.tab.sa, e.2.dir = 0 → e.2.state = .free ∨ e.2.state = .spent ∨ e.2.state = .window) →
       Runs (.sasSide b side) s (gateDone b stOK [] (s.dev.updTab (fun t => { t with side := side }))))) ∧
  (∀ s : State, Powered s → ∀ (b : Sub) (face sci chid : Nat),
     let m := s.dev.tab.sciMap face
     (isRc chid = false → Runs (.sciInsert b face sci chid) s (gateDone b stBAD_CHANNEL [] s.dev)) ∧
     (isRc chid = true → (sciFind m sci).isSome = true → Runs (.sciInsert b face sci chid) s (gateDone b stDUPLICATE [] s.dev)) ∧
     (isRc chid = true → sciFind m sci = none → (sciWays sci).find? (fun i => (Tab.get none m i).isNone) = none →
       Runs (.sciInsert b face sci chid) s (gateDone b stBUCKET_FULL [] s.dev)) ∧
     (∀ i : Nat, isRc chid = true → sciFind m sci = none → (sciWays sci).find? (fun i => (Tab.get none m i).isNone) = some i →
       Runs (.sciInsert b face sci chid) s (gateDone b stOK [] (s.dev.updTab (Tables.setSci face i (some ⟨sci, chid⟩))))) ∧
     (sciFind m sci = none → Runs (.sciDelete b face sci) s (gateDone b stNO_ENTRY [] s.dev)) ∧
     (∀ i : Nat, sciFind m sci = some i → Runs (.sciDelete b face sci) s (gateDone b stOK [] (s.dev.updTab (Tables.setSci face i none)))))

/-! ### Slot mode (chapters 03 and 04, 09 R242) -/

/-- SLOT_FRAME_TRANSMIT, SLT_SWAP, SWAP_REQUEST_TIMEOUT: below the horizon a Slot-mode port sends one frame in each period and advances
its index; while its slices or the pool are fallow it sends idle, a test pattern goes out with its FC, and otherwise the frame goes out
under the port SA that takes its FC; SLT_SWAP asks, from its tack's boundary on, for the page that is not active, and a request sent and
unanswered is dropped with a record (03 R82, R83, R87, R103). MODEL'S CHOICE: a period in which no slot frame of the datapath goes out has a
disposition record (log entry 53); idle and the test sequence are those of IEEE 802.3 (log entry 18). -/
def Obligations.SlotSending : Prop :=
  ∀ s : State, Powered s → ∀ p : Nat,
    (∀ maps : List (Nat × List Block),
      let n := prtOf p
      let k := s.dev.getTck n
      let v := viewTack n k.nextIdx s.dev
      let t := tabAt v s.dev
      let g := t.getSlt p
      let fc := g.fcBase + k.nextIdx
      let next := fun (d : Dev) => settlePort n (d.updTck n (fun x => { x with nextIdx := k.nextIdx + 1, admitted := k.nextIdx + 1, got := x.got + 1 }))
      linesOff s.dev = false → portEnabled s.dev n = true → sltEn g = true → k.nextIdx < k.horizon → resyncHold n s.dev = false →
      k.disableTack = none →
      (slotFallow t p s.dev = true → Runs (.slotFrameTransmit p maps) s
        (next (slotPassed p fc 3 (updSTx p (fun x => { x with running := false }) (dropTags p (lineEmit n (.idle n) s.dev)))))) ∧
      (slotFallow t p s.dev = false → portFenced s.dev n = true → Runs (.slotFrameTransmit p maps) s
        (next (slotPassed p fc 4 (fenceDrop n (updSTx p (fun x => { x with running := false }) (dropTags p (lineEmit n (.idle n) s.dev))))))) ∧
      (slotFallow t p s.dev = false → portFenced s.dev n = false → sltTest g = true →
        Runs (.slotFrameTransmit p maps) s (next (slotPassed p fc 0 (lineEmit n (.slot n (testFrame (slotCols t p) fc (s.dev.getSlt p).tx.prbs).1)
          (updSTx p (testSent fc (slotCols t p) (testFrame (slotCols t p) fc (s.dev.getSlt p).tx.prbs)) (dropTags p s.dev)))))) ∧
      (∀ (slot : Nat) (inUse : Bool) (d : Dev), slotFallow t p s.dev = false → portFenced s.dev n = false → sltTest g = false →
        takeFc (fld g.portCh 15 0) v fc (txMultiframe p fc s.dev) = ((some slot, inUse), d) →
        Runs (.slotFrameTransmit p maps) s (next (sendSlotFrame t p v fc (slotCols t p) maps true slot
          (d.updPort n (fun x => { x with fallowSa := false }))))) ∧
      (∀ (inUse : Bool) (d : Dev), slotFallow t p s.dev = false → portFenced s.dev n = false → sltTest g = false →
        takeFc (fld g.portCh 15 0) v fc (txMultiframe p fc s.dev) = ((none, inUse), d) →
        Runs (.slotFrameTransmit p maps) s (next (portSaFallow t p fc d)))) ∧
    (∀ b : Sub, sliceDown s.dev (portSlice (prtOf p) s.dev) = false →
      let g := s.dev.tab.getSlt p
      let x := (s.dev.getSlt p).tx
      x.req = false → x.commit = false → tooFewSlots s.dev.tab p (g.txPage (!x.act)) g.txClient = false →
      Runs (.sltSwap b p) s (gateDone b stOK []
        (updSTx p (fun x => { x with req := true, reqAt := s.dev.tck.tno, reqSent := false, acked := false, cvReq := g.txVersion (!x.act) }) s.dev))) ∧
    (let x := (s.dev.getSlt p).tx
     x.req = true → x.reqSent = true → x.acked = false → x.commit = false → Runs (.swapRequestTimeout p) s
      (event 0x0302 2 (be 1 p ++ be 2 x.cvReq) (updSTx p (fun x => { x with req := false, reqSent := false, timeout := true, cvReq := 0 }) s.dev)))

/-- HUNT_BLOCK, SLOT_FRAME_RECEIVE, PORT_CLIENT_PLAYOUT: a hunting framer takes one block and leaves dLOF when it finds the second
alignment word; a frame whose alignment word is good and comes with an FC has the frame before judged by the tags it carries and is
itself taken, in test mode by its PRBS31; a frame with an errored word is not; a client in defect plays local fault, and a port that sends no
received traffic plays idle (04 R110, R111, R117, R124; 03 R90, R94, R97, 09 R238, R247). MODEL'S CHOICE: each frame with an errored word
counts as not received in alignment at once (log entry 54); which idle blocks playout deletes and inserts is free (log entry 47). -/
def Obligations.SlotReceiving : Prop :=
  ∀ s : State, Powered s → ∀ p : Nat, sltEn (s.dev.tab.getSlt p) = true → portEnabled s.dev (prtOf p) = true → linesOff s.dev = false →
    let n := slotCols s.dev.tab p
    (∀ x : Block, (s.dev.getSlt p).rx.sync = false → (s.dev.getPort (prtOf p)).loa = false → n ≠ 0 →
      let d := updSRx p (huntStep n x) s.dev
      Runs (.huntBlock p x) s (if (d.getSlt p).rx.sync = true then setDef p 2 false (clearHeldAn p d)
        else judgeFrame p ((d.getSlt p).rx.pos % (64 * n) == 0) d)) ∧
    (∀ (bl : List Block) (x : FrameEnd), (s.dev.getSlt p).rx.sync = true → bl.length = 64 * n → n ≠ 0 →
      let blocks := markErr x.err bl
      let uncorr := !x.ok || !x.err.isEmpty
      let r := (s.dev.getSlt p).rx
      let expect := if r.first = true then (r.fc + 2 ^ 64 - 1) % 2 ^ 64 else r.fc
      let b := blockBytes (blocks.headD 0)
      let d := rxMultiframe p expect
        (updPm p (fun m => { m with periods := m.periods + 1 }) (updSRx p (fun r => { r with first := false }) (fecCount (prtOf p) x.fec s.dev)))
      (blockF (blocks.headD 0) = true → popN 64 (beAt b 0 8 ^^^ slotFaw) ≤ 3 →
        let e := updSRx p (fun r => { r with fawErr := 0 }) d
        let f := slotJudge p n expect b r blocks uncorr e
        (sltTest (s.dev.tab.getSlt p) = true → Runs (.slotFrameReceive p bl x) s (slotTest p n expect b r blocks uncorr e)) ∧
        (sltTest (s.dev.tab.getSlt p) = false →
          Runs (.slotFrameReceive p bl x) s (slotTake p n expect f.1 (e.getSlt p).rx.an blocks f.2))) ∧
      ((blockF (blocks.headD 0) = false ∨ 3 < popN 64 (beAt b 0 8 ^^^ slotFaw)) →
        Runs (.slotFrameReceive p bl x) s (slotFawBad p n expect r.hasPrev blocks d))) ∧
    (∀ i : Nat, let e := Tab.get 0 (s.dev.tab.getSlt p).rxClient i
      let q := rxClear s.dev.tab e
      let l := Tab.get [] (s.dev.getSlt p).rx.buf i
      let a := adaptIdle s.dev.fresh (Tab.get false (s.dev.getSlt p).rx.playIn i) l
      cliType e = 1 → portEnabled s.dev q = true → portDead s.dev q = false → memberPlays (cliChid e) s.dev = true →
      ((clientFault p i s.dev = true ∨ s.dev.twn.chFence.contains (cliChid e) = true ∨ Tab.get false (s.dev.getSlt p).rx.play i = false) →
        Runs (.portClientPlayout p i) s
          (lineEmit q (.localFault q) (updSRx p (fun r => { r with playIn := Tab.set false r.playIn i false }) s.dev))) ∧
      (clientFault p i s.dev = false → s.dev.twn.chFence.contains (cliChid e) = false → Tab.get false (s.dev.getSlt p).rx.play i = true →
        let d := { updSRx p (fun r => { r with buf := Tab.set [] r.buf i [], playIn := Tab.set false r.playIn i a.2 }) s.dev with
          fresh := s.dev.fresh + l.length }
        (suppressed q s.dev = true → Runs (.portClientPlayout p i) s
          (lineEmit q (.idle q) (d.updTwn q (fun t => { t with suppress := sat64 (t.suppress + packetStarts l) })))) ∧
        (suppressed q s.dev = false →
          Runs (.portClientPlayout p i) s (lineEmit q (.client q (if plain66 s.dev.tab q = true then spread66 a.1 else a.1)) d))))

/-- SLT_SET: the plain registers of a Slot-mode port take the written value at the tack, FCBASE only while the port is not enabled; a
calendar word is refused for the active page, and CTRL.EN starts Slot mode with the cells that it reserves (03 R102, R106, R107).
FAILURE_INTEGRATION, PM_SECOND_END, PM_SECOND_ENTRY, SLT_PMSEL: a defect that has stood raises its failure, with FCHG and the record of
its severity, and one that has been away clears it; a second is classified and waits; fewer than ten waiting seconds enter nothing; a
selection takes its snapshot in one step (04 R119, R123, R125, R126, R130). MODEL'S CHOICE: PORTCH and FILLCH take any channel that no row
of Table 03-9 refuses (log entry 50), and the active pages and a swap in progress stay when EN is set (log entry 48). -/
def Obligations.SlotControl : Prop :=
  (∀ s : State, Powered s → ∀ (b : Sub) (p v : Nat), v < 2 ^ 32 → sliceDown s.dev (portSlice (prtOf p) s.dev) = false →
     let g := s.dev.tab.getSlt p
     let set := fun (f : SltGated → SltGated) => gateDone b stOK [] (s.dev.updTab (Tables.updSlt p f))
     Runs (.sltSet b p 8 v) s (set (fun g => { g with fillCh := if isWide s.dev.tab (prtOf p) = true then fld v 15 0 else 0 })) ∧
     (shortSuite s.dev.tab (fld v 15 0) = false → shortSuite s.dev.tab (fld v 31 16) = false →
       Runs (.sltSet b p 4 v) s (set (fun g => { g with portCh := v }))) ∧
     (sltEn g = true → Runs (.sltSet b p 0x10 v) s (gateDone b stBUSY [] s.dev)) ∧
     (sltEn g = false → Runs (.sltSet b p 0x10 v) s (set (fun g => { g with fcBase := hi32 g.fcBase * 2 ^ 32 + v })) ∧
       Runs (.sltSet b p 0x14 v) s (set (fun g => { g with fcBase := v * 2 ^ 32 + lo32 g.fcBase }))) ∧
     (∀ w : Nat, w < 80 →
       (((s.dev.getSlt p).tx.act = false → Runs (.sltSet b p (0x300 + 4 * w) v) s (gateDone b stPAGE_ACTIVE [] s.dev)) ∧
        ((s.dev.getSlt p).rx.act = true → Runs (.sltSet b p (0x6C0 + 4 * w) v) s (gateDone b stPAGE_ACTIVE [] s.dev)))) ∧
     (∀ d : Dev, v % 8 = 1 → sltEn g = false → cfgSlot (s.dev.tab.getPrt (prtOf p)).cfg = true →
       let n := slotCols s.dev.tab p
       let lo := reserveOf (if n = 320 then 159 else n - 1)
       let hi := if n = 320 then reserveOf 160 else 0
       changeHold p lo hi true s.dev = some d →
       Runs (.sltSet b p 0 v) s (gateDone b stOK [] (startSlot p lo hi
         (d.updTab (Tables.updSlt p (fun g => { g with ctrl := fld v 2 0 + at_ (fld v 15 8) 8 })))))) ∧
     (v % 8 = 1 → sltEn g = false → cfgSlot (s.dev.tab.getPrt (prtOf p)).cfg = false →
       Runs (.sltSet b p 0 v) s (gateDone b stBAD_PORT [] s.dev))) ∧
  (∀ s : State, Powered s → ∀ p : Nat,
     (∀ (k i : Nat) (present : Bool), k < 8 →
       let x := (s.dev.getSlt p).dfc
       defectOn x k i = present → failureOn x k i = !present →
       Runs (.failureIntegration p k i present) s
         (event ((if present = true then 0x0400 else 0x0440) + k) (if present = false then 1 else if k < 6 then 3 else 2) (be 1 p ++ be 1 0xFF)
           (chgSDef p (fun x => { x with fchg := setBit x.fchg k true, failBits := setBit x.failBits k present }) s.dev))) ∧
     (let d := degSecond p (classifySecond p s.dev) s.dev
      Runs (.pmSecondEnd p) s (updPm p (fun m => { m with
       errored := 0, periods := 0, defect := sesStands p d, step := false, hunted := !(d.getSlt p).rx.sync, hdrs := 0, hdrRei := 0, hdrRdi := false
       baseErr := frameErrors p d, baseIdx := (d.getTck (prtOf p)).nextIdx, down := !portEnabled d (prtOf p)
       startOt := d.evr.optime, startCal := if d.evr.calq = 0 then 0 else d.evr.calSec, startCalq := d.evr.calq
       last := some (classifySecond p s.dev), line := m.line ++ [classifySecond p s.dev] }) d)) ∧
     ((s.dev.getSlt p).pm.line.length < 10 → Runs (.pmSecondEntry p) s s.dev) ∧
     (∀ (x : PmSec) (rest : List PmSec), (s.dev.getSlt p).pm.line = x :: rest → 9 ≤ rest.length →
       ∃ d : Dev, Runs (.pmSecondEntry p) s d ∧ (d.getSlt p).pm.line = rest ∧ (d.getSlt p).pm.entered = some x ∧
         d.sas = s.dev.sas ∧ d.keys = s.dev.keys ∧ d.port = s.dev.port) ∧
     (∀ v : Nat, regsShut s.dev = false → Runs (.sltPmsel v) s { s.dev with slt := { s.dev.slt with
       pmSel := fld v 4 0 + at_ (fld v 9 8) 8 + at_ (fld v 22 16) 16,
       pmSnap := pmSelect (fld v 4 0 + at_ (fld v 9 8) 8 + at_ (fld v 22 16) 16) s.dev } }))

/-! ### Ports, stations and the classifier (chapters 02, 06, 08, 12) -/

/-- CMD_PORT_CONFIG, CMD_PORT_ENABLE, CMD_PORT_DISABLE, PRT_SET, on clear and cipher ports: a configuration that no rule refuses, of any
SIZE and in either mode, moves the port's lanes, fits its slot registers and begins idle; SIZE 0 is no configuration; an enabled port, or one
in Slot mode, is IN_USE. An enabled port begins at index 0, frozen, and a second enable changes nothing; a disable waits for the tack's
boundary on the port, and one that waits stays; a gated register takes its value, MAXFRAME within its range, and those of a cipher port alone
are refused on a clear port (12 R345 to R348, 08 R225, 02 R68). MODEL'S CHOICE (log entry 69): the gate takes a port whose disable waits
for its boundary as disabled. -/
def Obligations.PortCommands : Prop :=
  ∀ s : State, Powered s → ∀ (b : Sub) (n : Nat), sliceDown s.dev (portSlice n s.dev) = false →
    (∀ cfg : Nat,
      let g := s.dev.tab.getPrt n
      let c := if cfgSize cfg = 0 then 0 else fld cfg 12 0
      ((g.gateOn = true ∨ (isCipher n = true ∧ sltEn (s.dev.tab.getSlt (facePos n)) = true)) →
        Runs (.cmdPortConfig b n cfg) s (gateDone b stIN_USE [] s.dev)) ∧
      (g.gateOn = false → (isCipher n = true → sltEn (s.dev.tab.getSlt (facePos n)) = false) →
        (c ≠ 0 → lanesOverlap n c s.dev = false ∧ rowOk n c = true ∧ pairRule n c s.dev = false) →
        (cfgSize g.cfg = 0 ∨ (cfgSize c ≠ 0 ∧ (cfgSize c = 5 ↔ cfgSize g.cfg = 5)) ∨ portNamed n s.dev.tab = false) →
        (cfgSlot c = true → isCipher n = true ∧ cfgSize c ≠ 1) →
        (∀ l ∈ portLanes c n, (s.dev.getLane l).retired = false) →
        Runs (.cmdPortConfig b n cfg) s (gateDone b stOK [] (idleEmit n (updateLos n ((moveLanes n g.cfg c
          ((endDisable n s.dev).updTab (fun t => fitSlt n c (t.updPrt n (fun x => { x with cfg := c }))))).updPort n
            (fun x => { x with laneFail := false }))))))) ∧
    (s.dev.mod.mode = .enrol → Runs (.cmdPortEnable b n) s (gateDone b stBAD_MODE [] s.dev)) ∧
    (s.dev.mod.mode ≠ .enrol →
      ((s.dev.tab.getPrt n).gateOn = true → Runs (.cmdPortEnable b n) s (gateDone b stOK [] s.dev)) ∧
      ((s.dev.tab.getPrt n).gateOn = false → portLanes (s.dev.tab.getPrt n).cfg n ≠ [] →
        (∀ l ∈ portLanes (s.dev.tab.getPrt n).cfg n, (s.dev.getLane l).retired = false) →
        Runs (.cmdPortEnable b n) s (gateDone b stOK [] (enablePort n (endDisable n s.dev))))) ∧
    ((portEnabled s.dev n = false ∨ (s.dev.getTck n).disableTack ≠ none) → Runs (.cmdPortDisable b n) s (gateDone b stOK [] s.dev)) ∧
    (portEnabled s.dev n = true → (s.dev.getTck n).disableTack = none →
      let d := gateDone b stOK [] s.dev
      Runs (.cmdPortDisable b n) s (settlePort n ((d.updTck n (fun t => { t with disableTack := some d.tck.tno })).updTab
        (Tables.updPrt n (fun g => { g with gateOn := false }))))) ∧
    (∀ off v : Nat, prtGatedOff off = true →
      (isCipher n = false → off = 0x400 ∨ (0x410 ≤ off ∧ off < 0x430) → Runs (.prtSet b n off v) s (gateDone b stBAD_PORT [] s.dev)) ∧
      (off = 0x404 → (fld v 13 0 < 64 ∨ 9728 < fld v 13 0) → Runs (.prtSet b n off v) s (gateDone b stBAD_LIMIT [] s.dev)) ∧
      (isCipher n = true → off = 0x400 → bitAt v 4 = true → (isRc (fld v 31 16) = false ∨ portReaches s.dev.tab n (chSlice (fld v 31 16)) = false) →
        Runs (.prtSet b n off v) s (gateDone b stBAD_CHANNEL [] s.dev)) ∧
      ((isCipher n = true ∨ (off ≠ 0x400 ∧ (off < 0x410 ∨ 0x430 ≤ off))) → (off = 0x404 → 64 ≤ fld v 13 0 ∧ fld v 13 0 ≤ 9728) →
        (off = 0x400 → bitAt v 4 = true → isRc (fld v 31 16) = true ∧ portReaches s.dev.tab n (chSlice (fld v 31 16)) = true) →
        Runs (.prtSet b n off v) s (gateDone b stOK [] (s.dev.updTab (Tables.updPrt n (prtSetReg off v))))))

/-- STN_INSERT, STN_DELETE, STN_FLUSH, STN_SETSWEEP: once the learns of the tacks before are applied, which they wait for, a static entry
takes the place of the key's own or the bucket's free one, and a delete removes the key's entry; a flush adds its filters behind the commands
that wait, at most four in a tack and partition; a sweep period out of range is refused (06 Table 06-13, R180). STATION_WALK, FLUSH_WALK, LEARNS_APPLY, STN_SEARCH, STN_NEXT: a due walk removes the aged entries of its partition that no flush matches, one that still waits among them, and
counts them, a flush walk what its filters match; learns wait for the second tack after their interval; a search writes nothing but the
operation registers (06 R173, R174, R177, R180, R181). MODEL'S CHOICE: a station command waits for the learns of the tacks before its
own (log entry 17). -/
def Obligations.Stations : Prop :=
  (∀ s : State, Powered s → ∀ (b : Sub) (part key chid : Nat), sliceDown s.dev part = false →
     let k := s.dev.tck.tno
     let t := tabAt k s.dev
     let here := stnFind t part (keyDomain key) (keyMac key)
     let entry : StnEntry := ⟨keyMac key, keyDomain key, true, false, chid, 0, t.sweepNo % 4, 0, t.sweepNo % 4, t.sweepNo⟩
     (s.dev.stn.waiting = [] → learnsSettled part k s.dev = true →
       (isRc chid = false → partServes part (chSlice chid) = true →
         (∀ i : Nat, (here = some i ∨ (here = none ∧ stnFree t part (keyDomain key) (keyMac key) = some i)) →
           Runs (.stnInsert b part key chid) s (gateLate b k stOK [] (stnChange k i (t.getStn i) (some entry) s.dev))) ∧
         (here = none → stnFree t part (keyDomain key) (keyMac key) = none →
           Runs (.stnInsert b part key chid) s (gateLate b k stBUCKET_FULL [] s.dev))) ∧
       ((isRc chid = true ∨ partServes part (chSlice chid) = false) → Runs (.stnInsert b part key chid) s (gateLate b k stBAD_CHANNEL [] s.dev)) ∧
       (∀ i : Nat, here = some i → Runs (.stnDelete b part key) s (gateLate b k stOK [] (stnChange k i (t.getStn i) none s.dev))) ∧
       (here = none → Runs (.stnDelete b part key) s (gateLate b k stNO_ENTRY [] s.dev))) ∧
     (s.dev.stn.waiting = [] → learnsSettled part k s.dev = false →
       Runs (.stnInsert b part key chid) s { s.dev with stn := { s.dev.stn with waiting := [⟨k, b, part, key, some chid, none⟩] } } ∧
       Runs (.stnDelete b part key) s { s.dev with stn := { s.dev.stn with waiting := [⟨k, b, part, key, none, none⟩] } }) ∧
     (∀ (byChan incl : Bool) (value : Nat), part < 8 →
       (4 ≤ Tab.get 0 s.dev.stn.flushes part → Runs (.stnFlush b part byChan value incl) s (gateDone b stBUSY [] s.dev)) ∧
       (Tab.get 0 s.dev.stn.flushes part < 4 →
         let f : FlushFilter := ⟨part, byChan, value, incl, k⟩
         let d : Dev := { s.dev with stn := { s.dev.stn with flushes := Tab.upd 0 s.dev.stn.flushes part (· + 1) } }
         Runs (.stnFlush b part byChan value incl) s (gateDone b stOK [] (stnGated ⟨k, b, part, 0, none, some f⟩ d)) ∧
         (s.dev.stn.waiting = [] → Runs (.stnFlush b part byChan value incl) s (gateDone b stOK [] (addFilter f d))))) ∧
     (∀ (byChan incl : Bool) (value : Nat), (∀ q < 8, sliceDown s.dev q = false) →
       ((∃ q < 8, 4 ≤ Tab.get 0 s.dev.stn.flushes q) → Runs (.stnFlush b 8 byChan value incl) s (gateDone b stBUSY [] s.dev)) ∧
       ((∀ q < 8, Tab.get 0 s.dev.stn.flushes q < 4) → Runs (.stnFlush b 8 byChan value incl) s
         (gateDone b stOK [] (each (List.range 8) (fun q d => stnGated ⟨d.tck.tno, b, q, 0, none, some ⟨q, byChan, value, incl, d.tck.tno⟩⟩ d)
           { s.dev with stn := { s.dev.stn with flushes := (List.range 8).foldl (fun f q => Tab.upd 0 f q (· + 1)) s.dev.stn.flushes } })))) ∧
     (∀ period : Nat, (1000 ≤ period → period ≤ 100000000 → Runs (.stnSetsweep b period) s
         (gateDone b stOK [] (s.dev.updTab (fun t => { t with stnPeriod := period, stnTacks := 0 })))) ∧
       ((period < 1000 ∨ 100000000 < period) → Runs (.stnSetsweep b period) s (gateDone b stBAD_LIMIT [] s.dev)))) ∧
  (∀ s : State, Powered s → ∀ q : Nat,
     (∀ w : Nat × Nat × Nat, s.dev.stn.walks.find? (fun w => w.1 == q) = some w → (∀ n ∈ partPorts q s.dev, tackEffective n w.2.2 s.dev = true) →
       let gone := fun (t : Tables) => stnAged { t with filters := t.filters ++ s.dev.stn.waiting.filterMap (fun w => w.filter) } q w.2.1
       Runs (.stationWalk q) s (stnCount q 5 (s.dev.tab.stn.filter (gone s.dev.tab)).length
         (({ s.dev with stn := { s.dev.stn with walks := s.dev.stn.walks.erase w } } : Dev).updViews
           (fun t => { t with stn := t.stn.filter (fun e => !gone t e) })))) ∧
     ((∀ f ∈ s.dev.tab.filters, f.part ≠ q) → Runs (.flushWalk q) s s.dev) ∧
     (∀ f : FlushFilter, s.dev.tab.filters = [f] → f.part = q → learnsSettled q f.tack s.dev = true → s.dev.stn.waiting = [] → ∃ d : Dev, Runs (.flushWalk q) s d ∧ d.tab.filters = [] ∧
       (∀ (i : Nat) (e : StnEntry), (i, some e) ∈ d.tab.stn → i / 65536 = q → stnFlushed f q e = false) ∧ d.sas = s.dev.sas ∧ d.port = s.dev.port) ∧
     (∀ k : Nat, s.dev.tck.tno < k + 2 → Runs (.learnsApply k) s s.dev) ∧
     (∀ k : Nat, k + 2 ≤ s.dev.tck.tno → (∀ l ∈ s.dev.stn.learns, k < l.interval) → s.dev.stn.waiting = [] → Runs (.learnsApply k) s s.dev) ∧
     (∀ (k : Nat) (l : Learn), k + 2 ≤ s.dev.tck.tno → l.part < 8 → l.interval = k → l.port < 64 → s.dev.stn.learns = [l] → s.dev.stn.waiting = [] →
       learnsComplete l.part k s.dev = true →
       Runs (.learnsApply k) s (applyLearn (k + 2) l { s.dev with stn := { s.dev.stn with learns := [] } })) ∧
     (∀ v : Nat, regsShut s.dev = false → Runs (.stnSearch v) s { s.dev with stn := (stnOpWrite v s.dev).stn } ∧
       Runs (.stnNext v) s { s.dev with stn := (stnOpWrite v s.dev).stn }))

/-- PAT_LOAD, PAT_LOAD_COMPLETE, PAT_SWITCH: a load runs alone; it ends with the standby bank valid and measured, or with BAD_IMAGE, the
record and an empty bank; a switch makes the standby bank the active one for every later tack (06 R169 to R171, 14 R407). MODEL'S CHOICE:
PAT_LOAD is BUSY while a switch waits, and a load ends after the switch before it has spread (log entry 60); the widths of what is measured
(log entry 24). -/
def Obligations.PatternBanks : Prop :=
  ∀ s : State, Powered s → ∀ b : Sub,
    (∀ slot : Nat, s.dev.pat.loading = false → switchPending s.dev = false →
      Runs (.patLoad b slot) s { s.dev with pat := { s.dev.pat with loading := true, loadSlot := slot, loadSub := some b } }) ∧
    (∀ slot : Nat, (s.dev.pat.loading = true ∨ switchPending s.dev = true) → Runs (.patLoad b slot) s (complete b 4 stBUSY [] s.dev)) ∧
    (s.dev.pat.loading = true → s.dev.pat.loadSub = some b → switchSpreads s.dev = false →
      let stby := 1 - s.dev.tab.actBank
      let d : Dev := { s.dev with pat := { s.dev.pat with loading := false, loadSub := none } }
      (∀ c : Nat, checkImage d 3 s.dev.pat.loadSlot = .bad c → Runs .patLoadComplete s (complete b 4 stBAD_IMAGE []
        (imageRefused 3 s.dev.pat.loadSlot c (setBank stby {} { d with pat := { d.pat with err := 1 } })))) ∧
      (∀ (img : Image) (body : Bytes), checkImage d 3 s.dev.pat.loadSlot = .good img body → patCheck body = 0 →
        let d1 := setBank stby { valid := true, image := body, slot := s.dev.pat.loadSlot, svn := img.svn, envVer := img.imgVer }
          { d with pat := { d.pat with err := 0 } }
        let d2 := mrExtend 3 3 (img.digest ++ be 1 s.dev.pat.loadSlot) d1
        img.tested.contains (1, (match d2.mod.runtime with | some r => r.imgVer | none => 0)) = true →
        Runs .patLoadComplete s (complete b 4 stOK [] d2))) ∧
    ((standbyBank s.dev).valid = false → Runs (.patSwitch b) s (gateDone b stNOT_LOADED [] s.dev)) ∧
    ((standbyBank s.dev).valid = true → s.dev.tab.actBank = 0 → Runs (.patSwitch b) s (gateDone b stOK []
      ((setBank 0 { s.dev.pat.bank0 with valid := false } s.dev).updTab (fun t => { t with actBank := 1 }))))

/-! ### Keys (chapter 07) -/

/-- KEY_GEN, KEY_TICKET, KEY_CLEAR, TICKET_EXPIRY: random bits fill a free slot as a GENERATED key whose FRESHLEFT is 1, or go out as a
FRESH ticket, of which at most 256 stand; a ticket drawn FRESH from a slot uses its FRESHLEFT up; a cleared slot is empty; an expired
ticket ends with its record (07 R186, R190, R191, R192). MODEL'S CHOICE: the random bits and the handle are free values (log entry 3), and
the refusals come in the order BAD_MODE, RNG_FAULT, BAD_SLOT, NO_TICKET (log entry 30). RNG_HEALTH_FAIL,
RNG_RETEST: a failed health test raises the fault, stops the random source and is recorded; a retest while the source fails decides
whether it runs again (07 R186). -/
def Obligations.KeySources : Prop :=
  (∀ s : State, Powered s → ∀ b : Sub, keyBadMode (subReq b) false false s.dev = false →
     (∀ len dest usage keyId : Nat, rngBad s.dev = false → noKwr s.dev = false → (len = 16 ∨ len = 32) →
       let r := freeBytes len s.dev
       (dest ≠ destTicket → kekFree dest s.dev = true → badUsage usage len = false →
         Runs (.keyGen b len dest usage keyId) s (complete b engKey stOK [] (putKek dest .generated usage keyId r.1 r.2))) ∧
       (dest = destTicket → s.dev.keys.tickets.length < 256 →
         Runs (.keyGen b len dest usage keyId) s (complete b engKey stOK [(newTicket r.1 true (subReq b) r.2).1] (newTicket r.1 true (subReq b) r.2).2)) ∧
       (dest = destTicket → 256 ≤ s.dev.keys.tickets.length → Runs (.keyGen b len dest usage keyId) s (complete b engKey stNO_TICKET [] s.dev)) ∧
       (dest ≠ destTicket → kekFree dest s.dev = false → Runs (.keyGen b len dest usage keyId) s (complete b engKey stBAD_SLOT [] s.dev))) ∧
     (∀ (slot : Nat) (fresh : Bool), noKwr s.dev = false → kekValid slot s.dev = true → bitAt (s.dev.getKek slot).usage uSAK = true →
       let d := if fresh = true then s.dev.updKek slot (fun k => { k with freshLeft := false }) else s.dev
       let n := newTicket (s.dev.getKek slot).key fresh (subReq b) d
       ((fresh = true → (s.dev.getKek slot).freshLeft = true) → s.dev.keys.tickets.length < 256 →
         Runs (.keyTicket b slot fresh) s (complete b engKey stOK [n.1] n.2)) ∧
       (fresh = true → (s.dev.getKek slot).freshLeft = false → Runs (.keyTicket b slot fresh) s (complete b engKey stNOT_FRESH [] s.dev))) ∧
     (∀ slot : Nat, 2 ≤ slot → slot < 1024 → Runs (.keyClear b slot) s (complete b engKey stOK [] (s.dev.updKek slot (fun _ => {})))) ∧
     (∀ n : Nat, 2 ≤ n → n < 64 → Runs (.keyClear b (0x40000000 + n)) s (complete b engKey stOK [] (s.dev.updLpk n (fun _ => {})))) ∧
     (∀ (h : Nat) (t : Ticket), s.dev.keys.tickets.find? (fun t => t.handle == h) = some t → Runs (.ticketExpiry h) s
       (event 0x0701 1 (be 1 h ++ be 1 t.requester)
         { s.dev with keys := { s.dev.keys with tickets := s.dev.keys.tickets.filter (fun t => t.handle != h) } }))) ∧
  (∀ s : State, Powered s →
     (∀ test : Nat, Runs (.rngHealthFail test) s
       (event 0x0704 3 (be 1 test) { s.dev with keys := { s.dev.keys with rngFault := true, rngOk := false } })) ∧
     (∀ pass : Bool, (s.dev.keys.rngOk = true → Runs (.rngRetest pass) s s.dev) ∧
       (s.dev.keys.rngOk = false → Runs (.rngRetest pass) s { s.dev with keys := { s.dev.keys with rngOk := pass } })))

/-- KEY_DERIVE, KEY_COMBINE: function 0 and the KDF of IEEE 802.1X give the bytes; a qualifying derivation raises DCTR and makes an
EPHEMERAL key, any other a PERSISTENT one; a ticket takes 16 or 32 bytes, FRESH only from a derivation that qualifies, and of tickets at most 256
stand; a public output goes to memory; a combination clears its sources, one or two (07 R190 to R192, R194, R206). KEY_WRAP, KEY_UNWRAP: the
owner of the service cipher wraps an exportable key as a blob or by AES-KW into memory, and unwraps a blob or an AES-KW key into a free slot or a
ticket, and a signing seed into a free LPK slot: a blob brings its own USAGE and KEYID, an AES-KW key takes the operand's USAGE; a blob or a key
that fails any condition writes nothing and is recorded, and a key of the wrong kind or length for its destination is refused (07 R189, R195,
R196, R197). MODEL'S CHOICE: function 1 takes a source of 16 or 32 bytes (log entry 95); FMTMIN of a blob is 0 (log entry 96); RETURN unwraps
nothing (log entry 88); the KEYID of an AES-KW key is a free value (log entry 3). -/
def Obligations.KeyOutputs : Prop :=
  (∀ s : State, Powered s → ∀ b : Sub, keyBadMode (subReq b) false false s.dev = false → noKwr s.dev = false →
     (∀ (src func : Nat) (label : Bytes) (ctr : Nat) (ctx : Bytes) (len dest usage keyId : Nat) (fresh : Bool),
       let k := s.dev.getKek src
       kekValid src s.dev = true → bitAt k.usage uDERIVE = true → func ≤ 1 → len ≤ 64 → label.length ≤ 32 → ctx.length ≤ 64 →
       (func = 1 → k.key.length = 16 ∨ k.key.length = 32) →
       (kekFree dest s.dev = true → dest ≠ destTicket → badUsage usage len = false →
         (freshSource k func ctr = true → Runs (.keyDerive b src func 0 label ctr ctx len dest usage keyId fresh) s
           (complete b engKey stOK [] (putKek dest .ephemeral usage keyId (derived k func 0 label ctr ctx len)
             (s.dev.updKek src (fun k => { k with dctr := ctr }))))) ∧
         (freshSource k func ctr = false → fresh = false → Runs (.keyDerive b src func 0 label ctr ctx len dest usage keyId fresh) s
           (complete b engKey stOK [] (putKek dest .persistent usage keyId (derived k func 0 label ctr ctx len) s.dev))) ∧
         (freshSource k func ctr = false → fresh = true → Runs (.keyDerive b src func 0 label ctr ctx len dest usage keyId fresh) s
           (complete b engKey stNOT_FRESH [] s.dev))) ∧
       ((len = 16 ∨ len = 32) →
         let out := derived k func 0 label ctr ctx len
         let row := Instr.keyDerive b src func 0 label ctr ctx len destTicket usage keyId fresh
         (freshSource k func ctr = false → fresh = true → Runs row s (complete b engKey stNOT_FRESH [] s.dev)) ∧
         ((fresh = true → freshSource k func ctr = true) →
           (256 ≤ s.dev.keys.tickets.length → Runs row s (complete b engKey stNO_TICKET [] s.dev)) ∧
           (s.dev.keys.tickets.length < 256 →
             let n := newTicket out fresh (subReq b) (if fresh = true then s.dev.updKek src (fun k => { k with dctr := ctr }) else s.dev)
             Runs row s (complete b engKey stOK [n.1] n.2)))) ∧
       (func = 0 → fresh = false → (engWrite (subReq b) dest (derived k 0 1 label ctr ctx len) s.dev).1 = true →
         Runs (.keyDerive b src func 1 label ctr ctx len dest usage keyId fresh) s
           (complete b engKey stOK [len] (engWrite (subReq b) dest (derived k 0 1 label ctr ctx len) s.dev).2))) ∧
     (∀ (x : Nat) (hash : Bytes) (dest : Nat), x < 1024 → isEphDerive (s.dev.getKek x) = true → kekFree dest s.dev = true →
       let ends := fun (key : Bytes) (d : Dev) => complete b engKey stOK []
         (putKek dest .ephemeral (2 ^ uDERIVE) (freeKeyId d).1 (combineKey (s.dev.getKek x).key key (fit 64 hash)) (freeKeyId d).2)
       Runs (.keyCombine b x none hash dest) s (ends [] (clearKek x s.dev)) ∧
       (∀ y : Nat, y < 1024 → isEphDerive (s.dev.getKek y) = true →
         Runs (.keyCombine b x (some y) hash dest) s (ends (s.dev.getKek y).key (clearKek y (clearKek x s.dev)))))) ∧
  (∀ s : State, Powered s → ∀ b : Sub,
     (keyBadMode (subReq b) true false s.dev = false → ∀ src wrapSlot fmt addr : Nat,
       (ownsSce (subReq b) s.dev = false → Runs (.keyWrap b src wrapSlot fmt addr) s (complete b engKey stNOT_OWNER [] s.dev)) ∧
       (ownsSce (subReq b) s.dev = true → kekValid src s.dev = true → 2 ≤ src → kekValid wrapSlot s.dev = true →
         bitAt (s.dev.getKek src).usage uEXPORT = true → bitAt (s.dev.getKek wrapSlot).usage uWRAP = true →
         (fmt = 0 ∨ fmt = 1 ∧ ((s.dev.getKek src).key.length = 16 ∨ (s.dev.getKek src).key.length = 32)) →
         let out := if fmt = 0 then makeBlob (s.dev.getKek wrapSlot).key (s.dev.getKek src)
           else kwWrap (s.dev.getKek wrapSlot).key (s.dev.getKek src).key
         (engWrite (subReq b) addr out s.dev).1 = true →
         Runs (.keyWrap b src wrapSlot fmt addr) s (complete b engKey stOK [out.length] (engWrite (subReq b) addr out s.dev).2))) ∧
     (keyBadMode (subReq b) true true s.dev = false → ∀ (data : Bytes) (wrapSlot usage : Nat),
       (∀ fmt dest : Nat, ownsSce (subReq b) s.dev = false →
         Runs (.keyUnwrap b fmt data wrapSlot dest usage) s (complete b engKey stNOT_OWNER [] s.dev)) ∧
       (ownsSce (subReq b) s.dev = true → noKwr s.dev = false → kekValid wrapSlot s.dev = true → bitAt (s.dev.getKek wrapSlot).usage uUNWRAP = true →
         let wk := (s.dev.getKek wrapSlot).key
         let answers := fun (fmt dest status : Nat) => Runs (.keyUnwrap b fmt data wrapSlot dest usage) s (complete b engKey status [] s.dev)
         let puts := fun (fmt dest : Nat) (d : Dev) => Runs (.keyUnwrap b fmt data wrapSlot dest usage) s (complete b engKey stOK [] d)
         let recorded := fun (fmt dest kid : Nat) => Runs (.keyUnwrap b fmt data wrapSlot dest usage) s
           (complete b engKey stBAD_BLOB [] (event 0x0703 2 (be 2 wrapSlot ++ be 4 kid) s.dev))
         let ticketed := fun (fmt : Nat) (key : Bytes) =>
           (256 ≤ s.dev.keys.tickets.length → answers fmt destTicket stNO_TICKET) ∧
           (s.dev.keys.tickets.length < 256 → Runs (.keyUnwrap b fmt data wrapSlot destTicket usage) s
             (complete b engKey stOK [(newTicket key false (subReq b) s.dev).1] (newTicket key false (subReq b) s.dev).2))
         (∀ dest : Nat, dest ≠ destTicket → destLpk dest = none →
           (kekFree dest s.dev = false → answers 0 dest stBAD_SLOT ∧ answers 1 dest stBAD_SLOT) ∧
           (kekFree dest s.dev = true →
             (openBlob wk wrapSlot data = none → recorded 0 dest (beAt data 12 4)) ∧
             (∀ (key : Bytes) (use kid : Nat), openBlob wk wrapSlot data = some (1, key, use, kid) → answers 0 dest stBAD_SLOT) ∧
             (∀ (key : Bytes) (use kid : Nat), openBlob wk wrapSlot data = some (0, key, use, kid) →
               (badUsage use key.length = true → answers 0 dest stBAD_USAGE) ∧
               (badUsage use key.length = false → puts 0 dest (putKek dest .persistent use kid key s.dev))) ∧
             (badUsage usage 16 = true → answers 1 dest stBAD_USAGE) ∧
             (badUsage usage 16 = false →
               (kwUnwrap wk data = none → recorded 1 dest 0) ∧
               (∀ key : Bytes, kwUnwrap wk data = some key →
                 (key.length ≠ 16 → key.length ≠ 32 → recorded 1 dest 0) ∧
                 (key.length = 16 ∨ key.length = 32 → badUsage usage key.length = false →
                   puts 1 dest (putKek dest .persistent usage (freeKeyId s.dev).1 key (freeKeyId s.dev).2)))))) ∧
         ((openBlob wk wrapSlot data = none → recorded 0 destTicket (beAt data 12 4)) ∧
          (∀ (key : Bytes) (use kid : Nat), openBlob wk wrapSlot data = some (0, key, use, kid) →
            (key.length ≠ 16 → key.length ≠ 32 → answers 0 destTicket stBAD_USAGE) ∧
            (key.length = 16 ∨ key.length = 32 → ticketed 0 key)) ∧
          (∀ key : Bytes, kwUnwrap wk data = some key → (key.length = 16 ∨ key.length = 32) → ticketed 1 key)) ∧
         (∀ dest n : Nat, destLpk dest = some n →
           (lpkFree n s.dev = false → answers 0 dest stBAD_SLOT) ∧ answers 1 dest stBAD_SLOT ∧
           (lpkFree n s.dev = true →
             (openBlob wk wrapSlot data = none → recorded 0 dest (beAt data 12 4)) ∧
             (∀ (key : Bytes) (use kid : Nat), openBlob wk wrapSlot data = some (0, key, use, kid) → answers 0 dest stBAD_SLOT) ∧
             (∀ (key : Bytes) (use kid : Nat), openBlob wk wrapSlot data = some (1, key, use, kid) →
               puts 0 dest (s.dev.updLpk n (fun _ => { valid := true, type := 3, keyId := kid, key := key }))))))))

/-- The nine LAT commands, LAT_COMMAND_COMPLETE: a command joins the queue of 256 behind the ones that wait, or is refused. Commands start in submission order and
may end in any order: one that starts takes the private key that a LAT_DECAP or LAT_ECDH names, which is cleared then, whatever becomes of the
command, and finds its destination claimed or not; the one that ends, and every one before it, has started; it leaves the queue and takes its
effect, each of the nine its own, or answers MEM_FAULT when its operands could not be read, or BAD_SLOT when it found no private key; LPK1 signs
no message (07 R187, R198, R199). SCE_CLAIM,
SCE_RELEASE, SCE_FORCE, SCE_LEASE_EXPIRY, SCE_JOB, SCE_JOB_COMPLETE: a free lock goes to the claimer and its GEN counts; only the owner
releases, the host and supervisor code force, and a store of task level raises BUSSTORE; a job starts for the owner alone, with its key in
the engine's key register; it writes its output only when its tag verifies (07 R184, R200 to R203, 16 R446). MODEL'S CHOICE: the published
functions are uninterpreted (log entry 7), and the readings of SCE_LOCK are log entry 30's. -/
def Obligations.KeyEngines : Prop :=
  (∀ s : State, Powered s →
     let queued := fun (b : Sub) (row : Instr) (c : LatCmd) =>
       (keyBadMode (subReq b) false (latAlien c) s.dev = true → Runs row s (complete b engLat stBAD_MODE [] s.dev)) ∧
       (keyBadMode (subReq b) false (latAlien c) s.dev = false →
        (s.dev.keys.latQueue.length < 256 → Runs row s { s.dev with keys := { s.dev.keys with latQueue := s.dev.keys.latQueue ++ [c] } }) ∧
        (256 ≤ s.dev.keys.latQueue.length → Runs row s (complete b engLat stBUSY [] s.dev)))
     (∀ (b : Sub) (x y z : Nat) (u v w : Bytes),
       queued b (.latKemkeygen b x y) ⟨b, 0x0280, [x, y], [], false, none⟩ ∧ queued b (.latEncap b u x y) ⟨b, 0x0281, [x, y], [u], false, none⟩ ∧
       queued b (.latDecap b x u y) ⟨b, 0x0282, [x, y], [u], false, none⟩ ∧ queued b (.latSign b x u y) ⟨b, 0x0283, [x, y], [u], false, none⟩ ∧
       queued b (.latVerify b u v w) ⟨b, 0x0284, [], [u, v, w], false, none⟩ ∧ queued b (.latPubkey b x y) ⟨b, 0x0285, [x, y], [], false, none⟩ ∧
       queued b (.latEckeygen b x y) ⟨b, 0x0286, [x, y], [], false, none⟩ ∧ queued b (.latEcdh b x u y) ⟨b, 0x0287, [x, y], [u], false, none⟩ ∧
       queued b (.latHash b u x y z) ⟨b, 0x0288, [x, y, z], [u], false, none⟩) ∧
     (∀ (i : Nat) (c : LatCmd), s.dev.keys.latQueue[i]? = some c →
       (c.run.isSome = true → latStart i s.dev = s.dev) ∧
       (c.run = none →
         let claimed := (s.dev.keys.latQueue.take i).any (fun e => c.dest.isSome && e.dest == c.dest && !e.fault && !e.clash)
         let d := if (c.code = 0x0282 ∧ lpkIs (c.arg 0) 1 s.dev = true) ∨ (c.code = 0x0287 ∧ lpkIs (c.arg 0) 2 s.dev = true)
           then clearLpk (c.arg 0) s.dev else s.dev
         latStart i s.dev = { d with keys := { d.keys with
           latQueue := s.dev.keys.latQueue.set i { c with run := some ⟨s.dev.getLpk (c.arg 0), claimed⟩ } } })) ∧
     (∀ (n : Nat) (c : LatCmd), let e := latStartTo n s.dev
       e.keys.latQueue[n]? = some c →
       let d : Dev := { e with keys := { e.keys with latQueue := e.keys.latQueue.eraseIdx n } }
       (c.fault = true → Runs (.latCommandComplete n) s (complete c.sub engLat stMEM_FAULT [] d)) ∧
       (c.fault = false → c.code = 0x0280 → c.clash = false → rngBad e = false → noKwr e = false → lpkFree (c.arg 0) e = true →
         let r := freeBytes 64 d
         Runs (.latCommandComplete n) s (latOut c (c.arg 1) (fit 1568 (Config.mlkemEk r.1)) (putPrivate (c.arg 0) 1 r.1) r.2)) ∧
       (c.fault = false → c.code = 0x0281 → c.clash = false → rngBad e = false → noKwr e = false → kekFree (c.arg 0) e = true →
         (c.dat 0).length = 1568 → Config.mlkemEkOk (c.dat 0) = true →
         let r := freeBytes 32 d
         Runs (.latCommandComplete n) s (latOut c (c.arg 1) (fit 1568 (Config.mlkemCt (c.dat 0) r.1))
           (putSecret (c.arg 0) (fit 32 (Config.mlkemSs (c.dat 0) r.1))) r.2)) ∧
       (∀ key : Bytes, c.fault = false → c.code = 0x0282 → c.clash = false → noKwr e = false → c.held 1 = some key →
         kekFree (c.arg 1) e = true → (c.dat 0).length = 1568 →
         Runs (.latCommandComplete n) s (complete c.sub engLat stOK []
           (putSecret (c.arg 1) (fit 32 (Config.mlkemDecap key (c.dat 0))) d))) ∧
       (c.fault = false → noKwr e = false → (c.code = 0x0282 ∧ c.held 1 = none ∨ c.code = 0x0287 ∧ c.held 2 = none) →
         Runs (.latCommandComplete n) s (complete c.sub engLat stBAD_SLOT [] d)) ∧
       (c.fault = false → c.code = 0x0283 → rngBad e = false → lpkIs (c.arg 0) 3 e = true → c.arg 0 = 1 →
         Runs (.latCommandComplete n) s (complete c.sub engLat stBAD_USAGE [] d)) ∧
       (c.fault = false → c.code = 0x0283 → rngBad e = false → lpkIs (c.arg 0) 3 e = true → c.arg 0 ≠ 1 → (c.dat 0).length ≤ 65536 →
         let r := freeBytes 32 d
         Runs (.latCommandComplete n) s
           (latOut c (c.arg 1) (fit 3309 (Config.mldsaSign (e.getLpk (c.arg 0)).key (c.dat 0) r.1)) id r.2)) ∧
       (c.fault = false → c.code = 0x0284 → (c.dat 1).length ≤ 65536 →
         Runs (.latCommandComplete n) s (complete c.sub engLat stOK [Config.verifyCode ((c.dat 0).length == 1952 &&
           (c.dat 2).length == 3309 && Config.mldsaVerify (c.dat 0) (c.dat 1) (c.dat 2))] d)) ∧
       (c.fault = false → c.code = 0x0285 → lpkIs (c.arg 0) 3 e = true →
         Runs (.latCommandComplete n) s (latOut c (c.arg 1) (fit 1952 (Config.mldsaPk (e.getLpk (c.arg 0)).key)) id d)) ∧
       (c.fault = false → c.code = 0x0286 → c.clash = false → rngBad e = false → noKwr e = false → lpkFree (c.arg 0) e = true →
         let r := freeBytes 48 d
         Runs (.latCommandComplete n) s (latOut c (c.arg 1) (fit 97 (Config.p384Pub r.1)) (putPrivate (c.arg 0) 2 r.1) r.2)) ∧
       (∀ key : Bytes, c.fault = false → c.code = 0x0287 → c.clash = false → noKwr e = false → c.held 2 = some key → kekFree (c.arg 1) e = true →
         (c.dat 0).length = 97 → Config.p384Ok (c.dat 0) = true →
         Runs (.latCommandComplete n) s (complete c.sub engLat stOK []
           (putSecret (c.arg 1) (fit 48 (Config.p384Ecdh key (c.dat 0))) d))) ∧
       (c.fault = false → c.code = 0x0288 → c.arg 0 ≤ 3 → (c.arg 0 = 0 → 1 ≤ c.arg 1 ∧ c.arg 1 ≤ 256) → (c.dat 0).length ≤ 2 ^ 20 →
         Runs (.latCommandComplete n) s (latOut c (c.arg 2) (match c.arg 0 with
           | 0 => shake256 (c.dat 0) (c.arg 1) | 1 => sha3_256 (c.dat 0) | 2 => sha3_384 (c.dat 0) | _ => sha3_512 (c.dat 0)) id d)))) ∧
  (∀ s : State, Powered s →
     (∀ r : Nat, regsShut s.dev = false → (s.dev.keys.sceOwner = 0 → Runs (.sceClaim r) s
         { s.dev with keys := { s.dev.keys with sceOwner := r, sceGen := (s.dev.keys.sceGen + 1) % 65536 } }) ∧
       (s.dev.keys.sceOwner ≠ 0 → Runs (.sceClaim r) s s.dev) ∧
       (s.dev.keys.sceOwner = r → Runs (.sceRelease r) s (Machine.sceRelease 0 s.dev)) ∧
       (s.dev.keys.sceOwner ≠ r → Runs (.sceRelease r) s s.dev)) ∧
     (regsShut s.dev = false → Runs (.sceForce reqHost) s (Machine.sceRelease 4 s.dev)) ∧
     (∀ c : Nat, c < 64 → regsShut s.dev = false →
       ((s.dev.getCore c).status.getLsbD 0 = true → Runs (.sceForce (reqCore c)) s (Machine.sceRelease 4 s.dev)) ∧
       ((s.dev.getCore c).status.getLsbD 0 = false → Runs (.sceForce (reqCore c)) s (taskStore (reqCore c) 0x1D0000 s.dev))) ∧
     (s.dev.keys.sceJob = none → Runs .sceLeaseExpiry s (Machine.sceRelease 1 s.dev)) ∧
     (∀ j : SceJob, s.dev.keys.sceJob = some j → Runs .sceLeaseExpiry s s.dev) ∧
     (∀ (b : Sub) (job : Bytes), let j := sceJobOf b job
       (ownsSce (subReq b) s.dev = false → Runs (.sceJob b job) s
         (complete b engSce stNOT_OWNER [] { s.dev with keys := { s.dev.keys with sceLast := 3 } })) ∧
       (ownsSce (subReq b) s.dev = true → s.dev.keys.sceJob = none →
         (badJob j s.dev = true → Runs (.sceJob b job) s (complete b engSce stBAD_JOB [] { s.dev with keys := { s.dev.keys with sceLast := 2 } })) ∧
         (badJob j s.dev = false → Runs (.sceJob b job) s
           { s.dev with keys := { s.dev.keys with sceJob := some j, sceKey := (s.dev.getKek j.keySlot).key, sceHeld := j.aead && j.op == 1 } }))) ∧
     (∀ (j : SceJob) (p aad tag : Bytes) (d1 d2 d3 : Dev), s.dev.keys.sceJob = some j →
       sceRead j j.src j.len s.dev = (some p, d1) → sceRead j j.aadAdr (if j.aead = true then j.aadLen else 0) d1 = (some aad, d2) →
       sceRead j (j.src + j.len) (if (j.aead && j.op == 1) = true then j.tagLen else 0) d2 = (some tag, d3) →
       let r := sceOutput j s.dev.keys.sceKey p aad tag
       (r = none → Runs .sceJobComplete s (sceEnd j stTAG_FAIL 1 d3)) ∧
       (∀ (out : Bytes) (d4 : Dev), r = some out → 0x40000 ≤ j.dst → engWrite j.requester j.dst out d3 = (true, d4) →
         Runs .sceJobComplete s (sceEnd j stOK 0 d4))))

/-- The seven PKX messages and PKX_FRAGMENT_TIMEOUT: a message of one fragment acts on its session at once, by its code; a fragment of
several waits with its parts; a message of another major version, but for HELLO and ABORT, fails its session; fragments that time out are
discarded (07 R204, R208). OSF runs the sessions, as log entry 19 says. T_RETX, T_SESSION, T_CK, T_OVERLAP, T_BACKOFF, MKPDU_RECEIVE, MKA_HELLO_TIME, MKA_LIFE_TIME:
the last message goes out again at most four times; a session that is not established in time fails; a new session of the same groups
starts beside an established one, whose overlap ends with its slots and its SAs; a failed one is idle again after its wait, and an
initiator starts anew; an MKPDU whose ICV verifies takes the peer, or counts a third one; OSF's own carries its ICV; both take a grant of the
service cipher for the ICV, and wait while it is not free; the life time ends a peer (07 R203, R207, R212 to R214). OSF runs both, as log
entries 19 and 20 say. -/
def Obligations.KeyAgreement : Prop :=
  (∀ s : State, Powered s → ∀ (p : Nat) (hdr body : Bytes),
     hdr.length = 20 → beAt hdr 0 4 = 0x4F56504B → beAt hdr 6 2 ≠ 0 → beAt hdr 6 2 ≤ 16364 →
     ((∀ f ∈ s.dev.keys.pkxFrags, f.port = p → f.session ≠ beAt hdr 8 8) →
       let taken := fun (code : Nat) => code = 1 ∨ code = 7 ∨ byteAt hdr 4 / 16 = 1
       let one := fun (code : Nat) (row : Instr) => taken code → byteAt hdr 5 = code → byteAt hdr 16 = 0 → byteAt hdr 17 = 1 → body.length = beAt hdr 6 2 →
         Runs row s (pkxMessage p code (beAt hdr 8 8) body s.dev)
       let more := fun (code : Nat) (row : Instr) => taken code → byteAt hdr 5 = code → byteAt hdr 16 < byteAt hdr 17 → 2 ≤ byteAt hdr 17 → byteAt hdr 17 ≤ 12 → body ≠ [] →
         Runs row s { s.dev with keys := { s.dev.keys with pkxFrags :=
           s.dev.keys.pkxFrags ++ [⟨p, beAt hdr 8 8, code, beAt hdr 6 2, byteAt hdr 17, Tab.set [] [] (byteAt hdr 16) body⟩] } }
       (one 1 (.pkxHello p hdr body) ∧ one 2 (.pkxReply p hdr body) ∧ one 3 (.pkxConfirm p hdr body) ∧ one 4 (.pkxFinish p hdr body) ∧
        one 5 (.pkxKeynote p hdr body) ∧ one 6 (.pkxKeyack p hdr body) ∧ one 7 (.pkxAbort p hdr body)) ∧
       (more 1 (.pkxHello p hdr body) ∧ more 2 (.pkxReply p hdr body) ∧ more 3 (.pkxConfirm p hdr body) ∧ more 4 (.pkxFinish p hdr body) ∧
        more 5 (.pkxKeynote p hdr body) ∧ more 6 (.pkxKeyack p hdr body) ∧ more 7 (.pkxAbort p hdr body))) ∧
     (byteAt hdr 4 / 16 ≠ 1 → byteAt hdr 16 < byteAt hdr 17 → byteAt hdr 17 ≤ 12 →
       let fails := fun (code : Nat) (row : Instr) => byteAt hdr 5 = code → ∀ n : Nat, pkxFind p (beAt hdr 8 8) s.dev = some n → Runs row s (pkxFail n 1 s.dev)
       fails 2 (.pkxReply p hdr body) ∧ fails 3 (.pkxConfirm p hdr body) ∧ fails 4 (.pkxFinish p hdr body) ∧
       fails 5 (.pkxKeynote p hdr body) ∧ fails 6 (.pkxKeyack p hdr body)) ∧
     (∀ session : Nat, Runs (.pkxFragmentTimeout p session) s { s.dev with keys := { s.dev.keys with
       pkxFrags := s.dev.keys.pkxFrags.filter (fun f => !(f.port == p && f.session == session)) } })) ∧
  (∀ s : State, Powered s → ∀ n : Nat, let x := getPkx n s.dev
     (x.state = .helloSent → x.retx < 4 → Runs (.tRetx n) s
       (pkxSend x.port x.lastCode x.session x.lastMsg (updPkx n (fun s => { s with retx := s.retx + 1 }) s.dev))) ∧
     (4 ≤ x.retx → Runs (.tRetx n) s s.dev) ∧
     ((x.state = .helloSent ∨ x.state = .replySent ∨ x.state = .confirmSent) → Runs (.tSession n) s (pkxFail n 5 s.dev)) ∧
     (x.state = .established → Runs (.tSession n) s s.dev ∧ Runs (.tCk n) s (pkxStart (pkxNew s.dev) (updPkx (pkxNew s.dev)
       (fun _ => { port := x.port, hybrid := x.hybrid, peerSerial := x.peerSerial, peerKeyId := x.peerKeyId, groups := x.groups, replaces := some n }) s.dev))) ∧
     ((∃ e ∈ s.dev.keys.pkx, e.2.replaces = some n ∧ e.2.state = .established) →
       let d := each (s.dev.keys.osfSas.filter (fun s => s.session == some n)) osfEnd s.dev
       Runs (.tOverlap n) s (updPkx n (fun _ => {}) (pkxClear n
         (d.updKeys (fun k => { k with osfSas := k.osfSas.filter (fun s => s.session != some n) }))))) ∧
     ((∀ e ∈ s.dev.keys.pkx, e.2.replaces = some n → e.2.state ≠ .established) → Runs (.tOverlap n) s s.dev) ∧
     (x.state = .failed →
       (x.initiator = false → Runs (.tBackoff n) s (updPkx n (fun s => { s with state := .idle }) s.dev)) ∧
       (x.initiator = true → Runs (.tBackoff n) s (pkxStart n (updPkx n (fun s => { s with state := .idle }) s.dev)))) ∧
     (∀ c : MkaCa, getMka n s.dev = some c →
       Runs (.mkaLifeTime n) s (setMka n { c with peerId := none, peerMn := 0, peerPriority := 0, peerSci := 0, keyServer := false } s.dev) ∧
       (sceFree s.dev = false → Runs (.mkaHelloTime n) s (mkaLater (.hello n) s.dev) ∧
         (∀ (version priority sci : Nat) (rest icv : Bytes), Runs (.mkpduReceive n version priority sci rest icv) s
           (mkaLater (.received n (be 1 version ++ be 1 priority ++ be 8 sci ++ rest) icv) s.dev))) ∧
       (sceFree s.dev = true → mkaOff s.dev = true → Runs (.mkaHelloTime n) s s.dev ∧
         (∀ (version priority sci : Nat) (rest icv : Bytes), Runs (.mkpduReceive n version priority sci rest icv) s s.dev)) ∧
       (sceFree s.dev = true → mkaOff s.dev = false →
         let usable := fun (d : Dev) => (d.getKek c.ick).valid && bitAt (d.getKek c.ick).usage uSCE
         let jobs := fun (d : Dev) => d.updKeys (fun k => { k with sceGen := (k.sceGen + 1) % 65536, sceLast := if usable d then 0 else 2 })
         (∀ (version priority sci : Nat) (rest icv : Bytes) (x : Mkpdu), let body := be 1 version ++ be 1 priority ++ be 8 sci ++ rest
           mkpduOf body = some x → let k := mkaKeys c s.dev
           let d := jobs k
           ((usable k = false ∨ cmac (k.getKek c.ick).key body ≠ icv) → Runs (.mkpduReceive n version priority sci rest icv) s d) ∧
           (usable k = true → cmac (k.getKek c.ick).key body = icv →
             (∀ m : Nat, c.peerId = some m → m ≠ x.memberId → Runs (.mkpduReceive n version priority sci rest icv) s (setMka n { c with third := c.third + 1 } d)) ∧
             (c.peerId = some x.memberId → x.mn ≤ c.peerMn → Runs (.mkpduReceive n version priority sci rest icv) s d) ∧
             ((c.peerId = none ∨ (c.peerId = some x.memberId ∧ c.peerMn < x.mn)) →
               Runs (.mkpduReceive n version priority sci rest icv) s (mkaPeer n c x d)))) ∧
         (let c' := { c with mn := c.mn + 1 }
          let d := mkaKeys c' (setMka n c' s.dev)
          let r := freeBytes 6 d
          let body := (mkpduOwn c' d).bytes
          (usable r.2 = true → Runs (.mkaHelloTime n) s (osfSend c.port (mkaFrame r.1 body (cmac (r.2.getKek c.ick).key body)) (jobs r.2))) ∧
          (usable r.2 = false → Runs (.mkaHelloTime n) s (jobs r.2))))))

/-- PAIR_FORM, PARTNER_DIGEST, MISMATCH: a pair forms only with the device that TWN_PARTNER names, between a lead and a shadow of different
sides and equal versions whose path A is up, and is otherwise refused with its reason, in the order of the rule; a partner digest waits
for comparison, one of the numbering before a resynchronisation is none; a mismatch notice diverges the port, and a slice fault of the partner
stops the comparison, as a slice that is down does when the pair forms; a join judges the slices anew (09 R236, R245, R261, 15 R420).
RESYNC_OFFSET_REPORT, TWN_RESYNC, RESYNC_STATE, RESYNC_GIVEUP, JOIN_STATE_STREAM: the shadow reports the one offset of a hunting port;
the lead queues the command for the next record, and the shadow shifts the port's boundary; the lead's state is kept until the boundary;
a shadow for which a cause of R250 holds gives up, fences every port, leaves the session and offers itself anew; the lead sends its state
in RESYNC frames, and a shadow that has joined ignores it (09 R249, R250, R252). MODEL'S CHOICE: the layouts of the messages (log entry 16);
the rows carry the partner's fields (log entry 37); the index from which the lead compares again (log entry 72); a port whose slice is down
stays unfenced by a join (log entry 74). -/
def Obligations.TwinPairs : Prop :=
  (∀ s : State, Powered s →
     (pairMode s.dev = 1 → (s.dev.twn.pair ≠ 1 ∨ s.dev.mod.mode = .lead) → ∀ serial side dpver role : Nat,
       (serial ≠ s.dev.twn.partner → Runs (.pairForm ⟨serial, side⟩ dpver role) s s.dev) ∧
       (serial = s.dev.twn.partner →
         (dpver ≠ dpVer →
           Runs (.pairForm ⟨serial, side⟩ dpver role) s (pairRefused 2 (twnSet (fun t => { t with pdpVer := dpver }) s.dev))) ∧
         (dpver = dpVer → side = ownSide s.dev → Runs (.pairForm ⟨serial, side⟩ dpver role) s (pairRefused 1 s.dev)) ∧
         (dpver = dpVer → side ≠ ownSide s.dev →
           let fits := (s.dev.mod.mode = .lead ∧ role = 1) ∨ (s.dev.mod.mode = .shadow ∧ role = 0)
           ((s.dev.getHp 6).state = 4 → Runs (.pairForm ⟨serial, side⟩ dpver role) s (pairRefused 3 s.dev)) ∧
           ((s.dev.getHp 6).state ≠ 4 → ¬fits → Runs (.pairForm ⟨serial, side⟩ dpver role) s (pairRefused 4 s.dev)) ∧
           ((s.dev.getHp 6).state ≠ 4 → (s.dev.getHp 6).state ≠ 3 → fits → Runs (.pairForm ⟨serial, side⟩ dpver role) s s.dev) ∧
           ((s.dev.getHp 6).state = 3 → fits →
             let lead := s.dev.mod.mode == .lead
             let again := s.dev.twn.pair == 1
             let d := twnSet (fun t => { t with
               pair := 1, primacy := t.primacy || lead, pdpVer := dpver, rseqFree := !lead, joined := false, rejoin := !lead
               partnerNode := some (s.dev.getHp 6).nbr })
               { s.dev with tck := { s.dev.tck with recq := if s.dev.tck.stopped = true then [] else s.dev.tck.recq } }
             Runs (.pairForm ⟨serial, side⟩ dpver role) s (sliceNotices (each (enabledPorts d) (fun p d => d.updTwn p (fun t => { t with
               hunt := t.hunt || lead, sliceFault := portSliceDown d p || (again && t.sliceFault), noticed := false
               waiting := if lead = true then [] else t.waiting })) d)))))) ∧
     (paired s.dev = true → ∀ p first : Nat,
       (∀ (count : Nat) (digest : Bytes), s.dev.mod.mode = .lead → notCompared p s.dev = false → comparedFrom p first s.dev ≤ first →
         (s.dev.getTwn p).waiting.length < 1024 → Runs (.partnerDigest p first count digest []) s
           (settleWaiting p (s.dev.updTwn p (fun t => { t with waiting := t.waiting ++ [⟨first, count, digest⟩] })))) ∧
       (∀ (count : Nat) (digest : Bytes), s.dev.mod.mode = .lead → first < comparedFrom p first s.dev →
         Runs (.partnerDigest p first count digest []) s s.dev) ∧
       (∀ (count : Nat) (digest : Bytes) (fps : List Nat), s.dev.mod.mode = .shadow → portFenced s.dev p = true → (s.dev.getTwn p).sliceFault = false →
         let new := ((List.range fps.length).map (fun i => (first + i, nth 0 fps i))).filter (fun e => !(s.dev.getTwn p).leadFp.any (fun x => x.1 == e.1))
         Runs (.partnerDigest p first count digest fps) s (s.dev.updTwn p (fun t => { t with leadFp := (new.reverse ++ t.leadFp).take 4096 }))) ∧
       Runs (.mismatch p first true) s (s.dev.updTwn p (fun t => { t with sliceFault := true, noticed := true, waiting := [] })) ∧
       (notCompared p s.dev = true → Runs (.mismatch p first false) s s.dev) ∧
       (notCompared p s.dev = false → Runs (.mismatch p first false) s
         (let d := event 0x0901 3 (be 1 p ++ be 6 first) (twnCount 0 s.dev)
          if d.mod.mode = .shadow then noteDiverged p (d.updTwn p (fun t => { t with state := 2, waiting := [] }))
          else d.updTwn p (fun t => { t with hunt := true, waiting := [] }))))) ∧
  (∀ s : State, Powered s → paired s.dev = true → ∀ p : Nat,
     (s.dev.mod.mode = .shadow →
       (∀ o : Int, (s.dev.getTwn p).state = 2 → slotPort s.dev.tab p = false →
         fpOffsets ((s.dev.getTwn p).hashes.map (fun e => (e.1, e.2 / 2 ^ 32))) (s.dev.getTwn p).leadFp = [o] →
         Runs (.resyncOffsetReport p) s ((twinSend 8 (offsetMsg p o) s.dev).updTwn p (fun t => { t with state := 3 }))) ∧
       ((s.dev.getTwn p).state = 2 → slotPort s.dev.tab p = true →
         Runs (.resyncOffsetReport p) s ((twinSend 8 (offsetMsg p 0) s.dev).updTwn p (fun t => { t with state := 3 }))) ∧
       (∀ o : Int, Runs (.twnResync p o) s (settlePort p (applyResync p o s.dev))) ∧
       (∀ (o : Int) (k : Nat) (l : List (Nat × Nat × Nat)), (s.dev.getTwn p).resync = some (o, k) →
         Runs (.resyncState p l) s (settlePort p (s.dev.updTwn p (fun t => { t with resyncSt := some l })))) ∧
       (∀ reason : Nat,
         (giveUpCause p reason s.dev = false → Runs (.resyncGiveup p reason) s s.dev) ∧
         (giveUpCause p reason s.dev = true → Runs (.resyncGiveup p reason) s (offerPair (twnSet (fun t => { t with pair := 0, diverged := [] })
           (unjoin (each (List.range 64) (fun n d => d.updTwn n (fun t => { t with state := 1, resync := none, resyncSt := none, resyncPart := [], waiting := [] }))
             (event 0x0903 3 (be 1 p ++ be 1 reason) (twnCount 3 s.dev)))))))) ∧
       (∀ (t : Tables) (live : Tab SaLive) (ch : Tab ChanLive) (win : Tab Win) (tck : Tab TckPort) (acts : Tab (Bool × Bool)),
         (s.dev.twn.joined = true → Runs (.joinStateStream t ⟨live, ch, win⟩ tck acts) s s.dev) ∧
         (s.dev.twn.joined = false → t.sa = [] → s.dev.tab.sa = [] →
           let d := updateCsfAll (each (List.range 64) updateLos (joinDone (joinActs acts (joinStarts s.dev.tab (joinTables t [] s.dev.sas.live ch win
             (joinStops t (each (List.range 64) (joinPort t tck) s.dev)))))))
           Runs (.joinStateStream t ⟨live, ch, win⟩ tck acts) s
             (each (enabledPorts d) (fun p d => d.updTwn p (fun x => { x with state := if x.sliceFault then 0 else 2 })) (spareSlices d))) ∧
         (s.dev.twn.joined = false → Runs (.joinStateStream t ⟨live, ch, win⟩ tck acts) s (joinState t live ch win tck acts s.dev)))) ∧
     (s.dev.mod.mode = .lead →
       (s.dev.tck.gate.length < 4096 → ∀ o : Int,
         Runs (.twnResync p o) s { s.dev with tck := { s.dev.tck with gate := s.dev.tck.gate ++ [⟨⟨.lead, 0, 0, 0⟩,
           { code := codeResync, shadowOnly := false, nbt := none, nlt := none, p0 := p, p1 := twos 64 o, p2 := 0, p3 := 0, p4 := 0, image := [] }⟩] } }) ∧
       (∀ (t : Tables) (live : Tab SaLive) (ch : Tab ChanLive) (win : Tab Win) (tck : Tab TckPort) (acts : Tab (Bool × Bool)),
         Runs (.joinStateStream t ⟨live, ch, win⟩ tck acts) s
           (each (resyncParts 4 5 [] (Config.joinBytes (joinOffer (spareSlices s.dev)))) (twinSend 8) (spareSlices s.dev)))))

/-- HEARTBEAT_SEND, HEARTBEAT, HEARTBEATS_LOST_ON_ONE_PATH, SHADOW_COAST, TAKEOVER, LEAD_LEASE_LAPSE, each answering the next state of its
own effect: a heartbeat leaves on each path; one of the partner restores its path, is contact, and carries or ends the evidence of a
departure; a primacy that meets a taken-over partner splits, and a split lead without primacy rejoins, whatever role the partner names; a lost path is recorded; a coasting shadow
raises its ports; a takeover makes the shadow the lead with its primacy and its record; a lease that lapses with partner-gone evidence
leaves the lead alone, and without it ends the primacy and fences every port (09 R254 to R257). HB_FRAME_SEND, HB_FRAME, STANDBY_TAKEOVER,
ACTIVE_ACK_TIMEOUT, FENCED_SOLO_TIMEOUT: the heartbeat pairing of SOLO devices: a frame to each heartbeat port, the election by priority
and then serial number, and who transmits after a silence (09 R259 to R261). MODEL'S CHOICE: the partner's fields arrive parsed (log entry 37),
and a rejoin enters SHADOW with REASON 9 (log entry 59). -/
def Obligations.Primacies : Prop :=
  (∀ s : State, Powered s →
     let runs := fun (i : Instr) (d : Dev) => Sys2Proof.Machine.exec i s = .next { s with dev := d }
     (isTwin s.dev = true → (s.dev.twn.pair = 1 ∨ s.dev.twn.pair = 3) →
       let e : Dev := { s.dev with twn := { s.dev.twn with hbSeq := s.dev.twn.hbSeq + 1 } }
       let a := pathSend (some (6, (e.getHp 6).nbr)) 3 0 (heartbeatMsg false e) e
       runs .heartbeatSend (pathSend (pathB a) 3 0 (heartbeatMsg false a) a)) ∧
     (∀ (path serial side dpver role seq ack : Nat) (depart : Bool), isTwin s.dev = true →
       (serial ≠ s.dev.twn.partner → runs (.heartbeat path serial side dpver role seq ack depart) s.dev) ∧
       (serial = s.dev.twn.partner →
         let d := twnSet (fun t => { t with
           pathA := t.pathA || path == 0, pathB := t.pathB || path == 1, hbRx := seq, contact := !depart
           evDepart := depart, evNbr := t.evNbr && depart }) s.dev
         (s.dev.mod.mode ≠ .lead → runs (.heartbeat path serial side dpver role seq ack depart) d) ∧
         (s.dev.mod.mode = .lead → s.dev.twn.primacy = true →
           (role = 2 → runs (.heartbeat path serial side dpver role seq ack depart) (splitLead d)) ∧
           (role ≠ 2 → runs (.heartbeat path serial side dpver role seq ack depart) d)) ∧
         (s.dev.mod.mode = .lead → s.dev.twn.primacy = false →
           (s.dev.twn.split = true → depart = false → runs (.heartbeat path serial side dpver role seq ack depart) (rejoin d)) ∧
           ((s.dev.twn.split = false ∨ depart = true) → runs (.heartbeat path serial side dpver role seq ack depart) d)))) ∧
     (isTwin s.dev = true →
       (s.dev.twn.pathA = true → runs (.heartbeatsLostOnOnePath 0) (event 0x0906 2 (be 1 0) (twnSet (fun t => { t with pathA := false }) s.dev))) ∧
       (s.dev.twn.pathB = true → runs (.heartbeatsLostOnOnePath 1) (event 0x0906 2 (be 1 1) (twnSet (fun t => { t with pathB := false }) s.dev)))) ∧
     (s.dev.mod.mode = .shadow → s.dev.twn.pair = 1 → s.dev.tck.stopped = false →
       runs .shadowCoast (raiseAll (twnSet (fun t => { t with coast := true }) s.dev))) ∧
     (∀ evidence : Bool, s.dev.mod.mode = .shadow → s.dev.twn.pair = 1 →
       (evidence = true → partnerGone s.dev = false → runs (.takeover evidence) s.dev) ∧
       ((evidence = true → partnerGone s.dev = true) →
         let d := twnSet (fun t => { t with
           tookOver := true, primacy := true, coast := false, contact := false, pair := if evidence = true then 3 else t.pair
           recBuf := [], recEseq := none }) (enterMode .lead 9 s.dev)
         let e := doHeartbeatSend (event 0x0904 3 (be 1 (if evidence = true then 2 else 1)) (twnCount 4 { d with tck := { d.tck with recq := [] } }))
         runs (.takeover evidence) e ∧ e.mod.mode = .lead ∧ e.mod.reason = 9 ∧ e.twn.primacy = true ∧ e.twn.tookOver = true ∧ e.tck.recq = [])) ∧
     (s.dev.mod.mode = .lead → s.dev.twn.pair = 1 → s.dev.twn.primacy = true →
       ((s.dev.twn.tookOver = true ∧ s.dev.twn.contact = false) → ∀ evidence : Bool, runs (.leadLeaseLapse evidence) s.dev) ∧
       (¬(s.dev.twn.tookOver = true ∧ s.dev.twn.contact = false) →
         (partnerGone s.dev = true → runs (.leadLeaseLapse true) (twnSet (fun t => { t with pair := 3 }) s.dev) ∧ runs (.leadLeaseLapse false) s.dev) ∧
         (partnerGone s.dev = false → runs (.leadLeaseLapse true) s.dev ∧ runs (.leadLeaseLapse false) (event 0x0905 3 (be 8 s.dev.twn.partner)
           (twnSet (fun t => { t with primacy := false, split := true }) (fenceAll s.dev))))))) ∧
  (∀ s : State, Powered s → hbOn s.dev = true →
     let runs := fun (i : Instr) (d : Dev) => Sys2Proof.Machine.exec i s = .next { s with dev := d }
     let first := s.dev.twn.hbFirst
     let active := s.dev.twn.hbActive
     let e : Dev := { s.dev with twn := { s.dev.twn with hbFrSeq := s.dev.twn.hbFrSeq + 1 } }
     let r := freeBytes 6 e
     let role := if s.dev.twn.hbTaking = true then 3 else if active = true then 1 else 2
     let frame := be 6 0x035A0C000001 ++ r.1 ++ be 2 0x88B6 ++ hbPayload role e
     (∀ (p q : Nat) (l : List Nat) (d1 : Dev), hbPorts s.dev = [p] → s.dev.twn.hbTaking = false → osfQueue none p r.2 = some q →
       (r.2.getInj q).frames.length < 2 ^ fld (r.2.getInj q).cfg 11 8 → takeCells (0xA0 + q) 1 r.2 = (some l, d1) →
       runs .hbFrameSend (twnSet (fun t => { t with hbTaking := false }) (d1.updInj q (fun g => { g with frames := g.frames ++ [⟨frame, l⟩] })))) ∧
     runs .hbFrameSend (twnSet (fun t => { t with hbTaking := false }) (each (hbPorts s.dev) (fun p => osfSend p frame) r.2)) ∧
     (∀ b : Bytes, 46 ≤ b.length → beAt b 0 2 = 0x4842 → byteAt b 2 = 2 →
       let wins := decide (fld s.dev.twn.hbCfg 23 16 > byteAt b 4) || (fld s.dev.twn.hbCfg 23 16 == byteAt b 4 && decide (s.dev.mod.fuses.serial < beAt b 14 8))
       let d := twnSet (fun t => { t with hbFrRx := beAt b 6 4 }) s.dev
       (first = false → byteAt b 3 ≠ 4 → runs (.hbFrame b) (hbRoleSet wins (twnSet (fun t => { t with pair := 2, hbFirst := true }) d))) ∧
       (first = true → byteAt b 3 ≠ 4 → runs (.hbFrame b) d) ∧
       (first = true → byteAt b 3 = 4 → active = false → runs (.hbFrame b) (twnSet (fun t => { t with hbTaking := true }) (hbRoleSet true d)))) ∧
     (first = true → active = false → runs .standbyTakeover (twnSet (fun t => { t with hbTaking := true }) (hbRoleSet true s.dev))) ∧
     ((first = false ∨ active = true) → runs .standbyTakeover s.dev) ∧
     (let los := (s.dev.getPort (fld s.dev.twn.hbCfg 5 0)).los = true ∧ (s.dev.getPort (fld s.dev.twn.hbCfg 13 8)).los = true
      (first = true → active = true → ¬los → runs .activeAckTimeout (hbRoleSet false s.dev)) ∧
      ((first = false ∨ active = false ∨ los) → runs .activeAckTimeout s.dev)) ∧
     (first = false → active = false → runs .fencedSoloTimeout (twnSet (fun t => { t with hbTaking := true }) (hbRoleSet true s.dev))) ∧
     ((first = true ∨ active = true) → runs .fencedSoloTimeout s.dev))

/-- HOLPEN_FRAME, LINKHELLO, ZEROISE: each protected frame takes one link frame counter; one that opens and carries the next LSEQ is
acknowledged and acts, and so does a ZEROISE or HEARTBEAT that opens; one that does not is asked for again up to three times, and the
fourth failure takes the port down; a request makes the resend buffer go again; a hello without version 1 is refused, one of a neighbour whose
address is not the adjacent one takes its port down, also when the port is up, and the first one heard is answered and begins the key exchange; a mesh ZEROISE is flooded on or counted at its last hop, recorded unless the node is ZEROISED,
and zeroises it (09 R263 to R267, R271, 14 R410).
LINK_REKEY, HOLPEN_PORT_RESTART, TWN_BLOCK_FAULT, TWN_NODEADDR_LOCK: a link that is up exchanges new keys in the session that replaces
its own; a port that fell begins again once its lanes are up; a TWN fault squelches the Holpen lanes and is a device fault; the node
address changes only while it is not locked, and locking is its last change, from which what waits on the torus ports has it and a neighbour already heard is judged by it (09 R254, R266,
R267, Table 09-14, 15 R413, R421). MODEL'S CHOICE: formats and sizes of Holpen frames (log entry 58); the origin and the ESEQ of ZEROISE (log
entry 15). -/
def Obligations.HolpenNetwork : Prop :=
  (∀ s : State, Powered s → ∀ j : Nat, let h := s.dev.getHp j
     (∀ b : Bytes,
       let n := beAt b 2 2
       let type := fld (byteAt b 1) 5 0
       (h.state = 3 → type ≠ 1 →
         let opened := gcmOpen h.rxKey (hpIv h.rxSalt (if h.lowSerial = true then 1 else 0) h.rxCtr) (b.take 16) (sub_ b 16 n) (b.drop (16 + n))
         let e := s.dev.updHp j (fun h => { h with rxCtr := h.rxCtr + 1 })
         let taken := hpAck j (byteAt b 10) (e.updHp j (fun h => { h with fails := 0, lack := if hpLossless type = true then byteAt b 9 else h.lack }))
         let fails :=
           (hpLossless type = false → Runs (.holpenFrame j b) s e) ∧
           (hpLossless type = true → h.fails < 3 → Runs (.holpenFrame j b) s (hpRequest j (e.updHp j (fun h => { h with fails := h.fails + 1 })))) ∧
           (hpLossless type = true → 3 ≤ h.fails → Runs (.holpenFrame j b) s (hpLose j (e.updHp j (fun h => { h with fails := h.fails + 1 }))))
         ((b.length ≠ n + 32 ∨ 2048 < b.length ∨ opened = none) → fails) ∧
         (∀ p : Bytes, b.length = n + 32 → b.length ≤ 2048 → opened = some p →
           (hpLossless type = true → byteAt b 9 ≠ (h.lack + 1) % 256 → fails) ∧
           ((hpLossless type = true → byteAt b 9 = (h.lack + 1) % 256) →
             (type ≠ 0 → Runs (.holpenFrame j b) s (holpenAct j type (byteAt b 1 / 64) (beAt b 4 2) (beAt b 6 2) (byteAt b 8) (beAt b 12 4) p taken)) ∧
             (type = 0 → Runs (.holpenFrame j b) s (hpResend j taken))))) ∧
       (h.state ≠ 3 → type ≠ 1 → Runs (.holpenFrame j b) s s.dev) ∧
       ((h.state = 1 ∨ h.state = 2 ∨ h.state = 3) → type = 1 → n = 28 → b.length = 60 → beAt b 16 4 ≠ 0x4F56504B →
         Runs (.holpenFrame j b) s (doLinkhello j (beAt b 16 2) (byteAt b 19) (beAt b 34 2) (beAt b 36 8) s.dev))) ∧
     ((h.state = 1 ∨ h.state = 2 ∨ h.state = 3) → ∀ (majors minor nbr serial : Nat) (x : Bytes), x ≠ [] →
       Runs (.linkhello j majors minor nbr serial x) s (pkxFragment (64 + j) (byteAt x 5) (x.take 20) (x.drop 20) s.dev)) ∧
     (∀ majors minor nbr serial : Nat,
       let row := Instr.linkhello j majors minor nbr serial []
       let refused := event 0x0908 2 (be 1 j ++ be 1 3) (hpDown j s.dev)
       let wrong := fun (t : Nat) => nodeLocked s.dev = true ∧ nbr ≠ torusNeighbour t s.dev
       (h.state ≠ 1 → h.state ≠ 2 → h.state ≠ 3 → Runs row s s.dev) ∧
       (h.state = 3 →
         (servesTorus j s.dev = none → Runs row s s.dev) ∧
         (∀ t : Nat, servesTorus j s.dev = some t → (wrong t → Runs row s refused) ∧ (¬wrong t → Runs row s s.dev))) ∧
       (h.state = 1 ∨ h.state = 2 →
         (bitAt majors 1 = false → Runs row s (event 0x0908 2 (be 1 j ++ be 1 1) (s.dev.updHp j (fun h => { h with state := 4 })))) ∧
         (bitAt majors 1 = true →
           let d := s.dev.updHp j (fun h => { h with
             vmaj := 1, vmin := 0, nbr := nbr, known := true, lowSerial := decide (s.dev.mod.fuses.serial < serial), state := 2 })
           let taken := (h.state = 2 → Runs row s d) ∧ (h.state = 1 → Runs row s (linkStart j (linkHello j d)))
           (servesTorus j s.dev = none → taken) ∧
           (∀ t : Nat, servesTorus j s.dev = some t → (wrong t → Runs row s refused) ∧ (¬wrong t → taken))))) ∧
     (∀ origin reason hops : Nat, let r := freeNat s.dev
       let once := fun (d : Dev) => zeroiseNow 8 4 2 (when_ (s.dev.mod.mode != .zeroised) (event 0x0909 3 (be 2 origin ++ be 1 (25 - hops))) d)
       (1 < hops → Runs (.zeroise j origin reason hops) s
         (once (meshFlood 2 0 origin (hops - 1) (r.1 % 2 ^ 32) (be 2 origin ++ be 1 reason) (some j) r.2))) ∧
       (hops ≤ 1 → Runs (.zeroise j origin reason hops) s (once (twnCount 5 r.2))))) ∧
  (∀ s : State, Powered s →
     (∀ j : Nat, let own := fun (e : Nat × PkxSession) => e.2.port == 64 + j && e.2.state == .established && e.2.initiator
       (∀ e : Nat × PkxSession, (s.dev.getHp j).state = 3 → s.dev.keys.pkx.find? own = some e → Runs (.linkRekey j) s (doTCk e.1 s.dev)) ∧
       (((s.dev.getHp j).state ≠ 3 ∨ s.dev.keys.pkx.find? own = none) → Runs (.linkRekey j) s s.dev) ∧
       ((s.dev.getHp j).state = 0 → hpLanesUp j s.dev = true → hpOff j s.dev = false →
         Runs (.holpenPortRestart j) s (linkHello j (s.dev.updHp j (fun h => { h with state := 1 })))) ∧
       ((s.dev.getHp j).state ≠ 0 → Runs (.holpenPortRestart j) s s.dev) ∧
       ((s.dev.getHp j).state = 0 → (hpLanesUp j s.dev = false ∨ hpOff j s.dev = true) →
         (6 ≤ j ∨ nodeLocked s.dev = false ∨ (s.dev.getHp j).known = false ∨
           ((s.dev.getLane (64 + 2 * j)).los = false ∧ (s.dev.getLane (64 + 2 * j)).lol = false) ∨
           ((s.dev.getLane (65 + 2 * j)).los = false ∧ (s.dev.getLane (65 + 2 * j)).lol = false) →
           Runs (.holpenPortRestart j) s s.dev)) ∧
       ((s.dev.getHp j).state = 0 → j < 6 → nodeLocked s.dev = true → (s.dev.getHp j).known = true →
         (∀ l ∈ [64 + 2 * j, 65 + 2 * j], (s.dev.getLane l).los = true ∨ (s.dev.getLane l).lol = true) →
         let e := (s.dev.twn.eseq + 1) % 2 ^ 32
         Runs (.holpenPortRestart j) s (meshFlood 0x0B 2 (nodeAddr s.dev) 24 e (be 2 (s.dev.getHp j).nbr) (some j)
           (({ s.dev with twn := { s.dev.twn with eseq := e } } : Dev).updHp j (fun h => { h with known := false }))))) ∧
     Runs .twnBlockFault s (deviceFault 6 (each (List.range 8) hpDown
       (each (List.range 16) (fun i d => d.updLane (64 + i) (fun l => { l with squelch := true })) s.dev))) ∧
     (∀ v : Nat, v < 2 ^ 32 → regsShut s.dev = false →
       (nodeLocked s.dev = true → Runs (.twnNodeaddrLock v) s s.dev) ∧
       (nodeLocked s.dev = false →
         let e : Dev := { s.dev with twn := { s.dev.twn with nodeAddr := fld v 8 0 + at_ (fld v 24 16) 16 + (if bitAt v 31 = true then 2 ^ 31 else 0) } }
         nodeAddr e = fld v 8 0 ∧ nodeLocked e = bitAt v 31 ∧
         (bitAt v 31 = false → Runs (.twnNodeaddrLock v) s e) ∧
         (bitAt v 31 = true → Runs (.twnNodeaddrLock v) s (each (List.range 8) (fun j d =>
           if (2 ≤ (d.getHp j).state ∧ (d.getHp j).state ≤ 3) ∧ wrongNeighbour j (d.getHp j).nbr d = true then refuseNeighbour j d else d) (relabelTorus e))))))

/-! ### Glonik cores (chapter 10) -/

/-- The 24 ALU instructions: rd takes the result of Table 10-4, with division by zero and its overflow as R279 says; a write of g0 is
discarded; control goes to the next instruction; no exception is raised and nothing else changes (10 R275, R278, R279). The immediate
instructions: sext(imm16) for ADDI, SLTI, SLTIU and LUI, zext for the logical ones, the shift amounts 0 to 63, and the halfword that each
HINS replaces (10 R277, R278). -/
def Obligations.RegisterResults : Prop :=
  (∀ (s : State) (c rd ra rb : Nat), Ready c s →
     let k := s.dev.getCore c
     let a := k.reg ra
     let b := k.reg rb
     let gives := fun (i : Instr) (v : DWord) => Completes i c rd v (k.pc + 4) s s.dev
     gives (.add c rd ra rb) (a + b) ∧ gives (.sub c rd ra rb) (a - b) ∧ gives (.and c rd ra rb) (a &&& b) ∧ gives (.or c rd ra rb) (a ||| b) ∧
     gives (.xor c rd ra rb) (a ^^^ b) ∧ gives (.sll c rd ra rb) (a <<< (b &&& 63)) ∧ gives (.srl c rd ra rb) (a >>> (b &&& 63)) ∧
     gives (.sra c rd ra rb) (a.sshiftRight (b.toNat % 64)) ∧ gives (.slt c rd ra rb) (if a.toInt < b.toInt then 1 else 0) ∧
     gives (.sltu c rd ra rb) (if a.toNat < b.toNat then 1 else 0) ∧ gives (.mul c rd ra rb) (a * b) ∧
     gives (.mulh c rd ra rb) (BitVec.ofInt 64 (a.toInt * b.toInt / 2 ^ 64)) ∧ gives (.mulhu c rd ra rb) (BitVec.ofNat 64 (a.toNat * b.toNat / 2 ^ 64)) ∧
     (b ≠ 0 → gives (.div c rd ra rb) (BitVec.ofInt 64 (a.toInt.tdiv b.toInt)) ∧ gives (.divu c rd ra rb) (a / b) ∧
       gives (.rem c rd ra rb) (BitVec.ofInt 64 (a.toInt.tmod b.toInt)) ∧ gives (.remu c rd ra rb) (a % b)) ∧
     (b = 0 → gives (.div c rd ra rb) (BitVec.allOnes 64) ∧ gives (.divu c rd ra rb) (BitVec.allOnes 64) ∧
       gives (.rem c rd ra rb) a ∧ gives (.remu c rd ra rb) a) ∧
     (a = BitVec.intMin 64 → b = BitVec.allOnes 64 → gives (.div c rd ra rb) (BitVec.intMin 64) ∧ gives (.rem c rd ra rb) 0) ∧
     gives (.min c rd ra rb) (if b.toInt < a.toInt then b else a) ∧ gives (.max c rd ra rb) (if a.toInt < b.toInt then b else a) ∧
     gives (.minu c rd ra rb) (if b.toNat < a.toNat then b else a) ∧ gives (.maxu c rd ra rb) (if a.toNat < b.toNat then b else a) ∧
     (∀ n : Nat, n < 64 → 2 ^ (63 - n) ≤ a.toNat → a.toNat < 2 ^ (64 - n) → gives (.clz c rd ra) (BitVec.ofNat 64 n)) ∧
     (a = 0 → gives (.clz c rd ra) 64) ∧
     gives (.popc c rd ra) (BitVec.ofNat 64 ((List.range 64).filter (fun i => a.getLsbD i)).length) ∧
     (∃ v : DWord, gives (.bswap c rd ra) v ∧ ∀ i : Nat, i < 8 → v.extractLsb' (8 * i) 8 = a.extractLsb' (8 * (7 - i)) 8)) ∧
  (∀ (s : State) (c rd ra imm : Nat), Ready c s → imm < 2 ^ 16 →
     let k := s.dev.getCore c
     let a := k.reg ra
     let sx : DWord := (BitVec.ofNat 16 imm).signExtend 64
     let zx : DWord := BitVec.ofNat 64 imm
     let gives := fun (i : Instr) (v : DWord) => Completes i c rd v (k.pc + 4) s s.dev
     gives (.addi c rd ra imm) (a + sx) ∧ gives (.andi c rd ra imm) (a &&& zx) ∧ gives (.ori c rd ra imm) (a ||| zx) ∧
     gives (.xori c rd ra imm) (a ^^^ zx) ∧ gives (.slti c rd ra imm) (if a.toInt < sx.toInt then 1 else 0) ∧
     gives (.sltiu c rd ra imm) (if a.toNat < sx.toNat then 1 else 0) ∧ gives (.lui c rd imm) (sx <<< 16) ∧
     (imm < 64 → gives (.slli c rd ra imm) (a <<< imm) ∧ gives (.srli c rd ra imm) (a >>> imm) ∧ gives (.srai c rd ra imm) (a.sshiftRight imm)) ∧
     gives (.hins1 c rd ra imm) ((a &&& ~~~ ((0xFFFF : DWord) <<< 16)) ||| (zx <<< 16)) ∧
     gives (.hins2 c rd ra imm) ((a &&& ~~~ ((0xFFFF : DWord) <<< 32)) ||| (zx <<< 32)) ∧
     gives (.hins3 c rd ra imm) ((a &&& ~~~ ((0xFFFF : DWord) <<< 48)) ||| (zx <<< 48)))

/-- The seven loads: a load that its address permits gives its bytes, little-endian, sign- or zero-extended, and changes nothing else
than what reading the address changes; in local SRAM that is nothing; a misaligned address raises MISALIGN (10 R275, R276, R280, R286, R290). -/
def Obligations.LoadResults : Prop :=
  ∀ (s : State) (c rd ra imm : Nat), Ready c s →
    let k := s.dev.getCore c
    let a := (k.reg ra + (BitVec.ofNat 16 imm).signExtend 64).toNat
    let sx := fun (n : Nat) (b : Bytes) => (BitVec.ofNat n (ofLe b)).signExtend 64
    let zx := fun (b : Bytes) => BitVec.ofNat 64 (ofLe b)
    let loads := fun (n : Nat) (i : Instr) (f : Bytes → DWord) =>
      (∀ (b : Bytes) (d1 : Dev), coreLoad c a n s.dev = ((none, b), d1) → (d1.getCore c).run = .running → b.length = n →
        Completes i c rd (f b) ((d1.getCore c).pc + 4) s d1) ∧
      (a % n = 0 → a + n ≤ 0x40000 → k.super = true → badIn 6 c a n s.dev = false →
        Completes i c rd (f (getBytes k.sram a n)) (k.pc + 4) s s.dev) ∧
      (a % n ≠ 0 → k.exl = false → Traps i c cMISALIGN (k.pc.setWidth 64) (BitVec.ofNat 64 a) s s.dev)
    loads 1 (.lb c rd ra imm) (sx 8) ∧ loads 1 (.lbu c rd ra imm) zx ∧ loads 2 (.lh c rd ra imm) (sx 16) ∧ loads 2 (.lhu c rd ra imm) zx ∧
    loads 4 (.lw c rd ra imm) (sx 32) ∧ loads 4 (.lwu c rd ra imm) zx ∧ loads 8 (.ld c rd ra imm) zx

/-- The four stores: a store that its address permits writes the low bytes of rs, little-endian, at ra + sext(imm16), and changes no
register; in local SRAM every byte outside the stored ones reads as before, and the stored ones as written; a misaligned address raises
MISALIGN (10 R275, R276, R280, R283, R286). -/
def Obligations.StoreResults : Prop :=
  ∀ (s : State) (c rs ra imm : Nat), Ready c s →
    let k := s.dev.getCore c
    let a := (k.reg ra + (BitVec.ofNat 16 imm).signExtend 64).toNat
    let stores := fun (n : Nat) (i : Instr) =>
      (∀ d1 : Dev, coreStore c a (le n (k.reg rs).toNat) s.dev = (.ok, d1) → (d1.getCore c).run = .running →
        Completes i c 0 0 ((d1.getCore c).pc + 4) s d1) ∧
      (a % n = 0 → a + n ≤ 0x40000 → k.super = true → ∃ d : Dev, Runs i s d ∧ (d.getCore c).pc = k.pc + 4 ∧
        (∀ r : Nat, (d.getCore c).reg r = k.reg r) ∧ (∀ x : Nat, x ≠ c → d.getCore x = s.dev.getCore x) ∧ d.mem = s.dev.mem ∧
        (∀ x : Nat, x < a ∨ a + n ≤ x → Tab.get 0 (d.getCore c).sram x = Tab.get 0 k.sram x) ∧
        (∀ j : Nat, j < n → Tab.get 0 (d.getCore c).sram (a + j) = (k.reg rs).extractLsb' (8 * j) 8)) ∧
      (a % n ≠ 0 → k.exl = false → Traps i c cMISALIGN (k.pc.setWidth 64) (BitVec.ofNat 64 a) s s.dev)
    stores 1 (.sb c rs ra imm) ∧ stores 2 (.sh c rs ra imm) ∧ stores 4 (.sw c rs ra imm) ∧ stores 8 (.sd c rs ra imm)

/-- The five atomics on local SRAM, shared firmware memory and DDR5, at supervisor level and, through one region that grants both reading and
writing, at task level: rd takes the old 64-bit word, and the word takes rb, its sum, its AND or its OR with the old one, or for CAS rb when the
old word equals rd; every other byte reads as before. Task code without such a region raises ACCESS, a misaligned address MISALIGN, a word
with an uncorrectable error ECC, and any other address BUSLOAD, as a DDR5 access that is refused does (10 R280, R283, R286, R290, Table 10-3). -/
def Obligations.AtomicResults : Prop :=
  ∀ (s : State) (c rd ra rb : Nat), Ready c s →
    let k := s.dev.getCore c
    let a := (k.reg ra).toNat
    let word : Bytes → DWord := fun b => BitVec.ofNat 64 (ofLe b)
    let may := MayAccess k a 8 [0, 1]
    let swaps := fun (i : Instr) (f : DWord → Option DWord) =>
      let after := fun (o : DWord) => (f o).getD o
      let traps := fun (cause : Nat) (d : Dev) => Traps i c cause (k.pc.setWidth 64) (BitVec.ofNat 64 a) s d
      (a % 8 ≠ 0 → k.exl = false → traps cMISALIGN s.dev) ∧
      (a % 8 = 0 → ¬may → k.exl = false → traps cACCESS s.dev) ∧
      (a % 8 = 0 → may →
        (a + 8 ≤ 0x40000 → let o := word (getBytes k.sram a 8)
          (badIn 6 c a 8 s.dev = false → ∃ d : Dev, Runs i s d ∧ (d.getCore c).pc = k.pc + 4 ∧
            RegsAfter c rd o s.dev d ∧ (∀ x : Nat, x ≠ c → d.getCore x = s.dev.getCore x) ∧ d.mem = s.dev.mem ∧
            (∀ x : Nat, x < a ∨ a + 8 ≤ x → Tab.get 0 (d.getCore c).sram x = Tab.get 0 k.sram x) ∧
            word (getBytes (d.getCore c).sram a 8) = after o) ∧
          (badIn 6 c a 8 s.dev = true → k.exl = false → traps cECC s.dev)) ∧
        (0x10000000 ≤ a → a + 8 ≤ 0x10800000 → let p := a - 0x10000000
          let o := word (getBytes s.dev.mem.shared p 8)
          (badIn 7 0 p 8 s.dev = false → ∃ d : Dev, Runs i s d ∧ (d.getCore c).pc = k.pc + 4 ∧
            RegsAfter c rd o s.dev d ∧ (∀ x : Nat, x ≠ c → d.getCore x = s.dev.getCore x) ∧ (d.getCore c).sram = k.sram ∧
            d.mem = { s.dev.mem with shared := d.mem.shared } ∧
            (∀ x : Nat, x < p ∨ p + 8 ≤ x → Tab.get 0 d.mem.shared x = Tab.get 0 s.dev.mem.shared x) ∧
            word (getBytes d.mem.shared p 8) = after o) ∧
          (badIn 7 0 p 8 s.dev = true → k.exl = false → traps cECC s.dev)) ∧
        (∀ (b : Bytes) (d1 : Dev), ddrBase ≤ a → a + 8 ≤ ddrBase + ddrInstalled s.dev →
          (coreLoad c a 8 s.dev = ((none, b), d1) →
            (f (zbytes b) = none → (d1.getCore c).run = .running → Completes i c rd (zbytes b) ((d1.getCore c).pc + 4) s d1) ∧
            (∀ (v : DWord) (d2 : Dev), f (zbytes b) = some v → coreStore c a (le 8 v.toNat) d1 = (.ok, d2) → (d2.getCore c).run = .running →
              Completes i c rd (zbytes b) ((d2.getCore c).pc + 4) s d2)) ∧
          (coreLoad c a 8 s.dev = ((some cBUSLOAD, b), d1) → (d1.getCore c).run = .running → (d1.getCore c).exl = false → (d1.getCore c).pc = k.pc →
            traps cBUSLOAD d1)) ∧
        (0x40000 < a + 8 → (a < 0x10000000 ∨ 0x10800000 < a + 8) → (a < ddrBase ∨ ddrBase + ddrInstalled s.dev < a + 8) → k.exl = false →
          traps cBUSLOAD s.dev))
    swaps (.amoswap c rd ra rb) (fun _ => some (k.reg rb)) ∧ swaps (.amoadd c rd ra rb) (fun o => some (o + k.reg rb)) ∧
    swaps (.amoand c rd ra rb) (fun o => some (o &&& k.reg rb)) ∧ swaps (.amoor c rd ra rb) (fun o => some (o ||| k.reg rb)) ∧
    swaps (.cas c rd ra rb) (fun o => if o = k.reg rd then some (k.reg rb) else none)

/-- Branches and jumps: a branch whose comparison holds goes to PC + 4 x sext(disp16), any other to the next instruction; JAL links in
g31, JALR in rd, and both go to their target, JALR with its bits [1:0] cleared (10 R281, Table 10-3). -/
def Obligations.BranchTargets : Prop :=
  ∀ (s : State) (c ra rb disp : Nat), Ready c s →
    let k := s.dev.getCore c
    let a := k.reg ra
    let b := k.reg rb
    let t : DWord := k.pc.setWidth 64 + 4 * (BitVec.ofNat 16 disp).signExtend 64
    let branch := fun (i : Instr) (p : Prop) =>
      (p → fetchable t.toNat = true → Completes i c 0 0 (t.setWidth 32) s s.dev) ∧ (¬p → Completes i c 0 0 (k.pc + 4) s s.dev)
    branch (.beq c ra rb disp) (a = b) ∧ branch (.bne c ra rb disp) (a ≠ b) ∧ branch (.blt c ra rb disp) (a.toInt < b.toInt) ∧
    branch (.bge c ra rb disp) (b.toInt ≤ a.toInt) ∧ branch (.bltu c ra rb disp) (a.toNat < b.toNat) ∧ branch (.bgeu c ra rb disp) (b.toNat ≤ a.toNat) ∧
    (let j : DWord := k.pc.setWidth 64 + 4 * (BitVec.ofNat 26 disp).signExtend 64
     fetchable j.toNat = true → Completes (.jal c disp) c 31 ((k.pc + 4).setWidth 64) (j.setWidth 32) s s.dev) ∧
    (∀ rd imm : Nat, let j : DWord := (a + (BitVec.ofNat 16 imm).signExtend 64) &&& ~~~ (3 : DWord)
      fetchable j.toNat = true → Completes (.jalr c rd ra imm) c rd ((k.pc + 4).setWidth 64) (j.setWidth 32) s s.dev) ∧
    (∀ imm : Nat, let j : DWord := (a + (BitVec.ofNat 16 imm).signExtend 64) &&& ~~~ (3 : DWord)
      fetchable j.toNat = false → k.exl = false → ∃ d : Dev, Runs (.jalr c 0 ra imm) s d ∧
        (d.getCore c).ecause = 2 ∧ (d.getCore c).epc = j ∧ (d.getCore c).eval = j ∧ (d.getCore c).estatus = k.status)

/-- CSRR, CSRW, CSRS, CSRC, ERET: at supervisor level rd takes the old value of any listed register, and a register that is not read-only
takes ra, or sets or clears its bits, in the bits that it holds, which is what it then reads as; SMPDATA gives its sample up to a read, and a
write of SMPCFG begins a new interval. A write of a read-only register from another register than g0, or an unlisted number, is ILLEGAL; task
level reads what R285 and TASKCAP grant, and anything else is PRIV. ERET restores STATUS and goes to EPC (10 R282, R285, R287, R307, Table 10-9). -/
def Obligations.ControlRegisters : Prop :=
  (∀ (s : State) (c rd ra num : Nat), Ready c s → num < 4096 →
    let k := s.dev.getCore c
    let x := k.reg ra
    let old := csrValue c num k
    let puts := fun (kind : Nat) (row : Instr) (v : DWord) => Completes row c rd old (k.pc + 4) s (csrTake c num (csrPut kind c num v x s.dev))
    (k.super = true →
      (csrListed num = true → Completes (.csrr c rd num) c rd old (k.pc + 4) s (csrTake c num s.dev)) ∧
      (csrListed num = true → csrReadOnly num = false →
        puts 1 (.csrw c rd ra num) x ∧ puts 2 (.csrs c rd ra num) (old ||| x) ∧ puts 3 (.csrc c rd ra num) (old &&& ~~~ x)) ∧
      (csrReadOnly num = true → ra % 32 = 0 → Completes (.csrw c rd ra num) c rd old (k.pc + 4) s s.dev ∧
        Completes (.csrs c rd ra num) c rd old (k.pc + 4) s s.dev ∧ Completes (.csrc c rd ra num) c rd old (k.pc + 4) s s.dev) ∧
      ((csrListed num = false ∨ (csrReadOnly num = true ∧ ra % 32 ≠ 0)) → k.exl = false →
        Traps (.csrw c rd ra num) c cILLEGAL (k.pc.setWidth 64) (BitVec.ofNat 64 (wordCsr 1 rd ra num)) s s.dev) ∧
      (∀ t : DWord, t = (k.epc.setWidth 32).setWidth 64 → fetchable t.toNat = true → ∃ d : Dev, Runs (.eret c) s d ∧ (d.getCore c).status = k.estatus ∧
        (d.getCore c).pc = k.epc.setWidth 32 ∧ (∀ r : Nat, (d.getCore c).reg r = k.reg r) ∧ (d.getCore c).sram = k.sram)) ∧
    (k.super = false →
      (csrListed num = true → csrTaskOk num false k = true → Completes (.csrr c rd num) c rd old (k.pc + 4) s s.dev) ∧
      (k.exl = false →
        Traps (.eret c) c cPRIV (k.pc.setWidth 64) (BitVec.ofNat 64 (wordR 0x31 0 0 0 0)) s s.dev ∧
        (csrListed num = true → csrTaskOk num false k = false →
          Traps (.csrr c rd num) c cPRIV (k.pc.setWidth 64) (BitVec.ofNat 64 (wordCsr 0 rd 0 num)) s s.dev) ∧
        (csrListed num = true → csrReadOnly num = false →
          Traps (.csrw c rd ra num) c cPRIV (k.pc.setWidth 64) (BitVec.ofNat 64 (wordCsr 1 rd ra num)) s s.dev)))) ∧
  (∀ (c num : Nat) (v x : DWord) (k : Core), csrListed num = true → csrReadOnly num = false → (num < 0x062 ∨ 0x065 < num) →
    ((num < 0x050 ∨ 0x057 < num) → csrValue c num (csrStore num v x k) = v &&& csrMask num) ∧
    (0x050 ≤ num → num ≤ 0x057 → csrValue c num (csrStore num v x k) =
      (v &&& 0xBFF) ||| (if (Tab.get 0 k.pcSel (num - 0x050)).getLsbD 10 = true ∧ x.getLsbD 10 = false then 0x400 else 0)))

/-- TRAP, ILLEGAL: exception 10 with the code in EVAL, exception 0 with the word; with STATUS.EXL set the core stops on DOUBLEFAULT with
event 0x0A01; a legal word is none of ILLEGAL's, and the word of FENCE, of which the table has no row, completes with nothing else changed
(10 R277, R278, R284, R287, R289; log entry 62); every other legal word spells an instruction of the table, and no other word does. -/
def Obligations.ExceptionEntry : Prop :=
  ∀ (s : State) (c : Nat), Ready c s → let k := s.dev.getCore c
    (∀ code : Nat, code < 2 ^ 15 →
      (k.exl = false → Traps (.trap c code) c cTRAP (k.pc.setWidth 64) (BitVec.ofNat 64 code) s s.dev) ∧
      (k.exl = true → ∃ k' : Core, Core.keeps k k' ∧ Runs (.trap c code) s (coreFault .doubleFault c
        (event 0x0A01 3 (be 1 c ++ be 1 k.ecause.toNat ++ be 1 cTRAP ++ be 4 k.epc.toNat ++ [0]) (s.dev.updCore c (fun _ => k')))))) ∧
    (∀ w : Nat, w < 2 ^ 32 → legalWord w = false → k.exl = false → Traps (.illegal c w) c cILLEGAL (k.pc.setWidth 64) (BitVec.ofNat 64 w) s s.dev) ∧
    (∀ w : Nat, w < 2 ^ 32 → legalWord w = true → w ≠ wordFence → Runs (.illegal c w) s s.dev) ∧
    Completes (.illegal c wordFence) c 0 0 (k.pc + 4) s s.dev ∧
    (∀ (w : Nat) (image : Bytes) (dmaOk : Bool), w < 2 ^ 32 →
      (legalWord w = false ∨ w = wordFence → Sys2Proof.glonikWord c w image dmaOk = some (.illegal c w)) ∧
      (legalWord w = true → w ≠ wordFence → ∃ i : Instr, Sys2Proof.glonikWord c w image dmaOk = some i ∧ i ≠ .illegal c w))

/-- HOPEN, HRD, HSNAP, HSRCH, HNEXT: a handle opens on the range of a legal descriptor or answers BAD_HANDLE; a word, or every word, of
an entry that the handle reads; the live entry of a key, or the first at or above an index, when it lies in the handle's range, else all
ones; a handle instruction outside its handle raises HANDLE with the handle's number and the entry, and HSRCH, which names no entry, with the
model's choice of one, a free value (log entry 32). HOPEN is of supervisor level, the others run at task level with TASKCAP bit 0; without it
they raise PRIV with their word (10 R285, R291 to R294). -/
def Obligations.HandleInstructions : Prop :=
  ∀ (s : State) (c rd ra rb h : Nat), Ready c s → h < 64 → let k := s.dev.getCore c
    let a := (k.reg ra).toNat
    let b := (k.reg rb).toNat
    let priv := fun (i : Instr) (w : Nat) => Traps i c cPRIV (k.pc.setWidth 64) (BitVec.ofNat 64 w) s s.dev
    (k.super = false → k.exl = false → priv (.hopen c rd ra h) (wordD 0 rd ra 0 h)) ∧
    (¬Granted k 0 → k.exl = false → priv (.hrd c rd ra rb h) (wordD 1 rd ra rb h) ∧ priv (.hsnap c rd ra rb h) (wordD 2 rd ra rb h) ∧
      priv (.hsrch c rd ra rb h) (wordD 3 rd ra rb h) ∧ priv (.hnext c rd ra rb h) (wordD 4 rd ra rb h)) ∧
    (k.super = true →
      (badHandle a = true → Completes (.hopen c rd ra h) c rd 9 (k.pc + 4) s s.dev) ∧
      (badHandle a = false → fld a 3 0 ≠ 0 → fld a 51 32 ≠ 0 → Completes (.hopen c rd ra h) c rd 0 (k.pc + 4) s
        (s.dev.updCore c (fun k => { k with handles := Tab.set none k.handles h (some ⟨fld a 3 0, bitAt a 4, bitAt a 5, fld a 31 12, fld a 51 32⟩) }))) ∧
      (badHandle a = false → (fld a 3 0 = 0 ∨ fld a 51 32 = 0) → Completes (.hopen c rd ra h) c rd 0 (k.pc + 4) s
        (s.dev.updCore c (fun k => { k with handles := Tab.set none k.handles h none })))) ∧
    (Granted k 0 →
      let handle := fun (i : Instr) (e : Nat) (d : Dev) => k.exl = false → Traps i c cHANDLE (k.pc.setWidth 64) (handleEval h e) s d
      let searchOut := handle (.hsrch c rd ra rb h) (freeNat s.dev).1 (freeNat s.dev).2
      (∀ x : Handle, k.handle h = some x →
        (x.read = true → x.holds a = true → b < kindWords x.kind →
          Completes (.hrd c rd ra rb h) c rd (BitVec.ofNat 64 (leAt (entryBytes x.kind a s.dev) (8 * b) 8)) (k.pc + 4) s s.dev) ∧
        ((x.read = false ∨ x.holds a = false ∨ kindWords x.kind ≤ b) → handle (.hrd c rd ra rb h) a s.dev) ∧
        (a % 8 = 0 → MayAccess k a (8 * kindWords x.kind) [1] →
          (x.read = true → x.holds b = true → a + 8 * kindWords x.kind ≤ 0x40000 →
            Completes (.hsnap c rd ra rb h) c rd 0 (k.pc + 4) s (sramWrite c a (entryBytes x.kind b s.dev) s.dev)) ∧
          ((x.read = false ∨ x.holds b = false) → handle (.hsnap c rd ra rb h) b s.dev)) ∧
        (x.search = true →
          let t := withFlushes s.dev s.dev.tab
          Completes (.hsrch c rd ra rb h) c rd (searchGive x (stnFind t (fld b 2 0) (fld a 59 48) (fld a 47 0))) (k.pc + 4) s s.dev ∧
          Completes (.hnext c rd ra rb h) c rd (searchGive x ((stnNextFrom t (Nat.max a x.base / 65536) (Nat.max a x.base)
            (if bitAt b 12 = true then some (fld b 11 0) else none)).map (fun r => r.1))) (k.pc + 4) s s.dev) ∧
        (x.search = false → searchOut ∧ handle (.hnext c rd ra rb h) a s.dev)) ∧
      (k.handle h = none → handle (.hrd c rd ra rb h) a s.dev ∧ handle (.hnext c rd ra rb h) a s.dev ∧ searchOut ∧
        (a % 8 = 0 → MayAccess k a 8 [1] → handle (.hsnap c rd ra rb h) b s.dev)))

/-- CALLOC, CFREE, CMOVE: a granted cell becomes the core's and its number is returned, a refused grant gives all ones and is counted;
an owned cell is given back, another is NOT_OWNED and recorded; 256 bytes move between an owned cell and local SRAM. At task level all three need
TASKCAP bit 1, CMOVE a region for its local address too; without the grant they raise PRIV, without the region CMOVE raises ACCESS (10 R285,
R286, R291, R295, 11 R312 to R318). -/
def Obligations.CellInstructions : Prop :=
  ∀ (s : State) (c rd ra rb : Nat), Ready c s → let k := s.dev.getCore c
    let priv := fun (i : Instr) (w : Nat) => Traps i c cPRIV (k.pc.setWidth 64) (BitVec.ofNat 64 w) s s.dev
    (¬Granted k 1 → k.exl = false → priv (.calloc c rd) (wordD 5 rd 0 0 0) ∧ priv (.cfree c rd ra) (wordD 6 rd ra 0 0) ∧
      ∀ dir : Nat, priv (.cmove c rd ra rb dir) (wordD 7 rd ra rb dir)) ∧
    (Granted k 1 →
    let cell := (k.reg ra).toNat
    let a := (k.reg rb).toNat
    (∀ (n : Nat) (d1 : Dev), grantCell c s.dev = some (n, d1) → (d1.getCore c).run = .running →
      Completes (.calloc c rd) c rd (BitVec.ofNat 64 n) ((d1.getCore c).pc + 4) s d1) ∧
    (grantCell c s.dev = none →
      Completes (.calloc c rd) c rd (BitVec.allOnes 64) (k.pc + 4) s ((bpmDeny c s.dev).updCore c (coreCount 12))) ∧
    (ownsCell c cell s.dev = true → ((dropCell c cell s.dev).getCore c).run = .running →
      Completes (.cfree c rd ra) c rd 0 (((dropCell c cell s.dev).getCore c).pc + 4) s (dropCell c cell s.dev)) ∧
    (ownsCell c cell s.dev = false → ((badFree c cell s.dev).getCore c).run = .running →
      Completes (.cfree c rd ra) c rd 3 (((badFree c cell s.dev).getCore c).pc + 4) s (badFree c cell s.dev)) ∧
    (∀ dir : Nat, a % 32 = 0 →
      let may := MayAccess k a 256 [if dir % 2 = 0 then 1 else 0]
      (¬may → k.exl = false → Traps (.cmove c rd ra rb dir) c cACCESS (k.pc.setWidth 64) (BitVec.ofNat 64 a) s s.dev) ∧
      (may → a + 256 ≤ 0x40000 →
        (dir % 2 = 0 → ownsCell c cell s.dev = true → badIn 0 cell 0 256 s.dev = false →
          Completes (.cmove c rd ra rb dir) c rd 0 (k.pc + 4) s (sramWrite c a (cellBytes cell s.dev) s.dev)) ∧
        (dir % 2 = 1 → ownsCell c cell s.dev = true → badIn 6 c a 256 s.dev = false →
          let d := badClear 0 cell 0 256 s.dev
          Completes (.cmove c rd ra rb dir) c rd 0 (k.pc + 4) s
            { d with bpm := { d.bpm with data := Tab.set [] d.bpm.data cell (getBytes k.sram a 256) } }) ∧
        (dir % 2 = 0 → ownsCell c cell s.dev = false → Completes (.cmove c rd ra rb dir) c rd 3 (k.pc + 4) s s.dev))))

/-- MSEND, MRECV, EVPOST, TACKG, ENGQ: a message goes to its destination by its CLASS, its status in rd; the oldest message leaves the
mailbox for local SRAM, an empty one is EMPTY; EVPOST sets DOORBELL on a core that is neither halted nor retired; a submission to the gate
or to an engine returns its number with OK, and is refused without a number when 256 are outstanding; one whose input is in host memory reads it,
or waits in D3hot. At task level MSEND, MRECV and EVPOST need TASKCAP bit 2, TACKG bit 3 and ENGQ bit 4, and an operand a region; without the
grant they raise PRIV, without the region ACCESS (10 R285, R286, R291, R296 to R300, 08 R226, 13 R363, R378). MODEL'S CHOICE: D3hot holds the
command with its input (log entry 14); the TAG of a job's completion is a free value (log entry 32). -/
def Obligations.MessageInstructions : Prop :=
  ∀ (s : State) (c rd ra : Nat), Ready c s → let k := s.dev.getCore c
    let a := (k.reg ra).toNat
    let traps := fun (i : Instr) (cause v : Nat) => Traps i c cause (k.pc.setWidth 64) (BitVec.ofNat 64 v) s s.dev
    (k.exl = false →
      (¬Granted k 2 → traps (.msend c rd ra) cPRIV (wordD 8 rd ra 0 0) ∧ traps (.mrecv c rd ra) cPRIV (wordD 9 rd ra 0 0) ∧
        traps (.evpost c rd ra) cPRIV (wordD 13 rd ra 0 0)) ∧
      (Granted k 2 → a % 8 = 0 → (¬MayAccess k a 64 [0] → traps (.msend c rd ra) cACCESS a) ∧ (¬MayAccess k a 64 [1] → traps (.mrecv c rd ra) cACCESS a)) ∧
      (∀ (image : Bytes) (dmaOk : Bool),
        (¬Granted k 3 → traps (.tackg c rd ra image dmaOk) cPRIV (wordD 10 rd ra 0 0)) ∧
        (Granted k 3 → a % 8 = 0 → ¬MayAccess k a 64 [0] → traps (.tackg c rd ra image dmaOk) cACCESS a) ∧
        (∀ e : Nat, (¬Granted k 4 → traps (.engq c rd ra e image dmaOk) cPRIV (wordD 11 rd ra 0 e)) ∧
          (Granted k 4 → a % 8 = 0 → ¬MayAccess k a 64 [0] → traps (.engq c rd ra e image dmaOk) cACCESS a)))) ∧
    (a % 8 = 0 → a + 64 ≤ 0x40000 →
      (Granted k 2 → MayAccess k a 64 [0] → badIn 6 c a 64 s.dev = false →
        let r := msend c (messageOf (getBytes k.sram a 64)) s.dev
        r.1 ≠ dFULL → (r.2.getCore c).run = .running → Completes (.msend c rd ra) c rd (BitVec.ofNat 64 r.1) ((r.2.getCore c).pc + 4) s r.2) ∧
      (Granted k 2 → MayAccess k a 64 [1] →
        (k.mailbox = [] → Completes (.mrecv c rd ra) c rd 1 (k.pc + 4) s s.dev) ∧
        (∀ (m : Message) (rest : List Message), k.mailbox = m :: rest → Completes (.mrecv c rd ra) c rd 0 (k.pc + 4) s
          ((sramWrite c a (messageBytes m) s.dev).updCore c (fun k => { coreCount 10 k with mailbox := rest })))) ∧
      (∀ (image : Bytes) (dmaOk : Bool), MayAccess k a 64 [0] → badIn 6 c a 64 s.dev = false →
        let b := getBytes k.sram a 64
        let x := descOf b image
        let given := BitVec.ofNat 64 (at_ (s.dev.hif.subno % 2 ^ 32) 32)
        let due := fun (d : Dev) => d.updCore c (fun k => { k with outstanding := k.outstanding + 1 })
        let sends := fun (row : Instr) (d : Dev) =>
          let n := takeSubno ⟨.core c, descTag b, 0, 0⟩ d
          (readsImage x.code = false → let d1 := submit n.1 x (due n.2)
            (d1.getCore c).run = .running → Completes row c rd given ((d1.getCore c).pc + 4) s d1) ∧
          (readsImage x.code = true → d.hif.d3hot = true →
            Completes row c rd given (k.pc + 4) s ((due n.2).updHif (fun h => { h with heldSubs := h.heldSubs ++ [(n.1, x, dmaOk)] }))) ∧
          (readsImage x.code = true → d.hif.d3hot = false → dmaOk = true → x.image.length = 64 →
            let d1 := submit n.1 x (dmaRead (imageAddr x) 64 (due n.2))
            (d1.getCore c).run = .running → Completes row c rd given ((d1.getCore c).pc + 4) s d1)
        (Granted k 3 →
          (256 ≤ k.outstanding → Completes (.tackg c rd ra image dmaOk) c rd 2 (k.pc + 4) s s.dev) ∧
          (k.outstanding < 256 → tackgStatus b x s.dev ≠ dOK →
            Completes (.tackg c rd ra image dmaOk) c rd (BitVec.ofNat 64 (tackgStatus b x s.dev)) (k.pc + 4) s s.dev) ∧
          (k.outstanding < 256 → tackgStatus b x s.dev = dOK → sends (.tackg c rd ra image dmaOk) (s.dev.updCore c (coreCount 13)))) ∧
        (Granted k 4 →
          (∀ e : Nat, 1 ≤ e → e < 64 → engqStatus c e b x s.dev = dOK → sends (.engq c rd ra e image dmaOk) s.dev) ∧
          (engqStatus c 0 b x s.dev = dOK →
            let r := freeNat s.dev
            let n := takeSubno ⟨.core c, r.1 % 2 ^ 16, 0, 0⟩ r.2
            let d1 := doSceJob n.1 b (due n.2)
            (d1.getCore c).run = .running → Completes (.engq c rd ra 0 image dmaOk) c rd given ((d1.getCore c).pc + 4) s d1)))) ∧
    (Granted k 2 → let t := fld a 5 0
     (coreAlive (s.dev.getCore t) = true → Completes (.evpost c rd ra) c rd 0 (k.pc + 4) s (evPendCore t 1 s.dev)) ∧
     (coreAlive (s.dev.getCore t) = false → Completes (.evpost c rd ra) c rd 6 (k.pc + 4) s s.dev))

/-- EWAIT, EWAIT_WAKE: EWAIT returns the pending events of its mask as soon as there is one, or at once with POLL, clearing the sticky ones
it returns with CLR; otherwise the core sleeps until an event or its limit wakes it, and the EWAIT then returns; a counter of waits in edge
mode counts the wait that begins; task level needs TASKCAP bit 5, and without it EWAIT raises PRIV (10 R285, R291, R301, R306). -/
def Obligations.EventWaits : Prop :=
  ∀ (s : State) (c : Nat),
    (∀ rd ra rb flags : Nat, Ready c s → let k := s.dev.getCore c
      let ev := k.events &&& k.reg ra
      (¬Granted k 5 → k.exl = false →
        Traps (.ewait c rd ra rb flags) c cPRIV (k.pc.setWidth 64) (BitVec.ofNat 64 (wordD 12 rd ra rb flags)) s s.dev) ∧
      (Granted k 5 → ev ≠ 0 ∨ bitAt flags 0 = true → Completes (.ewait c rd ra rb flags) c rd ev (k.pc + 4) s
        (s.dev.updCore c (fun k => { k with evPend := if bitAt flags 1 = true then k.evPend &&& ~~~ ev else k.evPend }))) ∧
      (Granted k 5 → ev = 0 → bitAt flags 0 = false → Runs (.ewait c rd ra rb flags) s (s.dev.updCore c (fun k => coreEdge 8
        { k with run := .waiting, sleep := some ⟨wordD 12 rd ra rb flags, rd, (k.reg ra).toNat, (k.reg rb).toNat, bitAt flags 1, k.cycle⟩ })))) ∧
    (Powered s → ∀ x : Sleep, let k := s.dev.getCore c
      k.run = .waiting → k.sleep = some x →
      let ev := k.events &&& BitVec.ofNat 64 x.mask
      (ev = 0 → (x.limit = 0 ∨ k.cycle < x.since + x.limit) → Runs (.ewaitWake c) s s.dev) ∧
      (ev ≠ 0 ∨ (x.limit ≠ 0 ∧ x.since + x.limit ≤ k.cycle) → k.deferred = none → Completes (.ewaitWake c) c x.rd ev (k.pc + 4) s
        (s.dev.updCore c (fun k => { k.wake with evPend := if x.clr = true then k.evPend &&& ~~~ ev else k.evPend }))))

/-- TIMER_EXCEPTION, DEFERRED_STORE_FAIL, COMPLETION_DELIVER, SAMPLE_TAKE, CORE_SELFTEST_COMPLETE: TIMER is taken when TIE is 1, EXL 0 and
CYCLE has reached TIMECMP; a failed posted store raises DEFERRED at the boundary with its address; a completion enters a mailbox with
room; a due sample is kept or counted as lost; a core that passes its test is halted, one that fails is retired (10 R287, R288, R299, R307, 15 R418). -/
def Obligations.CoreEvents : Prop :=
  ∀ (s : State) (c : Nat), Powered s → let k := s.dev.getCore c
    (k.timerDue = false → Runs (.timerException c) s s.dev) ∧
    (k.timerDue = true → (k.run = .running ∨ k.run = .waiting) → k.deferred = none →
      Traps (.timerException c) c cTIMER (k.pc.setWidth 64) 0 s s.dev) ∧
    (∀ addr : Nat, k.run = .running → k.exl = false → k.deferred = none →
      Traps (.deferredStoreFail c addr) c cDEFERRED (k.pc.setWidth 64) (BitVec.ofNat 64 addr) s s.dev) ∧
    (∀ addr : Nat, k.run = .waiting → Runs (.deferredStoreFail c addr) s
      (s.dev.updCore c (fun k => { k with deferred := some (k.deferred.getD addr) }))) ∧
    (∀ (m : Message) (rest : List Message), k.held = m :: rest →
      (coreAlive k = true → k.mailbox.length < 64 → Runs (.completionDeliver c) s
        (s.dev.updCore c (fun k => { k.countDelivery m with held := rest, mailbox := k.mailbox ++ [m] }))) ∧
      (64 ≤ k.mailbox.length → Runs (.completionDeliver c) s s.dev)) ∧
    (∀ latency flags : Nat,
      (k.smpHit = false → Runs (.sampleTake c latency flags) s s.dev) ∧
      (k.smpHit = true → Runs (.sampleTake c latency flags) s (drawJitter c (s.dev.updCore c (fun k =>
        { k.keepSample (sampleBytes c latency flags k) with
          smpCount := k.smpCount - k.period, smpSeq := (k.smpSeq + 1) % 2 ^ 24, smpHit := false }))))) ∧
    (s.dev.flt.coreTest.contains c = true →
      Runs (.coreSelftestComplete c false) s (coreRetire c 3 s.dev) ∧
      (coreAlive k = false → Runs (.coreSelftestComplete c true) s (transientUnit 3 c 3
        (({ s.dev with flt := { s.dev.flt with coreTest := s.dev.flt.coreTest.filter (fun x => x != c) } } : Dev).updCore c
          (fun k => { k with run := .halted })))))

/-! ### The cell pool, DDR5 and memory protection (chapter 11) -/

/-- BOBBIN_REFILL, BOBBIN_SPILL, BOBBIN_SPILL_ALL, BPM_QSEL, BPM_QMIN, BPM_QCAP: a bobbin below its low mark is filled while U stays
within C, one above its high mark is spilled; a quota takes the written value only when the minimums stay within the pool, U within C and
the requester's range holds, and is otherwise refused with nothing else changed (11 R314 to R316). -/
def Obligations.PoolSteps : Prop :=
  ∀ s : State, Powered s → let b := s.dev.bpm
    (∀ q : Nat, q < 0xC0 →
      (b.bobOf q < bobLow q → b.used + (bobTarget q - b.bobOf q) ≤ b.shared →
        Runs (.bobbinRefill q) s { s.dev with bpm := { b with bob := Tab.set 0 b.bob q (bobTarget q) } }) ∧
      (bobLow q ≤ b.bobOf q → Runs (.bobbinRefill q) s s.dev) ∧
      (bobHigh q < b.bobOf q → Runs (.bobbinSpill q) s { s.dev with bpm := { b with bob := Tab.set 0 b.bob q (bobTarget q) } }) ∧
      (b.bobOf q ≤ bobHigh q → Runs (.bobbinSpill q) s s.dev)) ∧
    (b.shared - b.used < 4096 → ∃ d : Dev, Runs .bobbinSpillAll s d ∧ (∀ q : Nat, q < 0xC0 → d.bpm.bobOf q = Nat.min (b.bobOf q) (bobLow q)) ∧
      d = { s.dev with bpm := { b with bob := d.bpm.bob } }) ∧
    (∀ v : Nat, regsShut s.dev = false → (fld v 7 0 < 0xC0 → Runs (.bpmQsel v) s { s.dev with bpm := { b with qsel := fld v 7 0 } }) ∧
      (0xC0 ≤ fld v 7 0 → Runs (.bpmQsel v) s s.dev)) ∧
    (∀ v : Nat, v < 2 ^ 18 → regsShut s.dev = false →
      let m : Bpm := { b with min := Tab.set 0 b.min b.qsel (v + 1) }
      let p : Bpm := { b with cap := Tab.set 0 b.cap b.qsel (v + 1) }
      let sound := fun (x : Bpm) => poolSound x = true ∧ x.minOf x.qsel ≤ x.capOf x.qsel ∧ quotaRange x.qsel (x.minOf x.qsel) (x.capOf x.qsel) = true
      (slotHold b.qsel = false → sound m → Runs (.bpmQmin v) s { s.dev with bpm := m }) ∧
      ((slotHold b.qsel = true ∨ ¬ sound m) → Runs (.bpmQmin v) s { s.dev with bpm := { b with refused := Tab.set false b.refused b.qsel true } }) ∧
      (capFixed b.qsel = false → sound p → Runs (.bpmQcap v) s { s.dev with bpm := p }) ∧
      ((capFixed b.qsel = true ∨ ¬ sound p) → Runs (.bpmQcap v) s { s.dev with bpm := { b with refused := Tab.set false b.refused b.qsel true } }))

/-- U stays within C: a grant to a requester of the pool never takes U beyond C, and neither does a move between two requesters, nor a
release of a cell that its requester holds (11 R314). -/
def Obligations.UsedWithinShared : Prop :=
  ∀ b : Bpm, b.used ≤ b.shared →
    (∀ (q : Nat) (b' : Bpm), q < 0xC0 → b.grant q = some b' → b'.used ≤ b'.shared ∧ b'.cnt q = b.cnt q + 1 ∧ b'.cnt q ≤ b'.capOf q ∧ b'.shared = b.shared) ∧
    (∀ (r q : Nat) (b' : Bpm), q < 0xC0 → r < 0xC0 → r ≠ q → 0 < b.cnt r → b.move r q = some b' →
      b'.used ≤ b'.shared ∧ b'.cnt q = b.cnt q + 1 ∧ b'.cnt r + 1 = b.cnt r ∧ b'.cnt q ≤ b'.capOf q ∧ b'.ring = b.ring) ∧
    (∀ r q : Nat, q < 0xC0 → r < 0xC0 → 0 < b.cnt q → (b.release r q).used ≤ (b.release r q).shared ∧ (b.release r q).cnt q + 1 = b.cnt q)

/-- DDR5_TRAIN_COMPLETE, PATROL_SCRUB, MEM_CLEAR, MEM_CLEAR_COMPLETE: training ends with the window open, at a lower rate with a record,
or failed; a scrub counts a corrected error, and records an uncorrectable one and fails the burst; a clear runs once the region is ready
and ends with every byte above the metadata 0 (11 R322, R323, R337). SAS_COLD_LOCK, MEC_CFG_LOCK, MEC_INIT_COMPLETE, MEC_REPROV,
REPROV_COMPLETE: a locked register takes no further write; LOCK is set only over a region that fits its memory; initialisation leaves a
region of zeros, ready; a re-provisioning that no rule refuses runs, and ends with the range provisioned anew, its doubt gone and its
counter changed in its parent (05 R157, 11 R325, R334). A sector carries its MAC, its counter rises with each write, and a read that meets a MAC that does not verify, or an
uncorrectable error, which its channel counts, gives nothing, declares it doubtful for that cause and is one sector read from DDR5 (11 R323, R327,
R328, R331, 16 R448). The model's choices (log entries 22, 43): which requests
MEC_REPROV refuses beyond the rule's own, and which cached nodes an access needs. -/
def Obligations.ExternalMemory : Prop :=
  (∀ s : State, Powered s →
     (∀ rate gibs failMap : Nat, s.dev.mem.trained = false → s.dev.mem.fail = false →
       (rate = 0 → Runs (.ddr5TrainComplete rate gibs failMap true) s
         { s.dev with mem := { s.dev.mem with trained := true, rate := rate, dimmGib := gibs % 256 } }) ∧
       (0 < rate → rate < 3 → Runs (.ddr5TrainComplete rate gibs failMap true) s
         (event 0x0B08 2 (be 1 rate ++ be 1 failMap) { s.dev with mem := { s.dev.mem with trained := true, rate := rate, dimmGib := gibs % 256 } })) ∧
       Runs (.ddr5TrainComplete rate gibs failMap false) s (event 0x0B08 3 (be 1 3 ++ be 1 failMap) { s.dev with mem := { s.dev.mem with fail := true } })) ∧
     (∀ addr : Nat, ddrBase ≤ addr → addr - ddrBase < ddrInstalled s.dev → metaEnd s.dev ≤ addr - ddrBase →
       Runs (.patrolScrub addr false false) s s.dev ∧
       (protSize s.dev ≤ addr - ddrBase →
         Runs (.patrolScrub addr true false) s (s.dev.updMem (fun m => { m with ceCnt := bump m.ceCnt (addr / 256 % 4) 1 })) ∧
         Runs (.patrolScrub addr false true) s (event 0x0B04 2 (be 1 (addr / 256 % 4) ++ be 6 addr)
           (markBad 100 0 (addr - ddrBase) (s.dev.updMem (fun m => { m with ueCnt := bump m.ueCnt (addr / 256 % 4) 1 })))))) ∧
     (s.dev.mem.clearBusy = false → Runs .memClearComplete s s.dev) ∧
     (s.dev.mem.clearBusy = false → regsShut s.dev = false →
       (s.dev.mem.ready = true → Runs (.memClear 1) s { s.dev with mem := { s.dev.mem with clearBusy := true } }) ∧
       (s.dev.mem.ready = false → Runs (.memClear 1) s s.dev) ∧
       Runs (.memClear 4) s { s.dev with mem := { s.dev.mem with clearDone := false } }) ∧
     (s.dev.mem.clearBusy = true → Tab.wf 0 s.dev.mem.ddr = true → ∃ d : Dev, Runs .memClearComplete s d ∧ d.mem.clearBusy = false ∧ d.mem.clearDone = true ∧
       (∀ x : Nat, metaEnd s.dev ≤ x → Tab.get 0 d.mem.ddr x = 0) ∧ (∀ x : Nat, x < metaEnd s.dev → Tab.get 0 d.mem.ddr x = Tab.get 0 s.dev.mem.ddr x) ∧
       d.core = s.dev.core ∧ d.bpm = s.dev.bpm ∧ d.sas = s.dev.sas)) ∧
  (∀ s : State, Powered s →
     (∀ v : Nat, (s.dev.sas.coldLock = true → Runs (.sasColdLock v) s s.dev) ∧ (s.dev.mem.lock = true → Runs (.mecCfgLock v) s s.dev)) ∧
     (∀ v : Nat, v < 2 ^ 31 → regsShut s.dev = false →
       (s.dev.sas.coldLock = false → Runs (.sasColdLock v) s { s.dev with sas := { s.dev.sas with coldSize := fld v 10 0, coldLock := false } }) ∧
       (s.dev.mem.lock = false → 1 ≤ fld v 6 0 → fld v 6 0 ≤ 64 → Runs (.mecCfgLock v) s { s.dev with mem := { s.dev.mem with psize := fld v 6 0 } })) ∧
     (∀ n : Nat, n ≤ 1024 → regsShut s.dev = false → s.dev.sas.coldLock = false → s.dev.mem.ready = true → s.dev.sas.coldBase + 262144 * n ≤ protSize s.dev →
       Runs (.sasColdLock (2 ^ 31 + n)) s { s.dev with sas := { s.dev.sas with coldSize := n, coldLock := true } }) ∧
     (∀ n : Nat, 1 ≤ n → n ≤ 64 → regsShut s.dev = false → s.dev.mem.lock = false → s.dev.mem.trained = true → s.dev.mem.fail = false →
       (17 * (n * gib) / 16 ≤ 4 * s.dev.mem.dimmGib * gib →
         Runs (.mecCfgLock (2 ^ 31 + n)) s { s.dev with mem := { s.dev.mem with psize := n, lock := true } }) ∧
       (4 * s.dev.mem.dimmGib * gib < 17 * (n * gib) / 16 →
         Runs (.mecCfgLock (2 ^ 31 + n)) s { s.dev with mem := { s.dev.mem with psize := n, cfgErr := true } })) ∧
     (s.dev.mem.lock = true → s.dev.mem.ready = false → s.dev.keys.kwrValid = true → Tab.wf 0 s.dev.mem.ddr = true → ∃ d : Dev, Runs .mecInitComplete s d ∧
       d.mem.ready = true ∧ (∀ x : Nat, x < protSize s.dev → Tab.get 0 d.mem.ddr x = 0) ∧
       (∀ x : Nat, protSize s.dev ≤ x → Tab.get 0 d.mem.ddr x = Tab.get 0 s.dev.mem.ddr x) ∧ d.core = s.dev.core ∧ d.sas = s.dev.sas) ∧
     (∀ v : Nat, (bitAt v 31 = false → Runs (.mecReprov v) s s.dev) ∧
       (bitAt v 31 = true → regsShut s.dev = false →
         (reprovRefuse (fld v 30 27) (fld v 26 0) s.dev = true → Runs (.mecReprov v) s { s.dev with mem := { s.dev.mem with reprovRefused := true } }) ∧
         (reprovRefuse (fld v 30 27) (fld v 26 0) s.dev = false → Runs (.mecReprov v) s
           { s.dev with mem := { s.dev.mem with reprov := some (fld v 30 27, fld v 26 0), reprovBusy := true } }))) ∧
     (s.dev.mem.reprov = none → Runs .reprovComplete s s.dev) ∧
     (∀ level index : Nat, s.dev.mem.reprov = some (level, index) →
       let span := if level = 15 then protSize s.dev / 512 else 8 ^ level
       let first := if level = 15 then 0 else index * span
       ∃ d : Dev, Runs .reprovComplete s (prfCount 16 none (Nat.min span (protSize s.dev / 512 - first))
         (event 0x0B07 1 (be 1 level ++ be 4 index) (when_ (level != 15) (touchNode (level + 1) (index / 8)) d))) ∧
       d.mem.reprov = none ∧ d.mem.reprovBusy = false ∧ d.mem.reprovDone = true ∧ (level = 15 → d.mem.rootDoubt = false) ∧
       (∀ x ∈ d.mem.doubts, inside level index x = false) ∧ d.mem.ready = s.dev.mem.ready ∧ d.mem.psize = s.dev.mem.psize)) ∧
  (∀ (d : Dev) (i : Nat), let w := mecCtr 0 i d
     (Tab.get none d.mem.alien (macId 0 i) = none → macOk 0 i d = true ∧ mecStored 0 i d = (sectorCipher i d,
       xorB ((ghash (aesEnc d.mem.macKey (zeros 16)) (sectorCipher i d ++ (be 8 i ++ be 8 w))).take 8) (aesEnc d.mem.macKey (be 8 i ++ be 8 w)))) ∧
     (cached 1 (i / 8) d.mem = true → sectorDoubt d i = false → badIn 100 0 (512 * i) 512 d = false → macOk 0 i d = false →
       openSector i true d = (false, doubtDeclare 0 i 2 (prfCount 15 none 1 d))) ∧
     (cached 1 (i / 8) d.mem = true → sectorDoubt d i = false → badIn 100 0 (512 * i) 512 d = true → ∃ b ∈ d.flt.bad, b.1 = 100 ∧ b.2.2 / 512 = i ∧
       openSector i true d = (false, doubtDeclare 0 i 1
         ((prfCount 15 none 1 d).updMem (fun m => { m with ueCnt := bump m.ueCnt (b.2.2 / 256 % 4) 1 })))) ∧
     (d.mem.psize ≤ 64 → 512 * i < protSize d → mecCtr 0 i (protWrite (512 * i) 512 d) = w + 1 ∧ macOk 0 i (protWrite (512 * i) 512 d) = true))

/-! ### Lanes and clocks (chapter 12) -/

/-- LANE_LOS_DECLARE, LANE_LOS_CLEAR, LANE_LOL_DECLARE, LANE_ACQUIRE_COMPLETE, LANE_ACQUIRE_TIMEOUT, PCS_ALIGN_CHANGE, FOM_MEASURE: the
signal and lock of a lane that is not retired, with their change bits, and what follows them; a lane acquires once it has a signal, and
locks only while its reference stands; alignment follows the PCS; a figure of merit that falls below the margin is recorded (12 R349 to
R352, R356). TX_PLL_UNLOCK, TX_PLL_RELOCK, LANE_WATCHDOG_EXPIRE, LANE_SELFTEST_COMPLETE: a transient lane fault counts and is recorded,
and its recurrence within an hour retires the lane; a relocked transmitter sends again; a lane that fails the self-test that Kiln waits for
is retired with a record (12 R359 to R361, Table 12-7). LNE_CAL, FOREGROUND_RECALIBRATION_END, LNE_TEST, LNE_CTRL, LNE_TXEQ, REFCLK_LOSS, REFCLK_RETURN: a
recalibration runs in the modes of the rule and is refused in the others; a test is refused on a port in use; a register of a lane in use
and taps beyond their sum are not written; a lost reference unlocks its lanes with a record, and its return lets them acquire (12 R344,
R354, R355, R362). What a lane sends for bits, Gray-coded, precoded and inverted as its CTRL says, a receiver of the same settings
recovers, and a squelched lane sends nothing (12 R340, R341, R348). MODEL'S CHOICE: the sign of the taps, and a lane's measurements as operands
(log entry 35); the rate of a lane in no port (log entry 76). -/
def Obligations.Lanes : Prop :=
  (∀ s : State, Powered s → ∀ l : Nat, let x := s.dev.getLane l
     let ref := !bitAt s.dev.pins.refLost (laneRef l)
     (x.retired = true → Runs (.laneLosDeclare l) s s.dev ∧ Runs (.laneLosClear l) s s.dev ∧ (∀ f : Nat, Runs (.laneLolDeclare l f) s s.dev) ∧
       Runs (.laneAcquireTimeout l) s s.dev ∧ (∀ a b : Nat, Runs (.fomMeasure l a b) s s.dev)) ∧
     (x.retired = false →
       Runs (.laneLosDeclare l) s (laneFollow l (s.dev.updLane l (fun x => { x with los := true, lol := true, acq := false, losChg := x.losChg || !x.los, lolChg := x.lolChg || !x.lol }))) ∧
       (x.los = true → Runs (.laneLosClear l) s (laneFollow l (s.dev.updLane l (fun x => { x with los := false, acq := ref, losChg := true })))) ∧
       (∀ f : Nat, f < 2 ^ 16 → Runs (.laneLolDeclare l f) s (laneFollow l (s.dev.updLane l (fun x => { x with lol := true, acq := !x.los && ref, lolChg := x.lolChg || !x.lol, freqOfs := f })))) ∧
       (∀ f : Nat, f < 2 ^ 16 → bitAt s.dev.pins.refLost (laneRef l) = false → x.acq = true → x.los = false →
         Runs (.laneAcquireComplete l f) s (laneFollow l (s.dev.updLane l (fun x => { x with lol := false, acq := false, lolChg := x.lolChg || x.lol, freqOfs := f })))) ∧
       (x.acq = true → Runs (.laneAcquireTimeout l) s (laneFollow l (s.dev.updLane l (fun x => { x with acq := ref, cntAcq := Nat.min 255 (x.cntAcq + 1) })))) ∧
       (x.los = false → Runs (.laneLosClear l) s s.dev) ∧ (x.acq = false → Runs (.laneAcquireTimeout l) s s.dev)) ∧
     (∀ f : Nat, bitAt s.dev.pins.refLost (laneRef l) = true → Runs (.laneAcquireComplete l f) s s.dev) ∧
     (∀ (p : Nat) (aligned : Bool), p < 64 → Runs (.pcsAlignChange p aligned) s (updateLoa p (!aligned) s.dev)) ∧
     (∀ (j : Nat) (aligned : Bool), Runs (.pcsAlignChange (64 + j) aligned) s (hpFollow j (s.dev.updHp j (fun h => { h with loa := !aligned })))) ∧
     (∀ fom eye : Nat, fom < 256 → eye < 4 → x.los = false → x.lol = false → x.retired = false →
       let y := fomStep (laneRate l s.dev) fom eye x
       ((y.marginLow = true ∧ x.marginLow = false) → Runs (.fomMeasure l fom eye) s (event 0x0C03 2 (laneData l ++ be 1 fom) (s.dev.updLane l (fun _ => y)))) ∧
       ((y.marginLow = false ∨ x.marginLow = true) → Runs (.fomMeasure l fom eye) s (s.dev.updLane l (fun _ => y))))) ∧
  (∀ s : State, Powered s → ∀ l : Nat, let x := s.dev.getLane l
     let cls := if 64 ≤ l then 5 else 4
     let unit := if 64 ≤ l then l - 64 else l
     let ref := !bitAt s.dev.pins.refLost (laneRef l)
     x.retired = false →
     (let d := laneFollow l (s.dev.updLane l (fun x => { x with acq := x.acq && ref, squelch := true, cntPll := Nat.min 255 (x.cntPll + 1) }))
      (recurs cls unit 3600 s.dev = false → Runs (.txPllUnlock l) s (event 0x0C04 1 (laneData l ++ be 1 1) (markFault cls unit d))) ∧
      (recurs cls unit 3600 s.dev = true → Runs (.txPllUnlock l) s (laneRetire l 1 0 d))) ∧
     (let d := laneFollow l (s.dev.updLane l (fun x => { laneSet x.los true (!x.los && ref) x with cntCtlr := Nat.min 255 (x.cntCtlr + 1) }))
      (recurs cls unit 3600 s.dev = false → Runs (.laneWatchdogExpire l) s (event 0x0C04 1 (laneData l ++ be 1 2) (markFault cls unit d))) ∧
      (recurs cls unit 3600 s.dev = true → Runs (.laneWatchdogExpire l) s (laneRetire l 2 0 d))) ∧
     Runs (.txPllRelock l) s (s.dev.updLane l (fun x => { x with squelch := false })) ∧
     (∀ fails : List (Nat × Nat), (s.dev.mod.laneTest = false ∨ s.dev.mod.mode ≠ .kiln) → Runs (.laneSelftestComplete fails) s s.dev) ∧
     (s.dev.mod.laneTest = true → s.dev.mod.mode = .kiln → let d := s.dev.updMod (fun m => { m with laneTest := false })
       Runs (.laneSelftestComplete []) s d ∧
       (∀ rate : Nat, Runs (.laneSelftestComplete [(l, rate)]) s (laneRetire l 3 3 (event 0x0C05 3 (laneData l ++ be 1 3 ++ be 1 rate) d))))) ∧
  (∀ s : State, Powered s →
     (∀ l : Nat, regsShut s.dev = false → let x := s.dev.getLane l
       (l < 80 → laneMode s.dev = false → Runs (.lneCal l 1) s ((s.dev.updLane l (fun x => x)).updLane l (fun x => { x with calRefused := true }))) ∧
       (x.retired = false → laneMode s.dev = true → x.acq = false → x.calBusy = false → let d := s.dev.updLane l (fun x => x)
         (d.getLane l).acq = false → (d.getLane l).calBusy = false → (d.getLane l).retired = false →
         Runs (.lneCal l 1) s (laneFollow l (d.updLane l (fun x => { laneSet x.los true false x with calBusy := true })))) ∧
       (x.calBusy = true → x.retired = false → Runs (.foregroundRecalibrationEnd l) s (laneFollow l (s.dev.updLane l (fun x =>
         { x with calBusy := false, calDone := true, acq := !x.los && !bitAt s.dev.pins.refLost (laneRef l) })))) ∧
       (x.retired = true → Runs (.foregroundRecalibrationEnd l) s s.dev) ∧
       (x.calBusy = false → Runs (.foregroundRecalibrationEnd l) s s.dev) ∧
       (∀ v : Nat, v < 2 ^ 31 → let d := s.dev.updLane l (fun x => x)
         ((fld v 1 0 ≠ 0 ∨ fld v 4 3 ≠ 0) → (laneMode s.dev = false ∨ laneInUse l s.dev = true) →
           Runs (.lneTest l v) s (d.updLane l (fun x => { x with testRefused := true }))) ∧
         (((fld v 1 0 = 0 ∧ fld v 4 3 = 0) ∨ (laneMode s.dev = true ∧ laneInUse l s.dev = false)) → Runs (.lneTest l v) s (d.updLane l (fun x =>
           { x with test := fld v 7 0, rate := if (decide (l < 64) && (lanePort l s.dev).isNone) = true then testRate (fld v 7 0) else x.rate })))) ∧
       (∀ v : Nat, (laneInUse l s.dev = true → Runs (.lneCtrl l v) s (s.dev.updLane l (fun x => { x with werr := true }))) ∧
         (laneInUse l s.dev = false → Runs (.lneCtrl l v) s (s.dev.updLane l (fun x => { x with ctrl := fld v 3 0 })))) ∧
       (∀ v : Nat, let sum := tapMag (fld v 5 0) + tapMag (fld v 13 8) + fld v 21 16 + tapMag (fld v 29 24)
         (63 < sum → Runs (.lneTxeq l v) s (s.dev.updLane l (fun x => { x with werr := true }))) ∧
         (sum ≤ 63 → Runs (.lneTxeq l v) s (s.dev.updLane l (fun x =>
           { x with txeq := fld v 5 0 + at_ (fld v 13 8) 8 + at_ (fld v 21 16) 16 + at_ (fld v 29 24) 24 }))))) ∧
     (∀ i : Nat, i < 4 → bitAt s.dev.pins.refLost i = false → Runs (.refclkLoss i) s
       (each (refLanes i) (fun l => onLane l (fun x => laneSet x.los true false x)) (event 0x0C01 3 (be 1 i) (setClk i false s.dev)))) ∧
     (bitAt s.dev.pins.refLost 4 = false → Runs (.refclkLoss 4) s (archiveFlush (deviceFault 1 (event 0x0C01 3 (be 1 4) (setClk 4 false s.dev))))) ∧
     (∀ i : Nat, i < 5 → Runs (.refclkReturn i) s
       (each (refLanes i) (fun l => onLane l (fun x => if (x.los || !x.lol) = true then x else { x with acq := true })) (setClk i true s.dev)))) ∧
  (∀ (rate ctrl : Nat) (bits : List Bool), (isPam4 rate = true → bits.length % 2 = 0) → bitAt ctrl 0 = bitAt ctrl 1 → bitAt ctrl 2 = bitAt ctrl 3 →
     recoverBits rate ctrl (sendLevels rate ctrl bits) = bits ∧
     (∀ x ∈ sendLevels rate ctrl bits, if isPam4 rate = true then x = -3 ∨ x = -1 ∨ x = 1 ∨ x = 3 else x = -1 ∨ x = 1)) ∧
  (∀ (d : Dev) (l : Nat) (bits : List Bool), laneQuiet l d = true → laneLevels l bits d = none)

/-! ### The host interface (chapter 13) -/

/-- HIF_HOSTVER, RING_ENABLE, RING_PI_WRITE, HIQ_PI_WRITE, HXQ_BPI_WRITE: the version agrees on major 1 or is incompatible; a ring, queue
or message ring is enabled only under an agreed version, with aligned bases and a size in range; a producer index beyond the ring halts
it; a posted buffer is read from its ring (13 R367, R368, R375, R377). INJECTION_FRAME_SEND, MSIX_HOLDOFF_EXPIRY, FUNCTION_RESET,
POWER_STATE_D3HOT: a host queue reads its next entry and then the frame, into cells; a frame that its queue's filter, its port and its length
allow is sent, any other is dropped and counted; a holdoff that ends signals what waited; a function reset disables every ring and queue,
forgets the host's version and records itself; in D3hot nothing goes to the host, and what waited goes out on the return (13 R363, R376,
R378, R379, R380). MODEL'S CHOICE: what D3hot holds goes out in order on the return (log entry 14); CAUSE without HALT, and ring indices over
a function reset (log entry 31); the link's rate and width (log entry 79). -/
def Obligations.HostInterface : Prop :=
  (∀ s : State, Powered s → regsShut s.dev = false →
     (∀ v : Nat, let d := when_ (s.dev.hif.link == 0) linkTrain s.dev
       (anyQueueOn s.dev = true → Runs (.hifHostver v) s d) ∧
       (anyQueueOn s.dev = false →
         (bitAt (fld v 15 0) 1 = true → Runs (.hifHostver v) s { d with hif :=
           { d.hif with hostVer := fld v 19 0, maj := 1, min := 0, valid := true, incompat := false } }) ∧
         (bitAt (fld v 15 0) 1 = false → Runs (.hifHostver v) s (hostErr 5 { d with hif :=
           { d.hif with hostVer := fld v 19 0, maj := 0, min := 0, valid := false, incompat := true } })))) ∧
     (∀ r v : Nat, r < 64 → v < 2 ^ 31 → let g := s.dev.getRing r
       (g.en = true → Runs (.ringEnable r (2 ^ 31 + v)) s s.dev) ∧
       (g.en = false → s.dev.hif.valid = true → g.rbase % 64 = 0 → g.cbase % 64 = 0 → 6 ≤ fld v 4 0 → fld v 4 0 ≤ 16 →
         let tooMany := (g.pi + 2 ^ 32 - g.ci) % 2 ^ 32 > 2 ^ fld v 4 0
         let d := s.dev.updRing r (fun g => { g with rcfg := v, en := true })
         ((g.halt = true ∨ ¬tooMany) → Runs (.ringEnable r (2 ^ 31 + v)) s d) ∧
         (g.halt = false → tooMany → Runs (.ringEnable r (2 ^ 31 + v)) s
           (event 0x0D01 2 (be 1 r ++ be 1 2) (d.updRing r (fun g => { g with halt := true, cause := 2 }))))) ∧
       (g.en = false → (s.dev.hif.valid = false ∨ g.rbase % 64 ≠ 0 ∨ g.cbase % 64 ≠ 0 ∨ fld v 4 0 < 6 ∨ 16 < fld v 4 0) →
         Runs (.ringEnable r (2 ^ 31 + v)) s (s.dev.updRing r (fun g => { g with rcfg := v, cause := 1 }))) ∧
       Runs (.ringEnable r v) s (s.dev.updRing r (fun g => { g with rcfg := v, en := false, halt := false, cause := 0 }))) ∧
     (∀ q v : Nat, q < 16 → v < 2 ^ 31 → (s.dev.getInj q).en = false → s.dev.hif.valid = true → (s.dev.getInj q).base % 16 = 0 → 4 ≤ fld v 11 8 → fld v 11 8 ≤ 12 →
       Runs (.ringEnable (64 + q) (2 ^ 31 + v)) s (s.dev.updInj q (fun g => { g with cfg := v, en := true }))) ∧
     (∀ q v : Nat, q < 16 → v < 2 ^ 31 → (s.dev.getExt q).en = false → s.dev.hif.valid = true → (s.dev.getExt q).bbase % 8 = 0 → (s.dev.getExt q).cbase % 32 = 0 →
       4 ≤ fld v 11 8 → fld v 11 8 ≤ 12 → Runs (.ringEnable (80 + q) (2 ^ 31 + v)) s (s.dev.updExt q (fun g => { g with cfg := v, en := true }))) ∧
     (∀ v : Nat, v < 2 ^ 31 →
       Runs (.ringEnable 96 v) s { s.dev with hif := { s.dev.hif with hmbCfg := v, hmbEn := false } } ∧
       (s.dev.hif.hmbEn = true → Runs (.ringEnable 96 (2 ^ 31 + v)) s s.dev) ∧
       (s.dev.hif.hmbEn = false →
         (s.dev.hif.valid = true → s.dev.hif.hmbBase % 64 = 0 → 4 ≤ fld v 3 0 → fld v 3 0 ≤ 12 →
           Runs (.ringEnable 96 (2 ^ 31 + v)) s { s.dev with hif := { s.dev.hif with hmbCfg := v, hmbEn := true } }) ∧
         ((s.dev.hif.valid = false ∨ s.dev.hif.hmbBase % 64 ≠ 0 ∨ fld v 3 0 < 4 ∨ 12 < fld v 3 0) →
           Runs (.ringEnable 96 (2 ^ 31 + v)) s { s.dev with hif := { s.dev.hif with hmbCfg := v, hmbEn := false } }))) ∧
     (∀ r v : Nat, v < 2 ^ 32 → let d := s.dev.updRing r (fun g => { g with pi := v })
       let g := d.getRing r
       let full := decide ((g.pi + 2 ^ 32 - g.ci) % 2 ^ 32 > 2 ^ fld g.rcfg 4 0)
       (g.en = true → g.halt = false → full = true → Runs (.ringPiWrite r v) s
         (event 0x0D01 2 (be 1 r ++ be 1 2) (d.updRing r (fun g => { g with halt := true, cause := 2 })))) ∧
       ((g.en = false ∨ g.halt = true ∨ full = false) → Runs (.ringPiWrite r v) s d)) ∧
     (∀ q v : Nat, v < 2 ^ 32 → Runs (.hiqPiWrite q v) s (s.dev.updInj q (fun g => if bitAt g.cfg 7 = true then g else { g with pi := v }))) ∧
     (∀ (q v : Nat) (bufs : List Nat), v < 2 ^ 32 → Runs (.hxqBpiWrite q v bufs) s
       ((bufReads q bufs.length s.dev).updExt q (fun g => { g with bpi := v, bufs := g.bufs ++ bufs })))) ∧
  (∀ s : State, Powered s →
     (∀ (q : Nat) (h : HostFrame) (fail : Bool), let g := s.dev.getInj q
       (g.en = false → Runs (.injectionFrameSend q h fail) s s.dev) ∧
       (g.en = true → g.frames = [] → injReads q s.dev = false → Runs (.injectionFrameSend q h fail) s s.dev) ∧
       (g.en = true → injReads q s.dev = true → h.entry.length = 16 → let size := 2 ^ fld g.cfg 11 8
         let d := dmaRead (leAt h.entry 0 8) (leAt h.entry 8 2) (dmaRead (g.base + 16 * (g.ci % size)) 16 s.dev)
         ((fail = true ∨ h.data.length ≠ leAt h.entry 8 2) → Runs (.injectionFrameSend q h fail) s
           (dmaFailed 1 q (d.updInj q (fun g => { g with drop := sat64 (g.drop + 1), ci := (g.ci + 1) % 2 ^ 32 })))) ∧
         (∀ (l : List Nat) (d1 : Dev), fail = false → h.data.length = leAt h.entry 8 2 →
           takeCells (0xA0 + q) (ceilDiv h.data.length 256) d = (some l, d1) →
           Runs (.injectionFrameSend q h fail) s (injSend q (d1.updInj q (fun g => { g with frames := [⟨h.data, l⟩] }))))) ∧
       (∀ (f : InjFrame) (rest : List InjFrame), g.en = true → g.frames = f :: rest → bitAt g.cfg 6 = false →
         let p := fld g.cfg 5 0
         (injEtype g f.bytes = true → portEnabled s.dev p = true → portDead s.dev p = false → 60 ≤ f.bytes.length → f.bytes.length ≤ 9724 →
           Runs (.injectionFrameSend q h fail) s (injPop q (lineEmit p (.frame p f.bytes (!badCells f.cells s.dev)) s.dev))) ∧
         ((injEtype g f.bytes = false ∨ portEnabled s.dev p = false ∨ portDead s.dev p = true ∨ f.bytes.length < 60 ∨ 9724 < f.bytes.length) →
           Runs (.injectionFrameSend q h fail) s (injPop q (s.dev.updInj q (fun g => { g with drop := sat64 (g.drop + 1) })))))) ∧
     (∀ r : Nat, r < 64 → let d := s.dev.updRing r (fun g => { g with holdoff := false, sigPend := false })
       ((s.dev.getRing r).sigPend = true → Runs (.msixHoldoffExpiry r) s (ringSignal r d)) ∧
       ((s.dev.getRing r).sigPend = false → Runs (.msixHoldoffExpiry r) s d)) ∧
     (∀ cause : Nat, Runs (.functionReset cause) s (when_ (cause == 2) linkTrain (event 0x0D03 1 (be 1 cause) (sceOwnerGone reqHost 3
       ((stopExts (each (List.range 16) injFlush (stopRings s.dev))).updHif (forgetHost cause)))))) ∧
     Runs (.powerStateD3hot true) s { s.dev with hif := { s.dev.hif with d3hot := true } } ∧
     (let h := s.dev.hif
      Runs (.powerStateD3hot false) s (each h.heldSubs (fun x d => submitOrFault x.2.1 x.2.2 x.1 d) { s.dev with
        hif := { h with d3hot := false, held := [], heldSubs := [], hmbLate := 0,
                        ring := h.ring.map (fun e => (e.1, { e.2 with late := 0 })), ext := h.ext.map (fun e => (e.1, { e.2 with late := 0 })) }
        out := h.held.map Out.host ++ s.dev.out })))

/-- DESCRIPTOR_FETCH, DMA_READ_TIMEOUT, NOP, MSG_SEND, HIF_COPY: a ring that may fetch reserves two completions and submits its
descriptor, a malformed one completes at once as BAD_COMMAND; a failed read halts the ring; a NOP completes; a host message enters a
mailbox with room; a copy moves bytes between host memory and the part of DDR5 that the host may reach (13 R366, R369, R371, R374, R378). -/
def Obligations.HostCommands : Prop :=
  ∀ s : State, Powered s →
    (∀ (r : Nat) (desc image : Bytes) (imageFail : Bool), let g := s.dev.getRing r
      ((g.en = false ∨ g.halt = true ∨ s.dev.hif.d3hot = true) → Runs (.descriptorFetch r desc image false imageFail) s s.dev) ∧
      (g.en = true → g.halt = false → s.dev.hif.d3hot = false → g.waiting = none → g.ci ≠ g.pi →
        (g.cpi + 2 ^ 32 - g.cci) % 2 ^ 32 + g.reserved + 2 ≤ 2 ^ fld g.rcfg 4 0 →
        let b := fit 64 desc
        let x := descOf b image
        let sub : Sub := ⟨.ring r, descTag b, 0, g.ci⟩
        let e := dmaRead (g.rbase + 64 * (g.ci % 2 ^ fld g.rcfg 4 0)) 64 s.dev
        let d := e.updRing r (fun g => { g with ci := (g.ci + 1) % 2 ^ 32, reserved := g.reserved + 2 })
        let i := when_ (readsImage x.code) (dmaRead (imageAddr x) 64) d
        Runs (.descriptorFetch r desc image true imageFail) s (haltRing r 3 (dmaFailed 0 r e)) ∧
        Runs (.dmaReadTimeout .fetch r) s (haltRing r 3 (dmaFailed 0 r e)) ∧
        (descOk b x = false → Runs (.descriptorFetch r desc image false imageFail) s (refuseDesc sub x.code stBAD_COMMAND d)) ∧
        (descOk b x = true → readsImage x.code = true → imageFail = true →
          Runs (.descriptorFetch r desc image false imageFail) s (refuseDesc sub x.code stDMA_FAULT (dmaFailed 2 r i))) ∧
        (descOk b x = true → (readsImage x.code = true → imageFail = false ∧ image.length = 64) →
          Runs (.descriptorFetch r desc image false imageFail) s (ringTry r (i.updRing r (fun g => { g with waiting := some (sub, x, descFence b) })))))) ∧
    (∀ (r : Nat) (desc : Bytes), ringFetches r s.dev = false →
      Runs (.dmaReadTimeout .fetch r) s s.dev ∧ Runs (.dmaReadTimeout (.command desc) r) s s.dev) ∧
    (∀ (r : Nat) (desc : Bytes), ringFetches r s.dev = true →
      (readsHost (descOf (fit 64 desc) []) = true → Runs (.dmaReadTimeout (.command desc) r) s (doDescriptorFetch r desc [] false true s.dev)) ∧
      (readsHost (descOf (fit 64 desc) []) = false → Runs (.dmaReadTimeout (.command desc) r) s s.dev)) ∧
    (∀ q : Nat, let g := s.dev.getInj q
      ((g.en = false ∨ injReads q s.dev = false) → Runs (.dmaReadTimeout .frame q) s s.dev) ∧
      (g.en = true → injReads q s.dev = true → Runs (.dmaReadTimeout .frame q) s (dmaFailed 1 q
        ((dmaRead (g.base + 16 * (g.ci % 2 ^ fld g.cfg 11 8)) 16 s.dev).updInj q
          (fun g => { g with drop := sat64 (g.drop + 1), ci := (g.ci + 1) % 2 ^ 32 }))))) ∧
    (∀ b : Sub, Runs (.nop b) s (complete b 5 stOK [] s.dev)) ∧
    (∀ (b : Sub) (msg : Bytes), fld (leAt msg 0 8) 3 0 = 0 → fld (leAt msg 0 8) 21 19 = 0 →
      let c := fld (leAt msg 0 8) 9 4
      (coreAlive (s.dev.getCore c) = false → Runs (.msgSend b msg) s (complete b 5 stBAD_DEST [] s.dev)) ∧
      (coreAlive (s.dev.getCore c) = true → (s.dev.getCore c).mailbox.length < 64 → Runs (.msgSend b msg) s (complete b 5 stOK []
        (s.dev.updCore c (fun k => { k with mailbox := k.mailbox ++ [withSrc (messageOf msg) reqHost] })))) ∧
      (coreAlive (s.dev.getCore c) = true → 64 ≤ (s.dev.getCore c).mailbox.length → Runs (.msgSend b msg) s (complete b 5 stBUSY [] s.dev))) ∧
    (∀ (b : Sub) (host off len : Nat) (data : Bytes), 0 < len → len ≤ 2 ^ 24 →
      (s.dev.mem.lock = true → ddrCheck .host off len true s.dev = .ok → data.length = len →
        Runs (.hifCopy b host (ddrBase + off) len 0 data) s (complete b 5 stOK [] (ddrWrite .host off data (dmaRead host len s.dev)).2)) ∧
      (s.dev.mem.lock = true → ddrCheck .host off len true s.dev = .ok → data.length ≠ len →
        Runs (.hifCopy b host (ddrBase + off) len 0 data) s (complete b 5 stDMA_FAULT [] (dmaFailed 2 (subRing b) (dmaRead host len s.dev)))) ∧
      (s.dev.mem.lock = true → ddrCheck .host off len false s.dev = .ok →
        Runs (.hifCopy b host (ddrBase + off) len 1 data) s (complete b 5 stOK [] (hostOut (.dma host (getBytes s.dev.mem.ddr off len)) s.dev))) ∧
      (s.dev.mem.lock = false → Runs (.hifCopy b host (ddrBase + off) len 1 data) s (complete b 5 stMEM_FAULT [] (ddrFail .host off len false .blocked s.dev))))

/-! ### Modes, life cycle, resets, zeroise, attestation (chapter 14) -/

/-- MOD_REQ_*: a request that no row of Table 14-7 refuses is carried out, and MOD_MODE then names the target and the mode it came from;
a request for SWAP is held while its images are verified; a refused one leaves the mode, sets REFUSED and REFCODE and records event
0x0E06; a write of the block disarms its writer's MOD_LCREQ; a core at task level that stores to the register takes BUSSTORE and requests
nothing (14 R384, R388, R390, R401, 16 R446). MODEL'S CHOICE: the order of the refusals, and which write disarms (log entry 36). -/
def Obligations.ModeRequests : Prop :=
  (∀ s : State, Powered s → ∀ r : Nat, taskReq r s.dev = true →
    (∀ x ∈ [Instr.modReqFactory r, .modReqEnrol r, .modReqSolo r, .modReqLead r, .modReqShadow r, .modReqService r, .modReqFallow r],
      Runs x s (taskStore r 0x10004 s.dev)) ∧
    (∀ rt mc : Nat, Runs (.modReqSwap r rt mc) s (taskStore r 0x10004 s.dev))) ∧
  ∀ s : State, Powered s → ∀ r : Nat, taskReq r s.dev = false → let d := disarm r s.dev
    (∀ x ∈ [(Instr.modReqFactory r, Mode.factory), (.modReqEnrol r, .enrol), (.modReqSolo r, .solo), (.modReqLead r, .lead),
        (.modReqShadow r, .shadow), (.modReqService r, .service), (.modReqFallow r, .fallow)],
      (modRefCode x.2 d = 0 → Runs x.1 s (modEnter x.2 d) ∧ (modEnter x.2 d).mod.mode = x.2 ∧ (modEnter x.2 d).mod.prev = s.dev.mod.mode) ∧
      (modRefCode x.2 d ≠ 0 → Runs x.1 s (modRefuse x.2.code (modRefCode x.2 d) r d) ∧
        (modRefuse x.2.code (modRefCode x.2 d) r d).mod.mode = s.dev.mod.mode ∧ (modRefuse x.2.code (modRefCode x.2 d) r d).mod.refused = true)) ∧
    (∀ rt mc : Nat, rt < 4 → mc < 4 →
      (modRefCode .swap d = 0 → Runs (.modReqSwap r rt mc) s { d with mod := { d.mod with
        change := some (.swap, d.mod.mode), changeReq := r, swapRt := rt, swapMc := mc, swapOrigin := d.mod.mode, swapNewRt := none, swapNewMc := none } }) ∧
      (modRefCode .swap d ≠ 0 → Runs (.modReqSwap r rt mc) s (modRefuse 8 (modRefCode .swap d) r d)))

/-- SWAP_IMAGES_VERIFIED, SWAP_RELOAD_COMPLETE, MOD_SVNCOMMIT: verified images that are a tested pair begin the SWAP, anything else ends
the request with REFCODE 6, an untested pair with event 0x0E03 (log entry 64); the images loaded are measured and the mode returns with
REASON 13, or FALLOW follows with REASON 4; a fused value takes the active image's SVN where that is higher, in four modes only (14 R400 to R403). -/
def Obligations.Activation : Prop :=
  ∀ s : State, Powered s →
    (∀ o : Mode, s.dev.mod.change = some (.swap, o) →
      let rt := swapImage 1 s.dev.mod.swapRt s.dev.mod.runtime s.dev
      let mc := swapImage 2 s.dev.mod.swapMc s.dev.mod.micro rt.2
      let e : Dev := { mc.2 with mod := { mc.2.mod with change := none } }
      (∀ i j : Image, rt.1 = some i → mc.1 = some j →
        (testedPair i j = true → Runs .swapImagesVerified s (swapEnter i j mc.2) ∧ (swapEnter i j mc.2).mod.mode = .swap) ∧
        (testedPair i j = false → Runs .swapImagesVerified s (modRefuse 8 6 mc.2.mod.changeReq (event 0x0E03 2 (be 4 i.imgVer ++ be 4 j.imgVer) e)))) ∧
      ((rt.1 = none ∨ mc.1 = none) → Runs .swapImagesVerified s (modRefuse 8 6 mc.2.mod.changeReq e))) ∧
    (s.dev.mod.change = none → Runs .swapImagesVerified s s.dev) ∧
    (∀ ok : Bool,
      (s.dev.mod.mode ≠ .swap → Runs (.swapReloadComplete ok) s s.dev) ∧
      (s.dev.mod.mode = .swap → swapChoice ok s.dev = none → Runs (.swapReloadComplete ok) s (enterFallow .fallow 4 s.dev)) ∧
      (∀ (i : Image) (b : Bytes), s.dev.mod.mode = .swap → swapChoice ok s.dev = some (i, b) →
        let d := loadRuntime b (mrExtend 2 2 (mrImage i) { s.dev with mod := { s.dev.mod with runtime := some i } })
        (d.mod.swapNewMc = none → Runs (.swapReloadComplete ok) s
          (enterMode d.mod.swapOrigin 13 { d with mod := { d.mod with swapNewRt := none, swapNewMc := none } })) ∧
        (∀ m : Image, d.mod.swapNewMc = some m →
          let e := restartLanes (mrExtend 1 1 (mrImage m) { d with mod := { d.mod with micro := some m } })
          Runs (.swapReloadComplete ok) s (enterMode e.mod.swapOrigin 13 { e with mod := { e.mod with swapNewRt := none, swapNewMc := none } })))) ∧
    (∀ r v : Nat, let d := disarm r s.dev
      ((d.mod.mode ≠ .solo ∧ d.mod.mode ≠ .lead ∧ d.mod.mode ≠ .shadow ∧ d.mod.mode ≠ .service) → Runs (.modSvncommit r v) s d) ∧
      (∀ i : Image, (d.mod.mode = .solo ∨ d.mod.mode = .lead ∨ d.mod.mode = .shadow ∨ d.mod.mode = .service) → d.mod.runtime = some i →
        (i.svn ≤ d.mod.fuses.svnRt → Runs (.modSvncommit r 1) s d) ∧
        (d.mod.fuses.svnRt < i.svn → i.svn ≤ 64 → Runs (.modSvncommit r 1) s (event 0x0E08 1 (be 1 1 ++ be 1 i.svn)
          { d with mod := { d.mod with fuses := { d.mod.fuses with svnRt := i.svn } } }))))

/-- MOD_LCKEY, ENROL_DONE, SEAL, RETURN, SCRAP, FUSE_OWNER, FUSE_OWNERONLY, FUSE_BLOW_COMPLETE: the key value arms its writer's next
request; a request that is not armed, is in a wrong mode or misses its condition is refused by its code and changes no fuse; an accepted
one destroys KWR first where it changes the life cycle; the fuses then hold the operation's result, and a warm reset follows a change of
the life cycle; a store of task level raises BUSSTORE (14 R383 to R386, R411, 16 R446). MODEL'S CHOICE: a life-cycle operation that runs
counts as a change, and which write arms and disarms (log entry 36). -/
def Obligations.LifeCycle : Prop :=
  ∀ s : State, Powered s →
    (∀ r : Nat, taskReq r s.dev = true →
      (∀ v : Nat, Runs (.modLckey r v) s (taskStore r 0x10010 s.dev)) ∧
      (∀ x ∈ [Instr.enrolDone r, .lcSeal r, .lcReturn r, .scrap r, .fuseOwner r, .fuseOwneronly r], Runs x s (taskStore r 0x10014 s.dev))) ∧
    (∀ r : Nat, taskReq r s.dev = false → let d := disarm r s.dev
      Runs (.modLckey r 0x4C435943) s { d with mod := { d.mod with lcArmed := r :: d.mod.lcArmed } } ∧
      (∀ v : Nat, v ≠ 0x4C435943 → Runs (.modLckey r v) s d) ∧
      (∀ x ∈ [(Instr.enrolDone r, 1), (.lcSeal r, 2), (.lcReturn r, 3), (.scrap r, 4), (.fuseOwner r, 5), (.fuseOwneronly r, 6)],
        (d.mod.lcBusy = true → Runs x.1 s d) ∧
        (d.mod.lcBusy = false → s.dev.mod.lcArmed.contains r = false →
          Runs x.1 s { d with mod := { d.mod with lcRefused := true, lcCode := 3 } }) ∧
        (d.mod.lcBusy = false → s.dev.mod.lcArmed.contains r = true → x.2 ≠ 3 → lcCheck x.2 d ≠ 0 →
          Runs x.1 s { d with mod := { d.mod with lcRefused := true, lcCode := lcCheck x.2 d } })) ∧
      (d.mod.lcBusy = false → s.dev.mod.lcArmed.contains r = true →
        (lcCheck 1 d = 0 → Runs (.enrolDone r) s (lcStart 1 .enrolled d)) ∧
        (lcCheck 2 d = 0 → Runs (.lcSeal r) s (lcStart 2 .sealed d)) ∧
        (lcCheck 4 d = 0 → Runs (.scrap r) s (lcStart 4 .scrapped d)) ∧
        (lcCheck 6 d = 0 → Runs (.fuseOwneronly r) s (lcStart 6 d.mod.fuses.life d)) ∧
        (∀ b : Bytes, lcCheck 5 d = 0 → (engRead r d.mod.lcArg 1952 d).1 = some b → let e := (engRead r d.mod.lcArg 1952 d).2
          Runs (.fuseOwner r) s (lcStart 5 d.mod.fuses.life { e with mod := { e.mod with lcHash := shake256 b 32 } })) ∧
        (∀ b : Bytes, lcCheck 3 d = 0 → (engRead r d.mod.lcArg 3350 d).1 = some b →
          (authOk b d = true → Runs (.lcReturn r) s (lcStart 3 .returned (newNonce (engRead r d.mod.lcArg 3350 d).2))) ∧
          (authOk b d = false → Runs (.lcReturn r) s (lcRefuse 4 (newNonce (engRead r d.mod.lcArg 3350 d).2)))))) ∧
    (s.dev.mod.lcOp = none → ∀ ok : Bool, Runs (.fuseBlowComplete ok) s s.dev) ∧
    (∀ (op : Nat) (target : Life), s.dev.mod.lcOp = some (op, target) →
      let d := { s.dev with mod := { s.dev.mod with fuses := lcFuses op target s.dev.mod, lcOp := none, lcBusy := false, lcDone := true } }
      (4 < op → Runs (.fuseBlowComplete true) s d) ∧
      (op ≤ 4 → let e := resetDev false 2 (event 0x0E05 3 (be 1 s.dev.mod.fuses.life.code ++ be 1 target.code) d)
        Runs (.fuseBlowComplete true) s e ∧ e.mod.fuses.life = target ∧ e.mod.mode = .reset ∧ e.mod.rstCause = 2))

/-- MOD_RESET, COLD_RESET, KILN_BOOT, TAMPER_RELEASE_WAIT, MOD_BIST, BIST_COMPLETE: a reset enters RESET with its cause, its memories
wiped and its fuses kept; Kiln tries the images once DDR5 training and the lane self-test have ended, then stays in KILN on a SCRAPPED device
and while the tamper input is asserted, and starts the mode otherwise; a BIST runs in four modes and ends in a warm reset (14 R391, R392,
R398, R410). -/
def Obligations.Resets : Prop :=
  (∀ s : State, Runs .coldReset s (resetDev true 0 s.dev) ∧ (s.dev.mod.lcOp = none →
      (resetDev true 0 s.dev).mod.fuses = s.dev.mod.fuses) ∧ (resetDev true 0 s.dev).mod.mode = .reset ∧
      (resetDev true 0 s.dev).mod.rstCause = 0 ∧ (resetDev true 0 s.dev).keys = {} ∧ (resetDev true 0 s.dev).tab = {} ∧
      (resetDev true 0 s.dev).mem.shared = [] ∧ (resetDev true 0 s.dev).pins.stopped = false) ∧
  (∀ s : State, Powered s →
    (∀ r : Nat, taskReq r s.dev = false → (disarm r s.dev).mod.lcOp = none → let d := resetDev false 1 (disarm r s.dev)
      Runs (.modReset r 0x57525354) s d ∧ d.mod.mode = .reset ∧ d.mod.rstCause = 1 ∧ d.mod.fuses = s.dev.mod.fuses ∧ d.keys = {} ∧ d.tab = {} ∧
      (∀ v : Nat, v ≠ 0x57525354 → Runs (.modReset r v) s (disarm r s.dev))) ∧
    (∀ r : Nat, taskReq r s.dev = true → ∀ v : Nat, Runs (.modReset r v) s (taskStore r 0x10030 s.dev)) ∧
    (s.dev.mod.mode = .kiln →
      ((s.dev.mod.kilnDone = true ∨ (s.dev.mem.trained = false ∧ s.dev.mem.fail = false) ∨ laneTestDue s.dev = true) → Runs .kilnBoot s s.dev) ∧
      (s.dev.mod.kilnDone = false → (s.dev.mem.trained = true ∨ s.dev.mem.fail = true) → laneTestDue s.dev = false →
        let d := kilnImages s.dev
        (d.mod.fuses.life = .scrapped → Runs .kilnBoot s (d.updMod (fun m => { m with reason := 11 }))) ∧
        (d.mod.fuses.life ≠ .scrapped → d.pins.tamper = true → Runs .kilnBoot s (d.updMod (fun m => { m with reason := 12, kilnWait := true }))) ∧
        (d.mod.fuses.life ≠ .scrapped → d.pins.tamper = false →
          let t := startMode d.mod.kilnReq d.mod.micro d.mod.runtime d
          let e := when_ d.mod.runtime.isSome (loadRuntime d.mod.kilnBody) (reportUntested t.2 d.mod.micro d.mod.runtime d)
          Runs .kilnBoot s (each (List.range 8) hpFollow
            (modeStarted t.1 (enterMode t.1 t.2 (e.updMod (fun m => { m with kilnWait := false, kilnBody := [] })))))))) ∧
    (s.dev.mod.mode = .reset → Runs .kilnBoot s (kilnGo (kilnEnter s.dev)) ∧ (kilnEnter s.dev).mod.mode = .kiln) ∧
    (s.dev.mod.mode ≠ .reset → s.dev.mod.mode ≠ .kiln → Runs .kilnBoot s s.dev) ∧
    (let d := { s.dev with pins := { s.dev.pins with tamper := false } };
      ((s.dev.mod.mode ≠ .kiln ∨ s.dev.mod.kilnWait = false) → Runs .tamperReleaseWait s d) ∧
      (s.dev.mod.mode = .kiln → s.dev.mod.kilnWait = true → Runs .tamperReleaseWait s (kilnStart { d with mod := { d.mod with kilnWait := false } }))) ∧
    (∀ r : Nat, let d := disarm r s.dev
      (laneMode d = true → Runs (.modBist r 1) s { d with mod := { d.mod with bistRun := true } }) ∧
      (laneMode d = false → Runs (.modBist r 1) s { d with mod := { d.mod with bistRefused := true } })) ∧
    (∀ (pass : Bool) (cls unit : Nat), s.dev.mod.bistRun = false → Runs (.bistComplete pass cls unit) s s.dev) ∧
    (∀ cls unit : Nat, s.dev.mod.bistRun = true →
      let d := resetDev false 3 { s.dev with mod := { s.dev.mod with bistRun := false, bistRes := 3 } }
      Runs (.bistComplete true cls unit) s d ∧ d.mod.bistRes = 3 ∧ d.mod.rstCause = 3) ∧
    (∀ cls unit : Nat, s.dev.mod.bistRun = true → cls < 256 → unit < 65536 →
      let d := { s.dev with mod := { s.dev.mod with bistRun := false, bistRes := 1 + at_ cls 8 + at_ unit 16 } }
      Runs (.bistComplete false cls unit) s (resetDev false 3 (bistUnit cls unit (event 0x0E07 3 (be 1 cls ++ be 1 unit) d)))))

/-- MOD_ZEROISE_LOCAL, MOD_ZEROISE_MESH, TAMPER_ASSERT: a zeroise event destroys KWR, the stored keys and the memories and enters
ZEROISED with its REASON; in ZEROISED it destroys the keys again and records nothing; a mesh-wide one sends its frame first, and a tamper
event overwrites the link keys; a store of task level raises BUSSTORE (14 R409, R410, 15 Table 15-8, 16 R446). -/
def Obligations.Zeroise : Prop :=
  (∀ s : State, Powered s → ∀ r : Nat, taskReq r s.dev = true →
    Runs (.modZeroiseLocal r) s (taskStore r 0x1003C s.dev) ∧ Runs (.modZeroiseMesh r) s (taskStore r 0x1003C s.dev)) ∧
  (∀ s : State, Powered s → ∀ r : Nat, taskReq r s.dev = false → let d := disarm r s.dev
    (d.mod.mode ≠ .reset → d.mod.mode ≠ .kiln →
      Runs (.modZeroiseLocal r) s (zeroiseSeq 7 2 2 d) ∧ (zeroiseSeq 7 2 2 d).mod.mode = .zeroised ∧ (zeroiseSeq 7 2 2 d).keys.kwrValid = false) ∧
    (d.mod.mode ≠ .reset → d.mod.mode ≠ .kiln → d.mod.mode ≠ .zeroised → let e := zeroiseSeq 7 2 2 d
      e.mod.reason = 7 ∧ e.keys.kek = [] ∧ e.keys.lpk = [] ∧ e.keys.tickets = [] ∧ e.mem.shared = [] ∧ e.views = [] ∧ e.tab.sa = []) ∧
    (d.mod.mode ≠ .reset → d.mod.mode ≠ .kiln →
      Runs (.modZeroiseMesh r) s (zeroiseSeq 8 3 2 (zeroiseOut 3 d)) ∧ (zeroiseSeq 8 3 2 (zeroiseOut 3 d)).mod.mode = .zeroised) ∧
    (d.mod.mode = .kiln → Runs (.modZeroiseLocal r) s (zeroiseEarly 2 2 d) ∧ (zeroiseEarly 2 2 d).mod.mode = .kiln)) ∧
  (∀ s : State, let d := { s.dev with pins := { s.dev.pins with tamper := true } }
    s.dev.mod.mode ≠ .reset → s.dev.mod.mode ≠ .kiln →
    (bitAt s.dev.twn.cfg 3 = false → Runs .tamperAssert s (zeroiseSeq 6 1 1 (overwriteLinks d)) ∧ (zeroiseSeq 6 1 1 (overwriteLinks d)).mod.mode = .zeroised) ∧
    (bitAt s.dev.twn.cfg 3 = true → Runs .tamperAssert s (zeroiseSeq 6 1 1 (overwriteLinks (zeroiseOut 1 d)))) ∧
    (∀ j : Nat, j < 8 → (s.dev.getHp j).state ≠ 5 → ((overwriteLinks d).getHp j).txKey = [] ∧ ((overwriteLinks d).getHp j).rxKey = [] ∧
      ((overwriteLinks d).getHp j).state = 0))

/-- MOD_MREXT, MOD_MRSEL, MOD_ATTCTRL, ATTEST_COMPLETE: a measurement register is extended by 64 bytes, MR5 to MR7 only; a selected
register is copied; an attestation is refused without its key or its memory, and ends with the report, signed over bytes 0 to 639, at
its address (14 R407, R408, R411). The signature's random bytes are a free value (log entry 3). -/
def Obligations.Attestation : Prop :=
  ∀ s : State, Powered s → ∀ r : Nat, let d := disarm r s.dev
    (taskReq r s.dev = false → ∀ i : Nat, i < 8 →
      (i < 5 → Runs (.modMrext r i) s d) ∧
      (∀ b : Bytes, 5 ≤ i → (engRead r d.mod.mrArg 64 d).1 = some b →
        let e := mrExtend i 5 b (engRead r d.mod.mrArg 64 d).2
        Runs (.modMrext r i) s e ∧ Tab.get [] e.mod.mr i =
          shake256 (fit 64 (Tab.get [] (engRead r d.mod.mrArg 64 d).2.mod.mr i) ++ be 1 5 ++ be 4 b.length ++ b) 64)) ∧
    (∀ i : Nat, i < 8 → Runs (.modMrsel r i) s { d with mod := { d.mod with mrSel := i, mrData := fit 64 (Tab.get [] d.mod.mr i) } }) ∧
    (let n := engRead r d.mod.attSrc 64 d;
      (d.mod.attBusy = true → Runs (.modAttctrl r 1) s d) ∧
      (d.mod.attBusy = false → (d.getLpk 1).valid = false → Runs (.modAttctrl r 1) s { d with mod := { d.mod with attErr := 1 } }) ∧
      (d.mod.attBusy = false → (d.getLpk 1).valid = true → (n.1 = none ∨ engCanWrite r d.mod.attDst 3949 d = false) →
        Runs (.modAttctrl r 1) s { n.2 with mod := { n.2.mod with attErr := 2 } }) ∧
      (∀ b : Bytes, d.mod.attBusy = false → (d.getLpk 1).valid = true → n.1 = some b → engCanWrite r d.mod.attDst 3949 d = true →
        Runs (.modAttctrl r 1) s { n.2 with mod := { n.2.mod with attBusy := true, attErr := 0, attReq := r } })) ∧
    (s.dev.mod.attBusy = false → Runs .attestComplete s s.dev) ∧
    (∀ b : Bytes, let n := engRead s.dev.mod.attReq s.dev.mod.attSrc 64 s.dev
      let e := { n.2 with mod := { n.2.mod with attBusy := false } }
      let body := attBody b e
      let rnd := freeBytes 32 e
      let w := engWrite e.mod.attReq e.mod.attDst (body ++ fit 3309 (Config.mldsaSign (e.getLpk 1).key body rnd.1)) rnd.2
      s.dev.mod.attBusy = true → n.1 = some b → w.1 = true → Runs .attestComplete s { w.2 with mod := { w.2.mod with attDone := true } })

/-! ### Faults, the recorder, the calendar (chapters 15 and 17) -/

/-- PIPE_PARITY_FAULT, SPARE_KAT_FAIL, SPARE_ROTATE, PIPE_KAT_COMPLETE, SLC_RESTART, SLC_RESTART_COMPLETE: a fault of a traffic
pipeline spoils one frame and the spare takes its place, or the slice fails without one, the pipeline retired where it recurs and its fault's
time kept where not; the faulted pipeline goes under test or is
retired (pipeOut); the spare role rotates while every pipeline stands; a failed slice restarts, or is retired on a recurrence (15 R413 to R418).
Which frame is spoilt is a free value (log entry 23). -/
def Obligations.PipelineFaults : Prop :=
  ∀ s : State, Powered s →
    (∀ sl dir pipe : Nat, pipeLive sl dir pipe s.dev = true →
      (∀ p : Nat, pipeRole sl dir pipe s.dev = 0 → spareOf sl dir s.dev = some p → Runs (.pipeParityFault sl dir pipe false) s
        (pipeOut sl dir pipe 1 (setRole sl dir p 0 (spoilOne sl dir (prfCount 17 (some sl) 1 s.dev))))) ∧
      (pipeRole sl dir pipe s.dev = 0 → spareOf sl dir s.dev = none → Runs (.pipeParityFault sl dir pipe false) s
        (let d := spoilOne sl dir (prfCount 17 (some sl) 1 s.dev)
         let u := pipeUnit sl dir pipe
         sliceFault sl 1 (if recurs 1 u 86400 d = true then retirePipe sl dir pipe 1 d else markFault 1 u d))) ∧
      (pipeRole sl dir pipe s.dev = 1 → Runs (.pipeParityFault sl dir pipe false) s (pipeOut sl dir pipe 1 (prfCount 17 (some sl) 1 s.dev))) ∧
      (2 ≤ pipeRole sl dir pipe s.dev → ∀ mirror : Bool, Runs (.pipeParityFault sl dir pipe mirror) s s.dev) ∧
      (pipeRole sl dir pipe s.dev = 2 → ∀ how : Nat,
        s.dev.flt.underTest.find? (fun e => e.1 == pipeUnit sl dir pipe) = some (pipeUnit sl dir pipe, how) →
        let d := { s.dev with flt := { s.dev.flt with underTest := s.dev.flt.underTest.filter (fun e => e.1 != pipeUnit sl dir pipe) } }
        Runs (.pipeKatComplete sl dir pipe true) s (transientUnit 1 (pipeUnit sl dir pipe) how
          ((setRole sl dir pipe 1 d).updSlice sl (fun x => { x with fltTransient := Nat.min 255 (x.fltTransient + 1) }))) ∧
        Runs (.pipeKatComplete sl dir pipe false) s (retirePipe sl dir pipe how d)) ∧
      (pipeRole sl dir pipe s.dev ≠ 2 → ∀ pass : Bool, Runs (.pipeKatComplete sl dir pipe pass) s s.dev) ∧
      (spareOf sl dir s.dev = some pipe →
        Runs (.spareKatFail sl dir) s (pipeOut sl dir pipe 3 (prfCount 17 (some sl) 1 s.dev)) ∧
        ((∀ q < 5, pipeRole sl dir q s.dev < 2) → Runs (.spareRotate sl dir) s (setRole sl dir pipe 0 (setRole sl dir ((pipe + 1) % 5) 1 s.dev))) ∧
        ((∃ q < 5, 2 ≤ pipeRole sl dir q s.dev) → Runs (.spareRotate sl dir) s s.dev))) ∧
    (∀ (b : Sub) (sl : Nat), let d := clearSlice sl s.dev
      ((s.dev.getSlice sl).state ≠ 1 → Runs (.slcRestart b sl) s (gateDone b stBAD_STATE [] s.dev)) ∧
      ((s.dev.getSlice sl).state = 1 → sliceRecurs sl d = false →
        Runs (.slcRestart b sl) s (d.updSlice sl (fun x => { x with state := 2, restartSub := some (b, d.tck.tno) }))) ∧
      ((s.dev.getSlice sl).state = 1 → sliceRecurs sl d = true →
        Runs (.slcRestart b sl) s (gateDone b stABORTED [] (retireUnit 2 sl 0 (d.updSlice sl (fun x => { x with state := 3 })))))) ∧
    (∀ sl : Nat, let x := s.dev.getSlice sl
      (x.state ≠ 2 → ∀ pass : Bool, Runs (.slcRestartComplete sl pass) s s.dev) ∧
      (∀ (b : Sub) (k : Nat), x.state = 2 → x.restartSub = some (b, k) →
        Runs (.slcRestartComplete sl false) s (gateLate b k stABORTED []
          (retireUnit 2 sl 3 (s.dev.updSlice sl (fun x => { x with state := 3, cause := 6, restartSub := none })))) ∧
        (let d := s.dev.updSlice sl (fun x => { pipesPassed x with state := 0, cause := 0, restartSub := none })
         Runs (.slcRestartComplete sl true) s (gateLate b k stOK [] (event 0x0F14 1 (be 1 sl)
          { d with flt := { d.flt with lastAt := ((2, sl), x.faultAt) :: d.flt.lastAt.filter (fun e => e.1 != (2, sl)) } })))))

/-- SRAM_PATROL, ENGINE_KAT, TEMP_HOT, TEMP_FAULT, RAIL_UNDERVOLTAGE, PWRFAIL_ASSERT: a corrected word counts against its
row (rowCorrected); an uncorrectable one has its region's consequence (sramUncorr), and its recurrence replaces the row (rowRepair); an engine that
fails its test and a junction at 120 degrees are device faults; a junction at 110 degrees is recorded once until it cools below 105; a
failing supply stops the device (11 R311, 15 R419, R421, R426, 17 R456, R464). -/
def Obligations.UnitFaults : Prop :=
  ∀ s : State, Powered s →
    (∀ region row addr unit : Nat, region < 13 →
      Runs (.sramPatrol region row addr unit false) s (rowCorrected region row unit s.dev) ∧
      (recurs 7 row 3600 s.dev = false → Runs (.sramPatrol region row addr unit true) s (sramUncorr region addr unit (markFault 7 row s.dev))) ∧
      (recurs 7 row 3600 s.dev = true → Runs (.sramPatrol region row addr unit true) s
        (rowRepair region row unit (sramUncorr region addr unit (markFault 7 row s.dev))))) ∧
    (∀ row addr slice : Nat, slice < 8 → recurs 7 row 3600 s.dev = false →
      Runs (.sramPatrol 1 row addr slice true) s (sliceFault slice 3 (markFault 7 row s.dev))) ∧
    Runs (.engineKat true true) s s.dev ∧
    Runs (.engineKat false true) s (deviceFault 4 (retireUnit 8 0 3 s.dev)) ∧
    Runs (.engineKat true false) s (deviceFault 4 (retireUnit 9 0 3 s.dev)) ∧
    Runs (.engineKat false false) s (deviceFault 4 (retireUnit 9 0 3 (retireUnit 8 0 3 s.dev))) ∧
    (∀ tj : Nat, tj < 2 ^ 15 → let d := { s.dev with pins := { s.dev.pins with tj := tj } }
      (880 ≤ tj → s.dev.pins.hot = false → Runs (.tempHot tj) s (event 0x0F16 2 (be 2 tj) { d with pins := { d.pins with hot := true } })) ∧
      (880 ≤ tj → s.dev.pins.hot = true → Runs (.tempHot tj) s d) ∧
      (tj < 840 → Runs (.tempHot tj) s { d with pins := { d.pins with hot := false } }) ∧
      (840 ≤ tj → tj < 880 → Runs (.tempHot tj) s d) ∧
      (tj < 960 → Runs (.tempFault tj) s d) ∧
      (960 ≤ tj → Runs (.tempFault tj) s (deviceFault 5 { d with pins := { d.pins with thermTrip := true } }))) ∧
    (∃ d, Runs .pwrfailAssert s d ∧ d.pins.stopped = true ∧ d.pins.pwrFail = true ∧ d.fls.busy = false ∧
      ∀ c : Nat, coreAlive (d.getCore c) = false ∨ d.getCore c = {}) ∧
    (∀ rail : Nat, (7 ≤ rail → Runs (.railUndervoltage rail) s s.dev) ∧
      (rail < 7 → ∃ d, Runs (.railUndervoltage rail) s d ∧ d.pins.stopped = true))

/-- ARCHIVE_COPY, CHECKPOINT, EVR_POSTCTL, EVR_CALSET, CALENDAR_HOLDOVER, PPS_EDGE, PPS_MISSING, TOD_MESSAGE: the waiting records go to
the archive (archiveFlush); a checkpoint is a record of the archive alone; a posted word is recorded with its requester's source; a written calendar
has quality 1, three agreeing seconds in a row give quality 3 and a disagreeing or missing one leaves 2, each edge being judged against the value
that the edge before it left; a message waits for the next accepted
edge, over a missing one too; one that fails its check
is discarded and recorded at most once a minute (15 R433 to R436, 17 R465 to R467). -/
def Obligations.Recorder : Prop :=
  ∀ s : State, Powered s → let e := s.dev.evr
    Runs .archiveCopy s (archiveFlush s.dev) ∧
    Runs .checkpoint s (recordFull 0x0F02 0 4 0 [] true s.dev) ∧
    (∀ r v : Nat,
      ((r = reqJtag ∨ s.dev.mod.mode = .reset ∨ s.dev.mod.mode = .kiln ∨ s.dev.mod.mode = .zeroised) → Runs (.evrPostctl r v) s s.dev) ∧
      (r ≠ reqJtag → s.dev.mod.mode ≠ .reset → s.dev.mod.mode ≠ .kiln → s.dev.mod.mode ≠ .zeroised → Runs (.evrPostctl r v) s
        (recordFull (fld v 15 0) (fld v 17 16) (if r = reqHost then 62 else 63) 1 (le 4 (Tab.get 0 e.postLo r) ++ le 4 (Tab.get 0 e.postHi r)) false s.dev))) ∧
    (∀ v : Nat, v < 2 ^ 48 → regsShut s.dev = false → ∃ d, Runs (.evrCalset v) s d ∧ d.evr.calSec = v ∧ d.evr.calq = 1 ∧ d.evr.ppsRun = 0) ∧
    ((e.calq = 2 → ∃ d, Runs .calendarHoldover s d ∧ d.evr.calq = 1 ∧ d.evr.calSec = e.calSec) ∧
      (e.calq ≠ 2 → Runs .calendarHoldover s s.dev)) ∧
    (∀ m : Nat, e.ppsMsg = some m →
      ∃ d, Runs .ppsEdge s d ∧ d.evr.calSec = m / 2 ∧ d.evr.ppsPrev = some (m / 2) ∧ d.evr.ppsMsg = none ∧ d.evr.ppsOn = true ∧
        (∀ p : Nat, e.ppsPrev = some p →
          (m / 2 = (p + 1) % 2 ^ 48 ∨ (m % 2 = 1 ∧ m / 2 = p) → d.evr.ppsRun = Nat.min 3 (e.ppsRun + 1) ∧ (2 ≤ e.ppsRun → d.evr.calq = 3)) ∧
          (m / 2 ≠ (p + 1) % 2 ^ 48 → m % 2 = 0 ∨ m / 2 ≠ p →
            d.evr.ppsRun = 0 ∧ (e.calq = 3 → d.evr.calq = 2) ∧ (e.calq ≠ 3 → d.evr.calq = e.calq))) ∧
        (e.ppsPrev = none → d.evr.ppsRun = 0)) ∧
    (e.ppsMsg = none → e.calq ≠ 0 → ∃ d, Runs .ppsEdge s d ∧ d.evr.calSec = (e.calSec + 1) % 2 ^ 48 ∧
      d.evr.ppsPrev = some ((e.calSec + 1) % 2 ^ 48) ∧ d.evr.ppsRun = 0 ∧
      (e.calq = 3 → d.evr.calq = 2) ∧ (e.calq ≠ 3 → d.evr.calq = e.calq)) ∧
    ((e.ppsOn = false → Runs .ppsMissing s s.dev) ∧
      (e.ppsOn = true → ∃ d, Runs .ppsMissing s d ∧ d.evr.calSec = (e.calSec + 1) % 2 ^ 48 ∧ d.evr.ppsOn = false ∧ d.evr.ppsMsg = e.ppsMsg ∧
        (e.calq = 3 → d.evr.calq = 2) ∧ (e.calq ≠ 3 → d.evr.calq = e.calq))) ∧
    (∀ b : Bytes,
      let shape := b.length = 12 ∧ beAt b 0 2 = 0xC5A7 ∧ beAt b 10 2 = crc16 (b.take 10)
      let valid := byteAt b 2 = 1 ∧ byteAt b 3 % 2 = 1
      let bad := fun (why : Nat) => event 0x1102 2 (be 1 why) { s.dev with evr := { s.dev.evr with todBad := s.dev.evr.optime + 1 } }
      (shape → valid → Runs (.todMessage b true) s { s.dev with evr := { e with ppsMsg := some (2 * beAt b 4 6 + byteAt b 3 / 2 % 2) } }) ∧
      (e.todBad = 0 ∨ e.todBad + 59999 ≤ e.optime →
        (¬shape → ∀ inTime : Bool, Runs (.todMessage b inTime) s (bad 1)) ∧
        (shape → ¬valid → ∀ inTime : Bool, Runs (.todMessage b inTime) s (bad 2)) ∧
        (shape → valid → Runs (.todMessage b false) s (bad 3))) ∧
      (e.todBad ≠ 0 → e.optime < e.todBad + 59999 → ¬shape → ∀ inTime : Bool, Runs (.todMessage b inTime) s s.dev))

/-! ### Flash, board ports, counters, registers (chapters 16 and 17) -/

/-- FLS_READ, FLS_PROGRAM, FLS_ERASE, FLS_OP_COMPLETE, I3C_CMD, I3C_TRANSFER_COMPLETE, I3C_IBI: an operation of the flash starts, or is
refused by the first row of R451 that holds; a read fills the buffer, a program only clears bits, an erase sets its sector to FF; a
store of task level to FLS_CMD raises BUSSTORE; a transfer starts on an idle enabled port of the two and ends with its flags; an interrupt is kept
where IBIEN is 1 and none is kept (16 R446, R450, R451, 17 R469, R470).
PRF_FREEZE, PRF_CLEAR, PRF_CLR, SAS_STATSEL, SAS_RECSEL, CHN_RECSEL, KEY_SLOTSEL: the device counters freeze together, and clear with
their SAT; a selection register takes the number and copies the selected counters or record at once (02 R66, 05 R136, R160, 07 Table
07-18, 16 R448, R449). The balls of the line lanes, the positions that hold none, and IDCODE's part number (17 R463, R473, R474, Table 17-10). -/
def Obligations.UnitsAndSnapshots : Prop :=
  (∀ s : State, Powered s →
     (∀ r : Nat, regsShut s.dev = false → taskReq r s.dev = true → ∀ x ∈ [Instr.flsRead r, .flsProgram r, .flsErase r], Runs x s (taskStore r 0x70000 s.dev)) ∧
     (∀ r : Nat, regsShut s.dev = false → taskReq r s.dev = false → ∀ x ∈ [(Instr.flsRead r, 1), (.flsProgram r, 2), (.flsErase r, 3)],
       let a := fld s.dev.fls.addr 27 0
       let n := fld s.dev.fls.len 12 0
       (flsRefuse x.2 a n s.dev = 0 → Runs x.1 s { s.dev with fls := { s.dev.fls with busy := true, op := some (x.2, a, n) } }) ∧
       (flsRefuse x.2 a n s.dev ≠ 0 → Runs x.1 s
         { s.dev with fls := { s.dev.fls with refused := true, code := flsRefuse x.2 a n s.dev } })) ∧
     (s.dev.fls.op = none → ∀ ok : Bool, Runs (.flsOpComplete ok) s s.dev) ∧
     (∀ a n : Nat, let f := { s.dev.fls with busy := false, done := true, op := none, suspended := false }
       (s.dev.fls.op = some (1, a, n) → ∀ ok : Bool, Runs (.flsOpComplete ok) s
         { s.dev with fls := { f with buf := putBytes (flsReadBytes s.dev a n) 0 f.buf } }) ∧
       (s.dev.fls.op = some (2, a, n) → ∃ d, Runs (.flsOpComplete true) s d ∧ d.fls.flash = flashProgram (getBytes f.buf 0 n) a f.flash ∧ d.fls.busy = false) ∧
       (s.dev.fls.op = some (3, a, n) →
         (∀ k : Nat, k / 65536 = a / 65536 → ∃ d, Runs (.flsOpComplete true) s d ∧ flashByte d.fls k = 0xFF) ∧
         Runs (.flsOpComplete false) s { s.dev with fls := f })) ∧
     (∀ i : Nat, let x := s.dev.getI3c i
       (∀ v : Nat, 2 ≤ i → regsShut s.dev = false → Runs (.i3cCmd i v) s s.dev) ∧
       (∀ v : Nat, v < 2 ^ 16 → i < 2 → regsShut s.dev = false →
         ((x.busy = true ∨ bitAt x.ctrl 0 = false) → Runs (.i3cCmd i v) s (s.dev.updI3c i (fun x => { x with refused := true }))) ∧
         (x.busy = false → bitAt x.ctrl 0 = true → bitAt v 7 = true → bitAt v 14 = false →
           Runs (.i3cCmd i v) s (emit (.i3c i v []) (s.dev.updI3c i (fun x => { x with busy := true, cmd := v }))))) ∧
       (∀ (nack err : Bool) (data : Bytes),
         (x.busy = false → ∃ d, Runs (.i3cTransferComplete i nack err data) s d ∧ d.getI3c i = x) ∧
         (x.busy = true → bitAt x.cmd 7 = true → nack = false → Runs (.i3cTransferComplete i nack err data) s (s.dev.updI3c i (fun x =>
           { x with busy := false, done := true, err := x.err || err, data := putBytes (data.take (Nat.min 32 (fld x.cmd 13 8))) 0 x.data })))) ∧
       (∀ addr data : Nat, addr < 128 → data < 256 → bitAt x.ctrl 3 = true → x.ibi = false →
         Runs (.i3cIbi i addr data) s (s.dev.updI3c i (fun x => { x with ibi := true, ibiAddr := addr, ibiData := data }))))) ∧
  (∀ s : State, Powered s → regsShut s.dev = false →
     (∀ on : Bool, Runs (.prfFreeze on) s { s.dev with prfFreeze := on }) ∧
     (∃ d, Runs .prfClear s d ∧ d = { s.dev with prf := d.prf } ∧
       ∀ i < 16, (Tab.get {} d.prf i).cnt = 0 ∧ (Tab.get {} d.prf i).sat = false) ∧
     (∀ i < 16, ∃ d, Runs (.prfClr i) s d ∧ d = { s.dev with prf := d.prf } ∧ (Tab.get {} d.prf i).cnt = 0 ∧ (Tab.get {} d.prf i).sat = false) ∧
     (∀ slot : Nat, slot < 2 ^ 17 →
       Runs (.sasStatsel slot) s { s.dev with sas := { s.dev.sas with statSel := slot, statSnap := (s.dev.getLive slot).ctr } } ∧
       Runs (.sasRecsel slot) s { s.dev with sas := { s.dev.sas with
         recSel := slot, recState := (s.dev.tab.getSa slot).state.code, recSnap := snapWords (slotBytes slot s.dev) 16 } }) ∧
     (∀ c : Nat, c < 2 ^ 16 → Runs (.chnRecsel c) s { s.dev with sas := { s.dev.sas with
       chnSel := c, chnSnap := snapWords (chanBytes (s.dev.tab.getChn c) (s.dev.getChl c)) 16 } }) ∧
     (∀ n : Nat, n < 2 ^ 10 → Runs (.keySlotsel n) s { s.dev with keys := { s.dev.keys with slotSel := n, slotInfo := snapWords (kekBytes (s.dev.getKek n)) 4 } }) ∧
     (∀ n : Nat, n < 64 → Runs (.keySlotsel (2 ^ 10 + n)) s
       { s.dev with keys := { s.dev.keys with slotSel := 2 ^ 10 + n, slotInfo := snapWords (lpkBytes (s.dev.getLpk n)) 4 } })) ∧
  (∀ n : Nat, n < 32 → ∀ x ∈ [(2, LanePin.txp), (3, .txn), (6, .rxp), (7, .rxn)],
     ball (10 + 2 * n) x.1 = some (.line n x.2) ∧ ball (10 + 2 * n) (85 - x.1) = some (.line (32 + n) x.2)) ∧
  (∀ (r c n : Nat) (pin : LanePin), ball r c = some (.line n pin) → r = 10 + 2 * (n % 32) ∧ (n < 32 ↔ c ≤ 12) ∧ n < 64) ∧
  (∀ r c : Nat, ball r c = none ↔ (r = 0 ∨ 84 < r ∨ c = 0 ∨ 84 < c ∨ ((r ≤ 6 ∨ 79 ≤ r) ∧ (c ≤ 6 ∨ 79 ≤ c)))) ∧
  idcode / 2 ^ 12 % 2 ^ 16 = 0x6400 ∧ idcode % 2 = 1

/-- REGISTER_WRITE, REGISTER_READ: an access of one aligned DWORD to an open register has its effect, or gives its value, and a QWORD of the
MSI-X table or PBA the values of both its DWORDs; the low word of a 64-bit value captures the high word for its requester; a gated register
refuses the write and records it; in RESET and KILN the host reaches GLB and MOD only, debug access exists in FACTORY and RETURN only, and
an access of another shape completes with an error and sets SIZE; a core's access raises MISALIGN, at task level ACCESS without a region that
grants it, BUSLOAD or BUSSTORE where no register answers, and BUSSTORE for a task's store to a register that R446 keeps from it (00 R5, 01
R21, 10 R283, R286, 13 R364, 14 Table 14-1, 16 R441, R446; log entry 25: the rows carry a requester). In RESET and KILN every other row that writes a register outside GLB and MOD changes nothing (16 R446). -/
def Obligations.RegisterAccess : Prop :=
  (∀ s : State, Powered s →
    (∀ (req : Nat) (a : Access) (v : Nat), v < 2 ^ 32 → let off := a.off
      (req = reqJtag → debugOpen s.dev = false →
        Runs (.registerWrite req a v) s (emit (.refusedAccess req off) s.dev) ∧ Runs (.registerRead req a) s (emit (.read req off .unsupported) s.dev)) ∧
      (req = reqHost → hostClosed off s.dev = true → let d := when_ (badShape a) (hostErr 1) s.dev
        Runs (.registerWrite req a v) s (emit (.refusedAccess req off) d) ∧ Runs (.registerRead req a) s (emit (.read req off .unsupported) d)) ∧
      (1 ≤ req → req ≤ 64 → let k := s.dev.getCore (req - 1)
        let traps := fun (cause : Nat) => Core.except cause (k.pc.setWidth 64) (BitVec.ofNat 64 (0x40000000 + off))
        let barred := fun (cause : Nat) =>
          Runs (.registerWrite req a v) s (emit (.refusedAccess req off) (s.dev.updCore (req - 1) (traps cause))) ∧
          Runs (.registerRead req a) s (emit (.read req off .unsupported) (s.dev.updCore (req - 1) (traps cause)))
        k.run = .running → k.exl = false →
          (off % a.len ≠ 0 → barred cMISALIGN) ∧
          (off % a.len = 0 →
            (¬MayAccess k (0x40000000 + off) a.len [0] →
              Runs (.registerRead req a) s (emit (.read req off .unsupported) (s.dev.updCore (req - 1) (traps cACCESS)))) ∧
            (¬MayAccess k (0x40000000 + off) a.len [1] →
              Runs (.registerWrite req a v) s (emit (.refusedAccess req off) (s.dev.updCore (req - 1) (traps cACCESS)))) ∧
            (MayAccess k (0x40000000 + off) a.len [0] → (bar2 ≤ off ∨ (a.len = 4 ∧ regVal req off s.dev = none)) →
              Runs (.registerRead req a) s (emit (.read req off .unsupported) (s.dev.updCore (req - 1) (traps cBUSLOAD)))) ∧
            (MayAccess k (0x40000000 + off) a.len [1] → (bar2 ≤ off ∨ (a.len = 4 ∧ regVal req off s.dev = none)) →
              Runs (.registerWrite req a v) s (emit (.refusedAccess req off) (s.dev.updCore (req - 1) (traps cBUSSTORE)))) ∧
            (off < bar2 → a.len = 4 → ∀ x : RegVal, regVal req off s.dev = some x →
              (∀ w : Nat, x = .word w → MayAccess k (0x40000000 + off) 4 [0] → Runs (.registerRead req a) s (emit (.read req off (.data (lo32 w))) s.dev)) ∧
              (MayAccess k (0x40000000 + off) 4 [1] → gatedOff off = false →
                (taskReq req s.dev = true → taskDenied off v = true → Runs (.registerWrite req a v) s (s.dev.updCore (req - 1) (traps cBUSSTORE))) ∧
                ((taskReq req s.dev = false ∨ taskDenied off v = false) → Runs (.registerWrite req a v) s (regEffect req off v s.dev)))))) ∧
      (req = reqHost → off < bar2 → hostClosed off s.dev = false →
        (msixQword a = false → (off % 4 ≠ 0 ∨ a.len ≠ 4) → Runs (.registerWrite req a v) s (emit (.refusedAccess req off) (hostErr 1 s.dev)) ∧
          Runs (.registerRead req a) s (emit (.read req off .unsupported) (hostErr 1 s.dev))) ∧
        (∀ x y : Nat, msixQword a = true → regVal req off s.dev = some (.word x) → regVal req (off + 4) s.dev = some (.word y) →
          Runs (.registerRead req a) s (emit (.read req off (.data (lo32 x + 2 ^ 32 * lo32 y))) s.dev)) ∧
        (off % 4 = 0 → a.len = 4 →
          (regVal req off s.dev = none → Runs (.registerWrite req a v) s (emit (.refusedAccess req off) s.dev) ∧
            Runs (.registerRead req a) s (emit (.read req off .unsupported) s.dev)) ∧
          (∀ x : Nat, regVal req off s.dev = some (.word x) → Runs (.registerRead req a) s (emit (.read req off (.data (lo32 x))) s.dev)) ∧
          (∀ x : Nat, regVal req off s.dev = some (.low x) → Runs (.registerRead req a) s
            (emit (.read req off (.data (lo32 x))) { s.dev with hold := Tab.set none s.dev.hold req (some (off, hi32 x)) })) ∧
          (∀ x h : Nat, 4 ≤ off → regVal req off s.dev = some (.high x) → Tab.get none s.dev.hold req = some (off - 4, h) →
            Runs (.registerRead req a) s (emit (.read req off (.data h)) s.dev)) ∧
          (∀ x : RegVal, regVal req off s.dev = some x →
            (gatedOff off = true → Runs (.registerWrite req a v) s (eventOnce 0x0804 req 2 (be 1 req ++ be 4 off) (hostErr 0 s.dev))) ∧
            (gatedOff off = false → Runs (.registerWrite req a v) s (regEffect req off v s.dev)))))) ∧
    (∀ r v : Nat, r < 64 → v < 2 ^ 32 → hostClosed (bar2 + 0x1000 * r + 0x14) s.dev = false →
      Runs (.registerWrite reqHost ⟨bar2 + 0x1000 * r + 0x14, 4⟩ v) s (ringPiWrite r v s.dev))) ∧
  (∀ s : State, Powered s → regsShut s.dev = true → ∀ (r v : Nat) (l : List Nat) (on : Bool),
    ∀ i ∈ [Instr.bpmQsel v, .bpmQmin v, .bpmQcap v, .chnRecsel v, .evrCalset v, .evrPostctl r v, .flsRead r, .flsProgram r, .flsErase r,
      .hifHostver v, .hiqPiWrite r v, .hxqBpiWrite r v l, .i3cCmd r v, .keySlotsel v, .lneCal r v, .lneCtrl r v, .lneTest r v, .lneTxeq r v,
      .mecCfgLock v, .mecReprov v, .memClear v, .prfClear, .prfClr r, .prfFreeze on, .ringEnable r v, .ringPiWrite r v, .sasColdLock v,
      .sasRecsel v, .sasStatsel v, .sceClaim r, .sceForce r, .sceRelease r, .sltPmsel v, .stnNext v, .stnSearch v, .twnNodeaddrLock v],
    Runs i s s.dev)

/-! ### Rules of the whole device -/

/-- 02 R61: no bypass entry matches a frame with EtherType 0x88E5, an entry that holds 0x88E5 is as if it were empty, and such a frame,
passed on by either face, joins no port's clear output. -/
def Obligations.NeverBypassed : Prop :=
  (∀ (t : Tables) (n : Nat) (frame : Bytes), beAt frame 12 2 = 0x88E5 → bypassAllowed t n frame = false) ∧
  (∀ (t : Tables) (n k : Nat) (frame : Bytes), fld (Tab.get 0 (t.getPrt n).bypass k) 15 0 = 0x88E5 →
    bypassAllowed t n frame = bypassAllowed (Tables.updPrt n (fun g => { g with bypass := Tab.set 0 g.bypass k 0 }) t) n frame) ∧
  (∀ s : State, Powered s → ∀ (p : Nat) (f : RxFrame) (rest : List RxFrame), (s.dev.getTck p).rx = f :: rest → beAt f.bytes 12 2 = 0x88E5 →
    ∃ d : Dev, Runs (.framePassed p) s d ∧ ∀ (q : Nat) (x : RelFrame), x ∈ (d.getPort q).rel → x ∈ (s.dev.getPort q).rel)

/-- 10 R279: division by zero gives the quotient of all ones and the remainder ra, -2^63 by -1 the quotient -2^63 and the remainder 0;
each instruction completes, so that neither raises an exception. -/
def Obligations.DivisionCorners : Prop :=
  ∀ (s : State) (c rd ra rb : Nat), Ready c s →
    let k := s.dev.getCore c
    let gives := fun (i : Instr) (v : DWord) => Completes i c rd v (k.pc + 4) s s.dev
    (k.reg rb = 0 → gives (.div c rd ra rb) 0xFFFFFFFFFFFFFFFF ∧ gives (.divu c rd ra rb) 0xFFFFFFFFFFFFFFFF ∧
      gives (.rem c rd ra rb) (k.reg ra) ∧ gives (.remu c rd ra rb) (k.reg ra)) ∧
    (k.reg ra = BitVec.ofInt 64 (-(2 ^ 63)) → k.reg rb = BitVec.ofInt 64 (-1) →
      gives (.div c rd ra rb) (BitVec.ofInt 64 (-(2 ^ 63))) ∧ gives (.rem c rd ra rb) 0)

/-- 14 R397: a runtime and a microcode image are a tested pair exactly when the manifest of one lists the TYPE and the very IMGVER of the
other in its TESTED list; and a SWAP whose verified images are no tested pair is refused with REFCODE 6 (14 R401). -/
def Obligations.TestedPairs : Prop :=
  (∀ rt mc : Image, testedPair rt mc = true ↔
    ((∃ e ∈ rt.tested, e.1 = 2 ∧ e.2 = mc.imgVer) ∨ (∃ e ∈ mc.tested, e.1 = 1 ∧ e.2 = rt.imgVer))) ∧
  (∀ s : State, Powered s → ∀ (o : Mode) (rt mc : Image), s.dev.mod.change = some (.swap, o) → s.dev.mod.swapRt = 0 → s.dev.mod.swapMc = 0 →
    s.dev.mod.runtime = some rt → s.dev.mod.micro = some mc → testedPair rt mc = false →
    ∃ d : Dev, Runs .swapImagesVerified s d ∧ d.mod.refused = true ∧ d.mod.refCode = 6 ∧ d.mod.mode = s.dev.mod.mode ∧ d.mod.change = none)

/-- The replay protection of 02 R47 to R49: a PN within 2^32 of the window's low edge is recovered from its low word; of two copies of one
PN at most one passes the check, whatever lies between them, and marking a PN changes no verdict on another PN of the window; a frame whose
ICV fails moves no window. -/
def Obligations.ReplayProtection : Prop :=
  (∀ low pn : Nat, low ≤ pn → pn < low + 2 ^ 32 → recoverPn (pn % 2 ^ 32) low true = pn ∧ recoverPn (pn % 2 ^ 32) low false = pn % 2 ^ 32) ∧
  (∀ (w : Win) (pn : Nat), w.w ≤ 4095 → w.check pn = .pass →
    (w.mark pn).check pn ≠ .pass ∧ (w.mark pn).top = Nat.max w.top pn ∧ (w.mark pn).w = w.w ∧
    (∀ q : Nat, w.check q ≠ .pass → (w.mark pn).check q ≠ .pass) ∧
    (∀ q : Nat, q ≠ pn → w.check q = .pass → (w.mark pn).low ≤ q → (w.mark pn).check q = .pass)) ∧
  (∀ s : State, Powered s → ∀ (p : Nat) (h : HoldFrame) (rest : List HoldFrame), (s.dev.getPort p).hold = h :: rest → h.tagOk = false →
    ∃ d : Dev, Runs (.icvVerified p) s d ∧ ∀ i : Nat, d.getWin i = s.dev.getWin i)

/-- What the transmit side protects, the receive side recovers: the SecTAG of a protected frame carries the AN, the low word of the PN, the
secure data's length and the channel's SCI, no bad-tag condition holds of it, its ICV verifies under the same key, IV and protection code,
and its secure data decrypts to the frame's (02 R30 to R33, R39, R41). -/
def Obligations.ProtectedFrameOpens : Prop :=
  ∀ (c : Chan) (sa : SaStat) (b : Bytes) (an pn : Nat), an < 4 → c.sci < 2 ^ 64 → 14 ≤ b.length →
    let w := protectFrame c sa b an pn
    let hlen := if c.txSci = true then 28 else 20
    let n := b.length - 12
    let sd := sub_ w hlen n
    let off := if c.pcode = 3 then sd.length else protOffset c.pcode sd.length
    let iv := frameIv sa c.sci pn
    (∃ t : SecTag, readSecTag w = some t ∧ badTag t = false ∧ t.an = an ∧ t.pn = pn % 2 ^ 32 ∧ t.hlen = hlen ∧ t.sdlen = n ∧
      t.sc = c.txSci ∧ t.es = false ∧ t.e = (c.pcode != 3)) ∧
    beAt w 12 2 = 0x88E5 ∧ (c.txSci = true → beAt w 20 8 = c.sci) ∧
    gcmTag sa.key iv (w.take hlen ++ sd.take off) (sd.drop off) = w.drop (hlen + n) ∧
    w.take 12 ++ (sd.take off ++ gcmCrypt sa.key iv (sd.drop off)) = b

/-- A step takes the command at the front of the queue and carries it out on the state with the queue's rest. A word that a core has fetched is
carried out as the instruction it spells (10 R277, R278, R291; the model's choice, log entry 62: the word comes with the command, see log entry 34). -/
def Obligations.StepFront : Prop :=
  (∀ (s : State) (c : Instr) (rest : List Instr), s.pending = c :: rest → step s = exec c { s with pending := rest }) ∧
  (∀ (s : State) (c w : Nat) (image : Bytes) (dmaOk : Bool) (i : Instr), glonikWord c w image dmaOk = some i →
     step (s.withGlonikWord c w image dmaOk) = exec i s)

/-- Every command answers a next state and leaves the queue as it found it; in a device that a power failure has stopped every command but
a cold reset and a tamper assertion changes nothing at all (14 R392, 15 R427). MODEL'S CHOICE: that the tamper sequence runs in a stopped
device (log entry 27), and that a command which the spec refuses answers its refusal as a next state (log entry 40). -/
def Obligations.StoppedDevice : Prop :=
  ∀ (c : Instr) (s : State),
    (∃ t : State, exec c s = .next t ∧ t.pending = s.pending) ∧
    (s.dev.pins.stopped = true → c ≠ .coldReset → c ≠ .tamperAssert → exec c s = .next s)

/-- The legal configuration holds after reset: PSIZE is 1 to 64, READY is not set without LOCK, no cold range is locked outside the
protected region, and MEM_SCRUB, TCK_CFG and SCE_LEASE are in their ranges. -/
def Obligations.LegalAtReset : Prop := Sys2Proof.Machine.Inv State.reset

/-- Every step keeps the legal configuration: whatever command stands in front, and on an idle step, PSIZE stays 1 to 64, READY stays under
LOCK, a locked cold range stays within the protected region, SAS_COLDBASE stays aligned and the ranges of MEM_SCRUB, TCK_CFG and
SCE_LEASE hold (05 R157, 07 R201, 08 R218, 11 R322, R325). -/
def Obligations.LegalConfigurationKept : Prop :=
  ∀ s t : State, Sys2Proof.Machine.Inv s → step s = .next t → Sys2Proof.Machine.Inv t
end

