-- ==== Sys2Proof/Laws/Ddr.lean ====
section
/-! SUPPORT. What a DDR5 access can do: it is refused by its check, or it opens its sectors and goes on, or an opened sector turns out
doubtful. -/

namespace Sys2Proof.Machine

theorem ddrRead_eq (m : Master) (off n : Nat) (d : Dev) (ok : Bool) (x : Dev) (h : protOpen off n false d = (ok, x)) :
    ddrRead m off n d = if ddrCheck m off n false d = .ok then
        (if ok then ((.ok, ddrBytes x off n), x) else ((.doubt, []), ddrFail m off n false .doubt x))
      else ((ddrCheck m off n false d, []), ddrFail m off n false (ddrCheck m off n false d) d) := by
  unfold ddrRead
  rw [h]
  generalize ddrCheck m off n false d = c
  cases c <;> rfl

theorem ddrWrite_eq (m : Master) (off : Nat) (b : Bytes) (d : Dev) (ok : Bool) (x : Dev) (h : protOpen off b.length true d = (ok, x)) :
    ddrWrite m off b d = if ddrCheck m off b.length true d = .ok then
        (if ok then (.ok, protWrite off b.length ((badClear 100 0 off b.length x).updMem (fun m => { m with ddr := putBytes b off m.ddr })))
        else (.doubt, ddrFail m off b.length true .doubt x))
      else (ddrCheck m off b.length true d, ddrFail m off b.length true (ddrCheck m off b.length true d) d) := by
  unfold ddrWrite
  rw [h]
  generalize ddrCheck m off b.length true d = c
  cases c <;> rfl

/-- What the change of a node's counter and its mark in the cache keep, the change of a node with all that it raises keeps. -/
theorem noteRise_keeps {β : Type} (g : Mem → β) (hd : ∀ l i m, g (dirtyNode l i m) = g m) (hr : ∀ l i m, g (riseCtr l i m) = g m)
    (t f level index : Nat) (m : Mem) : g (noteRise t f level index m) = g m := by
  induction f generalizing level index m with
  | zero => rfl
  | succ f ih =>
    unfold noteRise
    repeat' split
    · rfl
    · exact hd ..
    · exact (ih ..).trans (hr ..)

/-- The same for a write's sectors. -/
theorem riseSectors_keeps {β : Type} (g : Mem → β) (hd : ∀ l i m, g (dirtyNode l i m) = g m) (hr : ∀ l i m, g (riseCtr l i m) = g m)
    (t : Nat) (l : List Nat) (m : Mem) : g (riseSectors t l m) = g m := by
  unfold riseSectors
  induction l generalizing m with
  | nil => rfl
  | cons a l ih => rw [List.foldl_cons]; exact (ih _).trans ((noteRise_keeps g hd hr ..).trans (hr ..))

/-- What both outcomes of opened sectors and a failed access keep, a read keeps. -/
theorem ddrRead_keeps {β : Type} (g : Dev → β) (hf : ∀ m off n w a d, g (ddrFail m off n w a d) = g d) (ho : ∀ off n w d, g (protOpen off n w d).2 = g d)
    (m : Master) (off n : Nat) (d : Dev) : g (ddrRead m off n d).2 = g d := by
  have h := ho off n false d
  rcases hr : protOpen off n false d with ⟨ok, x⟩
  rw [hr] at h
  rw [ddrRead_eq m off n d ok x hr]
  dsimp only at h
  repeat' split
  all_goals dsimp only
  · exact h
  · exact (hf ..).trans h
  · exact hf ..

/-- The same for a write, when the write itself keeps it too. -/
theorem ddrWrite_keeps {β : Type} (g : Dev → β) (hf : ∀ m off n w a d, g (ddrFail m off n w a d) = g d) (ho : ∀ off n w d, g (protOpen off n w d).2 = g d)
    (hp : ∀ off n d, g (protWrite off n d) = g d) (hb : ∀ r u a n d, g (badClear r u a n d) = g d)
    (hm : ∀ (d : Dev) (t : Bytes × Nat), g (d.updMem (fun m => { m with ddr := putBytes t.1 t.2 m.ddr })) = g d)
    (m : Master) (off : Nat) (b : Bytes) (d : Dev) : g (ddrWrite m off b d).2 = g d := by
  have h := ho off b.length true d
  rcases hr : protOpen off b.length true d with ⟨ok, x⟩
  rw [hr] at h
  rw [ddrWrite_eq m off b d ok x hr]
  dsimp only at h
  repeat' split
  all_goals dsimp only
  · exact (hp ..).trans ((hm _ (b, off)).trans ((hb ..).trans h))
  · exact (hf ..).trans h
  · exact hf ..

end Sys2Proof.Machine
end

