-- ==== Sys2Proof/Laws/Locks.lean ====
section
/-! SUPPORT. What an update of a device does to its locked configuration (Dev.locks): nothing, but for the few writers. -/

namespace Sys2Proof.Machine

@[simp] theorem Dev.locks_out (d : Dev) (x : List Out) : Dev.locks { d with out := x } = d.locks := rfl
@[simp] theorem Dev.locks_fresh (d : Dev) (x : Nat) : Dev.locks { d with fresh := x } = d.locks := rfl
@[simp] theorem Dev.locks_tab (d : Dev) (x : Tables) : Dev.locks { d with tab := x } = d.locks := rfl
@[simp] theorem Dev.locks_views (d : Dev) (x : List (Nat × Tables)) : Dev.locks { d with views := x } = d.locks := rfl
@[simp] theorem Dev.locks_port (d : Dev) (x : Tab Port) : Dev.locks { d with port := x } = d.locks := rfl
@[simp] theorem Dev.locks_slice (d : Dev) (x : Tab Slice) : Dev.locks { d with slice := x } = d.locks := rfl
@[simp] theorem Dev.locks_slt (d : Dev) (x : SltBlk) : Dev.locks { d with slt := x } = d.locks := rfl
@[simp] theorem Dev.locks_stn (d : Dev) (x : Stn) : Dev.locks { d with stn := x } = d.locks := rfl
@[simp] theorem Dev.locks_pat (d : Dev) (x : Pat) : Dev.locks { d with pat := x } = d.locks := rfl
@[simp] theorem Dev.locks_twn (d : Dev) (x : Twn) : Dev.locks { d with twn := x } = d.locks := rfl
@[simp] theorem Dev.locks_core (d : Dev) (x : Tab Core) : Dev.locks { d with core := x } = d.locks := rfl
@[simp] theorem Dev.locks_bpm (d : Dev) (x : Bpm) : Dev.locks { d with bpm := x } = d.locks := rfl
@[simp] theorem Dev.locks_hif (d : Dev) (x : Hif) : Dev.locks { d with hif := x } = d.locks := rfl
@[simp] theorem Dev.locks_evr (d : Dev) (x : Evr) : Dev.locks { d with evr := x } = d.locks := rfl
@[simp] theorem Dev.locks_mod (d : Dev) (x : Mod) : Dev.locks { d with mod := x } = d.locks := rfl
@[simp] theorem Dev.locks_lane (d : Dev) (x : Tab Lane) : Dev.locks { d with lane := x } = d.locks := rfl
@[simp] theorem Dev.locks_hln (d : Dev) (x : Tab Lane) : Dev.locks { d with hln := x } = d.locks := rfl
@[simp] theorem Dev.locks_prf (d : Dev) (x : Tab PrfCtr) : Dev.locks { d with prf := x } = d.locks := rfl
@[simp] theorem Dev.locks_prfFreeze (d : Dev) (x : Bool) : Dev.locks { d with prfFreeze := x } = d.locks := rfl
@[simp] theorem Dev.locks_fls (d : Dev) (x : Fls) : Dev.locks { d with fls := x } = d.locks := rfl
@[simp] theorem Dev.locks_i3c (d : Dev) (x : Tab I3c) : Dev.locks { d with i3c := x } = d.locks := rfl
@[simp] theorem Dev.locks_pins (d : Dev) (x : Pins) : Dev.locks { d with pins := x } = d.locks := rfl
@[simp] theorem Dev.locks_flt (d : Dev) (x : Faults) : Dev.locks { d with flt := x } = d.locks := rfl
@[simp] theorem Dev.locks_hold (d : Dev) (x : Tab (Option (Nat × Nat))) : Dev.locks { d with hold := x } = d.locks := rfl

@[simp] theorem Dev.locks_sas (d : Dev) (x : Sas) (h1 : x.coldLock = d.sas.coldLock) (h2 : x.coldBase = d.sas.coldBase)
    (h3 : x.coldSize = d.sas.coldSize) : Dev.locks { d with sas := x } = d.locks := by
  simp [Dev.locks, h1, h2, h3]

@[simp] theorem Dev.locks_mem (d : Dev) (x : Mem) (h1 : x.psize = d.mem.psize) (h2 : x.lock = d.mem.lock)
    (h3 : x.ready = d.mem.ready) (h4 : x.scrub = d.mem.scrub) : Dev.locks { d with mem := x } = d.locks := by
  simp [Dev.locks, h1, h2, h3, h4]

@[simp] theorem Dev.locks_tck (d : Dev) (x : Tck) (h : x.cfg = d.tck.cfg) : Dev.locks { d with tck := x } = d.locks := by
  simp [Dev.locks, h]

@[simp] theorem Dev.locks_keys (d : Dev) (x : Keys) (h : x.sceLease = d.keys.sceLease) : Dev.locks { d with keys := x } = d.locks := by
  simp [Dev.locks, h]

@[simp] theorem Dev.locks_ite (c : Prop) [Decidable c] (a b : Dev) : (if c then a else b).locks = if c then a.locks else b.locks := by
  split <;> rfl

@[simp] theorem each_locks {α : Type} (l : List α) (f : α → Dev → Dev) (d : Dev) (h : ∀ a x, (f a x).locks = x.locks) :
    (each l f d).locks = d.locks := by
  unfold each
  induction l generalizing d with
  | nil => rfl
  | cons a l ih => simp only [List.foldl_cons]; rw [ih]; exact h a d

@[simp] theorem when_locks (c : Bool) (f : Dev → Dev) (d : Dev) (h : ∀ x, (f x).locks = x.locks) : (when_ c f d).locks = d.locks := by
  unfold when_; split
  · exact h d
  · rfl

end Sys2Proof.Machine
end

