-- ==== Sys2Proof/Laws/LocksOps.lean ====
section
/-! SUPPORT. What the operations of the shared operations, memory, units, modes and SAs do to the locked configuration (Dev.locks): nothing. -/

namespace Sys2Proof.Machine

@[simp] theorem freeNat_locks (d : Dev) : (freeNat d).2.locks = d.locks := by simp [freeNat]

@[simp] theorem freeBytes_locks (n : Nat) (d : Dev) : (freeBytes n d).2.locks = d.locks := by simp [freeBytes]

@[simp] theorem emit_locks (o : Out) (d : Dev) : (emit o d).locks = d.locks := by simp [emit]

@[simp] theorem Dev.updPort_locks (n : Nat) (f : Port → Port) (d : Dev) : (Dev.updPort n f d).locks = d.locks := by simp [Dev.updPort]

@[simp] theorem Dev.updTck_locks (n : Nat) (f : TckPort → TckPort) (d : Dev) : (Dev.updTck n f d).locks = d.locks := by simp [Dev.updTck]

@[simp] theorem Dev.updTwn_locks (n : Nat) (f : TwnPort → TwnPort) (d : Dev) : (Dev.updTwn n f d).locks = d.locks := by simp [Dev.updTwn]

@[simp] theorem Dev.updHp_locks (j : Nat) (f : HpPort → HpPort) (d : Dev) : (Dev.updHp j f d).locks = d.locks := by simp [Dev.updHp]

@[simp] theorem Dev.updSlice_locks (s : Nat) (f : Slice → Slice) (d : Dev) : (Dev.updSlice s f d).locks = d.locks := by simp [Dev.updSlice]

@[simp] theorem Dev.updCore_locks (c : Nat) (f : Core → Core) (d : Dev) : (Dev.updCore c f d).locks = d.locks := by simp [Dev.updCore]

@[simp] theorem Dev.updRing_locks (r : Nat) (f : Ring → Ring) (d : Dev) : (Dev.updRing r f d).locks = d.locks := by simp [Dev.updRing]

@[simp] theorem Dev.updInj_locks (q : Nat) (f : InjQ → InjQ) (d : Dev) : (Dev.updInj q f d).locks = d.locks := by simp [Dev.updInj]

@[simp] theorem Dev.updExt_locks (q : Nat) (f : ExtQ → ExtQ) (d : Dev) : (Dev.updExt q f d).locks = d.locks := by simp [Dev.updExt]

@[simp] theorem Dev.updSlt_locks (p : Nat) (f : SltPort → SltPort) (d : Dev) : (Dev.updSlt p f d).locks = d.locks := by simp [Dev.updSlt]

@[simp] theorem Dev.updLane_locks (l : Nat) (f : Lane → Lane) (d : Dev) : (Dev.updLane l f d).locks = d.locks := by simp [Dev.updLane]

@[simp] theorem Dev.updKek_locks (n : Nat) (f : Kek → Kek) (d : Dev) : (Dev.updKek n f d).locks = d.locks := by simp [Dev.updKek]

@[simp] theorem Dev.updLpk_locks (n : Nat) (f : Lpk → Lpk) (d : Dev) : (Dev.updLpk n f d).locks = d.locks := by simp [Dev.updLpk]

@[simp] theorem Dev.updLive_locks (slot : Nat) (f : SaLive → SaLive) (d : Dev) : (Dev.updLive slot f d).locks = d.locks := by simp [Dev.updLive]

@[simp] theorem Dev.updChl_locks (c : Nat) (f : ChanLive → ChanLive) (d : Dev) : (Dev.updChl c f d).locks = d.locks := by simp [Dev.updChl]

@[simp] theorem Dev.updSas_locks (f : Sas → Sas) (d : Dev) (h1 : (f d.sas).coldLock = d.sas.coldLock) (h2 : (f d.sas).coldBase = d.sas.coldBase)
    (h3 : (f d.sas).coldSize = d.sas.coldSize) : (d.updSas f).locks = d.locks := Dev.locks_sas _ _ h1 h2 h3

@[simp] theorem Dev.updMem_locks (f : Mem → Mem) (d : Dev) (h1 : (f d.mem).psize = d.mem.psize) (h2 : (f d.mem).lock = d.mem.lock)
    (h3 : (f d.mem).ready = d.mem.ready) (h4 : (f d.mem).scrub = d.mem.scrub) : (d.updMem f).locks = d.locks := Dev.locks_mem _ _ h1 h2 h3 h4

@[simp] theorem Dev.updHif_locks (f : Hif → Hif) (d : Dev) : (Dev.updHif f d).locks = d.locks := by simp [Dev.updHif]

@[simp] theorem Dev.updMod_locks (f : Mod → Mod) (d : Dev) : (Dev.updMod f d).locks = d.locks := by simp [Dev.updMod]

@[simp] theorem Dev.updKeys_locks (f : Keys → Keys) (d : Dev) (h : (f d.keys).sceLease = d.keys.sceLease) : (d.updKeys f).locks = d.locks := Dev.locks_keys _ _ h

@[simp] theorem Dev.updTab_locks (f : Tables → Tables) (d : Dev) : (Dev.updTab f d).locks = d.locks := by simp [Dev.updTab]

@[simp] theorem Dev.updViews_locks (f : Tables → Tables) (d : Dev) : (Dev.updViews f d).locks = d.locks := by (unfold Dev.updViews; rfl)

@[simp] theorem portCount_locks (n i : Nat) (d : Dev) : (portCount n i d).locks = d.locks := by simp [portCount]

@[simp] theorem fecCount_locks (n : Nat) (f : FecRun) (d : Dev) : (fecCount n f d).locks = d.locks := by simp [fecCount]

@[simp] theorem errBlock_locks (n : Nat) (d : Dev) : (errBlock n d).locks = d.locks := by simp [errBlock]

@[simp] theorem patCount_locks (n i : Nat) (d : Dev) : (patCount n i d).locks = d.locks := by simp [patCount]

@[simp] theorem saCount_locks (slot i n : Nat) (d : Dev) : (saCount slot i n d).locks = d.locks := by simp [saCount]

@[simp] theorem twnCount_locks (i : Nat) (d : Dev) : (twnCount i d).locks = d.locks := by simp [twnCount]

@[simp] theorem stnCount_locks (q i n : Nat) (d : Dev) : (stnCount q i n d).locks = d.locks := by simp [stnCount]

@[simp] theorem prfCount_locks (ev : Nat) (unit : Option Nat) (n : Nat) (d : Dev) : (prfCount ev unit n d).locks = d.locks := by simp [prfCount]

@[simp] theorem hostOut_locks (o : HostOut) (d : Dev) : (hostOut o d).locks = d.locks := by simp [hostOut]

@[simp] theorem dmaRead_locks (addr n : Nat) (d : Dev) : (dmaRead addr n d).locks = d.locks := by (unfold dmaRead; (try dsimp only); (repeat' split) <;> simp)

@[simp] theorem linkTrain_locks (d : Dev) : (linkTrain d).locks = d.locks := by (unfold linkTrain; (try dsimp only); (repeat' split) <;> simp)

@[simp] theorem sendMsix_locks (vec : Nat) (d : Dev) : (sendMsix vec d).locks = d.locks := by simp [sendMsix]

@[simp] theorem hostErr_locks (bit : Nat) (d : Dev) : (hostErr bit d).locks = d.locks := by simp [hostErr]

@[simp] theorem ringSignal_locks (r : Nat) (d : Dev) : (ringSignal r d).locks = d.locks := by simp [ringSignal]

@[simp] theorem extSignal_locks (q : Nat) (d : Dev) : (extSignal q d).locks = d.locks := by simp [extSignal]

@[simp] theorem hmbSignal_locks (d : Dev) : (hmbSignal d).locks = d.locks := by simp [hmbSignal]

@[simp] theorem bpmDeny_locks (q : Nat) (d : Dev) : (bpmDeny q d).locks = d.locks := by simp [bpmDeny]

@[simp] theorem labelCell_locks (q ch : Nat) (d : Dev) : (labelCell q ch d).2.locks = d.locks := by (unfold labelCell; dsimp only; (repeat' split) <;> (try rfl) <;> simp [*])

@[simp] theorem labelN_locks (q : Nat) (n : Nat) (d : Dev) : (labelN q n d).2.locks = d.locks := by
  induction n generalizing d with
  | zero => rfl
  | succ n ih => simp [labelN, ih]

@[simp] theorem takeCells_locks (q n : Nat) (d : Dev) : (takeCells q n d).2.locks = d.locks := by (unfold takeCells; (repeat' split) <;> simp)

@[simp] theorem moveCells_locks (r q : Nat) (cells : List Nat) (d : Dev) : (moveCells r q cells d).2.locks = d.locks := by (unfold moveCells; (repeat' split) <;> simp)

@[simp] theorem passCells_locks (r q : Nat) (cells : List Nat) (n : Nat) (d : Dev) : (passCells r q cells n d).2.locks = d.locks := by (unfold passCells; dsimp only; (repeat' split) <;> simp)

@[simp] theorem freeCells_locks (q : Nat) (cells : List Nat) (d : Dev) : (freeCells q cells d).locks = d.locks := by
  unfold freeCells; split
  · rfl
  · rw [prfCount_locks]; rfl

theorem grantCell_locks {q : Nat} {d : Dev} {r : Nat × Dev} (h : grantCell q d = some r) : r.2.locks = d.locks := by
  unfold grantCell at h
  split at h
  · cases h
  · cases h; simp

@[simp] theorem dropCell_locks (r cell : Nat) (d : Dev) : (dropCell r cell d).locks = d.locks := by (unfold dropCell; (repeat' split) <;> simp)

@[simp] theorem evPendAll_locks (bit : Nat) (d : Dev) : (evPendAll bit d).locks = d.locks := by simp [evPendAll]

@[simp] theorem evPendCore_locks (c bit : Nat) (d : Dev) : (evPendCore c bit d).locks = d.locks := by simp [evPendCore]

@[simp] theorem hpEmit_locks (j : Nat) (b : Bytes) (d : Dev) : (hpEmit j b d).locks = d.locks := by simp [hpEmit]

@[simp] theorem hpTransmit_locks (j lseq : Nat) (f : HpFrame) (d : Dev) : (hpTransmit j lseq f d).locks = d.locks := by simp [hpTransmit]

@[simp] theorem linkTransmit_locks (j : Nat) (f : HpFrame) (d : Dev) : (linkTransmit j f d).locks = d.locks := by simp [linkTransmit]

@[simp] theorem hpFirst_locks (j : Nat) (f : HpFrame) (d : Dev) : (hpFirst j f d).locks = d.locks := by simp [hpFirst]

@[simp] theorem hpSend_locks (j type prio dst src hops eseq : Nat) (payload : Bytes) (d : Dev) : (hpSend j type prio dst src hops eseq payload d).locks = d.locks := by simp [hpSend]

@[simp] theorem hpDrain_locks (j n : Nat) (d : Dev) : (hpDrain j n d).locks = d.locks := by
  induction n generalizing d with
  | zero => rfl
  | succ n ih => unfold hpDrain; split <;> simp [ih]

@[simp] theorem hpDrainAll_locks (d : Dev) : (hpDrainAll d).locks = d.locks := by simp [hpDrainAll]

@[simp] theorem linkSend_locks (j : Nat) (payload : Bytes) (d : Dev) : (linkSend j payload d).locks = d.locks := by simp [linkSend]

@[simp] theorem linkHello_locks (j : Nat) (d : Dev) : (linkHello j d).locks = d.locks := by simp [linkHello]

@[simp] theorem relabelTorus_locks (d : Dev) : (relabelTorus d).locks = d.locks := by (unfold relabelTorus; (try dsimp only); (repeat' split) <;> simp)

@[simp] theorem meshSend_locks (type prio dst : Nat) (payload : Bytes) (d : Dev) : (meshSend type prio dst payload d).locks = d.locks := by (unfold meshSend; dsimp only; (repeat' split) <;> simp)

@[simp] theorem meshFlood_locks (type prio src hops eseq : Nat) (payload : Bytes) (arrival : Option Nat) (d : Dev) : (meshFlood type prio src hops eseq payload arrival d).locks = d.locks := by simp [meshFlood]

@[simp] theorem pathSend_locks (path : Option (Nat × Nat)) (type eseq : Nat) (payload : Bytes) (d : Dev) : (pathSend path type eseq payload d).locks = d.locks := by (unfold pathSend; (repeat' split) <;> simp)

@[simp] theorem twinSend_locks (type : Nat) (payload : Bytes) (d : Dev) : (twinSend type payload d).locks = d.locks := by simp [twinSend]

@[simp] theorem collectRec_locks (r : EvRec) (d : Dev) : (collectRec r d).locks = d.locks := by simp [collectRec]

@[simp] theorem flsFirst_locks (d : Dev) : (flsFirst d).locks = d.locks := by (unfold flsFirst doFlsDone; (repeat' split) <;> rfl)

@[simp] theorem archiveFlush_locks (d : Dev) : (archiveFlush d).locks = d.locks := by simp [archiveFlush]

@[simp] theorem recordFull_locks (code sev src flags : Nat) (data : Bytes) (archiveOnly : Bool) (d : Dev) : (recordFull code sev src flags data archiveOnly d).locks = d.locks := by
  unfold recordFull
  generalize (2 : Nat) ^ 32 = m
  simp only [Dev.locks_ite, collectRec_locks, evPendAll_locks, archiveFlush_locks, Dev.locks_evr, ite_self]

@[simp] theorem event_locks (code sev : Nat) (data : Bytes) (d : Dev) : (event code sev data d).locks = d.locks := by simp [event]

@[simp] theorem eventOnce_locks (code key sev : Nat) (data : Bytes) (d : Dev) : (eventOnce code key sev data d).locks = d.locks := by simp [eventOnce]

@[simp] theorem ringComplete_locks (r : Nat) (b : Sub) (status engine : Nat) (final second : Bool) (tack : Nat) (res : List Nat) (d : Dev) : (ringComplete r b status engine final second tack res d).locks = d.locks := by simp [ringComplete]

@[simp] theorem coreComplete_locks (c : Nat) (b : Sub) (status engine : Nat) (final : Bool) (tack : Nat) (res : List Nat) (d : Dev) : (coreComplete c b status engine final tack res d).locks = d.locks := by simp [coreComplete]

@[simp] theorem completeX_locks (b : Sub) (status engine : Nat) (final second : Bool) (tack : Nat) (res : List Nat) (d : Dev) : (completeX b status engine final second tack res d).locks = d.locks := by (unfold completeX; (repeat' split) <;> simp)

@[simp] theorem complete_locks (b : Sub) (engine status : Nat) (res : List Nat) (d : Dev) : (complete b engine status res d).locks = d.locks := by simp [complete]

@[simp] theorem gateDone_locks (b : Sub) (status : Nat) (res : List Nat) (d : Dev) : (gateDone b status res d).locks = d.locks := by simp [gateDone]

@[simp] theorem gateDeferred_locks (b : Sub) (d : Dev) : (gateDeferred b d).locks = d.locks := by simp [gateDeferred]

@[simp] theorem gateFinal_locks (b : Sub) (tack status : Nat) (res : List Nat) (d : Dev) : (gateFinal b tack status res d).locks = d.locks := by simp [gateFinal]

@[simp] theorem gateLate_locks (b : Sub) (tack status : Nat) (res : List Nat) (d : Dev) : (gateLate b tack status res d).locks = d.locks := by simp [gateLate]

@[simp] theorem badClear_locks (region unit addr n : Nat) (d : Dev) : (badClear region unit addr n d).locks = d.locks := by
  unfold badClear; split <;> rfl

@[simp] theorem markBad_locks (region unit addr : Nat) (d : Dev) : (markBad region unit addr d).locks = d.locks := by simp [markBad]

@[simp] theorem setStateAll_locks (slot : Nat) (st : SlotState) (d : Dev) : (setStateAll slot st d).locks = d.locks := by simp [setStateAll]

@[simp] theorem setLimHit_locks (slot : Nat) (d : Dev) : (setLimHit slot d).locks = d.locks := by simp [setLimHit]

@[simp] theorem startDrain_locks (slot tack : Nat) (d : Dev) : (startDrain slot tack d).locks = d.locks := by simp [startDrain]

@[simp] theorem stopSlot__locks (slot : Nat) (d : Dev) : (stopSlot_ slot d).locks = d.locks := by simp [stopSlot_]

@[simp] theorem stopPinned_locks (level index : Nat) (d : Dev) : (stopPinned level index d).locks = d.locks := by
  unfold stopPinned; refine each_locks _ _ _ ?_; intros; split <;> simp

@[simp] theorem rootDoubtSet_locks (why : Nat) (d : Dev) : (rootDoubtSet why d).locks = d.locks := by simp [rootDoubtSet]

@[simp] theorem doubtDeclare_locks (level index cause : Nat) (d : Dev) : (doubtDeclare level index cause d).locks = d.locks := by simp [doubtDeclare]

@[simp] theorem cacheInsert_locks (f level index : Nat) (dirty : Bool) (d : Dev) : (cacheInsert f level index dirty d).2.locks = d.locks := by
  induction f generalizing level index dirty d with
  | zero => rfl
  | succ f ih =>
    unfold cacheInsert
    extract_lets new r i v e up
    have he : e.locks = d.locks := (Dev.updMem_locks _ _ rfl rfl rfl rfl).trans (freeNat_locks d)
    have hu : ∀ x, (up x).locks = x.locks := fun x => Dev.updMem_locks _ _ rfl rfl rfl rfl
    clear_value e up
    split
    · exact Dev.updMem_locks _ _ rfl rfl rfl rfl
    · split
      · exact he
      · split
        · exact (hu e).trans he
        · split
          · exact (Dev.updMem_locks _ _ rfl rfl rfl rfl).trans ((hu e).trans he)
          · split
            · exact he
            · rw [ih, hu, he]

@[simp] theorem fetchFailed_locks (x : Nat × Nat × Nat) (d : Dev) : (fetchFailed x d).locks = d.locks := by (unfold fetchFailed; (repeat' split) <;> simp)

@[simp] theorem fetchNodes_locks (level index : Nat) (d : Dev) : (fetchNodes level index d).2.locks = d.locks := by
  unfold fetchNodes
  generalize chainOf level index d = l
  generalize true = b
  induction l generalizing b d with
  | nil => rfl
  | cons a l ih =>
    rw [List.foldl_cons]
    dsimp only
    split
    · rw [ih, fetchFailed_locks, cacheInsert_locks]
    · rw [ih, cacheInsert_locks]

@[simp] theorem takeStored_locks (s : Nat) (d : Dev) : (takeStored s d).locks = d.locks := by (unfold takeStored; (repeat' split) <;> simp)

@[simp] theorem openSector_locks (s : Nat) (read : Bool) (d : Dev) : (openSector s read d).2.locks = d.locks := by (unfold openSector; (repeat' split) <;> simp)

@[simp] theorem protOpen_locks (off n : Nat) (write : Bool) (d : Dev) : (protOpen off n write d).2.locks = d.locks := by
  unfold protOpen
  split
  · rfl
  · have h : ∀ (l : List Nat) (r : Bool × Dev), (l.foldl (fun r s => if r.1 then openSector s (sectorRead off n write s) r.2 else r) r).2.locks
        = r.2.locks := by
      intro l
      induction l with
      | nil => intro r; rfl
      | cons a l ih => intro r; rw [List.foldl_cons, ih]; split <;> simp
    exact h _ _

@[simp] theorem protWrite_locks (off n : Nat) (d : Dev) : (protWrite off n d).locks = d.locks := by
  unfold protWrite
  split
  · rfl
  · dsimp only
    rw [prfCount_locks]
    have h := fun {β : Type} (g : Mem → β) hd hr => riseSectors_keeps g hd hr (topLevel d) (sectorList off n) d.mem
    exact Dev.locks_mem _ _ (h Mem.psize (fun _ _ _ => rfl) (fun _ _ _ => rfl)) (h Mem.lock (fun _ _ _ => rfl) (fun _ _ _ => rfl))
      (h Mem.ready (fun _ _ _ => rfl) (fun _ _ _ => rfl)) (h Mem.scrub (fun _ _ _ => rfl) (fun _ _ _ => rfl))

@[simp] theorem touchNode_locks (level index : Nat) (d : Dev) : (touchNode level index d).locks = d.locks := by
  unfold touchNode
  repeat' split
  · rfl
  · simp
  · have h := fun {β : Type} (g : Mem → β) hd hr => noteRise_keeps g hd hr (topLevel d) 9 level index (fetchNodes level index d).2.mem
    exact (Dev.updMem_locks _ _ (h Mem.psize (fun _ _ _ => rfl) (fun _ _ _ => rfl)) (h Mem.lock (fun _ _ _ => rfl) (fun _ _ _ => rfl))
      (h Mem.ready (fun _ _ _ => rfl) (fun _ _ _ => rfl)) (h Mem.scrub (fun _ _ _ => rfl) (fun _ _ _ => rfl))).trans (fetchNodes_locks ..)

@[simp] theorem burstFail_locks (b : Nat) (d : Dev) : (burstFail b d).locks = d.locks := by simp [burstFail]

@[simp] theorem ddrFail_locks (m : Master) (off n : Nat) (w : Bool) (a : Acc) (d : Dev) : (ddrFail m off n w a d).locks = d.locks := by
  unfold ddrFail; split
  · rw [eventOnce_locks]; rfl
  · rfl
  · simp
  · rfl

@[simp] theorem ddrRead_locks (m : Master) (off n : Nat) (d : Dev) : (ddrRead m off n d).2.locks = d.locks :=
  ddrRead_keeps Dev.locks ddrFail_locks protOpen_locks m off n d

@[simp] theorem ddrWrite_locks (m : Master) (off : Nat) (b : Bytes) (d : Dev) : (ddrWrite m off b d).2.locks = d.locks :=
  ddrWrite_keeps Dev.locks ddrFail_locks protOpen_locks protWrite_locks badClear_locks (fun d _ => Dev.updMem_locks _ d rfl rfl rfl rfl) m off b d

@[simp] theorem engRead_locks (req addr n : Nat) (d : Dev) : (engRead req addr n d).2.locks = d.locks := by (unfold engRead; dsimp only; (repeat' split) <;> simp)

@[simp] theorem engWrite_locks (req addr : Nat) (b : Bytes) (d : Dev) : (engWrite req addr b d).2.locks = d.locks := by (unfold engWrite; dsimp only; (repeat' split) <;> simp)

@[simp] theorem lineEmit_locks (n : Nat) (o : Out) (d : Dev) : (lineEmit n o d).locks = d.locks := by simp [lineEmit]

@[simp] theorem mailboxPut_locks (c : Nat) (m : Message) (d : Dev) : (mailboxPut c m d).2.locks = d.locks := by (unfold mailboxPut; (repeat' split) <;> simp)

@[simp] theorem badFree_locks (q cell : Nat) (d : Dev) : (badFree q cell d).locks = d.locks := by simp [badFree]

@[simp] theorem queueFree_locks (q cell : Nat) (d : Dev) : (queueFree q cell d).locks = d.locks := by simp [queueFree]

@[simp] theorem releaseCoreCells_locks (c : Nat) (d : Dev) : (releaseCoreCells c d).locks = d.locks := by simp [releaseCoreCells]

@[simp] theorem sceDone_locks (req : Nat) (d : Dev) : (sceDone req d).locks = d.locks := by simp [sceDone]

@[simp] theorem sceRelease_locks (why : Nat) (d : Dev) : (sceRelease why d).locks = d.locks := by (unfold sceRelease; (repeat' split) <;> simp)

@[simp] theorem sceOwnerGone_locks (req why : Nat) (d : Dev) : (sceOwnerGone req why d).locks = d.locks := by simp [sceOwnerGone]

@[simp] theorem stopCore_locks (run : CoreRun) (c : Nat) (d : Dev) : (stopCore run c d).locks = d.locks := by simp [stopCore]

@[simp] theorem fillCells_locks (cells : List Nat) (b : Bytes) (d : Dev) : (fillCells cells b d).locks = d.locks := by simp [fillCells]

@[simp] theorem extractToCore_locks (q c r : Nat) (cells : List Nat) (b : Bytes) (d : Dev) : (extractToCore q c r cells b d).2.locks = d.locks := by (unfold extractToCore; dsimp only; (repeat' split) <;> simp)

@[simp] theorem extractToHost_locks (q port rule idx : Nat) (mgmt : Bool) (r : Nat) (cells : List Nat) (b : Bytes) (d : Dev) : (extractToHost q port rule idx mgmt r cells b d).2.locks = d.locks := by (unfold extractToHost; dsimp only; (repeat' split) <;> simp)

@[simp] theorem osfPut_locks (q : Option Nat) (b : Bytes) (d : Dev) : (osfPut q b d).locks = d.locks := by (unfold osfPut; dsimp only; (repeat' split) <;> simp)

@[simp] theorem osfSend_locks (p : Nat) (b : Bytes) (d : Dev) : (osfSend p b d).locks = d.locks := by simp [osfSend]

@[simp] theorem extract_locks (q port rule idx : Nat) (mgmt : Bool) (r : Nat) (cells : List Nat) (b : Bytes) (d : Dev) : (extract q port rule idx mgmt r cells b d).locks = d.locks := by (unfold extract; dsimp only; (repeat' split) <;> simp)

@[simp] theorem twnSet_locks (f : Twn → Twn) (d : Dev) : (twnSet f d).locks = d.locks := by simp [twnSet]

@[simp] theorem fencePort_locks (n : Nat) (d : Dev) : (fencePort n d).locks = d.locks := by simp [fencePort]

@[simp] theorem fenceAll_locks (d : Dev) : (fenceAll d).locks = d.locks := by simp [fenceAll]

@[simp] theorem unfenceAll_locks (d : Dev) : (unfenceAll d).locks = d.locks := by
  unfold unfenceAll; exact (Dev.locks_twn _ _).trans (each_locks _ _ _ (fun _ _ => Dev.updTwn_locks _ _ _))

@[simp] theorem sendHeartbeat_locks (path : Nat) (depart : Bool) (d : Dev) : (sendHeartbeat path depart d).locks = d.locks := by simp [sendHeartbeat]

@[simp] theorem sendDepart_locks (d : Dev) : (sendDepart d).locks = d.locks := by simp [sendDepart]

@[simp] theorem mrExtend_locks (i kind : Nat) (x : Bytes) (d : Dev) : (mrExtend i kind x d).locks = d.locks := by simp [mrExtend]

@[simp] theorem departFirst_locks (m : Mode) (d : Dev) : (departFirst m d).locks = d.locks := by (unfold departFirst; split <;> simp)

@[simp] theorem takeMode_locks (m : Mode) (reason : Nat) (d : Dev) : (takeMode m reason d).locks = d.locks := by (unfold takeMode; dsimp only; (repeat' split) <;> simp)

@[simp] theorem enterMode_locks (m : Mode) (reason : Nat) (d : Dev) : (enterMode m reason d).locks = d.locks := by simp [enterMode]

@[simp] theorem wipeSram_locks (d : Dev) : (wipeSram d).locks = d.locks := by (unfold wipeSram; rfl)

@[simp] theorem queuesOff_locks (d : Dev) : (queuesOff d).locks = d.locks := by simp [queuesOff]

@[simp] theorem errorEndPort_locks (n : Nat) (d : Dev) : (errorEndPort n d).locks = d.locks := by simp [errorEndPort]

@[simp] theorem fallowAll_locks (d : Dev) : (fallowAll d).locks = d.locks := by simp [fallowAll]

@[simp] theorem enterFallow_locks (m : Mode) (reason : Nat) (d : Dev) : (enterFallow m reason d).locks = d.locks := by simp [enterFallow]

@[simp] theorem cleanFlush_locks (d : Dev) : (cleanFlush d).locks = d.locks := by (unfold cleanFlush; dsimp only; split <;> simp)

@[simp] theorem lcInterrupt_locks (d : Dev) : (lcInterrupt d).locks = d.locks := by (unfold lcInterrupt; (repeat' split) <;> simp)

@[simp] theorem zeroiseOut_locks (reason : Nat) (d : Dev) : (zeroiseOut reason d).locks = d.locks := by simp [zeroiseOut]

@[simp] theorem deviceFault_locks (cause : Nat) (d : Dev) : (deviceFault cause d).locks = d.locks := by simp [deviceFault]

@[simp] theorem abortSeam_locks (s : Nat) (e : Nat × ChanLive) (d : Dev) : (abortSeam s e d).locks = d.locks := by (unfold abortSeam; (repeat' split) <;> simp)

@[simp] theorem abortFinal_locks (o : Option (Sub × Nat)) (d : Dev) : (abortFinal o d).locks = d.locks := by (unfold abortFinal; (repeat' split) <;> simp)

@[simp] theorem abortPend_locks (o : Option (Sub × Nat × Nat × Nat)) (d : Dev) : (abortPend o d).locks = d.locks := by (unfold abortPend; (repeat' split) <;> simp)

@[simp] theorem abortSlot_locks (s : Nat) (e : Nat × SaLive) (d : Dev) : (abortSlot s e d).locks = d.locks := by simp [abortSlot]

@[simp] theorem abortSlice_locks (s : Nat) (d : Dev) : (abortSlice s d).locks = d.locks := by simp [abortSlice]

@[simp] theorem dropSlotHold_locks (s p : Nat) (d : Dev) : (dropSlotHold s p d).locks = d.locks := by
  unfold dropSlotHold; dsimp only; rw [Dev.updSlt_locks]; split <;> simp

@[simp] theorem dropHold_locks (s n : Nat) (d : Dev) : (dropHold s n d).locks = d.locks := by simp [dropHold]

@[simp] theorem markFault_locks (cls unit : Nat) (d : Dev) : (markFault cls unit d).locks = d.locks := by simp [markFault]

@[simp] theorem sliceFault_locks (s cause : Nat) (d : Dev) : (sliceFault s cause d).locks = d.locks := by simp [sliceFault]

@[simp] theorem freeStage_locks (q : Nat) (cells : List Nat) (d : Dev) : (freeStage q cells d).locks = d.locks := by simp [freeStage]

@[simp] theorem retireUnit_locks (cls unit how : Nat) (d : Dev) : (retireUnit cls unit how d).locks = d.locks := by simp [retireUnit]

@[simp] theorem transientUnit_locks (cls unit how : Nat) (d : Dev) : (transientUnit cls unit how d).locks = d.locks := by simp [transientUnit]

@[simp] theorem flsStart_locks (op : Nat) (d : Dev) : (flsStart op d).locks = d.locks := by simp [flsStart]

@[simp] theorem flsCmdWrite_locks (v : Nat) (d : Dev) : (flsCmdWrite v d).locks = d.locks := by simp [flsCmdWrite]

@[simp] theorem doFlsDone_locks (ok : Bool) (d : Dev) : (doFlsDone ok d).locks = d.locks := by (unfold doFlsDone; (repeat' split) <;> simp)

@[simp] theorem Dev.updI3c_locks (i : Nat) (f : I3c → I3c) (d : Dev) : (Dev.updI3c i f d).locks = d.locks := by simp [Dev.updI3c]

@[simp] theorem i3cCmdWrite_locks (i v : Nat) (d : Dev) : (i3cCmdWrite i v d).locks = d.locks := by simp [i3cCmdWrite]

@[simp] theorem doI3cDone_locks (i : Nat) (nack err : Bool) (data : Bytes) (d : Dev) : (doI3cDone i nack err data d).locks = d.locks := by simp [doI3cDone]

@[simp] theorem doI3cIbi_locks (i addr data : Nat) (d : Dev) : (doI3cIbi i addr data d).locks = d.locks := by simp [doI3cIbi]

@[simp] theorem prfClearAll_locks (d : Dev) : (prfClearAll d).locks = d.locks := by simp [prfClearAll]

@[simp] theorem prfClrOne_locks (i : Nat) (d : Dev) : (prfClrOne i d).locks = d.locks := by simp [prfClrOne]

@[simp] theorem pruneViews_locks (d : Dev) : (pruneViews d).locks = d.locks := by simp [pruneViews]

@[simp] theorem relRef_locks (slot : Nat) (d : Dev) : (relRef slot d).locks = d.locks := by simp [relRef]

@[simp] theorem takeRef_locks (slot : Nat) (d : Dev) : (takeRef slot d).locks = d.locks := by simp [takeRef]

@[simp] theorem softCheck_locks (slot : Nat) (d : Dev) : (softCheck slot d).locks = d.locks := by simp [softCheck]

@[simp] theorem applyLimit_locks (p : PendLimit) (d : Dev) : (applyLimit p d).locks = d.locks := by (unfold applyLimit; (repeat' split) <;> simp)

@[simp] theorem applyDueLimits_locks (slot view : Nat) (d : Dev) : (applyDueLimits slot view d).locks = d.locks := by simp [applyDueLimits]

@[simp] theorem Dev.updWin_locks (w : Nat) (f : Win → Win) (d : Dev) : (Dev.updWin w f d).locks = d.locks := by simp [Dev.updWin]

@[simp] theorem detach_locks (slot : Nat) (d : Dev) : (detach slot d).locks = d.locks := by (unfold detach; dsimp only; (repeat' split) <;> simp)

@[simp] theorem freeSlot_locks (slot : Nat) (d : Dev) : (freeSlot slot d).locks = d.locks := by simp [freeSlot]

@[simp] theorem Dev.setStage_locks (b : Nat) (x : StageBuf) (d : Dev) : (Dev.setStage b x d).locks = d.locks := by simp [Dev.setStage]

@[simp] theorem Dev.updCold_locks (i : Nat) (f : ColdEnt → ColdEnt) (d : Dev) : (Dev.updCold i f d).locks = d.locks := by
  unfold Dev.updCold
  exact (protWrite_locks ..).trans (Dev.locks_sas d _ rfl rfl rfl)

@[simp] theorem coldOpen_locks (i : Nat) (d : Dev) : (coldOpen i d).2.locks = d.locks := by (unfold coldOpen; (repeat' split) <;> simp)

@[simp] theorem coldFail_locks (i : Nat) (d : Dev) : (coldFail i d).locks = d.locks := by
  unfold coldFail
  rw [event_locks]; rfl

@[simp] theorem coldWrite_locks (i : Nat) (f : ColdEnt → ColdEnt) (d : Dev) : (coldWrite i f d).2.locks = d.locks := by simp [coldWrite]

@[simp] theorem unstageCold_locks (x : StageBuf) (d : Dev) : (unstageCold x d).locks = d.locks := by (unfold unstageCold; (repeat' split) <;> simp)

@[simp] theorem clearStage_locks (buf : Nat) (d : Dev) : (clearStage buf d).locks = d.locks := by (unfold clearStage; dsimp only; (repeat' split) <;> simp)

theorem inSlice_locks (s : Nat) (b : Sub) (f : Dev → Dev) (d : Dev) (hf : ∀ x, (f x).locks = x.locks) : (inSlice s b f d).locks = d.locks := by
  unfold inSlice; split <;> simp [hf]

theorem guards_locks (b : Sub) (l : List (Bool × Nat)) (f : Dev → Dev) (d : Dev) (hf : ∀ x, (f x).locks = x.locks) : (guards b l f d).locks = d.locks := by
  induction l with
  | nil => exact hf d
  | cons a l ih => obtain ⟨c, st⟩ := a; unfold guards; split <;> simp [ih]

theorem eguards_locks (b : Sub) (eng : Nat) (l : List (Bool × Nat)) (f : Dev → Dev) (d : Dev) (hf : ∀ x, (f x).locks = x.locks) : (eguards b eng l f d).locks = d.locks := by
  induction l with
  | nil => exact hf d
  | cons a l ih => obtain ⟨c, st⟩ := a; unfold eguards; split <;> simp [ih]

@[simp] theorem doSaStage_locks (b : Sub) (buf ticket : Nat) (image : Bytes) (d : Dev) : (doSaStage b buf ticket image d).locks = d.locks := by
  unfold doSaStage; refine eguards_locks _ _ _ _ _ ?_; simp

@[simp] theorem doSaStagepin_locks (b : Sub) (buf cold : Nat) (d : Dev) : (doSaStagepin b buf cold d).locks = d.locks := by
  unfold doSaStagepin; refine eguards_locks _ _ _ _ _ ?_; simp

@[simp] theorem doStageFill_locks (buf : Nat) (fault : Bool) (d : Dev) : (doStageFill buf fault d).locks = d.locks := by (unfold doStageFill; dsimp only; (repeat' split) <;> simp)

@[simp] theorem doSaUnstage_locks (b : Sub) (buf : Nat) (d : Dev) : (doSaUnstage b buf d).locks = d.locks := by simp [doSaUnstage]

@[simp] theorem doColdErase_locks (b : Sub) (cold : Nat) (d : Dev) : (doColdErase b cold d).locks = d.locks := by
  unfold doColdErase; refine eguards_locks _ _ _ _ _ ?_; simp

@[simp] theorem doSaLoad_locks (b : Sub) (slot buf : Nat) (d : Dev) : (doSaLoad b slot buf d).locks = d.locks := by
  unfold doSaLoad; (repeat' first | refine inSlice_locks _ _ _ _ ?_ <;> intros | refine guards_locks _ _ _ _ ?_ <;> intros | split) <;> simp

@[simp] theorem doWinCreate_locks (b : Sub) (w chid : Nat) (d : Dev) : (doWinCreate b w chid d).locks = d.locks := by
  unfold doWinCreate; (repeat' first | refine each_locks _ _ _ ?_ <;> intros | refine inSlice_locks _ _ _ _ ?_ <;> intros | refine guards_locks _ _ _ _ ?_ <;> intros | split) <;> simp

@[simp] theorem doWinErase_locks (b : Sub) (w : Nat) (d : Dev) : (doWinErase b w d).locks = d.locks := by
  unfold doWinErase; (repeat' first | refine each_locks _ _ _ ?_ <;> intros | refine inSlice_locks _ _ _ _ ?_ <;> intros | refine guards_locks _ _ _ _ ?_ <;> intros | split) <;> simp

@[simp] theorem doSaAttach_locks (b : Sub) (slot chid an : Nat) (win : Option Nat) (d : Dev) : (doSaAttach b slot chid an win d).locks = d.locks := by
  unfold doSaAttach; (repeat' first | refine inSlice_locks _ _ _ _ ?_ <;> intros | refine guards_locks _ _ _ _ ?_ <;> intros | split) <;> simp

@[simp] theorem doSaActivate_locks (b : Sub) (slot : Nat) (d : Dev) : (doSaActivate b slot d).locks = d.locks := by
  unfold doSaActivate; (repeat' first | refine inSlice_locks _ _ _ _ ?_ <;> intros | refine guards_locks _ _ _ _ ?_ <;> intros | split) <;> simp

@[simp] theorem doChSeam_locks (b : Sub) (chid an kind seamAt : Nat) (d : Dev) : (doChSeam b chid an kind seamAt d).locks = d.locks := by
  unfold doChSeam
  refine inSlice_locks _ _ _ _ (fun x => guards_locks _ _ _ _ (fun y => ?_))
  exact Dev.updChl_locks ..

@[simp] theorem lastUsed_locks (slot : Nat) (d : Dev) : (lastUsed slot d).2.locks = d.locks := by (unfold lastUsed; (repeat' split) <;> simp)

@[simp] theorem makeSeam_locks (chid place : Nat) (d : Dev) : (makeSeam chid place d).locks = d.locks := by (unfold makeSeam; dsimp only; (repeat' split) <;> simp)

@[simp] theorem refuseSeam_locks (chid : Nat) (d : Dev) : (refuseSeam chid d).locks = d.locks := by (unfold refuseSeam; dsimp only; split <;> simp)

@[simp] theorem takeSeam_locks (chid place : Nat) (d : Dev) : (takeSeam chid place d).locks = d.locks := by (unfold takeSeam; (repeat' split) <;> simp)

@[simp] theorem doSaRetire_locks (b : Sub) (slot : Nat) (keep : Bool) (d : Dev) : (doSaRetire b slot keep d).locks = d.locks := by
  unfold doSaRetire; (repeat' first | refine inSlice_locks _ _ _ _ ?_ <;> intros | refine guards_locks _ _ _ _ ?_ <;> intros | split) <;> simp

@[simp] theorem doSaErase_locks (b : Sub) (slot : Nat) (d : Dev) : (doSaErase b slot d).locks = d.locks := by
  unfold doSaErase; (repeat' first | refine inSlice_locks _ _ _ _ ?_ <;> intros | refine guards_locks _ _ _ _ ?_ <;> intros | split) <;> simp

@[simp] theorem doDrainComplete_locks (slot : Nat) (d : Dev) : (doDrainComplete slot d).locks = d.locks := by (unfold doDrainComplete; dsimp only; (repeat' split) <;> simp)

@[simp] theorem doDrainTimeout_locks (slot : Nat) (d : Dev) : (doDrainTimeout slot d).locks = d.locks := by simp [doDrainTimeout]

@[simp] theorem limitAtBoundary_locks (slot : Nat) (raise : Option Nat) (limit : Option (Nat × Nat)) (d : Dev) : (limitAtBoundary slot raise limit d).locks = d.locks := by simp [limitAtBoundary]

@[simp] theorem doSaSetlimit_locks (b : Sub) (slot soft hard : Nat) (d : Dev) : (doSaSetlimit b slot soft hard d).locks = d.locks := by
  unfold doSaSetlimit; (repeat' first | refine inSlice_locks _ _ _ _ ?_ <;> intros | refine guards_locks _ _ _ _ ?_ <;> intros | split) <;> simp

@[simp] theorem doSaRaisepn_locks (b : Sub) (slot pn : Nat) (d : Dev) : (doSaRaisepn b slot pn d).locks = d.locks := by
  unfold doSaRaisepn; (repeat' first | refine inSlice_locks _ _ _ _ ?_ <;> intros | refine guards_locks _ _ _ _ ?_ <;> intros | split) <;> simp

@[simp] theorem doSaPark_locks (b : Sub) (slot cold : Nat) (d : Dev) : (doSaPark b slot cold d).locks = d.locks := by
  unfold doSaPark; (repeat' first | refine inSlice_locks _ _ _ _ ?_ <;> intros | refine guards_locks _ _ _ _ ?_ <;> intros | split) <;> simp

@[simp] theorem doParkWriteback_locks (slot : Nat) (d : Dev) : (doParkWriteback slot d).locks = d.locks := by (unfold doParkWriteback; (repeat' split) <;> simp)

@[simp] theorem doChEnable_locks (b : Sub) (chid : Nat) (d : Dev) : (doChEnable b chid d).locks = d.locks := by
  unfold doChEnable; refine inSlice_locks _ _ _ _ ?_; simp

@[simp] theorem doChDisable_locks (b : Sub) (chid : Nat) (d : Dev) : (doChDisable b chid d).locks = d.locks := by
  unfold doChDisable; (repeat' first | refine inSlice_locks _ _ _ _ ?_ <;> intros | refine guards_locks _ _ _ _ ?_ <;> intros | split) <;> simp

@[simp] theorem doSasSide_locks (b : Sub) (side : Nat) (d : Dev) : (doSasSide b side d).locks = d.locks := by
  unfold doSasSide; refine guards_locks _ _ _ _ ?_; simp

@[simp] theorem doSciInsert_locks (b : Sub) (face sci chid : Nat) (d : Dev) : (doSciInsert b face sci chid d).locks = d.locks := by
  unfold doSciInsert; refine guards_locks _ _ _ _ ?_; intros; split <;> simp

@[simp] theorem doSciDelete_locks (b : Sub) (face sci : Nat) (d : Dev) : (doSciDelete b face sci d).locks = d.locks := by (unfold doSciDelete; (repeat' split) <;> simp)

@[simp] theorem clearSliceHeld_locks (s : Nat) (d : Dev) : (clearSliceQueues.clearSliceHeld s d).locks = d.locks := by
  unfold clearSliceQueues.clearSliceHeld
  refine each_locks _ _ _ (fun p x => ?_)
  rw [Dev.updSlt_locks, each_locks _ _ _ (fun h y => freeCells_locks _ _ _)]

@[simp] theorem freeMapped_locks (l : List MapFrame) (d : Dev) : (freeMapped l d).locks = d.locks :=
  each_locks _ _ _ (fun _ _ => freeStage_locks _ _ _)

@[simp] theorem clearSliceMaps_locks (s : Nat) (d : Dev) : (clearSliceQueues.clearSliceMaps s d).locks = d.locks := by
  unfold clearSliceQueues.clearSliceMaps
  refine each_locks _ _ _ (fun p x => ?_)
  rw [Dev.updSlt_locks, each_locks _ _ _ (fun h y => freeMapped_locks _ _)]

@[simp] theorem clearSliceQueues_locks (s : Nat) (d : Dev) : (clearSliceQueues s d).locks = d.locks := by
  unfold clearSliceQueues
  dsimp only
  rw [each_locks, clearSliceMaps_locks, clearSliceHeld_locks, Dev.updSlice_locks, each_locks _ _ _ (fun h y => freeCells_locks _ _ _)]
  intro n x
  rw [Dev.updPort_locks, each_locks _ _ _ (fun h y => freeCells_locks _ _ _), each_locks _ _ _ (fun h y => freeCells_locks _ _ _),
    each_locks _ _ _ (fun h y => freeCells_locks _ _ _)]

@[simp] theorem clearSliceStage_locks (s i : Nat) (d : Dev) : (clearSliceStage s i d).locks = d.locks := by (unfold clearSliceStage; (repeat' split) <;> simp)

@[simp] theorem clearSliceStn_locks (s : Nat) (d : Dev) : (clearSliceStn s d).locks = d.locks := by simp [clearSliceStn]

@[simp] theorem clearSlice_locks (s : Nat) (d : Dev) : (clearSlice s d).locks = d.locks := by
  unfold clearSlice
  extract_lets a bad b
  have ha : a.locks = d.locks := each_locks _ _ _ (fun e x => clearSliceStage_locks ..)
  have hb : b.locks = a.locks := by
    refine each_locks (a.sas.cold.filter bad) _ a (fun e x => ?_)
    rw [coldWrite_locks]
  clear_value b
  rw [clearSliceQueues_locks, clearSliceStn_locks, Dev.updSas_locks _ _ rfl rfl rfl, Dev.updViews_locks, hb]
  exact ha

@[simp] theorem doSlcRestart_locks (b : Sub) (s : Nat) (d : Dev) : (doSlcRestart b s d).locks = d.locks := by
  unfold doSlcRestart
  refine guards_locks _ _ _ _ (fun x => ?_)
  extract_lets a
  have ha : a.locks = x.locks := clearSlice_locks ..
  clear_value a
  split <;> simp [ha]

@[simp] theorem doSlcRestartComplete_locks (s : Nat) (pass : Bool) (d : Dev) : (doSlcRestartComplete s pass d).locks = d.locks := by (unfold doSlcRestartComplete; dsimp only; (repeat' split) <;> simp)

@[simp] theorem stnHit_locks (t : Tables) (i : Nat) (d : Dev) : (stnHit t i d).locks = d.locks := by (unfold stnHit; (repeat' split) <;> simp)

@[simp] theorem classifyFrame_locks (t : Tables) (n : Nat) (frame : Bytes) (d : Dev) : (classifyFrame t n frame d).2.locks = d.locks := by (unfold classifyFrame; dsimp only; (repeat' split) <;> simp)

@[simp] theorem bypassDenied_locks (n rule : Nat) (frame : Bytes) (d : Dev) : (bypassDenied n rule frame d).locks = d.locks := by simp [bypassDenied]

@[simp] theorem coresCheck_locks (d : Dev) : (coresCheck d).locks = d.locks := by simp [coresCheck]

@[simp] theorem coreRetire_locks (c how : Nat) (d : Dev) : (coreRetire c how d).locks = d.locks := by simp [coreRetire]

@[simp] theorem coreFault_locks (run : CoreRun) (c : Nat) (d : Dev) : (coreFault run c d).locks = d.locks := by simp [coreFault]

@[simp] theorem takeExc_locks (c cause : Nat) (epc eval : DWord) (d : Dev) : (takeExc c cause epc eval d).locks = d.locks := by simp [takeExc]

@[simp] theorem taskStore_locks (r off : Nat) (d : Dev) : (taskStore r off d).locks = d.locks := by (unfold taskStore; (try dsimp only); (repeat' split) <;> simp)

@[simp] theorem flsRow_locks (r op : Nat) (d : Dev) : (flsRow r op d).locks = d.locks := by (unfold flsRow; (try dsimp only); (repeat' split) <;> simp)

@[simp] theorem doCoreTest_locks (c : Nat) (pass : Bool) (d : Dev) : (doCoreTest c pass d).locks = d.locks := by simp [doCoreTest]

@[simp] theorem startCore_locks (c entry : Nat) (d : Dev) : (startCore c entry d).locks = d.locks := by simp [startCore]

@[simp] theorem doTrain_locks (rate dimmGib failMap : Nat) (ok : Bool) (d : Dev) : (doTrain rate dimmGib failMap ok d).locks = d.locks := by simp [doTrain]

@[simp] theorem doScrub_locks (addr : Nat) (corrected uncorr : Bool) (d : Dev) : (doScrub addr corrected uncorr d).locks = d.locks := by simp [doScrub]

@[simp] theorem reprovWrite_locks (v : Nat) (d : Dev) : (reprovWrite v d).locks = d.locks := by simp [reprovWrite]

@[simp] theorem reprovBad_locks (level index : Nat) (d : Dev) : (reprovBad level index d).locks = d.locks := by simp [reprovBad]

@[simp] theorem doReprovDone_locks (d : Dev) : (doReprovDone d).locks = d.locks := by
  unfold doReprovDone
  split
  · rfl
  · dsimp only
    rw [prfCount_locks, event_locks, when_locks _ _ _ (fun x => touchNode_locks _ _ x), Dev.updMem_locks _ _ rfl rfl rfl rfl, Dev.updSas_locks _ _ rfl rfl rfl, reprovBad_locks, freeNat_locks]

@[simp] theorem memClearWrite_locks (v : Nat) (d : Dev) : (memClearWrite v d).locks = d.locks := by simp [memClearWrite]

@[simp] theorem doMemClearDone_locks (d : Dev) : (doMemClearDone d).locks = d.locks := by
  unfold doMemClearDone; (repeat' first | split | dsimp only) <;> first | rfl | simp [*]

end Sys2Proof.Machine
end

