-- ==== Sys2Proof/Laws/LocksFrames.lean ====
section
/-! SUPPORT. What the operations of faults, the twin's tables, frames, the recorder, stations and images do to the locked configuration (Dev.locks): nothing. -/

namespace Sys2Proof.Machine

@[simp] theorem setRole_locks (s dir pipe role : Nat) (d : Dev) : (setRole s dir pipe role d).locks = d.locks := by simp [setRole]

@[simp] theorem spoil_locks (dir n i : Nat) (d : Dev) : (spoil dir n i d).locks = d.locks := by simp [spoil]

@[simp] theorem spoilOne_locks (s dir : Nat) (d : Dev) : (spoilOne s dir d).locks = d.locks := by simp [spoilOne]

@[simp] theorem retirePipe_locks (s dir pipe how : Nat) (d : Dev) : (retirePipe s dir pipe how d).locks = d.locks := by simp [retirePipe]

@[simp] theorem pipeOut_locks (s dir pipe how : Nat) (d : Dev) : (pipeOut s dir pipe how d).locks = d.locks := by simp [pipeOut]

@[simp] theorem doPipeFault_locks (s dir pipe : Nat) (mirror : Bool) (d : Dev) : (doPipeFault s dir pipe mirror d).locks = d.locks := by (unfold doPipeFault; dsimp only; (repeat' split) <;> simp)

@[simp] theorem doSpareKatFail_locks (s dir : Nat) (d : Dev) : (doSpareKatFail s dir d).locks = d.locks := by (unfold doSpareKatFail; (repeat' split) <;> simp)

@[simp] theorem doSpareRotate_locks (s dir : Nat) (d : Dev) : (doSpareRotate s dir d).locks = d.locks := by (unfold doSpareRotate; (repeat' split) <;> simp)

@[simp] theorem doPipeKat_locks (s dir pipe : Nat) (pass : Bool) (d : Dev) : (doPipeKat s dir pipe pass d).locks = d.locks := by simp [doPipeKat]

@[simp] theorem doEngineKat_locks (scePass latPass : Bool) (d : Dev) : (doEngineKat scePass latPass d).locks = d.locks := by simp [doEngineKat]

@[simp] theorem rowExhausted_locks (region unit : Nat) (d : Dev) : (rowExhausted region unit d).locks = d.locks := by (unfold rowExhausted; (repeat' split) <;> simp)

@[simp] theorem rowRepair_locks (region row unit : Nat) (d : Dev) : (rowRepair region row unit d).locks = d.locks := by simp [rowRepair]

@[simp] theorem countCorrected_locks (region unit : Nat) (d : Dev) : (countCorrected region unit d).locks = d.locks := by simp [countCorrected]

@[simp] theorem rowCorrected_locks (region row unit : Nat) (d : Dev) : (rowCorrected region row unit d).locks = d.locks := by simp [rowCorrected]

@[simp] theorem sramEvent_locks (sev region addr : Nat) (d : Dev) : (sramEvent sev region addr d).locks = d.locks := by simp [sramEvent]

@[simp] theorem cellError_locks (cell addr : Nat) (d : Dev) : (cellError cell addr d).locks = d.locks := by (unfold cellError; (repeat' split) <;> simp)

@[simp] theorem lostCounter_locks (slot i : Nat) (d : Dev) : (lostCounter slot i d).locks = d.locks := by (unfold lostCounter; split <;> simp)

@[simp] theorem sramUncorr_locks (region addr unit : Nat) (d : Dev) : (sramUncorr region addr unit d).locks = d.locks := by (unfold sramUncorr; (repeat' split) <;> simp)

@[simp] theorem doSramPatrol_locks (region row addr unit : Nat) (uncorr : Bool) (d : Dev) : (doSramPatrol region row addr unit uncorr d).locks = d.locks := by simp [doSramPatrol]

@[simp] theorem setTj_locks (tj : Nat) (d : Dev) : (setTj tj d).locks = d.locks := by simp [setTj]

@[simp] theorem doTempHot_locks (tj : Nat) (d : Dev) : (doTempHot tj d).locks = d.locks := by simp [doTempHot]

@[simp] theorem doTempFault_locks (tj : Nat) (d : Dev) : (doTempFault tj d).locks = d.locks := by simp [doTempFault]

@[simp] theorem overwriteLinks_locks (d : Dev) : (overwriteLinks d).locks = d.locks := by simp [overwriteLinks]

@[simp] theorem powerFlush_locks (d : Dev) : (powerFlush d).locks = d.locks := by (unfold powerFlush; dsimp only; (repeat' split) <;> rfl)

@[simp] theorem haltCores_locks (d : Dev) : (haltCores d).locks = d.locks := by simp [haltCores]

@[simp] theorem settleFlash_locks (d : Dev) : (settleFlash d).locks = d.locks := by
  unfold settleFlash
  split
  · rfl
  · exact doFlsDone_locks _ _

@[simp] theorem darken_locks (d : Dev) : (darken d).locks = d.locks := settleFlash_locks d

@[simp] theorem powerStop_locks (d : Dev) : (powerStop d).locks = d.locks := by simp [powerStop]

@[simp] theorem sendOffer_locks (answer : Bool) (d : Dev) : (sendOffer answer d).locks = d.locks := by simp [sendOffer]

@[simp] theorem offerPair_locks (d : Dev) : (offerPair d).locks = d.locks := by simp [offerPair]

@[simp] theorem sendDigest_locks (p first : Nat) (l : List Nat) (d : Dev) : (sendDigest p first l d).locks = d.locks := by simp [sendDigest]

@[simp] theorem unjoin_locks (d : Dev) : (unjoin d).locks = d.locks := by simp [unjoin]

@[simp] theorem giveUp_locks (p reason : Nat) (d : Dev) : (giveUp p reason d).locks = d.locks := by simp [giveUp]

@[simp] theorem noteDiverged_locks (p : Nat) (d : Dev) : (noteDiverged p d).locks = d.locks := by simp [noteDiverged]

@[simp] theorem diverge_locks (p first : Nat) (notify : Bool) (d : Dev) : (diverge p first notify d).locks = d.locks := by simp [diverge]

@[simp] theorem settleDigest_locks (p : Nat) (x : PartnerDigest) (d : Dev) : (settleDigest p x d).2.locks = d.locks := by (unfold settleDigest; (repeat' split) <;> simp)

@[simp] theorem settleWaiting_locks (p : Nat) (d : Dev) : (settleWaiting p d).locks = d.locks := by
  unfold settleWaiting; refine each_locks _ _ _ ?_; intros; dsimp only; split <;> simp

@[simp] theorem closeBatch_locks (p b : Nat) (d : Dev) : (closeBatch p b d).locks = d.locks := by (unfold closeBatch; dsimp only; (repeat' split) <;> simp)

@[simp] theorem closePassed_locks (p old : Nat) (d : Dev) : (closePassed p old d).locks = d.locks := by (unfold closePassed; (try dsimp only); (repeat' split) <;> simp)

@[simp] theorem disposition_locks (p idx fp : Nat) (x : Dispo) (d : Dev) : (disposition p idx fp x d).locks = d.locks := by simp [disposition]

@[simp] theorem rxRecord_locks (p fc : Nat) (x : Dispo) (d : Dev) : (rxRecord p fc x d).locks = d.locks := by simp [rxRecord]

@[simp] theorem fingerprint_locks (bytes : Bytes) (fcsOk : Bool) (d : Dev) : (fingerprint bytes fcsOk d).2.locks = d.locks := by (unfold fingerprint; (repeat' split) <;> simp)

@[simp] theorem updSTx_locks (p : Nat) (f : SltTx → SltTx) (d : Dev) : (updSTx p f d).locks = d.locks := by simp [updSTx]

@[simp] theorem updSRx_locks (p : Nat) (f : SltRx → SltRx) (d : Dev) : (updSRx p f d).locks = d.locks := by simp [updSRx]

@[simp] theorem updSDef_locks (p : Nat) (f : SltDef → SltDef) (d : Dev) : (updSDef p f d).locks = d.locks := by simp [updSDef]

@[simp] theorem updPm_locks (p : Nat) (f : Pm → Pm) (d : Dev) : (updPm p f d).locks = d.locks := by simp [updPm]

@[simp] theorem dropTags_locks (p : Nat) (d : Dev) : (dropTags p d).locks = d.locks := by simp [dropTags]

@[simp] theorem freeHeld_locks (p : Nat) (d : Dev) : (freeHeld p d).locks = d.locks := by (unfold freeHeld; (try dsimp only); (repeat' split) <;> simp)

@[simp] theorem dropHeld_locks (p : Nat) (d : Dev) : (dropHeld p d).locks = d.locks := by simp [dropHeld]

@[simp] theorem slotSilent_locks (n : Nat) (d : Dev) : (slotSilent n d).locks = d.locks := by (unfold slotSilent; (try dsimp only); (repeat' split) <;> simp)

@[simp] theorem idleEmit_locks (n : Nat) (d : Dev) : (idleEmit n d).locks = d.locks := by (unfold idleEmit; (try dsimp only); (repeat' split) <;> simp)

@[simp] theorem finishDisable_locks (p : Nat) (d : Dev) : (finishDisable p d).locks = d.locks := by simp [finishDisable]

@[simp] theorem endDisable_locks (p : Nat) (d : Dev) : (endDisable p d).locks = d.locks := by (unfold endDisable; (try dsimp only); (repeat' split) <;> simp)

@[simp] theorem settleBounds_locks (p : Nat) (d : Dev) : (settleBounds p d).locks = d.locks := by (unfold settleBounds; dsimp only; (repeat' split) <;> simp)

@[simp] theorem fenceChan_locks (chid : Nat) (d : Dev) : (fenceChan chid d).locks = d.locks := by simp [fenceChan]

@[simp] theorem resyncChan_locks (p : Nat) (x : Nat × Nat × Nat) (d : Dev) : (resyncChan p x d).locks = d.locks := by (unfold resyncChan; dsimp only; (repeat' split) <;> simp)

@[simp] theorem pmMove_locks (p new : Nat) (d : Dev) : (pmMove p new d).locks = d.locks := by (unfold pmMove; (try dsimp only); (repeat' split) <;> simp)

@[simp] theorem renumber_locks (p : Nat) (o : Int) (d : Dev) : (renumber p o d).locks = d.locks := by simp [renumber]

@[simp] theorem rebasePort_locks (p : Nat) (o : Int) (d : Dev) : (rebasePort p o d).locks = d.locks := by simp [rebasePort]

@[simp] theorem leadResynced_locks (p : Nat) (o : Int) (d : Dev) : (leadResynced p o d).locks = d.locks := by (unfold leadResynced; (try dsimp only); (repeat' split) <;> simp)

@[simp] theorem resyncStep_locks (p : Nat) (d : Dev) : (resyncStep p d).locks = d.locks := by (unfold resyncStep; dsimp only; (repeat' split) <;> simp)

@[simp] theorem dispose_locks (p idx : Nat) (bytes : Bytes) (fcsOk : Bool) (x : Dispo) (d : Dev) : (dispose p idx bytes fcsOk x d).locks = d.locks := by simp [dispose]

@[simp] theorem chargeFrame_locks (p : Nat) (f : RxFrame) (d : Dev) : (chargeFrame p f d).locks = d.locks := by (unfold chargeFrame; dsimp only; (repeat' split) <;> simp)

@[simp] theorem chargeHeld_locks (p : Nat) (d : Dev) : (chargeHeld p d).locks = d.locks := by
  unfold chargeHeld
  generalize (d.getTck p).rx = l
  induction l generalizing d with
  | nil => rfl
  | cons a l ih => rw [List.foldl_cons, ih]; split <;> simp

@[simp] theorem settlePort_locks (p : Nat) (d : Dev) : (settlePort p d).locks = d.locks := by simp [settlePort]

@[simp] theorem fenceDrop_locks (p : Nat) (d : Dev) : (fenceDrop p d).locks = d.locks := by simp [fenceDrop]

@[simp] theorem raiseHorizon_locks (p v : Nat) (d : Dev) : (raiseHorizon p v d).locks = d.locks := by simp [raiseHorizon]

@[simp] theorem doDelineated_locks (p : Nat) (bytes : Bytes) (fcsOk : Bool) (fec : FecRun) (d : Dev) : (doDelineated p bytes fcsOk fec d).locks = d.locks := by simp [doDelineated]

@[simp] theorem dropFrame_locks (p : Nat) (f : RxFrame) (counter : Nat) (d : Dev) : (dropFrame p f counter d).locks = d.locks := by simp [dropFrame]

@[simp] theorem dropQuiet_locks (p : Nat) (f : RxFrame) (code : Nat) (d : Dev) : (dropQuiet p f code d).locks = d.locks := by simp [dropQuiet]

@[simp] theorem admitTransmit_locks (t : Tables) (v p : Nat) (f : RxFrame) (chid : Nat) (rule : Nat) (d : Dev) : (admitTransmit t v p f chid rule d).locks = d.locks := by (unfold admitTransmit; dsimp only; (repeat' split) <;> simp)

@[simp] theorem bypassFrame_locks (p : Nat) (f : RxFrame) (rule : Nat) (d : Dev) : (bypassFrame p f rule d).locks = d.locks := by simp [bypassFrame]

@[simp] theorem extractFrame_locks (p : Nat) (f : RxFrame) (q rule : Nat) (d : Dev) : (extractFrame p f q rule d).locks = d.locks := by simp [extractFrame]

@[simp] theorem fencedFrame_locks (p : Nat) (f : RxFrame) (d : Dev) : (fencedFrame p f d).locks = d.locks := by simp [fencedFrame]

@[simp] theorem passClear_locks (t : Tables) (v p : Nat) (f : RxFrame) (d : Dev) : (passClear t v p f d).locks = d.locks := by (unfold passClear; dsimp only; (repeat' split) <;> simp)

@[simp] theorem countReplay_locks (t : Tables) (slot chid : Nat) (r : Replay) (d : Dev) : (countReplay t slot chid r d).locks = d.locks := by simp [countReplay]

@[simp] theorem rxFail_locks (p : Nat) (f : RxFrame) (slot code : Nat) (d : Dev) : (rxFail p f slot code d).locks = d.locks := by simp [rxFail]

@[simp] theorem rxSaStage_locks (t : Tables) (v p : Nat) (f : RxFrame) (s : SecTag) (chid slot : Nat) (sci : Option Nat) (d : Dev) : (rxSaStage t v p f s chid slot sci d).locks = d.locks := by (unfold rxSaStage; dsimp only; (repeat' split) <;> simp)

@[simp] theorem passMacsec_locks (t : Tables) (v p : Nat) (f : RxFrame) (d : Dev) : (passMacsec t v p f d).locks = d.locks := by
  have hn : ∀ chid an x, (passMacsec.noSa p f chid an x).locks = x.locks := fun chid an x => by simp [passMacsec.noSa]
  unfold passMacsec
  dsimp only
  repeat' split
  all_goals first | simp [hn]; done | rfl

@[simp] theorem passCipher_locks (t : Tables) (v p : Nat) (f : RxFrame) (d : Dev) : (passCipher t v p f d).locks = d.locks := by (unfold passCipher; dsimp only; (repeat' split) <;> simp)

@[simp] theorem leaveHold_locks (p : Nat) (f : RxFrame) (d : Dev) : (leaveHold p f d).locks = d.locks := by simp [leaveHold]

@[simp] theorem doFramePassed_locks (p : Nat) (d : Dev) : (doFramePassed p d).locks = d.locks := by (unfold doFramePassed; (repeat' split) <;> simp)

@[simp] theorem hardStop_locks (slot chid : Nat) (d : Dev) : (hardStop slot chid d).locks = d.locks := by simp [hardStop]

@[simp] theorem stopAtLimit_locks (t : Tables) (slot chid : Nat) (d : Dev) : (stopAtLimit t slot chid d).locks = d.locks := by simp [stopAtLimit]

@[simp] theorem takePn_locks (chid view idx : Nat) (d : Dev) : (takePn chid view idx d).2.locks = d.locks := by (unfold takePn; dsimp only; (repeat' split) <;> simp)

@[simp] theorem popJob_locks (s : Nat) (j : TxJob) (d : Dev) : (popJob s j d).locks = d.locks := by simp [popJob]

@[simp] theorem dropJob_locks (s : Nat) (j : TxJob) (d : Dev) : (dropJob s j d).locks = d.locks := by simp [dropJob]

@[simp] theorem doDequeue_locks (p : Nat) (d : Dev) : (doDequeue p d).locks = d.locks := by (unfold doDequeue; dsimp only; (repeat' split) <;> simp)

@[simp] theorem doIcvEmitted_locks (p : Nat) (d : Dev) : (doIcvEmitted p d).locks = d.locks := by (unfold doIcvEmitted; (repeat' split) <;> simp)

@[simp] theorem learnLost_locks (q why : Nat) (d : Dev) : (learnLost q why d).locks = d.locks := by simp [learnLost]

@[simp] theorem formLearn_locks (t : Tables) (p : Nat) (h : HoldFrame) (d : Dev) : (formLearn t p h d).locks = d.locks := by (unfold formLearn; dsimp only; (repeat' split) <;> simp)

@[simp] theorem holdFail_locks (p : Nat) (h : HoldFrame) (code : Nat) (d : Dev) : (holdFail p h code d).locks = d.locks := by simp [holdFail]

@[simp] theorem doIcvVerified_locks (p : Nat) (d : Dev) : (doIcvVerified p d).locks = d.locks := by (unfold doIcvVerified; dsimp only; (repeat' split) <;> simp)

@[simp] theorem doEgressSend_locks (p : Nat) (d : Dev) : (doEgressSend p d).locks = d.locks := by (unfold doEgressSend; (repeat' split) <;> simp)

@[simp] theorem interimOf_locks (p a : Nat) (d : Dev) : (interimOf p a d).locks = d.locks := by simp [interimOf]

@[simp] theorem doInterimDigest_locks (p : Nat) (d : Dev) : (doInterimDigest p d).locks = d.locks := by simp [doInterimDigest]

@[simp] theorem restoreRec_locks (cold : Bool) (d : Dev) : (restoreRec cold d).locks = d.locks := by simp [restoreRec]

@[simp] theorem postWrite_locks (r v : Nat) (d : Dev) : (postWrite r v d).locks = d.locks := by simp [postWrite]

@[simp] theorem markStep_locks (d : Dev) : (markStep d).locks = d.locks := by simp [markStep]

@[simp] theorem setCalq_locks (q : Nat) (d : Dev) : (setCalq q d).locks = d.locks := by simp [setCalq]

@[simp] theorem calSet_locks (v : Nat) (d : Dev) : (calSet v d).locks = d.locks := by simp [calSet]

@[simp] theorem doPpsEdge_locks (d : Dev) : (doPpsEdge d).locks = d.locks := by
  unfold doPpsEdge
  extract_lets e known next
  split
  · split
    · exact (setCalq_locks _ _).trans rfl
    · rfl
  · extract_lets v agree step run x
    have hx : x.locks = d.locks := (Dev.locks_evr _ _).trans (when_locks _ _ _ markStep_locks)
    clear_value x
    repeat' split
    all_goals first | exact hx | exact (setCalq_locks _ _).trans hx

@[simp] theorem doPpsMissing_locks (d : Dev) : (doPpsMissing d).locks = d.locks := by simp [doPpsMissing]

@[simp] theorem doTod_locks (b : Bytes) (inTime : Bool) (d : Dev) : (doTod b inTime d).locks = d.locks := by simp [doTod]

@[simp] theorem stnChange_locks (k i : Nat) (old new : Option StnEntry) (d : Dev) : (stnChange k i old new d).locks = d.locks := by (unfold stnChange; rfl)

@[simp] theorem applyLearn_locks (k : Nat) (l : Learn) (d : Dev) : (applyLearn k l d).locks = d.locks := by (unfold applyLearn; dsimp only; (repeat' split) <;> simp)

theorem stnGuards_locks (k : Nat) (b : Sub) (l : List (Bool × Nat)) (f : Dev → Dev) (d : Dev) (hf : ∀ x, (f x).locks = x.locks) :
    (stnGuards k b l f d).locks = d.locks := by
  induction l with
  | nil => unfold stnGuards; rw [gateLate_locks, hf]
  | cons a l ih =>
    unfold stnGuards; split
    · rw [gateLate_locks]
    · exact ih

@[simp] theorem addFilter_locks (f : FlushFilter) (d : Dev) : (addFilter f d).locks = d.locks := rfl

@[simp] theorem StnWait.run_locks (w : StnWait) (d : Dev) : (StnWait.run w d).locks = d.locks := by
  unfold StnWait.run StnWait.run.act
  dsimp only
  repeat' split
  all_goals first
    | exact addFilter_locks _ _
    | exact stnGuards_locks _ _ _ _ _ (fun x => by simp)

@[simp] theorem stnDrain_locks (d : Dev) : (stnDrain d).locks = d.locks := by simp [stnDrain]

@[simp] theorem stnGated_locks (w : StnWait) (d : Dev) : (stnGated w d).locks = d.locks := by simp [stnGated]

@[simp] theorem doLearnsApply_locks (k : Nat) (d : Dev) : (doLearnsApply k d).locks = d.locks := by simp [doLearnsApply]

@[simp] theorem doStationWalk_locks (q : Nat) (d : Dev) : (doStationWalk q d).locks = d.locks := by (unfold doStationWalk; (repeat' split) <;> simp)

@[simp] theorem doFlushWalk_locks (q : Nat) (d : Dev) : (doFlushWalk q d).locks = d.locks := by simp [doFlushWalk]

@[simp] theorem doStnInsert_locks (b : Sub) (part key chid : Nat) (d : Dev) : (doStnInsert b part key chid d).locks = d.locks := by
  unfold doStnInsert; (repeat' first | refine inSlice_locks _ _ _ _ ?_ <;> intros | refine guards_locks _ _ _ _ ?_ <;> intros | split) <;> simp

@[simp] theorem doStnDelete_locks (b : Sub) (part key : Nat) (d : Dev) : (doStnDelete b part key d).locks = d.locks := by
  unfold doStnDelete; (repeat' first | refine inSlice_locks _ _ _ _ ?_ <;> intros | refine guards_locks _ _ _ _ ?_ <;> intros | split) <;> simp

@[simp] theorem doStnFlush_locks (b : Sub) (part : Nat) (byChan : Bool) (value : Nat) (incl : Bool) (d : Dev) : (doStnFlush b part byChan value incl d).locks = d.locks := by
  unfold doStnFlush; (repeat' first | refine guards_locks _ _ _ _ ?_ <;> intros | dsimp only | split) <;> simp

@[simp] theorem doStnSetsweep_locks (b : Sub) (period : Nat) (d : Dev) : (doStnSetsweep b period d).locks = d.locks := by
  unfold doStnSetsweep; refine guards_locks _ _ _ _ ?_; simp

@[simp] theorem stnTack_locks (d : Dev) : (stnTack d).locks = d.locks := by simp [stnTack]

@[simp] theorem stnOpWrite_locks (v : Nat) (d : Dev) : (stnOpWrite v d).locks = d.locks := by simp [stnOpWrite]

@[simp] theorem setBank_locks (i : Nat) (x : PatBank) (d : Dev) : (setBank i x d).locks = d.locks := by simp [setBank]

@[simp] theorem doPatLoad_locks (b : Sub) (slot : Nat) (d : Dev) : (doPatLoad b slot d).locks = d.locks := by simp [doPatLoad]

@[simp] theorem doPatSwitch_locks (b : Sub) (d : Dev) : (doPatSwitch b d).locks = d.locks := by
  unfold doPatSwitch; refine guards_locks _ _ _ _ ?_; simp

@[simp] theorem imageRefused_locks (type slot check : Nat) (d : Dev) : (imageRefused type slot check d).locks = d.locks := by simp [imageRefused]

@[simp] theorem loadSection_locks (b : Bytes) (x : Nat × Nat × Nat × Nat × Nat) (d : Dev) : (loadSection b x d).locks = d.locks := by simp [loadSection]

@[simp] theorem loadRuntime_locks (b : Bytes) (d : Dev) : (loadRuntime b d).locks = d.locks := by simp [loadRuntime]

@[simp] theorem doPatLoadDone_locks (d : Dev) : (doPatLoadDone d).locks = d.locks := by (unfold doPatLoadDone; dsimp only; (repeat' split) <;> simp)

end Sys2Proof.Machine
end

