-- ==== Sys2Proof/Laws/LocksHost.lean ====
section
/-! SUPPORT. What the operations of the host interface, resets, ports and slot mode do to the locked configuration (Dev.locks): nothing. -/

namespace Sys2Proof.Machine

@[simp] theorem doHostver_locks (v : Nat) (d : Dev) : (doHostver v d).locks = d.locks := by (unfold doHostver; (repeat' split) <;> simp)

@[simp] theorem haltRing_locks (r cause : Nat) (d : Dev) : (haltRing r cause d).locks = d.locks := by simp [haltRing]

@[simp] theorem ringOverrun_locks (r : Nat) (d : Dev) : (ringOverrun r d).locks = d.locks := by simp [ringOverrun]

@[simp] theorem ringCfgWrite_locks (r v : Nat) (d : Dev) : (ringCfgWrite r v d).locks = d.locks := by simp [ringCfgWrite]

@[simp] theorem injCfgWrite_locks (q v : Nat) (d : Dev) : (injCfgWrite q v d).locks = d.locks := by simp [injCfgWrite]

@[simp] theorem extCfgWrite_locks (q v : Nat) (d : Dev) : (extCfgWrite q v d).locks = d.locks := by simp [extCfgWrite]

@[simp] theorem hmbCfgWrite_locks (v : Nat) (d : Dev) : (hmbCfgWrite v d).locks = d.locks := by simp [hmbCfgWrite]

@[simp] theorem pageCfgWrite_locks (page v : Nat) (d : Dev) : (pageCfgWrite page v d).locks = d.locks := by simp [pageCfgWrite]

@[simp] theorem dmaFailed_locks (kind q : Nat) (d : Dev) : (dmaFailed kind q d).locks = d.locks := by simp [dmaFailed]

@[simp] theorem ringPiWrite_locks (r v : Nat) (d : Dev) : (ringPiWrite r v d).locks = d.locks := by simp [ringPiWrite]

@[simp] theorem injPop_locks (q : Nat) (d : Dev) : (injPop q d).locks = d.locks := by (unfold injPop; (repeat' split) <;> simp)

@[simp] theorem injDrop_locks (q : Nat) (d : Dev) : (injDrop q d).locks = d.locks := by simp [injDrop]

@[simp] theorem injSend_locks (q : Nat) (d : Dev) : (injSend q d).locks = d.locks := by (unfold injSend; dsimp only; (repeat' split) <;> simp)

@[simp] theorem injRead_locks (q : Nat) (b : HostFrame) (fail : Bool) (d : Dev) : (injRead q b fail d).locks = d.locks := by (unfold injRead; dsimp only; (repeat' split) <;> simp)

@[simp] theorem doMsgSend_locks (b : Sub) (msg : Bytes) (d : Dev) : (doMsgSend b msg d).locks = d.locks := by simp [doMsgSend]

@[simp] theorem doHifCopy_locks (b : Sub) (host ddr len dir : Nat) (data : Bytes) (d : Dev) : (doHifCopy b host ddr len dir data d).locks = d.locks := by (unfold doHifCopy; dsimp only; (repeat' split) <;> simp)

@[simp] theorem hiqPiWrite_locks (q v : Nat) (d : Dev) : (hiqPiWrite q v d).locks = d.locks := by simp [hiqPiWrite]

@[simp] theorem bufReads_locks (q n : Nat) (d : Dev) : (bufReads q n d).locks = d.locks := by (unfold bufReads; (try dsimp only); (repeat' split) <;> simp)

@[simp] theorem hxqBpiWrite_locks (q v : Nat) (bufs : List Nat) (d : Dev) : (hxqBpiWrite q v bufs d).locks = d.locks := by simp [hxqBpiWrite]

@[simp] theorem holdoffEnd_locks (src : Nat) (d : Dev) : (holdoffEnd src d).locks = d.locks := by simp [holdoffEnd]

@[simp] theorem injFlush_locks (q : Nat) (d : Dev) : (injFlush q d).locks = d.locks := by simp [injFlush]

@[simp] theorem stopRings_locks (d : Dev) : (stopRings d).locks = d.locks := by simp [stopRings]

@[simp] theorem stopExts_locks (d : Dev) : (stopExts d).locks = d.locks := by simp [stopExts]

@[simp] theorem doFunctionReset_locks (cause : Nat) (d : Dev) : (doFunctionReset cause d).locks = d.locks := by simp [doFunctionReset]

@[simp] theorem freeKeyId_locks (d : Dev) : (freeKeyId d).2.locks = d.locks := by simp [freeKeyId]

@[simp] theorem putKek_locks (n : Nat) (o : KeyOrigin) (usage keyId : Nat) (key : Bytes) (d : Dev) : (putKek n o usage keyId key d).locks = d.locks := by simp [putKek]

@[simp] theorem clearKek_locks (n : Nat) (d : Dev) : (clearKek n d).locks = d.locks := by simp [clearKek]

@[simp] theorem clearLpk_locks (n : Nat) (d : Dev) : (clearLpk n d).locks = d.locks := by simp [clearLpk]

@[simp] theorem newTicket_locks (key : Bytes) (fresh : Bool) (req : Nat) (d : Dev) : (newTicket key fresh req d).2.locks = d.locks := by simp [newTicket]

@[simp] theorem doRefill_locks (q : Nat) (d : Dev) : (doRefill q d).locks = d.locks := by simp [doRefill]

@[simp] theorem doSpill_locks (q : Nat) (d : Dev) : (doSpill q d).locks = d.locks := by simp [doSpill]

@[simp] theorem doSpillAll_locks (d : Dev) : (doSpillAll d).locks = d.locks := by simp [doSpillAll]

@[simp] theorem fillBobbins_locks (d : Dev) : (fillBobbins d).locks = d.locks := by simp [fillBobbins]

@[simp] theorem qselWrite_locks (v : Nat) (d : Dev) : (qselWrite v d).locks = d.locks := by simp [qselWrite]

@[simp] theorem quotaRefused_locks (d : Dev) : (quotaRefused d).locks = d.locks := by simp [quotaRefused]

@[simp] theorem quotaWrite_locks (fixed : Bool) (f : Bpm → Bpm) (d : Dev) : (quotaWrite fixed f d).locks = d.locks := by simp [quotaWrite]

@[simp] theorem qminWrite_locks (v : Nat) (d : Dev) : (qminWrite v d).locks = d.locks := by simp [qminWrite]

@[simp] theorem qcapWrite_locks (v : Nat) (d : Dev) : (qcapWrite v d).locks = d.locks := by simp [qcapWrite]

@[simp] theorem loadDeviceKeys_locks (d : Dev) : (loadDeviceKeys d).locks = d.locks := by simp [loadDeviceKeys]

@[simp] theorem loadColdKey_locks (d : Dev) : (loadColdKey d).locks = d.locks := by simp [loadColdKey]

@[simp] theorem onEnrol_locks (d : Dev) : (onEnrol d).locks = d.locks := by
  unfold onEnrol; (repeat' first | split | dsimp only) <;> first | rfl | simp [*]

@[simp] theorem onSolo_locks (d : Dev) : (onSolo d).locks = d.locks := by simp [onSolo]

@[simp] theorem tryImage_locks (type pref : Nat) (d : Dev) : (tryImage type pref d).2.locks = d.locks := by (unfold tryImage; dsimp only; (repeat' split) <;> simp)

@[simp] theorem loadKwr_locks (d : Dev) : (loadKwr d).locks = d.locks := by (unfold loadKwr; dsimp only; (repeat' split) <;> (try rfl) <;> simp [*])

@[simp] theorem kilnEnter_locks (d : Dev) : (kilnEnter d).locks = d.locks := by simp [kilnEnter]

@[simp] theorem untestedPair_locks (r m : Image) (d : Dev) : (untestedPair r m d).locks = d.locks := by simp [untestedPair]

@[simp] theorem measureFuses_locks (d : Dev) : (measureFuses d).locks = d.locks := by simp [measureFuses]

@[simp] theorem measureImage_locks (i : Nat) (x : Option Image) (d : Dev) : (measureImage i x d).locks = d.locks := by (unfold measureImage; (repeat' split) <;> simp)

@[simp] theorem reportUntested_locks (reason : Nat) (mc rt : Option Image) (d : Dev) : (reportUntested reason mc rt d).locks = d.locks := by (unfold reportUntested; (repeat' split) <;> simp)

@[simp] theorem modeStarted_locks (m : Mode) (d : Dev) : (modeStarted m d).locks = d.locks := by simp [modeStarted]

@[simp] theorem kilnImages_locks (d : Dev) : (kilnImages d).locks = d.locks := by simp [kilnImages]

@[simp] theorem hpDown_locks (j : Nat) (d : Dev) : (hpDown j d).locks = d.locks := by simp [hpDown]

@[simp] theorem neighbourLost_locks (j : Nat) (d : Dev) : (neighbourLost j d).locks = d.locks := by simp [neighbourLost]

@[simp] theorem hpFollow_locks (j : Nat) (d : Dev) : (hpFollow j d).locks = d.locks := by simp [hpFollow]

@[simp] theorem kilnStart_locks (d : Dev) : (kilnStart d).locks = d.locks := by
  unfold kilnStart
  split
  · simp
  · split
    · simp
    · extract_lets t x
      have hx : x.locks = d.locks := (when_locks _ _ _ (fun y => by simp)).trans (reportUntested_locks _ _ _ _)
      exact (each_locks _ _ _ (fun _ _ => hpFollow_locks _ _)).trans ((modeStarted_locks _ _).trans ((enterMode_locks _ _ _).trans
        ((Dev.updMod_locks _ _).trans hx)))

@[simp] theorem kilnGo_locks (d : Dev) : (kilnGo d).locks = d.locks := by simp [kilnGo]

@[simp] theorem doKilnBoot_locks (d : Dev) : (doKilnBoot d).locks = d.locks := by simp [doKilnBoot]

@[simp] theorem doTamperRelease_locks (d : Dev) : (doTamperRelease d).locks = d.locks := by
  unfold doTamperRelease
  dsimp only
  split
  · exact kilnStart_locks _
  · rfl

@[simp] theorem sendRec_locks (r : TackRec) (d : Dev) : (sendRec r d).locks = d.locks := by (unfold sendRec; (repeat' split) <;> simp)

@[simp] theorem takeRec_locks (eseq : Nat) (b : Bytes) (d : Dev) : (takeRec eseq b d).locks = d.locks := by (unfold takeRec; dsimp only; (repeat' split) <;> (try rfl) <;> simp [*])

@[simp] theorem sltCount_locks (p i : Nat) (d : Dev) : (sltCount p i d).locks = d.locks := by simp [sltCount]

@[simp] theorem startClientFault_locks (p i : Nat) (d : Dev) : (startClientFault p i d).locks = d.locks := by simp [startClientFault]

@[simp] theorem chgSDef_locks (p : Nat) (f : SltDef → SltDef) (d : Dev) : (chgSDef p f d).locks = d.locks := by simp [chgSDef]

@[simp] theorem setDef_locks (p k : Nat) (b : Bool) (d : Dev) : (setDef p k b d).locks = d.locks := by simp [setDef]

@[simp] theorem setCtag_locks (p i : Nat) (b : Bool) (d : Dev) : (setCtag p i b d).locks = d.locks := by simp [setCtag]

@[simp] theorem setCsf_locks (p i : Nat) (b : Bool) (d : Dev) : (setCsf p i b d).locks = d.locks := by simp [setCsf]

@[simp] theorem updateCsf_locks (p : Nat) (d : Dev) : (updateCsf p d).locks = d.locks := by simp [updateCsf]

@[simp] theorem updateCsfAll_locks (d : Dev) : (updateCsfAll d).locks = d.locks := by simp [updateCsfAll]

@[simp] theorem clearHeldAn_locks (p : Nat) (d : Dev) : (clearHeldAn p d).locks = d.locks := by simp [clearHeldAn]

@[simp] theorem frameDefect_locks (n : Nat) (d : Dev) : (frameDefect n d).locks = d.locks := by (unfold frameDefect; (try dsimp only); (repeat' split) <;> simp)

@[simp] theorem updateLos_locks (n : Nat) (d : Dev) : (updateLos n d).locks = d.locks := by simp [updateLos]

@[simp] theorem releaseSlotFrame_locks (src fc chid slot dst : Nat) (b : Bytes) (ok : Bool) (d : Dev) : (releaseSlotFrame src fc chid slot dst b ok d).locks = d.locks := by (unfold releaseSlotFrame; dsimp only; (repeat' split) <;> simp)

theorem changeHold_locks {p lo hi : Nat} {add : Bool} {d d' : Dev} (h : changeHold p lo hi add d = some d') : d'.locks = d.locks := by
  unfold changeHold at h; simp only [Option.map_eq_some_iff] at h; obtain ⟨b, -, rfl⟩ := h; rfl

@[simp] theorem stopTx_locks (p : Nat) (d : Dev) : (stopTx p d).locks = d.locks := by simp [stopTx]

@[simp] theorem startSlot_locks (p lo hi : Nat) (d : Dev) : (startSlot p lo hi d).locks = d.locks := by
  unfold startSlot
  extract_lets n d1 d2 d3 d4 d5
  have h1 : d1.locks = d.locks := (clearHeldAn_locks _ _).trans (Dev.updPort_locks _ _ _)
  have h2 : d2.locks = d1.locks := by
    simp only [d2]; split
    · rfl
    · exact (updSTx_locks _ _ _).trans (stopTx_locks _ _)
  have h3 : d3.locks = d2.locks := Dev.updSlt_locks _ _ _
  exact (updateCsf_locks _ _).trans ((setDef_locks _ _ _ _).trans ((setDef_locks _ _ _ _).trans ((setDef_locks _ _ _ _).trans (h3.trans (h2.trans h1)))))

@[simp] theorem stopSlot_locks (p : Nat) (d : Dev) : (stopSlot p d).locks = d.locks := by
  unfold stopSlot
  extract_lets s a b
  have ha : a.locks = d.locks := (clearHeldAn_locks ..).trans (dropHeld_locks ..)
  have hb : b.locks = d.locks := by
    simp only [b]; clear_value a
    cases h : changeHold p s.reserveLo s.reserveHi false a with
    | none => exact ha
    | some y => exact (changeHold_locks h).trans ha
  clear_value b
  simp [hb]

@[simp] theorem setClient_locks (b : Sub) (p i v : Nat) (rx : Bool) (d : Dev) : (setClient b p i v rx d).locks = d.locks := by
  unfold setClient; refine guards_locks _ _ _ _ ?_; simp

@[simp] theorem setCal_locks (b : Sub) (p w v : Nat) (rx pageB : Bool) (d : Dev) : (setCal b p w v rx pageB d).locks = d.locks := by
  unfold setCal; refine guards_locks _ _ _ _ ?_; simp

@[simp] theorem setVer_locks (b : Sub) (p v : Nat) (rx : Bool) (d : Dev) : (setVer b p v rx d).locks = d.locks := by
  unfold setVer; refine guards_locks _ _ _ _ ?_; simp

@[simp] theorem setSltCtrl_locks (b : Sub) (p v : Nat) (d : Dev) : (setSltCtrl b p v d).locks = d.locks := by
  unfold setSltCtrl
  extract_lets n g v' lo hi starts
  refine guards_locks _ _ _ _ (fun x => ?_)
  extract_lets a c e
  have ha : a.locks = x.locks := by
    simp only [a]; split
    · cases h : changeHold p lo hi true x with
      | none => rfl
      | some y => exact changeHold_locks h
    · rfl
  have hc : c.locks = x.locks := by simp only [c]; clear_value a; split <;> simp [ha, stopSlot_locks]
  have he : e.locks = x.locks := by simp only [e]; clear_value c; simp [hc]
  clear_value e
  rw [gateDone_locks]
  split <;> simp [he]

@[simp] theorem doSltSet_locks (b : Sub) (p off v : Nat) (d : Dev) : (doSltSet b p off v d).locks = d.locks := by
  unfold doSltSet
  extract_lets v' set
  have hs : ∀ f x, (set f x).locks = x.locks := fun f x => by simp [set]
  clear_value set
  refine inSlice_locks _ _ _ _ (fun x => ?_)
  try dsimp only
  iterate 3 (split; first | exact setSltCtrl_locks .. | exact guards_locks _ _ _ _ (fun _ => hs ..) | exact hs ..)
  split; exact guards_locks _ _ _ _ (fun _ => hs ..)
  repeat' split
  all_goals simp

@[simp] theorem doChWrite_locks (b : Sub) (chid : Nat) (image : Bytes) (d : Dev) : (doChWrite b chid image d).locks = d.locks := by
  unfold doChWrite; (repeat' first | refine inSlice_locks _ _ _ _ ?_ <;> intros | refine guards_locks _ _ _ _ ?_ <;> intros | split) <;> simp

@[simp] theorem doSltSwap_locks (b : Sub) (p : Nat) (d : Dev) : (doSltSwap b p d).locks = d.locks := by
  unfold doSltSwap; (repeat' first | refine inSlice_locks _ _ _ _ ?_ <;> intros | refine guards_locks _ _ _ _ ?_ <;> intros | split) <;> simp

@[simp] theorem doSwapTimeout_locks (p : Nat) (d : Dev) : (doSwapTimeout p d).locks = d.locks := by simp [doSwapTimeout]

@[simp] theorem takeFc_locks (chid view fc : Nat) (d : Dev) : (takeFc chid view fc d).2.locks = d.locks := by (unfold takeFc; dsimp only; (repeat' split) <;> simp)

@[simp] theorem pullFrames_locks (p i chid need n : Nat) (d : Dev) : (pullFrames p i chid need n d).locks = d.locks := by
  induction n generalizing d with
  | zero => rfl
  | succ n ih =>
    unfold pullFrames
    dsimp only
    repeat' split
    all_goals first
      | rfl
      | (rw [ih, dispose_locks, fenceDrop_locks]; simp)
      | (rw [ih, updSTx_locks, dispose_locks, when_locks _ _ _ (fun x => by simp)]; simp)

@[simp] theorem feedClient_locks (t : Tables) (p i clear : Nat) (arrived : List Block) (d : Dev) : (feedClient t p i clear arrived d).2.locks = d.locks := by
  unfold feedClient; dsimp only; (repeat' split) <;> simp

@[simp] theorem feedPackets_locks (p i chid need : Nat) (d : Dev) : (feedPackets p i chid need d).locks = d.locks := by simp [feedPackets]

@[simp] theorem passMapped_locks (p i n : Nat) (d : Dev) : (passMapped p i n d).locks = d.locks := by simp [passMapped]

@[simp] theorem clientBlocks_locks (t : Tables) (p i e k : Nat) (arrived : List Block) (d : Dev) : (clientBlocks t p i e k arrived d).2.locks = d.locks := by (unfold clientBlocks; (repeat' split) <;> simp)

@[simp] theorem buildClient_locks (t : Tables) (p view fc ver n : Nat) (page : Tab Nat) (maps : List (Nat × List Block)) (i : Nat) (d : Dev) : (buildClient t p view fc ver n page maps i d).2.locks = d.locks := by (unfold buildClient; dsimp only; (repeat' split) <;> simp)

@[simp] theorem buildClients_locks (t : Tables) (p view fc ver n : Nat) (page : Tab Nat) (maps : List (Nat × List Block)) (l : List Nat) (d : Dev) : (buildClients t p view fc ver n page maps l d).2.locks = d.locks := by
  induction l generalizing d with
  | nil => rfl
  | cons a l ih => unfold buildClients; simp [ih]

@[simp] theorem mgmtSegment_locks (g : SltGated) (p : Nat) (d : Dev) : (mgmtSegment g p d).2.locks = d.locks := by (unfold mgmtSegment; dsimp only; (repeat' split) <;> simp)

@[simp] theorem txMultiframe_locks (p fc : Nat) (d : Dev) : (txMultiframe p fc d).locks = d.locks := by simp [txMultiframe]

@[simp] theorem fillFrame_locks (chid view fc n : Nat) (d : Dev) : (fillFrame chid view fc n d).2.locks = d.locks := by (unfold fillFrame; dsimp only; (repeat' split) <;> simp)

@[simp] theorem slotSent_locks (p fc sum : Nat) (blocks : List Block) (d : Dev) : (slotSent p fc sum blocks d).locks = d.locks := by simp [slotSent]

@[simp] theorem priorFields_locks (p fc : Nat) (d : Dev) : (priorFields p fc d).2.locks = d.locks := by (unfold priorFields; dsimp only; (repeat' split) <;> simp)

@[simp] theorem sendSlotFrame_locks (t : Tables) (p view fc n : Nat) (maps : List (Nat × List Block)) (clients : Bool) (ps : Nat) (d : Dev) : (sendSlotFrame t p view fc n maps clients ps d).locks = d.locks := by simp [sendSlotFrame]

@[simp] theorem slotPassed_locks (p fc out : Nat) (d : Dev) : (slotPassed p fc out d).locks = d.locks := by simp [slotPassed]

@[simp] theorem portSaFallow_locks (t : Tables) (p fc : Nat) (d : Dev) : (portSaFallow t p fc d).locks = d.locks := by simp [portSaFallow]

@[simp] theorem doSlotTransmit_locks (p : Nat) (maps : List (Nat × List Block)) (d : Dev) : (doSlotTransmit p maps d).locks = d.locks := by (unfold doSlotTransmit; dsimp only; (repeat' split) <;> simp)

@[simp] theorem judgeFrame_locks (p : Nat) (errored : Bool) (d : Dev) : (judgeFrame p errored d).locks = d.locks := by simp [judgeFrame]

@[simp] theorem doHuntBlock_locks (p : Nat) (x : Block) (d : Dev) : (doHuntBlock p x d).locks = d.locks := by simp [doHuntBlock]

@[simp] theorem playPush_locks (p i k : Nat) (blocks : Option (List Block)) (d : Dev) : (playPush p i k blocks d).locks = d.locks := by (unfold playPush; (repeat' split) <;> simp)

@[simp] theorem packetPush_locks (p i chid slot fc : Nat) (blocks : Option (List Block)) (d : Dev) : (packetPush p i chid slot fc blocks d).locks = d.locks := by (unfold packetPush; (repeat' split) <;> simp)

@[simp] theorem clientPush_locks (p i k chid slot fc : Nat) (blocks : Option (List Block)) (d : Dev) : (clientPush p i k chid slot fc blocks d).locks = d.locks := by simp [clientPush]

@[simp] theorem selectMember_locks (chid g c : Nat) (d : Dev) : (selectMember chid g c d).locks = d.locks := by (unfold selectMember; dsimp only; (repeat' split) <;> simp)

@[simp] theorem mergeSwitch_locks (chid g fc : Nat) (d : Dev) : (mergeSwitch chid g fc d).locks = d.locks := by (unfold mergeSwitch; dsimp only; (repeat' split) <;> simp)

@[simp] theorem clientFail_locks (p i k chid fc : Nat) (slot : Option Nat) (d : Dev) : (clientFail p i k chid fc slot d).locks = d.locks := by (unfold clientFail; (repeat' split) <;> simp)

@[simp] theorem clientOk_locks (p : Nat) (h : HeldClient) (d : Dev) : (clientOk p h d).locks = d.locks := by (unfold clientOk; dsimp only; (repeat' split) <;> simp)

@[simp] theorem mgmtReceive_locks (p fc : Nat) (seg : Bytes) (d : Dev) : (mgmtReceive p fc seg d).locks = d.locks := by (unfold mgmtReceive; dsimp only; (repeat' split) <;> simp)

@[simp] theorem setHeldAn_locks (p i an : Nat) (d : Dev) : (setHeldAn p i an d).locks = d.locks := by simp [setHeldAn]

@[simp] theorem canReceive_locks (p : Nat) (h : HeldPort) (can : Bytes) (d : Dev) : (canReceive p h can d).locks = d.locks := by
  unfold canReceive; refine each_locks _ _ _ ?_; intros; split <;> simp

@[simp] theorem rdiReceive_locks (p : Nat) (rdi rei : Bool) (d : Dev) : (rdiReceive p rdi rei d).locks = d.locks := by simp [rdiReceive]

@[simp] theorem calReceive_locks (p : Nat) (h : HeldPort) (hdr : Bytes) (late : Bool) (d : Dev) : (calReceive p h hdr late d).locks = d.locks := by simp [calReceive]

@[simp] theorem headerReceive_locks (p : Nat) (h : HeldPort) (d : Dev) : (headerReceive p h d).locks = d.locks := by simp [headerReceive]

@[simp] theorem rxMultiframe_locks (p fc : Nat) (d : Dev) : (rxMultiframe p fc d).locks = d.locks := by (unfold rxMultiframe; dsimp only; (repeat' split) <;> simp)

@[simp] theorem ptagVerify_locks (p : Nat) (tag : Option Bytes) (d : Dev) : (ptagVerify p tag d).2.locks = d.locks := by
  have hf : ∀ x, (ptagVerify.fail p x).2.locks = x.locks := fun x => by
    unfold ptagVerify.fail
    extract_lets a
    have ha : a.locks = x.locks := by simp [a]
    clear_value a
    split <;> simp [ha]
  unfold ptagVerify
  extract_lets r ok a
  have ha : a.locks = d.locks := by simp only [a]; split <;> simp
  clear_value a
  split
  · rfl
  · split
    · rename_i h _
      split
      · extract_lets b c e
        have hb : b.locks = d.locks := by simp [b, ha]
        have hc : c.locks = d.locks := by simp only [c]; clear_value b; simp [hb]
        have he : e.locks = d.locks := by simp only [e]; clear_value c; simp [hc]
        clear_value e
        simp only [headerReceive_locks]
        split <;> simp [he]
      · rw [hf]; simp [ha]
    · rw [hf]; exact ha

@[simp] theorem rxDisposition_locks (p fc failed : Nat) (d : Dev) : (rxDisposition p fc failed d).locks = d.locks := by simp [rxDisposition]

@[simp] theorem clientsVerify_locks (p : Nat) (tags : Option (Nat → Bytes)) (d : Dev) : (clientsVerify p tags d).locks = d.locks := by
  unfold clientsVerify
  extract_lets r a bad b c
  have ha : a.locks = d.locks := by simp [a]
  have hb : b.locks = d.locks := by simp only [b]; clear_value a; simp [ha]
  have hc : c.locks = d.locks := by
    simp only [c]; clear_value b
    rw [each_locks]
    · exact hb
    · intro h x
      split
      · rfl
      · have he : (freeStage (0x58 + chSlice h.chid) h.cells (relRef h.slot x)).locks = x.locks := by rw [freeStage_locks, relRef_locks]
        generalize freeStage (0x58 + chSlice h.chid) h.cells (relRef h.slot x) = e at he ⊢
        split
        · rw [clientFail_locks, he]
        · rw [clientOk_locks, he]
  clear_value c bad
  rw [when_locks _ _ _ (fun x => rxDisposition_locks _ _ _ x), hc]

@[simp] theorem loseAlign_locks (p : Nat) (d : Dev) : (loseAlign p d).locks = d.locks := by simp [loseAlign]

@[simp] theorem updateLoa_locks (n : Nat) (b : Bool) (d : Dev) : (updateLoa n b d).locks = d.locks := by simp [updateLoa]

@[simp] theorem rxSlotSa_locks (p chid : Nat) (an : Option Nat) (fc : Nat) (d : Dev) : (rxSlotSa p chid an fc d).2.locks = d.locks := by (unfold rxSlotSa; dsimp only; (repeat' split) <;> simp)

@[simp] theorem clientReceive_locks (p n fc ver : Nat) (page : Tab Nat) (ans : Tab (Option Nat)) (blocks : List Block) (readable : Bool) (i : Nat) (d : Dev) : (clientReceive p n fc ver page ans blocks readable i d).locks = d.locks := by (unfold clientReceive; dsimp only; (repeat' split) <;> simp)

@[simp] theorem portReceive_locks (p n fc ver : Nat) (ans : Tab (Option Nat)) (blocks : List Block) (readable : Bool) (d : Dev) : (portReceive p n fc ver ans blocks readable d).locks = d.locks := by (unfold portReceive; dsimp only; (repeat' split) <;> simp)

@[simp] theorem fcReceive_locks (p fc expect : Nat) (d : Dev) : (fcReceive p fc expect d).2.locks = d.locks := by (unfold fcReceive; (repeat' split) <;> simp)

@[simp] theorem prbsReceive_locks (p n : Nat) (blocks : List Block) (d : Dev) : (prbsReceive p n blocks d).2.locks = d.locks := by simp [prbsReceive]

@[simp] theorem slotTest_locks (p n expect : Nat) (b : Bytes) (r : SltRx) (blocks : List Block) (uncorr : Bool) (d : Dev) : (slotTest p n expect b r blocks uncorr d).locks = d.locks := by simp [slotTest]

@[simp] theorem slotJudge_locks (p n expect : Nat) (b : Bytes) (r : SltRx) (blocks : List Block) (uncorr : Bool) (d : Dev) : (slotJudge p n expect b r blocks uncorr d).2.locks = d.locks := by
  unfold slotJudge
  extract_lets col d0 t a f
  have h0 : d0.locks = d.locks := by simp only [d0]; split <;> simp
  clear_value d0
  have ht : t.2.locks = d.locks := by simp [t, ptagVerify_locks, h0]
  have ha : a.locks = d.locks := by simp only [a]; clear_value t; simp [ht]
  have hf : f.2.locks = d.locks := by simp only [f]; clear_value a; simp [ha]
  clear_value f
  simp [hf]

@[simp] theorem slotTake_locks (p n expect : Nat) (fcOk : Bool) (ans : Tab (Option Nat)) (blocks : List Block) (d : Dev) : (slotTake p n expect fcOk ans blocks d).locks = d.locks := by simp [slotTake]

@[simp] theorem slotFawBad_locks (p n expect : Nat) (hasPrev : Bool) (blocks : List Block) (d : Dev) : (slotFawBad p n expect hasPrev blocks d).locks = d.locks := by simp [slotFawBad]

@[simp] theorem doSlotReceive_locks (p : Nat) (blocks : List Block) (uncorr : Bool) (fec : FecRun) (d : Dev) : (doSlotReceive p blocks uncorr fec d).locks = d.locks := by
  unfold doSlotReceive
  extract_lets g n d0 r ex b0 b a c e ans f
  have h0 : d0.locks = d.locks := by simp only [d0]; split <;> simp
  clear_value g n d0 r ex b0 b
  have ha : a.locks = d.locks := by simp [a, h0]
  have hc : c.locks = d.locks := by simp only [c]; clear_value a; simp [ha]
  have he : e.locks = d.locks := by simp only [e]; clear_value c; simp [hc]
  have hf : f.2.locks = d.locks := by simp only [f]; clear_value e; simp [he]
  clear_value f ans e c
  repeat' split
  all_goals first
    | exact h0
    | (simp [hc]; done)
    | (simp [he]; done)
    | simp [hf]

@[simp] theorem doPlayout_locks (p i : Nat) (d : Dev) : (doPlayout p i d).locks = d.locks := by simp [doPlayout]

@[simp] theorem doFailure_locks (p k i : Nat) (present : Bool) (d : Dev) : (doFailure p k i present d).locks = d.locks := by simp [doFailure]

@[simp] theorem degSecond_locks (p : Nat) (x : PmSec) (d : Dev) : (degSecond p x d).locks = d.locks := by simp [degSecond]

@[simp] theorem doSecondEnd_locks (p : Nat) (d : Dev) : (doSecondEnd p d).locks = d.locks := by simp [doSecondEnd]

@[simp] theorem doSecondEntry_locks (p : Nat) (d : Dev) : (doSecondEntry p d).locks = d.locks := by (unfold doSecondEntry; dsimp only; (repeat' split) <;> simp)

@[simp] theorem doPmsel_locks (v : Nat) (d : Dev) : (doPmsel v d).locks = d.locks := by simp [doPmsel]

@[simp] theorem moveLanes_locks (n old new : Nat) (d : Dev) : (moveLanes n old new d).locks = d.locks := by simp [moveLanes]

@[simp] theorem doPortConfig_locks (b : Sub) (n cfg : Nat) (d : Dev) : (doPortConfig b n cfg d).locks = d.locks := by
  unfold doPortConfig; (repeat' first | refine inSlice_locks _ _ _ _ ?_ <;> intros | refine guards_locks _ _ _ _ ?_ <;> intros | split) <;> simp

@[simp] theorem enablePort_locks (n : Nat) (d : Dev) : (enablePort n d).locks = d.locks := by simp [enablePort]

@[simp] theorem doPortEnable_locks (b : Sub) (n : Nat) (d : Dev) : (doPortEnable b n d).locks = d.locks := by
  unfold doPortEnable; (repeat' first | refine inSlice_locks _ _ _ _ ?_ <;> intros | refine guards_locks _ _ _ _ ?_ <;> intros | split) <;> simp

@[simp] theorem doPortDisable_locks (b : Sub) (n : Nat) (d : Dev) : (doPortDisable b n d).locks = d.locks := by
  unfold doPortDisable; refine inSlice_locks _ _ _ _ ?_; simp

@[simp] theorem doPrtSet_locks (b : Sub) (n off v : Nat) (d : Dev) : (doPrtSet b n off v d).locks = d.locks := by
  unfold doPrtSet; (repeat' first | refine inSlice_locks _ _ _ _ ?_ <;> intros | refine guards_locks _ _ _ _ ?_ <;> intros | split) <;> simp

@[simp] theorem laneFollow_locks (l : Nat) (d : Dev) : (laneFollow l d).locks = d.locks := by (unfold laneFollow; (repeat' split) <;> simp)

@[simp] theorem laneStep_locks (l : Nat) (f : Lane → Lane) (d : Dev) : (laneStep l f d).locks = d.locks := by simp [laneStep]
@[simp] theorem onLane_locks (l : Nat) (f : Lane → Lane) (d : Dev) : (onLane l f d).locks = d.locks := by simp [onLane]

@[simp] theorem doAlign_locks (p : Nat) (aligned : Bool) (d : Dev) : (doAlign p aligned d).locks = d.locks := by simp [doAlign]

@[simp] theorem laneRetire_locks (l row how : Nat) (d : Dev) : (laneRetire l row how d).locks = d.locks := by (unfold laneRetire; dsimp only; (repeat' split) <;> simp)

@[simp] theorem laneFault_locks (l row : Nat) (f : Lane → Lane) (d : Dev) : (laneFault l row f d).locks = d.locks := by simp [laneFault]

@[simp] theorem doLaneSelftest_locks (fails : List (Nat × Nat)) (d : Dev) : (doLaneSelftest fails d).locks = d.locks := by (unfold doLaneSelftest; (try dsimp only); (repeat' split) <;> simp)

@[simp] theorem doLneCal_locks (l v : Nat) (d : Dev) : (doLneCal l v d).locks = d.locks := by simp [doLneCal]

@[simp] theorem doLneTest_locks (l v : Nat) (d : Dev) : (doLneTest l v d).locks = d.locks := by simp [doLneTest]

@[simp] theorem doLneCtrl_locks (l v : Nat) (d : Dev) : (doLneCtrl l v d).locks = d.locks := by simp [doLneCtrl]

@[simp] theorem doLneTxeq_locks (l v : Nat) (d : Dev) : (doLneTxeq l v d).locks = d.locks := by simp [doLneTxeq]

@[simp] theorem setClk_locks (i : Nat) (b : Bool) (d : Dev) : (setClk i b d).locks = d.locks := by simp [setClk]

@[simp] theorem doRefLoss_locks (i : Nat) (d : Dev) : (doRefLoss i d).locks = d.locks := by simp [doRefLoss]

@[simp] theorem doRefReturn_locks (i : Nat) (d : Dev) : (doRefReturn i d).locks = d.locks := by simp [doRefReturn]

end Sys2Proof.Machine
end

