-- ==== Sys2Proof/Laws/LocksKeys.lean ====
section
/-! SUPPORT. What the operations of the twin, modes, keys, engines and registers do to the locked configuration (Dev.locks): nothing. -/

namespace Sys2Proof.Machine

@[simp] theorem pairRefused_locks (why : Nat) (d : Dev) : (pairRefused why d).locks = d.locks := by simp [pairRefused]

@[simp] theorem sliceNotices_locks (d : Dev) : (sliceNotices d).locks = d.locks := by (unfold sliceNotices; (try dsimp only); (repeat' split) <;> simp)

@[simp] theorem pairMade_locks (dpver : Nat) (d : Dev) : (pairMade dpver d).locks = d.locks := by
  unfold pairMade; dsimp only; (repeat' split) <;> simp

@[simp] theorem pairForm_locks (serial side dpver role : Nat) (d : Dev) : (pairForm serial side dpver role d).locks = d.locks := by
  unfold pairForm; (repeat' split) <;> simp

@[simp] theorem doPairForm_locks (serial side dpver role : Nat) (d : Dev) : (doPairForm serial side dpver role d).locks = d.locks := by simp [doPairForm]

@[simp] theorem spareSlices_locks (d : Dev) : (spareSlices d).locks = d.locks := by simp [spareSlices]

@[simp] theorem doPartnerDigest_locks (p first count : Nat) (digest : Bytes) (fps : List Nat) (d : Dev) : (doPartnerDigest p first count digest fps d).locks = d.locks := by simp [doPartnerDigest]

@[simp] theorem doMismatch_locks (p first : Nat) (flt : Bool) (d : Dev) : (doMismatch p first flt d).locks = d.locks := by simp [doMismatch]

@[simp] theorem doOffsetReport_locks (p : Nat) (d : Dev) : (doOffsetReport p d).locks = d.locks := by (unfold doOffsetReport; dsimp only; (repeat' split) <;> simp)

@[simp] theorem applyResync_locks (p : Nat) (o : Int) (d : Dev) : (applyResync p o d).locks = d.locks := by simp [applyResync]

@[simp] theorem doTwnResync_locks (p : Nat) (o : Int) (d : Dev) : (doTwnResync p o d).locks = d.locks := by simp [doTwnResync]

@[simp] theorem doResyncState_locks (p : Nat) (l : List (Nat × Nat × Nat)) (d : Dev) : (doResyncState p l d).locks = d.locks := by simp [doResyncState]

@[simp] theorem joinPort_locks (t : Tables) (tck : Tab TckPort) (p : Nat) (d : Dev) : (joinPort t tck p d).locks = d.locks := by (unfold joinPort; (repeat' split) <;> simp)

@[simp] theorem joinTables_locks (t : Tables) (sa : Tab SaStat) (lv : Tab SaLive) (ch : Tab ChanLive) (win : Tab Win) (d : Dev) : (joinTables t sa lv ch win d).locks = d.locks := by (unfold joinTables; rfl)

@[simp] theorem joinStops_locks (t : Tables) (d : Dev) : (joinStops t d).locks = d.locks := by (unfold joinStops; (try dsimp only); (repeat' split) <;> simp)

@[simp] theorem joinStarts_locks (old : Tables) (d : Dev) : (joinStarts old d).locks = d.locks := by
  unfold joinStarts
  refine each_locks _ _ _ (fun p x => ?_)
  split
  · rfl
  · rw [startSlot_locks]
    cases h : changeHold p (slotShare x.tab p).1 (slotShare x.tab p).2 true x with
    | none => rfl
    | some y => exact changeHold_locks h

@[simp] theorem joinActs_locks (acts : Tab (Bool × Bool)) (d : Dev) : (joinActs acts d).locks = d.locks := by simp [joinActs]

@[simp] theorem joinDone_locks (d : Dev) : (joinDone d).locks = d.locks := by (unfold joinDone; rfl)

@[simp] theorem joinState_locks (t : Tables) (live : Tab SaLive) (ch : Tab ChanLive) (win : Tab Win) (tck : Tab TckPort) (acts : Tab (Bool × Bool)) (d : Dev) : (joinState t live ch win tck acts d).locks = d.locks := by simp [joinState]

@[simp] theorem sendJoin_locks (d : Dev) : (sendJoin d).locks = d.locks := by simp [sendJoin]

@[simp] theorem doJoin_locks (t : Tables) (sas : JoinSas) (tck : Tab TckPort) (acts : Tab (Bool × Bool)) (d : Dev) : (doJoin t sas tck acts d).locks = d.locks := by simp [doJoin]

@[simp] theorem doHeartbeatSend_locks (d : Dev) : (doHeartbeatSend d).locks = d.locks := by simp [doHeartbeatSend]

@[simp] theorem splitLead_locks (d : Dev) : (splitLead d).locks = d.locks := by simp [splitLead]

@[simp] theorem rejoin_locks (d : Dev) : (rejoin d).locks = d.locks := by simp [rejoin]

@[simp] theorem doHeartbeat_locks (path serial role seq : Nat) (depart : Bool) (d : Dev) : (doHeartbeat path serial role seq depart d).locks = d.locks := by simp [doHeartbeat]

@[simp] theorem raiseAll_locks (d : Dev) : (raiseAll d).locks = d.locks := by simp [raiseAll]

@[simp] theorem doCoast_locks (d : Dev) : (doCoast d).locks = d.locks := by simp [doCoast]

@[simp] theorem doTakeover_locks (evidence : Bool) (d : Dev) : (doTakeover evidence d).locks = d.locks := by simp [doTakeover]

@[simp] theorem doLeaseLapse_locks (evidence : Bool) (d : Dev) : (doLeaseLapse evidence d).locks = d.locks := by simp [doLeaseLapse]

@[simp] theorem hbFrames_locks (role : Nat) (d : Dev) : (hbFrames role d).locks = d.locks := by simp [hbFrames]

@[simp] theorem doHbSend_locks (d : Dev) : (doHbSend d).locks = d.locks := by simp [doHbSend]

@[simp] theorem hbRoleSet_locks (active : Bool) (d : Dev) : (hbRoleSet active d).locks = d.locks := by simp [hbRoleSet]

@[simp] theorem hbTakeover_locks (d : Dev) : (hbTakeover d).locks = d.locks := by simp [hbTakeover]

@[simp] theorem doHbFrame_locks (b : Bytes) (d : Dev) : (doHbFrame b d).locks = d.locks := by simp [doHbFrame]

@[simp] theorem linkKeys_locks (j : Nat) (ck : Bytes) (d : Dev) : (linkKeys j ck d).locks = d.locks := by simp [linkKeys]

@[simp] theorem linkUp_locks (j : Nat) (ck : Bytes) (d : Dev) : (linkUp j ck d).locks = d.locks := by (unfold linkUp; (repeat' split) <;> simp)

@[simp] theorem hpRequest_locks (j : Nat) (d : Dev) : (hpRequest j d).locks = d.locks := by simp [hpRequest]

@[simp] theorem meshMessage_locks (p : Bytes) (d : Dev) : (meshMessage p d).locks = d.locks := by (unfold meshMessage; dsimp only; (repeat' split) <;> simp)

@[simp] theorem hpLose_locks (j : Nat) (d : Dev) : (hpLose j d).locks = d.locks := by simp [hpLose]

@[simp] theorem holpenFail_locks (j : Nat) (lossless : Bool) (d : Dev) : (holpenFail j lossless d).locks = d.locks := by simp [holpenFail]

@[simp] theorem hpAck_locks (j lack : Nat) (d : Dev) : (hpAck j lack d).locks = d.locks := by simp [hpAck]

@[simp] theorem hpResend_locks (j : Nat) (d : Dev) : (hpResend j d).locks = d.locks := by simp [hpResend]

@[simp] theorem refuseNeighbour_locks (j : Nat) (d : Dev) : (refuseNeighbour j d).locks = d.locks := by simp [refuseNeighbour]

@[simp] theorem nodeAddrWrite_locks (v : Nat) (d : Dev) : (nodeAddrWrite v d).locks = d.locks := by simp [nodeAddrWrite]

@[simp] theorem disarm_locks (r : Nat) (d : Dev) : (disarm r d).locks = d.locks := by simp [disarm]

@[simp] theorem modWrite_locks (r : Nat) (f : Dev → Dev) (d : Dev) (hf : ∀ x, (f x).locks = x.locks) : (modWrite r f d).locks = d.locks := by
  unfold modWrite; rw [hf]; simp

@[simp] theorem modWriteSup_locks (r off : Nat) (f : Dev → Dev) (d : Dev) (hf : ∀ x, (f x).locks = x.locks) : (modWriteSup r off f d).locks = d.locks := by
  unfold modWriteSup; split
  · exact taskStore_locks _ _ _
  · exact modWrite_locks _ _ _ hf

@[simp] theorem modRefuse_locks (t code r : Nat) (d : Dev) : (modRefuse t code r d).locks = d.locks := by simp [modRefuse]

@[simp] theorem pairReset_locks (d : Dev) : (pairReset d).locks = d.locks := by simp [pairReset]

@[simp] theorem modEnter_locks (t : Mode) (d : Dev) : (modEnter t d).locks = d.locks := by (unfold modEnter; (repeat' split) <;> simp)

@[simp] theorem swapStart_locks (rt mc r : Nat) (d : Dev) : (swapStart rt mc r d).locks = d.locks := by simp [swapStart]

@[simp] theorem modReq_locks (code rt mc r : Nat) (d : Dev) : (modReq code rt mc r d).locks = d.locks := by (unfold modReq; (repeat' split) <;> simp)

@[simp] theorem modReqWrite_locks (r v : Nat) (d : Dev) : (modReqWrite r v d).locks = d.locks := by simp [modReqWrite]

@[simp] theorem swapImage_locks (type sel : Nat) (cur : Option Image) (d : Dev) : (swapImage type sel cur d).2.locks = d.locks := by (unfold swapImage; (repeat' split) <;> simp)

@[simp] theorem swapCore_locks (c : Nat) (d : Dev) : (swapCore c d).locks = d.locks := by simp [swapCore]

@[simp] theorem swapFlt_locks (d : Dev) : (swapFlt d).locks = d.locks := by simp [swapFlt]

@[simp] theorem swapEnter_locks (rt mc : Image) (d : Dev) : (swapEnter rt mc d).locks = d.locks := by simp [swapEnter]

@[simp] theorem doSwapVerified_locks (d : Dev) : (doSwapVerified d).locks = d.locks := by (unfold doSwapVerified; dsimp only; (repeat' split) <;> simp)

@[simp] theorem restartLanes_locks (d : Dev) : (restartLanes d).locks = d.locks := by simp [restartLanes]

@[simp] theorem doSwapReload_locks (ok : Bool) (d : Dev) : (doSwapReload ok d).locks = d.locks := by (unfold doSwapReload; dsimp only; (repeat' split) <;> simp)

@[simp] theorem lcKeyWrite_locks (r v : Nat) (d : Dev) : (lcKeyWrite r v d).locks = d.locks := by simp [lcKeyWrite]

@[simp] theorem lcRefuse_locks (code : Nat) (d : Dev) : (lcRefuse code d).locks = d.locks := by simp [lcRefuse]

@[simp] theorem newNonce_locks (d : Dev) : (newNonce d).locks = d.locks := by simp [newNonce]

@[simp] theorem bistWrite_locks (r v : Nat) (d : Dev) : (bistWrite r v d).locks = d.locks := by (unfold bistWrite; rfl)

@[simp] theorem bistUnit_locks (cls unit : Nat) (d : Dev) : (bistUnit cls unit d).locks = d.locks := by (unfold bistUnit; (repeat' split) <;> simp)

@[simp] theorem svnRaise_locks (type svn cap : Nat) (d : Dev) : (svnRaise type svn cap d).locks = d.locks := by simp [svnRaise]

@[simp] theorem svnCommit_locks (r v : Nat) (d : Dev) : (svnCommit r v d).locks = d.locks := by
  unfold svnCommit
  refine modWrite_locks _ _ _ (fun x => ?_)
  extract_lets m a b
  have ha : a.locks = x.locks := by simp only [a]; split <;> simp
  have hb : b.locks = x.locks := by simp only [b]; clear_value a; split <;> simp [ha]
  clear_value b
  split
  · rfl
  · split <;> simp [hb]

@[simp] theorem mrExtWrite_locks (r v : Nat) (d : Dev) : (mrExtWrite r v d).locks = d.locks := by
  unfold mrExtWrite
  split
  · rfl
  · refine modWrite_locks _ _ _ (fun x => ?_)
    extract_lets i y
    have hy : y.2.locks = x.locks := engRead_locks ..
    clear_value y
    repeat' split
    all_goals simp [hy]

@[simp] theorem mrSelWrite_locks (r v : Nat) (d : Dev) : (mrSelWrite r v d).locks = d.locks := by (unfold mrSelWrite; rfl)

@[simp] theorem attWrite_locks (r v : Nat) (d : Dev) : (attWrite r v d).locks = d.locks := by
  unfold attWrite
  refine modWrite_locks _ _ _ (fun x => ?_)
  dsimp only
  repeat' split
  all_goals simp

@[simp] theorem attReport_locks (nonce : Bytes) (d : Dev) : (attReport nonce d).2.locks = d.locks := by (unfold attReport; (try dsimp only); (repeat' split) <;> simp)

@[simp] theorem doAttest_locks (d : Dev) : (doAttest d).locks = d.locks := by (unfold doAttest; dsimp only; (repeat' split) <;> simp)

@[simp] theorem statselWrite_locks (v : Nat) (d : Dev) : (statselWrite v d).locks = d.locks := by simp [statselWrite]

@[simp] theorem recselWrite_locks (v : Nat) (d : Dev) : (recselWrite v d).locks = d.locks := by simp [recselWrite]

@[simp] theorem chnselWrite_locks (v : Nat) (d : Dev) : (chnselWrite v d).locks = d.locks := by simp [chnselWrite]

@[simp] theorem slotselWrite_locks (v : Nat) (d : Dev) : (slotselWrite v d).locks = d.locks := by simp [slotselWrite]

@[simp] theorem regRead_locks (req off : Nat) (d : Dev) : (regRead req off d).2.locks = d.locks := by (unfold regRead; (repeat' split) <;> simp)

theorem keyGuards_locks (b : Sub) (l : List (Bool × Nat)) (f : Dev → Dev) (d : Dev) (hf : ∀ x, (f x).locks = x.locks) : (keyGuards b l f d).locks = d.locks := by
  unfold keyGuards
  induction l with
  | nil => exact hf d
  | cons a l ih => obtain ⟨c, st⟩ := a; unfold eguards; split <;> simp [ih]

@[simp] theorem doKeyGen_locks (b : Sub) (len dest usage keyId : Nat) (d : Dev) : (doKeyGen b len dest usage keyId d).locks = d.locks := by
  unfold doKeyGen; refine keyGuards_locks _ _ _ _ ?_; simp

@[simp] theorem doKeyTicket_locks (b : Sub) (slot : Nat) (fresh : Bool) (d : Dev) : (doKeyTicket b slot fresh d).locks = d.locks := by
  unfold doKeyTicket; refine keyGuards_locks _ _ _ _ ?_; simp

@[simp] theorem doKeyDerive_locks (b : Sub) (src func kind : Nat) (label : Bytes) (ctr : Nat) (ctx : Bytes) (len dest usage keyId : Nat) (fresh : Bool) (d : Dev) : (doKeyDerive b src func kind label ctr ctx len dest usage keyId fresh d).locks = d.locks := by
  unfold doKeyDerive; refine keyGuards_locks _ _ _ _ ?_; simp

@[simp] theorem doKeyCombine_locks (b : Sub) (slotA : Nat) (slotB : Option Nat) (hash : Bytes) (dest : Nat) (d : Dev) : (doKeyCombine b slotA slotB hash dest d).locks = d.locks := by
  unfold doKeyCombine; refine keyGuards_locks _ _ _ _ ?_; intros; split <;> simp

@[simp] theorem badBlob_locks (b : Sub) (fmt wrapSlot : Nat) (data : Bytes) (d : Dev) : (badBlob b fmt wrapSlot data d).locks = d.locks := by simp [badBlob]

@[simp] theorem doKeyUnwrap_locks (b : Sub) (fmt : Nat) (data : Bytes) (wrapSlot dest usage : Nat) (d : Dev) : (doKeyUnwrap b fmt data wrapSlot dest usage d).locks = d.locks := by
  unfold doKeyUnwrap; refine keyGuards_locks _ _ _ _ ?_; intros; dsimp only; (repeat' split) <;> simp

@[simp] theorem doKeyWrap_locks (b : Sub) (src wrapSlot fmt addr : Nat) (d : Dev) : (doKeyWrap b src wrapSlot fmt addr d).locks = d.locks := by
  unfold doKeyWrap; refine keyGuards_locks _ _ _ _ ?_; simp

@[simp] theorem doKeyClear_locks (b : Sub) (slot : Nat) (d : Dev) : (doKeyClear b slot d).locks = d.locks := by
  unfold doKeyClear; refine keyGuards_locks _ _ _ _ ?_; intros; split <;> simp

@[simp] theorem doTicketExpiry_locks (h : Nat) (d : Dev) : (doTicketExpiry h d).locks = d.locks := by (unfold doTicketExpiry; (repeat' split) <;> simp)

@[simp] theorem sceRefuse_locks (j : SceJob) (status last : Nat) (d : Dev) : (sceRefuse j status last d).locks = d.locks := by simp [sceRefuse]

@[simp] theorem doSceJob_locks (b : Sub) (job : Bytes) (d : Dev) : (doSceJob b job d).locks = d.locks := by simp [doSceJob]

@[simp] theorem sceEnd_locks (j : SceJob) (st last : Nat) (d : Dev) : (sceEnd j st last d).locks = d.locks := by simp [sceEnd]

@[simp] theorem sceMemFault_locks (j : SceJob) (d : Dev) : (sceMemFault j d).locks = d.locks := by simp [sceMemFault]

@[simp] theorem sceRead_locks (j : SceJob) (addr n : Nat) (d : Dev) : (sceRead j addr n d).2.locks = d.locks := by (unfold sceRead; (repeat' split) <;> simp)

@[simp] theorem doSceComplete_locks (d : Dev) : (doSceComplete d).locks = d.locks := by (unfold doSceComplete; dsimp only; (repeat' split) <;> simp)

@[simp] theorem sceClaim_locks (r : Nat) (d : Dev) : (sceClaim r d).locks = d.locks := by simp [sceClaim]

@[simp] theorem sceReleaseBy_locks (r : Nat) (d : Dev) : (sceReleaseBy r d).locks = d.locks := by simp [sceReleaseBy]

@[simp] theorem sceForceBy_locks (r : Nat) (d : Dev) : (sceForceBy r d).locks = d.locks := by simp [sceForceBy]

@[simp] theorem sceLockWrite_locks (r v : Nat) (d : Dev) : (sceLockWrite r v d).locks = d.locks := by simp [sceLockWrite]

@[simp] theorem msixWrite_locks (i v : Nat) (d : Dev) : (msixWrite i v d).locks = d.locks := by simp [msixWrite]

@[simp] theorem writeHif_locks (o v : Nat) (d : Dev) : (writeHif o v d).locks = d.locks := by (unfold writeHif; (repeat' split) <;> simp)

@[simp] theorem writeEvr_locks (req o v : Nat) (d : Dev) : (writeEvr req o v d).locks = d.locks := by (unfold writeEvr; (repeat' split) <;> simp)

@[simp] theorem writePrf_locks (o v : Nat) (d : Dev) : (writePrf o v d).locks = d.locks := by simp [writePrf]

@[simp] theorem writeTmp_locks (o v : Nat) (d : Dev) : (writeTmp o v d).locks = d.locks := by (unfold writeTmp; dsimp only; (repeat' split) <;> simp)

@[simp] theorem writeFls_locks (o v : Nat) (d : Dev) : (writeFls o v d).locks = d.locks := by (unfold writeFls; (repeat' split) <;> simp)

@[simp] theorem writeLane_locks (l r v : Nat) (d : Dev) : (writeLane l r v d).locks = d.locks := by (unfold writeLane; (repeat' split) <;> simp)

@[simp] theorem writePrt_locks (n r v : Nat) (d : Dev) : (writePrt n r v d).locks = d.locks := by (unfold writePrt; (repeat' split) <;> simp)

@[simp] theorem writeSlt_locks (p r v : Nat) (d : Dev) : (writeSlt p r v d).locks = d.locks := by (unfold writeSlt; (repeat' split) <;> simp)

@[simp] theorem writePm_locks (r v : Nat) (d : Dev) : (writePm r v d).locks = d.locks := by (unfold writePm; (repeat' split) <;> simp)

@[simp] theorem writeStn_locks (o v : Nat) (d : Dev) : (writeStn o v d).locks = d.locks := by (unfold writeStn; (repeat' split) <;> simp)

@[simp] theorem twnCfgWrite_locks (v : Nat) (d : Dev) : (twnCfgWrite v d).locks = d.locks := by simp [twnCfgWrite]

@[simp] theorem writeTwn_locks (o v : Nat) (d : Dev) : (writeTwn o v d).locks = d.locks := by
  unfold writeTwn
  extract_lets t
  clear_value t
  split
  · exact twnCfgWrite_locks ..
  · rw [Dev.locks_ite, Dev.locks_twn, ite_self]
  · rw [Dev.locks_ite, Dev.locks_twn, ite_self]
  · exact nodeAddrWrite_locks ..
  · exact (hpFollow_locks ..).trans (Dev.locks_twn ..)
  · exact Dev.locks_twn ..
  · exact Dev.locks_twn ..
  · rfl

@[simp] theorem writeKey_locks (o v : Nat) (d : Dev) : (writeKey o v d).locks = d.locks := by (unfold writeKey; (repeat' split) <;> simp)

@[simp] theorem writeBpm_locks (o v : Nat) (d : Dev) : (writeBpm o v d).locks = d.locks := by (unfold writeBpm; (repeat' split) <;> simp)

@[simp] theorem latQueue_locks (c : LatCmd) (d : Dev) : (latQueue c d).locks = d.locks := by
  unfold latQueue; refine eguards_locks _ _ _ _ _ ?_; simp

@[simp] theorem latOut_locks (c : LatCmd) (addr : Nat) (out : Bytes) (f : Dev → Dev) (d : Dev) (hf : ∀ x, (f x).locks = x.locks) : (latOut c addr out f d).locks = d.locks := by (unfold latOut; (repeat' split) <;> simp_all)

@[simp] theorem putSecret_locks (kek : Nat) (ss : Bytes) (d : Dev) : (putSecret kek ss d).locks = d.locks := by simp [putSecret]

@[simp] theorem putPrivate_locks (lpk type : Nat) (key : Bytes) (d : Dev) : (putPrivate lpk type key d).locks = d.locks := by simp [putPrivate]

@[simp] theorem latKemGen_locks (c : LatCmd) (d : Dev) : (latKemGen c d).locks = d.locks := by
  unfold latKemGen; refine eguards_locks _ _ _ _ _ ?_; simp

@[simp] theorem latEncap_locks (c : LatCmd) (d : Dev) : (latEncap c d).locks = d.locks := by
  unfold latEncap; refine eguards_locks _ _ _ _ _ ?_; simp

@[simp] theorem latSpend_locks (c : LatCmd) (d : Dev) : (latSpend c d).locks = d.locks := by simp [latSpend]

@[simp] theorem latDecap_locks (c : LatCmd) (d : Dev) : (latDecap c d).locks = d.locks := by
  unfold latDecap; refine eguards_locks _ _ _ _ _ ?_; simp

@[simp] theorem latSign_locks (c : LatCmd) (d : Dev) : (latSign c d).locks = d.locks := by
  unfold latSign; refine eguards_locks _ _ _ _ _ ?_; simp

@[simp] theorem latVerify_locks (c : LatCmd) (d : Dev) : (latVerify c d).locks = d.locks := by
  unfold latVerify; refine eguards_locks _ _ _ _ _ ?_; simp

@[simp] theorem latPub_locks (c : LatCmd) (d : Dev) : (latPub c d).locks = d.locks := by
  unfold latPub; refine eguards_locks _ _ _ _ _ ?_; simp

@[simp] theorem latEcGen_locks (c : LatCmd) (d : Dev) : (latEcGen c d).locks = d.locks := by
  unfold latEcGen; refine eguards_locks _ _ _ _ _ ?_; simp

@[simp] theorem latEcdh_locks (c : LatCmd) (d : Dev) : (latEcdh c d).locks = d.locks := by
  unfold latEcdh; refine eguards_locks _ _ _ _ _ ?_; simp

@[simp] theorem latHash_locks (c : LatCmd) (d : Dev) : (latHash c d).locks = d.locks :=
  eguards_locks _ _ _ _ _ (fun x => latOut_locks _ _ _ _ _ (fun _ => rfl))

@[simp] theorem latRun_locks (c : LatCmd) (d : Dev) : (latRun c d).locks = d.locks := by (unfold latRun; (repeat' split) <;> simp)

@[simp] theorem latStart_locks (i : Nat) (d : Dev) : (latStart i d).locks = d.locks := by
  unfold latStart; dsimp only; (repeat' split) <;> simp

@[simp] theorem latStartTo_locks (n : Nat) (d : Dev) : (latStartTo n d).locks = d.locks := by simp [latStartTo]

@[simp] theorem doLatComplete_locks (n : Nat) (d : Dev) : (doLatComplete n d).locks = d.locks := by
  unfold doLatComplete; dsimp only; (repeat' split) <;> simp

@[simp] theorem applyGated_locks (e : GateEnt) (d : Dev) : (applyGated e d).locks = d.locks := by (unfold applyGated; dsimp only; (repeat' split) <;> simp)

@[simp] theorem doGateSubmit_locks (b : Sub) (x : Desc) (d : Dev) : (doGateSubmit b x d).locks = d.locks := by simp [doGateSubmit]

@[simp] theorem applyEntry_locks (r : TackRec) (e : RecEnt) (d : Dev) : (applyEntry r e d).locks = d.locks := by (unfold applyEntry; (repeat' split) <;> simp)

@[simp] theorem enrolTack_locks (d : Dev) : (enrolTack d).locks = d.locks := by simp [enrolTack]

@[simp] theorem Dev.setTack_locks (d : Dev) (tno rseq : Nat) : (Dev.setTack d tno rseq).locks = d.locks := by simp [Dev.setTack]

@[simp] theorem stopTacks_locks (d : Dev) : (stopTacks d).locks = d.locks := by simp [stopTacks]

@[simp] theorem settleEnabled_locks (d : Dev) : (settleEnabled d).locks = d.locks := by simp [settleEnabled]

@[simp] theorem applyRec_locks (r : TackRec) (d : Dev) : (applyRec r d).locks = d.locks := by (unfold applyRec; (repeat' split) <;> simp)

@[simp] theorem doRecordApply_locks (d : Dev) : (doRecordApply d).locks = d.locks := by (unfold doRecordApply; (repeat' split) <;> simp)

@[simp] theorem formRec_locks (kind : Nat) (entries : List RecEnt) (cmds : List GateEnt) (d : Dev) : (formRec kind entries cmds d).locks = d.locks := by simp [formRec]

@[simp] theorem doTackForm_locks (d : Dev) : (doTackForm d).locks = d.locks := by simp [doTackForm]

@[simp] theorem doBeatForm_locks (d : Dev) : (doBeatForm d).locks = d.locks := by simp [doBeatForm]

@[simp] theorem trySeal_locks (p : Nat) (d : Dev) : (trySeal p d).locks = d.locks := by (unfold trySeal; dsimp only; (repeat' split) <;> simp)

@[simp] theorem doFreezeReport_locks (p z : Nat) (own : Bool) (d : Dev) : (doFreezeReport p z own d).locks = d.locks := by simp [doFreezeReport]

@[simp] theorem doWakeSend_locks (p : Nat) (d : Dev) : (doWakeSend p d).locks = d.locks := by simp [doWakeSend]

@[simp] theorem updPkx_locks (n : Nat) (f : PkxSession → PkxSession) (d : Dev) : (updPkx n f d).locks = d.locks := by simp [updPkx]

@[simp] theorem pkxSend_locks (p code session : Nat) (body : Bytes) (d : Dev) : (pkxSend p code session body d).locks = d.locks := by simp [pkxSend]

@[simp] theorem pickKek_locks (d : Dev) : (pickKek d).2.locks = d.locks := by simp [pickKek]

@[simp] theorem putMsgKey_locks (key : Bytes) (d : Dev) : (putMsgKey key d).2.locks = d.locks := by (unfold putMsgKey; dsimp only; (repeat' split) <;> simp)

@[simp] theorem pkxClear_locks (n : Nat) (d : Dev) : (pkxClear n d).locks = d.locks := by (unfold pkxClear; dsimp only; (repeat' split) <;> simp)

@[simp] theorem pkxFail_locks (n reason : Nat) (d : Dev) : (pkxFail n reason d).locks = d.locks := by simp [pkxFail]

theorem pkxKeys_locks {n : Nat} {ssKem ssEc th : Bytes} {d d' : Dev} (h : pkxKeys n ssKem ssEc th d = some d') : d'.locks = d.locks := by
  unfold pkxKeys at h; dsimp only at h
  split at h
  · cases h
  · split at h
    · cases h; simp
    · cases h

@[simp] theorem pkxSay_locks (n code : Nat) (body : Bytes) (d : Dev) : (pkxSay n code body d).locks = d.locks := by simp [pkxSay]

@[simp] theorem pkxStart_locks (n : Nat) (d : Dev) : (pkxStart n d).locks = d.locks := by
  unfold pkxStart; dsimp only; (repeat' split) <;> simp

@[simp] theorem pkxAbort_locks (p session reason : Nat) (d : Dev) : (pkxAbort p session reason d).locks = d.locks := by simp [pkxAbort]

@[simp] theorem pkxAnswer_locks (p session : Nat) (x : PkxBody) (body : Bytes) (peer : PkxPeer) (d : Dev) : (pkxAnswer p session x body peer d).locks = d.locks := by
  unfold pkxAnswer
  extract_lets groups old n m c no rnd a u th b
  have ha : a.locks = d.locks := by simp [a, rnd, no, c, m]
  have hb : b.locks = d.locks := by simp only [b]; clear_value a; simp [ha]
  clear_value b a
  split
  · simp
  · split
    · simp
    · split
      · simp [ha]
      · rename_i y h
        extract_lets reply
        rw [pkxSay_locks, updPkx_locks]
        exact (pkxKeys_locks h).trans hb

@[simp] theorem pkxHelloIn_locks (p session : Nat) (body : Bytes) (d : Dev) : (pkxHelloIn p session body d).locks = d.locks := by (unfold pkxHelloIn; (repeat' split) <;> simp)

@[simp] theorem pkxNote_locks (n code : Nat) (plain : Bytes) (d : Dev) : (pkxNote n code plain d).locks = d.locks := by simp [pkxNote]

@[simp] theorem osfGate_locks (tag code p0 p1 p2 p3 : Nat) (d : Dev) : (osfGate tag code p0 p1 p2 p3 d).locks = d.locks := by simp [osfGate]

theorem osfCommit_locks (gate : Nat → Nat → Nat → Nat → Nat → Nat → Dev → Dev) (hg : ∀ t c p q r s x, (gate t c p q r s x).locks = x.locks)
    (tag slot buf chid an dir : Nat) (win : Bool) (d : Dev) : (osfCommit gate tag slot buf chid an dir win d).locks = d.locks := by
  unfold osfCommit; dsimp only; (repeat' split) <;> simp [hg]

@[simp] theorem osfForShadow_locks (p : Bytes) (d : Dev) : (osfForShadow p d).locks = d.locks := by
  unfold osfForShadow; dsimp only
  repeat' split
  all_goals first | rfl | simp | exact osfCommit_locks _ (by simp) ..

theorem osfInstall_locks {of_ : Option Nat × Nat × Nat} {chid an suite ssci pn dir : Nat} {salt key : Bytes} {d d' : Dev} (h : osfInstall of_ chid an suite ssci pn dir salt key d = some d') : d'.locks = d.locks := by
  unfold osfInstall at h
  dsimp only at h
  split at h
  · cases h
    repeat' split
    all_goals first | exact (osfCommit_locks _ (by simp) ..).trans (by simp) | simp
  · cases h

@[simp] theorem pkxStartSa_locks (n : Nat) (g : Nat × Nat) (d : Dev) : (pkxStartSa n g d).locks = d.locks := by
  unfold pkxStartSa
  dsimp only
  split
  · rename_i tc _ _ _ _
    generalize (if (getPkx n d).initiator then 0 else 1) = dir
    generalize (if (d.tab.getChn tc).kind = 0 then 1 else 0) = pn
    split
    · exact freeNat_locks d
    · rename_i y h
      rw [pkxNote_locks, updPkx_locks]
      exact (osfInstall_locks h).trans (by simp)
  · rfl

@[simp] theorem pkxEstablish_locks (n : Nat) (d : Dev) : (pkxEstablish n d).locks = d.locks := by (unfold pkxEstablish; dsimp only; (repeat' split) <;> simp)

@[simp] theorem pkxAck_locks (n g k st : Nat) (d : Dev) : (pkxAck n g k st d).locks = d.locks := by simp [pkxAck]

@[simp] theorem pkxKeynoteIn_locks (n : Nat) (body : Bytes) (d : Dev) : (pkxKeynoteIn n body d).locks = d.locks := by
  unfold pkxKeynoteIn
  dsimp only
  split
  · split
    · split
      · simp
      · split
        · simp
        · rename_i y h
          exact (osfInstall_locks h).trans (by simp)
    · simp
  · simp

@[simp] theorem pkxKeyackIn_locks (n : Nat) (body : Bytes) (d : Dev) : (pkxKeyackIn n body d).locks = d.locks := by (unfold pkxKeyackIn; dsimp only; (repeat' split) <;> simp)

@[simp] theorem clearEc_locks (e : Option Nat) (d : Dev) : (clearEc e d).locks = d.locks := by (unfold clearEc; (repeat' split) <;> simp)

@[simp] theorem pkxConfirm_locks (n : Nat) (ss se th : Bytes) (d : Dev) : (pkxConfirm n ss se th d).locks = d.locks := by
  unfold pkxConfirm
  split
  · simp
  · rename_i y h
    rw [pkxSay_locks, updPkx_locks]
    exact pkxKeys_locks h

@[simp] theorem pkxReplyIn_locks (n : Nat) (body : Bytes) (d : Dev) : (pkxReplyIn n body d).locks = d.locks := by (unfold pkxReplyIn; dsimp only; (repeat' split) <;> simp)

@[simp] theorem pkxConfirmIn_locks (n : Nat) (body : Bytes) (d : Dev) : (pkxConfirmIn n body d).locks = d.locks := by simp [pkxConfirmIn]

@[simp] theorem pkxFinishIn_locks (n : Nat) (body : Bytes) (d : Dev) : (pkxFinishIn n body d).locks = d.locks := by simp [pkxFinishIn]

@[simp] theorem pkxAbortIn_locks (p session : Nat) (body : Bytes) (d : Dev) : (pkxAbortIn p session body d).locks = d.locks := by (unfold pkxAbortIn; (repeat' split) <;> simp)

@[simp] theorem pkxMessage_locks (p code session : Nat) (body : Bytes) (d : Dev) : (pkxMessage p code session body d).locks = d.locks := by (unfold pkxMessage; (repeat' split) <;> simp)

@[simp] theorem pkxFragment_locks (p code : Nat) (hdr body : Bytes) (d : Dev) : (pkxFragment p code hdr body d).locks = d.locks := by (unfold pkxFragment; dsimp only; (repeat' split) <;> simp)

@[simp] theorem doTRetx_locks (n : Nat) (d : Dev) : (doTRetx n d).locks = d.locks := by simp [doTRetx]

@[simp] theorem doTSession_locks (n : Nat) (d : Dev) : (doTSession n d).locks = d.locks := by (unfold doTSession; (repeat' split) <;> simp)

@[simp] theorem doTCk_locks (n : Nat) (d : Dev) : (doTCk n d).locks = d.locks := by simp [doTCk]

@[simp] theorem osfEnd_locks (s : OsfSa) (d : Dev) : (osfEnd s d).locks = d.locks := by simp [osfEnd]

@[simp] theorem doTOverlap_locks (n : Nat) (d : Dev) : (doTOverlap n d).locks = d.locks := by simp [doTOverlap]

@[simp] theorem doTBackoff_locks (n : Nat) (d : Dev) : (doTBackoff n d).locks = d.locks := by simp [doTBackoff]

@[simp] theorem osfDone_locks (x : Nat × Nat) (d : Dev) : (osfDone x d).locks = d.locks := by (unfold osfDone; (repeat' split) <;> simp)

@[simp] theorem osfFirst_locks (d : Dev) : (osfFirst d).locks = d.locks := by simp [osfFirst]

@[simp] theorem osfRetire_locks (d : Dev) : (osfRetire d).locks = d.locks := by simp [osfRetire]

@[simp] theorem pkxBegin_locks (n : Nat) (d : Dev) : (pkxBegin n d).locks = d.locks := by (unfold pkxBegin; (try dsimp only); (repeat' split) <;> simp)

@[simp] theorem osfWatch_locks (d : Dev) : (osfWatch d).locks = d.locks := by
  unfold osfWatch
  split
  · rfl
  · refine each_locks _ _ _ (fun s x => ?_)
    split
    · split <;> simp
    · rfl

@[simp] theorem osfTick_locks (d : Dev) : (osfTick d).locks = d.locks := by simp [osfTick]

@[simp] theorem takeOffer_locks (p : Bytes) (d : Dev) : (takeOffer p d).locks = d.locks := by
  unfold takeOffer; dsimp only; (repeat' split) <;> simp

@[simp] theorem takeChans_locks (n : Nat) (l : List (Nat × Nat × Nat)) (d : Dev) : (takeChans n l d).locks = d.locks := by (unfold takeChans; (try dsimp only); (repeat' split) <;> simp)

@[simp] theorem takeJoin_locks (b : Bytes) (d : Dev) : (takeJoin b d).locks = d.locks := by (unfold takeJoin; (try dsimp only); (repeat' split) <;> simp)

@[simp] theorem takeResync_locks (p : Bytes) (d : Dev) : (takeResync p d).locks = d.locks := by (unfold takeResync; (repeat' split) <;> simp)

@[simp] theorem takeTwin_locks (path type eseq : Nat) (p : Bytes) (d : Dev) : (takeTwin path type eseq p d).locks = d.locks := by (unfold takeTwin; (repeat' split) <;> simp)

@[simp] theorem takeForOsf_locks (p : Bytes) (d : Dev) : (takeForOsf p d).locks = d.locks := by simp [takeForOsf]

@[simp] theorem takeMbox_locks (p : Bytes) (d : Dev) : (takeMbox p d).locks = d.locks := by simp [takeMbox]

@[simp] theorem takeAttest_locks (src : Nat) (p : Bytes) (d : Dev) : (takeAttest src p d).locks = d.locks := by (unfold takeAttest; (try dsimp only); (repeat' split) <;> simp)

@[simp] theorem holpenConsume_locks (j type src eseq : Nat) (p : Bytes) (d : Dev) : (holpenConsume j type src eseq p d).locks = d.locks := by (unfold holpenConsume; (repeat' split) <;> simp)

@[simp] theorem linkStart_locks (j : Nat) (d : Dev) : (linkStart j d).locks = d.locks := by simp [linkStart]

@[simp] theorem doLinkhello_locks (j majors minor nbr serial : Nat) (d : Dev) : (doLinkhello j majors minor nbr serial d).locks = d.locks := by simp [doLinkhello]

@[simp] theorem linkPart_locks (j : Nat) (p : Bytes) (d : Dev) : (linkPart j p d).locks = d.locks := by simp [linkPart]

@[simp] theorem helloFrame_locks (j : Nat) (p : Bytes) (d : Dev) : (helloFrame j p d).locks = d.locks := by simp [helloFrame]

@[simp] theorem doLinkRekey_locks (j : Nat) (d : Dev) : (doLinkRekey j d).locks = d.locks := by (unfold doLinkRekey; (repeat' split) <;> simp)

@[simp] theorem writeRing_locks (q r v : Nat) (d : Dev) : (writeRing q r v d).locks = d.locks := by (unfold writeRing; (repeat' split) <;> simp)

@[simp] theorem writeInj_locks (q r v : Nat) (d : Dev) : (writeInj q r v d).locks = d.locks := by (unfold writeInj; (repeat' split) <;> simp)

@[simp] theorem freeBufs_locks (n : Nat) (d : Dev) : (freeBufs n d).2.locks = d.locks := by
  induction n generalizing d with
  | zero => rfl
  | succ n ih => unfold freeBufs; simp [ih]

@[simp] theorem writeExt_locks (q r v : Nat) (d : Dev) : (writeExt q r v d).locks = d.locks := by (unfold writeExt; (repeat' split) <;> simp)

@[simp] theorem writeHmb_locks (r v : Nat) (d : Dev) : (writeHmb r v d).locks = d.locks := by (unfold writeHmb; (repeat' split) <;> simp)

@[simp] theorem writePage_locks (b v : Nat) (d : Dev) : (writePage b v d).locks = d.locks := by simp [writePage]

@[simp] theorem apertureErr_locks (req : Nat) (a : Acc) (d : Dev) : (apertureErr req a d).locks = d.locks := by simp [apertureErr]

@[simp] theorem apertureRead_locks (req a n : Nat) (d : Dev) : (apertureRead req a n d).2.locks = d.locks := by (unfold apertureRead; (repeat' split) <;> simp)

@[simp] theorem apertureWrite_locks (req a n v : Nat) (d : Dev) : (apertureWrite req a n v d).locks = d.locks := by (unfold apertureWrite; (repeat' split) <;> simp)

@[simp] theorem barRead_locks (req : Nat) (a : Access) (d : Dev) : (barRead req a d).2.locks = d.locks := by (unfold barRead; (try dsimp only); (repeat' split) <;> simp)

@[simp] theorem pageWord_locks (req off : Nat) (d : Dev) : (pageWord req off d).2.locks = d.locks := by (unfold pageWord; (try dsimp only); (repeat' split) <;> simp)

@[simp] theorem pagesRead_locks (req : Nat) (a : Access) (d : Dev) : (pagesRead req a d).2.locks = d.locks := by
  unfold pagesRead
  dsimp only
  generalize ([] : Bytes) = b
  generalize pageWords a = l
  induction l generalizing b d with
  | nil => rfl
  | cons o l ih => rw [List.foldl_cons, ih]; exact pageWord_locks ..

@[simp] theorem windowExc_locks (req off cause : Nat) (d : Dev) : (windowExc req off cause d).locks = d.locks := by
  unfold windowExc; dsimp only; split <;> simp

@[simp] theorem busRead_locks (req : Nat) (off : Access) (d : Dev) : (busRead req off d).2.locks = d.locks := by (unfold busRead; (repeat' split) <;> simp)

@[simp] theorem doRegisterRead_locks (req : Nat) (off : Access) (d : Dev) : (doRegisterRead req off d).locks = d.locks := by
  unfold doRegisterRead; dsimp only; split <;> simp

end Sys2Proof.Machine
end

