-- ==== Sys2Proof/Laws/LocksCores.lean ====
section
/-! SUPPORT. What the operations of the Glonik cores, descriptors and the tick do to the locked configuration (Dev.locks): nothing. -/

namespace Sys2Proof.Machine

@[simp] theorem jumpTo_locks (c : Nat) (t : DWord) (d : Dev) : (jumpTo c t d).locks = d.locks := by simp [jumpTo]

@[simp] theorem finish_locks (c : Nat) (e : Ending) (d : Dev) : (finish c e d).locks = d.locks := by (unfold finish; (repeat' split) <;> simp)

theorem coreRun_locks (c w : Nat) (body : Dev → Ending × Dev) (d : Dev) (hf : ∀ x, (body x).2.locks = x.locks) : (coreRun c w body d).locks = d.locks := by
  unfold coreRun; dsimp only; repeat' split
  all_goals simp [hf]

@[simp] theorem regOp_locks (c w rd : Nat) (f : Core → DWord) (d : Dev) : (regOp c w rd f d).locks = d.locks := by
  unfold regOp; refine coreRun_locks _ _ _ _ ?_; simp

@[simp] theorem coreLoad_locks (c addr n : Nat) (d : Dev) : (coreLoad c addr n d).2.locks = d.locks := by (unfold coreLoad; (repeat' split) <;> simp)

@[simp] theorem sramWrite_locks (c addr : Nat) (b : Bytes) (d : Dev) : (sramWrite c addr b d).locks = d.locks := by simp [sramWrite]

@[simp] theorem sharedWrite_locks (off : Nat) (b : Bytes) (d : Dev) : (sharedWrite off b d).locks = d.locks := by simp [sharedWrite]

@[simp] theorem aluOp_locks (func : Nat) (f : DWord → DWord → DWord) (c rd ra rb : Nat) (d : Dev) : (aluOp func f c rd ra rb d).locks = d.locks := by simp [aluOp]

@[simp] theorem aluOne_locks (func : Nat) (f : DWord → DWord) (c rd ra : Nat) (d : Dev) : (aluOne func f c rd ra d).locks = d.locks := by simp [aluOne]

@[simp] theorem immOp_locks (op : Nat) (f : DWord → DWord) (c rd ra imm : Nat) (d : Dev) : (immOp op f c rd ra imm d).locks = d.locks := by simp [immOp]

@[simp] theorem doAdd_locks (c rd ra rb : Nat) (d : Dev) : (doAdd c rd ra rb d).locks = d.locks := by simp [doAdd]

@[simp] theorem doSub_locks (c rd ra rb : Nat) (d : Dev) : (doSub c rd ra rb d).locks = d.locks := by simp [doSub]

@[simp] theorem doAnd_locks (c rd ra rb : Nat) (d : Dev) : (doAnd c rd ra rb d).locks = d.locks := by simp [doAnd]

@[simp] theorem doOr_locks (c rd ra rb : Nat) (d : Dev) : (doOr c rd ra rb d).locks = d.locks := by simp [doOr]

@[simp] theorem doXor_locks (c rd ra rb : Nat) (d : Dev) : (doXor c rd ra rb d).locks = d.locks := by simp [doXor]

@[simp] theorem doSll_locks (c rd ra rb : Nat) (d : Dev) : (doSll c rd ra rb d).locks = d.locks := by simp [doSll]

@[simp] theorem doSrl_locks (c rd ra rb : Nat) (d : Dev) : (doSrl c rd ra rb d).locks = d.locks := by simp [doSrl]

@[simp] theorem doSra_locks (c rd ra rb : Nat) (d : Dev) : (doSra c rd ra rb d).locks = d.locks := by simp [doSra]

@[simp] theorem doSlt_locks (c rd ra rb : Nat) (d : Dev) : (doSlt c rd ra rb d).locks = d.locks := by simp [doSlt]

@[simp] theorem doSltu_locks (c rd ra rb : Nat) (d : Dev) : (doSltu c rd ra rb d).locks = d.locks := by simp [doSltu]

@[simp] theorem doMul_locks (c rd ra rb : Nat) (d : Dev) : (doMul c rd ra rb d).locks = d.locks := by simp [doMul]

@[simp] theorem doMulh_locks (c rd ra rb : Nat) (d : Dev) : (doMulh c rd ra rb d).locks = d.locks := by simp [doMulh]

@[simp] theorem doMulhu_locks (c rd ra rb : Nat) (d : Dev) : (doMulhu c rd ra rb d).locks = d.locks := by simp [doMulhu]

@[simp] theorem doDiv_locks (c rd ra rb : Nat) (d : Dev) : (doDiv c rd ra rb d).locks = d.locks := by simp [doDiv]

@[simp] theorem doDivu_locks (c rd ra rb : Nat) (d : Dev) : (doDivu c rd ra rb d).locks = d.locks := by simp [doDivu]

@[simp] theorem doRem_locks (c rd ra rb : Nat) (d : Dev) : (doRem c rd ra rb d).locks = d.locks := by simp [doRem]

@[simp] theorem doRemu_locks (c rd ra rb : Nat) (d : Dev) : (doRemu c rd ra rb d).locks = d.locks := by simp [doRemu]

@[simp] theorem doMin_locks (c rd ra rb : Nat) (d : Dev) : (doMin c rd ra rb d).locks = d.locks := by simp [doMin]

@[simp] theorem doMax_locks (c rd ra rb : Nat) (d : Dev) : (doMax c rd ra rb d).locks = d.locks := by simp [doMax]

@[simp] theorem doMinu_locks (c rd ra rb : Nat) (d : Dev) : (doMinu c rd ra rb d).locks = d.locks := by simp [doMinu]

@[simp] theorem doMaxu_locks (c rd ra rb : Nat) (d : Dev) : (doMaxu c rd ra rb d).locks = d.locks := by simp [doMaxu]

@[simp] theorem doClz_locks (c rd ra : Nat) (d : Dev) : (doClz c rd ra d).locks = d.locks := by simp [doClz]

@[simp] theorem doPopc_locks (c rd ra : Nat) (d : Dev) : (doPopc c rd ra d).locks = d.locks := by simp [doPopc]

@[simp] theorem doBswap_locks (c rd ra : Nat) (d : Dev) : (doBswap c rd ra d).locks = d.locks := by simp [doBswap]

@[simp] theorem doAddi_locks (c rd ra imm : Nat) (d : Dev) : (doAddi c rd ra imm d).locks = d.locks := by simp [doAddi]

@[simp] theorem doAndi_locks (c rd ra imm : Nat) (d : Dev) : (doAndi c rd ra imm d).locks = d.locks := by simp [doAndi]

@[simp] theorem doOri_locks (c rd ra imm : Nat) (d : Dev) : (doOri c rd ra imm d).locks = d.locks := by simp [doOri]

@[simp] theorem doXori_locks (c rd ra imm : Nat) (d : Dev) : (doXori c rd ra imm d).locks = d.locks := by simp [doXori]

@[simp] theorem doSlti_locks (c rd ra imm : Nat) (d : Dev) : (doSlti c rd ra imm d).locks = d.locks := by simp [doSlti]

@[simp] theorem doSltiu_locks (c rd ra imm : Nat) (d : Dev) : (doSltiu c rd ra imm d).locks = d.locks := by simp [doSltiu]

@[simp] theorem doHins1_locks (c rd ra imm : Nat) (d : Dev) : (doHins1 c rd ra imm d).locks = d.locks := by simp [doHins1]

@[simp] theorem doHins2_locks (c rd ra imm : Nat) (d : Dev) : (doHins2 c rd ra imm d).locks = d.locks := by simp [doHins2]

@[simp] theorem doHins3_locks (c rd ra imm : Nat) (d : Dev) : (doHins3 c rd ra imm d).locks = d.locks := by simp [doHins3]

@[simp] theorem doSlli_locks (c rd ra sh : Nat) (d : Dev) : (doSlli c rd ra sh d).locks = d.locks := by simp [doSlli]

@[simp] theorem doSrli_locks (c rd ra sh : Nat) (d : Dev) : (doSrli c rd ra sh d).locks = d.locks := by simp [doSrli]

@[simp] theorem doSrai_locks (c rd ra sh : Nat) (d : Dev) : (doSrai c rd ra sh d).locks = d.locks := by simp [doSrai]

@[simp] theorem doLui_locks (c rd imm : Nat) (d : Dev) : (doLui c rd imm d).locks = d.locks := by simp [doLui]

@[simp] theorem branchOp_locks (op : Nat) (f : DWord → DWord → Bool) (c ra rb disp : Nat) (d : Dev) : (branchOp op f c ra rb disp d).locks = d.locks := by
  unfold branchOp; refine coreRun_locks _ _ _ _ ?_; intros; dsimp only; (repeat' split) <;> simp

@[simp] theorem doBeq_locks (c ra rb disp : Nat) (d : Dev) : (doBeq c ra rb disp d).locks = d.locks := by simp [doBeq]

@[simp] theorem doBne_locks (c ra rb disp : Nat) (d : Dev) : (doBne c ra rb disp d).locks = d.locks := by simp [doBne]

@[simp] theorem doBlt_locks (c ra rb disp : Nat) (d : Dev) : (doBlt c ra rb disp d).locks = d.locks := by simp [doBlt]

@[simp] theorem doBge_locks (c ra rb disp : Nat) (d : Dev) : (doBge c ra rb disp d).locks = d.locks := by simp [doBge]

@[simp] theorem doBltu_locks (c ra rb disp : Nat) (d : Dev) : (doBltu c ra rb disp d).locks = d.locks := by simp [doBltu]

@[simp] theorem doBgeu_locks (c ra rb disp : Nat) (d : Dev) : (doBgeu c ra rb disp d).locks = d.locks := by simp [doBgeu]

@[simp] theorem doJal_locks (c disp : Nat) (d : Dev) : (doJal c disp d).locks = d.locks := by
  unfold doJal; refine coreRun_locks _ _ _ _ ?_; simp

@[simp] theorem doJalr_locks (c rd ra imm : Nat) (d : Dev) : (doJalr c rd ra imm d).locks = d.locks := by
  unfold doJalr; refine coreRun_locks _ _ _ _ ?_; simp

@[simp] theorem drawJitter_locks (c : Nat) (d : Dev) : (drawJitter c d).locks = d.locks := by simp [drawJitter]

@[simp] theorem csrPut_locks (kind c num : Nat) (v x : DWord) (d : Dev) : (csrPut kind c num v x d).locks = d.locks := by simp [csrPut]

@[simp] theorem csrTake_locks (c num : Nat) (d : Dev) : (csrTake c num d).locks = d.locks := by simp [csrTake]

@[simp] theorem csrBody_locks (kind c rd ra num w : Nat) (d : Dev) : (csrBody kind c rd ra num w d).2.locks = d.locks := by (unfold csrBody; dsimp only; (repeat' split) <;> simp)

@[simp] theorem csrOp_locks (kind c rd ra num : Nat) (d : Dev) : (csrOp kind c rd ra num d).locks = d.locks := by
  unfold csrOp; refine coreRun_locks _ _ _ _ ?_; simp

@[simp] theorem doCsrr_locks (c rd num : Nat) (d : Dev) : (doCsrr c rd num d).locks = d.locks := by simp [doCsrr]

@[simp] theorem doCsrw_locks (c rd ra num : Nat) (d : Dev) : (doCsrw c rd ra num d).locks = d.locks := by simp [doCsrw]

@[simp] theorem doCsrs_locks (c rd ra num : Nat) (d : Dev) : (doCsrs c rd ra num d).locks = d.locks := by simp [doCsrs]

@[simp] theorem doCsrc_locks (c rd ra num : Nat) (d : Dev) : (doCsrc c rd ra num d).locks = d.locks := by simp [doCsrc]

@[simp] theorem doEret_locks (c : Nat) (d : Dev) : (doEret c d).locks = d.locks := by
  unfold doEret; refine coreRun_locks _ _ _ _ ?_; intros; dsimp only; (repeat' split) <;> simp

@[simp] theorem doTrap_locks (c code : Nat) (d : Dev) : (doTrap c code d).locks = d.locks := by
  unfold doTrap; refine coreRun_locks _ _ _ _ ?_; simp

@[simp] theorem doFence_locks (c : Nat) (d : Dev) : (doFence c d).locks = d.locks := by
  unfold doFence; refine coreRun_locks _ _ _ _ ?_; simp

@[simp] theorem doIllegal_locks (c w : Nat) (d : Dev) : (doIllegal c w d).locks = d.locks := by
  unfold doIllegal; (repeat' first | refine coreRun_locks _ _ _ _ ?_ <;> intros | dsimp only | split) <;> simp

@[simp] theorem devOp_locks (dop : Nat) (cap : Option Nat) (c rd ra rb imm : Nat) (body : Dev → Ending × Dev) (d : Dev) (hbody : ∀ x, (body x).2.locks = x.locks) : (devOp dop cap c rd ra rb imm body d).locks = d.locks := by
  unfold devOp; (repeat' first | split | refine coreRun_locks _ _ _ _ ?_ <;> intros | refine devOp_locks _ _ _ _ _ _ _ _ _ ?_ <;> intros | dsimp only) <;> simp [*]

@[simp] theorem devGive_locks (c rd addr : Nat) (v : DWord) (d : Dev) : (devGive c rd addr v d).2.locks = d.locks := by simp [devGive]

@[simp] theorem devStat_locks (c rd addr st : Nat) (d : Dev) : (devStat c rd addr st d).2.locks = d.locks := by simp [devStat]

@[simp] theorem devExc_locks (addr cause : Nat) (eval : DWord) (d : Dev) : (devExc addr cause eval d).2.locks = d.locks := by simp [devExc]

theorem withOp_locks (c a n align right : Nat) (f : Dev → Ending × Dev) (d : Dev) (hf : ∀ x, (f x).2.locks = x.locks) : (withOp c a n align right f d).2.locks = d.locks := by
  unfold withOp; repeat' split
  all_goals simp [hf]

@[simp] theorem doHopen_locks (c rd ra h : Nat) (d : Dev) : (doHopen c rd ra h d).locks = d.locks := by
  unfold doHopen; refine devOp_locks _ _ _ _ _ _ _ _ _ ?_; intros; dsimp only; (repeat' split) <;> simp

@[simp] theorem doHrd_locks (c rd ra rb h : Nat) (d : Dev) : (doHrd c rd ra rb h d).locks = d.locks := by
  unfold doHrd; refine devOp_locks _ _ _ _ _ _ _ _ _ ?_; intros; dsimp only; (repeat' split) <;> simp

@[simp] theorem doHsnap_locks (c rd ra rb h : Nat) (d : Dev) : (doHsnap c rd ra rb h d).locks = d.locks := by
  unfold doHsnap; refine devOp_locks _ _ _ _ _ _ _ _ _ ?_; intros; dsimp only; (repeat' split) <;> simp

@[simp] theorem doHsrch_locks (c rd ra rb h : Nat) (d : Dev) : (doHsrch c rd ra rb h d).locks = d.locks := by
  unfold doHsrch; refine devOp_locks _ _ _ _ _ _ _ _ _ ?_; intros; dsimp only; (repeat' split) <;> simp

@[simp] theorem doHnext_locks (c rd ra rb h : Nat) (d : Dev) : (doHnext c rd ra rb h d).locks = d.locks := by
  unfold doHnext; refine devOp_locks _ _ _ _ _ _ _ _ _ ?_; intros; dsimp only; (repeat' split) <;> simp

@[simp] theorem doCalloc_locks (c rd : Nat) (d : Dev) : (doCalloc c rd d).locks = d.locks := by
  unfold doCalloc
  refine devOp_locks _ _ _ _ _ _ _ _ _ (fun x => ?_)
  split
  · rename_i h
    rw [devGive_locks]; exact grantCell_locks h
  · simp

@[simp] theorem doCfree_locks (c rd ra : Nat) (d : Dev) : (doCfree c rd ra d).locks = d.locks := by
  unfold doCfree; refine devOp_locks _ _ _ _ _ _ _ _ _ ?_; intros; dsimp only; (repeat' split) <;> simp

@[simp] theorem doCmove_locks (c rd ra rb dir : Nat) (d : Dev) : (doCmove c rd ra rb dir d).locks = d.locks := by
  unfold doCmove; (repeat' first | refine devOp_locks _ _ _ _ _ _ _ _ _ ?_ <;> intros | refine withOp_locks _ _ _ _ _ _ _ ?_ <;> intros | dsimp only | split) <;> simp

@[simp] theorem giveCells_locks (q : Nat) (cells : List Nat) (d : Dev) : (giveCells q cells d).locks = d.locks := by
  unfold giveCells; refine each_locks _ _ _ ?_; simp

@[simp] theorem msendHost_locks (c : Nat) (m : Message) (d : Dev) : (msendHost c m d).2.locks = d.locks := by (unfold msendHost; dsimp only; (repeat' split) <;> simp)

@[simp] theorem msendQueue_locks (c q : Nat) (m : Message) (d : Dev) : (msendQueue c q m d).2.locks = d.locks := by (unfold msendQueue; dsimp only; (repeat' split) <;> simp)

@[simp] theorem msendMesh_locks (c : Nat) (m : Message) (d : Dev) : (msendMesh c m d).2.locks = d.locks := by (unfold msendMesh; dsimp only; (repeat' split) <;> simp)

@[simp] theorem msendCore_locks (c : Nat) (m : Message) (d : Dev) : (msendCore c m d).2.locks = d.locks := by (unfold msendCore; dsimp only; (repeat' split) <;> simp)

@[simp] theorem msend_locks (c : Nat) (m : Message) (d : Dev) : (msend c m d).2.locks = d.locks := by (unfold msend; (repeat' split) <;> simp)

@[simp] theorem doMsend_locks (c rd ra : Nat) (d : Dev) : (doMsend c rd ra d).locks = d.locks := by
  unfold doMsend; (repeat' first | refine devOp_locks _ _ _ _ _ _ _ _ _ ?_ <;> intros | refine withOp_locks _ _ _ _ _ _ _ ?_ <;> intros | split) <;> simp

@[simp] theorem doMrecv_locks (c rd ra : Nat) (d : Dev) : (doMrecv c rd ra d).locks = d.locks := by
  unfold doMrecv; (repeat' first | refine devOp_locks _ _ _ _ _ _ _ _ _ ?_ <;> intros | refine withOp_locks _ _ _ _ _ _ _ ?_ <;> intros | split) <;> simp

@[simp] theorem doEvpost_locks (c rd ra : Nat) (d : Dev) : (doEvpost c rd ra d).locks = d.locks := by
  unfold doEvpost; refine devOp_locks _ _ _ _ _ _ _ _ _ ?_; intros; dsimp only; (repeat' split) <;> simp

@[simp] theorem mkaIcv_locks (c : MkaCa) (body : Bytes) (d : Dev) : (mkaIcv c body d).2.locks = d.locks := by simp [mkaIcv]

@[simp] theorem setMka_locks (n : Nat) (c : MkaCa) (d : Dev) : (setMka n c d).locks = d.locks := by simp [setMka]

@[simp] theorem mkaKeys_locks (c : MkaCa) (d : Dev) : (mkaKeys c d).locks = d.locks := by simp [mkaKeys]

@[simp] theorem mkaInstall_locks (ch an suite ssci dir salt : Nat) (key : Bytes) (d : Dev) : (mkaInstall ch an suite ssci dir salt key d).locks = d.locks := by
  unfold mkaInstall
  cases h : osfInstall (none, 0, 0) ch an suite ssci 1 dir (mkaSalt salt) key d with
  | none => rfl
  | some y => exact osfInstall_locks h

@[simp] theorem mkaOffset_locks (ch ofs : Nat) (d : Dev) : (mkaOffset ch ofs d).locks = d.locks := by (unfold mkaOffset; (try dsimp only); (repeat' split) <;> simp)

@[simp] theorem mkaSilence_locks (c : MkaCa) (d : Dev) : (mkaSilence c d).locks = d.locks := by (unfold mkaSilence; (try dsimp only); (repeat' split) <;> simp)

@[simp] theorem mkaGenerate_locks (n k : Nat) (c : MkaCa) (peerSsci : Nat) (d : Dev) : (mkaGenerate n k c peerSsci d).locks = d.locks := by
  unfold mkaGenerate
  extract_lets a r i f c' b e g
  have ha : a.locks = d.locks := by simp only [a]; split <;> simp
  have hf : f.2.locks = d.locks := by simp [f, i, r, ha]
  clear_value f
  have hb : b.locks = d.locks := by simp [b, hf]
  clear_value b
  have he : e.locks = d.locks := by simp [e, hb]
  clear_value e
  have hg : g.locks = d.locks := by simp [g, he]
  clear_value g
  rw [when_locks _ _ _ (fun x => osfGate_locks ..), hg]

@[simp] theorem mkaElect_locks (n : Nat) (c : MkaCa) (peerSsci : Nat) (newPeer : Bool) (d : Dev) : (mkaElect n c peerSsci newPeer d).locks = d.locks := by (unfold mkaElect; (repeat' split) <;> simp)

@[simp] theorem mkaTakeSak_locks (n : Nat) (c : MkaCa) (x : Mkpdu) (d : Dev) : (mkaTakeSak n c x d).locks = d.locks := by (unfold mkaTakeSak; (repeat' split) <;> simp)

@[simp] theorem mkaReport_locks (n : Nat) (was : Bool) (d : Dev) : (mkaReport n was d).locks = d.locks := by
  unfold mkaReport
  split
  · split
    · exact msendHost_locks ..
    · rfl
  · rfl

@[simp] theorem mkaPeer_locks (n : Nat) (c : MkaCa) (x : Mkpdu) (d : Dev) : (mkaPeer n c x d).locks = d.locks := by (unfold mkaPeer; dsimp only; (repeat' split) <;> simp)

@[simp] theorem mkaReceive_locks (n : Nat) (body icv : Bytes) (d : Dev) : (mkaReceive n body icv d).locks = d.locks := by (unfold mkaReceive; (repeat' split) <;> first | rfl | simp)

@[simp] theorem mkaLater_locks (w : MkaWork) (d : Dev) : (mkaLater w d).locks = d.locks := by simp [mkaLater]

@[simp] theorem doMkpdu_locks (n : Nat) (body icv : Bytes) (d : Dev) : (doMkpdu n body icv d).locks = d.locks := by (unfold doMkpdu; (repeat' split) <;> simp)

@[simp] theorem mkaSend_locks (n : Nat) (d : Dev) : (mkaSend n d).locks = d.locks := by (unfold mkaSend; dsimp only; (repeat' split) <;> first | rfl | simp)

@[simp] theorem doMkaHello_locks (n : Nat) (d : Dev) : (doMkaHello n d).locks = d.locks := by (unfold doMkaHello; (repeat' split) <;> simp)

@[simp] theorem mkaTick_locks (d : Dev) : (mkaTick d).locks = d.locks := by
  unfold mkaTick
  split
  · rfl
  · rw [each_locks]
    · simp
    · intro w x
      cases w <;> simp

@[simp] theorem doMkaLife_locks (n : Nat) (d : Dev) : (doMkaLife n d).locks = d.locks := by (unfold doMkaLife; (repeat' split) <;> simp)

@[simp] theorem doEwait_locks (c rd ra rb flags : Nat) (d : Dev) : (doEwait c rd ra rb flags d).locks = d.locks := by
  unfold doEwait; refine devOp_locks _ _ _ _ _ _ _ _ _ ?_; intros; dsimp only; (repeat' split) <;> simp

@[simp] theorem raiseDeferred_locks (c : Nat) (d : Dev) : (raiseDeferred c d).locks = d.locks := by (unfold raiseDeferred; (repeat' split) <;> simp)

@[simp] theorem doEwaitWake_locks (c : Nat) (d : Dev) : (doEwaitWake c d).locks = d.locks := by (unfold doEwaitWake; dsimp only; (repeat' split) <;> simp)

@[simp] theorem doTimer_locks (c : Nat) (d : Dev) : (doTimer c d).locks = d.locks := by simp [doTimer]

@[simp] theorem doDeferredFail_locks (c addr : Nat) (d : Dev) : (doDeferredFail c addr d).locks = d.locks := by simp [doDeferredFail]

@[simp] theorem doCompletionDeliver_locks (c : Nat) (d : Dev) : (doCompletionDeliver c d).locks = d.locks := by (unfold doCompletionDeliver; (repeat' split) <;> simp)

@[simp] theorem doSampleTake_locks (c latency flags : Nat) (d : Dev) : (doSampleTake c latency flags d).locks = d.locks := by simp [doSampleTake]

@[simp] theorem loadOp_locks (op n : Nat) (f : Bytes → DWord) (c rd ra imm : Nat) (d : Dev) : (loadOp op n f c rd ra imm d).locks = d.locks := by
  unfold loadOp; refine coreRun_locks _ _ _ _ ?_; intros; dsimp only; (repeat' split) <;> simp

@[simp] theorem atomLoad_locks (c a : Nat) (d : Dev) : (atomLoad c a d).2.locks = d.locks := by (unfold atomLoad; (repeat' split) <;> simp)

@[simp] theorem doLb_locks (c rd ra imm : Nat) (d : Dev) : (doLb c rd ra imm d).locks = d.locks := by simp [doLb]

@[simp] theorem doLbu_locks (c rd ra imm : Nat) (d : Dev) : (doLbu c rd ra imm d).locks = d.locks := by simp [doLbu]

@[simp] theorem doLh_locks (c rd ra imm : Nat) (d : Dev) : (doLh c rd ra imm d).locks = d.locks := by simp [doLh]

@[simp] theorem doLhu_locks (c rd ra imm : Nat) (d : Dev) : (doLhu c rd ra imm d).locks = d.locks := by simp [doLhu]

@[simp] theorem doLw_locks (c rd ra imm : Nat) (d : Dev) : (doLw c rd ra imm d).locks = d.locks := by simp [doLw]

@[simp] theorem doLwu_locks (c rd ra imm : Nat) (d : Dev) : (doLwu c rd ra imm d).locks = d.locks := by simp [doLwu]

@[simp] theorem doLd_locks (c rd ra imm : Nat) (d : Dev) : (doLd c rd ra imm d).locks = d.locks := by simp [doLd]

theorem withParams_locks (b : Sub) (eng addr n : Nat) (f : (Nat → Nat) → Dev → Dev) (d : Dev) (hf : ∀ g x, (f g x).locks = x.locks) : (withParams b eng addr n f d).locks = d.locks := by
  unfold withParams
  extract_lets r
  have hr : r.2.locks = d.locks := engRead_locks ..
  clear_value r
  split
  · simp [hr]
  · rw [hf]; exact hr

theorem withInput_locks (b : Sub) (eng addr len : Nat) (f : Bytes → Dev → Dev) (d : Dev) (hf : ∀ g x, (f g x).locks = x.locks) : (withInput b eng addr len f d).locks = d.locks := by
  unfold withInput
  extract_lets r
  have hr : r.2.locks = d.locks := engRead_locks ..
  clear_value r
  split
  · simp [hr]
  · rw [hf]; exact hr

@[simp] theorem submitKey_locks (b : Sub) (x : Desc) (d : Dev) : (submitKey b x d).locks = d.locks := by
  unfold submitKey
  split
  · exact withParams_locks _ _ _ _ _ _ (fun _ _ => doKeyGen_locks ..)
  · exact withParams_locks _ _ _ _ _ _ (fun _ _ => doKeyTicket_locks ..)
  · exact withParams_locks _ _ _ _ _ _ (fun _ _ => withInput_locks _ _ _ _ _ _ (fun _ _ => withInput_locks _ _ _ _ _ _ (fun _ _ => doKeyDerive_locks ..)))
  · exact withParams_locks _ _ _ _ _ _ (fun _ _ => withInput_locks _ _ _ _ _ _ (fun _ _ => doKeyCombine_locks ..))
  · exact withParams_locks _ _ _ _ _ _ (fun _ _ => withInput_locks _ _ _ _ _ _ (fun _ _ => doKeyUnwrap_locks ..))
  · exact withParams_locks _ _ _ _ _ _ (fun _ _ => doKeyWrap_locks ..)
  · exact withParams_locks _ _ _ _ _ _ (fun _ _ => doKeyClear_locks ..)

@[simp] theorem latOne_locks (b : Sub) (code addr len : Nat) (args : List Nat) (d : Dev) : (latOne b code addr len args d).locks = d.locks := by simp [latOne]

@[simp] theorem submitLat_locks (b : Sub) (x : Desc) (d : Dev) : (submitLat b x d).locks = d.locks := by
  unfold submitLat; (repeat' first | refine withParams_locks _ _ _ _ _ _ ?_ <;> intros | split) <;> simp

@[simp] theorem submit_locks (b : Sub) (x : Desc) (d : Dev) : (submit b x d).locks = d.locks := by
  unfold submit; (repeat' first | refine withInput_locks _ _ _ _ _ _ ?_ <;> intros | split) <;> simp

@[simp] theorem takeSubno_locks (b : Sub) (d : Dev) : (takeSubno b d).2.locks = d.locks := by simp [takeSubno]

@[simp] theorem refEngine_locks (code : Nat) (d : Dev) : (refEngine code d).2.locks = d.locks := by (unfold refEngine; (repeat' split) <;> simp)

@[simp] theorem refuseDesc_locks (b : Sub) (code st : Nat) (d : Dev) : (refuseDesc b code st d).locks = d.locks := by simp [refuseDesc]

@[simp] theorem ringTry_locks (r : Nat) (d : Dev) : (ringTry r d).locks = d.locks := by (unfold ringTry; dsimp only; (repeat' split) <;> simp)

@[simp] theorem doDescriptorFetch_locks (r : Nat) (desc image : Bytes) (ringFail imageFail : Bool) (d : Dev) : (doDescriptorFetch r desc image ringFail imageFail d).locks = d.locks := by simp [doDescriptorFetch]

theorem coreSubmit_locks (c rd a tag : Nat) (f : Sub → Dev → Dev) (d : Dev) (hf : ∀ b x, (f b x).locks = x.locks) : (coreSubmit c rd a tag f d).2.locks = d.locks := by
  unfold coreSubmit
  dsimp only
  rw [devGive_locks, hf]; simp

@[simp] theorem doDmaTimeout_locks (kind : DmaRead) (q : Nat) (d : Dev) : (doDmaTimeout kind q d).locks = d.locks := by (unfold doDmaTimeout; (try dsimp only); (repeat' split) <;> simp)

@[simp] theorem submitOrFault_locks (x : Desc) (dmaOk : Bool) (b : Sub) (d : Dev) : (submitOrFault x dmaOk b d).locks = d.locks := by simp [submitOrFault]

@[simp] theorem doTackg_locks (c rd ra : Nat) (image : Bytes) (dmaOk : Bool) (d : Dev) : (doTackg c rd ra image dmaOk d).locks = d.locks := by
  unfold doTackg
  refine devOp_locks _ _ _ _ _ _ _ _ _ (fun x => ?_)
  refine withOp_locks _ _ _ _ _ _ _ (fun y => ?_)
  dsimp only
  split
  · simp
  · split
    · simp
    · rw [coreSubmit_locks _ _ _ _ _ _ (fun _ _ => submitOrFault_locks ..)]; simp

@[simp] theorem doEngq_locks (c rd ra engine : Nat) (image : Bytes) (dmaOk : Bool) (d : Dev) : (doEngq c rd ra engine image dmaOk d).locks = d.locks := by
  unfold doEngq
  refine devOp_locks _ _ _ _ _ _ _ _ _ (fun x => ?_)
  refine withOp_locks _ _ _ _ _ _ _ (fun y => ?_)
  dsimp only
  split
  · simp
  · split
    · simp
    · split
      · rw [coreSubmit_locks _ _ _ _ _ _ (fun _ _ => doSceJob_locks ..)]; simp
      · rw [coreSubmit_locks _ _ _ _ _ _ (fun _ _ => submitOrFault_locks ..)]

@[simp] theorem prfClocks_locks (n : Nat) (d : Dev) : (prfClocks n d).locks = d.locks := rfl

@[simp] theorem checkTick_locks (d : Dev) : (checkTick d).locks = d.locks := by simp [checkTick]

@[simp] theorem tick_locks (d : Dev) : (tick d).locks = d.locks := by simp [tick]

end Sys2Proof.Machine
end

