-- ==== Sys2Proof/Laws/LocksOk.lean ====
section
/-! SUPPORT. The few commands that change the locked configuration keep it legal (Locks.Ok). -/

namespace Sys2Proof.Machine

theorem Locks.Ok.unready {l : Locks} (h : l.Ok) : Locks.Ok { l with ready := false } := by
  obtain ⟨h1, h2, _, h4, h5⟩ := h
  exact ⟨h1, h2, by simp, h4, h5⟩

theorem freshLocks_ok (d : Dev) (h1 : d.mem.psize = 4) (h2 : d.mem.ready = false) (h3 : d.sas.coldBase = 0) (h4 : d.sas.coldLock = false)
    (h5 : d.mem.scrub = 24) (h6 : d.tck.cfg = 0x00050064) (h7 : d.keys.sceLease = 1000) : d.locks.Ok := by
  simp [Locks.Ok, Dev.locks, h1, h2, h3, h4, h5, h6, h7, fld]

theorem unready_locks (d : Dev) : (d.updMem (fun m => { m with ready := false })).locks = { d.locks with ready := false } := rfl

theorem destroyKwr_locks (why : Nat) (record : Bool) (d : Dev) : (destroyKwr why record d).locks = { d.locks with ready := false } := by
  unfold destroyKwr
  extract_lets a old
  have ha : a.locks = d.locks := by simp only [a]; split <;> simp
  clear_value old a
  have hx : ∀ x : Dev, x.locks = d.locks →
      (x.updMem (fun m => { m with ready := false, xtsKey1 := [], xtsKey2 := [], macKey := [] })).locks = { d.locks with ready := false } := by
    intro x h; rw [← h]; rfl
  refine hx _ ?_
  rw [Dev.updSas_locks _ _ rfl rfl rfl, Dev.updKeys_locks _ _ rfl, Dev.updViews_locks, ha]

@[simp] theorem wipeSce_locks (d : Dev) : (wipeSce d).locks = d.locks := by simp [wipeSce]

theorem zeroiseSeq_locks (reason code why : Nat) (d : Dev) : (zeroiseSeq reason code why d).locks = { d.locks with ready := false } := by
  unfold zeroiseSeq
  split
  · exact destroyKwr_locks ..
  · simp only [cleanFlush_locks, event_locks, queuesOff_locks, wipeSram_locks, wipeSce_locks, enterFallow_locks, destroyKwr_locks, lcInterrupt_locks, Dev.locks_mod]

theorem zeroiseEarly_locks (code why : Nat) (d : Dev) : (zeroiseEarly code why d).locks = { d.locks with ready := false } := by
  simp [zeroiseEarly, destroyKwr_locks]

theorem zeroiseNow_locks (reason code why : Nat) (d : Dev) : (zeroiseNow reason code why d).locks = { d.locks with ready := false } := by
  unfold zeroiseNow
  split
  · exact zeroiseEarly_locks ..
  · exact zeroiseSeq_locks ..

theorem coldCfgWrite_ok (v : Nat) (d : Dev) (h : d.locks.Ok) : (coldCfgWrite v d).locks.Ok := by
  unfold coldCfgWrite
  split
  · exact h
  · rename_i hc
    extract_lets s x fits s2 e
    have he : e.locks.Ok := by
      obtain ⟨h1, h2, h3, h4, h5, h6⟩ := h
      refine ⟨h1, h2, h3, h4, ?_, h6⟩
      intro hl
      have hl' : (bitAt v 31 && x.mem.ready && fits) = true := hl
      simp only [Bool.and_eq_true] at hl'
      refine ⟨h3 hl'.1.2, ?_⟩
      have := hl'.2
      simp only [fits, coldCount, protSize] at this
      have h8 : e.locks.coldBase = x.sas.coldBase ∧ e.locks.coldSize = x.sas.coldSize ∧ e.locks.psize = x.mem.psize := ⟨rfl, rfl, rfl⟩
      rw [h8.1, h8.2.1, h8.2.2]
      have := of_decide_eq_true this; omega
    clear_value e
    split
    · rw [hostErr_locks]; exact he
    · exact he

theorem mecCfgWrite_ok (v : Nat) (d : Dev) (h : d.locks.Ok) : (mecCfgWrite v d).locks.Ok := by
  unfold mecCfgWrite
  split
  · exact h
  · rename_i hl
    extract_lets p m e m'
    have he : e.locks.Ok := by
      obtain ⟨h1, h2, h3, h4, h5, h6⟩ := h
      have hp : e.locks.psize = if 1 ≤ p && p ≤ 64 then p else d.mem.psize := rfl
      refine ⟨?_, ?_, h3, h4, ?_, h6⟩
      · rw [hp]; split <;> simp_all
        exact h1
      · rw [hp]; split <;> simp_all
        exact h2
      · intro hc
        exact absurd (h5 hc).1 hl
    have hm : e.mem = m' := rfl
    split
    · exact he
    · split
      · exact he
      · obtain ⟨h1, h2, h3, h4, h5, h6⟩ := he
        refine ⟨h1, h2, fun _ => rfl, h4, fun hc => ⟨rfl, (h5 hc).2⟩, h6⟩

theorem doMecInit_ok (d : Dev) (h : d.locks.Ok) : (doMecInit d).locks.Ok := by
  unfold doMecInit
  split
  · exact h
  · rename_i hc
    extract_lets r
    have hr : r.2.locks = d.locks := freeNat_locks d
    have hl : r.2.locks.lock = true := by
      rw [hr]
      simp only [Bool.or_eq_true, not_or, Bool.not_eq_true', Bool.not_eq_false] at hc
      exact hc.1.1
    clear_value r
    rw [← hr] at h
    obtain ⟨h1, h2, h3, h4, h5, h6⟩ := h
    rw [prfCount_locks]
    exact ⟨h1, h2, fun _ => hl, h4, h5, h6⟩

theorem resetDev_ok (cold : Bool) (cause : Nat) (d : Dev) : (resetDev cold cause d).locks.Ok := by
  unfold resetDev
  exact freshLocks_ok _ rfl rfl rfl rfl rfl rfl rfl

theorem doTamper_ok (d : Dev) (h : d.locks.Ok) : (doTamper d).locks.Ok := by
  unfold doTamper
  extract_lets p a b
  have ha : a.locks = d.locks := Dev.locks_pins d _
  have hb : b.locks = d.locks := by
    simp only [b]
    clear_value a
    rw [overwriteLinks_locks]
    split
    · rw [zeroiseOut_locks, ha]
    · exact ha
  clear_value b
  rw [zeroiseNow_locks, hb]; exact h.unready

theorem modReset_ok (v : Nat) (d : Dev) (h : d.locks.Ok) : (modReset v d).locks.Ok := by
  unfold modReset; split
  · exact h
  · exact resetDev_ok ..

theorem zeroiseIn_ok (j origin hops eseq : Nat) (payload : Bytes) (d : Dev) (h : d.locks.Ok) : (zeroiseIn j origin hops eseq payload d).locks.Ok := by
  unfold zeroiseIn
  extract_lets a
  have ha : a.locks = d.locks := by simp only [a]; split <;> simp
  clear_value a
  rw [zeroiseNow_locks, when_locks _ _ _ (fun x => event_locks ..), ha]; exact h.unready

theorem holpenAct_ok (j type prio dst src hops eseq : Nat) (p : Bytes) (d : Dev) (h : d.locks.Ok) :
    (holpenAct j type prio dst src hops eseq p d).locks.Ok := by
  unfold holpenAct
  repeat' split
  all_goals first
    | exact h
    | exact zeroiseIn_ok _ _ _ _ _ _ h
    | (simp only [twnCount_locks, meshFlood_locks, holpenConsume_locks, hpSend_locks]; exact h)

theorem holpenTake_ok (j : Nat) (b p : Bytes) (d : Dev) (h : d.locks.Ok) : (holpenTake j b p d).locks.Ok := by
  unfold holpenTake
  extract_lets type a
  have ha : a.locks = d.locks := by simp [a]
  clear_value type a
  split
  · rw [hpResend_locks, ha]; exact h
  · exact holpenAct_ok _ _ _ _ _ _ _ _ _ (by rw [ha]; exact h)

theorem protectedFrame_ok (j : Nat) (b : Bytes) (d : Dev) (h : d.locks.Ok) : (protectedFrame j b d).locks.Ok := by
  unfold protectedFrame
  extract_lets g n type a
  have ha : a.locks.Ok := by simp only [a, Dev.updHp_locks]; exact h
  clear_value g n type a
  split
  · rw [holpenFail_locks]; exact ha
  · split
    · rw [holpenFail_locks]; exact ha
    · split
      · rw [holpenFail_locks]; exact ha
      · exact holpenTake_ok _ _ _ _ ha

theorem doHolpenFrame_ok (j : Nat) (b : Bytes) (d : Dev) (h : d.locks.Ok) : (doHolpenFrame j b d).locks.Ok := by
  unfold doHolpenFrame
  dsimp only
  repeat' split
  all_goals first
    | exact h
    | (rw [helloFrame_locks]; exact h)
    | exact protectedFrame_ok _ _ _ h

theorem lcStart_ok (op : Nat) (target : Life) (d : Dev) (h : d.locks.Ok) : (lcStart op target d).locks.Ok := by
  unfold lcStart
  extract_lets a m b
  have ha : a.locks.Ok := by
    simp only [a]; split
    · rw [destroyKwr_locks]; exact h.unready
    · exact h
  have hb : b.locks.Ok := ha
  clear_value b
  split
  · rw [fallowAll_locks]; exact hb
  · exact hb

theorem lcRequest_ok (op r : Nat) (armed : Bool) (d : Dev) (h : d.locks.Ok) : (lcRequest op r armed d).locks.Ok := by
  unfold lcRequest
  extract_lets c a valid e k
  have ha : a.2.locks = d.locks := engRead_locks ..
  have hk : k.2.locks = d.locks := engRead_locks ..
  have he : e.locks = d.locks := (newNonce_locks ..).trans ha
  clear_value a e k
  have hek : e.locks.Ok := by rw [he]; exact h
  have hkk : k.2.locks.Ok := by rw [hk]; exact h
  repeat' split
  all_goals first
    | with_reducible exact h
    | (rw [lcRefuse_locks]; first | exact h | exact hek | exact hkk)
    | (refine lcStart_ok _ _ _ ?_; first | exact h | exact hek | (rw [Dev.locks_mod]; exact hkk))

theorem modWrite_ok (r : Nat) (f : Dev → Dev) (d : Dev) (h : d.locks.Ok) (hf : ∀ x, x.locks.Ok → (f x).locks.Ok) : (modWrite r f d).locks.Ok :=
  hf _ (by rw [disarm_locks]; exact h)

theorem modWriteSup_ok (r off : Nat) (f : Dev → Dev) (d : Dev) (h : d.locks.Ok) (hf : ∀ x, x.locks.Ok → (f x).locks.Ok) :
    (modWriteSup r off f d).locks.Ok := by
  unfold modWriteSup; split
  · rw [taskStore_locks]; exact h
  · exact modWrite_ok _ _ _ h hf

theorem lcReqWrite_ok (r v : Nat) (d : Dev) (h : d.locks.Ok) : (lcReqWrite r v d).locks.Ok :=
  modWriteSup_ok _ _ _ _ h (fun x hx => lcRequest_ok _ _ _ _ hx)

theorem doFuseBlow_ok (ok : Bool) (d : Dev) (h : d.locks.Ok) : (doFuseBlow ok d).locks.Ok := by
  unfold doFuseBlow
  split
  · exact h
  · split
    · extract_lets a m b
      have hb : b.locks.Ok := by
        have : a.locks = d.locks := lcInterrupt_locks d
        have hb : b.locks = d.locks := this
        rw [hb]; exact h
      clear_value b
      split
      · rw [enterFallow_locks]; exact hb
      · exact hb
    · dsimp only
      split
      · exact resetDev_ok ..
      · exact h

theorem modResetWrite_ok (r v : Nat) (d : Dev) (h : d.locks.Ok) : (modResetWrite r v d).locks.Ok :=
  modWriteSup_ok _ _ _ _ h (fun x hx => modReset_ok _ _ hx)

theorem zeroiseWrite_ok (r v : Nat) (d : Dev) (h : d.locks.Ok) : (zeroiseWrite r v d).locks.Ok := by
  refine modWriteSup_ok _ _ _ _ h (fun x hx => ?_)
  repeat' split
  all_goals first
    | exact hx
    | (simp only [zeroiseNow_locks, zeroiseOut_locks]; exact hx.unready)

theorem doBistDone_ok (pass : Bool) (cls unit : Nat) (d : Dev) (h : d.locks.Ok) : (doBistDone pass cls unit d).locks.Ok := by
  unfold doBistDone; split
  · exact h
  · exact resetDev_ok ..

theorem writeMod_ok (req o v : Nat) (d : Dev) (h : d.locks.Ok) : (writeMod req o v d).locks.Ok := by
  unfold writeMod
  extract_lets upd
  have hu : ∀ f, (upd f).locks.Ok := fun f => modWrite_ok _ _ _ h (fun x hx => hx)
  clear_value upd
  split
  all_goals first
    | exact hu _
    | exact lcReqWrite_ok _ _ _ h
    | exact modResetWrite_ok _ _ _ h
    | exact zeroiseWrite_ok _ _ _ h
    | (simp only [modReqWrite_locks, lcKeyWrite_locks, bistWrite_locks, svnCommit_locks, mrExtWrite_locks, attWrite_locks, mrSelWrite_locks, disarm_locks]; exact h)

theorem writeSas_ok (o v : Nat) (d : Dev) (h : d.locks.Ok) : (writeSas o v d).locks.Ok := by
  have hb : Dev.locks { d with sas := coldBaseWrite o v d.sas } |>.Ok := by
    obtain ⟨h1, h2, h3, h4, h5, h6⟩ := h
    unfold coldBaseWrite
    split
    · exact ⟨h1, h2, h3, h4, h5, h6⟩
    · rename_i hl
      refine ⟨h1, h2, h3, ?_, fun hc => absurd hc hl, h6⟩
      exact Nat.mul_mod_left _ _
  unfold writeSas
  split
  · rw [statselWrite_locks]; exact h
  · rw [recselWrite_locks]; exact h
  · exact hb
  · exact hb
  · exact coldCfgWrite_ok _ _ h
  · exact h

theorem writeTck_ok (o v : Nat) (d : Dev) (h : d.locks.Ok) : (writeTck o v d).locks.Ok := by
  unfold writeTck
  extract_lets iv bp
  split
  · split
    · exact h
    · rename_i hc
      simp only [Bool.or_eq_true, decide_eq_true_eq, not_or, Nat.not_lt] at hc
      have hiv : fld (iv + at_ bp 16) 13 0 = iv := by
        have : iv < 2 ^ 14 := by simp only [iv, fld]; exact Nat.mod_lt _ (by decide)
        simp only [fld, at_]; omega
      have hbp : fld (iv + at_ bp 16) 19 16 = bp := by
        have : iv < 2 ^ 14 := by simp only [iv, fld]; exact Nat.mod_lt _ (by decide)
        have : bp < 2 ^ 4 := by simp only [bp, fld]; exact Nat.mod_lt _ (by decide)
        simp only [fld, at_]; omega
      obtain ⟨h1, h2, h3, h4, h5, h6, h7, _, _, _, _, h12⟩ := h
      refine ⟨h1, h2, h3, h4, h5, h6, h7, ?_, ?_, ?_, ?_, h12⟩ <;> simp only [Dev.locks, hiv, hbp] <;> omega
  · exact h
  · exact h

theorem writeSce_ok (req o v : Nat) (d : Dev) (h : d.locks.Ok) : (writeSce req o v d).locks.Ok := by
  unfold writeSce
  split
  · rw [sceLockWrite_locks]; exact h
  · split
    · obtain ⟨h1, h2, h3, h4, h5, h6, h7, h8, h9, h10, h11, _⟩ := h
      exact ⟨h1, h2, h3, h4, h5, h6, h7, h8, h9, h10, h11, Nat.mod_lt _ (by decide)⟩
    · exact h
  · exact h

theorem writeMem_ok (o v : Nat) (d : Dev) (h : d.locks.Ok) : (writeMem o v d).locks.Ok := by
  unfold writeMem
  split
  · split
    · rename_i hc
      simp only [Bool.and_eq_true, decide_eq_true_eq] at hc
      obtain ⟨h1, h2, h3, h4, h5, _, _, h8⟩ := h
      exact ⟨h1, h2, h3, h4, h5, hc.1, hc.2, h8⟩
    · exact h
  · rw [memClearWrite_locks]; exact h
  · exact h

theorem writeMec_ok (o v : Nat) (d : Dev) (h : d.locks.Ok) : (writeMec o v d).locks.Ok := by
  unfold writeMec
  split
  · exact mecCfgWrite_ok _ _ h
  · exact h
  · rw [reprovWrite_locks]; exact h
  · exact h
  · exact h

theorem regEffect_ok (req off v : Nat) (d : Dev) (h : d.locks.Ok) : (regEffect req off v d).locks.Ok := by
  unfold regEffect
  extract_lets o
  clear_value o
  split
  all_goals first
    | exact writeMod_ok _ _ _ _ h
    | exact writeSas_ok _ _ _ h
    | exact writeTck_ok _ _ _ h
    | exact writeSce_ok _ _ _ _ h
    | exact writeMem_ok _ _ _ h
    | exact writeMec_ok _ _ _ h
    | exact h
    | (split <;> exact h)
    | (simp; exact h)
    | (split <;> (simp; exact h))

theorem regWrite_ok (req off v : Nat) (d : Dev) (h : d.locks.Ok) : (regWrite req off v d).2.locks.Ok := by
  unfold regWrite
  split
  · exact h
  · split
    · dsimp only
      rw [eventOnce_locks]
      split
      · rw [hostErr_locks]; exact h
      · exact h
    · split
      · exact h
      · exact regEffect_ok _ _ _ _ h

@[simp] theorem pagesWrite_locks (req : Nat) (a : Access) (v : Nat) (d : Dev) : (pagesWrite req a v d).locks = d.locks := by simp [pagesWrite]

theorem barWriteWord_ok (req off v : Nat) (d : Dev) (h : d.locks.Ok) : (barWriteWord req off v d).locks.Ok := by
  unfold barWriteWord
  dsimp only
  split
  · rw [emit_locks]; exact regWrite_ok _ _ _ _ h
  · exact regWrite_ok _ _ _ _ h

theorem barWrite_ok (req : Nat) (a : Access) (v : Nat) (d : Dev) (h : d.locks.Ok) : (barWrite req a v d).locks.Ok := by
  unfold barWrite
  repeat' split
  · exact barWriteWord_ok _ _ _ _ (barWriteWord_ok _ _ _ _ h)
  · rw [emit_locks, hostErr_locks]; exact h
  · rw [emit_locks]; exact h
  · exact barWriteWord_ok _ _ _ _ h

theorem coreWindowWrite_ok (req : Nat) (a : Access) (v : Nat) (d : Dev) (h : d.locks.Ok) : (coreWindowWrite req a v d).locks.Ok := by
  unfold coreWindowWrite
  split
  · rw [emit_locks, windowExc_locks]; exact h
  · split
    · rw [emit_locks, windowExc_locks]; exact h
    · extract_lets r
      have hr : r.2.locks.Ok := regWrite_ok _ _ _ _ h
      clear_value r
      split
      · exact hr
      · rw [when_locks _ _ _ (fun x => emit_locks _ _), windowExc_locks]; exact hr

theorem doRegisterWrite_ok (req : Nat) (a : Access) (v : Nat) (d : Dev) (h : d.locks.Ok) : (doRegisterWrite req a v d).locks.Ok := by
  unfold doRegisterWrite
  repeat' split
  all_goals first
    | exact barWrite_ok _ _ _ _ h
    | exact coreWindowWrite_ok _ _ _ _ h
    | (rw [emit_locks]; exact h)
    | (rw [emit_locks, when_locks _ _ _ (fun x => hostErr_locks _ _)]; exact h)
    | (rw [apertureWrite_locks]; exact h)
    | (rw [pagesWrite_locks]; exact h)

theorem coreStore_ok (c addr : Nat) (b : Bytes) (d : Dev) (h : d.locks.Ok) : (coreStore c addr b d).2.locks.Ok := by
  unfold coreStore
  extract_lets r t
  have hr : r.2.locks.Ok := regWrite_ok _ _ _ _ h
  have ht : t.2.locks.Ok := by simp only [t, ddrWrite_locks]; exact h
  clear_value r t
  repeat' split
  all_goals first
    | exact h
    | exact hr
    | exact ht
    | (simp only [sramWrite_locks, sharedWrite_locks]; exact h)

theorem coreRun_ok (c w : Nat) (body : Dev → Ending × Dev) (d : Dev) (h : d.locks.Ok) (hf : (body d).2.locks.Ok) : (coreRun c w body d).locks.Ok := by
  unfold coreRun
  dsimp only
  repeat' split
  all_goals first
    | exact h
    | exact hf
    | (rw [takeExc_locks]; exact h)
    | (rw [finish_locks, Dev.updCore_locks]; exact hf)

theorem storeOp_ok (op n c rs ra imm : Nat) (d : Dev) (h : d.locks.Ok) : (storeOp op n c rs ra imm d).locks.Ok := by
  refine coreRun_ok _ _ _ _ h ?_
  extract_lets k a src r
  have hr : r.2.locks.Ok := coreStore_ok _ _ _ _ h
  clear_value r
  split <;> exact hr

theorem atomOp_ok (func : Nat) (f : DWord → DWord → DWord → Option DWord) (c rd ra rb : Nat) (d : Dev) (h : d.locks.Ok) :
    (atomOp func f c rd ra rb d).locks.Ok := by
  refine coreRun_ok _ _ _ _ h ?_
  extract_lets k a src r old
  have hr : r.2.locks.Ok := by simp only [r, atomLoad_locks]; exact h
  clear_value r
  split
  · exact hr
  · split
    · rw [Dev.updCore_locks]; exact hr
    · extract_lets t
      have ht : t.2.locks.Ok := coreStore_ok _ _ _ _ hr
      clear_value t
      split
      · rw [Dev.updCore_locks]; exact ht
      · exact ht

end Sys2Proof.Machine
end

