-- ==== Sys2Proof/Laws/Tab.lean ====
section
/-! SUPPORT. Laws of sparse tables: reads after writes, and the canonical form that every write keeps. -/

namespace Sys2Proof.Machine

variable {α : Type}

@[simp] theorem Tab.get_nil (d : α) (i : Nat) : Tab.get d [] i = d := rfl

@[simp] theorem Tab.get_insert_same (d v : α) (t : Tab α) (i : Nat) : Tab.get d (Tab.insert v t i) i = v := by
  induction t with
  | nil => simp [Tab.insert, Tab.get]
  | cons e t ih =>
    obtain ⟨k, w⟩ := e
    by_cases h1 : i < k
    · simp [Tab.insert, Tab.get, h1]
    · by_cases h2 : i = k
      · simp [Tab.insert, Tab.get, h2]
      · simp [Tab.insert, Tab.get, h1, h2, ih]

theorem Tab.get_insert_ne (d v : α) (t : Tab α) (i j : Nat) (h : j ≠ i) : Tab.get d (Tab.insert v t i) j = Tab.get d t j := by
  induction t with
  | nil => simp [Tab.insert, Tab.get, h]
  | cons e t ih =>
    obtain ⟨k, w⟩ := e
    by_cases h1 : i < k
    · simp [Tab.insert, Tab.get, h1, h]
    · by_cases h2 : i = k
      · subst h2; simp [Tab.insert, Tab.get, h]
      · simp [Tab.insert, Tab.get, h1, h2, ih]

@[simp] theorem Tab.get_erase_same (d : α) (t : Tab α) (i : Nat) : Tab.get d (Tab.erase t i) i = d := by
  induction t with
  | nil => rfl
  | cons e t ih =>
    obtain ⟨k, w⟩ := e
    by_cases h : i = k
    · simp only [Tab.erase, if_pos h]; exact ih
    · simp [Tab.erase, Tab.get, h, ih]

theorem Tab.get_erase_ne (d : α) (t : Tab α) (i j : Nat) (h : j ≠ i) : Tab.get d (Tab.erase t i) j = Tab.get d t j := by
  induction t with
  | nil => rfl
  | cons e t ih =>
    obtain ⟨k, w⟩ := e
    by_cases h1 : i = k
    · subst h1; simp only [Tab.erase, if_true, Tab.get, if_neg h]; exact ih
    · simp [Tab.erase, Tab.get, h1, ih]

variable [DecidableEq α]

@[simp] theorem Tab.get_set_same (d v : α) (t : Tab α) (i : Nat) : Tab.get d (Tab.set d t i v) i = v := by
  unfold Tab.set; split
  · simp_all
  · simp

theorem Tab.get_set_ne (d v : α) (t : Tab α) (i j : Nat) (h : j ≠ i) : Tab.get d (Tab.set d t i v) j = Tab.get d t j := by
  unfold Tab.set; split
  · exact Tab.get_erase_ne d t i j h
  · exact Tab.get_insert_ne d v t i j h

theorem Tab.get_set (d v : α) (t : Tab α) (i j : Nat) : Tab.get d (Tab.set d t i v) j = if j = i then v else Tab.get d t j := by
  split
  · rename_i h; subst h; simp
  · rename_i h; exact Tab.get_set_ne d v t i j h

@[simp] theorem Tab.get_upd_same (d : α) (t : Tab α) (i : Nat) (f : α → α) : Tab.get d (Tab.upd d t i f) i = f (Tab.get d t i) := by
  simp [Tab.upd]

theorem Tab.get_upd_ne (d : α) (t : Tab α) (i j : Nat) (f : α → α) (h : j ≠ i) : Tab.get d (Tab.upd d t i f) j = Tab.get d t j :=
  Tab.get_set_ne d _ t i j h

theorem Tab.get_upd (d : α) (t : Tab α) (i j : Nat) (f : α → α) :
    Tab.get d (Tab.upd d t i f) j = if j = i then f (Tab.get d t i) else Tab.get d t j := Tab.get_set d _ t i j

theorem Tab.wfFrom_mono (d : α) (t : Tab α) (a b : Nat) (h : a ≤ b) (w : Tab.wfFrom d b t = true) : Tab.wfFrom d a t = true := by
  cases t with
  | nil => rfl
  | cons e t =>
    obtain ⟨k, v⟩ := e
    simp only [Tab.wfFrom, Bool.and_eq_true, decide_eq_true_eq] at w ⊢
    exact ⟨⟨by omega, w.1.2⟩, w.2⟩

theorem Tab.wfFrom_erase (d : α) (t : Tab α) (b i : Nat) (w : Tab.wfFrom d b t = true) : Tab.wfFrom d b (Tab.erase t i) = true := by
  induction t generalizing b with
  | nil => rfl
  | cons e t ih =>
    obtain ⟨k, v⟩ := e
    simp only [Tab.wfFrom, Bool.and_eq_true, decide_eq_true_eq] at w
    by_cases h : i = k
    · simp only [Tab.erase, if_pos h]
      exact ih b (Tab.wfFrom_mono d t b (k + 1) (by omega) w.2)
    · simp only [Tab.erase, if_neg h, Tab.wfFrom, Bool.and_eq_true, decide_eq_true_eq]
      exact ⟨w.1, ih (k + 1) w.2⟩

theorem Tab.wfFrom_insert (d v : α) (t : Tab α) (b i : Nat) (hb : b ≤ i) (hv : v ≠ d) (w : Tab.wfFrom d b t = true) :
    Tab.wfFrom d b (Tab.insert v t i) = true := by
  induction t generalizing b with
  | nil => simp [Tab.insert, Tab.wfFrom, hb, hv]
  | cons e t ih =>
    obtain ⟨k, u⟩ := e
    simp only [Tab.wfFrom, Bool.and_eq_true, decide_eq_true_eq] at w
    by_cases h1 : i < k
    · simp only [Tab.insert, if_pos h1, Tab.wfFrom, Bool.and_eq_true, decide_eq_true_eq]
      exact ⟨⟨hb, hv⟩, ⟨by omega, w.1.2⟩, w.2⟩
    · by_cases h2 : i = k
      · subst h2
        simp only [Tab.insert, if_neg h1, if_true, Tab.wfFrom, Bool.and_eq_true, decide_eq_true_eq]
        exact ⟨⟨hb, hv⟩, w.2⟩
      · simp only [Tab.insert, if_neg h1, if_neg h2, Tab.wfFrom, Bool.and_eq_true, decide_eq_true_eq]
        exact ⟨w.1, ih (k + 1) (by omega) w.2⟩

/-- Every write keeps the canonical form. -/
theorem Tab.wf_set (d v : α) (t : Tab α) (i : Nat) (w : Tab.wf d t = true) : Tab.wf d (Tab.set d t i v) = true := by
  unfold Tab.set Tab.wf at *
  split
  · exact Tab.wfFrom_erase d t 0 i w
  · rename_i h; exact Tab.wfFrom_insert d v t 0 i (by omega) h w

theorem Tab.wf_upd (d : α) (t : Tab α) (i : Nat) (f : α → α) (w : Tab.wf d t = true) : Tab.wf d (Tab.upd d t i f) = true :=
  Tab.wf_set d _ t i w

end Sys2Proof.Machine
end

