-- ==== Sys2Proof/Laws/State.lean ====
section
/-! SUPPORT. What each update and each shared operation of a device leaves unchanged, field by field, and reads after updates. -/

namespace Sys2Proof.Machine

@[simp] theorem Dev.updPort_out (n : Nat) (f : Port → Port) (d : Dev) : (Dev.updPort n f d).out = d.out := rfl
@[simp] theorem Dev.updPort_fresh (n : Nat) (f : Port → Port) (d : Dev) : (Dev.updPort n f d).fresh = d.fresh := rfl
@[simp] theorem Dev.updPort_tab (n : Nat) (f : Port → Port) (d : Dev) : (Dev.updPort n f d).tab = d.tab := rfl
@[simp] theorem Dev.updPort_views (n : Nat) (f : Port → Port) (d : Dev) : (Dev.updPort n f d).views = d.views := rfl
@[simp] theorem Dev.updPort_tck (n : Nat) (f : Port → Port) (d : Dev) : (Dev.updPort n f d).tck = d.tck := rfl
@[simp] theorem Dev.updPort_slice (n : Nat) (f : Port → Port) (d : Dev) : (Dev.updPort n f d).slice = d.slice := rfl
@[simp] theorem Dev.updPort_slt (n : Nat) (f : Port → Port) (d : Dev) : (Dev.updPort n f d).slt = d.slt := rfl
@[simp] theorem Dev.updPort_sas (n : Nat) (f : Port → Port) (d : Dev) : (Dev.updPort n f d).sas = d.sas := rfl
@[simp] theorem Dev.updPort_stn (n : Nat) (f : Port → Port) (d : Dev) : (Dev.updPort n f d).stn = d.stn := rfl
@[simp] theorem Dev.updPort_pat (n : Nat) (f : Port → Port) (d : Dev) : (Dev.updPort n f d).pat = d.pat := rfl
@[simp] theorem Dev.updPort_keys (n : Nat) (f : Port → Port) (d : Dev) : (Dev.updPort n f d).keys = d.keys := rfl
@[simp] theorem Dev.updPort_twn (n : Nat) (f : Port → Port) (d : Dev) : (Dev.updPort n f d).twn = d.twn := rfl
@[simp] theorem Dev.updPort_core (n : Nat) (f : Port → Port) (d : Dev) : (Dev.updPort n f d).core = d.core := rfl
@[simp] theorem Dev.updPort_bpm (n : Nat) (f : Port → Port) (d : Dev) : (Dev.updPort n f d).bpm = d.bpm := rfl
@[simp] theorem Dev.updPort_mem (n : Nat) (f : Port → Port) (d : Dev) : (Dev.updPort n f d).mem = d.mem := rfl
@[simp] theorem Dev.updPort_hif (n : Nat) (f : Port → Port) (d : Dev) : (Dev.updPort n f d).hif = d.hif := rfl
@[simp] theorem Dev.updPort_evr (n : Nat) (f : Port → Port) (d : Dev) : (Dev.updPort n f d).evr = d.evr := rfl
@[simp] theorem Dev.updPort_mod (n : Nat) (f : Port → Port) (d : Dev) : (Dev.updPort n f d).mod = d.mod := rfl
@[simp] theorem Dev.updPort_lane (n : Nat) (f : Port → Port) (d : Dev) : (Dev.updPort n f d).lane = d.lane := rfl
@[simp] theorem Dev.updPort_hln (n : Nat) (f : Port → Port) (d : Dev) : (Dev.updPort n f d).hln = d.hln := rfl
@[simp] theorem Dev.updPort_prf (n : Nat) (f : Port → Port) (d : Dev) : (Dev.updPort n f d).prf = d.prf := rfl
@[simp] theorem Dev.updPort_prfFreeze (n : Nat) (f : Port → Port) (d : Dev) : (Dev.updPort n f d).prfFreeze = d.prfFreeze := rfl
@[simp] theorem Dev.updPort_prfHigh (n : Nat) (f : Port → Port) (d : Dev) : (Dev.updPort n f d).prfHigh = d.prfHigh := rfl
@[simp] theorem Dev.updPort_fls (n : Nat) (f : Port → Port) (d : Dev) : (Dev.updPort n f d).fls = d.fls := rfl
@[simp] theorem Dev.updPort_i3c (n : Nat) (f : Port → Port) (d : Dev) : (Dev.updPort n f d).i3c = d.i3c := rfl
@[simp] theorem Dev.updPort_pins (n : Nat) (f : Port → Port) (d : Dev) : (Dev.updPort n f d).pins = d.pins := rfl
@[simp] theorem Dev.updPort_flt (n : Nat) (f : Port → Port) (d : Dev) : (Dev.updPort n f d).flt = d.flt := rfl
@[simp] theorem Dev.updPort_hold (n : Nat) (f : Port → Port) (d : Dev) : (Dev.updPort n f d).hold = d.hold := rfl

@[simp] theorem Dev.updTck_out (n : Nat) (f : TckPort → TckPort) (d : Dev) : (Dev.updTck n f d).out = d.out := rfl
@[simp] theorem Dev.updTck_fresh (n : Nat) (f : TckPort → TckPort) (d : Dev) : (Dev.updTck n f d).fresh = d.fresh := rfl
@[simp] theorem Dev.updTck_tab (n : Nat) (f : TckPort → TckPort) (d : Dev) : (Dev.updTck n f d).tab = d.tab := rfl
@[simp] theorem Dev.updTck_views (n : Nat) (f : TckPort → TckPort) (d : Dev) : (Dev.updTck n f d).views = d.views := rfl
@[simp] theorem Dev.updTck_port (n : Nat) (f : TckPort → TckPort) (d : Dev) : (Dev.updTck n f d).port = d.port := rfl
@[simp] theorem Dev.updTck_slice (n : Nat) (f : TckPort → TckPort) (d : Dev) : (Dev.updTck n f d).slice = d.slice := rfl
@[simp] theorem Dev.updTck_slt (n : Nat) (f : TckPort → TckPort) (d : Dev) : (Dev.updTck n f d).slt = d.slt := rfl
@[simp] theorem Dev.updTck_sas (n : Nat) (f : TckPort → TckPort) (d : Dev) : (Dev.updTck n f d).sas = d.sas := rfl
@[simp] theorem Dev.updTck_stn (n : Nat) (f : TckPort → TckPort) (d : Dev) : (Dev.updTck n f d).stn = d.stn := rfl
@[simp] theorem Dev.updTck_pat (n : Nat) (f : TckPort → TckPort) (d : Dev) : (Dev.updTck n f d).pat = d.pat := rfl
@[simp] theorem Dev.updTck_keys (n : Nat) (f : TckPort → TckPort) (d : Dev) : (Dev.updTck n f d).keys = d.keys := rfl
@[simp] theorem Dev.updTck_twn (n : Nat) (f : TckPort → TckPort) (d : Dev) : (Dev.updTck n f d).twn = d.twn := rfl
@[simp] theorem Dev.updTck_core (n : Nat) (f : TckPort → TckPort) (d : Dev) : (Dev.updTck n f d).core = d.core := rfl
@[simp] theorem Dev.updTck_bpm (n : Nat) (f : TckPort → TckPort) (d : Dev) : (Dev.updTck n f d).bpm = d.bpm := rfl
@[simp] theorem Dev.updTck_mem (n : Nat) (f : TckPort → TckPort) (d : Dev) : (Dev.updTck n f d).mem = d.mem := rfl
@[simp] theorem Dev.updTck_hif (n : Nat) (f : TckPort → TckPort) (d : Dev) : (Dev.updTck n f d).hif = d.hif := rfl
@[simp] theorem Dev.updTck_evr (n : Nat) (f : TckPort → TckPort) (d : Dev) : (Dev.updTck n f d).evr = d.evr := rfl
@[simp] theorem Dev.updTck_mod (n : Nat) (f : TckPort → TckPort) (d : Dev) : (Dev.updTck n f d).mod = d.mod := rfl
@[simp] theorem Dev.updTck_lane (n : Nat) (f : TckPort → TckPort) (d : Dev) : (Dev.updTck n f d).lane = d.lane := rfl
@[simp] theorem Dev.updTck_hln (n : Nat) (f : TckPort → TckPort) (d : Dev) : (Dev.updTck n f d).hln = d.hln := rfl
@[simp] theorem Dev.updTck_prf (n : Nat) (f : TckPort → TckPort) (d : Dev) : (Dev.updTck n f d).prf = d.prf := rfl
@[simp] theorem Dev.updTck_prfFreeze (n : Nat) (f : TckPort → TckPort) (d : Dev) : (Dev.updTck n f d).prfFreeze = d.prfFreeze := rfl
@[simp] theorem Dev.updTck_prfHigh (n : Nat) (f : TckPort → TckPort) (d : Dev) : (Dev.updTck n f d).prfHigh = d.prfHigh := rfl
@[simp] theorem Dev.updTck_fls (n : Nat) (f : TckPort → TckPort) (d : Dev) : (Dev.updTck n f d).fls = d.fls := rfl
@[simp] theorem Dev.updTck_i3c (n : Nat) (f : TckPort → TckPort) (d : Dev) : (Dev.updTck n f d).i3c = d.i3c := rfl
@[simp] theorem Dev.updTck_pins (n : Nat) (f : TckPort → TckPort) (d : Dev) : (Dev.updTck n f d).pins = d.pins := rfl
@[simp] theorem Dev.updTck_flt (n : Nat) (f : TckPort → TckPort) (d : Dev) : (Dev.updTck n f d).flt = d.flt := rfl
@[simp] theorem Dev.updTck_hold (n : Nat) (f : TckPort → TckPort) (d : Dev) : (Dev.updTck n f d).hold = d.hold := rfl

@[simp] theorem Dev.updTwn_out (n : Nat) (f : TwnPort → TwnPort) (d : Dev) : (Dev.updTwn n f d).out = d.out := rfl
@[simp] theorem Dev.updTwn_fresh (n : Nat) (f : TwnPort → TwnPort) (d : Dev) : (Dev.updTwn n f d).fresh = d.fresh := rfl
@[simp] theorem Dev.updTwn_tab (n : Nat) (f : TwnPort → TwnPort) (d : Dev) : (Dev.updTwn n f d).tab = d.tab := rfl
@[simp] theorem Dev.updTwn_views (n : Nat) (f : TwnPort → TwnPort) (d : Dev) : (Dev.updTwn n f d).views = d.views := rfl
@[simp] theorem Dev.updTwn_tck (n : Nat) (f : TwnPort → TwnPort) (d : Dev) : (Dev.updTwn n f d).tck = d.tck := rfl
@[simp] theorem Dev.updTwn_port (n : Nat) (f : TwnPort → TwnPort) (d : Dev) : (Dev.updTwn n f d).port = d.port := rfl
@[simp] theorem Dev.updTwn_slice (n : Nat) (f : TwnPort → TwnPort) (d : Dev) : (Dev.updTwn n f d).slice = d.slice := rfl
@[simp] theorem Dev.updTwn_slt (n : Nat) (f : TwnPort → TwnPort) (d : Dev) : (Dev.updTwn n f d).slt = d.slt := rfl
@[simp] theorem Dev.updTwn_sas (n : Nat) (f : TwnPort → TwnPort) (d : Dev) : (Dev.updTwn n f d).sas = d.sas := rfl
@[simp] theorem Dev.updTwn_stn (n : Nat) (f : TwnPort → TwnPort) (d : Dev) : (Dev.updTwn n f d).stn = d.stn := rfl
@[simp] theorem Dev.updTwn_pat (n : Nat) (f : TwnPort → TwnPort) (d : Dev) : (Dev.updTwn n f d).pat = d.pat := rfl
@[simp] theorem Dev.updTwn_keys (n : Nat) (f : TwnPort → TwnPort) (d : Dev) : (Dev.updTwn n f d).keys = d.keys := rfl
@[simp] theorem Dev.updTwn_core (n : Nat) (f : TwnPort → TwnPort) (d : Dev) : (Dev.updTwn n f d).core = d.core := rfl
@[simp] theorem Dev.updTwn_bpm (n : Nat) (f : TwnPort → TwnPort) (d : Dev) : (Dev.updTwn n f d).bpm = d.bpm := rfl
@[simp] theorem Dev.updTwn_mem (n : Nat) (f : TwnPort → TwnPort) (d : Dev) : (Dev.updTwn n f d).mem = d.mem := rfl
@[simp] theorem Dev.updTwn_hif (n : Nat) (f : TwnPort → TwnPort) (d : Dev) : (Dev.updTwn n f d).hif = d.hif := rfl
@[simp] theorem Dev.updTwn_evr (n : Nat) (f : TwnPort → TwnPort) (d : Dev) : (Dev.updTwn n f d).evr = d.evr := rfl
@[simp] theorem Dev.updTwn_mod (n : Nat) (f : TwnPort → TwnPort) (d : Dev) : (Dev.updTwn n f d).mod = d.mod := rfl
@[simp] theorem Dev.updTwn_lane (n : Nat) (f : TwnPort → TwnPort) (d : Dev) : (Dev.updTwn n f d).lane = d.lane := rfl
@[simp] theorem Dev.updTwn_hln (n : Nat) (f : TwnPort → TwnPort) (d : Dev) : (Dev.updTwn n f d).hln = d.hln := rfl
@[simp] theorem Dev.updTwn_prf (n : Nat) (f : TwnPort → TwnPort) (d : Dev) : (Dev.updTwn n f d).prf = d.prf := rfl
@[simp] theorem Dev.updTwn_prfFreeze (n : Nat) (f : TwnPort → TwnPort) (d : Dev) : (Dev.updTwn n f d).prfFreeze = d.prfFreeze := rfl
@[simp] theorem Dev.updTwn_prfHigh (n : Nat) (f : TwnPort → TwnPort) (d : Dev) : (Dev.updTwn n f d).prfHigh = d.prfHigh := rfl
@[simp] theorem Dev.updTwn_fls (n : Nat) (f : TwnPort → TwnPort) (d : Dev) : (Dev.updTwn n f d).fls = d.fls := rfl
@[simp] theorem Dev.updTwn_i3c (n : Nat) (f : TwnPort → TwnPort) (d : Dev) : (Dev.updTwn n f d).i3c = d.i3c := rfl
@[simp] theorem Dev.updTwn_pins (n : Nat) (f : TwnPort → TwnPort) (d : Dev) : (Dev.updTwn n f d).pins = d.pins := rfl
@[simp] theorem Dev.updTwn_flt (n : Nat) (f : TwnPort → TwnPort) (d : Dev) : (Dev.updTwn n f d).flt = d.flt := rfl
@[simp] theorem Dev.updTwn_hold (n : Nat) (f : TwnPort → TwnPort) (d : Dev) : (Dev.updTwn n f d).hold = d.hold := rfl

@[simp] theorem Dev.updHp_out (n : Nat) (f : HpPort → HpPort) (d : Dev) : (Dev.updHp n f d).out = d.out := rfl
@[simp] theorem Dev.updHp_fresh (n : Nat) (f : HpPort → HpPort) (d : Dev) : (Dev.updHp n f d).fresh = d.fresh := rfl
@[simp] theorem Dev.updHp_tab (n : Nat) (f : HpPort → HpPort) (d : Dev) : (Dev.updHp n f d).tab = d.tab := rfl
@[simp] theorem Dev.updHp_views (n : Nat) (f : HpPort → HpPort) (d : Dev) : (Dev.updHp n f d).views = d.views := rfl
@[simp] theorem Dev.updHp_tck (n : Nat) (f : HpPort → HpPort) (d : Dev) : (Dev.updHp n f d).tck = d.tck := rfl
@[simp] theorem Dev.updHp_port (n : Nat) (f : HpPort → HpPort) (d : Dev) : (Dev.updHp n f d).port = d.port := rfl
@[simp] theorem Dev.updHp_slice (n : Nat) (f : HpPort → HpPort) (d : Dev) : (Dev.updHp n f d).slice = d.slice := rfl
@[simp] theorem Dev.updHp_slt (n : Nat) (f : HpPort → HpPort) (d : Dev) : (Dev.updHp n f d).slt = d.slt := rfl
@[simp] theorem Dev.updHp_sas (n : Nat) (f : HpPort → HpPort) (d : Dev) : (Dev.updHp n f d).sas = d.sas := rfl
@[simp] theorem Dev.updHp_stn (n : Nat) (f : HpPort → HpPort) (d : Dev) : (Dev.updHp n f d).stn = d.stn := rfl
@[simp] theorem Dev.updHp_pat (n : Nat) (f : HpPort → HpPort) (d : Dev) : (Dev.updHp n f d).pat = d.pat := rfl
@[simp] theorem Dev.updHp_keys (n : Nat) (f : HpPort → HpPort) (d : Dev) : (Dev.updHp n f d).keys = d.keys := rfl
@[simp] theorem Dev.updHp_core (n : Nat) (f : HpPort → HpPort) (d : Dev) : (Dev.updHp n f d).core = d.core := rfl
@[simp] theorem Dev.updHp_bpm (n : Nat) (f : HpPort → HpPort) (d : Dev) : (Dev.updHp n f d).bpm = d.bpm := rfl
@[simp] theorem Dev.updHp_mem (n : Nat) (f : HpPort → HpPort) (d : Dev) : (Dev.updHp n f d).mem = d.mem := rfl
@[simp] theorem Dev.updHp_hif (n : Nat) (f : HpPort → HpPort) (d : Dev) : (Dev.updHp n f d).hif = d.hif := rfl
@[simp] theorem Dev.updHp_evr (n : Nat) (f : HpPort → HpPort) (d : Dev) : (Dev.updHp n f d).evr = d.evr := rfl
@[simp] theorem Dev.updHp_mod (n : Nat) (f : HpPort → HpPort) (d : Dev) : (Dev.updHp n f d).mod = d.mod := rfl
@[simp] theorem Dev.updHp_lane (n : Nat) (f : HpPort → HpPort) (d : Dev) : (Dev.updHp n f d).lane = d.lane := rfl
@[simp] theorem Dev.updHp_hln (n : Nat) (f : HpPort → HpPort) (d : Dev) : (Dev.updHp n f d).hln = d.hln := rfl
@[simp] theorem Dev.updHp_prf (n : Nat) (f : HpPort → HpPort) (d : Dev) : (Dev.updHp n f d).prf = d.prf := rfl
@[simp] theorem Dev.updHp_prfFreeze (n : Nat) (f : HpPort → HpPort) (d : Dev) : (Dev.updHp n f d).prfFreeze = d.prfFreeze := rfl
@[simp] theorem Dev.updHp_prfHigh (n : Nat) (f : HpPort → HpPort) (d : Dev) : (Dev.updHp n f d).prfHigh = d.prfHigh := rfl
@[simp] theorem Dev.updHp_fls (n : Nat) (f : HpPort → HpPort) (d : Dev) : (Dev.updHp n f d).fls = d.fls := rfl
@[simp] theorem Dev.updHp_i3c (n : Nat) (f : HpPort → HpPort) (d : Dev) : (Dev.updHp n f d).i3c = d.i3c := rfl
@[simp] theorem Dev.updHp_pins (n : Nat) (f : HpPort → HpPort) (d : Dev) : (Dev.updHp n f d).pins = d.pins := rfl
@[simp] theorem Dev.updHp_flt (n : Nat) (f : HpPort → HpPort) (d : Dev) : (Dev.updHp n f d).flt = d.flt := rfl
@[simp] theorem Dev.updHp_hold (n : Nat) (f : HpPort → HpPort) (d : Dev) : (Dev.updHp n f d).hold = d.hold := rfl

@[simp] theorem Dev.updSlice_out (n : Nat) (f : Slice → Slice) (d : Dev) : (Dev.updSlice n f d).out = d.out := rfl
@[simp] theorem Dev.updSlice_fresh (n : Nat) (f : Slice → Slice) (d : Dev) : (Dev.updSlice n f d).fresh = d.fresh := rfl
@[simp] theorem Dev.updSlice_tab (n : Nat) (f : Slice → Slice) (d : Dev) : (Dev.updSlice n f d).tab = d.tab := rfl
@[simp] theorem Dev.updSlice_views (n : Nat) (f : Slice → Slice) (d : Dev) : (Dev.updSlice n f d).views = d.views := rfl
@[simp] theorem Dev.updSlice_tck (n : Nat) (f : Slice → Slice) (d : Dev) : (Dev.updSlice n f d).tck = d.tck := rfl
@[simp] theorem Dev.updSlice_port (n : Nat) (f : Slice → Slice) (d : Dev) : (Dev.updSlice n f d).port = d.port := rfl
@[simp] theorem Dev.updSlice_slt (n : Nat) (f : Slice → Slice) (d : Dev) : (Dev.updSlice n f d).slt = d.slt := rfl
@[simp] theorem Dev.updSlice_sas (n : Nat) (f : Slice → Slice) (d : Dev) : (Dev.updSlice n f d).sas = d.sas := rfl
@[simp] theorem Dev.updSlice_stn (n : Nat) (f : Slice → Slice) (d : Dev) : (Dev.updSlice n f d).stn = d.stn := rfl
@[simp] theorem Dev.updSlice_pat (n : Nat) (f : Slice → Slice) (d : Dev) : (Dev.updSlice n f d).pat = d.pat := rfl
@[simp] theorem Dev.updSlice_keys (n : Nat) (f : Slice → Slice) (d : Dev) : (Dev.updSlice n f d).keys = d.keys := rfl
@[simp] theorem Dev.updSlice_twn (n : Nat) (f : Slice → Slice) (d : Dev) : (Dev.updSlice n f d).twn = d.twn := rfl
@[simp] theorem Dev.updSlice_core (n : Nat) (f : Slice → Slice) (d : Dev) : (Dev.updSlice n f d).core = d.core := rfl
@[simp] theorem Dev.updSlice_bpm (n : Nat) (f : Slice → Slice) (d : Dev) : (Dev.updSlice n f d).bpm = d.bpm := rfl
@[simp] theorem Dev.updSlice_mem (n : Nat) (f : Slice → Slice) (d : Dev) : (Dev.updSlice n f d).mem = d.mem := rfl
@[simp] theorem Dev.updSlice_hif (n : Nat) (f : Slice → Slice) (d : Dev) : (Dev.updSlice n f d).hif = d.hif := rfl
@[simp] theorem Dev.updSlice_evr (n : Nat) (f : Slice → Slice) (d : Dev) : (Dev.updSlice n f d).evr = d.evr := rfl
@[simp] theorem Dev.updSlice_mod (n : Nat) (f : Slice → Slice) (d : Dev) : (Dev.updSlice n f d).mod = d.mod := rfl
@[simp] theorem Dev.updSlice_lane (n : Nat) (f : Slice → Slice) (d : Dev) : (Dev.updSlice n f d).lane = d.lane := rfl
@[simp] theorem Dev.updSlice_hln (n : Nat) (f : Slice → Slice) (d : Dev) : (Dev.updSlice n f d).hln = d.hln := rfl
@[simp] theorem Dev.updSlice_prf (n : Nat) (f : Slice → Slice) (d : Dev) : (Dev.updSlice n f d).prf = d.prf := rfl
@[simp] theorem Dev.updSlice_prfFreeze (n : Nat) (f : Slice → Slice) (d : Dev) : (Dev.updSlice n f d).prfFreeze = d.prfFreeze := rfl
@[simp] theorem Dev.updSlice_prfHigh (n : Nat) (f : Slice → Slice) (d : Dev) : (Dev.updSlice n f d).prfHigh = d.prfHigh := rfl
@[simp] theorem Dev.updSlice_fls (n : Nat) (f : Slice → Slice) (d : Dev) : (Dev.updSlice n f d).fls = d.fls := rfl
@[simp] theorem Dev.updSlice_i3c (n : Nat) (f : Slice → Slice) (d : Dev) : (Dev.updSlice n f d).i3c = d.i3c := rfl
@[simp] theorem Dev.updSlice_pins (n : Nat) (f : Slice → Slice) (d : Dev) : (Dev.updSlice n f d).pins = d.pins := rfl
@[simp] theorem Dev.updSlice_flt (n : Nat) (f : Slice → Slice) (d : Dev) : (Dev.updSlice n f d).flt = d.flt := rfl
@[simp] theorem Dev.updSlice_hold (n : Nat) (f : Slice → Slice) (d : Dev) : (Dev.updSlice n f d).hold = d.hold := rfl

@[simp] theorem Dev.updCore_out (n : Nat) (f : Core → Core) (d : Dev) : (Dev.updCore n f d).out = d.out := rfl
@[simp] theorem Dev.updCore_fresh (n : Nat) (f : Core → Core) (d : Dev) : (Dev.updCore n f d).fresh = d.fresh := rfl
@[simp] theorem Dev.updCore_tab (n : Nat) (f : Core → Core) (d : Dev) : (Dev.updCore n f d).tab = d.tab := rfl
@[simp] theorem Dev.updCore_views (n : Nat) (f : Core → Core) (d : Dev) : (Dev.updCore n f d).views = d.views := rfl
@[simp] theorem Dev.updCore_tck (n : Nat) (f : Core → Core) (d : Dev) : (Dev.updCore n f d).tck = d.tck := rfl
@[simp] theorem Dev.updCore_port (n : Nat) (f : Core → Core) (d : Dev) : (Dev.updCore n f d).port = d.port := rfl
@[simp] theorem Dev.updCore_slice (n : Nat) (f : Core → Core) (d : Dev) : (Dev.updCore n f d).slice = d.slice := rfl
@[simp] theorem Dev.updCore_slt (n : Nat) (f : Core → Core) (d : Dev) : (Dev.updCore n f d).slt = d.slt := rfl
@[simp] theorem Dev.updCore_sas (n : Nat) (f : Core → Core) (d : Dev) : (Dev.updCore n f d).sas = d.sas := rfl
@[simp] theorem Dev.updCore_stn (n : Nat) (f : Core → Core) (d : Dev) : (Dev.updCore n f d).stn = d.stn := rfl
@[simp] theorem Dev.updCore_pat (n : Nat) (f : Core → Core) (d : Dev) : (Dev.updCore n f d).pat = d.pat := rfl
@[simp] theorem Dev.updCore_keys (n : Nat) (f : Core → Core) (d : Dev) : (Dev.updCore n f d).keys = d.keys := rfl
@[simp] theorem Dev.updCore_twn (n : Nat) (f : Core → Core) (d : Dev) : (Dev.updCore n f d).twn = d.twn := rfl
@[simp] theorem Dev.updCore_bpm (n : Nat) (f : Core → Core) (d : Dev) : (Dev.updCore n f d).bpm = d.bpm := rfl
@[simp] theorem Dev.updCore_mem (n : Nat) (f : Core → Core) (d : Dev) : (Dev.updCore n f d).mem = d.mem := rfl
@[simp] theorem Dev.updCore_hif (n : Nat) (f : Core → Core) (d : Dev) : (Dev.updCore n f d).hif = d.hif := rfl
@[simp] theorem Dev.updCore_evr (n : Nat) (f : Core → Core) (d : Dev) : (Dev.updCore n f d).evr = d.evr := rfl
@[simp] theorem Dev.updCore_mod (n : Nat) (f : Core → Core) (d : Dev) : (Dev.updCore n f d).mod = d.mod := rfl
@[simp] theorem Dev.updCore_lane (n : Nat) (f : Core → Core) (d : Dev) : (Dev.updCore n f d).lane = d.lane := rfl
@[simp] theorem Dev.updCore_hln (n : Nat) (f : Core → Core) (d : Dev) : (Dev.updCore n f d).hln = d.hln := rfl
@[simp] theorem Dev.updCore_prf (n : Nat) (f : Core → Core) (d : Dev) : (Dev.updCore n f d).prf = d.prf := rfl
@[simp] theorem Dev.updCore_prfFreeze (n : Nat) (f : Core → Core) (d : Dev) : (Dev.updCore n f d).prfFreeze = d.prfFreeze := rfl
@[simp] theorem Dev.updCore_prfHigh (n : Nat) (f : Core → Core) (d : Dev) : (Dev.updCore n f d).prfHigh = d.prfHigh := rfl
@[simp] theorem Dev.updCore_fls (n : Nat) (f : Core → Core) (d : Dev) : (Dev.updCore n f d).fls = d.fls := rfl
@[simp] theorem Dev.updCore_i3c (n : Nat) (f : Core → Core) (d : Dev) : (Dev.updCore n f d).i3c = d.i3c := rfl
@[simp] theorem Dev.updCore_pins (n : Nat) (f : Core → Core) (d : Dev) : (Dev.updCore n f d).pins = d.pins := rfl
@[simp] theorem Dev.updCore_flt (n : Nat) (f : Core → Core) (d : Dev) : (Dev.updCore n f d).flt = d.flt := rfl
@[simp] theorem Dev.updCore_hold (n : Nat) (f : Core → Core) (d : Dev) : (Dev.updCore n f d).hold = d.hold := rfl

@[simp] theorem Dev.updRing_out (n : Nat) (f : Ring → Ring) (d : Dev) : (Dev.updRing n f d).out = d.out := rfl
@[simp] theorem Dev.updRing_fresh (n : Nat) (f : Ring → Ring) (d : Dev) : (Dev.updRing n f d).fresh = d.fresh := rfl
@[simp] theorem Dev.updRing_tab (n : Nat) (f : Ring → Ring) (d : Dev) : (Dev.updRing n f d).tab = d.tab := rfl
@[simp] theorem Dev.updRing_views (n : Nat) (f : Ring → Ring) (d : Dev) : (Dev.updRing n f d).views = d.views := rfl
@[simp] theorem Dev.updRing_tck (n : Nat) (f : Ring → Ring) (d : Dev) : (Dev.updRing n f d).tck = d.tck := rfl
@[simp] theorem Dev.updRing_port (n : Nat) (f : Ring → Ring) (d : Dev) : (Dev.updRing n f d).port = d.port := rfl
@[simp] theorem Dev.updRing_slice (n : Nat) (f : Ring → Ring) (d : Dev) : (Dev.updRing n f d).slice = d.slice := rfl
@[simp] theorem Dev.updRing_slt (n : Nat) (f : Ring → Ring) (d : Dev) : (Dev.updRing n f d).slt = d.slt := rfl
@[simp] theorem Dev.updRing_sas (n : Nat) (f : Ring → Ring) (d : Dev) : (Dev.updRing n f d).sas = d.sas := rfl
@[simp] theorem Dev.updRing_stn (n : Nat) (f : Ring → Ring) (d : Dev) : (Dev.updRing n f d).stn = d.stn := rfl
@[simp] theorem Dev.updRing_pat (n : Nat) (f : Ring → Ring) (d : Dev) : (Dev.updRing n f d).pat = d.pat := rfl
@[simp] theorem Dev.updRing_keys (n : Nat) (f : Ring → Ring) (d : Dev) : (Dev.updRing n f d).keys = d.keys := rfl
@[simp] theorem Dev.updRing_twn (n : Nat) (f : Ring → Ring) (d : Dev) : (Dev.updRing n f d).twn = d.twn := rfl
@[simp] theorem Dev.updRing_core (n : Nat) (f : Ring → Ring) (d : Dev) : (Dev.updRing n f d).core = d.core := rfl
@[simp] theorem Dev.updRing_bpm (n : Nat) (f : Ring → Ring) (d : Dev) : (Dev.updRing n f d).bpm = d.bpm := rfl
@[simp] theorem Dev.updRing_mem (n : Nat) (f : Ring → Ring) (d : Dev) : (Dev.updRing n f d).mem = d.mem := rfl
@[simp] theorem Dev.updRing_evr (n : Nat) (f : Ring → Ring) (d : Dev) : (Dev.updRing n f d).evr = d.evr := rfl
@[simp] theorem Dev.updRing_mod (n : Nat) (f : Ring → Ring) (d : Dev) : (Dev.updRing n f d).mod = d.mod := rfl
@[simp] theorem Dev.updRing_lane (n : Nat) (f : Ring → Ring) (d : Dev) : (Dev.updRing n f d).lane = d.lane := rfl
@[simp] theorem Dev.updRing_hln (n : Nat) (f : Ring → Ring) (d : Dev) : (Dev.updRing n f d).hln = d.hln := rfl
@[simp] theorem Dev.updRing_prf (n : Nat) (f : Ring → Ring) (d : Dev) : (Dev.updRing n f d).prf = d.prf := rfl
@[simp] theorem Dev.updRing_prfFreeze (n : Nat) (f : Ring → Ring) (d : Dev) : (Dev.updRing n f d).prfFreeze = d.prfFreeze := rfl
@[simp] theorem Dev.updRing_prfHigh (n : Nat) (f : Ring → Ring) (d : Dev) : (Dev.updRing n f d).prfHigh = d.prfHigh := rfl
@[simp] theorem Dev.updRing_fls (n : Nat) (f : Ring → Ring) (d : Dev) : (Dev.updRing n f d).fls = d.fls := rfl
@[simp] theorem Dev.updRing_i3c (n : Nat) (f : Ring → Ring) (d : Dev) : (Dev.updRing n f d).i3c = d.i3c := rfl
@[simp] theorem Dev.updRing_pins (n : Nat) (f : Ring → Ring) (d : Dev) : (Dev.updRing n f d).pins = d.pins := rfl
@[simp] theorem Dev.updRing_flt (n : Nat) (f : Ring → Ring) (d : Dev) : (Dev.updRing n f d).flt = d.flt := rfl
@[simp] theorem Dev.updRing_hold (n : Nat) (f : Ring → Ring) (d : Dev) : (Dev.updRing n f d).hold = d.hold := rfl

@[simp] theorem Dev.updInj_out (n : Nat) (f : InjQ → InjQ) (d : Dev) : (Dev.updInj n f d).out = d.out := rfl
@[simp] theorem Dev.updInj_fresh (n : Nat) (f : InjQ → InjQ) (d : Dev) : (Dev.updInj n f d).fresh = d.fresh := rfl
@[simp] theorem Dev.updInj_tab (n : Nat) (f : InjQ → InjQ) (d : Dev) : (Dev.updInj n f d).tab = d.tab := rfl
@[simp] theorem Dev.updInj_views (n : Nat) (f : InjQ → InjQ) (d : Dev) : (Dev.updInj n f d).views = d.views := rfl
@[simp] theorem Dev.updInj_tck (n : Nat) (f : InjQ → InjQ) (d : Dev) : (Dev.updInj n f d).tck = d.tck := rfl
@[simp] theorem Dev.updInj_port (n : Nat) (f : InjQ → InjQ) (d : Dev) : (Dev.updInj n f d).port = d.port := rfl
@[simp] theorem Dev.updInj_slice (n : Nat) (f : InjQ → InjQ) (d : Dev) : (Dev.updInj n f d).slice = d.slice := rfl
@[simp] theorem Dev.updInj_slt (n : Nat) (f : InjQ → InjQ) (d : Dev) : (Dev.updInj n f d).slt = d.slt := rfl
@[simp] theorem Dev.updInj_sas (n : Nat) (f : InjQ → InjQ) (d : Dev) : (Dev.updInj n f d).sas = d.sas := rfl
@[simp] theorem Dev.updInj_stn (n : Nat) (f : InjQ → InjQ) (d : Dev) : (Dev.updInj n f d).stn = d.stn := rfl
@[simp] theorem Dev.updInj_pat (n : Nat) (f : InjQ → InjQ) (d : Dev) : (Dev.updInj n f d).pat = d.pat := rfl
@[simp] theorem Dev.updInj_keys (n : Nat) (f : InjQ → InjQ) (d : Dev) : (Dev.updInj n f d).keys = d.keys := rfl
@[simp] theorem Dev.updInj_twn (n : Nat) (f : InjQ → InjQ) (d : Dev) : (Dev.updInj n f d).twn = d.twn := rfl
@[simp] theorem Dev.updInj_core (n : Nat) (f : InjQ → InjQ) (d : Dev) : (Dev.updInj n f d).core = d.core := rfl
@[simp] theorem Dev.updInj_bpm (n : Nat) (f : InjQ → InjQ) (d : Dev) : (Dev.updInj n f d).bpm = d.bpm := rfl
@[simp] theorem Dev.updInj_mem (n : Nat) (f : InjQ → InjQ) (d : Dev) : (Dev.updInj n f d).mem = d.mem := rfl
@[simp] theorem Dev.updInj_evr (n : Nat) (f : InjQ → InjQ) (d : Dev) : (Dev.updInj n f d).evr = d.evr := rfl
@[simp] theorem Dev.updInj_mod (n : Nat) (f : InjQ → InjQ) (d : Dev) : (Dev.updInj n f d).mod = d.mod := rfl
@[simp] theorem Dev.updInj_lane (n : Nat) (f : InjQ → InjQ) (d : Dev) : (Dev.updInj n f d).lane = d.lane := rfl
@[simp] theorem Dev.updInj_hln (n : Nat) (f : InjQ → InjQ) (d : Dev) : (Dev.updInj n f d).hln = d.hln := rfl
@[simp] theorem Dev.updInj_prf (n : Nat) (f : InjQ → InjQ) (d : Dev) : (Dev.updInj n f d).prf = d.prf := rfl
@[simp] theorem Dev.updInj_prfFreeze (n : Nat) (f : InjQ → InjQ) (d : Dev) : (Dev.updInj n f d).prfFreeze = d.prfFreeze := rfl
@[simp] theorem Dev.updInj_prfHigh (n : Nat) (f : InjQ → InjQ) (d : Dev) : (Dev.updInj n f d).prfHigh = d.prfHigh := rfl
@[simp] theorem Dev.updInj_fls (n : Nat) (f : InjQ → InjQ) (d : Dev) : (Dev.updInj n f d).fls = d.fls := rfl
@[simp] theorem Dev.updInj_i3c (n : Nat) (f : InjQ → InjQ) (d : Dev) : (Dev.updInj n f d).i3c = d.i3c := rfl
@[simp] theorem Dev.updInj_pins (n : Nat) (f : InjQ → InjQ) (d : Dev) : (Dev.updInj n f d).pins = d.pins := rfl
@[simp] theorem Dev.updInj_flt (n : Nat) (f : InjQ → InjQ) (d : Dev) : (Dev.updInj n f d).flt = d.flt := rfl
@[simp] theorem Dev.updInj_hold (n : Nat) (f : InjQ → InjQ) (d : Dev) : (Dev.updInj n f d).hold = d.hold := rfl

@[simp] theorem Dev.updExt_out (n : Nat) (f : ExtQ → ExtQ) (d : Dev) : (Dev.updExt n f d).out = d.out := rfl
@[simp] theorem Dev.updExt_fresh (n : Nat) (f : ExtQ → ExtQ) (d : Dev) : (Dev.updExt n f d).fresh = d.fresh := rfl
@[simp] theorem Dev.updExt_tab (n : Nat) (f : ExtQ → ExtQ) (d : Dev) : (Dev.updExt n f d).tab = d.tab := rfl
@[simp] theorem Dev.updExt_views (n : Nat) (f : ExtQ → ExtQ) (d : Dev) : (Dev.updExt n f d).views = d.views := rfl
@[simp] theorem Dev.updExt_tck (n : Nat) (f : ExtQ → ExtQ) (d : Dev) : (Dev.updExt n f d).tck = d.tck := rfl
@[simp] theorem Dev.updExt_port (n : Nat) (f : ExtQ → ExtQ) (d : Dev) : (Dev.updExt n f d).port = d.port := rfl
@[simp] theorem Dev.updExt_slice (n : Nat) (f : ExtQ → ExtQ) (d : Dev) : (Dev.updExt n f d).slice = d.slice := rfl
@[simp] theorem Dev.updExt_slt (n : Nat) (f : ExtQ → ExtQ) (d : Dev) : (Dev.updExt n f d).slt = d.slt := rfl
@[simp] theorem Dev.updExt_sas (n : Nat) (f : ExtQ → ExtQ) (d : Dev) : (Dev.updExt n f d).sas = d.sas := rfl
@[simp] theorem Dev.updExt_stn (n : Nat) (f : ExtQ → ExtQ) (d : Dev) : (Dev.updExt n f d).stn = d.stn := rfl
@[simp] theorem Dev.updExt_pat (n : Nat) (f : ExtQ → ExtQ) (d : Dev) : (Dev.updExt n f d).pat = d.pat := rfl
@[simp] theorem Dev.updExt_keys (n : Nat) (f : ExtQ → ExtQ) (d : Dev) : (Dev.updExt n f d).keys = d.keys := rfl
@[simp] theorem Dev.updExt_twn (n : Nat) (f : ExtQ → ExtQ) (d : Dev) : (Dev.updExt n f d).twn = d.twn := rfl
@[simp] theorem Dev.updExt_core (n : Nat) (f : ExtQ → ExtQ) (d : Dev) : (Dev.updExt n f d).core = d.core := rfl
@[simp] theorem Dev.updExt_bpm (n : Nat) (f : ExtQ → ExtQ) (d : Dev) : (Dev.updExt n f d).bpm = d.bpm := rfl
@[simp] theorem Dev.updExt_mem (n : Nat) (f : ExtQ → ExtQ) (d : Dev) : (Dev.updExt n f d).mem = d.mem := rfl
@[simp] theorem Dev.updExt_evr (n : Nat) (f : ExtQ → ExtQ) (d : Dev) : (Dev.updExt n f d).evr = d.evr := rfl
@[simp] theorem Dev.updExt_mod (n : Nat) (f : ExtQ → ExtQ) (d : Dev) : (Dev.updExt n f d).mod = d.mod := rfl
@[simp] theorem Dev.updExt_lane (n : Nat) (f : ExtQ → ExtQ) (d : Dev) : (Dev.updExt n f d).lane = d.lane := rfl
@[simp] theorem Dev.updExt_hln (n : Nat) (f : ExtQ → ExtQ) (d : Dev) : (Dev.updExt n f d).hln = d.hln := rfl
@[simp] theorem Dev.updExt_prf (n : Nat) (f : ExtQ → ExtQ) (d : Dev) : (Dev.updExt n f d).prf = d.prf := rfl
@[simp] theorem Dev.updExt_prfFreeze (n : Nat) (f : ExtQ → ExtQ) (d : Dev) : (Dev.updExt n f d).prfFreeze = d.prfFreeze := rfl
@[simp] theorem Dev.updExt_prfHigh (n : Nat) (f : ExtQ → ExtQ) (d : Dev) : (Dev.updExt n f d).prfHigh = d.prfHigh := rfl
@[simp] theorem Dev.updExt_fls (n : Nat) (f : ExtQ → ExtQ) (d : Dev) : (Dev.updExt n f d).fls = d.fls := rfl
@[simp] theorem Dev.updExt_i3c (n : Nat) (f : ExtQ → ExtQ) (d : Dev) : (Dev.updExt n f d).i3c = d.i3c := rfl
@[simp] theorem Dev.updExt_pins (n : Nat) (f : ExtQ → ExtQ) (d : Dev) : (Dev.updExt n f d).pins = d.pins := rfl
@[simp] theorem Dev.updExt_flt (n : Nat) (f : ExtQ → ExtQ) (d : Dev) : (Dev.updExt n f d).flt = d.flt := rfl
@[simp] theorem Dev.updExt_hold (n : Nat) (f : ExtQ → ExtQ) (d : Dev) : (Dev.updExt n f d).hold = d.hold := rfl

@[simp] theorem Dev.updSlt_out (n : Nat) (f : SltPort → SltPort) (d : Dev) : (Dev.updSlt n f d).out = d.out := rfl
@[simp] theorem Dev.updSlt_fresh (n : Nat) (f : SltPort → SltPort) (d : Dev) : (Dev.updSlt n f d).fresh = d.fresh := rfl
@[simp] theorem Dev.updSlt_tab (n : Nat) (f : SltPort → SltPort) (d : Dev) : (Dev.updSlt n f d).tab = d.tab := rfl
@[simp] theorem Dev.updSlt_views (n : Nat) (f : SltPort → SltPort) (d : Dev) : (Dev.updSlt n f d).views = d.views := rfl
@[simp] theorem Dev.updSlt_tck (n : Nat) (f : SltPort → SltPort) (d : Dev) : (Dev.updSlt n f d).tck = d.tck := rfl
@[simp] theorem Dev.updSlt_port (n : Nat) (f : SltPort → SltPort) (d : Dev) : (Dev.updSlt n f d).port = d.port := rfl
@[simp] theorem Dev.updSlt_slice (n : Nat) (f : SltPort → SltPort) (d : Dev) : (Dev.updSlt n f d).slice = d.slice := rfl
@[simp] theorem Dev.updSlt_sas (n : Nat) (f : SltPort → SltPort) (d : Dev) : (Dev.updSlt n f d).sas = d.sas := rfl
@[simp] theorem Dev.updSlt_stn (n : Nat) (f : SltPort → SltPort) (d : Dev) : (Dev.updSlt n f d).stn = d.stn := rfl
@[simp] theorem Dev.updSlt_pat (n : Nat) (f : SltPort → SltPort) (d : Dev) : (Dev.updSlt n f d).pat = d.pat := rfl
@[simp] theorem Dev.updSlt_keys (n : Nat) (f : SltPort → SltPort) (d : Dev) : (Dev.updSlt n f d).keys = d.keys := rfl
@[simp] theorem Dev.updSlt_twn (n : Nat) (f : SltPort → SltPort) (d : Dev) : (Dev.updSlt n f d).twn = d.twn := rfl
@[simp] theorem Dev.updSlt_core (n : Nat) (f : SltPort → SltPort) (d : Dev) : (Dev.updSlt n f d).core = d.core := rfl
@[simp] theorem Dev.updSlt_bpm (n : Nat) (f : SltPort → SltPort) (d : Dev) : (Dev.updSlt n f d).bpm = d.bpm := rfl
@[simp] theorem Dev.updSlt_mem (n : Nat) (f : SltPort → SltPort) (d : Dev) : (Dev.updSlt n f d).mem = d.mem := rfl
@[simp] theorem Dev.updSlt_hif (n : Nat) (f : SltPort → SltPort) (d : Dev) : (Dev.updSlt n f d).hif = d.hif := rfl
@[simp] theorem Dev.updSlt_evr (n : Nat) (f : SltPort → SltPort) (d : Dev) : (Dev.updSlt n f d).evr = d.evr := rfl
@[simp] theorem Dev.updSlt_mod (n : Nat) (f : SltPort → SltPort) (d : Dev) : (Dev.updSlt n f d).mod = d.mod := rfl
@[simp] theorem Dev.updSlt_lane (n : Nat) (f : SltPort → SltPort) (d : Dev) : (Dev.updSlt n f d).lane = d.lane := rfl
@[simp] theorem Dev.updSlt_hln (n : Nat) (f : SltPort → SltPort) (d : Dev) : (Dev.updSlt n f d).hln = d.hln := rfl
@[simp] theorem Dev.updSlt_prf (n : Nat) (f : SltPort → SltPort) (d : Dev) : (Dev.updSlt n f d).prf = d.prf := rfl
@[simp] theorem Dev.updSlt_prfFreeze (n : Nat) (f : SltPort → SltPort) (d : Dev) : (Dev.updSlt n f d).prfFreeze = d.prfFreeze := rfl
@[simp] theorem Dev.updSlt_prfHigh (n : Nat) (f : SltPort → SltPort) (d : Dev) : (Dev.updSlt n f d).prfHigh = d.prfHigh := rfl
@[simp] theorem Dev.updSlt_fls (n : Nat) (f : SltPort → SltPort) (d : Dev) : (Dev.updSlt n f d).fls = d.fls := rfl
@[simp] theorem Dev.updSlt_i3c (n : Nat) (f : SltPort → SltPort) (d : Dev) : (Dev.updSlt n f d).i3c = d.i3c := rfl
@[simp] theorem Dev.updSlt_pins (n : Nat) (f : SltPort → SltPort) (d : Dev) : (Dev.updSlt n f d).pins = d.pins := rfl
@[simp] theorem Dev.updSlt_flt (n : Nat) (f : SltPort → SltPort) (d : Dev) : (Dev.updSlt n f d).flt = d.flt := rfl
@[simp] theorem Dev.updSlt_hold (n : Nat) (f : SltPort → SltPort) (d : Dev) : (Dev.updSlt n f d).hold = d.hold := rfl

@[simp] theorem Dev.updLane_out (n : Nat) (f : Lane → Lane) (d : Dev) : (Dev.updLane n f d).out = d.out := by unfold Dev.updLane; split <;> rfl
@[simp] theorem Dev.updLane_fresh (n : Nat) (f : Lane → Lane) (d : Dev) : (Dev.updLane n f d).fresh = d.fresh := by unfold Dev.updLane; split <;> rfl
@[simp] theorem Dev.updLane_tab (n : Nat) (f : Lane → Lane) (d : Dev) : (Dev.updLane n f d).tab = d.tab := by unfold Dev.updLane; split <;> rfl
@[simp] theorem Dev.updLane_views (n : Nat) (f : Lane → Lane) (d : Dev) : (Dev.updLane n f d).views = d.views := by unfold Dev.updLane; split <;> rfl
@[simp] theorem Dev.updLane_tck (n : Nat) (f : Lane → Lane) (d : Dev) : (Dev.updLane n f d).tck = d.tck := by unfold Dev.updLane; split <;> rfl
@[simp] theorem Dev.updLane_port (n : Nat) (f : Lane → Lane) (d : Dev) : (Dev.updLane n f d).port = d.port := by unfold Dev.updLane; split <;> rfl
@[simp] theorem Dev.updLane_slice (n : Nat) (f : Lane → Lane) (d : Dev) : (Dev.updLane n f d).slice = d.slice := by unfold Dev.updLane; split <;> rfl
@[simp] theorem Dev.updLane_slt (n : Nat) (f : Lane → Lane) (d : Dev) : (Dev.updLane n f d).slt = d.slt := by unfold Dev.updLane; split <;> rfl
@[simp] theorem Dev.updLane_sas (n : Nat) (f : Lane → Lane) (d : Dev) : (Dev.updLane n f d).sas = d.sas := by unfold Dev.updLane; split <;> rfl
@[simp] theorem Dev.updLane_stn (n : Nat) (f : Lane → Lane) (d : Dev) : (Dev.updLane n f d).stn = d.stn := by unfold Dev.updLane; split <;> rfl
@[simp] theorem Dev.updLane_pat (n : Nat) (f : Lane → Lane) (d : Dev) : (Dev.updLane n f d).pat = d.pat := by unfold Dev.updLane; split <;> rfl
@[simp] theorem Dev.updLane_keys (n : Nat) (f : Lane → Lane) (d : Dev) : (Dev.updLane n f d).keys = d.keys := by unfold Dev.updLane; split <;> rfl
@[simp] theorem Dev.updLane_twn (n : Nat) (f : Lane → Lane) (d : Dev) : (Dev.updLane n f d).twn = d.twn := by unfold Dev.updLane; split <;> rfl
@[simp] theorem Dev.updLane_core (n : Nat) (f : Lane → Lane) (d : Dev) : (Dev.updLane n f d).core = d.core := by unfold Dev.updLane; split <;> rfl
@[simp] theorem Dev.updLane_bpm (n : Nat) (f : Lane → Lane) (d : Dev) : (Dev.updLane n f d).bpm = d.bpm := by unfold Dev.updLane; split <;> rfl
@[simp] theorem Dev.updLane_mem (n : Nat) (f : Lane → Lane) (d : Dev) : (Dev.updLane n f d).mem = d.mem := by unfold Dev.updLane; split <;> rfl
@[simp] theorem Dev.updLane_hif (n : Nat) (f : Lane → Lane) (d : Dev) : (Dev.updLane n f d).hif = d.hif := by unfold Dev.updLane; split <;> rfl
@[simp] theorem Dev.updLane_evr (n : Nat) (f : Lane → Lane) (d : Dev) : (Dev.updLane n f d).evr = d.evr := by unfold Dev.updLane; split <;> rfl
@[simp] theorem Dev.updLane_mod (n : Nat) (f : Lane → Lane) (d : Dev) : (Dev.updLane n f d).mod = d.mod := by unfold Dev.updLane; split <;> rfl
@[simp] theorem Dev.updLane_prf (n : Nat) (f : Lane → Lane) (d : Dev) : (Dev.updLane n f d).prf = d.prf := by unfold Dev.updLane; split <;> rfl
@[simp] theorem Dev.updLane_prfFreeze (n : Nat) (f : Lane → Lane) (d : Dev) : (Dev.updLane n f d).prfFreeze = d.prfFreeze := by unfold Dev.updLane; split <;> rfl
@[simp] theorem Dev.updLane_prfHigh (n : Nat) (f : Lane → Lane) (d : Dev) : (Dev.updLane n f d).prfHigh = d.prfHigh := by unfold Dev.updLane; split <;> rfl
@[simp] theorem Dev.updLane_fls (n : Nat) (f : Lane → Lane) (d : Dev) : (Dev.updLane n f d).fls = d.fls := by unfold Dev.updLane; split <;> rfl
@[simp] theorem Dev.updLane_i3c (n : Nat) (f : Lane → Lane) (d : Dev) : (Dev.updLane n f d).i3c = d.i3c := by unfold Dev.updLane; split <;> rfl
@[simp] theorem Dev.updLane_pins (n : Nat) (f : Lane → Lane) (d : Dev) : (Dev.updLane n f d).pins = d.pins := by unfold Dev.updLane; split <;> rfl
@[simp] theorem Dev.updLane_flt (n : Nat) (f : Lane → Lane) (d : Dev) : (Dev.updLane n f d).flt = d.flt := by unfold Dev.updLane; split <;> rfl
@[simp] theorem Dev.updLane_hold (n : Nat) (f : Lane → Lane) (d : Dev) : (Dev.updLane n f d).hold = d.hold := by unfold Dev.updLane; split <;> rfl

@[simp] theorem Dev.updKek_out (n : Nat) (f : Kek → Kek) (d : Dev) : (Dev.updKek n f d).out = d.out := rfl
@[simp] theorem Dev.updKek_fresh (n : Nat) (f : Kek → Kek) (d : Dev) : (Dev.updKek n f d).fresh = d.fresh := rfl
@[simp] theorem Dev.updKek_tab (n : Nat) (f : Kek → Kek) (d : Dev) : (Dev.updKek n f d).tab = d.tab := rfl
@[simp] theorem Dev.updKek_views (n : Nat) (f : Kek → Kek) (d : Dev) : (Dev.updKek n f d).views = d.views := rfl
@[simp] theorem Dev.updKek_tck (n : Nat) (f : Kek → Kek) (d : Dev) : (Dev.updKek n f d).tck = d.tck := rfl
@[simp] theorem Dev.updKek_port (n : Nat) (f : Kek → Kek) (d : Dev) : (Dev.updKek n f d).port = d.port := rfl
@[simp] theorem Dev.updKek_slice (n : Nat) (f : Kek → Kek) (d : Dev) : (Dev.updKek n f d).slice = d.slice := rfl
@[simp] theorem Dev.updKek_slt (n : Nat) (f : Kek → Kek) (d : Dev) : (Dev.updKek n f d).slt = d.slt := rfl
@[simp] theorem Dev.updKek_sas (n : Nat) (f : Kek → Kek) (d : Dev) : (Dev.updKek n f d).sas = d.sas := rfl
@[simp] theorem Dev.updKek_stn (n : Nat) (f : Kek → Kek) (d : Dev) : (Dev.updKek n f d).stn = d.stn := rfl
@[simp] theorem Dev.updKek_pat (n : Nat) (f : Kek → Kek) (d : Dev) : (Dev.updKek n f d).pat = d.pat := rfl
@[simp] theorem Dev.updKek_twn (n : Nat) (f : Kek → Kek) (d : Dev) : (Dev.updKek n f d).twn = d.twn := rfl
@[simp] theorem Dev.updKek_core (n : Nat) (f : Kek → Kek) (d : Dev) : (Dev.updKek n f d).core = d.core := rfl
@[simp] theorem Dev.updKek_bpm (n : Nat) (f : Kek → Kek) (d : Dev) : (Dev.updKek n f d).bpm = d.bpm := rfl
@[simp] theorem Dev.updKek_mem (n : Nat) (f : Kek → Kek) (d : Dev) : (Dev.updKek n f d).mem = d.mem := rfl
@[simp] theorem Dev.updKek_hif (n : Nat) (f : Kek → Kek) (d : Dev) : (Dev.updKek n f d).hif = d.hif := rfl
@[simp] theorem Dev.updKek_evr (n : Nat) (f : Kek → Kek) (d : Dev) : (Dev.updKek n f d).evr = d.evr := rfl
@[simp] theorem Dev.updKek_mod (n : Nat) (f : Kek → Kek) (d : Dev) : (Dev.updKek n f d).mod = d.mod := rfl
@[simp] theorem Dev.updKek_lane (n : Nat) (f : Kek → Kek) (d : Dev) : (Dev.updKek n f d).lane = d.lane := rfl
@[simp] theorem Dev.updKek_hln (n : Nat) (f : Kek → Kek) (d : Dev) : (Dev.updKek n f d).hln = d.hln := rfl
@[simp] theorem Dev.updKek_prf (n : Nat) (f : Kek → Kek) (d : Dev) : (Dev.updKek n f d).prf = d.prf := rfl
@[simp] theorem Dev.updKek_prfFreeze (n : Nat) (f : Kek → Kek) (d : Dev) : (Dev.updKek n f d).prfFreeze = d.prfFreeze := rfl
@[simp] theorem Dev.updKek_prfHigh (n : Nat) (f : Kek → Kek) (d : Dev) : (Dev.updKek n f d).prfHigh = d.prfHigh := rfl
@[simp] theorem Dev.updKek_fls (n : Nat) (f : Kek → Kek) (d : Dev) : (Dev.updKek n f d).fls = d.fls := rfl
@[simp] theorem Dev.updKek_i3c (n : Nat) (f : Kek → Kek) (d : Dev) : (Dev.updKek n f d).i3c = d.i3c := rfl
@[simp] theorem Dev.updKek_pins (n : Nat) (f : Kek → Kek) (d : Dev) : (Dev.updKek n f d).pins = d.pins := rfl
@[simp] theorem Dev.updKek_flt (n : Nat) (f : Kek → Kek) (d : Dev) : (Dev.updKek n f d).flt = d.flt := rfl
@[simp] theorem Dev.updKek_hold (n : Nat) (f : Kek → Kek) (d : Dev) : (Dev.updKek n f d).hold = d.hold := rfl

@[simp] theorem Dev.updLpk_out (n : Nat) (f : Lpk → Lpk) (d : Dev) : (Dev.updLpk n f d).out = d.out := rfl
@[simp] theorem Dev.updLpk_fresh (n : Nat) (f : Lpk → Lpk) (d : Dev) : (Dev.updLpk n f d).fresh = d.fresh := rfl
@[simp] theorem Dev.updLpk_tab (n : Nat) (f : Lpk → Lpk) (d : Dev) : (Dev.updLpk n f d).tab = d.tab := rfl
@[simp] theorem Dev.updLpk_views (n : Nat) (f : Lpk → Lpk) (d : Dev) : (Dev.updLpk n f d).views = d.views := rfl
@[simp] theorem Dev.updLpk_tck (n : Nat) (f : Lpk → Lpk) (d : Dev) : (Dev.updLpk n f d).tck = d.tck := rfl
@[simp] theorem Dev.updLpk_port (n : Nat) (f : Lpk → Lpk) (d : Dev) : (Dev.updLpk n f d).port = d.port := rfl
@[simp] theorem Dev.updLpk_slice (n : Nat) (f : Lpk → Lpk) (d : Dev) : (Dev.updLpk n f d).slice = d.slice := rfl
@[simp] theorem Dev.updLpk_slt (n : Nat) (f : Lpk → Lpk) (d : Dev) : (Dev.updLpk n f d).slt = d.slt := rfl
@[simp] theorem Dev.updLpk_sas (n : Nat) (f : Lpk → Lpk) (d : Dev) : (Dev.updLpk n f d).sas = d.sas := rfl
@[simp] theorem Dev.updLpk_stn (n : Nat) (f : Lpk → Lpk) (d : Dev) : (Dev.updLpk n f d).stn = d.stn := rfl
@[simp] theorem Dev.updLpk_pat (n : Nat) (f : Lpk → Lpk) (d : Dev) : (Dev.updLpk n f d).pat = d.pat := rfl
@[simp] theorem Dev.updLpk_twn (n : Nat) (f : Lpk → Lpk) (d : Dev) : (Dev.updLpk n f d).twn = d.twn := rfl
@[simp] theorem Dev.updLpk_core (n : Nat) (f : Lpk → Lpk) (d : Dev) : (Dev.updLpk n f d).core = d.core := rfl
@[simp] theorem Dev.updLpk_bpm (n : Nat) (f : Lpk → Lpk) (d : Dev) : (Dev.updLpk n f d).bpm = d.bpm := rfl
@[simp] theorem Dev.updLpk_mem (n : Nat) (f : Lpk → Lpk) (d : Dev) : (Dev.updLpk n f d).mem = d.mem := rfl
@[simp] theorem Dev.updLpk_hif (n : Nat) (f : Lpk → Lpk) (d : Dev) : (Dev.updLpk n f d).hif = d.hif := rfl
@[simp] theorem Dev.updLpk_evr (n : Nat) (f : Lpk → Lpk) (d : Dev) : (Dev.updLpk n f d).evr = d.evr := rfl
@[simp] theorem Dev.updLpk_mod (n : Nat) (f : Lpk → Lpk) (d : Dev) : (Dev.updLpk n f d).mod = d.mod := rfl
@[simp] theorem Dev.updLpk_lane (n : Nat) (f : Lpk → Lpk) (d : Dev) : (Dev.updLpk n f d).lane = d.lane := rfl
@[simp] theorem Dev.updLpk_hln (n : Nat) (f : Lpk → Lpk) (d : Dev) : (Dev.updLpk n f d).hln = d.hln := rfl
@[simp] theorem Dev.updLpk_prf (n : Nat) (f : Lpk → Lpk) (d : Dev) : (Dev.updLpk n f d).prf = d.prf := rfl
@[simp] theorem Dev.updLpk_prfFreeze (n : Nat) (f : Lpk → Lpk) (d : Dev) : (Dev.updLpk n f d).prfFreeze = d.prfFreeze := rfl
@[simp] theorem Dev.updLpk_prfHigh (n : Nat) (f : Lpk → Lpk) (d : Dev) : (Dev.updLpk n f d).prfHigh = d.prfHigh := rfl
@[simp] theorem Dev.updLpk_fls (n : Nat) (f : Lpk → Lpk) (d : Dev) : (Dev.updLpk n f d).fls = d.fls := rfl
@[simp] theorem Dev.updLpk_i3c (n : Nat) (f : Lpk → Lpk) (d : Dev) : (Dev.updLpk n f d).i3c = d.i3c := rfl
@[simp] theorem Dev.updLpk_pins (n : Nat) (f : Lpk → Lpk) (d : Dev) : (Dev.updLpk n f d).pins = d.pins := rfl
@[simp] theorem Dev.updLpk_flt (n : Nat) (f : Lpk → Lpk) (d : Dev) : (Dev.updLpk n f d).flt = d.flt := rfl
@[simp] theorem Dev.updLpk_hold (n : Nat) (f : Lpk → Lpk) (d : Dev) : (Dev.updLpk n f d).hold = d.hold := rfl

@[simp] theorem Dev.updLive_out (n : Nat) (f : SaLive → SaLive) (d : Dev) : (Dev.updLive n f d).out = d.out := rfl
@[simp] theorem Dev.updLive_fresh (n : Nat) (f : SaLive → SaLive) (d : Dev) : (Dev.updLive n f d).fresh = d.fresh := rfl
@[simp] theorem Dev.updLive_tab (n : Nat) (f : SaLive → SaLive) (d : Dev) : (Dev.updLive n f d).tab = d.tab := rfl
@[simp] theorem Dev.updLive_views (n : Nat) (f : SaLive → SaLive) (d : Dev) : (Dev.updLive n f d).views = d.views := rfl
@[simp] theorem Dev.updLive_tck (n : Nat) (f : SaLive → SaLive) (d : Dev) : (Dev.updLive n f d).tck = d.tck := rfl
@[simp] theorem Dev.updLive_port (n : Nat) (f : SaLive → SaLive) (d : Dev) : (Dev.updLive n f d).port = d.port := rfl
@[simp] theorem Dev.updLive_slice (n : Nat) (f : SaLive → SaLive) (d : Dev) : (Dev.updLive n f d).slice = d.slice := rfl
@[simp] theorem Dev.updLive_slt (n : Nat) (f : SaLive → SaLive) (d : Dev) : (Dev.updLive n f d).slt = d.slt := rfl
@[simp] theorem Dev.updLive_stn (n : Nat) (f : SaLive → SaLive) (d : Dev) : (Dev.updLive n f d).stn = d.stn := rfl
@[simp] theorem Dev.updLive_pat (n : Nat) (f : SaLive → SaLive) (d : Dev) : (Dev.updLive n f d).pat = d.pat := rfl
@[simp] theorem Dev.updLive_keys (n : Nat) (f : SaLive → SaLive) (d : Dev) : (Dev.updLive n f d).keys = d.keys := rfl
@[simp] theorem Dev.updLive_twn (n : Nat) (f : SaLive → SaLive) (d : Dev) : (Dev.updLive n f d).twn = d.twn := rfl
@[simp] theorem Dev.updLive_core (n : Nat) (f : SaLive → SaLive) (d : Dev) : (Dev.updLive n f d).core = d.core := rfl
@[simp] theorem Dev.updLive_bpm (n : Nat) (f : SaLive → SaLive) (d : Dev) : (Dev.updLive n f d).bpm = d.bpm := rfl
@[simp] theorem Dev.updLive_mem (n : Nat) (f : SaLive → SaLive) (d : Dev) : (Dev.updLive n f d).mem = d.mem := rfl
@[simp] theorem Dev.updLive_hif (n : Nat) (f : SaLive → SaLive) (d : Dev) : (Dev.updLive n f d).hif = d.hif := rfl
@[simp] theorem Dev.updLive_evr (n : Nat) (f : SaLive → SaLive) (d : Dev) : (Dev.updLive n f d).evr = d.evr := rfl
@[simp] theorem Dev.updLive_mod (n : Nat) (f : SaLive → SaLive) (d : Dev) : (Dev.updLive n f d).mod = d.mod := rfl
@[simp] theorem Dev.updLive_lane (n : Nat) (f : SaLive → SaLive) (d : Dev) : (Dev.updLive n f d).lane = d.lane := rfl
@[simp] theorem Dev.updLive_hln (n : Nat) (f : SaLive → SaLive) (d : Dev) : (Dev.updLive n f d).hln = d.hln := rfl
@[simp] theorem Dev.updLive_prf (n : Nat) (f : SaLive → SaLive) (d : Dev) : (Dev.updLive n f d).prf = d.prf := rfl
@[simp] theorem Dev.updLive_prfFreeze (n : Nat) (f : SaLive → SaLive) (d : Dev) : (Dev.updLive n f d).prfFreeze = d.prfFreeze := rfl
@[simp] theorem Dev.updLive_prfHigh (n : Nat) (f : SaLive → SaLive) (d : Dev) : (Dev.updLive n f d).prfHigh = d.prfHigh := rfl
@[simp] theorem Dev.updLive_fls (n : Nat) (f : SaLive → SaLive) (d : Dev) : (Dev.updLive n f d).fls = d.fls := rfl
@[simp] theorem Dev.updLive_i3c (n : Nat) (f : SaLive → SaLive) (d : Dev) : (Dev.updLive n f d).i3c = d.i3c := rfl
@[simp] theorem Dev.updLive_pins (n : Nat) (f : SaLive → SaLive) (d : Dev) : (Dev.updLive n f d).pins = d.pins := rfl
@[simp] theorem Dev.updLive_flt (n : Nat) (f : SaLive → SaLive) (d : Dev) : (Dev.updLive n f d).flt = d.flt := rfl
@[simp] theorem Dev.updLive_hold (n : Nat) (f : SaLive → SaLive) (d : Dev) : (Dev.updLive n f d).hold = d.hold := rfl

@[simp] theorem Dev.updChl_out (n : Nat) (f : ChanLive → ChanLive) (d : Dev) : (Dev.updChl n f d).out = d.out := rfl
@[simp] theorem Dev.updChl_fresh (n : Nat) (f : ChanLive → ChanLive) (d : Dev) : (Dev.updChl n f d).fresh = d.fresh := rfl
@[simp] theorem Dev.updChl_tab (n : Nat) (f : ChanLive → ChanLive) (d : Dev) : (Dev.updChl n f d).tab = d.tab := rfl
@[simp] theorem Dev.updChl_views (n : Nat) (f : ChanLive → ChanLive) (d : Dev) : (Dev.updChl n f d).views = d.views := rfl
@[simp] theorem Dev.updChl_tck (n : Nat) (f : ChanLive → ChanLive) (d : Dev) : (Dev.updChl n f d).tck = d.tck := rfl
@[simp] theorem Dev.updChl_port (n : Nat) (f : ChanLive → ChanLive) (d : Dev) : (Dev.updChl n f d).port = d.port := rfl
@[simp] theorem Dev.updChl_slice (n : Nat) (f : ChanLive → ChanLive) (d : Dev) : (Dev.updChl n f d).slice = d.slice := rfl
@[simp] theorem Dev.updChl_slt (n : Nat) (f : ChanLive → ChanLive) (d : Dev) : (Dev.updChl n f d).slt = d.slt := rfl
@[simp] theorem Dev.updChl_stn (n : Nat) (f : ChanLive → ChanLive) (d : Dev) : (Dev.updChl n f d).stn = d.stn := rfl
@[simp] theorem Dev.updChl_pat (n : Nat) (f : ChanLive → ChanLive) (d : Dev) : (Dev.updChl n f d).pat = d.pat := rfl
@[simp] theorem Dev.updChl_keys (n : Nat) (f : ChanLive → ChanLive) (d : Dev) : (Dev.updChl n f d).keys = d.keys := rfl
@[simp] theorem Dev.updChl_twn (n : Nat) (f : ChanLive → ChanLive) (d : Dev) : (Dev.updChl n f d).twn = d.twn := rfl
@[simp] theorem Dev.updChl_core (n : Nat) (f : ChanLive → ChanLive) (d : Dev) : (Dev.updChl n f d).core = d.core := rfl
@[simp] theorem Dev.updChl_bpm (n : Nat) (f : ChanLive → ChanLive) (d : Dev) : (Dev.updChl n f d).bpm = d.bpm := rfl
@[simp] theorem Dev.updChl_mem (n : Nat) (f : ChanLive → ChanLive) (d : Dev) : (Dev.updChl n f d).mem = d.mem := rfl
@[simp] theorem Dev.updChl_hif (n : Nat) (f : ChanLive → ChanLive) (d : Dev) : (Dev.updChl n f d).hif = d.hif := rfl
@[simp] theorem Dev.updChl_evr (n : Nat) (f : ChanLive → ChanLive) (d : Dev) : (Dev.updChl n f d).evr = d.evr := rfl
@[simp] theorem Dev.updChl_mod (n : Nat) (f : ChanLive → ChanLive) (d : Dev) : (Dev.updChl n f d).mod = d.mod := rfl
@[simp] theorem Dev.updChl_lane (n : Nat) (f : ChanLive → ChanLive) (d : Dev) : (Dev.updChl n f d).lane = d.lane := rfl
@[simp] theorem Dev.updChl_hln (n : Nat) (f : ChanLive → ChanLive) (d : Dev) : (Dev.updChl n f d).hln = d.hln := rfl
@[simp] theorem Dev.updChl_prf (n : Nat) (f : ChanLive → ChanLive) (d : Dev) : (Dev.updChl n f d).prf = d.prf := rfl
@[simp] theorem Dev.updChl_prfFreeze (n : Nat) (f : ChanLive → ChanLive) (d : Dev) : (Dev.updChl n f d).prfFreeze = d.prfFreeze := rfl
@[simp] theorem Dev.updChl_prfHigh (n : Nat) (f : ChanLive → ChanLive) (d : Dev) : (Dev.updChl n f d).prfHigh = d.prfHigh := rfl
@[simp] theorem Dev.updChl_fls (n : Nat) (f : ChanLive → ChanLive) (d : Dev) : (Dev.updChl n f d).fls = d.fls := rfl
@[simp] theorem Dev.updChl_i3c (n : Nat) (f : ChanLive → ChanLive) (d : Dev) : (Dev.updChl n f d).i3c = d.i3c := rfl
@[simp] theorem Dev.updChl_pins (n : Nat) (f : ChanLive → ChanLive) (d : Dev) : (Dev.updChl n f d).pins = d.pins := rfl
@[simp] theorem Dev.updChl_flt (n : Nat) (f : ChanLive → ChanLive) (d : Dev) : (Dev.updChl n f d).flt = d.flt := rfl
@[simp] theorem Dev.updChl_hold (n : Nat) (f : ChanLive → ChanLive) (d : Dev) : (Dev.updChl n f d).hold = d.hold := rfl

@[simp] theorem Dev.updSas_out (f : Sas → Sas) (d : Dev) : (Dev.updSas f d).out = d.out := rfl
@[simp] theorem Dev.updSas_fresh (f : Sas → Sas) (d : Dev) : (Dev.updSas f d).fresh = d.fresh := rfl
@[simp] theorem Dev.updSas_tab (f : Sas → Sas) (d : Dev) : (Dev.updSas f d).tab = d.tab := rfl
@[simp] theorem Dev.updSas_views (f : Sas → Sas) (d : Dev) : (Dev.updSas f d).views = d.views := rfl
@[simp] theorem Dev.updSas_tck (f : Sas → Sas) (d : Dev) : (Dev.updSas f d).tck = d.tck := rfl
@[simp] theorem Dev.updSas_port (f : Sas → Sas) (d : Dev) : (Dev.updSas f d).port = d.port := rfl
@[simp] theorem Dev.updSas_slice (f : Sas → Sas) (d : Dev) : (Dev.updSas f d).slice = d.slice := rfl
@[simp] theorem Dev.updSas_slt (f : Sas → Sas) (d : Dev) : (Dev.updSas f d).slt = d.slt := rfl
@[simp] theorem Dev.updSas_stn (f : Sas → Sas) (d : Dev) : (Dev.updSas f d).stn = d.stn := rfl
@[simp] theorem Dev.updSas_pat (f : Sas → Sas) (d : Dev) : (Dev.updSas f d).pat = d.pat := rfl
@[simp] theorem Dev.updSas_keys (f : Sas → Sas) (d : Dev) : (Dev.updSas f d).keys = d.keys := rfl
@[simp] theorem Dev.updSas_twn (f : Sas → Sas) (d : Dev) : (Dev.updSas f d).twn = d.twn := rfl
@[simp] theorem Dev.updSas_core (f : Sas → Sas) (d : Dev) : (Dev.updSas f d).core = d.core := rfl
@[simp] theorem Dev.updSas_bpm (f : Sas → Sas) (d : Dev) : (Dev.updSas f d).bpm = d.bpm := rfl
@[simp] theorem Dev.updSas_mem (f : Sas → Sas) (d : Dev) : (Dev.updSas f d).mem = d.mem := rfl
@[simp] theorem Dev.updSas_hif (f : Sas → Sas) (d : Dev) : (Dev.updSas f d).hif = d.hif := rfl
@[simp] theorem Dev.updSas_evr (f : Sas → Sas) (d : Dev) : (Dev.updSas f d).evr = d.evr := rfl
@[simp] theorem Dev.updSas_mod (f : Sas → Sas) (d : Dev) : (Dev.updSas f d).mod = d.mod := rfl
@[simp] theorem Dev.updSas_lane (f : Sas → Sas) (d : Dev) : (Dev.updSas f d).lane = d.lane := rfl
@[simp] theorem Dev.updSas_hln (f : Sas → Sas) (d : Dev) : (Dev.updSas f d).hln = d.hln := rfl
@[simp] theorem Dev.updSas_prf (f : Sas → Sas) (d : Dev) : (Dev.updSas f d).prf = d.prf := rfl
@[simp] theorem Dev.updSas_prfFreeze (f : Sas → Sas) (d : Dev) : (Dev.updSas f d).prfFreeze = d.prfFreeze := rfl
@[simp] theorem Dev.updSas_prfHigh (f : Sas → Sas) (d : Dev) : (Dev.updSas f d).prfHigh = d.prfHigh := rfl
@[simp] theorem Dev.updSas_fls (f : Sas → Sas) (d : Dev) : (Dev.updSas f d).fls = d.fls := rfl
@[simp] theorem Dev.updSas_i3c (f : Sas → Sas) (d : Dev) : (Dev.updSas f d).i3c = d.i3c := rfl
@[simp] theorem Dev.updSas_pins (f : Sas → Sas) (d : Dev) : (Dev.updSas f d).pins = d.pins := rfl
@[simp] theorem Dev.updSas_flt (f : Sas → Sas) (d : Dev) : (Dev.updSas f d).flt = d.flt := rfl
@[simp] theorem Dev.updSas_hold (f : Sas → Sas) (d : Dev) : (Dev.updSas f d).hold = d.hold := rfl

@[simp] theorem Dev.updMem_out (f : Mem → Mem) (d : Dev) : (Dev.updMem f d).out = d.out := rfl
@[simp] theorem Dev.updMem_fresh (f : Mem → Mem) (d : Dev) : (Dev.updMem f d).fresh = d.fresh := rfl
@[simp] theorem Dev.updMem_tab (f : Mem → Mem) (d : Dev) : (Dev.updMem f d).tab = d.tab := rfl
@[simp] theorem Dev.updMem_views (f : Mem → Mem) (d : Dev) : (Dev.updMem f d).views = d.views := rfl
@[simp] theorem Dev.updMem_tck (f : Mem → Mem) (d : Dev) : (Dev.updMem f d).tck = d.tck := rfl
@[simp] theorem Dev.updMem_port (f : Mem → Mem) (d : Dev) : (Dev.updMem f d).port = d.port := rfl
@[simp] theorem Dev.updMem_slice (f : Mem → Mem) (d : Dev) : (Dev.updMem f d).slice = d.slice := rfl
@[simp] theorem Dev.updMem_slt (f : Mem → Mem) (d : Dev) : (Dev.updMem f d).slt = d.slt := rfl
@[simp] theorem Dev.updMem_sas (f : Mem → Mem) (d : Dev) : (Dev.updMem f d).sas = d.sas := rfl
@[simp] theorem Dev.updMem_stn (f : Mem → Mem) (d : Dev) : (Dev.updMem f d).stn = d.stn := rfl
@[simp] theorem Dev.updMem_pat (f : Mem → Mem) (d : Dev) : (Dev.updMem f d).pat = d.pat := rfl
@[simp] theorem Dev.updMem_keys (f : Mem → Mem) (d : Dev) : (Dev.updMem f d).keys = d.keys := rfl
@[simp] theorem Dev.updMem_twn (f : Mem → Mem) (d : Dev) : (Dev.updMem f d).twn = d.twn := rfl
@[simp] theorem Dev.updMem_core (f : Mem → Mem) (d : Dev) : (Dev.updMem f d).core = d.core := rfl
@[simp] theorem Dev.updMem_bpm (f : Mem → Mem) (d : Dev) : (Dev.updMem f d).bpm = d.bpm := rfl
@[simp] theorem Dev.updMem_hif (f : Mem → Mem) (d : Dev) : (Dev.updMem f d).hif = d.hif := rfl
@[simp] theorem Dev.updMem_evr (f : Mem → Mem) (d : Dev) : (Dev.updMem f d).evr = d.evr := rfl
@[simp] theorem Dev.updMem_mod (f : Mem → Mem) (d : Dev) : (Dev.updMem f d).mod = d.mod := rfl
@[simp] theorem Dev.updMem_lane (f : Mem → Mem) (d : Dev) : (Dev.updMem f d).lane = d.lane := rfl
@[simp] theorem Dev.updMem_hln (f : Mem → Mem) (d : Dev) : (Dev.updMem f d).hln = d.hln := rfl
@[simp] theorem Dev.updMem_prf (f : Mem → Mem) (d : Dev) : (Dev.updMem f d).prf = d.prf := rfl
@[simp] theorem Dev.updMem_prfFreeze (f : Mem → Mem) (d : Dev) : (Dev.updMem f d).prfFreeze = d.prfFreeze := rfl
@[simp] theorem Dev.updMem_prfHigh (f : Mem → Mem) (d : Dev) : (Dev.updMem f d).prfHigh = d.prfHigh := rfl
@[simp] theorem Dev.updMem_fls (f : Mem → Mem) (d : Dev) : (Dev.updMem f d).fls = d.fls := rfl
@[simp] theorem Dev.updMem_i3c (f : Mem → Mem) (d : Dev) : (Dev.updMem f d).i3c = d.i3c := rfl
@[simp] theorem Dev.updMem_pins (f : Mem → Mem) (d : Dev) : (Dev.updMem f d).pins = d.pins := rfl
@[simp] theorem Dev.updMem_flt (f : Mem → Mem) (d : Dev) : (Dev.updMem f d).flt = d.flt := rfl
@[simp] theorem Dev.updMem_hold (f : Mem → Mem) (d : Dev) : (Dev.updMem f d).hold = d.hold := rfl

@[simp] theorem Dev.updHif_out (f : Hif → Hif) (d : Dev) : (Dev.updHif f d).out = d.out := rfl
@[simp] theorem Dev.updHif_fresh (f : Hif → Hif) (d : Dev) : (Dev.updHif f d).fresh = d.fresh := rfl
@[simp] theorem Dev.updHif_tab (f : Hif → Hif) (d : Dev) : (Dev.updHif f d).tab = d.tab := rfl
@[simp] theorem Dev.updHif_views (f : Hif → Hif) (d : Dev) : (Dev.updHif f d).views = d.views := rfl
@[simp] theorem Dev.updHif_tck (f : Hif → Hif) (d : Dev) : (Dev.updHif f d).tck = d.tck := rfl
@[simp] theorem Dev.updHif_port (f : Hif → Hif) (d : Dev) : (Dev.updHif f d).port = d.port := rfl
@[simp] theorem Dev.updHif_slice (f : Hif → Hif) (d : Dev) : (Dev.updHif f d).slice = d.slice := rfl
@[simp] theorem Dev.updHif_slt (f : Hif → Hif) (d : Dev) : (Dev.updHif f d).slt = d.slt := rfl
@[simp] theorem Dev.updHif_sas (f : Hif → Hif) (d : Dev) : (Dev.updHif f d).sas = d.sas := rfl
@[simp] theorem Dev.updHif_stn (f : Hif → Hif) (d : Dev) : (Dev.updHif f d).stn = d.stn := rfl
@[simp] theorem Dev.updHif_pat (f : Hif → Hif) (d : Dev) : (Dev.updHif f d).pat = d.pat := rfl
@[simp] theorem Dev.updHif_keys (f : Hif → Hif) (d : Dev) : (Dev.updHif f d).keys = d.keys := rfl
@[simp] theorem Dev.updHif_twn (f : Hif → Hif) (d : Dev) : (Dev.updHif f d).twn = d.twn := rfl
@[simp] theorem Dev.updHif_core (f : Hif → Hif) (d : Dev) : (Dev.updHif f d).core = d.core := rfl
@[simp] theorem Dev.updHif_bpm (f : Hif → Hif) (d : Dev) : (Dev.updHif f d).bpm = d.bpm := rfl
@[simp] theorem Dev.updHif_mem (f : Hif → Hif) (d : Dev) : (Dev.updHif f d).mem = d.mem := rfl
@[simp] theorem Dev.updHif_evr (f : Hif → Hif) (d : Dev) : (Dev.updHif f d).evr = d.evr := rfl
@[simp] theorem Dev.updHif_mod (f : Hif → Hif) (d : Dev) : (Dev.updHif f d).mod = d.mod := rfl
@[simp] theorem Dev.updHif_lane (f : Hif → Hif) (d : Dev) : (Dev.updHif f d).lane = d.lane := rfl
@[simp] theorem Dev.updHif_hln (f : Hif → Hif) (d : Dev) : (Dev.updHif f d).hln = d.hln := rfl
@[simp] theorem Dev.updHif_prf (f : Hif → Hif) (d : Dev) : (Dev.updHif f d).prf = d.prf := rfl
@[simp] theorem Dev.updHif_prfFreeze (f : Hif → Hif) (d : Dev) : (Dev.updHif f d).prfFreeze = d.prfFreeze := rfl
@[simp] theorem Dev.updHif_prfHigh (f : Hif → Hif) (d : Dev) : (Dev.updHif f d).prfHigh = d.prfHigh := rfl
@[simp] theorem Dev.updHif_fls (f : Hif → Hif) (d : Dev) : (Dev.updHif f d).fls = d.fls := rfl
@[simp] theorem Dev.updHif_i3c (f : Hif → Hif) (d : Dev) : (Dev.updHif f d).i3c = d.i3c := rfl
@[simp] theorem Dev.updHif_pins (f : Hif → Hif) (d : Dev) : (Dev.updHif f d).pins = d.pins := rfl
@[simp] theorem Dev.updHif_flt (f : Hif → Hif) (d : Dev) : (Dev.updHif f d).flt = d.flt := rfl
@[simp] theorem Dev.updHif_hold (f : Hif → Hif) (d : Dev) : (Dev.updHif f d).hold = d.hold := rfl

@[simp] theorem Dev.updMod_out (f : Mod → Mod) (d : Dev) : (Dev.updMod f d).out = d.out := rfl
@[simp] theorem Dev.updMod_fresh (f : Mod → Mod) (d : Dev) : (Dev.updMod f d).fresh = d.fresh := rfl
@[simp] theorem Dev.updMod_tab (f : Mod → Mod) (d : Dev) : (Dev.updMod f d).tab = d.tab := rfl
@[simp] theorem Dev.updMod_views (f : Mod → Mod) (d : Dev) : (Dev.updMod f d).views = d.views := rfl
@[simp] theorem Dev.updMod_tck (f : Mod → Mod) (d : Dev) : (Dev.updMod f d).tck = d.tck := rfl
@[simp] theorem Dev.updMod_port (f : Mod → Mod) (d : Dev) : (Dev.updMod f d).port = d.port := rfl
@[simp] theorem Dev.updMod_slice (f : Mod → Mod) (d : Dev) : (Dev.updMod f d).slice = d.slice := rfl
@[simp] theorem Dev.updMod_slt (f : Mod → Mod) (d : Dev) : (Dev.updMod f d).slt = d.slt := rfl
@[simp] theorem Dev.updMod_sas (f : Mod → Mod) (d : Dev) : (Dev.updMod f d).sas = d.sas := rfl
@[simp] theorem Dev.updMod_stn (f : Mod → Mod) (d : Dev) : (Dev.updMod f d).stn = d.stn := rfl
@[simp] theorem Dev.updMod_pat (f : Mod → Mod) (d : Dev) : (Dev.updMod f d).pat = d.pat := rfl
@[simp] theorem Dev.updMod_keys (f : Mod → Mod) (d : Dev) : (Dev.updMod f d).keys = d.keys := rfl
@[simp] theorem Dev.updMod_twn (f : Mod → Mod) (d : Dev) : (Dev.updMod f d).twn = d.twn := rfl
@[simp] theorem Dev.updMod_core (f : Mod → Mod) (d : Dev) : (Dev.updMod f d).core = d.core := rfl
@[simp] theorem Dev.updMod_bpm (f : Mod → Mod) (d : Dev) : (Dev.updMod f d).bpm = d.bpm := rfl
@[simp] theorem Dev.updMod_mem (f : Mod → Mod) (d : Dev) : (Dev.updMod f d).mem = d.mem := rfl
@[simp] theorem Dev.updMod_hif (f : Mod → Mod) (d : Dev) : (Dev.updMod f d).hif = d.hif := rfl
@[simp] theorem Dev.updMod_evr (f : Mod → Mod) (d : Dev) : (Dev.updMod f d).evr = d.evr := rfl
@[simp] theorem Dev.updMod_lane (f : Mod → Mod) (d : Dev) : (Dev.updMod f d).lane = d.lane := rfl
@[simp] theorem Dev.updMod_hln (f : Mod → Mod) (d : Dev) : (Dev.updMod f d).hln = d.hln := rfl
@[simp] theorem Dev.updMod_prf (f : Mod → Mod) (d : Dev) : (Dev.updMod f d).prf = d.prf := rfl
@[simp] theorem Dev.updMod_prfFreeze (f : Mod → Mod) (d : Dev) : (Dev.updMod f d).prfFreeze = d.prfFreeze := rfl
@[simp] theorem Dev.updMod_prfHigh (f : Mod → Mod) (d : Dev) : (Dev.updMod f d).prfHigh = d.prfHigh := rfl
@[simp] theorem Dev.updMod_fls (f : Mod → Mod) (d : Dev) : (Dev.updMod f d).fls = d.fls := rfl
@[simp] theorem Dev.updMod_i3c (f : Mod → Mod) (d : Dev) : (Dev.updMod f d).i3c = d.i3c := rfl
@[simp] theorem Dev.updMod_pins (f : Mod → Mod) (d : Dev) : (Dev.updMod f d).pins = d.pins := rfl
@[simp] theorem Dev.updMod_flt (f : Mod → Mod) (d : Dev) : (Dev.updMod f d).flt = d.flt := rfl
@[simp] theorem Dev.updMod_hold (f : Mod → Mod) (d : Dev) : (Dev.updMod f d).hold = d.hold := rfl

@[simp] theorem Dev.updKeys_out (f : Keys → Keys) (d : Dev) : (Dev.updKeys f d).out = d.out := rfl
@[simp] theorem Dev.updKeys_fresh (f : Keys → Keys) (d : Dev) : (Dev.updKeys f d).fresh = d.fresh := rfl
@[simp] theorem Dev.updKeys_tab (f : Keys → Keys) (d : Dev) : (Dev.updKeys f d).tab = d.tab := rfl
@[simp] theorem Dev.updKeys_views (f : Keys → Keys) (d : Dev) : (Dev.updKeys f d).views = d.views := rfl
@[simp] theorem Dev.updKeys_tck (f : Keys → Keys) (d : Dev) : (Dev.updKeys f d).tck = d.tck := rfl
@[simp] theorem Dev.updKeys_port (f : Keys → Keys) (d : Dev) : (Dev.updKeys f d).port = d.port := rfl
@[simp] theorem Dev.updKeys_slice (f : Keys → Keys) (d : Dev) : (Dev.updKeys f d).slice = d.slice := rfl
@[simp] theorem Dev.updKeys_slt (f : Keys → Keys) (d : Dev) : (Dev.updKeys f d).slt = d.slt := rfl
@[simp] theorem Dev.updKeys_sas (f : Keys → Keys) (d : Dev) : (Dev.updKeys f d).sas = d.sas := rfl
@[simp] theorem Dev.updKeys_stn (f : Keys → Keys) (d : Dev) : (Dev.updKeys f d).stn = d.stn := rfl
@[simp] theorem Dev.updKeys_pat (f : Keys → Keys) (d : Dev) : (Dev.updKeys f d).pat = d.pat := rfl
@[simp] theorem Dev.updKeys_twn (f : Keys → Keys) (d : Dev) : (Dev.updKeys f d).twn = d.twn := rfl
@[simp] theorem Dev.updKeys_core (f : Keys → Keys) (d : Dev) : (Dev.updKeys f d).core = d.core := rfl
@[simp] theorem Dev.updKeys_bpm (f : Keys → Keys) (d : Dev) : (Dev.updKeys f d).bpm = d.bpm := rfl
@[simp] theorem Dev.updKeys_mem (f : Keys → Keys) (d : Dev) : (Dev.updKeys f d).mem = d.mem := rfl
@[simp] theorem Dev.updKeys_hif (f : Keys → Keys) (d : Dev) : (Dev.updKeys f d).hif = d.hif := rfl
@[simp] theorem Dev.updKeys_evr (f : Keys → Keys) (d : Dev) : (Dev.updKeys f d).evr = d.evr := rfl
@[simp] theorem Dev.updKeys_mod (f : Keys → Keys) (d : Dev) : (Dev.updKeys f d).mod = d.mod := rfl
@[simp] theorem Dev.updKeys_lane (f : Keys → Keys) (d : Dev) : (Dev.updKeys f d).lane = d.lane := rfl
@[simp] theorem Dev.updKeys_hln (f : Keys → Keys) (d : Dev) : (Dev.updKeys f d).hln = d.hln := rfl
@[simp] theorem Dev.updKeys_prf (f : Keys → Keys) (d : Dev) : (Dev.updKeys f d).prf = d.prf := rfl
@[simp] theorem Dev.updKeys_prfFreeze (f : Keys → Keys) (d : Dev) : (Dev.updKeys f d).prfFreeze = d.prfFreeze := rfl
@[simp] theorem Dev.updKeys_prfHigh (f : Keys → Keys) (d : Dev) : (Dev.updKeys f d).prfHigh = d.prfHigh := rfl
@[simp] theorem Dev.updKeys_fls (f : Keys → Keys) (d : Dev) : (Dev.updKeys f d).fls = d.fls := rfl
@[simp] theorem Dev.updKeys_i3c (f : Keys → Keys) (d : Dev) : (Dev.updKeys f d).i3c = d.i3c := rfl
@[simp] theorem Dev.updKeys_pins (f : Keys → Keys) (d : Dev) : (Dev.updKeys f d).pins = d.pins := rfl
@[simp] theorem Dev.updKeys_flt (f : Keys → Keys) (d : Dev) : (Dev.updKeys f d).flt = d.flt := rfl
@[simp] theorem Dev.updKeys_hold (f : Keys → Keys) (d : Dev) : (Dev.updKeys f d).hold = d.hold := rfl

@[simp] theorem Dev.updTab_out (f : Tables → Tables) (d : Dev) : (Dev.updTab f d).out = d.out := rfl
@[simp] theorem Dev.updTab_fresh (f : Tables → Tables) (d : Dev) : (Dev.updTab f d).fresh = d.fresh := rfl
@[simp] theorem Dev.updTab_views (f : Tables → Tables) (d : Dev) : (Dev.updTab f d).views = d.views := rfl
@[simp] theorem Dev.updTab_tck (f : Tables → Tables) (d : Dev) : (Dev.updTab f d).tck = d.tck := rfl
@[simp] theorem Dev.updTab_port (f : Tables → Tables) (d : Dev) : (Dev.updTab f d).port = d.port := rfl
@[simp] theorem Dev.updTab_slice (f : Tables → Tables) (d : Dev) : (Dev.updTab f d).slice = d.slice := rfl
@[simp] theorem Dev.updTab_slt (f : Tables → Tables) (d : Dev) : (Dev.updTab f d).slt = d.slt := rfl
@[simp] theorem Dev.updTab_sas (f : Tables → Tables) (d : Dev) : (Dev.updTab f d).sas = d.sas := rfl
@[simp] theorem Dev.updTab_stn (f : Tables → Tables) (d : Dev) : (Dev.updTab f d).stn = d.stn := rfl
@[simp] theorem Dev.updTab_pat (f : Tables → Tables) (d : Dev) : (Dev.updTab f d).pat = d.pat := rfl
@[simp] theorem Dev.updTab_keys (f : Tables → Tables) (d : Dev) : (Dev.updTab f d).keys = d.keys := rfl
@[simp] theorem Dev.updTab_twn (f : Tables → Tables) (d : Dev) : (Dev.updTab f d).twn = d.twn := rfl
@[simp] theorem Dev.updTab_core (f : Tables → Tables) (d : Dev) : (Dev.updTab f d).core = d.core := rfl
@[simp] theorem Dev.updTab_bpm (f : Tables → Tables) (d : Dev) : (Dev.updTab f d).bpm = d.bpm := rfl
@[simp] theorem Dev.updTab_mem (f : Tables → Tables) (d : Dev) : (Dev.updTab f d).mem = d.mem := rfl
@[simp] theorem Dev.updTab_hif (f : Tables → Tables) (d : Dev) : (Dev.updTab f d).hif = d.hif := rfl
@[simp] theorem Dev.updTab_evr (f : Tables → Tables) (d : Dev) : (Dev.updTab f d).evr = d.evr := rfl
@[simp] theorem Dev.updTab_mod (f : Tables → Tables) (d : Dev) : (Dev.updTab f d).mod = d.mod := rfl
@[simp] theorem Dev.updTab_lane (f : Tables → Tables) (d : Dev) : (Dev.updTab f d).lane = d.lane := rfl
@[simp] theorem Dev.updTab_hln (f : Tables → Tables) (d : Dev) : (Dev.updTab f d).hln = d.hln := rfl
@[simp] theorem Dev.updTab_prf (f : Tables → Tables) (d : Dev) : (Dev.updTab f d).prf = d.prf := rfl
@[simp] theorem Dev.updTab_prfFreeze (f : Tables → Tables) (d : Dev) : (Dev.updTab f d).prfFreeze = d.prfFreeze := rfl
@[simp] theorem Dev.updTab_prfHigh (f : Tables → Tables) (d : Dev) : (Dev.updTab f d).prfHigh = d.prfHigh := rfl
@[simp] theorem Dev.updTab_fls (f : Tables → Tables) (d : Dev) : (Dev.updTab f d).fls = d.fls := rfl
@[simp] theorem Dev.updTab_i3c (f : Tables → Tables) (d : Dev) : (Dev.updTab f d).i3c = d.i3c := rfl
@[simp] theorem Dev.updTab_pins (f : Tables → Tables) (d : Dev) : (Dev.updTab f d).pins = d.pins := rfl
@[simp] theorem Dev.updTab_flt (f : Tables → Tables) (d : Dev) : (Dev.updTab f d).flt = d.flt := rfl
@[simp] theorem Dev.updTab_hold (f : Tables → Tables) (d : Dev) : (Dev.updTab f d).hold = d.hold := rfl

@[simp] theorem Dev.updViews_out (f : Tables → Tables) (d : Dev) : (Dev.updViews f d).out = d.out := rfl
@[simp] theorem Dev.updViews_fresh (f : Tables → Tables) (d : Dev) : (Dev.updViews f d).fresh = d.fresh := rfl
@[simp] theorem Dev.updViews_tck (f : Tables → Tables) (d : Dev) : (Dev.updViews f d).tck = d.tck := rfl
@[simp] theorem Dev.updViews_port (f : Tables → Tables) (d : Dev) : (Dev.updViews f d).port = d.port := rfl
@[simp] theorem Dev.updViews_slice (f : Tables → Tables) (d : Dev) : (Dev.updViews f d).slice = d.slice := rfl
@[simp] theorem Dev.updViews_slt (f : Tables → Tables) (d : Dev) : (Dev.updViews f d).slt = d.slt := rfl
@[simp] theorem Dev.updViews_sas (f : Tables → Tables) (d : Dev) : (Dev.updViews f d).sas = d.sas := rfl
@[simp] theorem Dev.updViews_stn (f : Tables → Tables) (d : Dev) : (Dev.updViews f d).stn = d.stn := rfl
@[simp] theorem Dev.updViews_pat (f : Tables → Tables) (d : Dev) : (Dev.updViews f d).pat = d.pat := rfl
@[simp] theorem Dev.updViews_keys (f : Tables → Tables) (d : Dev) : (Dev.updViews f d).keys = d.keys := rfl
@[simp] theorem Dev.updViews_twn (f : Tables → Tables) (d : Dev) : (Dev.updViews f d).twn = d.twn := rfl
@[simp] theorem Dev.updViews_core (f : Tables → Tables) (d : Dev) : (Dev.updViews f d).core = d.core := rfl
@[simp] theorem Dev.updViews_bpm (f : Tables → Tables) (d : Dev) : (Dev.updViews f d).bpm = d.bpm := rfl
@[simp] theorem Dev.updViews_mem (f : Tables → Tables) (d : Dev) : (Dev.updViews f d).mem = d.mem := rfl
@[simp] theorem Dev.updViews_hif (f : Tables → Tables) (d : Dev) : (Dev.updViews f d).hif = d.hif := rfl
@[simp] theorem Dev.updViews_evr (f : Tables → Tables) (d : Dev) : (Dev.updViews f d).evr = d.evr := rfl
@[simp] theorem Dev.updViews_mod (f : Tables → Tables) (d : Dev) : (Dev.updViews f d).mod = d.mod := rfl
@[simp] theorem Dev.updViews_lane (f : Tables → Tables) (d : Dev) : (Dev.updViews f d).lane = d.lane := rfl
@[simp] theorem Dev.updViews_hln (f : Tables → Tables) (d : Dev) : (Dev.updViews f d).hln = d.hln := rfl
@[simp] theorem Dev.updViews_prf (f : Tables → Tables) (d : Dev) : (Dev.updViews f d).prf = d.prf := rfl
@[simp] theorem Dev.updViews_prfFreeze (f : Tables → Tables) (d : Dev) : (Dev.updViews f d).prfFreeze = d.prfFreeze := rfl
@[simp] theorem Dev.updViews_prfHigh (f : Tables → Tables) (d : Dev) : (Dev.updViews f d).prfHigh = d.prfHigh := rfl
@[simp] theorem Dev.updViews_fls (f : Tables → Tables) (d : Dev) : (Dev.updViews f d).fls = d.fls := rfl
@[simp] theorem Dev.updViews_i3c (f : Tables → Tables) (d : Dev) : (Dev.updViews f d).i3c = d.i3c := rfl
@[simp] theorem Dev.updViews_pins (f : Tables → Tables) (d : Dev) : (Dev.updViews f d).pins = d.pins := rfl
@[simp] theorem Dev.updViews_flt (f : Tables → Tables) (d : Dev) : (Dev.updViews f d).flt = d.flt := rfl
@[simp] theorem Dev.updViews_hold (f : Tables → Tables) (d : Dev) : (Dev.updViews f d).hold = d.hold := rfl

@[simp] theorem Dev.updWin_out (n : Nat) (f : Win → Win) (d : Dev) : (Dev.updWin n f d).out = d.out := rfl
@[simp] theorem Dev.updWin_fresh (n : Nat) (f : Win → Win) (d : Dev) : (Dev.updWin n f d).fresh = d.fresh := rfl
@[simp] theorem Dev.updWin_tab (n : Nat) (f : Win → Win) (d : Dev) : (Dev.updWin n f d).tab = d.tab := rfl
@[simp] theorem Dev.updWin_views (n : Nat) (f : Win → Win) (d : Dev) : (Dev.updWin n f d).views = d.views := rfl
@[simp] theorem Dev.updWin_tck (n : Nat) (f : Win → Win) (d : Dev) : (Dev.updWin n f d).tck = d.tck := rfl
@[simp] theorem Dev.updWin_port (n : Nat) (f : Win → Win) (d : Dev) : (Dev.updWin n f d).port = d.port := rfl
@[simp] theorem Dev.updWin_slice (n : Nat) (f : Win → Win) (d : Dev) : (Dev.updWin n f d).slice = d.slice := rfl
@[simp] theorem Dev.updWin_slt (n : Nat) (f : Win → Win) (d : Dev) : (Dev.updWin n f d).slt = d.slt := rfl
@[simp] theorem Dev.updWin_stn (n : Nat) (f : Win → Win) (d : Dev) : (Dev.updWin n f d).stn = d.stn := rfl
@[simp] theorem Dev.updWin_pat (n : Nat) (f : Win → Win) (d : Dev) : (Dev.updWin n f d).pat = d.pat := rfl
@[simp] theorem Dev.updWin_keys (n : Nat) (f : Win → Win) (d : Dev) : (Dev.updWin n f d).keys = d.keys := rfl
@[simp] theorem Dev.updWin_twn (n : Nat) (f : Win → Win) (d : Dev) : (Dev.updWin n f d).twn = d.twn := rfl
@[simp] theorem Dev.updWin_core (n : Nat) (f : Win → Win) (d : Dev) : (Dev.updWin n f d).core = d.core := rfl
@[simp] theorem Dev.updWin_bpm (n : Nat) (f : Win → Win) (d : Dev) : (Dev.updWin n f d).bpm = d.bpm := rfl
@[simp] theorem Dev.updWin_mem (n : Nat) (f : Win → Win) (d : Dev) : (Dev.updWin n f d).mem = d.mem := rfl
@[simp] theorem Dev.updWin_hif (n : Nat) (f : Win → Win) (d : Dev) : (Dev.updWin n f d).hif = d.hif := rfl
@[simp] theorem Dev.updWin_evr (n : Nat) (f : Win → Win) (d : Dev) : (Dev.updWin n f d).evr = d.evr := rfl
@[simp] theorem Dev.updWin_mod (n : Nat) (f : Win → Win) (d : Dev) : (Dev.updWin n f d).mod = d.mod := rfl
@[simp] theorem Dev.updWin_lane (n : Nat) (f : Win → Win) (d : Dev) : (Dev.updWin n f d).lane = d.lane := rfl
@[simp] theorem Dev.updWin_hln (n : Nat) (f : Win → Win) (d : Dev) : (Dev.updWin n f d).hln = d.hln := rfl
@[simp] theorem Dev.updWin_prf (n : Nat) (f : Win → Win) (d : Dev) : (Dev.updWin n f d).prf = d.prf := rfl
@[simp] theorem Dev.updWin_prfFreeze (n : Nat) (f : Win → Win) (d : Dev) : (Dev.updWin n f d).prfFreeze = d.prfFreeze := rfl
@[simp] theorem Dev.updWin_prfHigh (n : Nat) (f : Win → Win) (d : Dev) : (Dev.updWin n f d).prfHigh = d.prfHigh := rfl
@[simp] theorem Dev.updWin_fls (n : Nat) (f : Win → Win) (d : Dev) : (Dev.updWin n f d).fls = d.fls := rfl
@[simp] theorem Dev.updWin_i3c (n : Nat) (f : Win → Win) (d : Dev) : (Dev.updWin n f d).i3c = d.i3c := rfl
@[simp] theorem Dev.updWin_pins (n : Nat) (f : Win → Win) (d : Dev) : (Dev.updWin n f d).pins = d.pins := rfl
@[simp] theorem Dev.updWin_flt (n : Nat) (f : Win → Win) (d : Dev) : (Dev.updWin n f d).flt = d.flt := rfl
@[simp] theorem Dev.updWin_hold (n : Nat) (f : Win → Win) (d : Dev) : (Dev.updWin n f d).hold = d.hold := rfl

@[simp] theorem Dev.setStage_out (n : Nat) (x : StageBuf) (d : Dev) : (Dev.setStage n x d).out = d.out := rfl
@[simp] theorem Dev.setStage_fresh (n : Nat) (x : StageBuf) (d : Dev) : (Dev.setStage n x d).fresh = d.fresh := rfl
@[simp] theorem Dev.setStage_tab (n : Nat) (x : StageBuf) (d : Dev) : (Dev.setStage n x d).tab = d.tab := rfl
@[simp] theorem Dev.setStage_views (n : Nat) (x : StageBuf) (d : Dev) : (Dev.setStage n x d).views = d.views := rfl
@[simp] theorem Dev.setStage_tck (n : Nat) (x : StageBuf) (d : Dev) : (Dev.setStage n x d).tck = d.tck := rfl
@[simp] theorem Dev.setStage_port (n : Nat) (x : StageBuf) (d : Dev) : (Dev.setStage n x d).port = d.port := rfl
@[simp] theorem Dev.setStage_slice (n : Nat) (x : StageBuf) (d : Dev) : (Dev.setStage n x d).slice = d.slice := rfl
@[simp] theorem Dev.setStage_slt (n : Nat) (x : StageBuf) (d : Dev) : (Dev.setStage n x d).slt = d.slt := rfl
@[simp] theorem Dev.setStage_stn (n : Nat) (x : StageBuf) (d : Dev) : (Dev.setStage n x d).stn = d.stn := rfl
@[simp] theorem Dev.setStage_pat (n : Nat) (x : StageBuf) (d : Dev) : (Dev.setStage n x d).pat = d.pat := rfl
@[simp] theorem Dev.setStage_keys (n : Nat) (x : StageBuf) (d : Dev) : (Dev.setStage n x d).keys = d.keys := rfl
@[simp] theorem Dev.setStage_twn (n : Nat) (x : StageBuf) (d : Dev) : (Dev.setStage n x d).twn = d.twn := rfl
@[simp] theorem Dev.setStage_core (n : Nat) (x : StageBuf) (d : Dev) : (Dev.setStage n x d).core = d.core := rfl
@[simp] theorem Dev.setStage_bpm (n : Nat) (x : StageBuf) (d : Dev) : (Dev.setStage n x d).bpm = d.bpm := rfl
@[simp] theorem Dev.setStage_mem (n : Nat) (x : StageBuf) (d : Dev) : (Dev.setStage n x d).mem = d.mem := rfl
@[simp] theorem Dev.setStage_hif (n : Nat) (x : StageBuf) (d : Dev) : (Dev.setStage n x d).hif = d.hif := rfl
@[simp] theorem Dev.setStage_evr (n : Nat) (x : StageBuf) (d : Dev) : (Dev.setStage n x d).evr = d.evr := rfl
@[simp] theorem Dev.setStage_mod (n : Nat) (x : StageBuf) (d : Dev) : (Dev.setStage n x d).mod = d.mod := rfl
@[simp] theorem Dev.setStage_lane (n : Nat) (x : StageBuf) (d : Dev) : (Dev.setStage n x d).lane = d.lane := rfl
@[simp] theorem Dev.setStage_hln (n : Nat) (x : StageBuf) (d : Dev) : (Dev.setStage n x d).hln = d.hln := rfl
@[simp] theorem Dev.setStage_prf (n : Nat) (x : StageBuf) (d : Dev) : (Dev.setStage n x d).prf = d.prf := rfl
@[simp] theorem Dev.setStage_prfFreeze (n : Nat) (x : StageBuf) (d : Dev) : (Dev.setStage n x d).prfFreeze = d.prfFreeze := rfl
@[simp] theorem Dev.setStage_prfHigh (n : Nat) (x : StageBuf) (d : Dev) : (Dev.setStage n x d).prfHigh = d.prfHigh := rfl
@[simp] theorem Dev.setStage_fls (n : Nat) (x : StageBuf) (d : Dev) : (Dev.setStage n x d).fls = d.fls := rfl
@[simp] theorem Dev.setStage_i3c (n : Nat) (x : StageBuf) (d : Dev) : (Dev.setStage n x d).i3c = d.i3c := rfl
@[simp] theorem Dev.setStage_pins (n : Nat) (x : StageBuf) (d : Dev) : (Dev.setStage n x d).pins = d.pins := rfl
@[simp] theorem Dev.setStage_flt (n : Nat) (x : StageBuf) (d : Dev) : (Dev.setStage n x d).flt = d.flt := rfl
@[simp] theorem Dev.setStage_hold (n : Nat) (x : StageBuf) (d : Dev) : (Dev.setStage n x d).hold = d.hold := rfl

@[simp] theorem Dev.updI3c_out (n : Nat) (f : I3c → I3c) (d : Dev) : (Dev.updI3c n f d).out = d.out := rfl
@[simp] theorem Dev.updI3c_fresh (n : Nat) (f : I3c → I3c) (d : Dev) : (Dev.updI3c n f d).fresh = d.fresh := rfl
@[simp] theorem Dev.updI3c_tab (n : Nat) (f : I3c → I3c) (d : Dev) : (Dev.updI3c n f d).tab = d.tab := rfl
@[simp] theorem Dev.updI3c_views (n : Nat) (f : I3c → I3c) (d : Dev) : (Dev.updI3c n f d).views = d.views := rfl
@[simp] theorem Dev.updI3c_tck (n : Nat) (f : I3c → I3c) (d : Dev) : (Dev.updI3c n f d).tck = d.tck := rfl
@[simp] theorem Dev.updI3c_port (n : Nat) (f : I3c → I3c) (d : Dev) : (Dev.updI3c n f d).port = d.port := rfl
@[simp] theorem Dev.updI3c_slice (n : Nat) (f : I3c → I3c) (d : Dev) : (Dev.updI3c n f d).slice = d.slice := rfl
@[simp] theorem Dev.updI3c_slt (n : Nat) (f : I3c → I3c) (d : Dev) : (Dev.updI3c n f d).slt = d.slt := rfl
@[simp] theorem Dev.updI3c_sas (n : Nat) (f : I3c → I3c) (d : Dev) : (Dev.updI3c n f d).sas = d.sas := rfl
@[simp] theorem Dev.updI3c_stn (n : Nat) (f : I3c → I3c) (d : Dev) : (Dev.updI3c n f d).stn = d.stn := rfl
@[simp] theorem Dev.updI3c_pat (n : Nat) (f : I3c → I3c) (d : Dev) : (Dev.updI3c n f d).pat = d.pat := rfl
@[simp] theorem Dev.updI3c_keys (n : Nat) (f : I3c → I3c) (d : Dev) : (Dev.updI3c n f d).keys = d.keys := rfl
@[simp] theorem Dev.updI3c_twn (n : Nat) (f : I3c → I3c) (d : Dev) : (Dev.updI3c n f d).twn = d.twn := rfl
@[simp] theorem Dev.updI3c_core (n : Nat) (f : I3c → I3c) (d : Dev) : (Dev.updI3c n f d).core = d.core := rfl
@[simp] theorem Dev.updI3c_bpm (n : Nat) (f : I3c → I3c) (d : Dev) : (Dev.updI3c n f d).bpm = d.bpm := rfl
@[simp] theorem Dev.updI3c_mem (n : Nat) (f : I3c → I3c) (d : Dev) : (Dev.updI3c n f d).mem = d.mem := rfl
@[simp] theorem Dev.updI3c_hif (n : Nat) (f : I3c → I3c) (d : Dev) : (Dev.updI3c n f d).hif = d.hif := rfl
@[simp] theorem Dev.updI3c_evr (n : Nat) (f : I3c → I3c) (d : Dev) : (Dev.updI3c n f d).evr = d.evr := rfl
@[simp] theorem Dev.updI3c_mod (n : Nat) (f : I3c → I3c) (d : Dev) : (Dev.updI3c n f d).mod = d.mod := rfl
@[simp] theorem Dev.updI3c_lane (n : Nat) (f : I3c → I3c) (d : Dev) : (Dev.updI3c n f d).lane = d.lane := rfl
@[simp] theorem Dev.updI3c_hln (n : Nat) (f : I3c → I3c) (d : Dev) : (Dev.updI3c n f d).hln = d.hln := rfl
@[simp] theorem Dev.updI3c_prf (n : Nat) (f : I3c → I3c) (d : Dev) : (Dev.updI3c n f d).prf = d.prf := rfl
@[simp] theorem Dev.updI3c_prfFreeze (n : Nat) (f : I3c → I3c) (d : Dev) : (Dev.updI3c n f d).prfFreeze = d.prfFreeze := rfl
@[simp] theorem Dev.updI3c_prfHigh (n : Nat) (f : I3c → I3c) (d : Dev) : (Dev.updI3c n f d).prfHigh = d.prfHigh := rfl
@[simp] theorem Dev.updI3c_fls (n : Nat) (f : I3c → I3c) (d : Dev) : (Dev.updI3c n f d).fls = d.fls := rfl
@[simp] theorem Dev.updI3c_pins (n : Nat) (f : I3c → I3c) (d : Dev) : (Dev.updI3c n f d).pins = d.pins := rfl
@[simp] theorem Dev.updI3c_flt (n : Nat) (f : I3c → I3c) (d : Dev) : (Dev.updI3c n f d).flt = d.flt := rfl
@[simp] theorem Dev.updI3c_hold (n : Nat) (f : I3c → I3c) (d : Dev) : (Dev.updI3c n f d).hold = d.hold := rfl

@[simp] theorem Dev.updSas_sas (f : Sas → Sas) (d : Dev) : (Dev.updSas f d).sas = f d.sas := rfl
@[simp] theorem Dev.updMem_mem (f : Mem → Mem) (d : Dev) : (Dev.updMem f d).mem = f d.mem := rfl
@[simp] theorem Dev.updHif_hif (f : Hif → Hif) (d : Dev) : (Dev.updHif f d).hif = f d.hif := rfl
@[simp] theorem Dev.updMod_mod (f : Mod → Mod) (d : Dev) : (Dev.updMod f d).mod = f d.mod := rfl
@[simp] theorem Dev.updKeys_keys (f : Keys → Keys) (d : Dev) : (Dev.updKeys f d).keys = f d.keys := rfl
@[simp] theorem Dev.updTab_tab (f : Tables → Tables) (d : Dev) : (Dev.updTab f d).tab = f d.tab := rfl
@[simp] theorem Dev.updViews_tab (f : Tables → Tables) (d : Dev) : (Dev.updViews f d).tab = f d.tab := rfl

@[simp] theorem Dev.getPort_updPort (n : Nat) (f : Port → Port) (d : Dev) : (d.updPort n f).getPort n = f (d.getPort n) := by simp [Dev.updPort, Dev.getPort, Tab.upd]
theorem Dev.getPort_updPort_ne (n m : Nat) (f : Port → Port) (d : Dev) (h : m ≠ n) : (d.updPort n f).getPort m = d.getPort m := by
  simp [Dev.updPort, Dev.getPort, Tab.upd, Tab.get_set_ne _ _ _ _ _ h]
@[simp] theorem Dev.getTck_updTck (n : Nat) (f : TckPort → TckPort) (d : Dev) : (d.updTck n f).getTck n = f (d.getTck n) := by simp [Dev.updTck, Dev.getTck, Tab.upd]
theorem Dev.getTck_updTck_ne (n m : Nat) (f : TckPort → TckPort) (d : Dev) (h : m ≠ n) : (d.updTck n f).getTck m = d.getTck m := by
  simp [Dev.updTck, Dev.getTck, Tab.upd, Tab.get_set_ne _ _ _ _ _ h]
@[simp] theorem Dev.getTwn_updTwn (n : Nat) (f : TwnPort → TwnPort) (d : Dev) : (d.updTwn n f).getTwn n = f (d.getTwn n) := by simp [Dev.updTwn, Dev.getTwn, Tab.upd]
theorem Dev.getTwn_updTwn_ne (n m : Nat) (f : TwnPort → TwnPort) (d : Dev) (h : m ≠ n) : (d.updTwn n f).getTwn m = d.getTwn m := by
  simp [Dev.updTwn, Dev.getTwn, Tab.upd, Tab.get_set_ne _ _ _ _ _ h]
@[simp] theorem Dev.getHp_updHp (n : Nat) (f : HpPort → HpPort) (d : Dev) : (d.updHp n f).getHp n = f (d.getHp n) := by simp [Dev.updHp, Dev.getHp, Tab.upd]
theorem Dev.getHp_updHp_ne (n m : Nat) (f : HpPort → HpPort) (d : Dev) (h : m ≠ n) : (d.updHp n f).getHp m = d.getHp m := by
  simp [Dev.updHp, Dev.getHp, Tab.upd, Tab.get_set_ne _ _ _ _ _ h]
@[simp] theorem Dev.getSlice_updSlice (n : Nat) (f : Slice → Slice) (d : Dev) : (d.updSlice n f).getSlice n = f (d.getSlice n) := by simp [Dev.updSlice, Dev.getSlice, Tab.upd]
theorem Dev.getSlice_updSlice_ne (n m : Nat) (f : Slice → Slice) (d : Dev) (h : m ≠ n) : (d.updSlice n f).getSlice m = d.getSlice m := by
  simp [Dev.updSlice, Dev.getSlice, Tab.upd, Tab.get_set_ne _ _ _ _ _ h]
@[simp] theorem Dev.getCore_updCore (n : Nat) (f : Core → Core) (d : Dev) : (d.updCore n f).getCore n = f (d.getCore n) := by simp [Dev.updCore, Dev.getCore, Tab.upd]
theorem Dev.getCore_updCore_ne (n m : Nat) (f : Core → Core) (d : Dev) (h : m ≠ n) : (d.updCore n f).getCore m = d.getCore m := by
  simp [Dev.updCore, Dev.getCore, Tab.upd, Tab.get_set_ne _ _ _ _ _ h]
@[simp] theorem Dev.getRing_updRing (n : Nat) (f : Ring → Ring) (d : Dev) : (d.updRing n f).getRing n = f (d.getRing n) := by simp [Dev.updRing, Dev.getRing, Tab.upd]
theorem Dev.getRing_updRing_ne (n m : Nat) (f : Ring → Ring) (d : Dev) (h : m ≠ n) : (d.updRing n f).getRing m = d.getRing m := by
  simp [Dev.updRing, Dev.getRing, Tab.upd, Tab.get_set_ne _ _ _ _ _ h]
@[simp] theorem Dev.getInj_updInj (n : Nat) (f : InjQ → InjQ) (d : Dev) : (d.updInj n f).getInj n = f (d.getInj n) := by simp [Dev.updInj, Dev.getInj, Tab.upd]
theorem Dev.getInj_updInj_ne (n m : Nat) (f : InjQ → InjQ) (d : Dev) (h : m ≠ n) : (d.updInj n f).getInj m = d.getInj m := by
  simp [Dev.updInj, Dev.getInj, Tab.upd, Tab.get_set_ne _ _ _ _ _ h]
@[simp] theorem Dev.getExt_updExt (n : Nat) (f : ExtQ → ExtQ) (d : Dev) : (d.updExt n f).getExt n = f (d.getExt n) := by simp [Dev.updExt, Dev.getExt, Tab.upd]
theorem Dev.getExt_updExt_ne (n m : Nat) (f : ExtQ → ExtQ) (d : Dev) (h : m ≠ n) : (d.updExt n f).getExt m = d.getExt m := by
  simp [Dev.updExt, Dev.getExt, Tab.upd, Tab.get_set_ne _ _ _ _ _ h]
@[simp] theorem Dev.getSlt_updSlt (n : Nat) (f : SltPort → SltPort) (d : Dev) : (d.updSlt n f).getSlt n = f (d.getSlt n) := by simp [Dev.updSlt, Dev.getSlt, Tab.upd]
theorem Dev.getSlt_updSlt_ne (n m : Nat) (f : SltPort → SltPort) (d : Dev) (h : m ≠ n) : (d.updSlt n f).getSlt m = d.getSlt m := by
  simp [Dev.updSlt, Dev.getSlt, Tab.upd, Tab.get_set_ne _ _ _ _ _ h]
@[simp] theorem Dev.getKek_updKek (n : Nat) (f : Kek → Kek) (d : Dev) : (d.updKek n f).getKek n = f (d.getKek n) := by simp [Dev.updKek, Dev.getKek, Tab.upd]
theorem Dev.getKek_updKek_ne (n m : Nat) (f : Kek → Kek) (d : Dev) (h : m ≠ n) : (d.updKek n f).getKek m = d.getKek m := by
  simp [Dev.updKek, Dev.getKek, Tab.upd, Tab.get_set_ne _ _ _ _ _ h]
@[simp] theorem Dev.getLpk_updLpk (n : Nat) (f : Lpk → Lpk) (d : Dev) : (d.updLpk n f).getLpk n = f (d.getLpk n) := by simp [Dev.updLpk, Dev.getLpk, Tab.upd]
theorem Dev.getLpk_updLpk_ne (n m : Nat) (f : Lpk → Lpk) (d : Dev) (h : m ≠ n) : (d.updLpk n f).getLpk m = d.getLpk m := by
  simp [Dev.updLpk, Dev.getLpk, Tab.upd, Tab.get_set_ne _ _ _ _ _ h]
@[simp] theorem Dev.getLive_updLive (n : Nat) (f : SaLive → SaLive) (d : Dev) : (d.updLive n f).getLive n = f (d.getLive n) := by simp [Dev.updLive, Dev.getLive, Tab.upd]
theorem Dev.getLive_updLive_ne (n m : Nat) (f : SaLive → SaLive) (d : Dev) (h : m ≠ n) : (d.updLive n f).getLive m = d.getLive m := by
  simp [Dev.updLive, Dev.getLive, Tab.upd, Tab.get_set_ne _ _ _ _ _ h]
@[simp] theorem Dev.getChl_updChl (n : Nat) (f : ChanLive → ChanLive) (d : Dev) : (d.updChl n f).getChl n = f (d.getChl n) := by simp [Dev.updChl, Dev.getChl, Tab.upd]
theorem Dev.getChl_updChl_ne (n m : Nat) (f : ChanLive → ChanLive) (d : Dev) (h : m ≠ n) : (d.updChl n f).getChl m = d.getChl m := by
  simp [Dev.updChl, Dev.getChl, Tab.upd, Tab.get_set_ne _ _ _ _ _ h]
@[simp] theorem Dev.getWin_updWin (n : Nat) (f : Win → Win) (d : Dev) : (d.updWin n f).getWin n = f (d.getWin n) := by simp [Dev.updWin, Dev.getWin, Tab.upd]
theorem Dev.getWin_updWin_ne (n m : Nat) (f : Win → Win) (d : Dev) (h : m ≠ n) : (d.updWin n f).getWin m = d.getWin m := by
  simp [Dev.updWin, Dev.getWin, Tab.upd, Tab.get_set_ne _ _ _ _ _ h]
@[simp] theorem Dev.getI3c_updI3c (n : Nat) (f : I3c → I3c) (d : Dev) : (d.updI3c n f).getI3c n = f (d.getI3c n) := by simp [Dev.updI3c, Dev.getI3c, Tab.upd]
theorem Dev.getI3c_updI3c_ne (n m : Nat) (f : I3c → I3c) (d : Dev) (h : m ≠ n) : (d.updI3c n f).getI3c m = d.getI3c m := by
  simp [Dev.updI3c, Dev.getI3c, Tab.upd, Tab.get_set_ne _ _ _ _ _ h]

@[simp] theorem emit_tab (o : Out) (d : Dev) : (emit o d).tab = d.tab := rfl
@[simp] theorem emit_views (o : Out) (d : Dev) : (emit o d).views = d.views := rfl
@[simp] theorem emit_tck (o : Out) (d : Dev) : (emit o d).tck = d.tck := rfl
@[simp] theorem emit_port (o : Out) (d : Dev) : (emit o d).port = d.port := rfl
@[simp] theorem emit_slice (o : Out) (d : Dev) : (emit o d).slice = d.slice := rfl
@[simp] theorem emit_slt (o : Out) (d : Dev) : (emit o d).slt = d.slt := rfl
@[simp] theorem emit_sas (o : Out) (d : Dev) : (emit o d).sas = d.sas := rfl
@[simp] theorem emit_keys (o : Out) (d : Dev) : (emit o d).keys = d.keys := rfl
@[simp] theorem emit_twn (o : Out) (d : Dev) : (emit o d).twn = d.twn := rfl
@[simp] theorem emit_core (o : Out) (d : Dev) : (emit o d).core = d.core := rfl
@[simp] theorem emit_bpm (o : Out) (d : Dev) : (emit o d).bpm = d.bpm := rfl
@[simp] theorem emit_mem (o : Out) (d : Dev) : (emit o d).mem = d.mem := rfl
@[simp] theorem emit_hif (o : Out) (d : Dev) : (emit o d).hif = d.hif := rfl
@[simp] theorem emit_evr (o : Out) (d : Dev) : (emit o d).evr = d.evr := rfl
@[simp] theorem emit_mod (o : Out) (d : Dev) : (emit o d).mod = d.mod := rfl
@[simp] theorem emit_fls (o : Out) (d : Dev) : (emit o d).fls = d.fls := rfl
@[simp] theorem emit_pins (o : Out) (d : Dev) : (emit o d).pins = d.pins := rfl
@[simp] theorem freeNat_tab  (d : Dev) : (freeNat d).2.tab = d.tab := rfl
@[simp] theorem freeNat_views  (d : Dev) : (freeNat d).2.views = d.views := rfl
@[simp] theorem freeNat_tck  (d : Dev) : (freeNat d).2.tck = d.tck := rfl
@[simp] theorem freeNat_port  (d : Dev) : (freeNat d).2.port = d.port := rfl
@[simp] theorem freeNat_slice  (d : Dev) : (freeNat d).2.slice = d.slice := rfl
@[simp] theorem freeNat_slt  (d : Dev) : (freeNat d).2.slt = d.slt := rfl
@[simp] theorem freeNat_sas  (d : Dev) : (freeNat d).2.sas = d.sas := rfl
@[simp] theorem freeNat_keys  (d : Dev) : (freeNat d).2.keys = d.keys := rfl
@[simp] theorem freeNat_twn  (d : Dev) : (freeNat d).2.twn = d.twn := rfl
@[simp] theorem freeNat_core  (d : Dev) : (freeNat d).2.core = d.core := rfl
@[simp] theorem freeNat_bpm  (d : Dev) : (freeNat d).2.bpm = d.bpm := rfl
@[simp] theorem freeNat_mem  (d : Dev) : (freeNat d).2.mem = d.mem := rfl
@[simp] theorem freeNat_hif  (d : Dev) : (freeNat d).2.hif = d.hif := rfl
@[simp] theorem freeNat_evr  (d : Dev) : (freeNat d).2.evr = d.evr := rfl
@[simp] theorem freeNat_mod  (d : Dev) : (freeNat d).2.mod = d.mod := rfl
@[simp] theorem freeNat_fls  (d : Dev) : (freeNat d).2.fls = d.fls := rfl
@[simp] theorem freeNat_pins  (d : Dev) : (freeNat d).2.pins = d.pins := rfl
@[simp] theorem freeBytes_tab (n : Nat) (d : Dev) : (freeBytes n d).2.tab = d.tab := rfl
@[simp] theorem freeBytes_views (n : Nat) (d : Dev) : (freeBytes n d).2.views = d.views := rfl
@[simp] theorem freeBytes_tck (n : Nat) (d : Dev) : (freeBytes n d).2.tck = d.tck := rfl
@[simp] theorem freeBytes_port (n : Nat) (d : Dev) : (freeBytes n d).2.port = d.port := rfl
@[simp] theorem freeBytes_slice (n : Nat) (d : Dev) : (freeBytes n d).2.slice = d.slice := rfl
@[simp] theorem freeBytes_slt (n : Nat) (d : Dev) : (freeBytes n d).2.slt = d.slt := rfl
@[simp] theorem freeBytes_sas (n : Nat) (d : Dev) : (freeBytes n d).2.sas = d.sas := rfl
@[simp] theorem freeBytes_keys (n : Nat) (d : Dev) : (freeBytes n d).2.keys = d.keys := rfl
@[simp] theorem freeBytes_twn (n : Nat) (d : Dev) : (freeBytes n d).2.twn = d.twn := rfl
@[simp] theorem freeBytes_core (n : Nat) (d : Dev) : (freeBytes n d).2.core = d.core := rfl
@[simp] theorem freeBytes_bpm (n : Nat) (d : Dev) : (freeBytes n d).2.bpm = d.bpm := rfl
@[simp] theorem freeBytes_mem (n : Nat) (d : Dev) : (freeBytes n d).2.mem = d.mem := rfl
@[simp] theorem freeBytes_hif (n : Nat) (d : Dev) : (freeBytes n d).2.hif = d.hif := rfl
@[simp] theorem freeBytes_evr (n : Nat) (d : Dev) : (freeBytes n d).2.evr = d.evr := rfl
@[simp] theorem freeBytes_mod (n : Nat) (d : Dev) : (freeBytes n d).2.mod = d.mod := rfl
@[simp] theorem freeBytes_fls (n : Nat) (d : Dev) : (freeBytes n d).2.fls = d.fls := rfl
@[simp] theorem freeBytes_pins (n : Nat) (d : Dev) : (freeBytes n d).2.pins = d.pins := rfl
@[simp] theorem portCount_tab (n i : Nat) (d : Dev) : (portCount n i d).tab = d.tab := rfl
@[simp] theorem portCount_views (n i : Nat) (d : Dev) : (portCount n i d).views = d.views := rfl
@[simp] theorem portCount_tck (n i : Nat) (d : Dev) : (portCount n i d).tck = d.tck := rfl
@[simp] theorem portCount_slice (n i : Nat) (d : Dev) : (portCount n i d).slice = d.slice := rfl
@[simp] theorem portCount_slt (n i : Nat) (d : Dev) : (portCount n i d).slt = d.slt := rfl
@[simp] theorem portCount_sas (n i : Nat) (d : Dev) : (portCount n i d).sas = d.sas := rfl
@[simp] theorem portCount_keys (n i : Nat) (d : Dev) : (portCount n i d).keys = d.keys := rfl
@[simp] theorem portCount_twn (n i : Nat) (d : Dev) : (portCount n i d).twn = d.twn := rfl
@[simp] theorem portCount_core (n i : Nat) (d : Dev) : (portCount n i d).core = d.core := rfl
@[simp] theorem portCount_bpm (n i : Nat) (d : Dev) : (portCount n i d).bpm = d.bpm := rfl
@[simp] theorem portCount_mem (n i : Nat) (d : Dev) : (portCount n i d).mem = d.mem := rfl
@[simp] theorem portCount_hif (n i : Nat) (d : Dev) : (portCount n i d).hif = d.hif := rfl
@[simp] theorem portCount_evr (n i : Nat) (d : Dev) : (portCount n i d).evr = d.evr := rfl
@[simp] theorem portCount_mod (n i : Nat) (d : Dev) : (portCount n i d).mod = d.mod := rfl
@[simp] theorem portCount_fls (n i : Nat) (d : Dev) : (portCount n i d).fls = d.fls := rfl
@[simp] theorem portCount_pins (n i : Nat) (d : Dev) : (portCount n i d).pins = d.pins := rfl
@[simp] theorem patCount_tab (n i : Nat) (d : Dev) : (patCount n i d).tab = d.tab := rfl
@[simp] theorem patCount_views (n i : Nat) (d : Dev) : (patCount n i d).views = d.views := rfl
@[simp] theorem patCount_tck (n i : Nat) (d : Dev) : (patCount n i d).tck = d.tck := rfl
@[simp] theorem patCount_slice (n i : Nat) (d : Dev) : (patCount n i d).slice = d.slice := rfl
@[simp] theorem patCount_slt (n i : Nat) (d : Dev) : (patCount n i d).slt = d.slt := rfl
@[simp] theorem patCount_sas (n i : Nat) (d : Dev) : (patCount n i d).sas = d.sas := rfl
@[simp] theorem patCount_keys (n i : Nat) (d : Dev) : (patCount n i d).keys = d.keys := rfl
@[simp] theorem patCount_twn (n i : Nat) (d : Dev) : (patCount n i d).twn = d.twn := rfl
@[simp] theorem patCount_core (n i : Nat) (d : Dev) : (patCount n i d).core = d.core := rfl
@[simp] theorem patCount_bpm (n i : Nat) (d : Dev) : (patCount n i d).bpm = d.bpm := rfl
@[simp] theorem patCount_mem (n i : Nat) (d : Dev) : (patCount n i d).mem = d.mem := rfl
@[simp] theorem patCount_hif (n i : Nat) (d : Dev) : (patCount n i d).hif = d.hif := rfl
@[simp] theorem patCount_evr (n i : Nat) (d : Dev) : (patCount n i d).evr = d.evr := rfl
@[simp] theorem patCount_mod (n i : Nat) (d : Dev) : (patCount n i d).mod = d.mod := rfl
@[simp] theorem patCount_fls (n i : Nat) (d : Dev) : (patCount n i d).fls = d.fls := rfl
@[simp] theorem patCount_pins (n i : Nat) (d : Dev) : (patCount n i d).pins = d.pins := rfl
@[simp] theorem saCount_tab (s i n : Nat) (d : Dev) : (saCount s i n d).tab = d.tab := rfl
@[simp] theorem saCount_views (s i n : Nat) (d : Dev) : (saCount s i n d).views = d.views := rfl
@[simp] theorem saCount_tck (s i n : Nat) (d : Dev) : (saCount s i n d).tck = d.tck := rfl
@[simp] theorem saCount_port (s i n : Nat) (d : Dev) : (saCount s i n d).port = d.port := rfl
@[simp] theorem saCount_slice (s i n : Nat) (d : Dev) : (saCount s i n d).slice = d.slice := rfl
@[simp] theorem saCount_slt (s i n : Nat) (d : Dev) : (saCount s i n d).slt = d.slt := rfl
@[simp] theorem saCount_keys (s i n : Nat) (d : Dev) : (saCount s i n d).keys = d.keys := rfl
@[simp] theorem saCount_twn (s i n : Nat) (d : Dev) : (saCount s i n d).twn = d.twn := rfl
@[simp] theorem saCount_core (s i n : Nat) (d : Dev) : (saCount s i n d).core = d.core := rfl
@[simp] theorem saCount_bpm (s i n : Nat) (d : Dev) : (saCount s i n d).bpm = d.bpm := rfl
@[simp] theorem saCount_mem (s i n : Nat) (d : Dev) : (saCount s i n d).mem = d.mem := rfl
@[simp] theorem saCount_hif (s i n : Nat) (d : Dev) : (saCount s i n d).hif = d.hif := rfl
@[simp] theorem saCount_evr (s i n : Nat) (d : Dev) : (saCount s i n d).evr = d.evr := rfl
@[simp] theorem saCount_mod (s i n : Nat) (d : Dev) : (saCount s i n d).mod = d.mod := rfl
@[simp] theorem saCount_fls (s i n : Nat) (d : Dev) : (saCount s i n d).fls = d.fls := rfl
@[simp] theorem saCount_pins (s i n : Nat) (d : Dev) : (saCount s i n d).pins = d.pins := rfl
@[simp] theorem twnCount_tab (i : Nat) (d : Dev) : (twnCount i d).tab = d.tab := rfl
@[simp] theorem twnCount_views (i : Nat) (d : Dev) : (twnCount i d).views = d.views := rfl
@[simp] theorem twnCount_tck (i : Nat) (d : Dev) : (twnCount i d).tck = d.tck := rfl
@[simp] theorem twnCount_port (i : Nat) (d : Dev) : (twnCount i d).port = d.port := rfl
@[simp] theorem twnCount_slice (i : Nat) (d : Dev) : (twnCount i d).slice = d.slice := rfl
@[simp] theorem twnCount_slt (i : Nat) (d : Dev) : (twnCount i d).slt = d.slt := rfl
@[simp] theorem twnCount_sas (i : Nat) (d : Dev) : (twnCount i d).sas = d.sas := rfl
@[simp] theorem twnCount_keys (i : Nat) (d : Dev) : (twnCount i d).keys = d.keys := rfl
@[simp] theorem twnCount_core (i : Nat) (d : Dev) : (twnCount i d).core = d.core := rfl
@[simp] theorem twnCount_bpm (i : Nat) (d : Dev) : (twnCount i d).bpm = d.bpm := rfl
@[simp] theorem twnCount_mem (i : Nat) (d : Dev) : (twnCount i d).mem = d.mem := rfl
@[simp] theorem twnCount_hif (i : Nat) (d : Dev) : (twnCount i d).hif = d.hif := rfl
@[simp] theorem twnCount_evr (i : Nat) (d : Dev) : (twnCount i d).evr = d.evr := rfl
@[simp] theorem twnCount_mod (i : Nat) (d : Dev) : (twnCount i d).mod = d.mod := rfl
@[simp] theorem twnCount_fls (i : Nat) (d : Dev) : (twnCount i d).fls = d.fls := rfl
@[simp] theorem twnCount_pins (i : Nat) (d : Dev) : (twnCount i d).pins = d.pins := rfl
@[simp] theorem stnCount_tab (q i n : Nat) (d : Dev) : (stnCount q i n d).tab = d.tab := rfl
@[simp] theorem stnCount_views (q i n : Nat) (d : Dev) : (stnCount q i n d).views = d.views := rfl
@[simp] theorem stnCount_tck (q i n : Nat) (d : Dev) : (stnCount q i n d).tck = d.tck := rfl
@[simp] theorem stnCount_port (q i n : Nat) (d : Dev) : (stnCount q i n d).port = d.port := rfl
@[simp] theorem stnCount_slice (q i n : Nat) (d : Dev) : (stnCount q i n d).slice = d.slice := rfl
@[simp] theorem stnCount_slt (q i n : Nat) (d : Dev) : (stnCount q i n d).slt = d.slt := rfl
@[simp] theorem stnCount_sas (q i n : Nat) (d : Dev) : (stnCount q i n d).sas = d.sas := rfl
@[simp] theorem stnCount_keys (q i n : Nat) (d : Dev) : (stnCount q i n d).keys = d.keys := rfl
@[simp] theorem stnCount_twn (q i n : Nat) (d : Dev) : (stnCount q i n d).twn = d.twn := rfl
@[simp] theorem stnCount_core (q i n : Nat) (d : Dev) : (stnCount q i n d).core = d.core := rfl
@[simp] theorem stnCount_bpm (q i n : Nat) (d : Dev) : (stnCount q i n d).bpm = d.bpm := rfl
@[simp] theorem stnCount_mem (q i n : Nat) (d : Dev) : (stnCount q i n d).mem = d.mem := rfl
@[simp] theorem stnCount_hif (q i n : Nat) (d : Dev) : (stnCount q i n d).hif = d.hif := rfl
@[simp] theorem stnCount_evr (q i n : Nat) (d : Dev) : (stnCount q i n d).evr = d.evr := rfl
@[simp] theorem stnCount_mod (q i n : Nat) (d : Dev) : (stnCount q i n d).mod = d.mod := rfl
@[simp] theorem stnCount_fls (q i n : Nat) (d : Dev) : (stnCount q i n d).fls = d.fls := rfl
@[simp] theorem stnCount_pins (q i n : Nat) (d : Dev) : (stnCount q i n d).pins = d.pins := rfl
@[simp] theorem prfCount_tab (ev : Nat) (u : Option Nat) (n : Nat) (d : Dev) : (prfCount ev u n d).tab = d.tab := by unfold prfCount; split <;> simp
@[simp] theorem prfCount_views (ev : Nat) (u : Option Nat) (n : Nat) (d : Dev) : (prfCount ev u n d).views = d.views := by unfold prfCount; split <;> simp
@[simp] theorem prfCount_tck (ev : Nat) (u : Option Nat) (n : Nat) (d : Dev) : (prfCount ev u n d).tck = d.tck := by unfold prfCount; split <;> simp
@[simp] theorem prfCount_port (ev : Nat) (u : Option Nat) (n : Nat) (d : Dev) : (prfCount ev u n d).port = d.port := by unfold prfCount; split <;> simp
@[simp] theorem prfCount_slice (ev : Nat) (u : Option Nat) (n : Nat) (d : Dev) : (prfCount ev u n d).slice = d.slice := by unfold prfCount; split <;> simp
@[simp] theorem prfCount_slt (ev : Nat) (u : Option Nat) (n : Nat) (d : Dev) : (prfCount ev u n d).slt = d.slt := by unfold prfCount; split <;> simp
@[simp] theorem prfCount_sas (ev : Nat) (u : Option Nat) (n : Nat) (d : Dev) : (prfCount ev u n d).sas = d.sas := by unfold prfCount; split <;> simp
@[simp] theorem prfCount_keys (ev : Nat) (u : Option Nat) (n : Nat) (d : Dev) : (prfCount ev u n d).keys = d.keys := by unfold prfCount; split <;> simp
@[simp] theorem prfCount_twn (ev : Nat) (u : Option Nat) (n : Nat) (d : Dev) : (prfCount ev u n d).twn = d.twn := by unfold prfCount; split <;> simp
@[simp] theorem prfCount_core (ev : Nat) (u : Option Nat) (n : Nat) (d : Dev) : (prfCount ev u n d).core = d.core := by unfold prfCount; split <;> simp
@[simp] theorem prfCount_bpm (ev : Nat) (u : Option Nat) (n : Nat) (d : Dev) : (prfCount ev u n d).bpm = d.bpm := by unfold prfCount; split <;> simp
@[simp] theorem prfCount_mem (ev : Nat) (u : Option Nat) (n : Nat) (d : Dev) : (prfCount ev u n d).mem = d.mem := by unfold prfCount; split <;> simp
@[simp] theorem prfCount_hif (ev : Nat) (u : Option Nat) (n : Nat) (d : Dev) : (prfCount ev u n d).hif = d.hif := by unfold prfCount; split <;> simp
@[simp] theorem prfCount_evr (ev : Nat) (u : Option Nat) (n : Nat) (d : Dev) : (prfCount ev u n d).evr = d.evr := by unfold prfCount; split <;> simp
@[simp] theorem prfCount_mod (ev : Nat) (u : Option Nat) (n : Nat) (d : Dev) : (prfCount ev u n d).mod = d.mod := by unfold prfCount; split <;> simp
@[simp] theorem prfCount_fls (ev : Nat) (u : Option Nat) (n : Nat) (d : Dev) : (prfCount ev u n d).fls = d.fls := by unfold prfCount; split <;> simp
@[simp] theorem prfCount_pins (ev : Nat) (u : Option Nat) (n : Nat) (d : Dev) : (prfCount ev u n d).pins = d.pins := by unfold prfCount; split <;> simp
@[simp] theorem protWrite_tab (a n : Nat) (d : Dev) : (protWrite a n d).tab = d.tab := by unfold protWrite; split <;> simp
@[simp] theorem protWrite_views (a n : Nat) (d : Dev) : (protWrite a n d).views = d.views := by unfold protWrite; split <;> simp
@[simp] theorem protWrite_tck (a n : Nat) (d : Dev) : (protWrite a n d).tck = d.tck := by unfold protWrite; split <;> simp
@[simp] theorem protWrite_port (a n : Nat) (d : Dev) : (protWrite a n d).port = d.port := by unfold protWrite; split <;> simp
@[simp] theorem protWrite_slice (a n : Nat) (d : Dev) : (protWrite a n d).slice = d.slice := by unfold protWrite; split <;> simp
@[simp] theorem protWrite_slt (a n : Nat) (d : Dev) : (protWrite a n d).slt = d.slt := by unfold protWrite; split <;> simp
@[simp] theorem protWrite_sas (a n : Nat) (d : Dev) : (protWrite a n d).sas = d.sas := by unfold protWrite; split <;> simp
@[simp] theorem protWrite_keys (a n : Nat) (d : Dev) : (protWrite a n d).keys = d.keys := by unfold protWrite; split <;> simp
@[simp] theorem protWrite_twn (a n : Nat) (d : Dev) : (protWrite a n d).twn = d.twn := by unfold protWrite; split <;> simp
@[simp] theorem protWrite_core (a n : Nat) (d : Dev) : (protWrite a n d).core = d.core := by unfold protWrite; split <;> simp
@[simp] theorem protWrite_bpm (a n : Nat) (d : Dev) : (protWrite a n d).bpm = d.bpm := by unfold protWrite; split <;> simp
@[simp] theorem protWrite_hif (a n : Nat) (d : Dev) : (protWrite a n d).hif = d.hif := by unfold protWrite; split <;> simp
@[simp] theorem protWrite_evr (a n : Nat) (d : Dev) : (protWrite a n d).evr = d.evr := by unfold protWrite; split <;> simp
@[simp] theorem protWrite_mod (a n : Nat) (d : Dev) : (protWrite a n d).mod = d.mod := by unfold protWrite; split <;> simp
@[simp] theorem protWrite_fls (a n : Nat) (d : Dev) : (protWrite a n d).fls = d.fls := by unfold protWrite; split <;> simp
@[simp] theorem protWrite_pins (a n : Nat) (d : Dev) : (protWrite a n d).pins = d.pins := by unfold protWrite; split <;> simp
@[simp] theorem Dev.updCold_tab (i : Nat) (f : ColdEnt → ColdEnt) (d : Dev) : (Dev.updCold i f d).tab = d.tab := by simp [Dev.updCold]
@[simp] theorem Dev.updCold_views (i : Nat) (f : ColdEnt → ColdEnt) (d : Dev) : (Dev.updCold i f d).views = d.views := by simp [Dev.updCold]
@[simp] theorem Dev.updCold_tck (i : Nat) (f : ColdEnt → ColdEnt) (d : Dev) : (Dev.updCold i f d).tck = d.tck := by simp [Dev.updCold]
@[simp] theorem Dev.updCold_port (i : Nat) (f : ColdEnt → ColdEnt) (d : Dev) : (Dev.updCold i f d).port = d.port := by simp [Dev.updCold]
@[simp] theorem Dev.updCold_slice (i : Nat) (f : ColdEnt → ColdEnt) (d : Dev) : (Dev.updCold i f d).slice = d.slice := by simp [Dev.updCold]
@[simp] theorem Dev.updCold_slt (i : Nat) (f : ColdEnt → ColdEnt) (d : Dev) : (Dev.updCold i f d).slt = d.slt := by simp [Dev.updCold]
@[simp] theorem Dev.updCold_keys (i : Nat) (f : ColdEnt → ColdEnt) (d : Dev) : (Dev.updCold i f d).keys = d.keys := by simp [Dev.updCold]
@[simp] theorem Dev.updCold_twn (i : Nat) (f : ColdEnt → ColdEnt) (d : Dev) : (Dev.updCold i f d).twn = d.twn := by simp [Dev.updCold]
@[simp] theorem Dev.updCold_core (i : Nat) (f : ColdEnt → ColdEnt) (d : Dev) : (Dev.updCold i f d).core = d.core := by simp [Dev.updCold]
@[simp] theorem Dev.updCold_bpm (i : Nat) (f : ColdEnt → ColdEnt) (d : Dev) : (Dev.updCold i f d).bpm = d.bpm := by simp [Dev.updCold]
@[simp] theorem Dev.updCold_hif (i : Nat) (f : ColdEnt → ColdEnt) (d : Dev) : (Dev.updCold i f d).hif = d.hif := by simp [Dev.updCold]
@[simp] theorem Dev.updCold_evr (i : Nat) (f : ColdEnt → ColdEnt) (d : Dev) : (Dev.updCold i f d).evr = d.evr := by simp [Dev.updCold]
@[simp] theorem Dev.updCold_mod (i : Nat) (f : ColdEnt → ColdEnt) (d : Dev) : (Dev.updCold i f d).mod = d.mod := by simp [Dev.updCold]
@[simp] theorem Dev.updCold_fls (i : Nat) (f : ColdEnt → ColdEnt) (d : Dev) : (Dev.updCold i f d).fls = d.fls := by simp [Dev.updCold]
@[simp] theorem Dev.updCold_pins (i : Nat) (f : ColdEnt → ColdEnt) (d : Dev) : (Dev.updCold i f d).pins = d.pins := by simp [Dev.updCold]
@[simp] theorem hostOut_tab (o : HostOut) (d : Dev) : (hostOut o d).tab = d.tab := by unfold hostOut; split <;> simp
@[simp] theorem hostOut_views (o : HostOut) (d : Dev) : (hostOut o d).views = d.views := by unfold hostOut; split <;> simp
@[simp] theorem hostOut_tck (o : HostOut) (d : Dev) : (hostOut o d).tck = d.tck := by unfold hostOut; split <;> simp
@[simp] theorem hostOut_port (o : HostOut) (d : Dev) : (hostOut o d).port = d.port := by unfold hostOut; split <;> simp
@[simp] theorem hostOut_slice (o : HostOut) (d : Dev) : (hostOut o d).slice = d.slice := by unfold hostOut; split <;> simp
@[simp] theorem hostOut_slt (o : HostOut) (d : Dev) : (hostOut o d).slt = d.slt := by unfold hostOut; split <;> simp
@[simp] theorem hostOut_sas (o : HostOut) (d : Dev) : (hostOut o d).sas = d.sas := by unfold hostOut; split <;> simp
@[simp] theorem hostOut_keys (o : HostOut) (d : Dev) : (hostOut o d).keys = d.keys := by unfold hostOut; split <;> simp
@[simp] theorem hostOut_twn (o : HostOut) (d : Dev) : (hostOut o d).twn = d.twn := by unfold hostOut; split <;> simp
@[simp] theorem hostOut_core (o : HostOut) (d : Dev) : (hostOut o d).core = d.core := by unfold hostOut; split <;> simp
@[simp] theorem hostOut_bpm (o : HostOut) (d : Dev) : (hostOut o d).bpm = d.bpm := by unfold hostOut; split <;> simp
@[simp] theorem hostOut_mem (o : HostOut) (d : Dev) : (hostOut o d).mem = d.mem := by unfold hostOut; split <;> simp
@[simp] theorem hostOut_evr (o : HostOut) (d : Dev) : (hostOut o d).evr = d.evr := by unfold hostOut; split <;> simp
@[simp] theorem hostOut_mod (o : HostOut) (d : Dev) : (hostOut o d).mod = d.mod := by unfold hostOut; split <;> simp
@[simp] theorem hostOut_fls (o : HostOut) (d : Dev) : (hostOut o d).fls = d.fls := by unfold hostOut; split <;> simp
@[simp] theorem hostOut_pins (o : HostOut) (d : Dev) : (hostOut o d).pins = d.pins := by unfold hostOut; split <;> simp
@[simp] theorem sendMsix_tab (v : Nat) (d : Dev) : (sendMsix v d).tab = d.tab := by unfold sendMsix; split <;> simp
@[simp] theorem sendMsix_views (v : Nat) (d : Dev) : (sendMsix v d).views = d.views := by unfold sendMsix; split <;> simp
@[simp] theorem sendMsix_tck (v : Nat) (d : Dev) : (sendMsix v d).tck = d.tck := by unfold sendMsix; split <;> simp
@[simp] theorem sendMsix_port (v : Nat) (d : Dev) : (sendMsix v d).port = d.port := by unfold sendMsix; split <;> simp
@[simp] theorem sendMsix_slice (v : Nat) (d : Dev) : (sendMsix v d).slice = d.slice := by unfold sendMsix; split <;> simp
@[simp] theorem sendMsix_slt (v : Nat) (d : Dev) : (sendMsix v d).slt = d.slt := by unfold sendMsix; split <;> simp
@[simp] theorem sendMsix_sas (v : Nat) (d : Dev) : (sendMsix v d).sas = d.sas := by unfold sendMsix; split <;> simp
@[simp] theorem sendMsix_keys (v : Nat) (d : Dev) : (sendMsix v d).keys = d.keys := by unfold sendMsix; split <;> simp
@[simp] theorem sendMsix_twn (v : Nat) (d : Dev) : (sendMsix v d).twn = d.twn := by unfold sendMsix; split <;> simp
@[simp] theorem sendMsix_core (v : Nat) (d : Dev) : (sendMsix v d).core = d.core := by unfold sendMsix; split <;> simp
@[simp] theorem sendMsix_bpm (v : Nat) (d : Dev) : (sendMsix v d).bpm = d.bpm := by unfold sendMsix; split <;> simp
@[simp] theorem sendMsix_mem (v : Nat) (d : Dev) : (sendMsix v d).mem = d.mem := by unfold sendMsix; split <;> simp
@[simp] theorem sendMsix_evr (v : Nat) (d : Dev) : (sendMsix v d).evr = d.evr := by unfold sendMsix; split <;> simp
@[simp] theorem sendMsix_mod (v : Nat) (d : Dev) : (sendMsix v d).mod = d.mod := by unfold sendMsix; split <;> simp
@[simp] theorem sendMsix_fls (v : Nat) (d : Dev) : (sendMsix v d).fls = d.fls := by unfold sendMsix; split <;> simp
@[simp] theorem sendMsix_pins (v : Nat) (d : Dev) : (sendMsix v d).pins = d.pins := by unfold sendMsix; split <;> simp
@[simp] theorem hostErr_tab (b : Nat) (d : Dev) : (hostErr b d).tab = d.tab := by simp [hostErr, apply_ite Dev.tab]
@[simp] theorem hostErr_views (b : Nat) (d : Dev) : (hostErr b d).views = d.views := by simp [hostErr, apply_ite Dev.views]
@[simp] theorem hostErr_tck (b : Nat) (d : Dev) : (hostErr b d).tck = d.tck := by simp [hostErr, apply_ite Dev.tck]
@[simp] theorem hostErr_port (b : Nat) (d : Dev) : (hostErr b d).port = d.port := by simp [hostErr, apply_ite Dev.port]
@[simp] theorem hostErr_slice (b : Nat) (d : Dev) : (hostErr b d).slice = d.slice := by simp [hostErr, apply_ite Dev.slice]
@[simp] theorem hostErr_slt (b : Nat) (d : Dev) : (hostErr b d).slt = d.slt := by simp [hostErr, apply_ite Dev.slt]
@[simp] theorem hostErr_sas (b : Nat) (d : Dev) : (hostErr b d).sas = d.sas := by simp [hostErr, apply_ite Dev.sas]
@[simp] theorem hostErr_keys (b : Nat) (d : Dev) : (hostErr b d).keys = d.keys := by simp [hostErr, apply_ite Dev.keys]
@[simp] theorem hostErr_twn (b : Nat) (d : Dev) : (hostErr b d).twn = d.twn := by simp [hostErr, apply_ite Dev.twn]
@[simp] theorem hostErr_core (b : Nat) (d : Dev) : (hostErr b d).core = d.core := by simp [hostErr, apply_ite Dev.core]
@[simp] theorem hostErr_bpm (b : Nat) (d : Dev) : (hostErr b d).bpm = d.bpm := by simp [hostErr, apply_ite Dev.bpm]
@[simp] theorem hostErr_mem (b : Nat) (d : Dev) : (hostErr b d).mem = d.mem := by simp [hostErr, apply_ite Dev.mem]
@[simp] theorem hostErr_evr (b : Nat) (d : Dev) : (hostErr b d).evr = d.evr := by simp [hostErr, apply_ite Dev.evr]
@[simp] theorem hostErr_mod (b : Nat) (d : Dev) : (hostErr b d).mod = d.mod := by simp [hostErr, apply_ite Dev.mod]
@[simp] theorem hostErr_fls (b : Nat) (d : Dev) : (hostErr b d).fls = d.fls := by simp [hostErr, apply_ite Dev.fls]
@[simp] theorem hostErr_pins (b : Nat) (d : Dev) : (hostErr b d).pins = d.pins := by simp [hostErr, apply_ite Dev.pins]
@[simp] theorem ringSignal_tab (r : Nat) (d : Dev) : (ringSignal r d).tab = d.tab := by simp [ringSignal, apply_ite Dev.tab]
@[simp] theorem ringSignal_views (r : Nat) (d : Dev) : (ringSignal r d).views = d.views := by simp [ringSignal, apply_ite Dev.views]
@[simp] theorem ringSignal_tck (r : Nat) (d : Dev) : (ringSignal r d).tck = d.tck := by simp [ringSignal, apply_ite Dev.tck]
@[simp] theorem ringSignal_port (r : Nat) (d : Dev) : (ringSignal r d).port = d.port := by simp [ringSignal, apply_ite Dev.port]
@[simp] theorem ringSignal_slice (r : Nat) (d : Dev) : (ringSignal r d).slice = d.slice := by simp [ringSignal, apply_ite Dev.slice]
@[simp] theorem ringSignal_slt (r : Nat) (d : Dev) : (ringSignal r d).slt = d.slt := by simp [ringSignal, apply_ite Dev.slt]
@[simp] theorem ringSignal_sas (r : Nat) (d : Dev) : (ringSignal r d).sas = d.sas := by simp [ringSignal, apply_ite Dev.sas]
@[simp] theorem ringSignal_keys (r : Nat) (d : Dev) : (ringSignal r d).keys = d.keys := by simp [ringSignal, apply_ite Dev.keys]
@[simp] theorem ringSignal_twn (r : Nat) (d : Dev) : (ringSignal r d).twn = d.twn := by simp [ringSignal, apply_ite Dev.twn]
@[simp] theorem ringSignal_core (r : Nat) (d : Dev) : (ringSignal r d).core = d.core := by simp [ringSignal, apply_ite Dev.core]
@[simp] theorem ringSignal_bpm (r : Nat) (d : Dev) : (ringSignal r d).bpm = d.bpm := by simp [ringSignal, apply_ite Dev.bpm]
@[simp] theorem ringSignal_mem (r : Nat) (d : Dev) : (ringSignal r d).mem = d.mem := by simp [ringSignal, apply_ite Dev.mem]
@[simp] theorem ringSignal_evr (r : Nat) (d : Dev) : (ringSignal r d).evr = d.evr := by simp [ringSignal, apply_ite Dev.evr]
@[simp] theorem ringSignal_mod (r : Nat) (d : Dev) : (ringSignal r d).mod = d.mod := by simp [ringSignal, apply_ite Dev.mod]
@[simp] theorem ringSignal_fls (r : Nat) (d : Dev) : (ringSignal r d).fls = d.fls := by simp [ringSignal, apply_ite Dev.fls]
@[simp] theorem ringSignal_pins (r : Nat) (d : Dev) : (ringSignal r d).pins = d.pins := by simp [ringSignal, apply_ite Dev.pins]
@[simp] theorem extSignal_tab (q : Nat) (d : Dev) : (extSignal q d).tab = d.tab := by simp [extSignal, apply_ite Dev.tab]
@[simp] theorem extSignal_views (q : Nat) (d : Dev) : (extSignal q d).views = d.views := by simp [extSignal, apply_ite Dev.views]
@[simp] theorem extSignal_tck (q : Nat) (d : Dev) : (extSignal q d).tck = d.tck := by simp [extSignal, apply_ite Dev.tck]
@[simp] theorem extSignal_port (q : Nat) (d : Dev) : (extSignal q d).port = d.port := by simp [extSignal, apply_ite Dev.port]
@[simp] theorem extSignal_slice (q : Nat) (d : Dev) : (extSignal q d).slice = d.slice := by simp [extSignal, apply_ite Dev.slice]
@[simp] theorem extSignal_slt (q : Nat) (d : Dev) : (extSignal q d).slt = d.slt := by simp [extSignal, apply_ite Dev.slt]
@[simp] theorem extSignal_sas (q : Nat) (d : Dev) : (extSignal q d).sas = d.sas := by simp [extSignal, apply_ite Dev.sas]
@[simp] theorem extSignal_keys (q : Nat) (d : Dev) : (extSignal q d).keys = d.keys := by simp [extSignal, apply_ite Dev.keys]
@[simp] theorem extSignal_twn (q : Nat) (d : Dev) : (extSignal q d).twn = d.twn := by simp [extSignal, apply_ite Dev.twn]
@[simp] theorem extSignal_core (q : Nat) (d : Dev) : (extSignal q d).core = d.core := by simp [extSignal, apply_ite Dev.core]
@[simp] theorem extSignal_bpm (q : Nat) (d : Dev) : (extSignal q d).bpm = d.bpm := by simp [extSignal, apply_ite Dev.bpm]
@[simp] theorem extSignal_mem (q : Nat) (d : Dev) : (extSignal q d).mem = d.mem := by simp [extSignal, apply_ite Dev.mem]
@[simp] theorem extSignal_evr (q : Nat) (d : Dev) : (extSignal q d).evr = d.evr := by simp [extSignal, apply_ite Dev.evr]
@[simp] theorem extSignal_mod (q : Nat) (d : Dev) : (extSignal q d).mod = d.mod := by simp [extSignal, apply_ite Dev.mod]
@[simp] theorem extSignal_fls (q : Nat) (d : Dev) : (extSignal q d).fls = d.fls := by simp [extSignal, apply_ite Dev.fls]
@[simp] theorem extSignal_pins (q : Nat) (d : Dev) : (extSignal q d).pins = d.pins := by simp [extSignal, apply_ite Dev.pins]
@[simp] theorem hmbSignal_tab  (d : Dev) : (hmbSignal d).tab = d.tab := by unfold hmbSignal; split <;> simp
@[simp] theorem hmbSignal_views  (d : Dev) : (hmbSignal d).views = d.views := by unfold hmbSignal; split <;> simp
@[simp] theorem hmbSignal_tck  (d : Dev) : (hmbSignal d).tck = d.tck := by unfold hmbSignal; split <;> simp
@[simp] theorem hmbSignal_port  (d : Dev) : (hmbSignal d).port = d.port := by unfold hmbSignal; split <;> simp
@[simp] theorem hmbSignal_slice  (d : Dev) : (hmbSignal d).slice = d.slice := by unfold hmbSignal; split <;> simp
@[simp] theorem hmbSignal_slt  (d : Dev) : (hmbSignal d).slt = d.slt := by unfold hmbSignal; split <;> simp
@[simp] theorem hmbSignal_sas  (d : Dev) : (hmbSignal d).sas = d.sas := by unfold hmbSignal; split <;> simp
@[simp] theorem hmbSignal_keys  (d : Dev) : (hmbSignal d).keys = d.keys := by unfold hmbSignal; split <;> simp
@[simp] theorem hmbSignal_twn  (d : Dev) : (hmbSignal d).twn = d.twn := by unfold hmbSignal; split <;> simp
@[simp] theorem hmbSignal_core  (d : Dev) : (hmbSignal d).core = d.core := by unfold hmbSignal; split <;> simp
@[simp] theorem hmbSignal_bpm  (d : Dev) : (hmbSignal d).bpm = d.bpm := by unfold hmbSignal; split <;> simp
@[simp] theorem hmbSignal_mem  (d : Dev) : (hmbSignal d).mem = d.mem := by unfold hmbSignal; split <;> simp
@[simp] theorem hmbSignal_evr  (d : Dev) : (hmbSignal d).evr = d.evr := by unfold hmbSignal; split <;> simp
@[simp] theorem hmbSignal_mod  (d : Dev) : (hmbSignal d).mod = d.mod := by unfold hmbSignal; split <;> simp
@[simp] theorem hmbSignal_fls  (d : Dev) : (hmbSignal d).fls = d.fls := by unfold hmbSignal; split <;> simp
@[simp] theorem hmbSignal_pins  (d : Dev) : (hmbSignal d).pins = d.pins := by unfold hmbSignal; split <;> simp
@[simp] theorem bpmDeny_tab (q : Nat) (d : Dev) : (bpmDeny q d).tab = d.tab := by simp [bpmDeny]
@[simp] theorem bpmDeny_views (q : Nat) (d : Dev) : (bpmDeny q d).views = d.views := by simp [bpmDeny]
@[simp] theorem bpmDeny_tck (q : Nat) (d : Dev) : (bpmDeny q d).tck = d.tck := by simp [bpmDeny]
@[simp] theorem bpmDeny_port (q : Nat) (d : Dev) : (bpmDeny q d).port = d.port := by simp [bpmDeny]
@[simp] theorem bpmDeny_slice (q : Nat) (d : Dev) : (bpmDeny q d).slice = d.slice := by simp [bpmDeny]
@[simp] theorem bpmDeny_slt (q : Nat) (d : Dev) : (bpmDeny q d).slt = d.slt := by simp [bpmDeny]
@[simp] theorem bpmDeny_sas (q : Nat) (d : Dev) : (bpmDeny q d).sas = d.sas := by simp [bpmDeny]
@[simp] theorem bpmDeny_keys (q : Nat) (d : Dev) : (bpmDeny q d).keys = d.keys := by simp [bpmDeny]
@[simp] theorem bpmDeny_twn (q : Nat) (d : Dev) : (bpmDeny q d).twn = d.twn := by simp [bpmDeny]
@[simp] theorem bpmDeny_core (q : Nat) (d : Dev) : (bpmDeny q d).core = d.core := by simp [bpmDeny]
@[simp] theorem bpmDeny_mem (q : Nat) (d : Dev) : (bpmDeny q d).mem = d.mem := by simp [bpmDeny]
@[simp] theorem bpmDeny_hif (q : Nat) (d : Dev) : (bpmDeny q d).hif = d.hif := by simp [bpmDeny]
@[simp] theorem bpmDeny_evr (q : Nat) (d : Dev) : (bpmDeny q d).evr = d.evr := by simp [bpmDeny]
@[simp] theorem bpmDeny_mod (q : Nat) (d : Dev) : (bpmDeny q d).mod = d.mod := by simp [bpmDeny]
@[simp] theorem bpmDeny_fls (q : Nat) (d : Dev) : (bpmDeny q d).fls = d.fls := by simp [bpmDeny]
@[simp] theorem bpmDeny_pins (q : Nat) (d : Dev) : (bpmDeny q d).pins = d.pins := by simp [bpmDeny]
@[simp] theorem labelCell_tab (q ch : Nat) (d : Dev) : ((labelCell q ch d).2).tab = d.tab := rfl
@[simp] theorem labelCell_views (q ch : Nat) (d : Dev) : ((labelCell q ch d).2).views = d.views := rfl
@[simp] theorem labelCell_tck (q ch : Nat) (d : Dev) : ((labelCell q ch d).2).tck = d.tck := rfl
@[simp] theorem labelCell_port (q ch : Nat) (d : Dev) : ((labelCell q ch d).2).port = d.port := rfl
@[simp] theorem labelCell_slice (q ch : Nat) (d : Dev) : ((labelCell q ch d).2).slice = d.slice := rfl
@[simp] theorem labelCell_slt (q ch : Nat) (d : Dev) : ((labelCell q ch d).2).slt = d.slt := rfl
@[simp] theorem labelCell_sas (q ch : Nat) (d : Dev) : ((labelCell q ch d).2).sas = d.sas := rfl
@[simp] theorem labelCell_keys (q ch : Nat) (d : Dev) : ((labelCell q ch d).2).keys = d.keys := rfl
@[simp] theorem labelCell_twn (q ch : Nat) (d : Dev) : ((labelCell q ch d).2).twn = d.twn := rfl
@[simp] theorem labelCell_core (q ch : Nat) (d : Dev) : ((labelCell q ch d).2).core = d.core := rfl
@[simp] theorem labelCell_mem (q ch : Nat) (d : Dev) : ((labelCell q ch d).2).mem = d.mem := rfl
@[simp] theorem labelCell_hif (q ch : Nat) (d : Dev) : ((labelCell q ch d).2).hif = d.hif := rfl
@[simp] theorem labelCell_evr (q ch : Nat) (d : Dev) : ((labelCell q ch d).2).evr = d.evr := rfl
@[simp] theorem labelCell_mod (q ch : Nat) (d : Dev) : ((labelCell q ch d).2).mod = d.mod := rfl
@[simp] theorem labelCell_fls (q ch : Nat) (d : Dev) : ((labelCell q ch d).2).fls = d.fls := rfl
@[simp] theorem labelCell_pins (q ch : Nat) (d : Dev) : ((labelCell q ch d).2).pins = d.pins := rfl
@[simp] theorem labelN_tab (q n : Nat) (d : Dev) : (labelN q n d).2.tab = d.tab := by
  induction n generalizing d with | zero => rfl | succ n ih => simp [labelN, ih]
@[simp] theorem labelN_views (q n : Nat) (d : Dev) : (labelN q n d).2.views = d.views := by
  induction n generalizing d with | zero => rfl | succ n ih => simp [labelN, ih]
@[simp] theorem labelN_tck (q n : Nat) (d : Dev) : (labelN q n d).2.tck = d.tck := by
  induction n generalizing d with | zero => rfl | succ n ih => simp [labelN, ih]
@[simp] theorem labelN_port (q n : Nat) (d : Dev) : (labelN q n d).2.port = d.port := by
  induction n generalizing d with | zero => rfl | succ n ih => simp [labelN, ih]
@[simp] theorem labelN_slice (q n : Nat) (d : Dev) : (labelN q n d).2.slice = d.slice := by
  induction n generalizing d with | zero => rfl | succ n ih => simp [labelN, ih]
@[simp] theorem labelN_slt (q n : Nat) (d : Dev) : (labelN q n d).2.slt = d.slt := by
  induction n generalizing d with | zero => rfl | succ n ih => simp [labelN, ih]
@[simp] theorem labelN_sas (q n : Nat) (d : Dev) : (labelN q n d).2.sas = d.sas := by
  induction n generalizing d with | zero => rfl | succ n ih => simp [labelN, ih]
@[simp] theorem labelN_keys (q n : Nat) (d : Dev) : (labelN q n d).2.keys = d.keys := by
  induction n generalizing d with | zero => rfl | succ n ih => simp [labelN, ih]
@[simp] theorem labelN_twn (q n : Nat) (d : Dev) : (labelN q n d).2.twn = d.twn := by
  induction n generalizing d with | zero => rfl | succ n ih => simp [labelN, ih]
@[simp] theorem labelN_core (q n : Nat) (d : Dev) : (labelN q n d).2.core = d.core := by
  induction n generalizing d with | zero => rfl | succ n ih => simp [labelN, ih]
@[simp] theorem labelN_mem (q n : Nat) (d : Dev) : (labelN q n d).2.mem = d.mem := by
  induction n generalizing d with | zero => rfl | succ n ih => simp [labelN, ih]
@[simp] theorem labelN_hif (q n : Nat) (d : Dev) : (labelN q n d).2.hif = d.hif := by
  induction n generalizing d with | zero => rfl | succ n ih => simp [labelN, ih]
@[simp] theorem labelN_evr (q n : Nat) (d : Dev) : (labelN q n d).2.evr = d.evr := by
  induction n generalizing d with | zero => rfl | succ n ih => simp [labelN, ih]
@[simp] theorem labelN_mod (q n : Nat) (d : Dev) : (labelN q n d).2.mod = d.mod := by
  induction n generalizing d with | zero => rfl | succ n ih => simp [labelN, ih]
@[simp] theorem labelN_fls (q n : Nat) (d : Dev) : (labelN q n d).2.fls = d.fls := by
  induction n generalizing d with | zero => rfl | succ n ih => simp [labelN, ih]
@[simp] theorem labelN_pins (q n : Nat) (d : Dev) : (labelN q n d).2.pins = d.pins := by
  induction n generalizing d with | zero => rfl | succ n ih => simp [labelN, ih]
@[simp] theorem takeCells_tab (q n : Nat) (d : Dev) : ((takeCells q n d).2).tab = d.tab := by unfold takeCells; split <;> simp
@[simp] theorem takeCells_views (q n : Nat) (d : Dev) : ((takeCells q n d).2).views = d.views := by unfold takeCells; split <;> simp
@[simp] theorem takeCells_tck (q n : Nat) (d : Dev) : ((takeCells q n d).2).tck = d.tck := by unfold takeCells; split <;> simp
@[simp] theorem takeCells_port (q n : Nat) (d : Dev) : ((takeCells q n d).2).port = d.port := by unfold takeCells; split <;> simp
@[simp] theorem takeCells_slice (q n : Nat) (d : Dev) : ((takeCells q n d).2).slice = d.slice := by unfold takeCells; split <;> simp
@[simp] theorem takeCells_slt (q n : Nat) (d : Dev) : ((takeCells q n d).2).slt = d.slt := by unfold takeCells; split <;> simp
@[simp] theorem takeCells_sas (q n : Nat) (d : Dev) : ((takeCells q n d).2).sas = d.sas := by unfold takeCells; split <;> simp
@[simp] theorem takeCells_keys (q n : Nat) (d : Dev) : ((takeCells q n d).2).keys = d.keys := by unfold takeCells; split <;> simp
@[simp] theorem takeCells_twn (q n : Nat) (d : Dev) : ((takeCells q n d).2).twn = d.twn := by unfold takeCells; split <;> simp
@[simp] theorem takeCells_core (q n : Nat) (d : Dev) : ((takeCells q n d).2).core = d.core := by unfold takeCells; split <;> simp
@[simp] theorem takeCells_mem (q n : Nat) (d : Dev) : ((takeCells q n d).2).mem = d.mem := by unfold takeCells; split <;> simp
@[simp] theorem takeCells_hif (q n : Nat) (d : Dev) : ((takeCells q n d).2).hif = d.hif := by unfold takeCells; split <;> simp
@[simp] theorem takeCells_evr (q n : Nat) (d : Dev) : ((takeCells q n d).2).evr = d.evr := by unfold takeCells; split <;> simp
@[simp] theorem takeCells_mod (q n : Nat) (d : Dev) : ((takeCells q n d).2).mod = d.mod := by unfold takeCells; split <;> simp
@[simp] theorem takeCells_fls (q n : Nat) (d : Dev) : ((takeCells q n d).2).fls = d.fls := by unfold takeCells; split <;> simp
@[simp] theorem takeCells_pins (q n : Nat) (d : Dev) : ((takeCells q n d).2).pins = d.pins := by unfold takeCells; split <;> simp
@[simp] theorem moveCells_tab (r q : Nat) (l : List Nat) (d : Dev) : ((moveCells r q l d).2).tab = d.tab := by unfold moveCells; split <;> simp
@[simp] theorem moveCells_views (r q : Nat) (l : List Nat) (d : Dev) : ((moveCells r q l d).2).views = d.views := by unfold moveCells; split <;> simp
@[simp] theorem moveCells_tck (r q : Nat) (l : List Nat) (d : Dev) : ((moveCells r q l d).2).tck = d.tck := by unfold moveCells; split <;> simp
@[simp] theorem moveCells_port (r q : Nat) (l : List Nat) (d : Dev) : ((moveCells r q l d).2).port = d.port := by unfold moveCells; split <;> simp
@[simp] theorem moveCells_slice (r q : Nat) (l : List Nat) (d : Dev) : ((moveCells r q l d).2).slice = d.slice := by unfold moveCells; split <;> simp
@[simp] theorem moveCells_slt (r q : Nat) (l : List Nat) (d : Dev) : ((moveCells r q l d).2).slt = d.slt := by unfold moveCells; split <;> simp
@[simp] theorem moveCells_sas (r q : Nat) (l : List Nat) (d : Dev) : ((moveCells r q l d).2).sas = d.sas := by unfold moveCells; split <;> simp
@[simp] theorem moveCells_keys (r q : Nat) (l : List Nat) (d : Dev) : ((moveCells r q l d).2).keys = d.keys := by unfold moveCells; split <;> simp
@[simp] theorem moveCells_twn (r q : Nat) (l : List Nat) (d : Dev) : ((moveCells r q l d).2).twn = d.twn := by unfold moveCells; split <;> simp
@[simp] theorem moveCells_core (r q : Nat) (l : List Nat) (d : Dev) : ((moveCells r q l d).2).core = d.core := by unfold moveCells; split <;> simp
@[simp] theorem moveCells_mem (r q : Nat) (l : List Nat) (d : Dev) : ((moveCells r q l d).2).mem = d.mem := by unfold moveCells; split <;> simp
@[simp] theorem moveCells_hif (r q : Nat) (l : List Nat) (d : Dev) : ((moveCells r q l d).2).hif = d.hif := by unfold moveCells; split <;> simp
@[simp] theorem moveCells_evr (r q : Nat) (l : List Nat) (d : Dev) : ((moveCells r q l d).2).evr = d.evr := by unfold moveCells; split <;> simp
@[simp] theorem moveCells_mod (r q : Nat) (l : List Nat) (d : Dev) : ((moveCells r q l d).2).mod = d.mod := by unfold moveCells; split <;> simp
@[simp] theorem moveCells_fls (r q : Nat) (l : List Nat) (d : Dev) : ((moveCells r q l d).2).fls = d.fls := by unfold moveCells; split <;> simp
@[simp] theorem moveCells_pins (r q : Nat) (l : List Nat) (d : Dev) : ((moveCells r q l d).2).pins = d.pins := by unfold moveCells; split <;> simp
@[simp] theorem passCells_tab (r q : Nat) (l : List Nat) (n : Nat) (d : Dev) : ((passCells r q l n d).2).tab = d.tab := by unfold passCells; dsimp only; split <;> simp [apply_ite Dev.tab]
@[simp] theorem passCells_views (r q : Nat) (l : List Nat) (n : Nat) (d : Dev) : ((passCells r q l n d).2).views = d.views := by unfold passCells; dsimp only; split <;> simp [apply_ite Dev.views]
@[simp] theorem passCells_tck (r q : Nat) (l : List Nat) (n : Nat) (d : Dev) : ((passCells r q l n d).2).tck = d.tck := by unfold passCells; dsimp only; split <;> simp [apply_ite Dev.tck]
@[simp] theorem passCells_port (r q : Nat) (l : List Nat) (n : Nat) (d : Dev) : ((passCells r q l n d).2).port = d.port := by unfold passCells; dsimp only; split <;> simp [apply_ite Dev.port]
@[simp] theorem passCells_slice (r q : Nat) (l : List Nat) (n : Nat) (d : Dev) : ((passCells r q l n d).2).slice = d.slice := by unfold passCells; dsimp only; split <;> simp [apply_ite Dev.slice]
@[simp] theorem passCells_slt (r q : Nat) (l : List Nat) (n : Nat) (d : Dev) : ((passCells r q l n d).2).slt = d.slt := by unfold passCells; dsimp only; split <;> simp [apply_ite Dev.slt]
@[simp] theorem passCells_sas (r q : Nat) (l : List Nat) (n : Nat) (d : Dev) : ((passCells r q l n d).2).sas = d.sas := by unfold passCells; dsimp only; split <;> simp [apply_ite Dev.sas]
@[simp] theorem passCells_keys (r q : Nat) (l : List Nat) (n : Nat) (d : Dev) : ((passCells r q l n d).2).keys = d.keys := by unfold passCells; dsimp only; split <;> simp [apply_ite Dev.keys]
@[simp] theorem passCells_twn (r q : Nat) (l : List Nat) (n : Nat) (d : Dev) : ((passCells r q l n d).2).twn = d.twn := by unfold passCells; dsimp only; split <;> simp [apply_ite Dev.twn]
@[simp] theorem passCells_core (r q : Nat) (l : List Nat) (n : Nat) (d : Dev) : ((passCells r q l n d).2).core = d.core := by unfold passCells; dsimp only; split <;> simp [apply_ite Dev.core]
@[simp] theorem passCells_mem (r q : Nat) (l : List Nat) (n : Nat) (d : Dev) : ((passCells r q l n d).2).mem = d.mem := by unfold passCells; dsimp only; split <;> simp [apply_ite Dev.mem]
@[simp] theorem passCells_hif (r q : Nat) (l : List Nat) (n : Nat) (d : Dev) : ((passCells r q l n d).2).hif = d.hif := by unfold passCells; dsimp only; split <;> simp [apply_ite Dev.hif]
@[simp] theorem passCells_evr (r q : Nat) (l : List Nat) (n : Nat) (d : Dev) : ((passCells r q l n d).2).evr = d.evr := by unfold passCells; dsimp only; split <;> simp [apply_ite Dev.evr]
@[simp] theorem passCells_mod (r q : Nat) (l : List Nat) (n : Nat) (d : Dev) : ((passCells r q l n d).2).mod = d.mod := by unfold passCells; dsimp only; split <;> simp [apply_ite Dev.mod]
@[simp] theorem passCells_fls (r q : Nat) (l : List Nat) (n : Nat) (d : Dev) : ((passCells r q l n d).2).fls = d.fls := by unfold passCells; dsimp only; split <;> simp [apply_ite Dev.fls]
@[simp] theorem passCells_pins (r q : Nat) (l : List Nat) (n : Nat) (d : Dev) : ((passCells r q l n d).2).pins = d.pins := by unfold passCells; dsimp only; split <;> simp [apply_ite Dev.pins]
@[simp] theorem freeCells_tab (q : Nat) (l : List Nat) (d : Dev) : (freeCells q l d).tab = d.tab := by unfold freeCells; split <;> simp
@[simp] theorem freeCells_views (q : Nat) (l : List Nat) (d : Dev) : (freeCells q l d).views = d.views := by unfold freeCells; split <;> simp
@[simp] theorem freeCells_tck (q : Nat) (l : List Nat) (d : Dev) : (freeCells q l d).tck = d.tck := by unfold freeCells; split <;> simp
@[simp] theorem freeCells_port (q : Nat) (l : List Nat) (d : Dev) : (freeCells q l d).port = d.port := by unfold freeCells; split <;> simp
@[simp] theorem freeCells_slice (q : Nat) (l : List Nat) (d : Dev) : (freeCells q l d).slice = d.slice := by unfold freeCells; split <;> simp
@[simp] theorem freeCells_slt (q : Nat) (l : List Nat) (d : Dev) : (freeCells q l d).slt = d.slt := by unfold freeCells; split <;> simp
@[simp] theorem freeCells_sas (q : Nat) (l : List Nat) (d : Dev) : (freeCells q l d).sas = d.sas := by unfold freeCells; split <;> simp
@[simp] theorem freeCells_keys (q : Nat) (l : List Nat) (d : Dev) : (freeCells q l d).keys = d.keys := by unfold freeCells; split <;> simp
@[simp] theorem freeCells_twn (q : Nat) (l : List Nat) (d : Dev) : (freeCells q l d).twn = d.twn := by unfold freeCells; split <;> simp
@[simp] theorem freeCells_core (q : Nat) (l : List Nat) (d : Dev) : (freeCells q l d).core = d.core := by unfold freeCells; split <;> simp
@[simp] theorem freeCells_mem (q : Nat) (l : List Nat) (d : Dev) : (freeCells q l d).mem = d.mem := by unfold freeCells; split <;> simp
@[simp] theorem freeCells_hif (q : Nat) (l : List Nat) (d : Dev) : (freeCells q l d).hif = d.hif := by unfold freeCells; split <;> simp
@[simp] theorem freeCells_evr (q : Nat) (l : List Nat) (d : Dev) : (freeCells q l d).evr = d.evr := by unfold freeCells; split <;> simp
@[simp] theorem freeCells_mod (q : Nat) (l : List Nat) (d : Dev) : (freeCells q l d).mod = d.mod := by unfold freeCells; split <;> simp
@[simp] theorem freeCells_fls (q : Nat) (l : List Nat) (d : Dev) : (freeCells q l d).fls = d.fls := by unfold freeCells; split <;> simp
@[simp] theorem freeCells_pins (q : Nat) (l : List Nat) (d : Dev) : (freeCells q l d).pins = d.pins := by unfold freeCells; split <;> simp
@[simp] theorem evPendAll_tab (b : Nat) (d : Dev) : (evPendAll b d).tab = d.tab := by simp [evPendAll]
@[simp] theorem evPendAll_views (b : Nat) (d : Dev) : (evPendAll b d).views = d.views := by simp [evPendAll]
@[simp] theorem evPendAll_tck (b : Nat) (d : Dev) : (evPendAll b d).tck = d.tck := by simp [evPendAll]
@[simp] theorem evPendAll_port (b : Nat) (d : Dev) : (evPendAll b d).port = d.port := by simp [evPendAll]
@[simp] theorem evPendAll_slice (b : Nat) (d : Dev) : (evPendAll b d).slice = d.slice := by simp [evPendAll]
@[simp] theorem evPendAll_slt (b : Nat) (d : Dev) : (evPendAll b d).slt = d.slt := by simp [evPendAll]
@[simp] theorem evPendAll_sas (b : Nat) (d : Dev) : (evPendAll b d).sas = d.sas := by simp [evPendAll]
@[simp] theorem evPendAll_keys (b : Nat) (d : Dev) : (evPendAll b d).keys = d.keys := by simp [evPendAll]
@[simp] theorem evPendAll_twn (b : Nat) (d : Dev) : (evPendAll b d).twn = d.twn := by simp [evPendAll]
@[simp] theorem evPendAll_bpm (b : Nat) (d : Dev) : (evPendAll b d).bpm = d.bpm := by simp [evPendAll]
@[simp] theorem evPendAll_mem (b : Nat) (d : Dev) : (evPendAll b d).mem = d.mem := by simp [evPendAll]
@[simp] theorem evPendAll_hif (b : Nat) (d : Dev) : (evPendAll b d).hif = d.hif := by simp [evPendAll]
@[simp] theorem evPendAll_evr (b : Nat) (d : Dev) : (evPendAll b d).evr = d.evr := by simp [evPendAll]
@[simp] theorem evPendAll_mod (b : Nat) (d : Dev) : (evPendAll b d).mod = d.mod := by simp [evPendAll]
@[simp] theorem evPendAll_fls (b : Nat) (d : Dev) : (evPendAll b d).fls = d.fls := by simp [evPendAll]
@[simp] theorem evPendAll_pins (b : Nat) (d : Dev) : (evPendAll b d).pins = d.pins := by simp [evPendAll]
@[simp] theorem evPendCore_tab (c b : Nat) (d : Dev) : (evPendCore c b d).tab = d.tab := by simp [evPendCore]
@[simp] theorem evPendCore_views (c b : Nat) (d : Dev) : (evPendCore c b d).views = d.views := by simp [evPendCore]
@[simp] theorem evPendCore_tck (c b : Nat) (d : Dev) : (evPendCore c b d).tck = d.tck := by simp [evPendCore]
@[simp] theorem evPendCore_port (c b : Nat) (d : Dev) : (evPendCore c b d).port = d.port := by simp [evPendCore]
@[simp] theorem evPendCore_slice (c b : Nat) (d : Dev) : (evPendCore c b d).slice = d.slice := by simp [evPendCore]
@[simp] theorem evPendCore_slt (c b : Nat) (d : Dev) : (evPendCore c b d).slt = d.slt := by simp [evPendCore]
@[simp] theorem evPendCore_sas (c b : Nat) (d : Dev) : (evPendCore c b d).sas = d.sas := by simp [evPendCore]
@[simp] theorem evPendCore_keys (c b : Nat) (d : Dev) : (evPendCore c b d).keys = d.keys := by simp [evPendCore]
@[simp] theorem evPendCore_twn (c b : Nat) (d : Dev) : (evPendCore c b d).twn = d.twn := by simp [evPendCore]
@[simp] theorem evPendCore_bpm (c b : Nat) (d : Dev) : (evPendCore c b d).bpm = d.bpm := by simp [evPendCore]
@[simp] theorem evPendCore_mem (c b : Nat) (d : Dev) : (evPendCore c b d).mem = d.mem := by simp [evPendCore]
@[simp] theorem evPendCore_hif (c b : Nat) (d : Dev) : (evPendCore c b d).hif = d.hif := by simp [evPendCore]
@[simp] theorem evPendCore_evr (c b : Nat) (d : Dev) : (evPendCore c b d).evr = d.evr := by simp [evPendCore]
@[simp] theorem evPendCore_mod (c b : Nat) (d : Dev) : (evPendCore c b d).mod = d.mod := by simp [evPendCore]
@[simp] theorem evPendCore_fls (c b : Nat) (d : Dev) : (evPendCore c b d).fls = d.fls := by simp [evPendCore]
@[simp] theorem evPendCore_pins (c b : Nat) (d : Dev) : (evPendCore c b d).pins = d.pins := by simp [evPendCore]
@[simp] theorem hpEmit_tab (j : Nat) (b : Bytes) (d : Dev) : (hpEmit j b d).tab = d.tab := by unfold hpEmit; split <;> simp
@[simp] theorem hpEmit_views (j : Nat) (b : Bytes) (d : Dev) : (hpEmit j b d).views = d.views := by unfold hpEmit; split <;> simp
@[simp] theorem hpEmit_tck (j : Nat) (b : Bytes) (d : Dev) : (hpEmit j b d).tck = d.tck := by unfold hpEmit; split <;> simp
@[simp] theorem hpEmit_port (j : Nat) (b : Bytes) (d : Dev) : (hpEmit j b d).port = d.port := by unfold hpEmit; split <;> simp
@[simp] theorem hpEmit_slice (j : Nat) (b : Bytes) (d : Dev) : (hpEmit j b d).slice = d.slice := by unfold hpEmit; split <;> simp
@[simp] theorem hpEmit_slt (j : Nat) (b : Bytes) (d : Dev) : (hpEmit j b d).slt = d.slt := by unfold hpEmit; split <;> simp
@[simp] theorem hpEmit_sas (j : Nat) (b : Bytes) (d : Dev) : (hpEmit j b d).sas = d.sas := by unfold hpEmit; split <;> simp
@[simp] theorem hpEmit_keys (j : Nat) (b : Bytes) (d : Dev) : (hpEmit j b d).keys = d.keys := by unfold hpEmit; split <;> simp
@[simp] theorem hpEmit_core (j : Nat) (b : Bytes) (d : Dev) : (hpEmit j b d).core = d.core := by unfold hpEmit; split <;> simp
@[simp] theorem hpEmit_bpm (j : Nat) (b : Bytes) (d : Dev) : (hpEmit j b d).bpm = d.bpm := by unfold hpEmit; split <;> simp
@[simp] theorem hpEmit_mem (j : Nat) (b : Bytes) (d : Dev) : (hpEmit j b d).mem = d.mem := by unfold hpEmit; split <;> simp
@[simp] theorem hpEmit_hif (j : Nat) (b : Bytes) (d : Dev) : (hpEmit j b d).hif = d.hif := by unfold hpEmit; split <;> simp
@[simp] theorem hpEmit_evr (j : Nat) (b : Bytes) (d : Dev) : (hpEmit j b d).evr = d.evr := by unfold hpEmit; split <;> simp
@[simp] theorem hpEmit_mod (j : Nat) (b : Bytes) (d : Dev) : (hpEmit j b d).mod = d.mod := by unfold hpEmit; split <;> simp
@[simp] theorem hpEmit_fls (j : Nat) (b : Bytes) (d : Dev) : (hpEmit j b d).fls = d.fls := by unfold hpEmit; split <;> simp
@[simp] theorem hpEmit_pins (j : Nat) (b : Bytes) (d : Dev) : (hpEmit j b d).pins = d.pins := by unfold hpEmit; split <;> simp
@[simp] theorem hpTransmit_tab (j q : Nat) (x : HpFrame) (d : Dev) : (hpTransmit j q x d).tab = d.tab := by simp [hpTransmit]
@[simp] theorem hpTransmit_views (j q : Nat) (x : HpFrame) (d : Dev) : (hpTransmit j q x d).views = d.views := by simp [hpTransmit]
@[simp] theorem hpTransmit_tck (j q : Nat) (x : HpFrame) (d : Dev) : (hpTransmit j q x d).tck = d.tck := by simp [hpTransmit]
@[simp] theorem hpTransmit_port (j q : Nat) (x : HpFrame) (d : Dev) : (hpTransmit j q x d).port = d.port := by simp [hpTransmit]
@[simp] theorem hpTransmit_slice (j q : Nat) (x : HpFrame) (d : Dev) : (hpTransmit j q x d).slice = d.slice := by simp [hpTransmit]
@[simp] theorem hpTransmit_slt (j q : Nat) (x : HpFrame) (d : Dev) : (hpTransmit j q x d).slt = d.slt := by simp [hpTransmit]
@[simp] theorem hpTransmit_sas (j q : Nat) (x : HpFrame) (d : Dev) : (hpTransmit j q x d).sas = d.sas := by simp [hpTransmit]
@[simp] theorem hpTransmit_keys (j q : Nat) (x : HpFrame) (d : Dev) : (hpTransmit j q x d).keys = d.keys := by simp [hpTransmit]
@[simp] theorem hpTransmit_core (j q : Nat) (x : HpFrame) (d : Dev) : (hpTransmit j q x d).core = d.core := by simp [hpTransmit]
@[simp] theorem hpTransmit_bpm (j q : Nat) (x : HpFrame) (d : Dev) : (hpTransmit j q x d).bpm = d.bpm := by simp [hpTransmit]
@[simp] theorem hpTransmit_mem (j q : Nat) (x : HpFrame) (d : Dev) : (hpTransmit j q x d).mem = d.mem := by simp [hpTransmit]
@[simp] theorem hpTransmit_hif (j q : Nat) (x : HpFrame) (d : Dev) : (hpTransmit j q x d).hif = d.hif := by simp [hpTransmit]
@[simp] theorem hpTransmit_evr (j q : Nat) (x : HpFrame) (d : Dev) : (hpTransmit j q x d).evr = d.evr := by simp [hpTransmit]
@[simp] theorem hpTransmit_mod (j q : Nat) (x : HpFrame) (d : Dev) : (hpTransmit j q x d).mod = d.mod := by simp [hpTransmit]
@[simp] theorem hpTransmit_fls (j q : Nat) (x : HpFrame) (d : Dev) : (hpTransmit j q x d).fls = d.fls := by simp [hpTransmit]
@[simp] theorem hpTransmit_pins (j q : Nat) (x : HpFrame) (d : Dev) : (hpTransmit j q x d).pins = d.pins := by simp [hpTransmit]
@[simp] theorem linkTransmit_tab (j : Nat) (x : HpFrame) (d : Dev) : (linkTransmit j x d).tab = d.tab := by simp [linkTransmit]
@[simp] theorem linkTransmit_views (j : Nat) (x : HpFrame) (d : Dev) : (linkTransmit j x d).views = d.views := by simp [linkTransmit]
@[simp] theorem linkTransmit_tck (j : Nat) (x : HpFrame) (d : Dev) : (linkTransmit j x d).tck = d.tck := by simp [linkTransmit]
@[simp] theorem linkTransmit_port (j : Nat) (x : HpFrame) (d : Dev) : (linkTransmit j x d).port = d.port := by simp [linkTransmit]
@[simp] theorem linkTransmit_slice (j : Nat) (x : HpFrame) (d : Dev) : (linkTransmit j x d).slice = d.slice := by simp [linkTransmit]
@[simp] theorem linkTransmit_slt (j : Nat) (x : HpFrame) (d : Dev) : (linkTransmit j x d).slt = d.slt := by simp [linkTransmit]
@[simp] theorem linkTransmit_sas (j : Nat) (x : HpFrame) (d : Dev) : (linkTransmit j x d).sas = d.sas := by simp [linkTransmit]
@[simp] theorem linkTransmit_keys (j : Nat) (x : HpFrame) (d : Dev) : (linkTransmit j x d).keys = d.keys := by simp [linkTransmit]
@[simp] theorem linkTransmit_core (j : Nat) (x : HpFrame) (d : Dev) : (linkTransmit j x d).core = d.core := by simp [linkTransmit]
@[simp] theorem linkTransmit_bpm (j : Nat) (x : HpFrame) (d : Dev) : (linkTransmit j x d).bpm = d.bpm := by simp [linkTransmit]
@[simp] theorem linkTransmit_mem (j : Nat) (x : HpFrame) (d : Dev) : (linkTransmit j x d).mem = d.mem := by simp [linkTransmit]
@[simp] theorem linkTransmit_hif (j : Nat) (x : HpFrame) (d : Dev) : (linkTransmit j x d).hif = d.hif := by simp [linkTransmit]
@[simp] theorem linkTransmit_evr (j : Nat) (x : HpFrame) (d : Dev) : (linkTransmit j x d).evr = d.evr := by simp [linkTransmit]
@[simp] theorem linkTransmit_mod (j : Nat) (x : HpFrame) (d : Dev) : (linkTransmit j x d).mod = d.mod := by simp [linkTransmit]
@[simp] theorem linkTransmit_fls (j : Nat) (x : HpFrame) (d : Dev) : (linkTransmit j x d).fls = d.fls := by simp [linkTransmit]
@[simp] theorem linkTransmit_pins (j : Nat) (x : HpFrame) (d : Dev) : (linkTransmit j x d).pins = d.pins := by simp [linkTransmit]
@[simp] theorem hpFirst_tab (j : Nat) (x : HpFrame) (d : Dev) : (hpFirst j x d).tab = d.tab := by unfold hpFirst; dsimp only; (repeat' split) <;> simp
@[simp] theorem hpFirst_views (j : Nat) (x : HpFrame) (d : Dev) : (hpFirst j x d).views = d.views := by unfold hpFirst; dsimp only; (repeat' split) <;> simp
@[simp] theorem hpFirst_tck (j : Nat) (x : HpFrame) (d : Dev) : (hpFirst j x d).tck = d.tck := by unfold hpFirst; dsimp only; (repeat' split) <;> simp
@[simp] theorem hpFirst_port (j : Nat) (x : HpFrame) (d : Dev) : (hpFirst j x d).port = d.port := by unfold hpFirst; dsimp only; (repeat' split) <;> simp
@[simp] theorem hpFirst_slice (j : Nat) (x : HpFrame) (d : Dev) : (hpFirst j x d).slice = d.slice := by unfold hpFirst; dsimp only; (repeat' split) <;> simp
@[simp] theorem hpFirst_slt (j : Nat) (x : HpFrame) (d : Dev) : (hpFirst j x d).slt = d.slt := by unfold hpFirst; dsimp only; (repeat' split) <;> simp
@[simp] theorem hpFirst_sas (j : Nat) (x : HpFrame) (d : Dev) : (hpFirst j x d).sas = d.sas := by unfold hpFirst; dsimp only; (repeat' split) <;> simp
@[simp] theorem hpFirst_keys (j : Nat) (x : HpFrame) (d : Dev) : (hpFirst j x d).keys = d.keys := by unfold hpFirst; dsimp only; (repeat' split) <;> simp
@[simp] theorem hpFirst_core (j : Nat) (x : HpFrame) (d : Dev) : (hpFirst j x d).core = d.core := by unfold hpFirst; dsimp only; (repeat' split) <;> simp
@[simp] theorem hpFirst_bpm (j : Nat) (x : HpFrame) (d : Dev) : (hpFirst j x d).bpm = d.bpm := by unfold hpFirst; dsimp only; (repeat' split) <;> simp
@[simp] theorem hpFirst_mem (j : Nat) (x : HpFrame) (d : Dev) : (hpFirst j x d).mem = d.mem := by unfold hpFirst; dsimp only; (repeat' split) <;> simp
@[simp] theorem hpFirst_hif (j : Nat) (x : HpFrame) (d : Dev) : (hpFirst j x d).hif = d.hif := by unfold hpFirst; dsimp only; (repeat' split) <;> simp
@[simp] theorem hpFirst_evr (j : Nat) (x : HpFrame) (d : Dev) : (hpFirst j x d).evr = d.evr := by unfold hpFirst; dsimp only; (repeat' split) <;> simp
@[simp] theorem hpFirst_mod (j : Nat) (x : HpFrame) (d : Dev) : (hpFirst j x d).mod = d.mod := by unfold hpFirst; dsimp only; (repeat' split) <;> simp
@[simp] theorem hpFirst_fls (j : Nat) (x : HpFrame) (d : Dev) : (hpFirst j x d).fls = d.fls := by unfold hpFirst; dsimp only; (repeat' split) <;> simp
@[simp] theorem hpFirst_pins (j : Nat) (x : HpFrame) (d : Dev) : (hpFirst j x d).pins = d.pins := by unfold hpFirst; dsimp only; (repeat' split) <;> simp
@[simp] theorem hpSend_tab (j type prio dst src hops eseq : Nat) (p : Bytes) (d : Dev) : (hpSend j type prio dst src hops eseq p d).tab = d.tab := by unfold hpSend; dsimp only; (repeat' split) <;> simp
@[simp] theorem hpSend_views (j type prio dst src hops eseq : Nat) (p : Bytes) (d : Dev) : (hpSend j type prio dst src hops eseq p d).views = d.views := by unfold hpSend; dsimp only; (repeat' split) <;> simp
@[simp] theorem hpSend_tck (j type prio dst src hops eseq : Nat) (p : Bytes) (d : Dev) : (hpSend j type prio dst src hops eseq p d).tck = d.tck := by unfold hpSend; dsimp only; (repeat' split) <;> simp
@[simp] theorem hpSend_port (j type prio dst src hops eseq : Nat) (p : Bytes) (d : Dev) : (hpSend j type prio dst src hops eseq p d).port = d.port := by unfold hpSend; dsimp only; (repeat' split) <;> simp
@[simp] theorem hpSend_slice (j type prio dst src hops eseq : Nat) (p : Bytes) (d : Dev) : (hpSend j type prio dst src hops eseq p d).slice = d.slice := by unfold hpSend; dsimp only; (repeat' split) <;> simp
@[simp] theorem hpSend_slt (j type prio dst src hops eseq : Nat) (p : Bytes) (d : Dev) : (hpSend j type prio dst src hops eseq p d).slt = d.slt := by unfold hpSend; dsimp only; (repeat' split) <;> simp
@[simp] theorem hpSend_sas (j type prio dst src hops eseq : Nat) (p : Bytes) (d : Dev) : (hpSend j type prio dst src hops eseq p d).sas = d.sas := by unfold hpSend; dsimp only; (repeat' split) <;> simp
@[simp] theorem hpSend_keys (j type prio dst src hops eseq : Nat) (p : Bytes) (d : Dev) : (hpSend j type prio dst src hops eseq p d).keys = d.keys := by unfold hpSend; dsimp only; (repeat' split) <;> simp
@[simp] theorem hpSend_core (j type prio dst src hops eseq : Nat) (p : Bytes) (d : Dev) : (hpSend j type prio dst src hops eseq p d).core = d.core := by unfold hpSend; dsimp only; (repeat' split) <;> simp
@[simp] theorem hpSend_bpm (j type prio dst src hops eseq : Nat) (p : Bytes) (d : Dev) : (hpSend j type prio dst src hops eseq p d).bpm = d.bpm := by unfold hpSend; dsimp only; (repeat' split) <;> simp
@[simp] theorem hpSend_mem (j type prio dst src hops eseq : Nat) (p : Bytes) (d : Dev) : (hpSend j type prio dst src hops eseq p d).mem = d.mem := by unfold hpSend; dsimp only; (repeat' split) <;> simp
@[simp] theorem hpSend_hif (j type prio dst src hops eseq : Nat) (p : Bytes) (d : Dev) : (hpSend j type prio dst src hops eseq p d).hif = d.hif := by unfold hpSend; dsimp only; (repeat' split) <;> simp
@[simp] theorem hpSend_evr (j type prio dst src hops eseq : Nat) (p : Bytes) (d : Dev) : (hpSend j type prio dst src hops eseq p d).evr = d.evr := by unfold hpSend; dsimp only; (repeat' split) <;> simp
@[simp] theorem hpSend_mod (j type prio dst src hops eseq : Nat) (p : Bytes) (d : Dev) : (hpSend j type prio dst src hops eseq p d).mod = d.mod := by unfold hpSend; dsimp only; (repeat' split) <;> simp
@[simp] theorem hpSend_fls (j type prio dst src hops eseq : Nat) (p : Bytes) (d : Dev) : (hpSend j type prio dst src hops eseq p d).fls = d.fls := by unfold hpSend; dsimp only; (repeat' split) <;> simp
@[simp] theorem hpSend_pins (j type prio dst src hops eseq : Nat) (p : Bytes) (d : Dev) : (hpSend j type prio dst src hops eseq p d).pins = d.pins := by unfold hpSend; dsimp only; (repeat' split) <;> simp
@[simp] theorem meshSend_tab (type prio dst : Nat) (p : Bytes) (d : Dev) : (meshSend type prio dst p d).tab = d.tab := by unfold meshSend; simp only []; (repeat' split) <;> simp
@[simp] theorem meshSend_views (type prio dst : Nat) (p : Bytes) (d : Dev) : (meshSend type prio dst p d).views = d.views := by unfold meshSend; simp only []; (repeat' split) <;> simp
@[simp] theorem meshSend_tck (type prio dst : Nat) (p : Bytes) (d : Dev) : (meshSend type prio dst p d).tck = d.tck := by unfold meshSend; simp only []; (repeat' split) <;> simp
@[simp] theorem meshSend_port (type prio dst : Nat) (p : Bytes) (d : Dev) : (meshSend type prio dst p d).port = d.port := by unfold meshSend; simp only []; (repeat' split) <;> simp
@[simp] theorem meshSend_slice (type prio dst : Nat) (p : Bytes) (d : Dev) : (meshSend type prio dst p d).slice = d.slice := by unfold meshSend; simp only []; (repeat' split) <;> simp
@[simp] theorem meshSend_slt (type prio dst : Nat) (p : Bytes) (d : Dev) : (meshSend type prio dst p d).slt = d.slt := by unfold meshSend; simp only []; (repeat' split) <;> simp
@[simp] theorem meshSend_sas (type prio dst : Nat) (p : Bytes) (d : Dev) : (meshSend type prio dst p d).sas = d.sas := by unfold meshSend; simp only []; (repeat' split) <;> simp
@[simp] theorem meshSend_keys (type prio dst : Nat) (p : Bytes) (d : Dev) : (meshSend type prio dst p d).keys = d.keys := by unfold meshSend; simp only []; (repeat' split) <;> simp
@[simp] theorem meshSend_core (type prio dst : Nat) (p : Bytes) (d : Dev) : (meshSend type prio dst p d).core = d.core := by unfold meshSend; simp only []; (repeat' split) <;> simp
@[simp] theorem meshSend_bpm (type prio dst : Nat) (p : Bytes) (d : Dev) : (meshSend type prio dst p d).bpm = d.bpm := by unfold meshSend; simp only []; (repeat' split) <;> simp
@[simp] theorem meshSend_mem (type prio dst : Nat) (p : Bytes) (d : Dev) : (meshSend type prio dst p d).mem = d.mem := by unfold meshSend; simp only []; (repeat' split) <;> simp
@[simp] theorem meshSend_hif (type prio dst : Nat) (p : Bytes) (d : Dev) : (meshSend type prio dst p d).hif = d.hif := by unfold meshSend; simp only []; (repeat' split) <;> simp
@[simp] theorem meshSend_evr (type prio dst : Nat) (p : Bytes) (d : Dev) : (meshSend type prio dst p d).evr = d.evr := by unfold meshSend; simp only []; (repeat' split) <;> simp
@[simp] theorem meshSend_mod (type prio dst : Nat) (p : Bytes) (d : Dev) : (meshSend type prio dst p d).mod = d.mod := by unfold meshSend; simp only []; (repeat' split) <;> simp
@[simp] theorem meshSend_fls (type prio dst : Nat) (p : Bytes) (d : Dev) : (meshSend type prio dst p d).fls = d.fls := by unfold meshSend; simp only []; (repeat' split) <;> simp
@[simp] theorem meshSend_pins (type prio dst : Nat) (p : Bytes) (d : Dev) : (meshSend type prio dst p d).pins = d.pins := by unfold meshSend; simp only []; (repeat' split) <;> simp
@[simp] theorem collectRec_tab (r : EvRec) (d : Dev) : (collectRec r d).tab = d.tab := by unfold collectRec; split <;> simp
@[simp] theorem collectRec_views (r : EvRec) (d : Dev) : (collectRec r d).views = d.views := by unfold collectRec; split <;> simp
@[simp] theorem collectRec_tck (r : EvRec) (d : Dev) : (collectRec r d).tck = d.tck := by unfold collectRec; split <;> simp
@[simp] theorem collectRec_port (r : EvRec) (d : Dev) : (collectRec r d).port = d.port := by unfold collectRec; split <;> simp
@[simp] theorem collectRec_slice (r : EvRec) (d : Dev) : (collectRec r d).slice = d.slice := by unfold collectRec; split <;> simp
@[simp] theorem collectRec_slt (r : EvRec) (d : Dev) : (collectRec r d).slt = d.slt := by unfold collectRec; split <;> simp
@[simp] theorem collectRec_sas (r : EvRec) (d : Dev) : (collectRec r d).sas = d.sas := by unfold collectRec; split <;> simp
@[simp] theorem collectRec_keys (r : EvRec) (d : Dev) : (collectRec r d).keys = d.keys := by unfold collectRec; split <;> simp
@[simp] theorem collectRec_core (r : EvRec) (d : Dev) : (collectRec r d).core = d.core := by unfold collectRec; split <;> simp
@[simp] theorem collectRec_bpm (r : EvRec) (d : Dev) : (collectRec r d).bpm = d.bpm := by unfold collectRec; split <;> simp
@[simp] theorem collectRec_mem (r : EvRec) (d : Dev) : (collectRec r d).mem = d.mem := by unfold collectRec; split <;> simp
@[simp] theorem collectRec_hif (r : EvRec) (d : Dev) : (collectRec r d).hif = d.hif := by unfold collectRec; split <;> simp
@[simp] theorem collectRec_evr (r : EvRec) (d : Dev) : (collectRec r d).evr = d.evr := by unfold collectRec; split <;> simp
@[simp] theorem collectRec_mod (r : EvRec) (d : Dev) : (collectRec r d).mod = d.mod := by unfold collectRec; split <;> simp
@[simp] theorem collectRec_fls (r : EvRec) (d : Dev) : (collectRec r d).fls = d.fls := by unfold collectRec; split <;> simp
@[simp] theorem collectRec_pins (r : EvRec) (d : Dev) : (collectRec r d).pins = d.pins := by unfold collectRec; split <;> simp
/-- An operation that keeps a part of the device keeps it over a list of items. -/
theorem each_keeps {α β : Type} (g : Dev → β) (f : α → Dev → Dev) (h : ∀ a d, g (f a d) = g d) (l : List α) (d : Dev) :
    g (each l f d) = g d := by
  induction l generalizing d with
  | nil => rfl
  | cons a l ih => exact (ih (f a d)).trans (h a d)

@[simp] theorem flsFirst_tab (d : Dev) : (flsFirst d).tab = d.tab := by unfold flsFirst doFlsDone; (repeat' split) <;> rfl
@[simp] theorem flsFirst_views (d : Dev) : (flsFirst d).views = d.views := by unfold flsFirst doFlsDone; (repeat' split) <;> rfl
@[simp] theorem flsFirst_tck (d : Dev) : (flsFirst d).tck = d.tck := by unfold flsFirst doFlsDone; (repeat' split) <;> rfl
@[simp] theorem flsFirst_port (d : Dev) : (flsFirst d).port = d.port := by unfold flsFirst doFlsDone; (repeat' split) <;> rfl
@[simp] theorem flsFirst_slice (d : Dev) : (flsFirst d).slice = d.slice := by unfold flsFirst doFlsDone; (repeat' split) <;> rfl
@[simp] theorem flsFirst_slt (d : Dev) : (flsFirst d).slt = d.slt := by unfold flsFirst doFlsDone; (repeat' split) <;> rfl
@[simp] theorem flsFirst_sas (d : Dev) : (flsFirst d).sas = d.sas := by unfold flsFirst doFlsDone; (repeat' split) <;> rfl
@[simp] theorem flsFirst_keys (d : Dev) : (flsFirst d).keys = d.keys := by unfold flsFirst doFlsDone; (repeat' split) <;> rfl
@[simp] theorem flsFirst_bpm (d : Dev) : (flsFirst d).bpm = d.bpm := by unfold flsFirst doFlsDone; (repeat' split) <;> rfl
@[simp] theorem flsFirst_mem (d : Dev) : (flsFirst d).mem = d.mem := by unfold flsFirst doFlsDone; (repeat' split) <;> rfl
@[simp] theorem flsFirst_hif (d : Dev) : (flsFirst d).hif = d.hif := by unfold flsFirst doFlsDone; (repeat' split) <;> rfl
@[simp] theorem flsFirst_mod (d : Dev) : (flsFirst d).mod = d.mod := by unfold flsFirst doFlsDone; (repeat' split) <;> rfl
@[simp] theorem flsFirst_pins (d : Dev) : (flsFirst d).pins = d.pins := by unfold flsFirst doFlsDone; (repeat' split) <;> rfl
@[simp] theorem flsFirst_twn (d : Dev) : (flsFirst d).twn = d.twn := by unfold flsFirst doFlsDone; (repeat' split) <;> rfl
@[simp] theorem flsFirst_core (d : Dev) : (flsFirst d).core = d.core := by unfold flsFirst doFlsDone; (repeat' split) <;> rfl
@[simp] theorem flsFirst_evr (d : Dev) : (flsFirst d).evr = d.evr := by unfold flsFirst doFlsDone; (repeat' split) <;> rfl
@[simp] theorem archiveFlush_tab (d : Dev) : (archiveFlush d).tab = d.tab := by
  unfold archiveFlush; dsimp only; split
  · simp
  · exact (each_keeps Dev.tab collectRec (by simp) _ _).trans (by split <;> simp)
@[simp] theorem archiveFlush_views (d : Dev) : (archiveFlush d).views = d.views := by
  unfold archiveFlush; dsimp only; split
  · simp
  · exact (each_keeps Dev.views collectRec (by simp) _ _).trans (by split <;> simp)
@[simp] theorem archiveFlush_tck (d : Dev) : (archiveFlush d).tck = d.tck := by
  unfold archiveFlush; dsimp only; split
  · simp
  · exact (each_keeps Dev.tck collectRec (by simp) _ _).trans (by split <;> simp)
@[simp] theorem archiveFlush_port (d : Dev) : (archiveFlush d).port = d.port := by
  unfold archiveFlush; dsimp only; split
  · simp
  · exact (each_keeps Dev.port collectRec (by simp) _ _).trans (by split <;> simp)
@[simp] theorem archiveFlush_slice (d : Dev) : (archiveFlush d).slice = d.slice := by
  unfold archiveFlush; dsimp only; split
  · simp
  · exact (each_keeps Dev.slice collectRec (by simp) _ _).trans (by split <;> simp)
@[simp] theorem archiveFlush_slt (d : Dev) : (archiveFlush d).slt = d.slt := by
  unfold archiveFlush; dsimp only; split
  · simp
  · exact (each_keeps Dev.slt collectRec (by simp) _ _).trans (by split <;> simp)
@[simp] theorem archiveFlush_sas (d : Dev) : (archiveFlush d).sas = d.sas := by
  unfold archiveFlush; dsimp only; split
  · simp
  · exact (each_keeps Dev.sas collectRec (by simp) _ _).trans (by split <;> simp)
@[simp] theorem archiveFlush_keys (d : Dev) : (archiveFlush d).keys = d.keys := by
  unfold archiveFlush; dsimp only; split
  · simp
  · exact (each_keeps Dev.keys collectRec (by simp) _ _).trans (by split <;> simp)
@[simp] theorem archiveFlush_bpm (d : Dev) : (archiveFlush d).bpm = d.bpm := by
  unfold archiveFlush; dsimp only; split
  · simp
  · exact (each_keeps Dev.bpm collectRec (by simp) _ _).trans (by split <;> simp)
@[simp] theorem archiveFlush_mem (d : Dev) : (archiveFlush d).mem = d.mem := by
  unfold archiveFlush; dsimp only; split
  · simp
  · exact (each_keeps Dev.mem collectRec (by simp) _ _).trans (by split <;> simp)
@[simp] theorem archiveFlush_hif (d : Dev) : (archiveFlush d).hif = d.hif := by
  unfold archiveFlush; dsimp only; split
  · simp
  · exact (each_keeps Dev.hif collectRec (by simp) _ _).trans (by split <;> simp)
@[simp] theorem archiveFlush_mod (d : Dev) : (archiveFlush d).mod = d.mod := by
  unfold archiveFlush; dsimp only; split
  · simp
  · exact (each_keeps Dev.mod collectRec (by simp) _ _).trans (by split <;> simp)
@[simp] theorem archiveFlush_pins (d : Dev) : (archiveFlush d).pins = d.pins := by
  unfold archiveFlush; dsimp only; split
  · simp
  · exact (each_keeps Dev.pins collectRec (by simp) _ _).trans (by split <;> simp)
@[simp] theorem recordFull_tab (code sev src flags : Nat) (b : Bytes) (a : Bool) (d : Dev) : (recordFull code sev src flags b a d).tab = d.tab := by
  simp only [recordFull, apply_ite Dev.tab, collectRec_tab, evPendAll_tab, archiveFlush_tab, ite_self]
@[simp] theorem recordFull_views (code sev src flags : Nat) (b : Bytes) (a : Bool) (d : Dev) : (recordFull code sev src flags b a d).views = d.views := by
  simp only [recordFull, apply_ite Dev.views, collectRec_views, evPendAll_views, archiveFlush_views, ite_self]
@[simp] theorem recordFull_tck (code sev src flags : Nat) (b : Bytes) (a : Bool) (d : Dev) : (recordFull code sev src flags b a d).tck = d.tck := by
  simp only [recordFull, apply_ite Dev.tck, collectRec_tck, evPendAll_tck, archiveFlush_tck, ite_self]
@[simp] theorem recordFull_port (code sev src flags : Nat) (b : Bytes) (a : Bool) (d : Dev) : (recordFull code sev src flags b a d).port = d.port := by
  simp only [recordFull, apply_ite Dev.port, collectRec_port, evPendAll_port, archiveFlush_port, ite_self]
@[simp] theorem recordFull_slice (code sev src flags : Nat) (b : Bytes) (a : Bool) (d : Dev) : (recordFull code sev src flags b a d).slice = d.slice := by
  simp only [recordFull, apply_ite Dev.slice, collectRec_slice, evPendAll_slice, archiveFlush_slice, ite_self]
@[simp] theorem recordFull_slt (code sev src flags : Nat) (b : Bytes) (a : Bool) (d : Dev) : (recordFull code sev src flags b a d).slt = d.slt := by
  simp only [recordFull, apply_ite Dev.slt, collectRec_slt, evPendAll_slt, archiveFlush_slt, ite_self]
@[simp] theorem recordFull_sas (code sev src flags : Nat) (b : Bytes) (a : Bool) (d : Dev) : (recordFull code sev src flags b a d).sas = d.sas := by
  simp only [recordFull, apply_ite Dev.sas, collectRec_sas, evPendAll_sas, archiveFlush_sas, ite_self]
@[simp] theorem recordFull_keys (code sev src flags : Nat) (b : Bytes) (a : Bool) (d : Dev) : (recordFull code sev src flags b a d).keys = d.keys := by
  simp only [recordFull, apply_ite Dev.keys, collectRec_keys, evPendAll_keys, archiveFlush_keys, ite_self]
@[simp] theorem recordFull_bpm (code sev src flags : Nat) (b : Bytes) (a : Bool) (d : Dev) : (recordFull code sev src flags b a d).bpm = d.bpm := by
  simp only [recordFull, apply_ite Dev.bpm, collectRec_bpm, evPendAll_bpm, archiveFlush_bpm, ite_self]
@[simp] theorem recordFull_mem (code sev src flags : Nat) (b : Bytes) (a : Bool) (d : Dev) : (recordFull code sev src flags b a d).mem = d.mem := by
  simp only [recordFull, apply_ite Dev.mem, collectRec_mem, evPendAll_mem, archiveFlush_mem, ite_self]
@[simp] theorem recordFull_hif (code sev src flags : Nat) (b : Bytes) (a : Bool) (d : Dev) : (recordFull code sev src flags b a d).hif = d.hif := by
  simp only [recordFull, apply_ite Dev.hif, collectRec_hif, evPendAll_hif, archiveFlush_hif, ite_self]
@[simp] theorem recordFull_mod (code sev src flags : Nat) (b : Bytes) (a : Bool) (d : Dev) : (recordFull code sev src flags b a d).mod = d.mod := by
  simp only [recordFull, apply_ite Dev.mod, collectRec_mod, evPendAll_mod, archiveFlush_mod, ite_self]
@[simp] theorem recordFull_pins (code sev src flags : Nat) (b : Bytes) (a : Bool) (d : Dev) : (recordFull code sev src flags b a d).pins = d.pins := by
  simp only [recordFull, apply_ite Dev.pins, collectRec_pins, evPendAll_pins, archiveFlush_pins, ite_self]
@[simp] theorem event_tab (code sev : Nat) (b : Bytes) (d : Dev) : (event code sev b d).tab = d.tab := by simp [event]
@[simp] theorem event_views (code sev : Nat) (b : Bytes) (d : Dev) : (event code sev b d).views = d.views := by simp [event]
@[simp] theorem event_tck (code sev : Nat) (b : Bytes) (d : Dev) : (event code sev b d).tck = d.tck := by simp [event]
@[simp] theorem event_port (code sev : Nat) (b : Bytes) (d : Dev) : (event code sev b d).port = d.port := by simp [event]
@[simp] theorem event_slice (code sev : Nat) (b : Bytes) (d : Dev) : (event code sev b d).slice = d.slice := by simp [event]
@[simp] theorem event_slt (code sev : Nat) (b : Bytes) (d : Dev) : (event code sev b d).slt = d.slt := by simp [event]
@[simp] theorem event_sas (code sev : Nat) (b : Bytes) (d : Dev) : (event code sev b d).sas = d.sas := by simp [event]
@[simp] theorem event_keys (code sev : Nat) (b : Bytes) (d : Dev) : (event code sev b d).keys = d.keys := by simp [event]
@[simp] theorem event_bpm (code sev : Nat) (b : Bytes) (d : Dev) : (event code sev b d).bpm = d.bpm := by simp [event]
@[simp] theorem event_mem (code sev : Nat) (b : Bytes) (d : Dev) : (event code sev b d).mem = d.mem := by simp [event]
@[simp] theorem event_hif (code sev : Nat) (b : Bytes) (d : Dev) : (event code sev b d).hif = d.hif := by simp [event]
@[simp] theorem event_mod (code sev : Nat) (b : Bytes) (d : Dev) : (event code sev b d).mod = d.mod := by simp [event]
@[simp] theorem event_pins (code sev : Nat) (b : Bytes) (d : Dev) : (event code sev b d).pins = d.pins := by simp [event]
@[simp] theorem eventOnce_tab (code key sev : Nat) (b : Bytes) (d : Dev) : (eventOnce code key sev b d).tab = d.tab := by unfold eventOnce; split <;> simp
@[simp] theorem eventOnce_views (code key sev : Nat) (b : Bytes) (d : Dev) : (eventOnce code key sev b d).views = d.views := by unfold eventOnce; split <;> simp
@[simp] theorem eventOnce_tck (code key sev : Nat) (b : Bytes) (d : Dev) : (eventOnce code key sev b d).tck = d.tck := by unfold eventOnce; split <;> simp
@[simp] theorem eventOnce_port (code key sev : Nat) (b : Bytes) (d : Dev) : (eventOnce code key sev b d).port = d.port := by unfold eventOnce; split <;> simp
@[simp] theorem eventOnce_slice (code key sev : Nat) (b : Bytes) (d : Dev) : (eventOnce code key sev b d).slice = d.slice := by unfold eventOnce; split <;> simp
@[simp] theorem eventOnce_slt (code key sev : Nat) (b : Bytes) (d : Dev) : (eventOnce code key sev b d).slt = d.slt := by unfold eventOnce; split <;> simp
@[simp] theorem eventOnce_sas (code key sev : Nat) (b : Bytes) (d : Dev) : (eventOnce code key sev b d).sas = d.sas := by unfold eventOnce; split <;> simp
@[simp] theorem eventOnce_keys (code key sev : Nat) (b : Bytes) (d : Dev) : (eventOnce code key sev b d).keys = d.keys := by unfold eventOnce; split <;> simp
@[simp] theorem eventOnce_bpm (code key sev : Nat) (b : Bytes) (d : Dev) : (eventOnce code key sev b d).bpm = d.bpm := by unfold eventOnce; split <;> simp
@[simp] theorem eventOnce_mem (code key sev : Nat) (b : Bytes) (d : Dev) : (eventOnce code key sev b d).mem = d.mem := by unfold eventOnce; split <;> simp
@[simp] theorem eventOnce_hif (code key sev : Nat) (b : Bytes) (d : Dev) : (eventOnce code key sev b d).hif = d.hif := by unfold eventOnce; split <;> simp
@[simp] theorem eventOnce_mod (code key sev : Nat) (b : Bytes) (d : Dev) : (eventOnce code key sev b d).mod = d.mod := by unfold eventOnce; split <;> simp
@[simp] theorem eventOnce_pins (code key sev : Nat) (b : Bytes) (d : Dev) : (eventOnce code key sev b d).pins = d.pins := by unfold eventOnce; split <;> simp
@[simp] theorem ringComplete_tab (r : Nat) (b : Sub) (st e : Nat) (fi se : Bool) (k : Nat) (l : List Nat) (d : Dev) : (ringComplete r b st e fi se k l d).tab = d.tab := by simp [ringComplete, apply_ite Dev.tab]
@[simp] theorem ringComplete_views (r : Nat) (b : Sub) (st e : Nat) (fi se : Bool) (k : Nat) (l : List Nat) (d : Dev) : (ringComplete r b st e fi se k l d).views = d.views := by simp [ringComplete, apply_ite Dev.views]
@[simp] theorem ringComplete_tck (r : Nat) (b : Sub) (st e : Nat) (fi se : Bool) (k : Nat) (l : List Nat) (d : Dev) : (ringComplete r b st e fi se k l d).tck = d.tck := by simp [ringComplete, apply_ite Dev.tck]
@[simp] theorem ringComplete_port (r : Nat) (b : Sub) (st e : Nat) (fi se : Bool) (k : Nat) (l : List Nat) (d : Dev) : (ringComplete r b st e fi se k l d).port = d.port := by simp [ringComplete, apply_ite Dev.port]
@[simp] theorem ringComplete_slice (r : Nat) (b : Sub) (st e : Nat) (fi se : Bool) (k : Nat) (l : List Nat) (d : Dev) : (ringComplete r b st e fi se k l d).slice = d.slice := by simp [ringComplete, apply_ite Dev.slice]
@[simp] theorem ringComplete_slt (r : Nat) (b : Sub) (st e : Nat) (fi se : Bool) (k : Nat) (l : List Nat) (d : Dev) : (ringComplete r b st e fi se k l d).slt = d.slt := by simp [ringComplete, apply_ite Dev.slt]
@[simp] theorem ringComplete_sas (r : Nat) (b : Sub) (st e : Nat) (fi se : Bool) (k : Nat) (l : List Nat) (d : Dev) : (ringComplete r b st e fi se k l d).sas = d.sas := by simp [ringComplete, apply_ite Dev.sas]
@[simp] theorem ringComplete_keys (r : Nat) (b : Sub) (st e : Nat) (fi se : Bool) (k : Nat) (l : List Nat) (d : Dev) : (ringComplete r b st e fi se k l d).keys = d.keys := by simp [ringComplete, apply_ite Dev.keys]
@[simp] theorem ringComplete_twn (r : Nat) (b : Sub) (st e : Nat) (fi se : Bool) (k : Nat) (l : List Nat) (d : Dev) : (ringComplete r b st e fi se k l d).twn = d.twn := by simp [ringComplete, apply_ite Dev.twn]
@[simp] theorem ringComplete_core (r : Nat) (b : Sub) (st e : Nat) (fi se : Bool) (k : Nat) (l : List Nat) (d : Dev) : (ringComplete r b st e fi se k l d).core = d.core := by simp [ringComplete, apply_ite Dev.core]
@[simp] theorem ringComplete_bpm (r : Nat) (b : Sub) (st e : Nat) (fi se : Bool) (k : Nat) (l : List Nat) (d : Dev) : (ringComplete r b st e fi se k l d).bpm = d.bpm := by simp [ringComplete, apply_ite Dev.bpm]
@[simp] theorem ringComplete_mem (r : Nat) (b : Sub) (st e : Nat) (fi se : Bool) (k : Nat) (l : List Nat) (d : Dev) : (ringComplete r b st e fi se k l d).mem = d.mem := by simp [ringComplete, apply_ite Dev.mem]
@[simp] theorem ringComplete_evr (r : Nat) (b : Sub) (st e : Nat) (fi se : Bool) (k : Nat) (l : List Nat) (d : Dev) : (ringComplete r b st e fi se k l d).evr = d.evr := by simp [ringComplete, apply_ite Dev.evr]
@[simp] theorem ringComplete_mod (r : Nat) (b : Sub) (st e : Nat) (fi se : Bool) (k : Nat) (l : List Nat) (d : Dev) : (ringComplete r b st e fi se k l d).mod = d.mod := by simp [ringComplete, apply_ite Dev.mod]
@[simp] theorem ringComplete_pins (r : Nat) (b : Sub) (st e : Nat) (fi se : Bool) (k : Nat) (l : List Nat) (d : Dev) : (ringComplete r b st e fi se k l d).pins = d.pins := by simp [ringComplete, apply_ite Dev.pins]
@[simp] theorem coreComplete_tab (c : Nat) (b : Sub) (st e : Nat) (fi : Bool) (k : Nat) (l : List Nat) (d : Dev) : (coreComplete c b st e fi k l d).tab = d.tab := by unfold coreComplete; split <;> simp
@[simp] theorem coreComplete_views (c : Nat) (b : Sub) (st e : Nat) (fi : Bool) (k : Nat) (l : List Nat) (d : Dev) : (coreComplete c b st e fi k l d).views = d.views := by unfold coreComplete; split <;> simp
@[simp] theorem coreComplete_tck (c : Nat) (b : Sub) (st e : Nat) (fi : Bool) (k : Nat) (l : List Nat) (d : Dev) : (coreComplete c b st e fi k l d).tck = d.tck := by unfold coreComplete; split <;> simp
@[simp] theorem coreComplete_port (c : Nat) (b : Sub) (st e : Nat) (fi : Bool) (k : Nat) (l : List Nat) (d : Dev) : (coreComplete c b st e fi k l d).port = d.port := by unfold coreComplete; split <;> simp
@[simp] theorem coreComplete_slice (c : Nat) (b : Sub) (st e : Nat) (fi : Bool) (k : Nat) (l : List Nat) (d : Dev) : (coreComplete c b st e fi k l d).slice = d.slice := by unfold coreComplete; split <;> simp
@[simp] theorem coreComplete_slt (c : Nat) (b : Sub) (st e : Nat) (fi : Bool) (k : Nat) (l : List Nat) (d : Dev) : (coreComplete c b st e fi k l d).slt = d.slt := by unfold coreComplete; split <;> simp
@[simp] theorem coreComplete_sas (c : Nat) (b : Sub) (st e : Nat) (fi : Bool) (k : Nat) (l : List Nat) (d : Dev) : (coreComplete c b st e fi k l d).sas = d.sas := by unfold coreComplete; split <;> simp
@[simp] theorem coreComplete_keys (c : Nat) (b : Sub) (st e : Nat) (fi : Bool) (k : Nat) (l : List Nat) (d : Dev) : (coreComplete c b st e fi k l d).keys = d.keys := by unfold coreComplete; split <;> simp
@[simp] theorem coreComplete_twn (c : Nat) (b : Sub) (st e : Nat) (fi : Bool) (k : Nat) (l : List Nat) (d : Dev) : (coreComplete c b st e fi k l d).twn = d.twn := by unfold coreComplete; split <;> simp
@[simp] theorem coreComplete_bpm (c : Nat) (b : Sub) (st e : Nat) (fi : Bool) (k : Nat) (l : List Nat) (d : Dev) : (coreComplete c b st e fi k l d).bpm = d.bpm := by unfold coreComplete; split <;> simp
@[simp] theorem coreComplete_mem (c : Nat) (b : Sub) (st e : Nat) (fi : Bool) (k : Nat) (l : List Nat) (d : Dev) : (coreComplete c b st e fi k l d).mem = d.mem := by unfold coreComplete; split <;> simp
@[simp] theorem coreComplete_hif (c : Nat) (b : Sub) (st e : Nat) (fi : Bool) (k : Nat) (l : List Nat) (d : Dev) : (coreComplete c b st e fi k l d).hif = d.hif := by unfold coreComplete; split <;> simp
@[simp] theorem coreComplete_evr (c : Nat) (b : Sub) (st e : Nat) (fi : Bool) (k : Nat) (l : List Nat) (d : Dev) : (coreComplete c b st e fi k l d).evr = d.evr := by unfold coreComplete; split <;> simp
@[simp] theorem coreComplete_mod (c : Nat) (b : Sub) (st e : Nat) (fi : Bool) (k : Nat) (l : List Nat) (d : Dev) : (coreComplete c b st e fi k l d).mod = d.mod := by unfold coreComplete; split <;> simp
@[simp] theorem coreComplete_pins (c : Nat) (b : Sub) (st e : Nat) (fi : Bool) (k : Nat) (l : List Nat) (d : Dev) : (coreComplete c b st e fi k l d).pins = d.pins := by unfold coreComplete; split <;> simp
@[simp] theorem completeX_tab (b : Sub) (st e : Nat) (fi se : Bool) (k : Nat) (l : List Nat) (d : Dev) : (completeX b st e fi se k l d).tab = d.tab := by unfold completeX; split <;> simp
@[simp] theorem completeX_views (b : Sub) (st e : Nat) (fi se : Bool) (k : Nat) (l : List Nat) (d : Dev) : (completeX b st e fi se k l d).views = d.views := by unfold completeX; split <;> simp
@[simp] theorem completeX_tck (b : Sub) (st e : Nat) (fi se : Bool) (k : Nat) (l : List Nat) (d : Dev) : (completeX b st e fi se k l d).tck = d.tck := by unfold completeX; split <;> simp
@[simp] theorem completeX_port (b : Sub) (st e : Nat) (fi se : Bool) (k : Nat) (l : List Nat) (d : Dev) : (completeX b st e fi se k l d).port = d.port := by unfold completeX; split <;> simp
@[simp] theorem completeX_slice (b : Sub) (st e : Nat) (fi se : Bool) (k : Nat) (l : List Nat) (d : Dev) : (completeX b st e fi se k l d).slice = d.slice := by unfold completeX; split <;> simp
@[simp] theorem completeX_slt (b : Sub) (st e : Nat) (fi se : Bool) (k : Nat) (l : List Nat) (d : Dev) : (completeX b st e fi se k l d).slt = d.slt := by unfold completeX; split <;> simp
@[simp] theorem completeX_sas (b : Sub) (st e : Nat) (fi se : Bool) (k : Nat) (l : List Nat) (d : Dev) : (completeX b st e fi se k l d).sas = d.sas := by unfold completeX; split <;> simp
@[simp] theorem completeX_keys (b : Sub) (st e : Nat) (fi se : Bool) (k : Nat) (l : List Nat) (d : Dev) : (completeX b st e fi se k l d).keys = d.keys := by unfold completeX; split <;> simp
@[simp] theorem completeX_twn (b : Sub) (st e : Nat) (fi se : Bool) (k : Nat) (l : List Nat) (d : Dev) : (completeX b st e fi se k l d).twn = d.twn := by unfold completeX; split <;> simp
@[simp] theorem completeX_bpm (b : Sub) (st e : Nat) (fi se : Bool) (k : Nat) (l : List Nat) (d : Dev) : (completeX b st e fi se k l d).bpm = d.bpm := by unfold completeX; split <;> simp
@[simp] theorem completeX_mem (b : Sub) (st e : Nat) (fi se : Bool) (k : Nat) (l : List Nat) (d : Dev) : (completeX b st e fi se k l d).mem = d.mem := by unfold completeX; split <;> simp
@[simp] theorem completeX_evr (b : Sub) (st e : Nat) (fi se : Bool) (k : Nat) (l : List Nat) (d : Dev) : (completeX b st e fi se k l d).evr = d.evr := by unfold completeX; split <;> simp
@[simp] theorem completeX_mod (b : Sub) (st e : Nat) (fi se : Bool) (k : Nat) (l : List Nat) (d : Dev) : (completeX b st e fi se k l d).mod = d.mod := by unfold completeX; split <;> simp
@[simp] theorem completeX_pins (b : Sub) (st e : Nat) (fi se : Bool) (k : Nat) (l : List Nat) (d : Dev) : (completeX b st e fi se k l d).pins = d.pins := by unfold completeX; split <;> simp
@[simp] theorem complete_tab (b : Sub) (e st : Nat) (l : List Nat) (d : Dev) : (complete b e st l d).tab = d.tab := by simp [complete]
@[simp] theorem complete_views (b : Sub) (e st : Nat) (l : List Nat) (d : Dev) : (complete b e st l d).views = d.views := by simp [complete]
@[simp] theorem complete_tck (b : Sub) (e st : Nat) (l : List Nat) (d : Dev) : (complete b e st l d).tck = d.tck := by simp [complete]
@[simp] theorem complete_port (b : Sub) (e st : Nat) (l : List Nat) (d : Dev) : (complete b e st l d).port = d.port := by simp [complete]
@[simp] theorem complete_slice (b : Sub) (e st : Nat) (l : List Nat) (d : Dev) : (complete b e st l d).slice = d.slice := by simp [complete]
@[simp] theorem complete_slt (b : Sub) (e st : Nat) (l : List Nat) (d : Dev) : (complete b e st l d).slt = d.slt := by simp [complete]
@[simp] theorem complete_sas (b : Sub) (e st : Nat) (l : List Nat) (d : Dev) : (complete b e st l d).sas = d.sas := by simp [complete]
@[simp] theorem complete_keys (b : Sub) (e st : Nat) (l : List Nat) (d : Dev) : (complete b e st l d).keys = d.keys := by simp [complete]
@[simp] theorem complete_twn (b : Sub) (e st : Nat) (l : List Nat) (d : Dev) : (complete b e st l d).twn = d.twn := by simp [complete]
@[simp] theorem complete_bpm (b : Sub) (e st : Nat) (l : List Nat) (d : Dev) : (complete b e st l d).bpm = d.bpm := by simp [complete]
@[simp] theorem complete_mem (b : Sub) (e st : Nat) (l : List Nat) (d : Dev) : (complete b e st l d).mem = d.mem := by simp [complete]
@[simp] theorem complete_evr (b : Sub) (e st : Nat) (l : List Nat) (d : Dev) : (complete b e st l d).evr = d.evr := by simp [complete]
@[simp] theorem complete_mod (b : Sub) (e st : Nat) (l : List Nat) (d : Dev) : (complete b e st l d).mod = d.mod := by simp [complete]
@[simp] theorem complete_pins (b : Sub) (e st : Nat) (l : List Nat) (d : Dev) : (complete b e st l d).pins = d.pins := by simp [complete]
@[simp] theorem gateDone_tab (b : Sub) (st : Nat) (l : List Nat) (d : Dev) : (gateDone b st l d).tab = d.tab := by simp [gateDone]
@[simp] theorem gateDone_views (b : Sub) (st : Nat) (l : List Nat) (d : Dev) : (gateDone b st l d).views = d.views := by simp [gateDone]
@[simp] theorem gateDone_tck (b : Sub) (st : Nat) (l : List Nat) (d : Dev) : (gateDone b st l d).tck = d.tck := by simp [gateDone]
@[simp] theorem gateDone_port (b : Sub) (st : Nat) (l : List Nat) (d : Dev) : (gateDone b st l d).port = d.port := by simp [gateDone]
@[simp] theorem gateDone_slice (b : Sub) (st : Nat) (l : List Nat) (d : Dev) : (gateDone b st l d).slice = d.slice := by simp [gateDone]
@[simp] theorem gateDone_slt (b : Sub) (st : Nat) (l : List Nat) (d : Dev) : (gateDone b st l d).slt = d.slt := by simp [gateDone]
@[simp] theorem gateDone_sas (b : Sub) (st : Nat) (l : List Nat) (d : Dev) : (gateDone b st l d).sas = d.sas := by simp [gateDone]
@[simp] theorem gateDone_keys (b : Sub) (st : Nat) (l : List Nat) (d : Dev) : (gateDone b st l d).keys = d.keys := by simp [gateDone]
@[simp] theorem gateDone_twn (b : Sub) (st : Nat) (l : List Nat) (d : Dev) : (gateDone b st l d).twn = d.twn := by simp [gateDone]
@[simp] theorem gateDone_bpm (b : Sub) (st : Nat) (l : List Nat) (d : Dev) : (gateDone b st l d).bpm = d.bpm := by simp [gateDone]
@[simp] theorem gateDone_mem (b : Sub) (st : Nat) (l : List Nat) (d : Dev) : (gateDone b st l d).mem = d.mem := by simp [gateDone]
@[simp] theorem gateDone_evr (b : Sub) (st : Nat) (l : List Nat) (d : Dev) : (gateDone b st l d).evr = d.evr := by simp [gateDone]
@[simp] theorem gateDone_mod (b : Sub) (st : Nat) (l : List Nat) (d : Dev) : (gateDone b st l d).mod = d.mod := by simp [gateDone]
@[simp] theorem gateDone_pins (b : Sub) (st : Nat) (l : List Nat) (d : Dev) : (gateDone b st l d).pins = d.pins := by simp [gateDone]
@[simp] theorem gateDeferred_tab (b : Sub) (d : Dev) : (gateDeferred b d).tab = d.tab := by simp [gateDeferred]
@[simp] theorem gateDeferred_views (b : Sub) (d : Dev) : (gateDeferred b d).views = d.views := by simp [gateDeferred]
@[simp] theorem gateDeferred_tck (b : Sub) (d : Dev) : (gateDeferred b d).tck = d.tck := by simp [gateDeferred]
@[simp] theorem gateDeferred_port (b : Sub) (d : Dev) : (gateDeferred b d).port = d.port := by simp [gateDeferred]
@[simp] theorem gateDeferred_slice (b : Sub) (d : Dev) : (gateDeferred b d).slice = d.slice := by simp [gateDeferred]
@[simp] theorem gateDeferred_slt (b : Sub) (d : Dev) : (gateDeferred b d).slt = d.slt := by simp [gateDeferred]
@[simp] theorem gateDeferred_sas (b : Sub) (d : Dev) : (gateDeferred b d).sas = d.sas := by simp [gateDeferred]
@[simp] theorem gateDeferred_keys (b : Sub) (d : Dev) : (gateDeferred b d).keys = d.keys := by simp [gateDeferred]
@[simp] theorem gateDeferred_twn (b : Sub) (d : Dev) : (gateDeferred b d).twn = d.twn := by simp [gateDeferred]
@[simp] theorem gateDeferred_bpm (b : Sub) (d : Dev) : (gateDeferred b d).bpm = d.bpm := by simp [gateDeferred]
@[simp] theorem gateDeferred_mem (b : Sub) (d : Dev) : (gateDeferred b d).mem = d.mem := by simp [gateDeferred]
@[simp] theorem gateDeferred_evr (b : Sub) (d : Dev) : (gateDeferred b d).evr = d.evr := by simp [gateDeferred]
@[simp] theorem gateDeferred_mod (b : Sub) (d : Dev) : (gateDeferred b d).mod = d.mod := by simp [gateDeferred]
@[simp] theorem gateDeferred_pins (b : Sub) (d : Dev) : (gateDeferred b d).pins = d.pins := by simp [gateDeferred]
@[simp] theorem gateFinal_tab (b : Sub) (k st : Nat) (l : List Nat) (d : Dev) : (gateFinal b k st l d).tab = d.tab := by simp [gateFinal]
@[simp] theorem gateFinal_views (b : Sub) (k st : Nat) (l : List Nat) (d : Dev) : (gateFinal b k st l d).views = d.views := by simp [gateFinal]
@[simp] theorem gateFinal_tck (b : Sub) (k st : Nat) (l : List Nat) (d : Dev) : (gateFinal b k st l d).tck = d.tck := by simp [gateFinal]
@[simp] theorem gateFinal_port (b : Sub) (k st : Nat) (l : List Nat) (d : Dev) : (gateFinal b k st l d).port = d.port := by simp [gateFinal]
@[simp] theorem gateFinal_slice (b : Sub) (k st : Nat) (l : List Nat) (d : Dev) : (gateFinal b k st l d).slice = d.slice := by simp [gateFinal]
@[simp] theorem gateFinal_slt (b : Sub) (k st : Nat) (l : List Nat) (d : Dev) : (gateFinal b k st l d).slt = d.slt := by simp [gateFinal]
@[simp] theorem gateFinal_sas (b : Sub) (k st : Nat) (l : List Nat) (d : Dev) : (gateFinal b k st l d).sas = d.sas := by simp [gateFinal]
@[simp] theorem gateFinal_keys (b : Sub) (k st : Nat) (l : List Nat) (d : Dev) : (gateFinal b k st l d).keys = d.keys := by simp [gateFinal]
@[simp] theorem gateFinal_twn (b : Sub) (k st : Nat) (l : List Nat) (d : Dev) : (gateFinal b k st l d).twn = d.twn := by simp [gateFinal]
@[simp] theorem gateFinal_bpm (b : Sub) (k st : Nat) (l : List Nat) (d : Dev) : (gateFinal b k st l d).bpm = d.bpm := by simp [gateFinal]
@[simp] theorem gateFinal_mem (b : Sub) (k st : Nat) (l : List Nat) (d : Dev) : (gateFinal b k st l d).mem = d.mem := by simp [gateFinal]
@[simp] theorem gateFinal_evr (b : Sub) (k st : Nat) (l : List Nat) (d : Dev) : (gateFinal b k st l d).evr = d.evr := by simp [gateFinal]
@[simp] theorem gateFinal_mod (b : Sub) (k st : Nat) (l : List Nat) (d : Dev) : (gateFinal b k st l d).mod = d.mod := by simp [gateFinal]
@[simp] theorem gateFinal_pins (b : Sub) (k st : Nat) (l : List Nat) (d : Dev) : (gateFinal b k st l d).pins = d.pins := by simp [gateFinal]
@[simp] theorem gateLate_tab (b : Sub) (k st : Nat) (l : List Nat) (d : Dev) : (gateLate b k st l d).tab = d.tab := by simp [gateLate]
@[simp] theorem gateLate_views (b : Sub) (k st : Nat) (l : List Nat) (d : Dev) : (gateLate b k st l d).views = d.views := by simp [gateLate]
@[simp] theorem gateLate_tck (b : Sub) (k st : Nat) (l : List Nat) (d : Dev) : (gateLate b k st l d).tck = d.tck := by simp [gateLate]
@[simp] theorem gateLate_port (b : Sub) (k st : Nat) (l : List Nat) (d : Dev) : (gateLate b k st l d).port = d.port := by simp [gateLate]
@[simp] theorem gateLate_slice (b : Sub) (k st : Nat) (l : List Nat) (d : Dev) : (gateLate b k st l d).slice = d.slice := by simp [gateLate]
@[simp] theorem gateLate_slt (b : Sub) (k st : Nat) (l : List Nat) (d : Dev) : (gateLate b k st l d).slt = d.slt := by simp [gateLate]
@[simp] theorem gateLate_sas (b : Sub) (k st : Nat) (l : List Nat) (d : Dev) : (gateLate b k st l d).sas = d.sas := by simp [gateLate]
@[simp] theorem gateLate_keys (b : Sub) (k st : Nat) (l : List Nat) (d : Dev) : (gateLate b k st l d).keys = d.keys := by simp [gateLate]
@[simp] theorem gateLate_twn (b : Sub) (k st : Nat) (l : List Nat) (d : Dev) : (gateLate b k st l d).twn = d.twn := by simp [gateLate]
@[simp] theorem gateLate_bpm (b : Sub) (k st : Nat) (l : List Nat) (d : Dev) : (gateLate b k st l d).bpm = d.bpm := by simp [gateLate]
@[simp] theorem gateLate_mem (b : Sub) (k st : Nat) (l : List Nat) (d : Dev) : (gateLate b k st l d).mem = d.mem := by simp [gateLate]
@[simp] theorem gateLate_evr (b : Sub) (k st : Nat) (l : List Nat) (d : Dev) : (gateLate b k st l d).evr = d.evr := by simp [gateLate]
@[simp] theorem gateLate_mod (b : Sub) (k st : Nat) (l : List Nat) (d : Dev) : (gateLate b k st l d).mod = d.mod := by simp [gateLate]
@[simp] theorem gateLate_pins (b : Sub) (k st : Nat) (l : List Nat) (d : Dev) : (gateLate b k st l d).pins = d.pins := by simp [gateLate]

end Sys2Proof.Machine
end

