-- ==== Sys2Proof/Laws/Memory.lean ====
section
/-! SUPPORT. The byte memories: reads after writes, and the canonical form, which every write keeps and the reset state has. -/

namespace Sys2Proof.Machine

/-- A byte after a write: the written one inside the written range, the old one outside. -/
theorem get_putBytes (b : Bytes) (i : Nat) (t : Tab Byte) (a : Nat) :
    Tab.get 0 (putBytes b i t) a = if i ≤ a ∧ a < i + b.length then b.getD (a - i) 0 else Tab.get 0 t a := by
  induction b generalizing i t with
  | nil => simp only [putBytes, List.length_nil]; rw [if_neg (by omega)]
  | cons x b ih =>
    simp only [putBytes, List.length_cons]
    rw [ih, Tab.get_set]
    by_cases h1 : a = i
    · subst h1
      rw [if_neg (by omega), if_pos rfl, if_pos (by omega)]
      simp
    · by_cases h2 : i + 1 ≤ a ∧ a < i + 1 + b.length
      · rw [if_pos h2, if_pos (by omega)]
        obtain ⟨k, rfl⟩ : ∃ k, a = i + 1 + k := ⟨a - (i + 1), by omega⟩
        rw [show i + 1 + k - (i + 1) = k by omega, show i + 1 + k - i = k + 1 by omega, List.getD_cons_succ]
      · rw [if_neg h2, if_neg h1, if_neg (by omega)]

theorem putBytes_wf (b : Bytes) (i : Nat) (t : Tab Byte) (h : Tab.wf 0 t = true) : Tab.wf 0 (putBytes b i t) = true := by
  induction b generalizing i t with
  | nil => exact h
  | cons x b ih => exact ih _ _ (Tab.wf_set 0 x t i h)

theorem Tab.wf_filter {α : Type} [DecidableEq α] (d : α) (t : Tab α) (p : Nat × α → Bool) (h : Tab.wf d t = true) :
    Tab.wf d (t.filter p) = true := by
  suffices ∀ b, Tab.wfFrom d b t = true → Tab.wfFrom d b (t.filter p) = true from this 0 h
  clear h
  induction t with
  | nil => intro b _; rfl
  | cons e t ih =>
    obtain ⟨k, v⟩ := e
    intro b w
    simp only [Tab.wfFrom, Bool.and_eq_true, decide_eq_true_eq] at w
    rw [List.filter_cons]
    split
    · simp only [Tab.wfFrom, Bool.and_eq_true, decide_eq_true_eq]
      exact ⟨w.1, ih _ w.2⟩
    · exact Tab.wfFrom_mono d _ b (k + 1) (by omega) (ih _ w.2)

theorem Memory.wf_iff (d : Dev) : Memory.wf d = true ↔ Tab.wf 0 d.mem.ddr = true ∧ Tab.wf 0 d.mem.shared = true ∧
    (∀ e ∈ d.core, Tab.wf 0 e.2.sram = true) ∧ Tab.wf 0 d.fls.flash = true := by
  simp [Memory.wf, and_assoc]

/-- The form depends on the four memories alone. -/
theorem Memory.wf_congr {d d' : Dev} (h : Memory.wf d = true) (h1 : d'.mem.ddr = d.mem.ddr) (h2 : d'.mem.shared = d.mem.shared)
    (h3 : d'.core = d.core) (h4 : d'.fls.flash = d.fls.flash) : Memory.wf d' = true := by
  simp only [Memory.wf, h1, h2, h3, h4]; exact h

theorem Tab.mem_erase {α : Type} (t : Tab α) (i : Nat) (e : Nat × α) (h : e ∈ Tab.erase t i) : e ∈ t := by
  induction t with
  | nil => exact h
  | cons x t ih =>
    obtain ⟨k, v⟩ := x
    unfold Tab.erase at h
    split at h
    · exact List.mem_cons_of_mem _ (ih h)
    · rcases List.mem_cons.mp h with h | h
      · exact h ▸ List.mem_cons_self
      · exact List.mem_cons_of_mem _ (ih h)

theorem Tab.mem_insert {α : Type} (t : Tab α) (i : Nat) (v : α) (e : Nat × α) (h : e ∈ Tab.insert v t i) : e = (i, v) ∨ e ∈ t := by
  induction t with
  | nil => simpa [Tab.insert] using h
  | cons x t ih =>
    obtain ⟨k, w⟩ := x
    unfold Tab.insert at h
    split at h
    · simpa using h
    · split at h
      · rcases List.mem_cons.mp h with h | h
        · exact .inl h
        · exact .inr (List.mem_cons_of_mem _ h)
      · rcases List.mem_cons.mp h with h | h
        · exact .inr (h ▸ List.mem_cons_self)
        · rcases ih h with h | h
          · exact .inl h
          · exact .inr (List.mem_cons_of_mem _ h)

theorem Tab.get_mem {α : Type} (d : α) (t : Tab α) (i : Nat) : Tab.get d t i = d ∨ (i, Tab.get d t i) ∈ t := by
  induction t with
  | nil => exact .inl rfl
  | cons x t ih =>
    obtain ⟨k, v⟩ := x
    unfold Tab.get
    split
    · rename_i h; subst h; exact .inr List.mem_cons_self
    · rcases ih with h | h
      · exact .inl h
      · exact .inr (List.mem_cons_of_mem _ h)

/-- A core whose update keeps its SRAM in the form keeps the device's memories in the form. -/
theorem Memory.wf_updCore (c : Nat) (f : Core → Core) (d : Dev) (h : Memory.wf d = true)
    (hf : ∀ k : Core, Tab.wf 0 k.sram = true → Tab.wf 0 (f k).sram = true) : Memory.wf (d.updCore c f) = true := by
  rw [Memory.wf_iff] at h ⊢
  refine ⟨h.1, h.2.1, ?_, h.2.2.2⟩
  have hk : Tab.wf 0 (Tab.get ({} : Core) d.core c).sram = true := by
    rcases Tab.get_mem ({} : Core) d.core c with e | e
    · rw [e]; rfl
    · exact h.2.2.1 _ e
  intro e he
  simp only [Dev.updCore, Tab.upd, Tab.set] at he
  split at he
  · exact h.2.2.1 _ (Tab.mem_erase _ _ _ he)
  · rcases Tab.mem_insert _ _ _ _ he with rfl | he
    · exact hf _ hk
    · exact h.2.2.1 _ he

theorem Memory.wf_badClear (r u a n : Nat) (d : Dev) (h : Memory.wf d = true) : Memory.wf (badClear r u a n d) = true := by
  unfold badClear; split
  · exact h
  · exact Memory.wf_congr h rfl rfl rfl rfl

theorem Memory.wf_sramWrite (c addr : Nat) (b : Bytes) (d : Dev) (h : Memory.wf d = true) : Memory.wf (sramWrite c addr b d) = true :=
  Memory.wf_updCore _ _ _ (Memory.wf_badClear _ _ _ _ _ h) (fun _ hk => putBytes_wf _ _ _ hk)

theorem Memory.wf_sharedWrite (off : Nat) (b : Bytes) (d : Dev) (h : Memory.wf d = true) : Memory.wf (sharedWrite off b d) = true := by
  have h' := (Memory.wf_iff _).mp (Memory.wf_badClear 7 0 off b.length d h)
  exact (Memory.wf_iff _).mpr ⟨h'.1, putBytes_wf _ _ _ h'.2.1, h'.2.2.1, h'.2.2.2⟩

/-! ### What an access to DDR5 does on the way: events, stops, counters and the counter tree -/

theorem Memory.wf_each {α : Type} (l : List α) (f : α → Dev → Dev) (hf : ∀ a d, Memory.wf d = true → Memory.wf (f a d) = true) (d : Dev)
    (h : Memory.wf d = true) : Memory.wf (each l f d) = true := by
  induction l generalizing d with
  | nil => exact h
  | cons a l ih => exact ih _ (hf a d h)

theorem Memory.wf_evPendAll (b : Nat) (d : Dev) (h : Memory.wf d = true) : Memory.wf (evPendAll b d) = true := by
  have key : ∀ (l : List Nat) (d : Dev), Memory.wf d = true → Memory.wf { d with core := l.foldl (fun t c =>
      Tab.upd {} t c (fun k => if k.evSub.getLsbD b then { k with evPend := k.evPend ||| BitVec.twoPow 64 b } else k)) d.core } = true := by
    intro l
    induction l with
    | nil => intro d h; exact h
    | cons c l ih =>
      intro d h
      exact ih _ (Memory.wf_updCore c (fun k => if k.evSub.getLsbD b then { k with evPend := k.evPend ||| BitVec.twoPow 64 b } else k) d h
        (fun k hk => by split <;> exact hk))
  exact key _ d h

theorem flashProgram_wf (b : Bytes) (a : Nat) (t : Tab Byte) (h : Tab.wf 0 t = true) : Tab.wf 0 (flashProgram b a t) = true := by
  induction b generalizing a t with
  | nil => exact h
  | cons x b ih => exact ih _ _ (Tab.wf_set _ _ _ _ h)

theorem Memory.wf_doFlsDone (ok : Bool) (d : Dev) (h : Memory.wf d = true) : Memory.wf (doFlsDone ok d) = true := by
  have h' := (Memory.wf_iff _).mp h
  unfold doFlsDone
  split
  · exact h
  · refine (Memory.wf_iff _).mpr ⟨h'.1, h'.2.1, h'.2.2.1, ?_⟩
    dsimp only
    repeat' split
    all_goals first
      | exact h'.2.2.2
      | exact flashProgram_wf _ _ _ h'.2.2.2
      | exact Tab.wf_filter _ _ _ h'.2.2.2

theorem Memory.wf_flsFirst (d : Dev) (h : Memory.wf d = true) : Memory.wf (flsFirst d) = true := by
  unfold flsFirst
  repeat' split
  · exact h
  · exact Memory.wf_doFlsDone _ _ h
  · exact h

theorem Memory.wf_archiveFlush (d : Dev) (h : Memory.wf d = true) : Memory.wf (archiveFlush d) = true := by
  unfold archiveFlush
  replace h := Memory.wf_flsFirst d h
  generalize flsFirst d = d at h ⊢
  change Memory.wf (if (d.evr.ramOnly || !d.evr.flashOk) = true then d else _) = true
  split
  · exact h
  · extract_lets e0 e placed x
    have hx : Memory.wf x = true := Memory.wf_congr h rfl rfl rfl rfl
    clear_value x
    refine Memory.wf_each _ _ (fun r y hy => Memory.wf_congr hy ?_ ?_ ?_ ?_) _ ?_
    iterate 4 simp
    split
    · exact Memory.wf_evPendAll _ _ hx
    · exact hx

theorem Memory.wf_collectRec (r : EvRec) (d : Dev) (h : Memory.wf d = true) : Memory.wf (collectRec r d) = true :=
  Memory.wf_congr h (by rw [collectRec_mem]) (by rw [collectRec_mem]) (by rw [collectRec_core]) (by rw [collectRec_fls])

theorem Memory.wf_evr (e : Evr) (d : Dev) (h : Memory.wf d = true) : Memory.wf { d with evr := e } = true := h

theorem Memory.wf_recordFull (code sev src flags : Nat) (data : Bytes) (only : Bool) (d : Dev) (h : Memory.wf d = true) :
    Memory.wf (recordFull code sev src flags data only d) = true := by
  unfold recordFull
  extract_lets r e x y
  have hx : Memory.wf x = true := Memory.wf_evr _ _ h
  have hy : Memory.wf y = true := by
    simp only [y]; split
    · exact Memory.wf_evPendAll _ _ (Memory.wf_archiveFlush _ hx)
    · exact hx
  clear_value y x e r
  split
  · split
    · exact h
    · split
      · exact Memory.wf_evr _ _ h
      · exact Memory.wf_evr _ _ h
  · split
    · exact hy
    · exact Memory.wf_collectRec _ _ hy

theorem Memory.wf_event (code sev : Nat) (b : Bytes) (d : Dev) (h : Memory.wf d = true) : Memory.wf (event code sev b d) = true :=
  Memory.wf_recordFull _ _ _ _ _ _ _ h

theorem Memory.wf_eventOnce (code key sev : Nat) (b : Bytes) (d : Dev) (h : Memory.wf d = true) : Memory.wf (eventOnce code key sev b d) = true := by
  unfold eventOnce; split
  · exact h
  · exact Memory.wf_event _ _ _ _ (Memory.wf_congr h rfl rfl rfl rfl)

theorem Memory.wf_stopSlot_ (slot : Nat) (d : Dev) (h : Memory.wf d = true) : Memory.wf (stopSlot_ slot d) = true := by
  have hl : Memory.wf (setLimHit slot d) = true := by
    unfold setLimHit; split
    · exact h
    · exact Memory.wf_evPendAll _ _ (Memory.wf_event _ _ _ _ (Memory.wf_congr h rfl rfl rfl rfl))
  unfold stopSlot_
  extract_lets x
  have hx : Memory.wf x = true := hl
  clear_value x
  split
  · exact Memory.wf_congr hx rfl rfl rfl rfl
  · exact hx

theorem Memory.wf_stopPinned (level index : Nat) (d : Dev) (h : Memory.wf d = true) : Memory.wf (stopPinned level index d) = true := by
  unfold stopPinned
  refine Memory.wf_each _ _ (fun e x hx => ?_) d h
  repeat' split
  all_goals first | exact hx | exact Memory.wf_stopSlot_ _ _ hx

theorem Memory.wf_rootDoubtSet (why : Nat) (d : Dev) (h : Memory.wf d = true) : Memory.wf (rootDoubtSet why d) = true :=
  Memory.wf_stopPinned _ _ _ (Memory.wf_event _ _ _ _ (Memory.wf_congr h rfl rfl rfl rfl))

theorem Memory.wf_doubtDeclare (level index cause : Nat) (d : Dev) (h : Memory.wf d = true) : Memory.wf (doubtDeclare level index cause d) = true := by
  unfold doubtDeclare
  split
  · exact h
  · split
    · exact Memory.wf_rootDoubtSet _ _ h
    · extract_lets kept m x
      have hx : Memory.wf x = true := Memory.wf_event _ _ _ _ (Memory.wf_congr h rfl rfl rfl rfl)
      clear_value x
      split
      · exact Memory.wf_stopPinned _ _ _ (Memory.wf_congr hx rfl rfl rfl rfl)
      · exact Memory.wf_rootDoubtSet _ _ hx

theorem Memory.wf_cacheInsert (f level index : Nat) (dirty : Bool) (d : Dev) (h : Memory.wf d = true) :
    Memory.wf (cacheInsert f level index dirty d).2 = true := by
  induction f generalizing level index dirty d with
  | zero => exact h
  | succ f ih =>
    unfold cacheInsert
    extract_lets new r i v e up
    have he : Memory.wf e = true := Memory.wf_congr h rfl rfl rfl rfl
    have hu : ∀ x, Memory.wf x = true → Memory.wf (up x) = true := fun x hx => Memory.wf_congr hx rfl rfl rfl rfl
    clear_value e up
    repeat' split
    · exact Memory.wf_congr h rfl rfl rfl rfl
    · exact he
    · exact hu e he
    · exact Memory.wf_congr (hu e he) rfl rfl rfl rfl
    · exact he
    · exact ih _ _ _ _ (hu e he)

theorem Memory.wf_fetchFailed (x : Nat × Nat × Nat) (d : Dev) (h : Memory.wf d = true) : Memory.wf (fetchFailed x d) = true := by
  unfold fetchFailed
  extract_lets r
  have hr : Memory.wf r.2 = true := by
    simp only [r]; split
    · exact h
    · exact Memory.wf_congr h rfl rfl rfl rfl
  clear_value r
  refine Memory.wf_doubtDeclare _ _ _ _ ?_
  split
  · exact Memory.wf_congr hr rfl rfl rfl rfl
  · exact h

theorem Memory.wf_fetchNodes (level index : Nat) (d : Dev) (h : Memory.wf d = true) : Memory.wf (fetchNodes level index d).2 = true := by
  have key : ∀ (l : List Nat) (r : Bool × Dev), Memory.wf r.2 = true → Memory.wf (l.foldl (fun r l =>
      let x := cacheInsert 32769 l (index / 8 ^ (l - level)) false r.2
      match x.1 with
      | some y => (false, fetchFailed y x.2)
      | none => (r.1, x.2)) r).2 = true := by
    intro l
    induction l with
    | nil => intro r hr; exact hr
    | cons a l ih =>
      intro r hr
      rw [List.foldl_cons]
      refine ih _ ?_
      have hx := Memory.wf_cacheInsert 32769 a (index / 8 ^ (a - level)) false r.2 hr
      generalize cacheInsert 32769 a (index / 8 ^ (a - level)) false r.2 = x at hx
      dsimp only
      split
      · exact Memory.wf_fetchFailed _ _ hx
      · exact hx
  exact key _ _ h

theorem Memory.wf_takeStored (s : Nat) (d : Dev) (h : Memory.wf d = true) : Memory.wf (takeStored s d) = true := by
  unfold takeStored
  split
  · have h' := (Memory.wf_iff _).mp h
    exact (Memory.wf_iff _).mpr ⟨putBytes_wf _ _ _ h'.1, h'.2.1, h'.2.2.1, h'.2.2.2⟩
  · exact h

theorem Memory.wf_prfCount (ev : Nat) (u : Option Nat) (n : Nat) (d : Dev) (h : Memory.wf d = true) : Memory.wf (prfCount ev u n d) = true := by
  unfold prfCount; split
  · exact h
  · exact Memory.wf_congr h rfl rfl rfl rfl

theorem Memory.wf_openSector (s : Nat) (read : Bool) (d : Dev) (h : Memory.wf d = true) : Memory.wf (openSector s read d).2 = true := by
  unfold openSector
  split
  · exact h
  · split
    · refine Memory.wf_fetchFailed _ _ ?_
      unfold when_; split
      · exact Memory.wf_prfCount _ _ _ _ h
      · exact h
    · extract_lets r
      have hr : Memory.wf r.2 = true := by
        refine Memory.wf_fetchNodes _ _ _ ?_
        unfold when_; split
        · exact Memory.wf_prfCount _ _ _ _ (Memory.wf_takeStored _ _ h)
        · exact h
      clear_value r
      exact hr

theorem Memory.wf_protOpen (off n : Nat) (write : Bool) (d : Dev) (h : Memory.wf d = true) : Memory.wf (protOpen off n write d).2 = true := by
  unfold protOpen
  split
  · exact h
  · have key : ∀ (l : List Nat) (r : Bool × Dev), Memory.wf r.2 = true →
        Memory.wf (l.foldl (fun r s => if r.1 then openSector s (sectorRead off n write s) r.2 else r) r).2 = true := by
      intro l
      induction l with
      | nil => intro r hr; exact hr
      | cons a l ih =>
        intro r hr
        rw [List.foldl_cons]
        refine ih _ ?_
        split
        · exact Memory.wf_openSector _ _ _ hr
        · exact hr
    exact key _ _ h

theorem Memory.wf_protWrite (off n : Nat) (d : Dev) (h : Memory.wf d = true) : Memory.wf (protWrite off n d) = true := by
  unfold protWrite
  split
  · exact h
  · dsimp only
    refine Memory.wf_prfCount _ _ _ _ ?_
    have h1 := riseSectors_keeps Mem.ddr (fun _ _ _ => rfl) (fun _ _ _ => rfl) (topLevel d) (sectorList off n) d.mem
    have h2 := riseSectors_keeps Mem.shared (fun _ _ _ => rfl) (fun _ _ _ => rfl) (topLevel d) (sectorList off n) d.mem
    generalize riseSectors _ _ _ = m at h1 h2 ⊢
    exact Memory.wf_congr h h1 h2 rfl rfl

theorem Memory.wf_burstFail (b : Nat) (d : Dev) (h : Memory.wf d = true) : Memory.wf (burstFail b d) = true := by
  unfold burstFail
  exact Memory.wf_event _ _ _ _ (Memory.wf_congr h rfl rfl rfl rfl)

theorem Memory.wf_ddrFail (m : Master) (off n : Nat) (w : Bool) (a : Acc) (d : Dev) (h : Memory.wf d = true) :
    Memory.wf (ddrFail m off n w a d) = true := by
  unfold ddrFail
  cases a
  case blocked => exact Memory.wf_eventOnce _ _ _ _ _ (Memory.wf_congr h rfl rfl rfl rfl)
  case doubt => exact Memory.wf_congr h rfl rfl rfl rfl
  case uncorr => exact Memory.wf_each _ _ Memory.wf_burstFail d h
  all_goals exact h

/-- A read of DDR5 keeps the form, whatever it meets. -/
theorem Memory.wf_ddrRead (m : Master) (off n : Nat) (d : Dev) (h : Memory.wf d = true) : Memory.wf (ddrRead m off n d).2 = true := by
  have hp := Memory.wf_protOpen off n false d h
  rcases hr : protOpen off n false d with ⟨ok, x⟩
  rw [hr] at hp
  dsimp only at hp
  rw [ddrRead_eq m off n d ok x hr]
  repeat' split
  all_goals dsimp only
  · exact hp
  · exact Memory.wf_ddrFail _ _ _ _ _ _ hp
  · exact Memory.wf_ddrFail _ _ _ _ _ _ h

/-- A write of DDR5 keeps the form, whether it is carried out or not. -/
theorem Memory.wf_ddrWrite (m : Master) (off : Nat) (b : Bytes) (d : Dev) (h : Memory.wf d = true) : Memory.wf (ddrWrite m off b d).2 = true := by
  have hp := Memory.wf_protOpen off b.length true d h
  rcases hr : protOpen off b.length true d with ⟨ok, x⟩
  rw [hr] at hp
  dsimp only at hp
  rw [ddrWrite_eq m off b d ok x hr]
  repeat' split
  all_goals dsimp only
  · refine Memory.wf_protWrite _ _ _ ?_
    have h' := (Memory.wf_iff _).mp (Memory.wf_badClear 100 0 off b.length x hp)
    exact (Memory.wf_iff _).mpr ⟨putBytes_wf _ _ _ h'.1, h'.2.1, h'.2.2.1, h'.2.2.2⟩
  · exact Memory.wf_ddrFail _ _ _ _ _ _ hp
  · exact Memory.wf_ddrFail _ _ _ _ _ _ h

/-- A write by an engine keeps the form. -/
theorem Memory.wf_engWrite (req addr : Nat) (b : Bytes) (d : Dev) (h : Memory.wf d = true) : Memory.wf (engWrite req addr b d).2 = true := by
  unfold engWrite
  extract_lets m task
  clear_value task m
  split
  · exact h
  · split
    · exact h
    · split
      · exact Memory.wf_updCore _ _ _ (Memory.wf_badClear _ _ _ _ _ h) (fun _ hk => putBytes_wf _ _ _ hk)
      · exact Memory.wf_sharedWrite (offFrom 0x10000000 addr) b d h
      · dsimp only; exact Memory.wf_ddrWrite _ _ _ _ h
      · exact h

/-! ### Loads, fills, erasures and the flash -/

theorem Memory.wf_loadSection (b : Bytes) (x : Nat × Nat × Nat × Nat × Nat) (d : Dev) (h : Memory.wf d = true) :
    Memory.wf (loadSection b x d) = true := by
  unfold loadSection
  extract_lets bytes
  split
  · have h' := (Memory.wf_iff _).mp h
    exact (Memory.wf_iff _).mpr ⟨h'.1, putBytes_wf _ _ _ h'.2.1, h'.2.2.1, h'.2.2.2⟩
  · refine Memory.wf_each _ _ (fun c y hy => ?_) d h
    split
    · exact hy
    · exact Memory.wf_updCore _ _ _ hy (fun _ hk => putBytes_wf _ _ _ hk)

theorem Tab.wf_filterMap_value {α : Type} [DecidableEq α] (d : α) (t : Tab α) (f : Nat × α → Option (Nat × α))
    (hf : ∀ e x, e.2 ≠ d → f e = some x → x.1 = e.1 ∧ x.2 ≠ d) (h : Tab.wf d t = true) : Tab.wf d (t.filterMap f) = true := by
  suffices ∀ b, Tab.wfFrom d b t = true → Tab.wfFrom d b (t.filterMap f) = true from this 0 h
  clear h
  induction t with
  | nil => intro b _; rfl
  | cons e t ih =>
    intro b w
    obtain ⟨k, v⟩ := e
    simp only [Tab.wfFrom, Bool.and_eq_true, decide_eq_true_eq] at w
    rw [List.filterMap_cons]
    split
    · exact Tab.wfFrom_mono d _ b (k + 1) (by omega) (ih _ w.2)
    · rename_i x hx
      obtain ⟨h1, h2⟩ := hf _ _ w.1.2 hx
      obtain ⟨xk, xv⟩ := x
      dsimp only at h1 h2
      subst h1
      simp only [Tab.wfFrom, Bool.and_eq_true, decide_eq_true_eq]
      exact ⟨⟨w.1.1, h2⟩, ih _ w.2⟩

theorem Memory.wf_doMecInit (d : Dev) (h : Memory.wf d = true) : Memory.wf (doMecInit d) = true := by
  unfold doMecInit
  split
  · exact h
  · have h' := (Memory.wf_iff _).mp h
    exact Memory.wf_prfCount _ _ _ _ ((Memory.wf_iff _).mpr ⟨Tab.wf_filter _ _ _ h'.1, h'.2.1, h'.2.2.1, h'.2.2.2⟩)

theorem Memory.wf_touchNode (level index : Nat) (d : Dev) (h : Memory.wf d = true) : Memory.wf (touchNode level index d) = true := by
  unfold touchNode
  repeat' split
  · exact h
  · exact Memory.wf_fetchFailed _ _ h
  · exact Memory.wf_congr (Memory.wf_fetchNodes level index d h) (noteRise_keeps Mem.ddr (fun _ _ _ => rfl) (fun _ _ _ => rfl) ..)
      (noteRise_keeps Mem.shared (fun _ _ _ => rfl) (fun _ _ _ => rfl) ..) rfl rfl

theorem Memory.wf_doReprovDone (d : Dev) (h : Memory.wf d = true) : Memory.wf (doReprovDone d) = true := by
  unfold doReprovDone
  split
  · exact h
  · dsimp only
    refine Memory.wf_prfCount _ _ _ _ (Memory.wf_event _ _ _ _ ?_)
    have h' := (Memory.wf_iff _).mp h
    unfold when_
    split
    · exact Memory.wf_touchNode _ _ _ ((Memory.wf_iff _).mpr ⟨Tab.wf_filter _ _ _ h'.1, h'.2.1, h'.2.2.1, h'.2.2.2⟩)
    · exact (Memory.wf_iff _).mpr ⟨Tab.wf_filter _ _ _ h'.1, h'.2.1, h'.2.2.1, h'.2.2.2⟩

theorem Memory.wf_doMemClearDone (d : Dev) (h : Memory.wf d = true) : Memory.wf (doMemClearDone d) = true := by
  unfold doMemClearDone
  split
  · exact h
  · have h' := (Memory.wf_iff _).mp h
    exact (Memory.wf_iff _).mpr ⟨Tab.wf_filter _ _ _ h'.1, h'.2.1, h'.2.2.1, h'.2.2.2⟩

theorem Memory.wf_settleFlash (d : Dev) (h : Memory.wf d = true) : Memory.wf (settleFlash d) = true := by
  have h' := (Memory.wf_iff _).mp h
  unfold settleFlash
  split
  · refine (Memory.wf_iff _).mpr ⟨h'.1, h'.2.1, h'.2.2.1, ?_⟩
    refine Tab.wf_filterMap_value (0 : Byte) d.fls.flash _ (fun e x he hx => ?_) h'.2.2.2
    unfold halfErased at hx
    split at hx
    · cases hx; exact ⟨rfl, he⟩
    · extract_lets b at hx
      split at hx
      · cases hx
      · rename_i hb
        cases hx; exact ⟨rfl, hb⟩
  · exact Memory.wf_doFlsDone _ _ h

/-- The state after reset has the form. -/
theorem Memory.wf_reset : Memory.wf State.reset.dev = true := rfl

end Sys2Proof.Machine
end

