-- ==== Sys2Proof/Laws/Runs.lean ====
section
/-! SUPPORT. From a command's operation to the statement that it runs: what exec answers on a powered device. -/

namespace Sys2Proof.Machine

/-- A command whose meaning is the operation `f` runs to what `f` makes of the device. -/
theorem runs_of {i : Instr} {s : State} {f : Dev → Dev} {d : Dev} (hp : Powered s) (hx : exec i s = done s f) (h : f s.dev = d) : Runs i s d := by
  unfold Runs
  rw [hx, ← h]
  have h0 : s.dev.pins.stopped = false := hp
  simp [done, doneAlways, h0]

/-- The same for a command that acts on a device whatever its power. -/
theorem runs_always {i : Instr} {s : State} {f : Dev → Dev} {d : Dev} (hx : exec i s = doneAlways s f) (h : f s.dev = d) : Runs i s d := by
  unfold Runs
  rw [hx, ← h]
  rfl

end Sys2Proof.Machine
end

