-- ==== Sys2Proof/WellFormed.lean ====
section
/-! DEFINITION. Well-formed commands: every operand lies in the range of the unit or field that it names. -/

namespace Sys2Proof

/-- A port numbered as PRT[n] (01 R8). -/
def isPort (x : Nat) : Bool := decide (x < 64)

/-- A Slot-mode port numbered as SLT[p] (03 R72). -/
def isSltPort (x : Nat) : Bool := decide (x < 32)

/-- A slice, partition or direction-independent unit of eight (01 R9). -/
def isSlice (x : Nat) : Bool := decide (x < 8)

/-- A 17-bit SA slot index (13 R370). -/
def isSlot (x : Nat) : Bool := decide (x < 131072)

/-- A channel ID (05 R129). -/
def isChid (x : Nat) : Bool := decide (x < 65536)

/-- An association number. -/
def isAn (x : Nat) : Bool := decide (x < 4)

/-- A staging buffer: bits [2:0] slice, [4:3] buffer (13 R370). -/
def isBuf (x : Nat) : Bool := decide (x < 32)

/-- A ticket handle (07 R191). -/
def isTicket (x : Nat) : Bool := decide (x < 256)

/-- A cold index (05 R157). -/
def isCold (x : Nat) : Bool := decide (x < 2 ^ 20)

/-- A face, side or direction: 0 or 1. -/
def isFace (x : Nat) : Bool := decide (x < 2)

/-- A KEK slot (07 R187). -/
def isKek (x : Nat) : Bool := decide (x < 1024)

/-- An LPK slot (07 R198). -/
def isLpk (x : Nat) : Bool := decide (x < 64)

/-- A client index (03 R77). -/
def isClient (x : Nat) : Bool := decide (x < 64)

/-- A Glonik core (10 R275). -/
def isCore (x : Nat) : Bool := decide (x < 64)

/-- A register field (10 Table 10-2). -/
def isReg (x : Nat) : Bool := decide (x < 32)

/-- A 16-bit immediate or displacement. -/
def isImm16 (x : Nat) : Bool := decide (x < 65536)

/-- A six-bit immediate or shift amount. -/
def isImm6 (x : Nat) : Bool := decide (x < 64)

/-- A 26-bit displacement. -/
def isDisp26 (x : Nat) : Bool := decide (x < 2 ^ 26)

/-- A control register number (10 R282). -/
def isCsr (x : Nat) : Bool := decide (x < 4096)

/-- A 15-bit TRAP code (10 Table 10-3). -/
def isTrap (x : Nat) : Bool := decide (x < 32768)

/-- A 32-bit register or instruction word. -/
def isWord (x : Nat) : Bool := decide (x < 2 ^ 32)

/-- A 64-bit parameter word or address. -/
def isDword (x : Nat) : Bool := decide (x < 2 ^ 64)

/-- A request of 1 to 4,096 bytes. -/
def isAccess (a : Access) : Bool := isDword a.off && decide (1 ≤ a.len) && decide (a.len ≤ 4096)

/-- A command ring (13 R365). -/
def isRing (x : Nat) : Bool := decide (x < 64)

/-- A frame queue (13 R375). -/
def isQueue (x : Nat) : Bool := decide (x < 16)

/-- A BPM requester (11 Table 11-3). -/
def isBpmReq (x : Nat) : Bool := decide (x < 192)

/-- A lane: 0 to 63 LNE, 64 to 79 HLN. -/
def isLane (x : Nat) : Bool := decide (x < 80)

/-- A port over which PKX runs: a line port, or 64 + j for Holpen port HPj (07 R204, 09 R266). -/
def isPkxPort (p : Nat) : Bool := decide (p < 72)

/-- A Holpen port (09 R262). -/
def isHp (x : Nat) : Bool := decide (x < 8)

/-- A pipeline, 4 the spare at reset (15 R416). -/
def isPipe (x : Nat) : Bool := decide (x < 5)

/-- An I3C port (17 Table 17-7). -/
def isI3c (x : Nat) : Bool := decide (x < 2)

/-- A device counter (16 R448). -/
def isPrf (x : Nat) : Bool := decide (x < 16)

/-- A requester as R200 numbers it: a core, the host, JTAG. -/
def isRequester (x : Nat) : Bool := (decide (1 ≤ x) && decide (x ≤ 64)) || x == 0x80 || x == 0xFE

/-- The submission names a ring or a core that exists. -/
def isSub (b : Sub) : Bool := match b.origin with | .ring r => isRing r | .core c => isCore c | .lead => true | .osf => true

/-- A command whose operands lie in their ranges. -/
def WellFormed : Instr → Bool
  | .frameDelineated p _ _ => isPort p
  | .framePassed p => isPort p
  | .transmitQueueDequeue p => isPort p
  | .icvEmitted p => isPort p
  | .icvVerified p => isPort p
  | .receiveEgressSend p => isPort p
  | .interimDigest p => isPort p
  | .slotFrameTransmit p _ => isSltPort p
  | .huntBlock p _ => isSltPort p
  | .slotFrameReceive p _ _ => isSltPort p
  | .swapRequestTimeout p => isSltPort p
  | .failureIntegration p _ client _ => isSltPort p && isClient client
  | .pmSecondEnd p => isSltPort p
  | .pmSecondEntry p => isSltPort p
  | .sltPmsel v => isWord v
  | .tackForm => true
  | .beatForm => true
  | .recordApply => true
  | .freezeReportReceived p _ _ => isPort p
  | .freezeReportMissing p => isPort p
  | .freezeSealTimeout p => isPort p
  | .wakeSend p => isPort p
  | .gateSubmit b _ => isSub b
  | .stationWalk q => isSlice q
  | .learnsApply _ => true
  | .flushWalk q => isSlice q
  | .saStage b buf ticket _ => isSub b && isBuf buf && isTicket ticket
  | .saStagepin b buf cold => isSub b && isBuf buf && isCold cold
  | .stageFillComplete buf _ => isBuf buf
  | .saUnstage b buf => isSub b && isBuf buf
  | .coldErase b cold => isSub b && isCold cold
  | .saLoad b slot buf => isSub b && isSlot slot && isBuf buf
  | .winCreate b w chid => isSub b && isSlot w && isChid chid
  | .winErase b w => isSub b && isSlot w
  | .saAttach b slot chid an _ => isSub b && isSlot slot && isChid chid && isAn an
  | .saActivate b slot => isSub b && isSlot slot
  | .chSeam b chid an _ seamAt => isSub b && isChid chid && isAn an && isDword seamAt
  | .saRetire b slot _ => isSub b && isSlot slot
  | .saErase b slot => isSub b && isSlot slot
  | .saSetlimit b slot soft hard => isSub b && isSlot slot && isDword soft && isDword hard
  | .saRaisepn b slot pn => isSub b && isSlot slot && isDword pn
  | .saPark b slot cold => isSub b && isSlot slot && isCold cold
  | .parkWritebackComplete slot => isSlot slot
  | .drainComplete slot => isSlot slot
  | .drainTimeout slot => isSlot slot
  | .chWrite b chid _ => isSub b && isChid chid
  | .chEnable b chid => isSub b && isChid chid
  | .chDisable b chid => isSub b && isChid chid
  | .sasSide b side => isSub b && isFace side
  | .sciInsert b face sci chid => isSub b && isFace face && isDword sci && isChid chid
  | .sciDelete b face sci => isSub b && isFace face && isDword sci
  | .stnInsert b part key chid => isSub b && isSlice part && isDword key && isChid chid
  | .stnDelete b part key => isSub b && isSlice part && isDword key
  | .stnFlush b _ _ _ _ => isSub b
  | .stnSetsweep b _ => isSub b
  | .patLoad b slot => isSub b && isFace slot
  | .patLoadComplete => true
  | .patSwitch b => isSub b
  | .cmdPortConfig b p _ => isSub b && isPort p
  | .cmdPortEnable b p => isSub b && isPort p
  | .cmdPortDisable b p => isSub b && isPort p
  | .prtSet b p off v => isSub b && isPort p && isDword off && isWord v
  | .sltSet b p off v => isSub b && isSltPort p && isDword off && isWord v
  | .sltSwap b p => isSub b && isSltPort p
  | .slcRestart b s => isSub b && isSlice s
  | .slcRestartComplete s _ => isSlice s
  | .twnResync p _ => isPort p
  | .keyGen b _ _ _ _ => isSub b
  | .keyTicket b slot _ => isSub b && isKek slot
  | .keyDerive b src _ _ _ _ _ _ _ _ _ _ => isSub b && isKek src
  | .keyCombine b slotA _ _ _ => isSub b && isKek slotA
  | .keyUnwrap b _ _ _ _ _ => isSub b
  | .keyWrap b src _ _ addr => isSub b && isKek src && isDword addr
  | .keyClear b slot => isSub b && isWord slot
  | .ticketExpiry _ => true
  | .rngHealthFail _ => true
  | .rngRetest _ => true
  | .latKemkeygen b lpk addr => isSub b && isLpk lpk && isDword addr
  | .latEncap b _ kek addr => isSub b && isKek kek && isDword addr
  | .latDecap b lpk _ kek => isSub b && isLpk lpk && isKek kek
  | .latSign b lpk _ addr => isSub b && isLpk lpk && isDword addr
  | .latVerify b _ _ _ => isSub b
  | .latPubkey b lpk addr => isSub b && isLpk lpk && isDword addr
  | .latEckeygen b lpk addr => isSub b && isLpk lpk && isDword addr
  | .latEcdh b lpk _ kek => isSub b && isLpk lpk && isKek kek
  | .latHash b _ _ _ addr => isSub b && isDword addr
  | .latCommandComplete _ => true
  | .sceJob b _ => isSub b
  | .sceJobComplete => true
  | .sceClaim r => isRequester r
  | .sceRelease r => isRequester r
  | .sceForce r => isRequester r
  | .sceLeaseExpiry => true
  | .pkxHello p _ _ => isPkxPort p
  | .pkxReply p _ _ => isPkxPort p
  | .pkxConfirm p _ _ => isPkxPort p
  | .pkxFinish p _ _ => isPkxPort p
  | .pkxKeynote p _ _ => isPkxPort p
  | .pkxKeyack p _ _ => isPkxPort p
  | .pkxAbort p _ _ => isPkxPort p
  | .pkxFragmentTimeout p _ => isPkxPort p
  | .tRetx _ => true
  | .tSession _ => true
  | .tCk _ => true
  | .tOverlap _ => true
  | .tBackoff _ => true
  | .mkpduReceive _ version priority sci _ _ => decide (version < 256) && decide (priority < 256) && isDword sci
  | .pairForm peer _ _ => isDword peer.serial && isFace peer.side
  | .partnerDigest p _ _ _ _ => isPort p
  | .mismatch p _ _ => isPort p
  | .resyncOffsetReport p => isPort p
  | .resyncState p _ => isPort p
  | .resyncGiveup p _ => isPort p
  | .joinStateStream _ _ _ _ => true
  | .heartbeatSend => true
  | .heartbeat path _ side _ _ _ _ _ => isFace path && isFace side
  | .shadowCoast => true
  | .takeover _ => true
  | .leadLeaseLapse _ => true
  | .hbFrameSend => true
  | .hbFrame _ => true
  | .standbyTakeover => true
  | .activeAckTimeout => true
  | .fencedSoloTimeout => true
  | .holpenFrame j _ => isHp j
  | .linkhello j _ _ _ _ _ => isHp j
  | .linkRekey j => isHp j
  | .holpenPortRestart j => isHp j
  | .zeroise j _ _ _ => isHp j
  | .add c rd ra rb => isCore c && isReg rd && isReg ra && isReg rb
  | .sub c rd ra rb => isCore c && isReg rd && isReg ra && isReg rb
  | .and c rd ra rb => isCore c && isReg rd && isReg ra && isReg rb
  | .or c rd ra rb => isCore c && isReg rd && isReg ra && isReg rb
  | .xor c rd ra rb => isCore c && isReg rd && isReg ra && isReg rb
  | .sll c rd ra rb => isCore c && isReg rd && isReg ra && isReg rb
  | .srl c rd ra rb => isCore c && isReg rd && isReg ra && isReg rb
  | .sra c rd ra rb => isCore c && isReg rd && isReg ra && isReg rb
  | .slt c rd ra rb => isCore c && isReg rd && isReg ra && isReg rb
  | .sltu c rd ra rb => isCore c && isReg rd && isReg ra && isReg rb
  | .mul c rd ra rb => isCore c && isReg rd && isReg ra && isReg rb
  | .mulh c rd ra rb => isCore c && isReg rd && isReg ra && isReg rb
  | .mulhu c rd ra rb => isCore c && isReg rd && isReg ra && isReg rb
  | .div c rd ra rb => isCore c && isReg rd && isReg ra && isReg rb
  | .divu c rd ra rb => isCore c && isReg rd && isReg ra && isReg rb
  | .rem c rd ra rb => isCore c && isReg rd && isReg ra && isReg rb
  | .remu c rd ra rb => isCore c && isReg rd && isReg ra && isReg rb
  | .min c rd ra rb => isCore c && isReg rd && isReg ra && isReg rb
  | .max c rd ra rb => isCore c && isReg rd && isReg ra && isReg rb
  | .minu c rd ra rb => isCore c && isReg rd && isReg ra && isReg rb
  | .maxu c rd ra rb => isCore c && isReg rd && isReg ra && isReg rb
  | .clz c rd ra => isCore c && isReg rd && isReg ra
  | .popc c rd ra => isCore c && isReg rd && isReg ra
  | .bswap c rd ra => isCore c && isReg rd && isReg ra
  | .addi c rd ra imm => isCore c && isReg rd && isReg ra && isImm16 imm
  | .andi c rd ra imm => isCore c && isReg rd && isReg ra && isImm16 imm
  | .ori c rd ra imm => isCore c && isReg rd && isReg ra && isImm16 imm
  | .xori c rd ra imm => isCore c && isReg rd && isReg ra && isImm16 imm
  | .slti c rd ra imm => isCore c && isReg rd && isReg ra && isImm16 imm
  | .sltiu c rd ra imm => isCore c && isReg rd && isReg ra && isImm16 imm
  | .slli c rd ra sh => isCore c && isReg rd && isReg ra && isImm6 sh
  | .srli c rd ra sh => isCore c && isReg rd && isReg ra && isImm6 sh
  | .srai c rd ra sh => isCore c && isReg rd && isReg ra && isImm6 sh
  | .lui c rd imm => isCore c && isReg rd && isImm16 imm
  | .hins1 c rd ra imm => isCore c && isReg rd && isReg ra && isImm16 imm
  | .hins2 c rd ra imm => isCore c && isReg rd && isReg ra && isImm16 imm
  | .hins3 c rd ra imm => isCore c && isReg rd && isReg ra && isImm16 imm
  | .lb c rd ra imm => isCore c && isReg rd && isReg ra && isImm16 imm
  | .lbu c rd ra imm => isCore c && isReg rd && isReg ra && isImm16 imm
  | .lh c rd ra imm => isCore c && isReg rd && isReg ra && isImm16 imm
  | .lhu c rd ra imm => isCore c && isReg rd && isReg ra && isImm16 imm
  | .lw c rd ra imm => isCore c && isReg rd && isReg ra && isImm16 imm
  | .lwu c rd ra imm => isCore c && isReg rd && isReg ra && isImm16 imm
  | .ld c rd ra imm => isCore c && isReg rd && isReg ra && isImm16 imm
  | .sb c rs ra imm => isCore c && isReg rs && isReg ra && isImm16 imm
  | .sh c rs ra imm => isCore c && isReg rs && isReg ra && isImm16 imm
  | .sw c rs ra imm => isCore c && isReg rs && isReg ra && isImm16 imm
  | .sd c rs ra imm => isCore c && isReg rs && isReg ra && isImm16 imm
  | .amoswap c rd ra rb => isCore c && isReg rd && isReg ra && isReg rb
  | .amoadd c rd ra rb => isCore c && isReg rd && isReg ra && isReg rb
  | .amoand c rd ra rb => isCore c && isReg rd && isReg ra && isReg rb
  | .amoor c rd ra rb => isCore c && isReg rd && isReg ra && isReg rb
  | .cas c rd ra rb => isCore c && isReg rd && isReg ra && isReg rb
  | .beq c ra rb disp => isCore c && isReg ra && isReg rb && isImm16 disp
  | .bne c ra rb disp => isCore c && isReg ra && isReg rb && isImm16 disp
  | .blt c ra rb disp => isCore c && isReg ra && isReg rb && isImm16 disp
  | .bge c ra rb disp => isCore c && isReg ra && isReg rb && isImm16 disp
  | .bltu c ra rb disp => isCore c && isReg ra && isReg rb && isImm16 disp
  | .bgeu c ra rb disp => isCore c && isReg ra && isReg rb && isImm16 disp
  | .jal c disp => isCore c && isDisp26 disp
  | .jalr c rd ra imm => isCore c && isReg rd && isReg ra && isImm16 imm
  | .csrr c rd num => isCore c && isReg rd && isCsr num
  | .csrw c rd ra num => isCore c && isReg rd && isReg ra && isCsr num
  | .csrs c rd ra num => isCore c && isReg rd && isReg ra && isCsr num
  | .csrc c rd ra num => isCore c && isReg rd && isReg ra && isCsr num
  | .eret c => isCore c
  | .trap c code => isCore c && isTrap code
  | .hopen c rd ra h => isCore c && isReg rd && isReg ra && isImm6 h
  | .hrd c rd ra rb h => isCore c && isReg rd && isReg ra && isReg rb && isImm6 h
  | .hsnap c rd ra rb h => isCore c && isReg rd && isReg ra && isReg rb && isImm6 h
  | .hsrch c rd ra rb h => isCore c && isReg rd && isReg ra && isReg rb && isImm6 h
  | .hnext c rd ra rb h => isCore c && isReg rd && isReg ra && isReg rb && isImm6 h
  | .calloc c rd => isCore c && isReg rd
  | .cfree c rd ra => isCore c && isReg rd && isReg ra
  | .cmove c rd ra rb dir => isCore c && isReg rd && isReg ra && isReg rb && isImm6 dir
  | .msend c rd ra => isCore c && isReg rd && isReg ra
  | .mrecv c rd ra => isCore c && isReg rd && isReg ra
  | .tackg c rd ra _ _ => isCore c && isReg rd && isReg ra
  | .engq c rd ra engine _ _ => isCore c && isReg rd && isReg ra && isImm6 engine
  | .ewait c rd ra rb flags => isCore c && isReg rd && isReg ra && isReg rb && isImm6 flags
  | .evpost c rd ra => isCore c && isReg rd && isReg ra
  | .ewaitWake c => isCore c
  | .timerException c => isCore c
  | .deferredStoreFail c addr => isCore c && isDword addr
  | .completionDeliver c => isCore c
  | .sampleTake c _ flags => isCore c && isImm6 flags
  | .coreSelftestComplete c _ => isCore c
  | .bobbinRefill q => isBpmReq q
  | .bobbinSpill q => isBpmReq q
  | .bobbinSpillAll => true
  | .bpmQsel v => isWord v
  | .bpmQmin v => isWord v
  | .bpmQcap v => isWord v
  | .ddr5TrainComplete _ _ _ _ => true
  | .patrolScrub addr _ _ => isDword addr
  | .sasColdLock v => isWord v
  | .mecCfgLock v => isWord v
  | .mecInitComplete => true
  | .mecReprov v => isWord v
  | .reprovComplete => true
  | .memClear v => isWord v
  | .memClearComplete => true
  | .sramPatrol _ _ addr _ _ => isDword addr
  | .laneLosDeclare l => isLane l
  | .laneLosClear l => isLane l
  | .laneLolDeclare l _ => isLane l
  | .pcsAlignChange p _ => decide (p < 72)
  | .laneAcquireComplete l _ => isLane l
  | .laneAcquireTimeout l => isLane l
  | .fomMeasure l _ _ => isLane l
  | .txPllUnlock l => isLane l
  | .laneWatchdogExpire l => isLane l
  | .laneSelftestComplete _ => true
  | .lneCal l v => isLane l && isWord v
  | .lneTest l v => isLane l && isWord v
  | .lneCtrl l v => isLane l && isWord v
  | .lneTxeq l v => isLane l && isWord v
  | .refclkLoss _ => true
  | .refclkReturn _ => true
  | .hifHostver v => isWord v
  | .ringEnable _ v => isWord v
  | .ringPiWrite r v => isRing r && isWord v
  | .descriptorFetch r _ _ _ _ => isRing r
  | .dmaReadTimeout _ _ => true
  | .nop b => isSub b
  | .msgSend b _ => isSub b
  | .hifCopy b host ddr _ dir _ => isSub b && isDword host && isDword ddr && isFace dir
  | .hiqPiWrite q v => isQueue q && isWord v
  | .injectionFrameSend q _ _ => isQueue q
  | .hxqBpiWrite q v _ => isQueue q && isWord v
  | .msixHoldoffExpiry _ => true
  | .functionReset _ => true
  | .modReqFactory r => isRequester r
  | .modReqEnrol r => isRequester r
  | .modReqSolo r => isRequester r
  | .modReqLead r => isRequester r
  | .modReqShadow r => isRequester r
  | .modReqService r => isRequester r
  | .modReqFallow r => isRequester r
  | .modReqSwap r _ _ => isRequester r
  | .swapImagesVerified => true
  | .swapReloadComplete _ => true
  | .modLckey r v => isRequester r && isWord v
  | .enrolDone r => isRequester r
  | .lcSeal r => isRequester r
  | .lcReturn r => isRequester r
  | .scrap r => isRequester r
  | .fuseOwner r => isRequester r
  | .fuseOwneronly r => isRequester r
  | .fuseBlowComplete _ => true
  | .modReset r v => isRequester r && isWord v
  | .coldReset => true
  | .kilnBoot => true
  | .tamperReleaseWait => true
  | .modZeroiseLocal r => isRequester r
  | .modZeroiseMesh r => isRequester r
  | .modBist r v => isRequester r && isWord v
  | .bistComplete _ _ _ => true
  | .modSvncommit r v => isRequester r && isWord v
  | .modMrext r v => isRequester r && isWord v
  | .modAttctrl r v => isRequester r && isWord v
  | .attestComplete => true
  | .modMrsel r v => isRequester r && isWord v
  | .tamperAssert => true
  | .pwrfailAssert => true
  | .railUndervoltage _ => true
  | .tempHot _ => true
  | .tempFault _ => true
  | .pipeParityFault s dir pipe _ => isSlice s && isFace dir && isPipe pipe
  | .spareRotate s dir => isSlice s && isFace dir
  | .spareKatFail s dir => isSlice s && isFace dir
  | .pipeKatComplete s dir pipe _ => isSlice s && isFace dir && isPipe pipe
  | .engineKat _ _ => true
  | .archiveCopy => true
  | .checkpoint => true
  | .evrPostctl r v => isRequester r && isWord v
  | .evrCalset v => isWord v
  | .calendarHoldover => true
  | .ppsEdge => true
  | .ppsMissing => true
  | .todMessage _ _ => true
  | .flsRead r => isRequester r
  | .flsProgram r => isRequester r
  | .flsErase r => isRequester r
  | .flsOpComplete _ => true
  | .i3cCmd i v => isI3c i && isWord v
  | .i3cTransferComplete i _ _ _ => isI3c i
  | .i3cIbi i _ _ => isI3c i
  | .prfFreeze _ => true
  | .prfClear => true
  | .prfClr i => isPrf i
  | .sasStatsel v => isWord v
  | .sasRecsel v => isWord v
  | .chnRecsel v => isWord v
  | .keySlotsel v => isWord v
  | .stnSearch v => isWord v
  | .stnNext v => isWord v
  | .twnNodeaddrLock v => isWord v
  | .registerWrite r a v => isRequester r && isAccess a && decide (v < 2 ^ (8 * a.len))
  | .registerRead r a => isRequester r && isAccess a
  | .illegal c w => isCore c && isWord w
  | .mkaHelloTime _ => true
  | .mkaLifeTime _ => true
  | .heartbeatsLostOnOnePath path => isFace path
  | .twnBlockFault => true
  | .txPllRelock l => isLane l
  | .foregroundRecalibrationEnd l => isLane l
  | .portClientPlayout p client => isSltPort p && isClient client
  | .powerStateD3hot _ => true

end Sys2Proof
end

