-- ==== Sys2Proof/Tests/Slice0.lean ====
section
/-! SUPPORT. Tests on small states: ill-formed commands, values from the spec's tables, and for every statement a state and operands
that meet its hypotheses. -/

open Sys2Proof Sys2Proof.Machine

namespace Sys2Proof.Tests

/-- A state over a device. -/
abbrev st (d : Dev) : State := { dev := d }

/-- A device in mode `m`. -/
abbrev inMode (m : Mode) : Dev := { mod := { mode := m } }

/-- A device with port `p` enabled. -/
def on (p : Nat) (d : Dev) : Dev := d.updTab (Tables.updPrt p (fun g => { g with enabled := true, gateOn := true }))

/-- A submission by core 1. -/
def sub1 : Sub := ⟨.core 1, 7, 0, 0⟩

/-- A frame of 60 bytes. -/
def frame60 : Bytes := List.replicate 60 0x5A

/-- A received frame with index 4. -/
def rx4 : RxFrame := ⟨4, frame60, true, []⟩

end Sys2Proof.Tests

open Sys2Proof.Tests

section

set_option Elab.async false


/-! ### Ill-formed commands: one for each check of WellFormed -/

theorem test_wellFormed_refuses :
    ([.framePassed 64, .sltSwap sub1 32, .stationWalk 8, .saErase sub1 131072, .chEnable sub1 65536, .saAttach sub1 0 0 4 none, .saUnstage sub1 32,
      .saStage sub1 0 256 [], .coldErase sub1 (2 ^ 20), .sasSide sub1 2, .keyTicket sub1 1024 false, .latPubkey sub1 64 0, .portClientPlayout 0 64,
      .eret 64, .add 0 32 0 0, .addi 0 0 0 65536, .slli 0 0 0 64, .jal 0 (2 ^ 26), .csrr 0 0 4096, .trap 0 32768, .hifHostver (2 ^ 32)] : List Instr).all
      (fun i => !WellFormed i) = true ∧
    ([.registerRead reqHost ⟨2 ^ 64, 4⟩, .registerRead reqHost ⟨0, 0⟩, .registerRead reqHost ⟨0, 4097⟩, .registerRead 0 ⟨0, 4⟩, .ringPiWrite 64 0, .hiqPiWrite 16 0, .bobbinRefill 192, .laneLosClear 80, .linkRekey 8,
      .pipeParityFault 0 0 5 false, .i3cCmd 2 0, .prfClr 16, .scrap 65, .nop ⟨.ring 64, 0, 0, 0⟩, .nop ⟨.core 64, 0, 0, 0⟩] : List Instr).all
      (fun i => !WellFormed i) = true := by
  decide +kernel

theorem test_wellFormed_accepts :
    ([.framePassed 63, .sltSwap sub1 31, .stationWalk 7, .saErase sub1 131071, .chEnable sub1 65535, .saAttach sub1 0 0 3 none, .eret 63, .add 63 31 31 31,
      .addi 0 0 0 65535, .jal 0 (2 ^ 26 - 1), .scrap reqHost, .registerRead reqJtag ⟨0, 4096⟩, .laneLosClear 79, .bobbinRefill 191] : List Instr).all WellFormed = true := by
  decide +kernel

/-! ### Values from the spec's tables -/

/-- The device after a command. -/
def Sys2Proof.Tests.after (i : Instr) (d : Dev) : Dev := match exec i { dev := d } with | .next s => s.dev | _ => d

/-- Core 12 in SOLO, running at address 0x1000. -/
def Sys2Proof.Tests.core12 : Dev := ({ mod := { mode := .solo } } : Dev).updCore 12 (fun k => { k with run := .running, pc := 0x1000, smpCfg := 1 })

/-- 10 Table 10-14: the word that each instruction of the example stands for. -/
theorem test_words_of_table_10_14 :
    ∀ x ∈ ([(.addi 12 13 0 6, 0x05A00006), (.addi 12 12 0 0x2000, 0x05802000), (.addi 12 14 0 0x3008, 0x05C03008), (.calloc 12 10, 0xE1400140),
      (.blt 12 10 0 0x3C, 0x8940003C), (.sd 12 10 14 0, 0x6D4E0000), (.addi 12 12 12 256, 0x058C0100), (.addi 12 13 13 0xFFFF, 0x05ADFFFF),
      (.bne 12 13 0 0xFFF9, 0x85A0FFF9), (.addi 12 15 0 1490, 0x05E005D2)] : List (Instr × Nat)),
      ((after x.1 core12).getCore 12).lastInsn = x.2 := by
  decide +kernel

/-- 10 Table 10-14: those words read back as those instructions. -/
theorem test_reading_of_table_10_14 :
    ∀ x ∈ ([(.addi 12 13 0 6, 0x05A00006), (.addi 12 12 0 0x2000, 0x05802000), (.calloc 12 10, 0xE1400140), (.blt 12 10 0 0x3C, 0x8940003C),
      (.sd 12 10 14 0, 0x6D4E0000), (.addi 12 13 13 0xFFFF, 0x05ADFFFF), (.bne 12 13 0 0xFFF9, 0x85A0FFF9)] : List (Instr × Nat)),
      Sys2Proof.glonikWord 12 x.2 [] true = some x.1 := by
  decide +kernel

/-- 10 Table 10-14: BLT at 0x1010 goes to 0x1100, BNE at 0x1028 to 0x100C. -/
theorem test_targets_of_table_10_14 :
    ((after (.blt 12 10 0 0x3C) (core12.updCore 12 (fun k => { k with pc := 0x1010, regs := [(10, BitVec.allOnes 64)] }))).getCore 12).pc = 0x1100 ∧
    ((after (.bne 12 13 0 0xFFF9) (core12.updCore 12 (fun k => { k with pc := 0x1028, regs := [(13, 1)] }))).getCore 12).pc = 0x100C := by
  decide +kernel

/-- 12 R340: the pairs 00, 01, 11 and 10 are the symbols 0 to 3, at the levels -3, -1, +1 and +3; a precoded run begins from P(-1) = 0. -/
theorem test_gray_symbols :
    graySymbols [false, false, false, true, true, true, true, false] = [0, 1, 2, 3] ∧ [0, 1, 2, 3].map pamLevel = [-3, -1, 1, 3] ∧
    precode 0 [1, 1, 3] = [1, 0, 3] := by
  decide +kernel

/-- 02 Table 02-7 and 03 Table 03-5: the IVs of the examples, the twin's, and the one under GCM-AES-256. -/
theorem test_ivs :
    frameIv { suite := 0, salt := 0x3C1FA9D27E450B8891C62F3A, ssci := 2 } 0 0x100000005 = be 12 0x3C1FA9D07E450B8991C62F3F ∧
    frameIv { suite := 0, salt := 0x3C1FA9D27E450B8891C62F3A, ssci := 3 } 0 0x100000005 = be 12 0x3C1FA9D17E450B8991C62F3F ∧
    frameIv { suite := 2 } 0x025A0C11003E8005 5 = be 12 0x025A0C11003E800500000005 ∧
    slotIv { suite := 0, salt := 0x71D40E9A23B6C8501F7E9A04, ssci := 4 } 0x32A00 = be 12 0x71D40E9E23B6C8501F7DB004 := by
  decide +kernel

/-- 02 worked example: the SecTAG of a frame of 1,504 bytes of secure data. -/
theorem test_sectag_of_example :
    ((protectFrame { txSci := true, sci := 0x025A0C11003E8005, pcode := 0 } { key := zeros 32 } (zeros 1516) 1 0x100000005).drop 12).take 16 =
      [0x88, 0xE5, 0x2D, 0x00, 0x00, 0x00, 0x00, 0x05, 0x02, 0x5A, 0x0C, 0x11, 0x00, 0x3E, 0x80, 0x05] := by
  decide +kernel

/-- 02 Table 02-9: PN recovery and the checks of the three frames. -/
theorem test_recovery_of_table_02_9 :
    recoverPn 5 0xFFFFF006 true = 0x100000005 ∧ recoverPn 0xFFFFFFF0 0xFFFFF007 true = 0xFFFFFFF0 ∧
    (let w : Win := { top := 0x100000004, w := 4095, init := true }
     w.low = 0xFFFFF006 ∧ w.check 0x100000005 = .pass ∧ (w.mark 0x100000005).low = 0xFFFFF007 ∧ (w.mark 0x100000005).check 0xFFFFFFF0 = .pass ∧
     (w.mark 0x100000005).check 0x100000005 = .dup) := by
  decide +kernel

/-- 16 Table 16-13: LNE[45]_STATUS of a retired lane reads 0x0000_000B, a reserved offset reads 0, an unassigned range has no register. -/
theorem test_registers_of_table_16_13 :
    (let d := core12.updLane 45 (fun l => { l with retired := true })
     (match regVal reqHost 0x10B408 d with | some (.word v) => v == 0xB | _ => false) = true ∧
     (match regVal reqHost 0x136008 d with | some (.word v) => v == 0 | _ => false) = true ∧ (regVal reqHost 0x080000 d).isNone = true) ∧
    (let d := core12.updSlice 3 (fun x => { x with state := 1 })
     (match regVal reqHost 0x1A01C0 d with | some (.word v) => v % 4 == 1 | _ => false) = true) := by
  decide +kernel

/-- FIPS 197 appendix C.1, and the check values of CRC-32C and of CRC-16 with polynomial 0x1021 and initial value 0xFFFF. -/
theorem test_published_values :
    aesEnc (be 16 0x000102030405060708090A0B0C0D0E0F) (be 16 0x00112233445566778899AABBCCDDEEFF) = be 16 0x69C4E0D86A7B0430D8CDB78070B4C55A ∧
    crc32c (ascii "123456789") = 0xE3069283 ∧ crc16 (ascii "123456789") = 0x29B1 := by
  decide +kernel

/-- An empty queue is a tick; a full one runs its front (log entry 2). -/
theorem test_step_front :
    (match step { pending := [.checkpoint, .ppsMissing], dev := {} } with | .next s => s.pending == [.ppsMissing] | _ => false) = true ∧
    (match step { dev := { evr := { ready := true } } } with | .next s => s.pending == [] && s.dev.evr.optime == 1 | _ => false) = true := by
  decide +kernel


/-! ### A state and operands for the hypotheses of each statement -/

theorem test_witness_FrameArrival :
    (∀ n ∈ [9724, 9725], ∀ h ∈ [4, 5], 
     let d := on 63 ((inMode .solo).updTab (Tables.updPrt 63 (fun g => { g with cfg := 137 })))
     let d := d.updTck 63 (fun t => { t with nextIdx := 4, horizon := h })
     let f : RxFrame := ⟨4, List.replicate n 0, true, []⟩
     let e := (fecCount 63 {} d).updTck 63 (fun t => { t with nextIdx := t.nextIdx + 1, rx := t.rx ++ [f] })
     Powered (st d) ∧ portEnabled d 63 = true ∧ linesOff d = false ∧ cfgSize (d.tab.getPrt 63).cfg ≠ 0 ∧ slotPort d.tab 63 = false ∧
       frameLong 63 f e = (n == 9725) ∧ frameHeld 63 4 e = (h == 4)) ∧
    (let d := (inMode .solo).updTab (Tables.updPrt 63 (fun g => { g with cfg := 137 }))
     linesOff d = false ∧ cfgSize (d.tab.getPrt 63).cfg ≠ 0 ∧ portEnabled d 63 = false ∧ (d.getTck 63).rx = [] ∧
     linesOff (inMode .reset) = true ∧ cfgSize ((inMode .solo).tab.getPrt 63).cfg = 0) ∧
    (let d := ((on 63 (inMode .solo)).updTab (Tables.updPrt 63 (fun g => { g with cfg := 4096 + 137 }))).updTab (Tables.updSlt 31 (fun g => { g with ctrl := 1 }))
     linesOff d = false ∧ cfgSize (d.tab.getPrt 63).cfg ≠ 0 ∧ portEnabled d 63 = true ∧ slotPort d.tab 63 = true) ∧
    (∀ p ∈ [0, 63], ∀ k ∈ [none, some 2, some 3], 
     let d := on p { inMode .solo with tck := { tno := 2 } }
     let d := d.updTck p (fun t => { t with horizon := 5, rx := [rx4], disableTack := k })
     Powered (st d) ∧ portEnabled d p = true ∧ (d.getTck p).rx = [rx4] ∧ frameHeld p 4 d = false ∧ viewTack p 4 d = 2 ∧ (d.getTck p).disableTack = k) ∧
    (let d := (on 63 (inMode .solo)).updTck 63 (fun t => { t with horizon := 4, rx := [rx4] })
     (d.getTck 63).rx = [rx4] ∧ portEnabled d 63 = true ∧ frameHeld 63 4 d = true) := by
  decide +kernel

/-- A channel of slice 0 with an ACTIVE transmit SA in slot 3 under AN 1. -/
def Sys2Proof.Tests.txDev : Dev :=
  let d := on 32 (inMode .solo)
  let d := d.updTab (Tables.updChn 7 (fun c => { c with en := true, dst := 32, anSlot := [(1, some 3)] }))
  let d := d.updTab (Tables.updSa 3 (fun x => { x with state := .active, att := true, an := 1, chid := 7, key := List.replicate 32 0 }))
  let d := d.updLive 3 (fun l => { l with nextPn := 9, softPn := 100, hardPn := 200 })
  (d.updChl 7 (fun l => { l with curAn := 1, curV := true })).updPort 32 (fun x => { x with fecCw := 1 })

/-- A frame that waits for that channel. -/
def Sys2Proof.Tests.job7 : TxJob := ⟨0, 4, 0, 7, 32, frame60, true, 0, []⟩

theorem test_witness_FrameProtect :
    let d := txDev.updSlice 0 (fun x => { x with txq := [job7] })
    let e := popJob 0 job7 d
    let b := protectFrame (d.tab.getChn 7) ((takePn 7 0 4 e).2.tab.getSa 3) frame60 1 9
    Powered (st d) ∧ (d.getPort 32).egress.length ≤ 1 ∧ nextJob 32 d = some (0, job7) ∧ portFenced d 0 = false ∧
    ((tabAt 0 d).getPrt 32).gateOn = true ∧ portDead e 32 = false ∧ slotPort d.tab 32 = false ∧ d.twn.chFence = [] ∧ (takePn 7 0 4 e).1 = some (3, 1, 9) ∧ job7.fcsOk = true ∧
    b.length + 4 ≤ ((tabAt 0 d).getPrt 32).maxFrame := by
  decide +kernel


/-- A released frame of a bypass rule, and of receive channel 0x8007. -/
def Sys2Proof.Tests.relOf (c : Option Nat) : RelFrame := ⟨32, 4, c, 5, frame60, true, [9]⟩

/-- Port 31 that has that frame to send, `f` over it. -/
def Sys2Proof.Tests.relDev (m : Mode) (c : Option Nat) (f : Dev → Dev) : Dev := 
  f (on 31 { (inMode m).updPort 31 (fun x => { x with rel := [relOf c] }) with bpm := { cells := [(9, some ⟨0x50, 0x50⟩)], count := [(0x50, 1)] } })

/-- A frame held at cipher port 32 for receive channel 0x8007. -/
def Sys2Proof.Tests.heldFrame (ok : Bool) : HoldFrame := ⟨4, 0, frame60, 0x8007, 5, 9, frame60, ok, true, true, 48, [9]⟩

/-- Port 32 that holds it, with its SA and the window 8 (`bits` its bitmap), and port 0 as its clear port. -/
def Sys2Proof.Tests.holdDev (ok : Bool) (bits : Nat) : Dev :=
  let d := on 0 (on 32 (inMode .solo))
  let d := d.updTab (Tables.updSa 5 (fun x => { x with state := .active, dir := 1, att := true, chid := 0x8007, win := some 8 }))
  (d.updWin 8 (fun w => { w with top := 9, w := 4095, init := true, bitmap := bits })).updPort 32 (fun x => { x with hold := [heldFrame ok] })

/-- That device after the release stage has counted the frame of a passed check. -/
def Sys2Proof.Tests.passedDev (d : Dev) : Dev :=
  let e := (d.updPort 32 (fun x => { x with hold := [] })).updWin 8 (fun x => x.mark 9)
  let e := saCount 5 5 48 (saCount 5 0 1 (relRef 5 e))
  formLearn (tabAt 0 d) 32 (heldFrame true) (prfCount 5 (some 0) 1 e)

theorem test_witness_FrameRelease_egress :
    (∀ b ∈ [true, false], ∀ n ∈ [0, 1],
     let f : EgFrame := ⟨3, 7, 9, frame60, b, 0, 4, b, b, [9]⟩
     let d := (txDev.updPort 32 (fun x => { x with egress := [f] })).updTwn 32 (fun t => { t with state := n })
     let e := when_ f.tooLong (saCount 3 5 1) (when_ f.fcsErr (portCount 0 5) (d.updPort 32 (fun x => { x with egress := [] })))
     Powered (st d) ∧ (d.getPort 32).egress = f :: [] ∧ portEnabled e 32 = true ∧ portFenced e 32 = (n == 1)) ∧
    (let f : EgFrame := ⟨3, 7, 9, frame60, false, 0, 4, false, false, []⟩
     let d := (inMode .solo).updPort 32 (fun x => { x with egress := [f] })
     (d.getPort 32).egress = [f] ∧ portEnabled (d.updPort 32 (fun x => { x with egress := [] })) 32 = false) ∧
    ((inMode .solo).getPort 32).egress = [] ∧ ((inMode .solo).getPort 32).hold = [] ∧ ((inMode .solo).getPort 31).rel = [] := by
  decide +kernel

theorem test_witness_FrameRelease_hold :
    (∀ ok ∈ [true, false], ∀ bad ∈ [true, false],
     let d := when_ bad (markBad 0 9 0) (holdDev ok 0)
     let e := d.updPort 32 (fun x => { x with hold := [] })
     Powered (st d) ∧ (d.getPort 32).hold = heldFrame ok :: [] ∧ portDead e 32 = false ∧ (heldFrame ok).tagOk = ok ∧ badCells (heldFrame ok).cells e = bad) ∧
    (let d := { holdDev true 0 with mod := { mode := .fallow } }
     (d.getPort 32).hold = heldFrame true :: [] ∧ portDead (d.updPort 32 (fun x => { x with hold := [] })) 32 = true) ∧
    (let d := holdDev true 0
     winOf 5 ((tabAt 0 d).getSa 5) = some 8 ∧ ((d.updPort 32 (fun x => { x with hold := [] })).getWin 8).check 9 = .pass) ∧
    ((holdDev true 512).getWin 8).check 9 ≠ .pass := by
  decide +kernel

theorem test_witness_FrameRelease_passed :
    let d := passedDev (holdDev true 0)
    let x := d.updTwn 32 (fun t => { t with state := 1 })
    let y := { d with twn := { d.twn with chFence := [0x8007] } }
    portFenced d 32 = false ∧ d.twn.chFence.contains 0x8007 = false ∧ portFenced x 32 = true ∧ portFenced y 32 = false ∧ y.twn.chFence.contains 0x8007 = true ∧
    portEnabled d ((tabAt 0 d).getChn 0x8007).dst = true ∧ portDead d 0 = false ∧ (moveCells 0x48 0x50 [] d).1 = true ∧ (moveCells 0x48 0x50 [9] { d with bpm := { cap := [(0x50, 1)] } }).1 = false ∧
    portEnabled (d.updTab (Tables.updPrt 0 (fun _ => {}))) ((tabAt 0 d).getChn 0x8007).dst = false := by
  decide +kernel

theorem test_witness_FrameRelease_rel :
    (∀ c ∈ [none, some 0x8007], ∀ b ∈ [true, false],
     let d := relDev .solo c (when_ b (markBad 0 9 0))
     let d0 := d.updPort 31 (fun x => { x with rel := [] })
     let e := match (relOf c).chid with | some c => freeStage (0x50 + chSlice c) (relOf c).cells d0 | none => d0
     Powered (st d) ∧ (d.getPort 31).rel = relOf c :: [] ∧ portEnabled e 31 = true ∧ portDead e 31 = false ∧ suppressed 31 e = false ∧ portFenced e 31 = false ∧
     badCells (relOf c).cells d0 = b) := by
  decide +kernel

theorem test_witness_FrameRelease :
    (let d := relDev .solo none (fun d => d.updTwn 31 (fun t => { t with state := 1 }))
     portEnabled d 31 = true ∧ portDead d 31 = false ∧ suppressed 31 d = false ∧ portFenced (d.updPort 31 (fun x => { x with rel := [] })) 31 = true) ∧
    (let d := relDev .shadow none (fun d => { d with twn := { d.twn with cfg := 0 } })
     portEnabled d 31 = true ∧ portDead d 31 = false ∧ suppressed 31 (d.updPort 31 (fun x => { x with rel := [] })) = true) ∧
    (portDead (relDev .fallow none (fun d => d)) 31 = true ∧ portEnabled (relDev .solo none (fun d => d.updTab (Tables.updPrt 31 (fun _ => {})))) 31 = false) ∧
    (let d := ((inMode .lead).updTck 63 (fun t => { t with admitted := 257 })).updTwn 63 (fun t => { t with hashes := [(256, 77)] })
     let d := { d with twn := { d.twn with pair := 1 } }
     Powered (st d) ∧ isTwin d = true ∧ d.twn.pair = 1 ∧ streamEnd 63 rxStream d = 0 ∧ twnPrefix (d.getTwn 63) 256 1 = [77] ∧
     twnPrefix ((inMode .lead).getTwn 63) 256 1 = [] ∧ isTwin (inMode .solo) = false) := by
  decide +kernel

/-- A ring submission of an SA_ERASE. -/
def Sys2Proof.Tests.desc (code : Nat) (shadow : Bool) : Desc := ⟨code, shadow, none, none, 0, 0, 0, 0, 0, []⟩

theorem test_witness_TackGate :
    (Powered (st (inMode .solo)) ∧ sourceOn (inMode .solo) = true) ∧
    (let d := (on 63 (inMode .solo)).updTck 63 (fun t => { t with pstate := .frozen, horizon := 4, rx := [rx4] })
     portEnabled d 63 = true ∧ (d.getTck 63).pstate = .frozen ∧ ∃ f ∈ (d.getTck 63).rx, frameLong 63 f d = false ∧ (d.getTck 63).horizon ≤ f.idx) ∧
    (let d := ((on 63 (inMode .solo)).updTab (Tables.updSlt 31 (fun g => { g with ctrl := 1 }))).updTck 63 (fun t => { t with pstate := .frozen })
     portEnabled d 63 = true ∧ (d.getTck 63).pstate = .frozen ∧ slotNow 63 d = true) ∧
    (let d := updSTx 31 (fun x => { x with running := true }) ((on 63 (inMode .solo)).updTck 63 (fun t => { t with pstate := .frozen }))
     portEnabled d 63 = true ∧ (d.getTck 63).pstate = .frozen ∧ slotPort d.tab 63 = false ∧ slotNow 63 d = true) ∧
    (let r : TackRec := ⟨1, 1, 0, [], [], 5⟩
     let d := { inMode .shadow with tck := { recq := [r] } }
     Powered (st d) ∧ d.tck.recq = [r] ∧ d.mod.mode = .shadow) ∧
    (let d := (on 63 (inMode .lead)).updTck 63 (fun t => { t with pstate := .freezing, ownReport := some 9 })
     let d := { d with twn := { d.twn with pair := 1 } }
     Powered (st d) ∧ freezingHere 63 d = true ∧ (d.getTck 63).ownReport = some 9 ∧ needsPeer d = true ∧ (d.getTck 63).peerReport = none) ∧
    ((!gateCodes.contains (desc 0x00FF false).code) = true ∧ (!gateCodes.contains (desc 0x0060 false).code) = false ∧
     gateClosed (inMode .reset) = true ∧ gateClosed (inMode .solo) = false ∧
     (let d := { inMode .solo with tck := { gate := List.replicate 4096 ⟨sub1, desc 1 false⟩ } }
      Powered (st d) ∧ 4096 ≤ d.tck.gate.length) ∧
     (let d := { inMode .solo with tck := { gate := List.replicate 4095 ⟨sub1, desc 1 false⟩ } }
      d.tck.gate.length < 4096)) := by
  decide +kernel

/-- An image of a transmit SA of suite 0 with NEXTPN 1, for SA_STAGE. -/
def Sys2Proof.Tests.saImage : Bytes := List.replicate 24 0 ++ [1] ++ List.replicate 39 0

/-- A staging buffer 0 that is READY with source `src`. -/
def Sys2Proof.Tests.staged (src ssci : Nat) : StageBuf :=
  { state := 2, src := src, image := { state := .basting, ssci := ssci, coldIdx := if src = 1 then some 1023 else none }, live := { nextPn := 1, softPn := 5, hardPn := 9 } }

/-- A device whose cold store is locked over a ready region. -/
def Sys2Proof.Tests.coldDev : Dev :=
  let d := inMode .solo
  { d with sas := { d.sas with coldLock := true, coldSize := 1, coldBase := 0x100000 }, mem := { d.mem with ready := true, lock := true } }

theorem test_witness_SaLoading :
    (let t : Ticket := ⟨255, List.replicate 32 1, true, 2, 0⟩
     let d := { inMode .solo with keys := { tickets := [t] } }
     Powered (st d) ∧ (d.getStage 31).state = 0 ∧ d.keys.tickets.find? (fun t => t.handle == 255) = some t ∧
     fld (byteAt saImage 0) 0 0 = 0 ∧ t.fresh = true ∧ t.key.length = suiteKeyLen (fld (byteAt saImage 0) 5 4) ∧
     badStagedLimits (fld (byteAt saImage 0) 0 0) (fld (byteAt saImage 0) 5 4) (leAt saImage 24 8)
       (stagedLimits (fld (byteAt saImage 0) 0 0) (fld (byteAt saImage 0) 5 4) (leAt saImage 32 8) (leAt saImage 40 8)).1
       (stagedLimits (fld (byteAt saImage 0) 0 0) (fld (byteAt saImage 0) 5 4) (leAt saImage 32 8) (leAt saImage 40 8)).2 = false) ∧
    (∀ x ∈ [1, 4], let d := coldDev.updCold 1023 (fun e => { e with state := x })
     Powered (st d) ∧ (d.getStage 31).state = 0 ∧ coldHas 1023 d = true ∧ (d.getCold 1023).state = x ∧ (coldOpen 1023 d).1 = true ∧
     (coldOpen 1023 { d with mem := { d.mem with ready := false } }).1 = false) ∧
    (let d := (inMode .solo).setStage 31 { staged 0 0 with state := 1, sub := some sub1 }
     Powered (st d) ∧ (d.getStage 31).state = 1 ∧ (d.getStage 31).src = 0 ∧ (d.getStage 31).sub = some sub1) ∧
    (let d := (inMode .solo).setStage 0 (staged 0 0)
     Powered (st d) ∧ sliceDown d (slotSlice 16383) = false ∧ (d.tab.getSa 16383).state = .free ∧ (d.getStage 8).state ≠ 2 ∧
     (d.getStage 0).state = 2 ∧ 0 % 8 = slotSlice 16383 ∧ 0 % 8 ≠ slotSlice 16384 ∧ (d.getStage 0).image.ssci % 2 = d.tab.side ∧ (d.getStage 0).src = 0) ∧
    (let d := (inMode .solo).setStage 0 (staged 0 1)
     (d.getStage 0).image.dir = 0 ∧ (d.getStage 0).image.ssci % 2 ≠ d.tab.side) ∧
    (let d := coldDev.setStage 0 (staged 1 0)
     let e := (d.updTab (Tables.updSa 16383 (fun _ => { (d.getStage 0).image with pinned := true }))).updLive 16383 (fun _ => (d.getStage 0).live)
     (d.getStage 0).state = 2 ∧ (d.getStage 0).src = 1 ∧ (d.getStage 0).image.coldIdx = some 1023 ∧ (coldOpen 1023 e).1 = true ∧
     (coldOpen 1023 { e with mem := { e.mem with ready := false } }).1 = false) ∧
    (let d := coldDev.updTab (Tables.updSa 16383 (fun x => { x with state := .basting }))
     Powered (st d) ∧ (coldOpen 1023 d).1 = true ∧ sliceDown d (slotSlice 16383) = false ∧ (d.tab.getSa 16383).state = .basting ∧
     (d.tab.getSa 16383).att = false ∧ coldHas 1023 d = true ∧ (d.getCold 1023).state = 0) ∧
    (∀ n ∈ [16383, 5], let d := (coldDev.updTab (Tables.updSa 16383 (fun x => { x with state := .basting, pinned := true, coldIdx := some 1023 }))).updCold 1023 (fun e => { e with state := 3, slot := n })
     (coldOpen 1023 d).1 = true ∧ (coldOpen 1023 { d with mem := { d.mem with ready := false } }).1 = false ∧ coldHas 1023 d = true ∧
     (d.getCold 1023).state = 3 ∧ ((d.getCold 1023).slot = 16383 ↔ n = 16383)) ∧
    (let d := { coldDev with sas := { coldDev.sas with parks := [(5, 1023, sub1, 3)] } }
     Powered (st d) ∧ (coldOpen 1023 { d with sas := { d.sas with parks := [] } }).1 = true ∧ d.sas.parks.find? (fun k => k.1 == 5) = some (5, 1023, sub1, 3)) := by
  decide +kernel

/-- A device whose slot 3 holds `x`. -/
def Sys2Proof.Tests.slot3 (x : SaStat) : Dev := (inMode .solo).updTab (Tables.updSa 3 (fun _ => x))

theorem test_witness_SaAttaching :
    (let d := inMode .solo
     Powered (st d) ∧ sliceDown d (slotSlice 16379) = false ∧ (∀ x ∈ winSlotsIn 16379, (d.tab.getSa x).state = .free) ∧ 16379 % 16384 ≤ 16379 ∧
     isRc 0x8000 = true ∧ (d.tab.getChn 0x8000).kind = 0 ∧ chSlice 0x8000 = slotSlice 16379) ∧
    (let d := slot3 { state := .window, win := some 3 }
     Powered (st d) ∧ sliceDown d (slotSlice 3) = false ∧ isHeader d.tab 3 = true ∧ (d.getWin 3).members = 0) ∧
    (∀ i ∈ [true, false], let d := (slot3 { state := .basting, dir := 1, att := true, win := some 8 }).updWin 8 (fun w => { w with init := i })
     Powered (st d) ∧ (d.tab.getSa 3).att = true ∧ (d.tab.getSa 3).dir = 1 ∧ winOf 3 (d.tab.getSa 3) = some 8 ∧ (d.getWin 8).init = i) := by
  decide +kernel

theorem test_witness_SaAttaching_transmit :
    (∀ n ∈ [0, 1], ∀ x ∈ [0, 1, 2], ∀ u ∈ [0, 2],
     let d := ((slot3 { state := .basting, suite := u }).updTab (Tables.updChn 7 (fun c => { c with kind := x }))).updLive 3 (fun l => { l with nextPn := n })
     Powered (st d) ∧ (d.tab.getSa 3).state = .basting ∧ (d.tab.getSa 3).att = false ∧ chSlice 7 = slotSlice 3 ∧ (d.tab.getSa 3).dir = 0 ∧
     isRc 7 = false ∧ anSlotOf d.tab 7 3 = none ∧ (d.tab.getChn 7).kind = x ∧ (d.tab.getSa 3).suite = u ∧ (d.getLive 3).nextPn = n) := by
  decide +kernel

theorem test_witness_SaAttaching_receive :
    (∀ x ∈ [0, 2],
     let d := ((slot3 { state := .basting, dir := 1 }).updTab (Tables.updChn 0x8000 (fun c => { c with kind := x }))).updLive 3 (fun l => { l with nextPn := 1 })
     let d := d.updTab (Tables.updSa 8 (fun _ => { state := .window, win := some 8 }))
     (d.tab.getSa 3).state = .basting ∧ (d.tab.getSa 3).att = false ∧ chSlice 0x8000 = slotSlice 3 ∧ (d.tab.getSa 3).dir = 1 ∧ isRc 0x8000 = true ∧
     anSlotOf d.tab 0x8000 3 = none ∧ (d.tab.getChn 0x8000).kind = x ∧ (d.tab.getSa 3).suite < 2 ∧ isHeader d.tab 8 = true ∧ slotSlice 8 = chSlice 0x8000 ∧
     isHeader d.tab 5 = false ∧ slotSlice 16384 ≠ chSlice 0x8000 ∧ (d.getLive 3).nextPn ≠ 0 ∧ winNamers d.tab 8 = [] ∧
     ∀ e ∈ d.tab.sa, e.2.att = false) := by
  decide +kernel

theorem test_witness_SaAttaching_groups :
    (∀ e ∈ [3, 2], let t := ((slot3 { state := .basting, dir := 1 }).updTab (Tables.updSa 4 (fun _ =>
       { state := .active, dir := 1, att := true, an := e, chid := 0x8001, win := some 8 }))).tab
     let t := Tables.updChn 0x8000 (fun c => { c with mgrp := 5 }) (Tables.updChn 0x8001 (fun c => { c with mgrp := 5 }) t)
     ∃ x ∈ winNamers t 8, (x.2.an = 3 ↔ e = 3) ∧ sameGroup t 0x8000 x.2.chid = true ∧ x.2.suite = (t.getSa 3).suite) ∧
    (∀ h ∈ [true, false], ∀ w ∈ [none, some 8], let d := (slot3 { state := .basting, dir := 1, att := true, win := w }).updLive 3 (fun l => { l with limHit := h })
     (d.tab.getSa 3).att = true ∧ (d.tab.getSa 3).dir = 1 ∧ winOf 3 (d.tab.getSa 3) = w ∧ (d.getLive 3).limHit = h) := by
  decide +kernel

/-- A channel 7 of kind `k` whose AN 2 is slot 3, BASTING with suite `suite`. -/
def Sys2Proof.Tests.seamDev (m : Mode) (k suite : Nat) (s : SlotState) : Dev :=
  let d := (inMode m).updTab (Tables.updChn 7 (fun c => { c with kind := k, dst := 32, anSlot := [(1, some 4), (2, some 3)] }))
  d.updTab (Tables.updSa 3 (fun _ => { state := s, att := true, an := 2, chid := 7, suite := suite }))

theorem test_witness_ChannelSeam :
    (Powered (st (inMode .solo)) ∧ sliceDown (inMode .solo) (chSlice 7) = false ∧ isRc 7 = false ∧ anSlotOf (inMode .solo).tab 7 2 = none ∧ isRc 0xFFFF = true) ∧
    (∀ m ∈ [Mode.lead, .shadow, .solo], ∀ x ∈ [0, 1, 2], ∀ u ∈ [1, 3], let d := seamDev m x u .basting
     anSlotOf d.tab 7 2 = some 3 ∧ (d.tab.getSa 3).state = .basting ∧ (d.tab.getSa 3).att = true ∧ (d.getChl 7).seamKind = 0 ∧ d.mod.mode = m ∧
     (d.tab.getSa 3).suite = u ∧ (d.tab.getChn 7).kind = x ∧ curSlot d.tab 7 d = none) ∧
    (∀ n ∈ [99, 100], let d := ((seamDev .solo 0 1 .basting).updChl 7 (fun l => { l with curAn := 1, curV := true })).updLive 4 (fun l => { l with nextPn := n })
     curSlot d.tab 7 d = some 4 ∧ (100 ≤ (d.getLive 4).nextPn ↔ n = 100)) ∧
    (let d := (inMode .solo).updTab (Tables.updChn 0x8000 (fun c => { c with anSlot := [(2, some 3)] }))
     Powered (st d) ∧ sliceDown d (chSlice 0x8000) = false ∧ anSlotOf d.tab 0x8000 2 = some 3 ∧ isRc 0x8000 = true) ∧
    (let d := seamDev .solo 0 0 .active
     anSlotOf d.tab 7 2 = some 3 ∧ isRc 7 = false ∧ (d.tab.getSa 3).state ≠ .basting) ∧
    (let d := (seamDev .solo 0 0 .basting).updChl 7 (fun l => { l with seamKind := 3 })
     anSlotOf d.tab 7 2 = some 3 ∧ (d.tab.getSa 3).state = .basting ∧ (d.tab.getSa 3).att = true ∧ (d.getChl 7).seamKind ≠ 0) ∧
    (let d := seamDev .lead 0 2 .basting
     Powered (st d) ∧ anSlotOf d.tab 7 2 = some 3 ∧ (d.tab.getSa 3).state = .basting ∧ (d.getChl 7).seamKind = 0 ∧ d.mod.mode = .lead ∧ 2 ≤ (d.tab.getSa 3).suite) ∧
    (let d := (seamDev .solo 0 1 .basting).updChl 7 (fun l => { l with curAn := 1, curV := true })
     Powered (st d) ∧ sliceDown d (chSlice 7) = false ∧ anSlotOf d.tab 7 2 = some 3 ∧ (d.tab.getSa 3).suite < 2 ∧ (d.getChl 7).seamKind = 0 ∧
     (d.tab.getChn 7).kind = 0 ∧ curSlot d.tab 7 d = some 4 ∧ (d.getLive 4).nextPn < 1) ∧
    (let d := seamDev .solo 2 1 .basting
     anSlotOf d.tab 7 2 = some 3 ∧ (d.tab.getSa 3).suite < 2 ∧ (d.tab.getChn 7).kind ≠ 0) := by
  decide +kernel

theorem test_witness_SaLifetime :
    (let d := slot3 { state := .active, att := true, an := 2, chid := 7 }
     Powered (st d) ∧ sliceDown d (slotSlice 3) = false ∧ (d.tab.getSa 3).att = true ∧ (d.tab.getSa 3).state = .active ∧ (d.tab.getSa 3).dir = 0 ∧
     isCurrent 3 d = false ∧ seamTarget 3 d = false ∧ 0 ≤ spentPn (d.tab.getSa 3).suite ∧ (d.getLive 3).nextPn = 0) ∧
    (let d := slot3 { state := .draining, att := true, chid := 7 }
     (d.tab.getSa 3).state = .draining ∧ (d.getLive 3).pendErase = none ∧ (d.getLive 3).refs = 0 ∧ (d.getLive 3).keep = false ∧ (d.getLive 3).pendRetire = none ∧
     (d.getLive 3).pendSeam = none ∧ (∀ j ∈ (d.getSlice (slotSlice 3)).txq, j.chid ≠ (d.tab.getSa 3).chid) ∧
     tackEffective (chanPort (d.tab.getSa 3).chid (d.tab.getChn (d.tab.getSa 3).chid)) (d.getLive 3).drainTack d = true) ∧
    (let d := (slot3 { state := .draining, att := true, chid := 7 }).updLive 3 (fun l => { l with pendErase := some (sub1, 4) })
     (d.tab.getSa 3).state = .draining ∧ (d.getLive 3).refs = 0 ∧ (d.getLive 3).pendErase = some (sub1, 4) ∧
     tackEffective (chanPort (d.tab.getSa 3).chid (d.tab.getChn (d.tab.getSa 3).chid)) (d.getLive 3).drainTack d = true) ∧
    ((slot3 { state := .spent }).tab.getSa 3).state = .spent ∧ ((slot3 { state := .basting }).tab.getSa 3).state = .basting ∧
    ((slot3 { state := .basting }).tab.getSa 3).att = false ∧ ((slot3 { state := .parking }).tab.getSa 3).state = .parking ∧
    (∀ x ∈ [SlotState.basting, .active], ((slot3 { state := x, att := true }).tab.getSa 3).att = true ∧ ((slot3 { state := x, att := true }).tab.getSa 3).state = x) ∧
    ((slot3 {}).tab.getSa 3).state = .free ∧ ((slot3 { state := .window }).tab.getSa 3).state = .window ∧
    (Powered (st txDev) ∧ sliceDown txDev (slotSlice 3) = false ∧ (txDev.tab.getSa 3).state = .active ∧ (txDev.tab.getSa 3).dir = 0 ∧
     isCurrent 3 txDev = true ∧ 2 ^ 64 - 1 ≤ spentPn 0 ∧ 9 ≤ (txDev.getLive 3).nextPn ∧ (txDev.getLive 3).nextPn < 200 ∧ 200 ≤ (txDev.getLive 3).hardPn) ∧
    (∀ x ∈ [SlotState.active, .basting], let d := (slot3 { state := x, att := true, chid := 7 }).updLive 3 (fun l => { l with nextPn := 9, hardPn := 200 })
     isCurrent 3 d = false ∧ (d.tab.getSa 3).state = x ∧ (d.tab.getSa 3).dir = 0 ∧ (d.getLive 3).nextPn < 200 ∧ 200 ≤ (d.getLive 3).hardPn) := by
  decide +kernel

theorem test_witness_ChannelRecords :
    (let image : Bytes := [0, 0, 0, 32] ++ List.replicate 60 0
     let d := inMode .solo
     Powered (st d) ∧ sliceDown d (chSlice 0) = false ∧ (d.tab.getChn 0).en = false ∧ badChannel d.tab 0 (chanOfImage (d.tab.getChn 0) image) = false ∧
     (d.getChl 0).seamKind = 0) ∧
    (let d := ((inMode .solo).updTab (Tables.updChn 0 (fun c => { c with en := true }))).updChl 0 (fun l => { l with seamKind := 3 })
     (d.tab.getChn 0).en = true ∧ (d.getChl 0).seamKind ≠ 0) ∧
    (let d := slot3 { state := .spent }
     ∀ e ∈ d.tab.sa, e.2.dir = 0 → e.2.state = .free ∨ e.2.state = .spent ∨ e.2.state = .window) ∧
    (isRc 0x7FFF = false ∧ isRc 0x8000 = true ∧ sciFind [] 5 = none ∧ (sciWays 5).find? (fun i => (Tab.get none ([] : Tab (Option SciEnt)) i).isNone) = some ((sciWays 5).headD 0)) ∧
    (let d := (inMode .solo).updTab (Tables.setSci 1 ((sciWays 5).headD 0) (some ⟨5, 0x8000⟩))
     (sciFind (d.tab.sciMap 1) 5).isSome = true ∧ sciFind (d.tab.sciMap 1) 5 = some ((sciWays 5).headD 0)) ∧
    (let d := inMode .solo
     let d := (sciWays 5).foldl (fun d i => d.updTab (Tables.setSci 0 i (some ⟨6, 0x8000⟩))) d
     sciFind (d.tab.sciMap 0) 5 = none ∧ (sciWays 5).find? (fun i => (Tab.get none (d.tab.sciMap 0) i).isNone) = none) := by
  decide +kernel


/-- Slot-mode port 31 on an enabled cipher port 63 with size-2 lanes. -/
def Sys2Proof.Tests.slotDev (m : Mode) (ctrl : Nat) : Dev :=
  let d := (inMode m).updTab (Tables.updPrt 63 (fun g => { g with enabled := true, cfg := 2 }))
  let d := d.updTab (Tables.updSlt 31 (fun g => { g with ctrl := ctrl, portCh := 0x7007 }))
  d.updTck 63 (fun t => { t with horizon := 1 })

/-- That port with an ACTIVE port SA whose next FC is 0. -/
def Sys2Proof.Tests.slotSaDev : Dev :=
  let d := (slotDev .solo 1).updTab (Tables.updChn 0x7007 (fun c => { c with en := true, kind := 2, anSlot := [(1, some 3)] }))
  let d := d.updTab (Tables.updSa 0x1C003 (fun x => { x with state := .active, att := true, an := 1, chid := 0x7007 }))
  let d := d.updLive 0x1C003 (fun l => { l with softPn := 100, hardPn := 200 })
  d.updChl 0x7007 (fun l => { l with curAn := 1, curV := true })

theorem test_witness_SlotSending :
    (∀ m ∈ [Mode.solo, .fallow], ∀ c ∈ [1, 5], let d := slotDev m c
     let t := tabAt (viewTack 63 0 d) d
     Powered (st d) ∧ prtOf 31 = 63 ∧ linesOff d = false ∧ portEnabled d 63 = true ∧ sltEn (t.getSlt 31) = true ∧ (d.getTck 63).nextIdx < (d.getTck 63).horizon ∧
     resyncHold 63 d = false ∧ (d.getTck 63).disableTack = none ∧ slotFallow t 31 d = (m == .fallow) ∧ portFenced d 63 = false ∧ sltTest (t.getSlt 31) = (c == 5)) ∧
    (portFenced ((slotDev .shadow 1).updTwn 63 (fun t => { t with state := 1 })) 63 = true ∧ portFenced (slotDev .shadow 1) 63 = false) ∧
    ((takeFc 0x7007 0 0 (txMultiframe 31 0 (slotDev .solo 1))).1 = (none, false) ∧ fld ((slotDev .solo 1).tab.getSlt 31).portCh 15 0 = 0x7007) ∧
    (slotFallow (tabAt 0 slotSaDev) 31 slotSaDev = false ∧ sltEn ((tabAt 0 slotSaDev).getSlt 31) = true ∧ (slotSaDev.getTck 63).nextIdx < (slotSaDev.getTck 63).horizon ∧
     (takeFc 0x7007 0 0 (txMultiframe 31 0 slotSaDev)).1 = (some 0x1C003, true)) ∧
    (let d := slotDev .solo 1
     sliceDown d (portSlice 63 d) = false ∧ (d.getSlt 31).tx.req = false ∧ (d.getSlt 31).tx.commit = false ∧
     tooFewSlots d.tab 31 ((d.tab.getSlt 31).txPage (!(d.getSlt 31).tx.act)) (d.tab.getSlt 31).txClient = false) ∧
    (let d := updSTx 31 (fun x => { x with req := true, reqSent := true }) (slotDev .solo 1)
     Powered (st d) ∧ (d.getSlt 31).tx.req = true ∧ (d.getSlt 31).tx.reqSent = true ∧ (d.getSlt 31).tx.acked = false ∧ (d.getSlt 31).tx.commit = false) := by
  decide +kernel

/-- A block whose first 64 payload bits are the slot alignment word with three bits wrong. -/
def Sys2Proof.Tests.fawBlock : Block := BitVec.ofNat 257 (2 ^ 256 + (slotFaw ^^^ 7) * 2 ^ 192)

theorem test_witness_SlotReceiving :
    (let d := on 0 (slotDev .solo 1)
     Powered (st d) ∧ sltEn (d.tab.getSlt 31) = true ∧ portEnabled d (prtOf 31) = true ∧ linesOff d = false ∧ (d.getSlt 31).rx.sync = false ∧
     (d.getPort (prtOf 31)).loa = false ∧ slotCols d.tab 31 ≠ 0 ∧ sltTest (d.tab.getSlt 31) = false) ∧
    (let d := updSRx 31 (fun r => { r with sync := true }) (slotDev .solo 1)
     let blocks := List.replicate (64 * slotCols d.tab 31) (0 : Block)
     (d.getSlt 31).rx.sync = true ∧ blocks.length = 64 * slotCols d.tab 31 ∧ slotCols d.tab 31 ≠ 0 ∧ blockF ((markErr [] blocks).headD 0) = false ∧
     (markErr [] (fawBlock :: blocks.tail)).headD 0 = fawBlock ∧ sltTest (d.tab.getSlt 31) = false ∧ sltTest ((slotDev .solo 5).tab.getSlt 31) = true ∧
     blockF fawBlock = true ∧ popN 64 (beAt (blockBytes fawBlock) 0 8 ^^^ slotFaw) ≤ 3 ∧ 3 < popN 64 ((slotFaw ^^^ 15) ^^^ slotFaw)) ∧
    (let d := on 0 ((slotDev .solo 1).updTab (Tables.updSlt 31 (fun g => { g with rxClient := [(63, 0x10000)] })))
     let e := Tab.get 0 (d.tab.getSlt 31).rxClient 63
     cliType e = 1 ∧ portEnabled d (rxClear d.tab e) = true ∧ portDead d (rxClear d.tab e) = false ∧ clientFault 31 63 d = false ∧
       memberPlays (cliChid e) d = true ∧ Tab.get false (d.getSlt 31).rx.play 63 = false ∧ ({ d with twn := { chFence := [cliChid e] } } : Dev).twn.chFence.contains (cliChid e) = true) ∧
    (∀ m ∈ [Mode.solo, .shadow], let d := on 0 ((slotDev m 1).updTab (Tables.updSlt 31 (fun g => { g with rxClient := [(63, 0x10000)] })))
     let d := updSRx 31 (fun r => { r with play := [(63, true)] }) { d with twn := { d.twn with cfg := 0 } }
     let e := Tab.get 0 (d.tab.getSlt 31).rxClient 63
     Tab.get false (d.getSlt 31).rx.play 63 = true ∧ clientFault 31 63 d = false ∧ d.twn.chFence.contains (cliChid e) = false ∧ portDead d 0 = false ∧
       memberPlays (cliChid e) d = true ∧ suppressed (rxClear d.tab e) d = (m == .shadow)) := by
  decide +kernel


theorem test_witness_SlotControl :
    (let d := slotDev .solo 1
     Powered (st d) ∧ sliceDown d (portSlice (prtOf 31) d) = false ∧ shortSuite d.tab (fld (2 ^ 32 - 1) 15 0) = false ∧ shortSuite d.tab (fld (2 ^ 32 - 1) 31 16) = false ∧
     sltEn (d.tab.getSlt 31) = true ∧ (d.getSlt 31).tx.act = false) ∧
    (let d := updSRx 31 (fun r => { r with act := true }) (inMode .solo)
     sltEn (d.tab.getSlt 31) = false ∧ (d.getSlt 31).rx.act = true) ∧
    (let d := (inMode .solo).updTab (Tables.updPrt 63 (fun g => { g with cfg := 4096 + 2 }))
     sltEn (d.tab.getSlt 31) = false ∧ cfgSlot (d.tab.getPrt (prtOf 31)).cfg = true ∧
     (changeHold 31 (reserveOf (slotCols d.tab 31 - 1)) 0 true d).isSome = true ∧ cfgSlot ((inMode .solo).tab.getPrt (prtOf 31)).cfg = false) ∧
    (let d := { inMode .solo with slt := { port := [(31, { dfc := { bits := 1 } })] } }
     defectOn (d.getSlt 31).dfc 0 0 = true ∧ failureOn (d.getSlt 31).dfc 0 0 = !true ∧ (0 : Nat) < 8) ∧
    (let d := { inMode .solo with slt := { port := [(31, { dfc := { failBits := 128 } })] } }
     defectOn (d.getSlt 31).dfc 7 0 = false ∧ failureOn (d.getSlt 31).dfc 7 0 = !false ∧ (d.getSlt 31).pm.line.length < 10) ∧
    (let d := { inMode .solo with slt := { port := [(31, { pm := { line := List.replicate 10 {} } })] } }
     (d.getSlt 31).pm.line = {} :: List.replicate 9 {} ∧ 9 ≤ (List.replicate 9 ({} : PmSec)).length) := by
  decide +kernel

/-- A Slot-mode configuration of port 63. -/
def Sys2Proof.Tests.cfgSlotOk : Nat := 4096 + ((List.range 4096).find? (fun c => cfgSize c == 2 && rowOk 63 c)).getD 0

/-- A configuration of one lane that the table of port configurations lists for port 0. -/
def Sys2Proof.Tests.cfgOk : Nat := ((List.range 4096).find? (fun c => cfgSize c != 0 && rowOk 0 c)).getD 0

theorem test_witness_PortCommands :
    (let d := inMode .solo
     Powered (st d) ∧ ∀ x ∈ [(0, cfgOk), (63, cfgOk), (63, cfgSlotOk), (0, 0), (63, 0)],
       let c := if cfgSize x.2 = 0 then 0 else fld x.2 12 0
       sliceDown d (portSlice x.1 d) = false ∧ c = x.2 ∧ (d.tab.getPrt x.1).gateOn = false ∧ sltEn (d.tab.getSlt (facePos x.1)) = false ∧
       (c ≠ 0 → lanesOverlap x.1 c d = false ∧ rowOk x.1 c = true ∧ pairRule x.1 c d = false) ∧ cfgSize (d.tab.getPrt x.1).cfg = 0 ∧
       (cfgSlot c = true → isCipher x.1 = true ∧ cfgSize c ≠ 1) ∧ ∀ l ∈ portLanes c x.1, (d.getLane l).retired = false) ∧
    (let d := (inMode .solo).updTab (Tables.updPrt 63 (fun g => { g with cfg := 137 }))
     (cfgSize (d.tab.getPrt 63).cfg = 5 ↔ cfgSize cfgOk = 5) ∧ cfgSize cfgOk ≠ 0 ∧ portNamed 63 d.tab = false) ∧
    (cfgSlot cfgSlotOk = true ∧ ((on 0 (inMode .solo)).tab.getPrt 0).gateOn = true ∧ sltEn ((slotDev .solo 1).tab.getSlt (facePos 63)) = true ∧ isCipher 63 = true) ∧
    (let d := (inMode .solo).updTab (Tables.updPrt 63 (fun g => { g with cfg := 137 }))
     d.mod.mode ≠ .enrol ∧ sliceDown d (portSlice 63 d) = false ∧ (d.tab.getPrt 63).gateOn = false ∧ portEnabled d 63 = false ∧ portLanes (d.tab.getPrt 63).cfg 63 ≠ [] ∧
     ∀ l ∈ portLanes (d.tab.getPrt 63).cfg 63, (d.getLane l).retired = false) ∧
    (let d := (on 63 (inMode .enrol)).updTck 63 (fun t => { t with disableTack := some 4 })
     d.mod.mode = .enrol ∧ (d.getTck 63).disableTack ≠ none ∧ sliceDown d (portSlice 63 d) = false) ∧
    (let d := on 63 (inMode .solo)
     portEnabled d 63 = true ∧ (d.tab.getPrt 63).gateOn = true ∧ (d.getTck 63).disableTack = none) ∧
    (let d := inMode .solo
     isCipher 0 = false ∧ (∀ o ∈ [0x400, 0x404, 0x410, 0x42C, 0x440, 0x45C], prtGatedOff o = true) ∧ (fld 63 13 0 < 64 ∧ 9728 < fld 9729 13 0) ∧
     (64 ≤ fld 64 13 0 ∧ fld 9728 13 0 ≤ 9728) ∧ bitAt 0x80070010 4 = true ∧ isRc (fld 0x00070010 31 16) = false ∧
     (isRc (fld 0xF0070010 31 16) = true ∧ portReaches d.tab 63 (chSlice (fld 0xF0070010 31 16)) = true) ∧
     portReaches d.tab 63 (chSlice (fld 0x80070010 31 16)) = false ∧ bitAt 0xF0070010 4 = true ∧ bitAt 0x00070010 4 = true) := by
  decide +kernel

/-- A station entry of partition 7 for channel 7. -/
def Sys2Proof.Tests.stn7 : StnEntry := ⟨2, 0, false, false, 7, 31, 0, 0, 0, 0⟩

theorem test_witness_Stations :
    (let d := inMode .solo
     Powered (st d) ∧ sliceDown d 7 = false ∧ isRc 0x7FFF = false ∧ partServes 7 (chSlice 0x7FFF) = true ∧ stnFind d.tab 7 (keyDomain 2) (keyMac 2) = none ∧
     (stnFree d.tab 7 (keyDomain 2) (keyMac 2)).isSome = true ∧ isRc 0x8000 = true ∧ Tab.get 0 d.stn.flushes 7 < 4 ∧
     (∀ q < 8, sliceDown d q = false) ∧ (∀ q < 8, Tab.get 0 d.stn.flushes q < 4) ∧ regsShut d = false ∧
     (∀ f ∈ d.tab.filters, f.part ≠ 7) ∧ d.tck.tno < 0 + 2 ∧ d.stn.waiting = [] ∧ learnsSettled 7 d.tck.tno d = true) ∧
    (let i := (stnFree (inMode .solo).tab 7 0 2).getD 0
     let d := (inMode .solo).updTab (Tables.setStn i (some stn7))
     stnFind d.tab 7 (keyDomain 2) (keyMac 2) = some i) ∧
    (let d := (inMode .solo).updTab (fun t => (stnWays 7 0 2).foldl (fun t i => Tables.setStn i (some { stn7 with mac := 3 }) t) t)
     stnFind d.tab 7 (keyDomain 2) (keyMac 2) = none ∧ stnFree d.tab 7 (keyDomain 2) (keyMac 2) = none) ∧
    (let d := { inMode .solo with stn := { flushes := [(7, 4)], walks := [(7, 3, 5)] } }
     Powered (st d) ∧ 4 ≤ Tab.get 0 d.stn.flushes 7 ∧ (∃ q < 8, 4 ≤ Tab.get 0 d.stn.flushes q) ∧ d.stn.walks.find? (fun w => w.1 == 7) = some (7, 3, 5) ∧
     ∀ n ∈ partPorts 7 d, tackEffective n 5 d = true) ∧
    (let f : FlushFilter := ⟨7, true, 7, true, 0⟩
     ((inMode .solo).updTab (fun t => { t with filters := [f] })).tab.filters = [f] ∧ f.part = 7 ∧ learnsSettled 7 f.tack (inMode .solo) = true) ∧
    (let l : Learn := ⟨63, 3, 4, 7, 0, 2, 7⟩
     let d := { inMode .solo with stn := { learns := [l] }, tck := { tno := 5 } }
     Powered (st d) ∧ 3 + 2 ≤ d.tck.tno ∧ l.part < 8 ∧ l.interval = 3 ∧ l.port < 64 ∧ d.stn.learns = [l] ∧ learnsComplete l.part 3 d = true ∧
     learnsSettled 7 6 { d with tck := { tno := 6 } } = false ∧ d.stn.waiting = [] ∧ ∀ x ∈ d.stn.learns, 2 < x.interval) := by
  decide +kernel

theorem test_witness_KeySources :
    (let d := { inMode .solo with keys := { rngOk := true, kwrValid := true } }
     Powered (st d) ∧ keyBadMode (subReq sub1) false false d = false ∧ rngBad d = false ∧ noKwr d = false ∧ 1023 ≠ destTicket ∧ kekFree 1023 d = true ∧
     badUsage 1 16 = false ∧ badUsage 1 32 = false ∧ d.keys.tickets.length < 256 ∧ kekFree 1 d = false ∧ d.keys.rngOk = true) ∧
    (let d := { inMode .solo with keys := { rngOk := true, kwrValid := true, tickets := List.replicate 256 ⟨0, [], true, 2, 0⟩ } }
     256 ≤ d.keys.tickets.length ∧ d.keys.tickets.find? (fun t => t.handle == 0) = some ⟨0, [], true, 2, 0⟩) ∧
    (∀ f ∈ [true, false], let d := { inMode .solo with keys := { kwrValid := true, kek := [(1023, { valid := true, usage := 8, freshLeft := f })] } }
     Powered (st d) ∧ keyBadMode (subReq sub1) false false d = false ∧ noKwr d = false ∧ kekValid 1023 d = true ∧ bitAt (d.getKek 1023).usage uSAK = true ∧
     (d.getKek 1023).freshLeft = f ∧ d.keys.tickets.length < 256 ∧ d.keys.rngOk = false) := by
  decide +kernel

/-- A device with KWR whose KEK slots 4, 5 and 6 hold keys. -/
def Sys2Proof.Tests.kekDev : Dev :=
  let k := fun (o : KeyOrigin) (u : Nat) => ({ valid := true, origin := o, usage := u, key := List.replicate 16 7, keyId := 9 } : Kek)
  { inMode .solo with keys := { kwrValid := true, sceOwner := reqHost, kek := [(4, k .ephemeral 4), (5, k .ephemeral 4), (6, k .persistent 0x1F)] } }

/-- A submission by the host on ring 3. -/
def Sys2Proof.Tests.ring3 : Sub := ⟨.ring 3, 7, 0, 0⟩

theorem test_witness_KeyOutputs :
    (Powered (st kekDev) ∧ keyBadMode (subReq ring3) false false kekDev = false ∧ keyBadMode (subReq ring3) true true kekDev = false ∧ noKwr kekDev = false ∧
     kekValid 4 kekDev = true ∧ bitAt (kekDev.getKek 4).usage uDERIVE = true ∧ (kekDev.getKek 4).key.length = 16 ∧ kekFree 1023 kekDev = true ∧ 1023 ≠ destTicket ∧
     badUsage 4 64 = false ∧ freshSource (kekDev.getKek 4) 0 1 = true ∧ freshSource (kekDev.getKek 4) 0 0 = false ∧
     (engWrite (subReq ring3) 0 (derived (kekDev.getKek 4) 0 1 [] 0 [] 0) kekDev).1 = true ∧
     isEphDerive (kekDev.getKek 4) = true ∧ isEphDerive (kekDev.getKek 5) = true ∧ ownsSce (subReq ring3) kekDev = true ∧ ownsSce (subReq sub1) kekDev = false) ∧
    (let d := { kekDev with keys := { kekDev.keys with sceOwner := reqCore 1 } }
     keyBadMode (subReq sub1) true true d = false ∧ keyBadMode (subReq sub1) true false { d with mod := { mode := .returned } } = false ∧ ownsSce (subReq sub1) d = true ∧ kekValid 6 d = true ∧ bitAt (d.getKek 6).usage uEXPORT = true ∧
     bitAt (d.getKek 6).usage uWRAP = true ∧ bitAt (d.getKek 6).usage uUNWRAP = true ∧
     (engWrite (subReq sub1) 0x100 (kwWrap (d.getKek 6).key (d.getKek 6).key) d).1 = true ∧ destLpk 1023 = none ∧ openBlob (d.getKek 6).key 6 [] = none) := by
  decide +kernel

/-- A key blob of a 16-byte key of 07s with USAGE DERIVE and KEYID 9, under the 16-byte KEK of 07s. -/
def Sys2Proof.Tests.blob9 : Bytes := be 72
  0x4f564b42010000100400000000000009002800000000000000000000000000007ce145ce7742266d848f9cf45be96ed170c09da69fff4e701d0409c480e9b87729e8cdef9d5c29a1

set_option maxRecDepth 1000000 in
theorem test_witness_KeyOutputs_blob :
    openBlob (kekDev.getKek 6).key 6 blob9 = some (0, List.replicate 16 7, 4, 9) ∧ badUsage 4 (List.replicate 16 (7 : Byte)).length = false := by
  decide +kernel


set_option maxRecDepth 1000000 in
/-- RFC 3394, 4.1: 128 bits of key data under a 128-bit KEK. -/
theorem test_kw_of_rfc_3394 :
    kwUnwrap (be 16 0x000102030405060708090A0B0C0D0E0F) (be 24 0x1FA68B0A8112B447AEF34BD8FB5A7B829D3E862371D2CFE5) =
      some (be 16 0x00112233445566778899AABBCCDDEEFF) := by
  decide +kernel

/-- The device of RFC 3394, 4.1: its KEK in slot 7, which the host may unwrap under; LPK slot 2 is taken. -/
def Sys2Proof.Tests.kwDev : Dev :=
  (kekDev.updKek 7 (fun _ => { valid := true, usage := 2 ^ uUNWRAP, key := be 16 0x000102030405060708090A0B0C0D0E0F })).updLpk 2 (fun k => { k with valid := true })

set_option maxRecDepth 1000000 in
theorem test_witness_KeyOutputs_unwrap :
    (Powered (st kwDev) ∧ keyBadMode (subReq ring3) true true kwDev = false ∧ keyBadMode (subReq ring3) true false kwDev = false ∧ ownsSce (subReq ring3) kwDev = true ∧
     noKwr kwDev = false ∧ kekValid 7 kwDev = true ∧ bitAt (kwDev.getKek 7).usage uUNWRAP = true ∧ 1023 ≠ destTicket ∧ destLpk 1023 = none ∧ kekFree 1023 kwDev = true ∧
     kekFree 4 kwDev = false ∧ destLpk 4 = none ∧ badUsage 4 16 = false ∧ badUsage 4 32 = false ∧ badUsage 64 16 = true ∧ kwDev.keys.tickets.length < 256 ∧
     256 ≤ (List.replicate 256 (⟨0, [], true, 2, 0⟩ : Ticket)).length ∧ destLpk 0x40000002 = some 2 ∧ lpkFree 2 kwDev = false ∧ destLpk 0x4000003F = some 63 ∧
     lpkFree 63 kwDev = true) ∧
    kwUnwrap (be 16 0x000102030405060708090A0B0C0D0E0F) [] = none ∧
    (kwUnwrap (be 16 0x000102030405060708090A0B0C0D0E0F) (be 32 0x889671106535a9f86d9f9a262f674569efa38d7535aac77527cab92855bddd6e)).map List.length = some 24 := by
  decide +kernel

/-- `n` inverse passes of key wrap, with the registers as they stand then. -/
def Sys2Proof.Tests.unpassed (key : Bytes) : Nat → Nat × Bytes × List Bytes → Nat × Bytes × List Bytes
  | 0, r => r
  | n + 1, r => unpassed key n (kwUnpass key r.2.2.reverse r.1 r.2.1 [])

/-- The inverse passes of key wrap, cut in two. -/
theorem Sys2Proof.Tests.kwUnpasses_add (key : Bytes) (m n : Nat) (r : Nat × Bytes × List Bytes) :
    kwUnpasses key (n + m) r.1 r.2.1 r.2.2 =
      kwUnpasses key m (unpassed key n r).1 (unpassed key n r).2.1 (unpassed key n r).2.2 := by
  induction n generalizing r with
  | zero => simp [unpassed]
  | succ n ih => rw [Nat.succ_add, kwUnpasses, ih, unpassed]

/-- The registers of a wrapped string before the first inverse pass. -/
def Sys2Proof.Tests.regs (c : Bytes) : Nat × Bytes × List Bytes :=
  (6 * (pieces 8 (c.drop 8)).length, c.take 8, pieces 8 (c.drop 8))

/-- A key blob opens to what its inverse passes give. -/
theorem Sys2Proof.Tests.openBlob_of {kek b : Bytes} {w kind usage id n m : Nat} {p s key : Bytes} {r : Nat × Bytes × List Bytes}
    (hr : unpassed kek 3 (regs (sub_ b 32 n)) = r) (hs : kwUnpasses kek 3 r.1 r.2.1 r.2.2 = s)
    (hb : byteAt b 6 = kind ∧ byteAt b 7 = m ∧ byteAt b 8 = usage ∧ beAt b 12 4 = id ∧ beAt b 16 2 = n)
    (ho : (b.length < 32 || beAt b 0 4 ≠ 0x4F564B42 || byteAt b 4 ≠ 1 || decide (1 < kind)
      || !(if kind = 0 then m == 16 || m == 32 || m == 48 || m == 64 else m == 32)
      || (kind == 1 && usage != 0) || decide (1 < byteAt b 9) || beAt b 10 2 != 0 || sub_ b 18 14 != zeros 14
      || n != m + 24 || decide (b.length < 32 + n) || (byteAt b 9 == 1 && w != 0)) = false)
    (hn : (sub_ b 32 n).length = n ∧ n % 8 = 0 ∧ 16 < n)
    (hp : s.take 4 = [0xA6, 0x59, 0x59, 0xA6] ∧ beAt s 4 4 = 16 + m ∧ s.drop 8 = p ∧ p.length = 16 + m ∧ p.drop 16 = key)
    (hm : p.take 16 = shake256 (b.take 32) 16) :
    openBlob kek w b = some (kind, key, usage, id) := by
  have h3 : kwUnwrapRaw kek (sub_ b 32 n) = s := by
    have h := kwUnpasses_add kek 3 3 (regs (sub_ b 32 n))
    rw [hr, hs] at h
    exact h
  have h4 : kwpUnwrap kek (sub_ b 32 n) = some p := by
    have h5 : ¬ n = 16 := by omega
    have h6 : (decide (n < 16) || n % 8 != 0) = false := by simp [hn.2.1]; omega
    have h7 : p.drop (16 + m) = zeros 0 := by rw [← hp.2.2.2.1]; simp [zeros]
    simp [kwpUnwrap, hn.1, h5, h6, h3, hp, h7]
  simp only [openBlob, hb, ho]
  simp [h4, hp.2.2.2.1, hp.2.2.2.2, hm]

/-- A blob of a signing seed of 05s, under the KEK of 07s. -/
def Sys2Proof.Tests.seedBlob : Bytes := be 88
  0x4f564b4201000120000000000000000900380000000000000000000000000000aaf6a08394af151c52d831fed60c0ad0340c6f4d735247f56d2bcf51fc0621c8bd30d51acf443634b3db2ad9358886d084189c39e59ce743

/-- Its registers after three inverse passes. -/
def Sys2Proof.Tests.seedMid : Nat × Bytes × List Bytes :=
  (18, be 8 0x12bcbd52f91edf83, pieces 8 (be 48
    0xa34810bace4dd33660191c2ae9db0034db2645fea6e05ed4194c5b748a57ec54ef5009b13097bd139b193903e41425b5))

/-- What the six passes give. -/
def Sys2Proof.Tests.seedOut : Bytes := be 56 0xa65959a6000000302d5b93f31d60daf4748d4ad6c233f95f0505050505050505050505050505050505050505050505050505050505050505

set_option maxRecDepth 1000000 in
theorem test_seedBlob_half : unpassed (List.replicate 16 7) 3 (regs (sub_ seedBlob 32 56)) = seedMid := by decide +kernel

set_option maxRecDepth 1000000 in
theorem test_seedBlob_rest : kwUnpasses (List.replicate 16 7) 3 seedMid.1 seedMid.2.1 seedMid.2.2 = seedOut := by decide +kernel

set_option maxRecDepth 1000000 in
theorem test_witness_KeyOutputs_seed : openBlob (List.replicate 16 7) 6 seedBlob = some (1, List.replicate 32 5, 0, 9) :=
  openBlob_of (m := 32) (p := seedOut.drop 8) test_seedBlob_half test_seedBlob_rest (by decide +kernel) (by decide +kernel) (by decide +kernel) (by decide +kernel)
    (by decide +kernel)

/-- A blob of a 48-byte key of 05s, under the KEK of 07s. -/
def Sys2Proof.Tests.key48Blob : Bytes := be 104
  0x4f564b42010000300400000000000009004800000000000000000000000000000687e4af587cc41d19c9c00bc6303faeefa7933728a834706730d51a47f4c43a21cf132175fa7ed2dd5dc977851facb25c3f0532cecbf0c27bd2f241842675e0deefabd710e45801

/-- Its registers after three inverse passes. -/
def Sys2Proof.Tests.key48Mid : Nat × Bytes × List Bytes :=
  (24, be 8 0x14243c23cc8ec640, pieces 8 (be 64
    0x2f5bace7facce66314163cbecdda442d120e1c513143ac8b6efd66d4ad13a4e015707721a90fdcad5a24bbf2df149b653f1ccad67417641fa260b6b54f740178))

/-- What the six passes give. -/
def Sys2Proof.Tests.key48Out : Bytes := be 72 0xa65959a600000040ff3e790c6154bd79eec7a6868ba597d3050505050505050505050505050505050505050505050505050505050505050505050505050505050505050505050505

set_option maxRecDepth 1000000 in
theorem test_key48Blob_half : unpassed (List.replicate 16 7) 3 (regs (sub_ key48Blob 32 72)) = key48Mid := by decide +kernel

set_option maxRecDepth 1000000 in
theorem test_key48Blob_rest : kwUnpasses (List.replicate 16 7) 3 key48Mid.1 key48Mid.2.1 key48Mid.2.2 = key48Out := by decide +kernel

set_option maxRecDepth 1000000 in
theorem test_witness_KeyOutputs_key48 : openBlob (List.replicate 16 7) 6 key48Blob = some (0, List.replicate 48 5, 4, 9) :=
  openBlob_of (m := 48) (p := key48Out.drop 8) test_key48Blob_half test_key48Blob_rest (by decide +kernel) (by decide +kernel) (by decide +kernel) (by decide +kernel)
    (by decide +kernel)

set_option maxRecDepth 1000000 in
/-- A blob of a key with USAGE FF, under the KEK of 07s. -/
theorem test_witness_KeyOutputs_usage :
    openBlob (List.replicate 16 7) 6 (be 72 0x4f564b4201000010ff00000000000009002800000000000000000000000000005a325a888736e9344e01997aa606684ba4abb5d304caaeb8f0aa11df0fb7293fd0094900a089ab19) =
      some (0, List.replicate 16 7, 0xFF, 9) ∧ badUsage 0xFF 16 = true := by
  decide +kernel

theorem test_witness_KeyOutputs_tickets :
    (∀ n ∈ [16, 32], badUsage 4 n = false ∧ n ≤ 64) ∧ kekDev.keys.tickets.length < 256 ∧ (1 = 1 → (kekDev.getKek 4).key.length = 16) ∧
    freshSource (kekDev.getKek 4) 0 1 = true ∧ freshSource (kekDev.getKek 4) 0 0 = false ∧ isEphDerive (kekDev.getKek 4) = true ∧
    (let d := { kekDev with keys := { kekDev.keys with tickets := List.replicate 256 ⟨0, [], true, 2, 0⟩ } }
     256 ≤ d.keys.tickets.length ∧ kekValid 4 d = true ∧ bitAt (d.getKek 4).usage uDERIVE = true) := by
  decide +kernel

/-- A LAT command of code `code` with operands `arg` and data `dat`. -/
def Sys2Proof.Tests.lat (code : Nat) (arg : List Nat) (dat : List Bytes) (fault : Bool) : LatCmd := ⟨sub1, code, arg, dat, fault, none⟩

/-- A device whose LAT queue holds `l`, with a random source, KWR and an LPK of type `type` in slot `n`. -/
def Sys2Proof.Tests.latDev (n type : Nat) (l : List LatCmd) : Dev :=
  ({ inMode .solo with keys := { rngOk := true, kwrValid := true, latQueue := l } } : Dev).updLpk n (fun k => { k with valid := true, type := type, key := [9] })

/-- The `i`-th command of a device's queue once it and those before it have started. -/
def Sys2Proof.Tests.started (i : Nat) (d : Dev) : LatCmd := ((latStartTo i d).keys.latQueue[i]?).getD (lat 0 [] [] true)

theorem test_witness_KeyEngines_lat :
    (let d := latDev 2 3 [lat 0x0288 [1, 0, 0x100] [[]] true]
     let e := latStartTo 0 d
     Powered (st d) ∧ keyBadMode (subReq sub1) false true d = false ∧ keyBadMode (subReq sub1) false true { d with mod := { mode := .returned } } = true ∧
     keyBadMode (subReq sub1) false false { d with mod := { mode := .fallow } } = true ∧ d.keys.latQueue.length < 256 ∧
     256 ≤ (List.replicate 256 (lat 0 [] [] false)).length ∧ e.keys.latQueue[0]? = some (started 0 d) ∧ (started 0 d).fault = true ∧
     d.keys.latQueue[0]? = some (lat 0x0288 [1, 0, 0x100] [[]] true) ∧ (started 0 d).run.isSome = true ∧ (lat 0x0288 [1, 0, 0x100] [[]] true).run = none) ∧
    (∀ c ∈ [lat 0x0280 [63, 0x100] [] false, lat 0x0286 [63, 0x100] [] false], let d := latDev 2 3 [c]
     let e := latStartTo 0 d
     e.keys.latQueue[0]? = some (started 0 d) ∧ (started 0 d).fault = false ∧ (started 0 d).clash = false ∧ rngBad e = false ∧ noKwr e = false ∧
     lpkFree ((started 0 d).arg 0) e = true ∧ (started 0 d).code = c.code) ∧
    (let c := lat 0x0282 [63, 1023] [List.replicate 1568 0] false
     let d := latDev 63 1 [lat 0 [] [] false, c, lat 0x0287 [62, 1023] [] false]
     let e := latStartTo 1 d
     e.keys.latQueue[1]? = some (started 1 d) ∧ noKwr e = false ∧ (started 1 d).held 1 = some [9] ∧ (started 1 d).clash = false ∧
     kekFree ((started 1 d).arg 1) e = true ∧ ((started 1 d).dat 0).length = 1568 ∧ (e.getLpk 63).valid = false ∧
     (latStartTo 2 d).keys.latQueue[2]? = some (started 2 d) ∧ (started 2 d).held 2 = none ∧ (started 2 d).clash = true ∧ noKwr (latStartTo 2 d) = false) ∧
    (let d := latDev 63 1 [lat 0x0282 [63, 5] [] false, lat 0x0282 [63, 1023] [List.replicate 1568 0] false]
     (started 0 d).held 1 = some [9] ∧ (started 1 d).held 1 = none) ∧
    (∀ n ∈ [1, 63], let c := lat 0x0283 [n, 0x100] [zeros 100] false
     let d := latDev n 3 [c]
     let e := latStartTo 0 d
     e.keys.latQueue[0]? = some (started 0 d) ∧ rngBad e = false ∧ lpkIs ((started 0 d).arg 0) 3 e = true ∧ (started 0 d).arg 0 = n ∧
     ((started 0 d).dat 0).length ≤ 65536) ∧
    (let c := lat 0x0284 [] [zeros 1952, zeros 100, zeros 3309] false
     (c.dat 1).length ≤ 65536 ∧ (c.dat 0).length = 1952 ∧ (c.dat 2).length = 3309) ∧
    (let d := latDev 63 3 [lat 0x0285 [63, 0x100] [] false]
     lpkIs ((started 0 d).arg 0) 3 (latStartTo 0 d) = true) ∧
    (∀ x ∈ [(0, 1), (0, 256), (1, 0), (2, 0), (3, 0)], let c := lat 0x0288 [x.1, x.2, 0x100] [[]] false
     c.arg 0 ≤ 3 ∧ (c.arg 0 = 0 → 1 ≤ c.arg 1 ∧ c.arg 1 ≤ 256) ∧ (c.dat 0).length ≤ 2 ^ 20) := by
  decide +kernel

/-- The peer's keys of LAT_ENCAP and LAT_ECDH: whether they are good is the library's word, which stands as a hypothesis. -/
theorem test_witness_KeyEngines_peer (he : ∀ b : Bytes, Config.mlkemEkOk b = true) (hp : ∀ b : Bytes, Config.p384Ok b = true) :
    (let d := latDev 2 3 [lat 0x0281 [1023, 0x100] [zeros 1568] false]
     let e := latStartTo 0 d
     let c := started 0 d
     e.keys.latQueue[0]? = some c ∧ rngBad e = false ∧ noKwr e = false ∧ c.clash = false ∧ kekFree (c.arg 0) e = true ∧ (c.dat 0).length = 1568 ∧
     Config.mlkemEkOk (c.dat 0) = true) ∧
    (let d := latDev 63 2 [lat 0x0287 [63, 1023] [zeros 97] false]
     let e := latStartTo 0 d
     let c := started 0 d
     e.keys.latQueue[0]? = some c ∧ noKwr e = false ∧ c.clash = false ∧ c.held 2 = some [9] ∧ kekFree (c.arg 1) e = true ∧ (c.dat 0).length = 97 ∧
     Config.p384Ok (c.dat 0) = true) :=
  ⟨⟨by decide +kernel, by decide +kernel, by decide +kernel, by decide +kernel, by decide +kernel, by decide +kernel, he _⟩,
    by decide +kernel, by decide +kernel, by decide +kernel, by decide +kernel, by decide +kernel, by decide +kernel, hp _⟩

theorem test_witness_KeyEngines :
    (let d := inMode .solo
     Powered (st d) ∧ regsShut d = false ∧ d.keys.sceOwner = 0 ∧ d.keys.sceJob = none ∧ (d.getCore 63).status.getLsbD 0 = true ∧ ((d.updCore 63 (fun k => { k with status := 0 })).getCore 63).status.getLsbD 0 = false) ∧
    (let d := (inMode .solo).updKek 5 (fun _ => { valid := true, usage := 32, key := List.replicate 16 7 })
     let d := { d with keys := { d.keys with sceOwner := reqCore 1 } }
     let job : Bytes := [0, 1] ++ le 2 5 ++ le 4 0 ++ le 8 0x40000 ++ le 8 0x40100 ++ zeros 32
     ownsSce (subReq sub1) d = true ∧ d.keys.sceOwner ≠ 0 ∧ d.keys.sceOwner ≠ reqHost ∧ d.keys.sceJob = none ∧ badJob (sceJobOf sub1 job) d = false ∧ badJob (sceJobOf sub1 []) d = true ∧ ownsSce (subReq ring3) d = false) ∧
    (let j : SceJob := ⟨sub1, 2, 0, 0, 5, 0, 0x10000000, 0x10000100, 0, 0, 0, 0, zeros 16⟩
     let d := { inMode .solo with keys := { sceJob := some j } }
     d.keys.sceJob = some j ∧ (sceRead j j.src j.len d).1 = some [] ∧ sceOutput j (zeros 16) [] [] [] = some [] ∧ 0x40000 ≤ j.dst ∧
     (engWrite j.requester j.dst [] d).1 = true) ∧
    (let j : SceJob := ⟨sub1, 2, 1, 4, 5, 0, 0x10000000, 0x10000100, 0, 0, 16, 12, zeros 16⟩
     (sceRead j (j.src + j.len) 16 (inMode .solo)).1 = some (zeros 16) ∧ sceOutput j (zeros 16) [] [] (zeros 16) = none) := by
  decide +kernel

/-- A PKX header of message code `code`, fragment 0 of `n`, for a message of `len` bytes. -/
def Sys2Proof.Tests.pkxHdr (code n len : Nat) : Bytes := be 4 0x4F56504B ++ [0x10] ++ be 1 code ++ be 2 len ++ be 8 99 ++ [0] ++ be 1 n ++ be 2 0

theorem test_witness_KeyAgreement :
    (∀ c ∈ [1, 7], ∀ n ∈ [1, 2, 12], ∀ len ∈ [1, 16364], let h := pkxHdr c n len
     h.length = 20 ∧ beAt h 0 4 = 0x4F56504B ∧ byteAt h 4 / 16 = 1 ∧ beAt h 6 2 = len ∧ byteAt h 5 = c ∧ byteAt h 16 = 0 ∧ byteAt h 17 = n ∧
     ∀ f ∈ (inMode .solo).keys.pkxFrags, f.port = 63 → f.session ≠ beAt h 8 8) ∧
    (let d := { inMode .solo with keys := { pkx := [(0, { state := .helloSent, retx := 3 }), (1, { state := .established, retx := 4 }),
         (2, { state := .failed }), (3, { state := .established, replaces := some 1 })] } }
     Powered (st d) ∧ (getPkx 0 d).state = .helloSent ∧ (getPkx 0 d).retx < 4 ∧ 4 ≤ (getPkx 1 d).retx ∧ (getPkx 1 d).state = .established ∧
     (∃ e ∈ d.keys.pkx, e.2.replaces = some 1 ∧ e.2.state = .established) ∧ (∀ e ∈ d.keys.pkx, e.2.replaces = some 2 → e.2.state ≠ .established) ∧
     (getPkx 2 d).state = .failed ∧ (getPkx 2 d).initiator = false) ∧
    (let h := be 4 0x4F56504B ++ [0x20, 2] ++ be 2 16364 ++ be 8 99 ++ [11, 12, 0, 0]
     let d := { inMode .solo with keys := { pkx := [(4, { state := .failed, initiator := true, session := 99, port := 63 })] } }
     h.length = 20 ∧ beAt h 0 4 = 0x4F56504B ∧ byteAt h 4 / 16 ≠ 1 ∧ byteAt h 5 = 2 ∧ byteAt h 16 < byteAt h 17 ∧ byteAt h 17 ≤ 12 ∧
     pkxFind 63 (beAt h 8 8) d = some 4 ∧ (getPkx 4 d).state = .failed ∧ (getPkx 4 d).initiator = true) ∧
    (let h := be 4 0x4F56504B ++ [0x20, 7] ++ be 2 1 ++ be 8 99 ++ [0, 1, 0, 0]
     beAt h 0 4 = 0x4F56504B ∧ byteAt h 4 / 16 ≠ 1 ∧ byteAt h 5 = 7 ∧ byteAt h 16 = 0 ∧ byteAt h 17 = 1 ∧ beAt h 6 2 = 1) ∧
    (let d := { inMode .lead with keys := { mka := [(0, some { cak := 4, ick := 5, kek := 6, port := 63 })] } }
     (getMka 0 d).isSome = true ∧ sceFree d = true ∧ mkaOff d = true ∧ sceFree { d with keys := { d.keys with sceOwner := 1 } } = false) := by
  decide +kernel

theorem test_witness_KeyAgreement_mka :
    ∀ i ∈ [none, some 5, some 6], ∀ mn ∈ [8, 9], ∀ v ∈ [true, false], let c : MkaCa := { cak := 4, ick := 5, kek := 6, port := 63, peerId := i, peerMn := mn }
     let d := { inMode .solo with keys := { mka := [(0, some c)], kek := if v then [(5, { valid := true, usage := 2 ^ uSCE, key := zeros 32 })] else [] } }
     let body := be 1 3 ++ be 1 0 ++ be 8 5 ++ be 12 5 ++ be 4 9 ++ zeros 23
     getMka 0 d = some c ∧ sceFree d = true ∧ mkaOff d = false ∧ c.peerId = i ∧ c.peerMn = mn ∧ (∃ x : Mkpdu, mkpduOf body = some x ∧ x.memberId = 5 ∧ x.mn = 9) ∧
     (((mkaKeys c d).getKek c.ick).valid && bitAt ((mkaKeys c d).getKek c.ick).usage uSCE) = v ∧ cmac ((mkaKeys c d).getKek c.ick).key body ≠ [] := by
  decide +kernel

/-- 64 fingerprints of a hunting port, and the same ones five frames later at the lead. -/
def Sys2Proof.Tests.ownFp : List (Nat × Nat) := (List.range 64).map (fun i => (i, 100 + i))

/-- The lead's. -/
def Sys2Proof.Tests.leadFp : List (Nat × Nat) := (List.range 64).map (fun i => (5 + i, 100 + i))

theorem test_fpRun_offset (o : Int) (i : Nat) (h : fpRun ownFp leadFp o i = true) : o = 5 := by
  have ha : ∀ e ∈ ownFp, e.2 = 100 + e.1 := by decide +kernel
  have hb : ∀ e ∈ leadFp, e.2 = 95 + e.1 := by decide +kernel
  have h0 := List.all_eq_true.mp h 0 (by decide)
  split at h0
  · rename_i a b hfa hfb
    have h1 := ha _ (List.mem_of_find?_eq_some hfa)
    have h2 := hb _ (List.mem_of_find?_eq_some hfb)
    have h3 := List.find?_some hfa
    have h4 := List.find?_some hfb
    simp only [beq_iff_eq] at h0 h3 h4
    omega
  · cases h0

theorem test_nodup_eraseDups (n : Nat) : ∀ l : List Int, l.length ≤ n → l.eraseDups.Nodup := by
  induction n with
  | zero => intro l h; simp [List.length_eq_zero_iff.mp (Nat.le_zero.mp h)]
  | succ n ih =>
    rintro (_ | ⟨a, l⟩) h
    · simp
    · rw [List.eraseDups_cons, List.nodup_cons]
      exact ⟨by simp [List.mem_eraseDups], ih _ ((List.length_filter_le _ _).trans (Nat.le_of_succ_le_succ h))⟩

theorem test_fpOffsets : fpOffsets ownFp leadFp = [5] := by
  have hm : ∀ o : Int, o ∈ fpOffsets ownFp leadFp ↔ o = 5 := by
    intro o
    unfold fpOffsets
    rw [List.mem_filter]
    constructor
    · rintro ⟨_, h⟩
      obtain ⟨e, _, h⟩ := List.any_eq_true.mp h
      exact test_fpRun_offset o e.1 h
    · rintro rfl
      refine ⟨?_, by decide +kernel⟩
      rw [List.mem_eraseDups]
      exact List.mem_flatten.mpr ⟨_, List.mem_map.mpr ⟨(0, 100), by decide +kernel, rfl⟩, List.mem_map.mpr ⟨(5, 100), by decide +kernel, rfl⟩⟩
  have hn : (fpOffsets ownFp leadFp).Nodup := by
    unfold fpOffsets
    exact (test_nodup_eraseDups _ _ le_rfl).filter _
  exact List.perm_singleton.mp ((List.perm_ext_iff_of_nodup hn (List.nodup_singleton 5)).mpr (by simpa using hm))

theorem test_witness_TwinPairs :
    (let d := { inMode .shadow with twn := { cfg := 5 } }
     Powered (st d) ∧ pairMode d = 1 ∧ d.twn.pair ≠ 1 ∧ 0 = ownSide d ∧ 1 ≠ ownSide d ∧ 0 ≠ dpVer ∧ (d.getHp 6).state ≠ 4 ∧ d.mod.mode = .shadow) ∧
    (let d := ({ inMode .solo with twn := { cfg := 5 } } : Dev).updHp 6 (fun h => { h with state := 4 })
     pairMode d = 1 ∧ (d.getHp 6).state = 4 ∧ d.mod.mode ≠ .lead ∧ d.mod.mode ≠ .shadow ∧ d.twn.partner = 0) ∧
    (∀ m ∈ [Mode.lead, .shadow], let d := ({ inMode m with twn := { cfg := 5, partner := 7 } } : Dev).updHp 6 (fun h => { h with state := 3 })
     Powered (st d) ∧ pairMode d = 1 ∧ d.twn.pair ≠ 1 ∧ d.twn.partner = 7 ∧ (d.getHp 6).state = 3 ∧ d.mod.mode = m ∧ 1 ≠ ownSide d ∧
     (let fits := fun (role : Nat) => (d.mod.mode == .lead && role == 1) || (d.mod.mode == .shadow && role == 0)
      fits (if m = .lead then 1 else 0) = true ∧ fits 2 = false)) ∧
    (let d := { inMode .lead with twn := { pair := 1 } }
     Powered (st d) ∧ paired d = true ∧ (d.getTwn 63).sliceFault = false ∧ d.mod.mode = .lead ∧ notCompared 63 d = false ∧ comparedFrom 63 0 d ≤ 0 ∧
     255 < comparedFrom 63 255 (d.updTwn 63 (fun t => { t with cmpFrom := 256 })) ∧ (d.getTwn 63).waiting.length < 1024 ∧
     notCompared 63 (d.updTwn 63 (fun t => { t with hunt := true })) = true ∧ d.tck.gate.length < 4096) ∧
    (let d := ({ inMode .shadow with twn := { pair := 1 } } : Dev).updTwn 63 (fun t => { t with
       state := 2, hashes := ownFp.map (fun e => (e.1, e.2 * 2 ^ 32)), leadFp := leadFp })
     Powered (st d) ∧ paired d = true ∧ d.mod.mode = .shadow ∧ (d.getTwn 63).state = 2 ∧ slotPort d.tab 63 = false ∧
     (d.getTwn 63).hashes.map (fun e => (e.1, e.2 / 2 ^ 32)) = ownFp ∧ (d.getTwn 63).leadFp = leadFp ∧ portFenced d 63 = true ∧
     (d.getTwn 63).sliceFault = false ∧ giveUpCause 63 1 d = true ∧ giveUpCause 63 2 d = false ∧ giveUpCause 0 1 d = false ∧ d.twn.joined = false ∧ d.tab.sa = []) ∧
    (let d := { slotDev .shadow 1 with twn := { pair := 1, joined := true } }
     let d := d.updTwn 63 (fun t => { t with state := 2, resync := some (5, 9) })
     paired d = true ∧ (d.getTwn 63).state = 2 ∧ slotPort d.tab 63 = true ∧ (d.getTwn 63).resync = some (5, 9) ∧ d.twn.joined = true) := by
  decide +kernel

/-- A heartbeat frame with priority `p`, role 1, serial number 5. -/
def Sys2Proof.Tests.hbBytes (p : Nat) : Bytes := be 2 0x4842 ++ [2, 1] ++ be 1 p ++ [0] ++ be 4 7 ++ zeros 4 ++ be 8 5 ++ zeros 24

/-- A twin whose path A is up and whose pair's partner has serial number 5. -/
def Sys2Proof.Tests.twinDev (m : Mode) (f : Twn → Twn) : Dev :=
  let d := { inMode m with twn := f { pair := 1, partner := 5 } }
  ((d.updLane 76 (fun l => { l with los := false, lol := false })).updLane 77 (fun l => { l with los := false, lol := false })).updHp 6
    (fun h => { h with state := 3 })

theorem test_witness_Primacies :
    (let d := twinDev .shadow (fun t => { t with pathA := true, pathB := true })
     Powered (st d) ∧ isTwin d = true ∧ d.twn.pair = 1 ∧ 5 = d.twn.partner ∧ (4 : Nat) ≠ d.twn.partner ∧ d.twn.pathA = true ∧ d.twn.pathB = true ∧
     d.mod.mode = .shadow ∧ d.tck.stopped = false ∧ partnerGone d = false ∧ partnerGone { d with twn := { d.twn with evDepart := true } } = true) ∧
    (∀ o ∈ [true, false], let d := twinDev .lead (fun t => { t with primacy := true, tookOver := o, evNbr := o })
     Powered (st d) ∧ isTwin d = true ∧ d.mod.mode = .lead ∧ d.twn.pair = 1 ∧ d.twn.primacy = true ∧ d.twn.tookOver = o ∧ d.twn.contact = false ∧
     partnerGone d = o ∧ partnerGone { d with twn := { d.twn with contact := true } } = o) ∧
    (let d := twinDev .lead (fun t => { t with split := true })
     d.mod.mode = .lead ∧ d.twn.primacy = false ∧ d.twn.split = true ∧ isTwin { d with twn := { d.twn with pair := 3 } } = true) ∧
    (∀ f a : Bool, let d := { inMode .solo with twn := { cfg := 6, hbFirst := f, hbActive := a } }
     let e := d.updPort 0 (fun x => { x with los := true })
     Powered (st d) ∧ hbOn d = true ∧ hbPorts d = [] ∧ d.twn.hbFirst = f ∧ d.twn.hbActive = a ∧ (d.getPort (fld d.twn.hbCfg 5 0)).los = false ∧
     (e.getPort (fld e.twn.hbCfg 5 0)).los = true ∧ (e.getPort (fld e.twn.hbCfg 13 8)).los = true ∧ hbOn e = true) ∧
    (∀ p ∈ [0, 255], 46 ≤ (hbBytes p).length ∧ beAt (hbBytes p) 0 2 = 0x4842 ∧ byteAt (hbBytes p) 2 = 2 ∧ byteAt (hbBytes p) 3 ≠ 4) ∧
    (let b := be 2 0x4842 ++ [2, 4] ++ zeros 42
     46 ≤ b.length ∧ beAt b 0 2 = 0x4842 ∧ byteAt b 2 = 2 ∧ byteAt b 3 = 4) := by
  decide +kernel

/-- A device of a heartbeat pair whose one heartbeat port is 63, served by frame-injection queue 15. -/
def Sys2Proof.Tests.hbDev : Dev :=
  ({ inMode .solo with twn := { cfg := 6, hbCfg := 63 + 64 } } : Dev).updInj 15 (fun g => { g with en := true, cfg := 63 + 128 + 4 * 256 })

theorem test_witness_hbFrameSend :
    Powered (st hbDev) ∧ hbOn hbDev = true ∧ hbPorts hbDev = [63] ∧ hbDev.twn.hbTaking = false ∧
    (let r := freeBytes 6 { hbDev with twn := { hbDev.twn with hbFrSeq := hbDev.twn.hbFrSeq + 1 } }
     osfQueue none 63 r.2 = some 15 ∧ (r.2.getInj 15).frames.length < 2 ^ fld (r.2.getInj 15).cfg 11 8 ∧ (takeCells (0xA0 + 15) 1 r.2).1.isSome = true) := by
  decide +kernel

/-- The first 16 bytes of an empty Holpen frame of type `t` with LSEQ `n`. -/
def Sys2Proof.Tests.hpHdr (t n : Nat) : Bytes := [0x10] ++ be 1 t ++ zeros 7 ++ be 1 n ++ zeros 6

/-- Its tag under the zero key. -/
def Sys2Proof.Tests.hpTag (t n : Nat) : Bytes := gcmTag (zeros 32) (hpIv [] 0 0) (hpHdr t n) []

theorem test_witness_HolpenNetwork :
    (let d := (inMode .solo).updHp 7 (fun h => { h with state := 3, rxKey := zeros 32, lack := 255 })
     let open_ := fun (b : Bytes) => gcmOpen (d.getHp 7).rxKey (hpIv (d.getHp 7).rxSalt 0 (d.getHp 7).rxCtr) (b.take 16) (sub_ b 16 (beAt b 2 2)) (b.drop (16 + beAt b 2 2))
     Powered (st d) ∧ (d.getHp 7).state = 3 ∧ (d.getHp 7).lowSerial = false ∧
     (∀ t ∈ [0, 2, 3], hpLossless t = false) ∧ hpLossless 63 = true ∧ (d.getHp 7).fails < 3 ∧
     (∀ x ∈ [(4, 0), (4, 1), (3, 0), (0, 0)], let b := hpHdr x.1 x.2 ++ hpTag x.1 x.2
      fld (byteAt b 1) 5 0 = x.1 ∧ b.length = beAt b 2 2 + 32 ∧ open_ b = some [] ∧ byteAt b 9 = x.2 ∧ ((d.getHp 7).lack + 1) % 256 = 0) ∧
     open_ (hpHdr 4 0 ++ zeros 16) = none ∧ 3 ≤ ((d.updHp 7 (fun h => { h with fails := 3 })).getHp 7).fails) ∧
    (∀ s ∈ [1, 2], let d := (inMode .solo).updHp 6 (fun h => { h with state := s })
     (d.getHp 6).state = s ∧ s ≠ 3 ∧ s ≠ 0 ∧ bitAt 2 1 = true ∧ bitAt 0xFD 1 = false ∧ servesTorus 6 d = none) ∧
    (let d := (inMode .solo).updHp 0 (fun h => { h with state := 2 })
     let e := { d with twn := { d.twn with nodeAddr := 2 ^ 31 } }
     let b := [0x10, 1] ++ be 2 28 ++ zeros 56
     regsShut e = false ∧ (servesTorus 0 e).isSome = true ∧ nodeLocked e = true ∧ (∃ t ∈ servesTorus 0 e, 511 ≠ torusNeighbour t e) ∧
     fld (byteAt b 1) 5 0 = 1 ∧ beAt b 2 2 = 28 ∧ b.length = 60 ∧ beAt b 16 4 ≠ 0x4F56504B) ∧
    (let d := { (inMode .solo).updHp 5 (fun h => { h with state := 3 }) with keys := { pkx := [(9, { port := 69, state := .established, initiator := true })] } }
     (d.getHp 5).state = 3 ∧ (d.keys.pkx.find? (fun e => e.2.port == 64 + 5 && e.2.state == .established && e.2.initiator)).isSome = true ∧
     d.keys.pkx.find? (fun e => e.2.port == 64 + 6 && e.2.state == .established && e.2.initiator) = none) ∧
    (let d := (inMode .solo).updLane 64 (fun l => { l with los := false, lol := false })
     let d := d.updLane 65 (fun l => { l with los := false, lol := false })
     (d.getHp 0).state = 0 ∧ hpLanesUp 0 d = true ∧ hpOff 0 d = false ∧ hpOff 7 d = true ∧ nodeLocked d = false ∧ nodeLocked { d with twn := { nodeAddr := 2 ^ 31 } } = true) ∧
    (∀ n ∈ [0, 1, 511], let d := (inMode .solo).updHp 5 (fun h => { h with state := 3 })
     let d := { d with twn := { d.twn with nodeAddr := 2 ^ 31 } }
     (d.getHp 5).state = 3 ∧ nodeLocked d = true ∧ ∃ t ∈ servesTorus 5 d, (n = torusNeighbour t d ↔ n = 0)) ∧
    (∀ l ∈ [74, 75, 80], let d := ((inMode .solo).updHp 5 (fun h => { h with known := true, nbr := 256 })).updLane l (fun x => { x with los := false, lol := false })
     let d := { d with twn := { d.twn with nodeAddr := 2 ^ 31 } }
     (d.getHp 5).state = 0 ∧ hpLanesUp 5 d = false ∧ nodeLocked d = true ∧ (d.getHp 5).known = true ∧
     ([74, 75].all (fun l => (d.getLane l).los || (d.getLane l).lol) = (l == 80))) ∧
    (let d := { (inMode .solo).updHp 5 (fun h => { h with state := 2, nbr := 511 }) with twn := { nodeAddr := 2 ^ 31 } }
     ((d.updHp 5 (fun h => { h with state := 2, nbr := 511 })).getHp 5).state = 2 ∧ wrongNeighbour 5 511 d = true) := by
  decide +kernel


/-- Core 63, running at supervisor level, after `f`. -/
def Sys2Proof.Tests.coreDev (f : Core → Core) : Dev := (inMode .solo).updCore 63 (fun k => f { k with run := .running })

/-- Such a core with `v` in g5. -/
def Sys2Proof.Tests.regDev (v : DWord) : Dev := coreDev (fun k => { k with regs := [(5, v)] })

theorem test_witness_RegisterResults :
    (∀ v ∈ [0, 1, 2 ^ 63, 2 ^ 64 - 1], let d := regDev (BitVec.ofNat 64 v)
     Ready 63 (st d) ∧ (d.getCore 63).reg 5 = BitVec.ofNat 64 v) ∧
    (∀ n ∈ [0, 63], 2 ^ (63 - n) ≤ (BitVec.twoPow 64 (63 - n)).toNat ∧ (BitVec.twoPow 64 (63 - n)).toNat < 2 ^ (64 - n)) ∧
    (let d := coreDev (fun k => { k with regs := [(5, BitVec.intMin 64), (6, BitVec.allOnes 64)] })
     Ready 63 (st d) ∧ (d.getCore 63).reg 5 = BitVec.intMin 64 ∧ (d.getCore 63).reg 6 = BitVec.allOnes 64) ∧ 65535 < 2 ^ 16 ∧ 63 < 64 := by
  decide +kernel

theorem test_witness_LoadResults :
    (∀ n ∈ [1, 2, 4, 8], let d := regDev (BitVec.ofNat 64 (0x40000 - n))
     let k := d.getCore 63
     let a := (k.reg 5 + (BitVec.ofNat 16 0).signExtend 64).toNat
     Ready 63 (st d) ∧ a % n = 0 ∧ a + n ≤ 0x40000 ∧ k.super = true ∧ badIn 6 63 a n d = false ∧
     (coreLoad 63 a n d).1 = (none, List.replicate n 0) ∧ ((coreLoad 63 a n d).2.getCore 63).run = .running ∧
     (n ≠ 1 → ∀ b ∈ [2, 4, 8], (k.reg 5 + (BitVec.ofNat 16 0xFFFF).signExtend 64).toNat % b ≠ 0) ∧ k.exl = false) := by
  decide +kernel

theorem test_witness_StoreResults :
    (∀ n ∈ [1, 2, 4, 8], let d := regDev (BitVec.ofNat 64 (0x40000 - n))
     let k := d.getCore 63
     let a := (k.reg 5 + (BitVec.ofNat 16 0).signExtend 64).toNat
     Ready 63 (st d) ∧ (coreStore 63 a (le n (k.reg 7).toNat) d).1 = .ok ∧ ((coreStore 63 a (le n (k.reg 7).toNat) d).2.getCore 63).run = .running ∧
     a % n = 0 ∧ a + n ≤ 0x40000 ∧ k.super = true ∧ k.exl = false ∧ (n ≠ 1 → (a + 1) % n ≠ 0)) := by
  decide +kernel

/-- Core 63 at task level with the grants `caps`, one region over its program and one with the rights `rights` over the last page of its SRAM and
over all above it. -/
def Sys2Proof.Tests.capDev (caps rights : Nat) (f : Core → Core) : Dev := (inMode .solo).updCore 63 (fun k => f { k with
  run := .running, status := 0, pc := 0x10000000, taskCap := BitVec.ofNat 64 caps
  trBase := [(0, 0x3F000), (1, 0x10000000)], trLim := [(0, BitVec.ofNat 64 (0x40000 + rights)), (1, 0x10001007)] })

theorem test_witness_AtomicResults :
    (let d := regDev 0x3FFF8
     let k := d.getCore 63
     Ready 63 (st d) ∧ (k.reg 5).toNat % 8 = 0 ∧ (k.reg 5).toNat + 8 ≤ 0x40000 ∧ k.super = true ∧ badIn 6 63 (k.reg 5).toNat 8 d = false ∧
     badIn 6 63 0x3FFF8 8 (markBad 6 63 0x3FFFF d) = true) ∧
    (let d := regDev 0x3FFF9
     Ready 63 (st d) ∧ ((d.getCore 63).reg 5).toNat % 8 ≠ 0 ∧ (d.getCore 63).exl = false) ∧
    (∀ a ∈ [0x10000000, 0x107FFFF8], let d := regDev (BitVec.ofNat 64 a)
     ((d.getCore 63).reg 5).toNat = a ∧ badIn 7 0 (a - 0x10000000) 8 d = false ∧ badIn 7 0 (a - 0x10000000) 8 (markBad 7 0 (a - 0x10000000) d) = true) ∧
    (∀ r ∈ [1, 2, 3], let d := capDev 0 r (fun k => { k with regs := [(5, 0x3FFF8)] })
     let k := d.getCore 63
     Ready 63 (st d) ∧ k.super = false ∧ k.exl = false ∧ taskRegionOk k 0x3FFF8 8 0 = (r != 2) ∧ taskRegionOk k 0x3FFF8 8 1 = (r != 1)) ∧
    (∀ a ∈ [0x3FFFC, 0x40000, 0x10800000, 0x40000000], let d := regDev (BitVec.ofNat 64 a)
     0x40000 < a + 8 ∧ (a < 0x10000000 ∨ 0x10800000 < a + 8) ∧ (a < ddrBase ∨ ddrBase + ddrInstalled d < a + 8)) ∧
    (let d := { regDev (BitVec.ofNat 64 ddrBase) with mem := { trained := true, dimmGib := 4 } }
     ddrBase ≤ ((d.getCore 63).reg 5).toNat ∧ ddrBase + 8 ≤ ddrBase + ddrInstalled d ∧ (coreLoad 63 ddrBase 8 d).1.1 = some cBUSLOAD ∧
     ((coreLoad 63 ddrBase 8 d).2.getCore 63).run = .running ∧ ((coreLoad 63 ddrBase 8 d).2.getCore 63).exl = false ∧
     ((coreLoad 63 ddrBase 8 d).2.getCore 63).pc = (d.getCore 63).pc) ∧
    (let d := { coreDev id with mem := { trained := true, dimmGib := 2, psize := 1, ready := true, lock := true } }
     let a := ddrBase + metaEnd d
     let e := (coreLoad 63 a 8 d).2
     ddrBase ≤ a ∧ a + 8 ≤ ddrBase + ddrInstalled d ∧ a < 2 ^ 64 ∧ a % 8 = 0 ∧ (coreLoad 63 a 8 d).1 = (none, zeros 8) ∧ (e.getCore 63).run = .running ∧
     (coreStore 63 a (le 8 7) e).1 = .ok ∧ ((coreStore 63 a (le 8 7) e).2.getCore 63).run = .running) := by
  decide +kernel

/-- Region 0 of `capDev` with the rights 1 and 2 grants both of one double word; without right 2 no region grants a store. -/
theorem test_witness_MayAccess :
    MayAccess ((capDev 0 3 id).getCore 63) 0x3FFF8 8 [0, 1] ∧ MayAccess ((capDev 0 1 id).getCore 63) 0x3FFC0 64 [0] ∧
    ¬MayAccess ((capDev 0 1 id).getCore 63) 0x3FFF8 8 [0, 1] ∧ ¬MayAccess ((capDev 0 2 id).getCore 63) 0x3FFC0 64 [0] ∧
    ¬MayAccess ((capDev 0 1 id).getCore 63) 0x3FF00 256 [1] ∧ ¬MayAccess ((capDev 0 1 id).getCore 63) 0x3FFF8 8 [1] ∧
    (∀ b ∈ [0, 1, 2, 3, 4, 5], Granted ((capDev (2 ^ b) 3 id).getCore 63) b ∧ ¬Granted ((capDev (2 ^ 6 - 1 - 2 ^ b) 3 id).getCore 63) b) := by
  unfold MayAccess Granted
  refine ⟨Or.inr ⟨0, by decide +kernel⟩, Or.inr ⟨0, by decide +kernel⟩, ?_, ?_, ?_, ?_, by decide +kernel⟩ <;> decide +kernel

theorem test_witness_BranchTargets :
    (let d := regDev 0x107FFFFF
     let k := d.getCore 63
     Ready 63 (st d) ∧ fetchable (k.pc.setWidth 64 + 4 * (BitVec.ofNat 16 0x7FFF).signExtend 64 : DWord).toNat = true ∧
     fetchable (k.pc.setWidth 64 + 4 * (BitVec.ofNat 26 0xFFFF).signExtend 64 : DWord).toNat = true ∧ k.reg 5 ≠ k.reg 6 ∧
     (k.reg 6).toInt < (k.reg 5).toInt ∧ (k.reg 6).toInt ≤ (k.reg 5).toInt ∧
     fetchable ((k.reg 5 + (BitVec.ofNat 16 0).signExtend 64) &&& ~~~ (3 : DWord)).toNat = true ∧
     fetchable ((k.reg 5 + (BitVec.ofNat 16 1).signExtend 64) &&& ~~~ (3 : DWord)).toNat = false ∧ k.exl = false) := by
  decide +kernel

theorem test_witness_ControlRegisters :
    (let d := coreDev (fun k => { k with epc := 0x107FFFFC })
     let k := d.getCore 63
     Ready 63 (st d) ∧ k.super = true ∧ k.exl = false ∧ (∀ n ∈ [0, 0x002, 0x028, 0x041, 0x050, 0x057, 0x060, 0x065], csrListed n = true ∧ csrReadOnly n = false) ∧
     csrListed 0xFFF = false ∧ csrListed 0x009 = false ∧ csrReadOnly 0x010 = true ∧ csrReadOnly 0x061 = true ∧ csrListed 0x061 = true ∧
     fetchable ((k.epc.setWidth 32).setWidth 64 : DWord).toNat = true) ∧
    (let d := coreDev (fun k => { k with status := 0, trLim := [(0, 0x1007)], taskCap := 0x20 })
     Ready 63 (st d) ∧ (d.getCore 63).super = false ∧ (d.getCore 63).exl = false ∧ csrReadOnly 0x002 = false ∧ csrTaskOk 0x010 false (d.getCore 63) = true ∧
     csrTaskOk 0x040 false (d.getCore 63) = true ∧ csrTaskOk 0x058 false (d.getCore 63) = false ∧ csrListed 0x058 = true) ∧
    (∀ b ∈ [true, false], let k : Core := { pcSel := [(0, if b then 0x400 else 0)] }
     (Tab.get 0 k.pcSel (0x050 - 0x050)).getLsbD 10 = b ∧ (0x400 : DWord).getLsbD 10 = true) := by
  decide +kernel

theorem test_witness_ExceptionEntry :
    (Ready 63 (st (regDev 0)) ∧ ((regDev 0).getCore 63).exl = false ∧ 32767 < 2 ^ 15 ∧ legalWord (2 ^ 32 - 1) = false ∧ legalWord 0x05A00006 = true ∧
     legalWord wordFence = true ∧ 0x05A00006 ≠ wordFence ∧
     Sys2Proof.glonikWord 63 (2 ^ 32 - 1) [] true = some (.illegal 63 (2 ^ 32 - 1))) ∧
    (let d := coreDev (fun k => { k with status := 3 })
     Ready 63 (st d) ∧ (d.getCore 63).exl = true) := by
  decide +kernel

/-- A core that holds an open station handle (KIND 4) over entries 0 to 1 in h63, and `v` in g5. -/
def Sys2Proof.Tests.handleDev (v : DWord) : Dev := coreDev (fun k => { k with regs := [(5, v)], handles := [(63, some ⟨4, true, true, 0, 2⟩)] })

theorem test_witness_HandleInstructions :
    (∀ v ∈ [0xFFFFFFFF, 0x0000000200000014, 0x0000000000000014, 0x0000000200000000], let d := regDev (BitVec.ofNat 64 v)
     Ready 63 (st d) ∧ ((d.getCore 63).reg 5).toNat = v ∧ (d.getCore 63).super = true ∧ (d.getCore 63).handle 63 = none ∧ (d.getCore 63).exl = false) ∧
    (badHandle 0xFFFFFFFF = true ∧ badHandle 0x0000000200000014 = false ∧ fld 0x0000000200000014 3 0 ≠ 0 ∧ fld 0x0000000200000014 51 32 ≠ 0 ∧
     badHandle 0x0000000000000014 = false ∧ fld 0x0000000000000014 51 32 = 0 ∧ badHandle 0x0000000200000000 = false) ∧
    (let x : Handle := ⟨4, true, true, 0, 2⟩
     Ready 63 (st (handleDev 1)) ∧ ((handleDev 1).getCore 63).handle 63 = some x ∧ x.read = true ∧ x.holds ((((handleDev 1).getCore 63).reg 5)).toNat = true ∧
     (1 : Nat) < kindWords x.kind ∧ x.holds 2 = false ∧ kindWords x.kind ≤ 2 ∧ x.search = true ∧ (0x3FFF0 : Nat) % 8 = 0 ∧ 0x3FFF0 + 8 * kindWords x.kind ≤ 0x40000) ∧
    (let d := capDev 1 3 (fun k => { k with regs := [(5, 0x3FFF0), (6, 2)], handles := [(62, some ⟨4, false, false, 0, 2⟩)] })
     let k := d.getCore 63
     Ready 63 (st d) ∧ k.super = false ∧ k.exl = false ∧ k.handle 62 = some ⟨4, false, false, 0, 2⟩ ∧ k.handle 63 = none ∧ (k.reg 5).toNat % 8 = 0 ∧
     (k.reg 5).toNat + 8 * kindWords 4 ≤ 0x40000 ∧ taskRegionOk k 0x3FFF0 (8 * kindWords 4) 1 = true ∧ (⟨4, false, false, 0, 2⟩ : Handle).holds (k.reg 6).toNat = false) := by
  decide +kernel

theorem test_witness_CellInstructions :
    (let d := regDev 5
     Ready 63 (st d) ∧ (d.getCore 63).super = true ∧ (grantCell 63 d).isSome = true ∧ (match grantCell 63 d with | some x => (x.2.getCore 63).run == .running | none => false) = true ∧
     ownsCell 63 5 d = false ∧ ((badFree 63 5 d).getCore 63).run = .running) ∧
    (let d := { regDev 5 with bpm := { cap := [(63, 1)] } }
     Ready 63 (st d) ∧ grantCell 63 d = none) ∧
    (let d := { coreDev (fun k => { k with regs := [(5, 5), (6, 0x3FF00)] }) with bpm := { cells := [(5, some ⟨63, 63⟩)], count := [(63, 1)] } }
     Ready 63 (st d) ∧ ownsCell 63 ((d.getCore 63).reg 5).toNat d = true ∧ ((dropCell 63 5 d).getCore 63).run = .running ∧ ((d.getCore 63).reg 6).toNat % 32 = 0 ∧
     ((d.getCore 63).reg 6).toNat + 256 ≤ 0x40000 ∧ badIn 0 5 0 256 d = false ∧ badIn 6 63 0x3FF00 256 d = false) ∧
    (Ready 63 (st (capDev 0 0 id)) ∧ ((capDev 0 0 id).getCore 63).exl = false ∧ (2 : Nat) % 2 = 0 ∧ (3 : Nat) % 2 = 1) := by
  decide +kernel

/-- A NOP descriptor (code 0x0400) in local SRAM at 0x3FFC0, of core 63. -/
def Sys2Proof.Tests.sramDev (b : Bytes) : Dev := coreDev (fun k => { k with regs := [(5, 0x3FFC0)], sram := putBytes b 0x3FFC0 [] })

theorem test_witness_MessageInstructions :
    (let d := sramDev (List.replicate 64 0)
     let k := d.getCore 63
     Ready 63 (st d) ∧ k.super = true ∧ (k.reg 5).toNat % 8 = 0 ∧ (k.reg 5).toNat + 64 ≤ 0x40000 ∧ badIn 6 63 0x3FFC0 64 d = false ∧
     (msend 63 (messageOf (getBytes k.sram 0x3FFC0 64)) d).1 ≠ dFULL ∧ ((msend 63 (messageOf (getBytes k.sram 0x3FFC0 64)) d).2.getCore 63).run = .running ∧
     k.mailbox = [] ∧ k.outstanding < 256 ∧ tackgStatus (getBytes k.sram 0x3FFC0 64) (descOf (getBytes k.sram 0x3FFC0 64) []) d ≠ dOK ∧
     coreAlive (d.getCore (fld 63 5 0)) = true ∧ coreAlive (d.getCore (fld 0 5 0)) = false) ∧
    (let d := coreDev (fun k => { k with mailbox := [[0, 0, 0, 0, 0, 0, 0, 0]], outstanding := 256 })
     (d.getCore 63).mailbox = [0, 0, 0, 0, 0, 0, 0, 0] :: [] ∧ 256 ≤ (d.getCore 63).outstanding) ∧
    (∀ h ∈ [true, false], let d := sramDev (le 2 0x000C ++ zeros 62)
     let d := { d with hif := { d.hif with d3hot := h } }
     let k := d.getCore 63
     let b := getBytes k.sram 0x3FFC0 64
     let x := descOf b (zeros 64)
     let e := d.updCore 63 (coreCount 13)
     let n := takeSubno ⟨.core 63, descTag b, 0, 0⟩ e
     k.outstanding < 256 ∧ tackgStatus b x d = dOK ∧ readsImage x.code = true ∧ e.hif.d3hot = h ∧ x.image.length = 64 ∧
     ((submit n.1 x (dmaRead (imageAddr x) 64 (n.2.updCore 63 (fun k => { k with outstanding := k.outstanding + 1 })))).getCore 63).run = .running) ∧
    (let d := capDev 0 0 (fun k => { k with regs := [(5, 0x3FFC0)] })
     Ready 63 (st d) ∧ (d.getCore 63).exl = false ∧ ((d.getCore 63).reg 5).toNat % 8 = 0) ∧
    (let d := sramDev (le 2 0x0005 ++ zeros 62)
     let k := d.getCore 63
     let b := getBytes k.sram 0x3FFC0 64
     let x := descOf b []
     let n := takeSubno ⟨.core 63, descTag b, 0, 0⟩ (d.updCore 63 (coreCount 13))
     k.outstanding < 256 ∧ tackgStatus b x d = dOK ∧ readsImage x.code = false ∧
     ((submit n.1 x (n.2.updCore 63 (fun k => { k with outstanding := k.outstanding + 1 }))).getCore 63).run = .running) ∧
    (let d := sramDev (le 2 0x0204 ++ zeros 62)
     let k := d.getCore 63
     let b := getBytes k.sram 0x3FFC0 64
     let x := descOf b []
     let n := takeSubno ⟨.core 63, descTag b, 0, 0⟩ d
     engqStatus 63 1 b x d = dOK ∧ readsImage x.code = false ∧
     ((submit n.1 x (n.2.updCore 63 (fun k => { k with outstanding := k.outstanding + 1 }))).getCore 63).run = .running) ∧
    (let d := sramDev (zeros 64)
     let d := { d with keys := { d.keys with sceOwner := reqCore 63 } }
     let b := getBytes (d.getCore 63).sram 0x3FFC0 64
     let n := takeSubno ⟨.core 63, 0, 0, 0⟩ d
     engqStatus 63 0 b (descOf b []) d = dOK ∧
     ((doSceJob n.1 b (n.2.updCore 63 (fun k => { k with outstanding := k.outstanding + 1 }))).getCore 63).run = .running) := by
  decide +kernel

theorem test_witness_EventWaits :
    (let d := coreDev (fun k => { k with evPend := 1, regs := [(5, 1)] })
     let k := d.getCore 63
     Ready 63 (st d) ∧ k.super = true ∧ k.events &&& k.reg 5 ≠ 0 ∧ k.events &&& k.reg 6 = 0 ∧ bitAt 1 0 = true ∧ bitAt 2 0 = false) ∧
    (∀ x ∈ [(1, 0), (2, 0), (2, 4), (2, 5)], let s : Sleep := ⟨0, 5, x.1, x.2, true, 6⟩
     let d := coreDev (fun k => { k with run := .waiting, evPend := 1, cycle := 10, sleep := some s })
     let k := d.getCore 63
     let ev := k.events &&& BitVec.ofNat 64 s.mask
     Powered (st d) ∧ k.run = .waiting ∧ k.sleep = some s ∧ k.deferred = none ∧
     ((ev = 0 ∧ (s.limit = 0 ∨ k.cycle < s.since + s.limit)) ∨ (ev ≠ 0 ∨ (s.limit ≠ 0 ∧ s.since + s.limit ≤ k.cycle)))) := by
  decide +kernel

theorem test_witness_CoreEvents :
    (let d := coreDev (fun k => { k with status := 5, timeCmp := 10, cycle := 10, smpHit := true })
     let k := d.getCore 63
     Powered (st d) ∧ k.timerDue = true ∧ k.run = .running ∧ k.deferred = none ∧ k.exl = false ∧ k.smpHit = true) ∧
    (let d := coreDev (fun k => { k with run := .waiting, held := [[]], mailbox := List.replicate 63 [] })
     let k := d.getCore 63
     k.timerDue = false ∧ k.run = .waiting ∧ k.smpHit = false ∧ k.held = [] :: [] ∧ coreAlive k = true ∧ k.mailbox.length < 64) ∧
    (let d := coreDev (fun k => { k with held := [[]], mailbox := List.replicate 64 [] })
     (d.getCore 63).held = [] :: [] ∧ 64 ≤ (d.getCore 63).mailbox.length) ∧
    (let d := { inMode .solo with flt := { coreTest := [63] } }
     Powered (st d) ∧ d.flt.coreTest.contains 63 = true ∧ coreAlive (d.getCore 63) = false) := by
  decide +kernel


theorem test_witness_PoolSteps :
    (let d := { inMode .solo with bpm := { bob := [(1, 49), (0x40, 97)] } }
     let b := d.bpm
     Powered (st d) ∧ regsShut d = false ∧ b.bobOf 0xBF < bobLow 0xBF ∧ b.used + (bobTarget 0xBF - b.bobOf 0xBF) ≤ b.shared ∧ bobLow 1 ≤ b.bobOf 1 ∧ bobHigh 0x40 < b.bobOf 0x40 ∧
     b.bobOf 0xBF ≤ bobHigh 0xBF ∧ fld 0xBF 7 0 < 0xC0 ∧ 0xC0 ≤ fld 0xC0 7 0) ∧
    (let b : Bpm := { bob := [(0x40, 131072)] }
     b.shared - b.used < 4096) ∧
    (let b : Bpm := { qsel := 0xBF }
     let m : Bpm := { b with min := Tab.set 0 b.min b.qsel 1 }
     let p : Bpm := { b with cap := Tab.set 0 b.cap b.qsel 8193 }
     slotHold b.qsel = false ∧ poolSound m = true ∧ m.minOf m.qsel ≤ m.capOf m.qsel ∧ quotaRange m.qsel (m.minOf m.qsel) (m.capOf m.qsel) = true ∧
     capFixed b.qsel = false ∧ poolSound p = true ∧ p.minOf p.qsel ≤ p.capOf p.qsel ∧ quotaRange p.qsel (p.minOf p.qsel) (p.capOf p.qsel) = true ∧
     slotHold 0x58 = true ∧ capFixed 0x9F = true) ∧
    (let b : Bpm := { qsel := 0 }
     let m : Bpm := { b with min := Tab.set 0 b.min b.qsel (2 ^ 18) }
     2 ^ 18 - 1 < 2 ^ 18 ∧ ¬ (poolSound m = true ∧ m.minOf m.qsel ≤ m.capOf m.qsel ∧ quotaRange m.qsel (m.minOf m.qsel) (m.capOf m.qsel) = true)) := by
  decide +kernel

theorem test_witness_UsedWithinShared :
    let b : Bpm := { count := [(0, 1)] }
    b.used ≤ b.shared ∧ (b.grant 0xBF).isSome = true ∧ (b.move 0 0xBF).isSome = true ∧ 0 < b.cnt 0 := by
  decide +kernel

theorem test_witness_ExternalMemory :
    (let d := inMode .solo
     Powered (st d) ∧ d.mem.trained = false ∧ d.mem.fail = false ∧ d.mem.clearBusy = false ∧ d.mem.ready = false ∧ d.sas.coldLock = false ∧ d.mem.lock = false ∧
     regsShut d = false ∧ d.mem.psize ≤ 64 ∧ (1 : Nat) ≤ fld 64 6 0 ∧ fld 64 6 0 ≤ 64 ∧ d.mem.reprov = none) ∧
    (let d := { inMode .solo with mem := { trained := true, dimmGib := 2, psize := 1, ready := true, lock := true } }
     let lo := ddrBase + metaEnd d
     Powered (st d) ∧ ddrBase ≤ lo ∧ lo - ddrBase < ddrInstalled d ∧ metaEnd d ≤ lo - ddrBase ∧ protSize d ≤ lo - ddrBase ∧
     d.mem.clearBusy = false ∧ d.mem.ready = true ∧ d.mem.lock = true ∧ d.sas.coldLock = false ∧ d.sas.coldBase + 262144 * 1024 ≤ protSize d ∧
     bitAt (2 ^ 31) 31 = true ∧ reprovRefuse (fld (2 ^ 31) 30 27) (fld (2 ^ 31) 26 0) d = false ∧ reprovRefuse (fld (2 ^ 32 - 2 ^ 28) 30 27) 0 d = true) ∧
    (let d := { inMode .solo with mem := { clearBusy := true }, sas := { coldLock := true } }
     d.mem.clearBusy = true ∧ Tab.wf 0 d.mem.ddr = true ∧ d.sas.coldLock = true) ∧
    (let d := { inMode .solo with mem := { trained := true, dimmGib := 17 } }
     d.mem.lock = false ∧ d.mem.trained = true ∧ d.mem.fail = false ∧ 17 * (64 * gib) / 16 ≤ 4 * d.mem.dimmGib * gib ∧ 4 * 0 * gib < 17 * (1 * gib) / 16) ∧
    (let d := { inMode .solo with mem := { lock := true, reprov := some (15, 0) }, keys := { kwrValid := true } }
     d.mem.lock = true ∧ d.mem.ready = false ∧ d.keys.kwrValid = true ∧ Tab.wf 0 d.mem.ddr = true ∧ d.mem.reprov = some (15, 0) ∧
     ({ d with mem := { d.mem with reprov := some (1, 7) } } : Dev).mem.reprov = some (1, 7)) ∧
    (let d := { coldDev with mem := { coldDev.mem with cache := [⟨1, 0, 0⟩] } }
     let e := { d with mem := { d.mem with alien := [(macId 0 7, some (zeros 512, []))] } }
     Tab.get none d.mem.alien (macId 0 7) = none ∧ cached 1 (7 / 8) e.mem = true ∧ sectorDoubt e 7 = false ∧ badIn 100 0 (512 * 7) 512 e = false ∧
     macOk 0 7 e = false ∧ d.mem.psize ≤ 64 ∧ badIn 100 0 (512 * 7) 512 (markBad 100 0 (512 * 7 + 511) d) = true ∧ 512 * 7 < protSize d) := by
  decide +kernel

theorem test_witness_Lanes :
    (∀ l ∈ [0, 31, 32, 63, 64, 79],
     let r := (inMode .service).updLane l (fun x => { x with retired := true })
     let a := (inMode .service).updLane l (fun x => { x with los := false, acq := true, lol := false })
     let c := (inMode .service).updLane l (fun x => { x with calBusy := true })
     let m := (inMode .service).updLane l (fun x => { x with los := false, lol := false, lowRun := 9 })
     let x := (inMode .service).getLane l
     let i := (inMode .service).updLane l (fun x => x)
     Powered (st r) ∧ (r.getLane l).retired = true ∧ x.retired = false ∧ x.los = true ∧ bitAt (inMode .service).pins.refLost (laneRef l) = false ∧
     (a.getLane l).acq = true ∧ (a.getLane l).los = false ∧ (a.getLane l).lol = false ∧ (a.getLane l).retired = false ∧
     (fomStep (laneRate l a) 255 0 (a.getLane l)).marginLow = false ∧ (fomStep (laneRate l m) 0 3 (m.getLane l)).marginLow = true ∧ (m.getLane l).marginLow = false ∧
     (c.getLane l).calBusy = true ∧ x.acq = false ∧ x.calBusy = false ∧ laneMode (inMode .service) = true ∧ (i.getLane l).acq = false ∧
     (i.getLane l).calBusy = false ∧ (i.getLane l).retired = false ∧ laneInUse l (inMode .service) = false ∧ laneMode (inMode .solo) = false) ∧
    (let d := { inMode .solo with pins := { refLost := 31 } }
     ∀ l ∈ [0, 32, 64], bitAt d.pins.refLost (laneRef l) = true) ∧
    (recurs 4 63 3600 (inMode .solo) = false ∧ recurs 5 15 3600 { inMode .solo with flt := { lastAt := [((5, 15), 0)] }, evr := { optime := 3600000 } } = true) ∧
    (let d := (inMode .solo).updTab (Tables.updPrt 63 (fun g => { g with cfg := 137, enabled := true }))
     laneInUse 63 d = true ∧ laneMode d = false ∧ regsShut d = false ∧ (lanePort 63 d).isNone = false ∧ (lanePort 31 d).isNone = true ∧ (lanePort 79 d).isNone = true ∧
     (match regVal reqHost 0x113C08 (after (.lneTest 79 0x60) (inMode .service)) with | some (.word v) => fld v 10 8 == 2 | _ => false) = true ∧
     (fld 1 1 0 ≠ 0 ∧ fld 8 4 3 ≠ 0 ∧ fld (2 ^ 31 - 28) 1 0 = 0 ∧ fld (2 ^ 31 - 28) 4 3 = 0)) ∧
    (∀ m ∈ [Mode.kiln, .factory], let d : Dev := { mod := { mode := m, laneTest := true } }
     d.mod.laneTest = true ∧ (d.mod.mode = .kiln) = (m = .kiln)) ∧ ({ mod := { laneTest := false } } : Dev).mod.laneTest = false ∧
    (63 < tapMag 0x20 + tapMag 0x20 + fld (at_ 63 16) 21 16 + tapMag 0 ∧ tapMag 31 + tapMag 0 + fld (at_ 32 16) 21 16 + tapMag 0 ≤ 63) ∧
    (∀ i < 5, bitAt (inMode .solo).pins.refLost i = false) ∧
    (isPam4 2 = true ∧ [true, false].length % 2 = 0 ∧ isPam4 3 = false) ∧
    (bitAt 0 0 = bitAt 0 1 ∧ bitAt 12 2 = bitAt 12 3) ∧ laneQuiet 63 ((inMode .service).updLane 63 (fun x => { x with squelch := true })) = true := by
  decide +kernel

theorem test_witness_HostInterface :
    (let d := inMode .solo
     Powered (st d) ∧ anyQueueOn d = false ∧ bitAt (fld 2 15 0) 1 = true ∧ bitAt (fld 0xFFFFD 15 0) 1 = false ∧ (d.getRing 63).en = false ∧ d.hif.valid = false ∧
     (d.getInj 15).en = false ∧ (d.getRing 63).sigPend = false ∧ regsShut d = false ∧ d.hif.hmbEn = false ∧ d.hif.link = 0 ∧
     ({ d with hif := { d.hif with link := 0x47, hmbEn := true } } : Dev).hif.link ≠ 0) ∧
    (let d := { inMode .solo with hif := { valid := true } }
     (∀ v ∈ [6, 16], d.hif.valid = true ∧ (d.getRing 63).rbase % 64 = 0 ∧ (d.getRing 63).cbase % 64 = 0 ∧ 6 ≤ fld v 4 0 ∧ fld v 4 0 ≤ 16) ∧ fld 5 4 0 < 6 ∧ 16 < fld 17 4 0 ∧
     (∀ v ∈ [4, 12], d.hif.hmbBase % 64 = 0 ∧ 4 ≤ fld v 3 0 ∧ fld v 3 0 ≤ 12) ∧ fld 3 3 0 < 4 ∧ 12 < fld 13 3 0 ∧ d.hif.hmbEn = false ∧
     (∀ v ∈ [1024, 3072], (d.getInj 15).base % 16 = 0 ∧ (d.getExt 15).en = false ∧ (d.getExt 15).bbase % 8 = 0 ∧ (d.getExt 15).cbase % 32 = 0 ∧ 4 ≤ fld v 11 8 ∧ fld v 11 8 ≤ 12)) ∧
    (let d := (inMode .solo).updRing 63 (fun g => { g with en := true, rcfg := 6, ci := 0, sigPend := true })
     let f := fun (v : Nat) => let g := (d.updRing 63 (fun g => { g with pi := v })).getRing 63
       decide ((g.pi + 2 ^ 32 - g.ci) % 2 ^ 32 > 2 ^ fld g.rcfg 4 0)
     anyQueueOn d = true ∧ (d.getRing 63).en = true ∧ (d.getRing 63).halt = false ∧ f 65 = true ∧ f 64 = false ∧ (d.getRing 63).sigPend = true) ∧
    ((zeros 12 ++ be 2 0x8100 ++ zeros 9710).length ≤ 9724) ∧
    (let f : InjFrame := ⟨zeros 12 ++ be 2 0x8100 ++ zeros 46, []⟩
     let d := (on 63 (inMode .solo)).updInj 15 (fun g => { g with en := true, cfg := 63, etype := [(3, 0x18100)], frames := [f] })
     let g := d.getInj 15
     Powered (st d) ∧ g.en = true ∧ g.frames = f :: [] ∧ bitAt g.cfg 6 = false ∧ injEtype g f.bytes = true ∧ portEnabled d (fld g.cfg 5 0) = true ∧
     portDead d (fld g.cfg 5 0) = false ∧ 60 ≤ f.bytes.length ∧ f.bytes.length ≤ 9724 ∧ injEtype g [] = false) ∧
    (let d := (inMode .solo).updInj 15 (fun g => { g with en := true, cfg := 4 * 256, pi := 1 })
     let h : HostFrame := ⟨le 8 0x1000 ++ le 2 60 ++ zeros 6, frame60⟩
     let g := d.getInj 15
     let e := dmaRead (leAt h.entry 0 8) (leAt h.entry 8 2) (dmaRead (g.base + 16 * (g.ci % 2 ^ fld g.cfg 11 8)) 16 d)
     g.en = true ∧ g.frames = [] ∧ injReads 15 d = true ∧ h.entry.length = 16 ∧ h.data.length = leAt h.entry 8 2 ∧ ([] : Bytes).length ≠ leAt h.entry 8 2 ∧
     (takeCells (0xA0 + 15) (ceilDiv h.data.length 256) e).1.isSome = true ∧ injReads 15 (d.updInj 15 (fun g => { g with pi := 0 })) = false) := by
  decide +kernel

/-- 13 R363: a command that reads host memory waits in D3hot and is submitted on the return. -/
theorem test_d3hot_holds :
    (let d := (sramDev (le 2 0x000C ++ zeros 62)).updHif (fun h => { h with d3hot := true })
     let e := after (.tackg 63 4 5 (zeros 64) true) d
     e.hif.heldSubs.length = 1 ∧ e.hif.d3hot = true ∧ (after (.powerStateD3hot false) e).hif.heldSubs = [] ∧ (after (.powerStateD3hot false) e).tck.gate.length = 1) := by
  decide +kernel

theorem test_witness_HostCommands :
    (let d := (inMode .solo).updRing 63 (fun g => { g with en := true, rcfg := 6, pi := 1, cpi := 62 })
     let g := d.getRing 63
     let b := fit 64 (le 2 0x0400)
     let i := fit 64 (le 2 0x0401)
     Powered (st d) ∧ g.en = true ∧ g.halt = false ∧ d.hif.d3hot = false ∧ g.waiting = none ∧ g.ci ≠ g.pi ∧
     ringFetches 63 d = true ∧ ringFetches 63 (inMode .solo) = false ∧ readsHost (descOf i []) = true ∧ readsHost (descOf (fit 64 (le 2 0x0402)) []) = true ∧
     readsHost (descOf b []) = false ∧ (zeros 64).length = 64 ∧
     (g.cpi + 2 ^ 32 - g.cci) % 2 ^ 32 + g.reserved + 2 ≤ 2 ^ fld g.rcfg 4 0 ∧ descOk (fit 64 [0xFF, 0xFF]) (descOf (fit 64 [0xFF, 0xFF]) []) = false ∧
     descOk b (descOf b []) = true ∧ readsImage (descOf b []).code = false ∧ descOk i (descOf i (zeros 64)) = true ∧ readsImage (descOf i (zeros 64)).code = true) ∧
    (fld (leAt (zeros 64) 0 8) 3 0 = 0 ∧ fld (leAt (zeros 64) 0 8) 21 19 = 0 ∧ fld (leAt (be 1 0xF0 ++ [3] ++ zeros 62) 0 8) 9 4 = 63 ∧
     coreAlive ((inMode .solo).getCore 63) = false ∧ coreAlive ((coreDev (fun k => { k with mailbox := List.replicate 63 [] })).getCore 63) = true ∧
     64 ≤ ((coreDev (fun k => { k with mailbox := List.replicate 64 [] })).getCore 63).mailbox.length) ∧
    (let d := { inMode .solo with mem := { trained := true, dimmGib := 2, psize := 1, lock := true } }
     Powered (st d) ∧ d.mem.lock = true ∧ ddrCheck .host (metaEnd d) 1 true d = .ok ∧ ddrCheck .host (ddrInstalled d - 1) 1 false d = .ok ∧
     ddrCheck .host (metaEnd d) (2 ^ 24) false d = .ok ∧ [(0 : Byte)].length = 1 ∧ ([] : Bytes).length ≠ 1 ∧ (inMode .solo).mem.lock = false) ∧
    (let d := (inMode .solo).updInj 15 (fun g => { g with en := true, cfg := 4 * 256, pi := 1 })
     (d.getInj 15).en = true ∧ injReads 15 d = true ∧ ((inMode .solo).getInj 15).en = false) := by
  decide +kernel


/-! ### Images: what the signature scheme leaves open stands as a hypothesis -/

/-- The signer's public key of the images below. -/
def Sys2Proof.Tests.ffKey : Bytes := List.replicate 1952 0xFF

/-- An image of `type` up to its signature: the header, the key, a manifest of IMGVER 0 that lists `tested`, the body. -/
def Sys2Proof.Tests.imageBytes (type : Nat) (tested body : Bytes) : Bytes :=
  be 4 0x4F56494D ++ [1, 0] ++ be 1 type ++ [1] ++ be 4 body.length ++ be 4 24 ++ zeros 48 ++ ffKey
    ++ (be 4 0 ++ [1, 0, 7, 1] ++ zeros 8 ++ tested) ++ body

/-- A device whose flash holds that image in slot 0, and whose owner has fused the hash of the signer's key. -/
def Sys2Proof.Tests.imageDev (type : Nat) (tested body : Bytes) : Dev :=
  { mod := { mode := .solo, fusesRead := { ownerV := true, ownerHash := shake256 ffKey 32 }, runtime := some {} }
    fls := { flash := putBytes ((imageBytes type tested body).map (fun x => x ^^^ 0xFF)) (slotBase type 0) [] }
    pat := { loading := true, loadSub := some sub1 } }

/-- A Pattern image of one node. -/
def Sys2Proof.Tests.patBody : Bytes := be 4 0x5041544E ++ [1, 0, 0, 0] ++ be 4 672 ++ be 4 32 ++ be 4 96 ++ be 4 672 ++ be 2 1 ++ zeros 646

/-- A runtime image of one empty section. -/
def Sys2Proof.Tests.rtBody : Bytes := be 4 0x474E4B52 ++ [1, 0] ++ be 2 1 ++ zeros 56

theorem test_getBytes_length (t : Tab Byte) (i n : Nat) : (getBytes t i n).length = n := by
  induction n generalizing i with
  | zero => rfl
  | succ n ih => simp [getBytes, ih]

theorem test_getBytes_getD (t : Tab Byte) (i n k : Nat) (h : k < n) : (getBytes t i n)[k]? = some (Tab.get 0 t (i + k)) := by
  induction n generalizing i k with
  | zero => omega
  | succ n ih =>
    cases k with
    | zero => rfl
    | succ k => simp only [getBytes, List.getElem?_cons_succ]; rw [ih _ _ (by omega)]; congr 2; omega

theorem test_flash_sub (w : Bytes) (i o n : Nat) (f : Fls) (hf : f.flash = putBytes (w.map (fun x => x ^^^ 0xFF)) i []) (h : o + n ≤ w.length) :
    flashBytes f (i + o) n = sub_ w o n := by
  apply List.ext_getElem?
  intro k
  by_cases hk : k < n
  · have hw : o + k < w.length := by omega
    simp only [flashBytes, hf, List.getElem?_map, test_getBytes_getD _ _ _ _ hk, sub_, List.getElem?_take, List.getElem?_drop, if_pos hk, get_putBytes,
      List.length_map]
    rw [if_pos (by omega), List.getElem?_eq_getElem hw]
    have he : i + o + k - i = o + k := by omega
    rw [he, List.getD_eq_getElem?_getD, List.getElem?_map, List.getElem?_eq_getElem hw]
    simp
  · have h1 : (flashBytes f (i + o) n).length ≤ k := by rw [flashBytes, List.length_map, test_getBytes_length]; omega
    have h2 : (sub_ w o n).length ≤ k := by rw [sub_, List.length_take]; omega
    rw [List.getElem?_eq_none_iff.mpr h1, List.getElem?_eq_none_iff.mpr h2]

theorem test_signer_ok (type : Nat) (h : type ≠ 2) : signerOk { ownerV := true, ownerHash := shake256 ffKey 32 } 1 type ffKey = true := by
  simp [signerOk, h]

theorem test_checkImage_good (type : Nat) (body tested : Bytes) (hv : ∀ m g : Bytes, Config.mldsaVerify ffKey m g = true)
    (h : (let w := imageBytes type tested body
      let h := sub_ w 0 64
      ofBe (sub_ w 0 4) = 0x4F56494D ∧ byteAt h 4 = 1 ∧ byteAt h 6 = type ∧ beAt h 8 4 = body.length ∧ beAt h 12 4 = 24 ∧ byteAt h 7 = 1 ∧ byteAt h 16 = 0 ∧
      byteAt (sub_ w 2016 16) 7 = 1 ∧ w.length = 2040 + body.length ∧ body.length ≤ bodyMax type ∧ 5349 + body.length ≤ slotSize type ∧
      sub_ (sub_ w 0 (2040 + body.length)) 64 1952 = ffKey ∧ sub_ (sub_ w 0 (2040 + body.length)) 2040 body.length = body ∧ type ≠ 2))
    (hm : (let m := sub_ (sub_ (imageBytes type tested body) 0 (2040 + body.length)) 2016 24
      byteAt m 6 = 7 ∧ beAt m 4 2 = dpVer ∧ beAt m 0 4 = 0 ∧ byteAt m 16 = byteAt tested 0 ∧ beAt m 20 4 = beAt tested 4 4))
    (hb : fusedSvn {} type = 0 ∧ (type = 1 → rtBad body = false)) :
    ∃ g : Bytes, checkImage (imageDev type tested body) type 0 =
      .good { slot := 0, imgVer := 0, svn := 0, digest := g, tested := [(byteAt tested 0, beAt tested 4 4)] } body := by
  obtain ⟨a0, a1, a2, a3, a4, a5, a6, a7, a8, a9, b1, b2, b3, b4⟩ := h
  obtain ⟨m1, m2, m3, m4, m5⟩ := hm
  obtain ⟨c1, c2⟩ := hb
  have hr : bitAt 7 revBit = true := by unfold revBit; cases Config.revision <;> decide
  have r := fun (o n : Nat) (h : o + n ≤ (imageBytes type tested body).length) =>
    test_flash_sub (imageBytes type tested body) (slotBase type 0) o n (imageDev type tested body).fls (by rw [imageDev]) h
  have hc : (type = 1 ∧ rtBad body = true) = False := by
    rw [eq_iff_iff, iff_false]; rintro ⟨x, y⟩; rw [c2 x] at y; cases y
  have n1 : ¬bodyMax type < body.length := by omega
  have n2 : ¬slotSize type < 5349 + body.length := by omega
  have n3 : 2016 + 24 + body.length + 3309 = 5349 + body.length := by omega
  refine ⟨shake256 (sub_ (imageBytes type tested body) 0 (2040 + body.length)) 64, ?_⟩
  unfold checkImage
  simp only [r 0 4 (by omega), r 0 64 (by omega), r 2016 16 (by omega), a0, a1, a2, a3, a4, a5, a6, a7]
  simp only [Nat.reduceAdd, r 0 (2040 + body.length) (by omega), b2, b3, m1, m2, m3, hv]
  have hs : signerOk (imageDev type tested body).mod.fusesRead 1 type ffKey = true := test_signer_ok type b4
  have hf : fusedSvn (imageDev type tested body).mod.fuses type = 0 := c1
  simp [hs, hf, hr, hc, n1, n2, n3, m4, m5]

theorem test_witness_pattern (hv : ∀ m g : Bytes, Config.mldsaVerify ffKey m g = true) :
    ∃ g : Bytes, checkImage (imageDev 3 [1, 0, 0, 0, 0, 0, 0, 0] patBody) 3 0 =
      .good { slot := 0, imgVer := 0, svn := 0, digest := g, tested := [(1, 0)] } patBody :=
  test_checkImage_good 3 patBody [1, 0, 0, 0, 0, 0, 0, 0] hv (by decide +kernel) (by decide +kernel) (by decide +kernel)

theorem test_witness_runtime (hv : ∀ m g : Bytes, Config.mldsaVerify ffKey m g = true) :
    ∃ g : Bytes, checkImage (imageDev 1 (zeros 8) rtBody) 1 0 =
      .good { slot := 0, imgVer := 0, svn := 0, digest := g, tested := [(0, 0)] } rtBody :=
  test_checkImage_good 1 rtBody (zeros 8) hv (by decide +kernel) (by decide +kernel) (by decide +kernel)


/-! ### Modes, life cycle, faults, recorder, registers -/

theorem test_checkImage_congr (d e : Dev) (type slot : Nat) (h1 : d.fls = e.fls) (h2 : d.mod.fuses = e.mod.fuses) (h3 : d.mod.fusesRead = e.mod.fusesRead) :
    checkImage d type slot = checkImage e type slot := by
  simp only [checkImage, h1, h2, h3]

theorem test_witness_PatternBanks :
    (let d := inMode .solo
     Powered (st d) ∧ d.pat.loading = false ∧ switchPending d = false ∧ (standbyBank d).valid = false ∧ d.tab.actBank = 0) ∧
    (let d := { inMode .solo with pat := { loading := true, loadSub := some sub1, bank1 := { valid := true } } }
     Powered (st d) ∧ d.pat.loading = true ∧ d.pat.loadSub = some sub1 ∧ (standbyBank d).valid = true ∧ switchSpreads d = false ∧
     (match checkImage { d with pat := { d.pat with loading := false, loadSub := none } } 3 d.pat.loadSlot with | .bad c => c == 1 | .good _ _ => false) = true) ∧
    patCheck patBody = 0 ∧ [((1 : Nat), (0 : Nat))].contains (1, (match (imageDev 3 [1, 0, 0, 0, 0, 0, 0, 0] patBody).mod.runtime with | some r => r.imgVer | none => 0)) = true := by
  decide +kernel

theorem test_witness_PatternBanks_good (hv : ∀ m g : Bytes, Config.mldsaVerify ffKey m g = true) :
    Powered (st (imageDev 3 [1, 0, 0, 0, 0, 0, 0, 0] patBody)) ∧ (imageDev 3 [1, 0, 0, 0, 0, 0, 0, 0] patBody).pat.loading = true ∧
    (imageDev 3 [1, 0, 0, 0, 0, 0, 0, 0] patBody).pat.loadSub = some sub1 ∧ (imageDev 3 [1, 0, 0, 0, 0, 0, 0, 0] patBody).pat.loadSlot = 0 ∧
    ∃ g : Bytes, checkImage { imageDev 3 [1, 0, 0, 0, 0, 0, 0, 0] patBody with pat := {} } 3 0 =
      .good { slot := 0, imgVer := 0, svn := 0, digest := g, tested := [(1, 0)] } patBody := by
  refine ⟨by simp only [imageDev], by simp only [imageDev], by simp only [imageDev], by simp only [imageDev], ?_⟩
  obtain ⟨g, hg⟩ := test_witness_pattern hv
  exact ⟨g, (test_checkImage_congr _ _ 3 0 (by rfl) (by rfl) (by rfl)).trans hg⟩

theorem test_witness_ModeRequests :
    (∀ x ∈ [(Mode.factory, Mode.enrol, Life.virgin), (.enrol, .solo, .enrolled), (.solo, .enrol, .enrolled), (.lead, .solo, .sealed), (.shadow, .service, .sealed),
        (.service, .lead, .sealed), (.fallow, .returned, .returned), (.swap, .service, .enrolled)],
      let d := { inMode x.2.1 with mod := { mode := x.2.1, fuses := { life := x.2.2 } }, twn := { cfg := 5 } }
      Powered (st d) ∧ taskReq reqHost d = false ∧ modRefCode x.1 (disarm reqHost d) = 0) ∧
    (let d := { inMode .solo with mod := { mode := .solo, change := some (.swap, .solo) } }
     ∀ m ∈ [Mode.factory, .enrol, .solo, .lead, .shadow, .service, .fallow, .swap], modRefCode m (disarm reqHost d) ≠ 0) ∧ 3 < 4 := by
  decide +kernel

theorem test_witness_Activation :
    (∀ o ∈ [2, 3], let i : Image := { imgVer := 5 }
     let j : Image := { tested := [(1, o + 3)] }
     let d := { inMode .solo with mod := { mode := .solo, change := some (.swap, .solo), runtime := some i, micro := some j } }
     let rt := swapImage 1 d.mod.swapRt d.mod.runtime d
     let mc := swapImage 2 d.mod.swapMc d.mod.micro rt.2
     Powered (st d) ∧ d.mod.change = some (.swap, .solo) ∧ rt.1 = some i ∧ mc.1 = some j ∧ testedPair i j = (o == 2)) ∧
    (let d := { inMode .swap with mod := { mode := .swap, change := none } }
     Powered (st d) ∧ d.mod.change = none ∧ d.mod.mode = .swap ∧ swapChoice true d = none ∧ swapChoice false d = none ∧ (inMode .solo).mod.mode ≠ .swap ∧
     (swapImage 1 0 none d).1 = none) ∧
    (∀ m ∈ [Mode.solo, .lead, .shadow, .service], let i : Image := { svn := 64 }
     let d := { inMode m with mod := { mode := m, runtime := some i, fuses := { svnRt := 63 } } }
     (disarm 0 d).mod.mode = m ∧ (disarm 0 d).mod.runtime = some i ∧ (disarm 0 d).mod.fuses.svnRt < i.svn ∧ i.svn ≤ 64 ∧ 63 ≤ (disarm 0 d).mod.fuses.svnRt) := by
  decide +kernel

theorem test_each_mod {α : Type} (l : List α) (f : α → Dev → Dev) (h : ∀ a d, (f a d).mod = d.mod) (d : Dev) : (each l f d).mod = d.mod := by
  induction l generalizing d with
  | nil => rfl
  | cons a l ih => exact (ih (f a d)).trans (h a d)

theorem test_releaseCells_mod (c : Nat) (d : Dev) : (releaseCoreCells c d).mod = d.mod := by
  have h : ∀ (a : Nat) (d : Dev), (dropCell c a d).mod = d.mod := fun a d => by unfold dropCell freeCells; (repeat' split) <;> simp
  simp [releaseCoreCells, test_each_mod _ _ h]

theorem test_loadRuntime_mod (b : Bytes) (d : Dev) : (loadRuntime b d).mod = d.mod := by
  unfold loadRuntime
  rw [test_each_mod _ _ (fun c d => by unfold startCore; split <;> simp [test_releaseCells_mod]), test_each_mod _ _ (fun x d => ?_)]
  unfold loadSection
  dsimp only
  split
  · rfl
  · exact test_each_mod _ _ (fun c d => by split <;> simp) d

theorem test_activation (d : Dev) (i : Image) (b : Bytes) (m : Option Image) (hg : checkImage d 1 i.slot = .good i b) (hp : d.pins.stopped = false) :
    let s := st { d with mod := { d.mod with mode := .swap, runtime := some i, swapNewMc := m } }
    Powered s ∧ s.dev.mod.mode = .swap ∧ swapChoice false s.dev = some (i, b) ∧
    (loadRuntime b (mrExtend 2 2 (mrImage i) { s.dev with mod := { s.dev.mod with runtime := some i } })).mod.swapNewMc = m := by
  refine ⟨hp, rfl, ?_, (congrArg Mod.swapNewMc (test_loadRuntime_mod _ _)).trans rfl⟩
  have h : checkImage { d with mod := { d.mod with mode := .swap, runtime := some i, swapNewMc := m } } 1 i.slot = _ :=
    (test_checkImage_congr _ d 1 i.slot rfl rfl rfl).trans hg
  simp only [swapChoice, bodyAgain, Bool.false_eq_true, if_false]
  rw [h]
  simp

theorem test_witness_Activation_good (hv : ∀ m g : Bytes, Config.mldsaVerify ffKey m g = true) :
    ∃ (i : Image) (b : Bytes) (d : Dev), ∀ m : Option Image, let s := st { d with mod := { d.mod with mode := .swap, runtime := some i, swapNewMc := m } }
      Powered s ∧ s.dev.mod.mode = .swap ∧ swapChoice false s.dev = some (i, b) ∧
      (loadRuntime b (mrExtend 2 2 (mrImage i) { s.dev with mod := { s.dev.mod with runtime := some i } })).mod.swapNewMc = m := by
  obtain ⟨g, hg⟩ := test_witness_runtime hv
  have hp : (imageDev 1 (zeros 8) rtBody).pins.stopped = false := by simp only [imageDev]
  exact ⟨⟨0, 0, 0, g, [(0, 0)]⟩, rtBody, _, fun m => test_activation _ _ rtBody m hg hp⟩

/-- A device in mode `m` whose host requester has armed MOD_LCREQ. -/
def Sys2Proof.Tests.lcDev (m : Mode) (f : Fuses) : Dev :=
  { mod := { mode := m, fuses := f, lcArmed := [reqHost, reqCore 63], nonce := zeros 32 } }

/-- Such a device in SERVICE, whose core 63 holds a return authorisation in its SRAM. -/
def Sys2Proof.Tests.returnDev : Dev :=
  (lcDev .service { life := .sealed }).updCore 63 (fun k => { k with sram := putBytes (ascii "OV6400-RETURN") 0 [] })

theorem test_witness_LifeCycle :
    (∀ x ∈ [(1, Mode.enrol, ({ dusV := true } : Fuses)), (2, .service, { life := .enrolled }), (3, .service, { life := .sealed }), (4, .returned, { life := .returned }),
        (5, .enrol, { life := .enrolled }), (6, .enrol, { ownerV := true })],
      let d := disarm reqHost (lcDev x.2.1 x.2.2)
      Powered (st (lcDev x.2.1 x.2.2)) ∧ taskReq reqHost (lcDev x.2.1 x.2.2) = false ∧ d.mod.lcBusy = false ∧
      (lcDev x.2.1 x.2.2).mod.lcArmed.contains reqHost = true ∧ lcCheck x.1 d = 0) ∧
    (∀ op ∈ [1, 2, 4, 5, 6], lcCheck op (disarm reqHost (lcDev .reset {})) ≠ 0) ∧
    (let d := { inMode .solo with mod := { lcBusy := true, lcOp := some (6, .enrolled) } }
     (disarm reqHost d).mod.lcBusy = true ∧ d.mod.lcArmed.contains reqHost = false ∧ d.mod.lcOp = some (6, .enrolled)) ∧
    (let d := lcDev .enrol { life := .enrolled }
     (engRead (reqCore 63) 0 1952 (disarm (reqCore 63) d)).1 = some (zeros 1952) ∧ taskReq (reqCore 63) d = false ∧ lcCheck 5 (disarm (reqCore 63) d) = 0) := by
  decide +kernel

set_option maxRecDepth 100000 in
theorem test_witness_LifeCycle_return (hv : ∀ k m g : Bytes, Config.mldsaVerify k m g = true) :
    let d := disarm (reqCore 63) returnDev
    Powered (st returnDev) ∧ taskReq (reqCore 63) returnDev = false ∧ d.mod.lcBusy = false ∧ returnDev.mod.lcArmed.contains (reqCore 63) = true ∧ lcCheck 3 d = 0 ∧
    (engRead (reqCore 63) d.mod.lcArg 3350 d).1 = some (ascii "OV6400-RETURN" ++ zeros 3337) ∧
    authOk (ascii "OV6400-RETURN" ++ zeros 3337) d = true ∧ authOk [] d = false := by
  refine ⟨rfl, by decide +kernel, rfl, by decide +kernel, by decide +kernel, by decide +kernel, ?_, by decide +kernel⟩
  have h1 : (ascii "OV6400-RETURN" ++ zeros 3337).length = 3350 := by decide +kernel
  have h2 : (ascii "OV6400-RETURN" ++ zeros 3337).take 41 = ascii "OV6400-RETURN" ++ be 8 (disarm (reqCore 63) returnDev).mod.fuses.serial ++
      (disarm (reqCore 63) returnDev).mod.nonce.take 20 := by decide +kernel
  simp only [authOk, h1, h2, hv, beq_self_eq_true, Bool.and_self]

/-- KILN, with DDR5 training and the lane self-test behind it. -/
def Sys2Proof.Tests.kilnDev (l : Life) (tamper : Bool) : Dev :=
  { mod := { mode := .kiln, fuses := { life := l }, kilnWait := true }, pins := { tamper := tamper }, mem := { trained := true } }

theorem test_witness_Resets_kiln :
    ∀ x ∈ [(Life.scrapped, true), (.virgin, true), (.virgin, false), (.sealed, false)],
      let d := kilnDev x.1 x.2
      Powered (st d) ∧ d.mod.mode = .kiln ∧ d.mod.kilnDone = false ∧ d.mem.trained = true ∧ laneTestDue d = false ∧
      (kilnImages d).mod.fuses.life = x.1 ∧ (kilnImages d).pins.tamper = x.2 := by
  decide +kernel

/-- A core at task level is the requester. -/
def Sys2Proof.Tests.taskDev : Dev := coreDev (fun k => { k with status := 0 })

theorem test_witness_taskStores : Powered (st taskDev) ∧ taskReq (reqCore 63) taskDev = true ∧ regsShut taskDev = false := by
  decide +kernel

theorem test_witness_Resets :
    (let d := kilnDev .virgin false
     d.mod.kilnWait = true ∧ ({ d with mod := { d.mod with kilnDone := true } } : Dev).mod.kilnDone = true ∧ ((inMode .kiln).mem.trained = false ∧ (inMode .kiln).mem.fail = false)) ∧
    (Powered (st (inMode .reset)) ∧ (inMode .reset).mod.mode = .reset ∧ taskReq reqHost (inMode .solo) = false ∧ (disarm reqHost (inMode .solo)).mod.lcOp = none ∧
     laneMode (disarm 0 (inMode .service)) = true ∧ laneMode (disarm 0 (inMode .solo)) = false ∧ (inMode .solo).mod.bistRun = false ∧ (inMode .kiln).mod.kilnWait = false) ∧
    (let d := { inMode .service with mod := { mode := .service, bistRun := true } }
     Powered (st d) ∧ d.mod.bistRun = true ∧ 255 < 256 ∧ 65535 < 65536) := by
  decide +kernel

theorem test_witness_Zeroise :
    (∀ m ∈ [Mode.solo, .zeroised, .kiln], let d := disarm reqHost (inMode m)
     Powered (st (inMode m)) ∧ taskReq reqHost (inMode m) = false ∧ d.mod.mode = m) ∧
    (∀ c ∈ [4, 12], let d := { inMode .solo with twn := { cfg := c } }
     d.mod.mode ≠ .reset ∧ d.mod.mode ≠ .kiln ∧ bitAt d.twn.cfg 3 = (c == 12) ∧ (d.getHp 7).state ≠ 5) := by
  decide +kernel

theorem test_witness_Attestation :
    (let d := disarm (reqCore 63) (inMode .solo)
     Powered (st (inMode .solo)) ∧ taskReq (reqCore 63) (inMode .solo) = false ∧ (engRead (reqCore 63) d.mod.mrArg 64 d).1 = some (zeros 64) ∧ d.mod.attBusy = false ∧
     (d.getLpk 1).valid = false ∧ engCanWrite reqHost d.mod.attDst 3949 (disarm reqHost (inMode .solo)) = false) ∧
    (let d := disarm (reqCore 63) ((inMode .solo).updLpk 1 (fun k => { k with valid := true }))
     d.mod.attBusy = false ∧ (d.getLpk 1).valid = true ∧ (engRead (reqCore 63) d.mod.attSrc 64 d).1 = some (zeros 64) ∧ engCanWrite (reqCore 63) d.mod.attDst 3949 d = true) ∧
    (let d := { inMode .solo with mod := { mode := .solo, attBusy := true, attReq := reqCore 63, attDst := 0x3F093 } }
     let n := engRead d.mod.attReq d.mod.attSrc 64 d
     let e := { n.2 with mod := { n.2.mod with attBusy := false } }
     Powered (st d) ∧ d.mod.attBusy = true ∧ n.1 = some (zeros 64) ∧ e.mod.attReq = reqCore 63 ∧ e.mod.attDst = 0x3F093 ∧
     (attBody (zeros 64) e).length = 640 ∧ masterOf (reqCore 63) (freeBytes 32 e).2 = .core 63 true) := by
  decide +kernel

theorem test_witness_Attestation_write (b : Bytes) (h : b.length = 3949) (d : Dev) (hm : masterOf (reqCore 63) d = .core 63 true) :
    (engWrite (reqCore 63) 0x3F093 b d).1 = true := by
  have he : b.isEmpty = false := by cases b with | nil => simp at h | cons x l => rfl
  simp [engWrite, he, h, hm, rangeOf]

theorem test_witness_PipelineFaults :
    (let d := (inMode .solo).updSlice 7 (fun x => { x with pipe := [(5, 1), (9, 2)] })
     Powered (st d) ∧ pipeLive 7 1 4 d = true ∧ pipeRole 7 1 3 d = 0 ∧ spareOf 7 1 d = some 0 ∧ pipeRole 7 0 4 d = 0 ∧ spareOf 7 0 d = none ∧ pipeRole 7 1 0 d = 1 ∧
     2 ≤ pipeRole 7 1 4 d ∧ (∃ q < 5, 2 ≤ pipeRole 7 1 q d)) ∧
    (let d := (inMode .solo).updSlice 7 (fun x => { x with pipe := [(4, 1)] })
     spareOf 7 0 d = some 4 ∧ ∀ q < 5, pipeRole 7 0 q d < 2) ∧
    (let d := { (inMode .solo).updSlice 7 (fun x => { x with pipe := [(9, 2)] }) with flt := { underTest := [(pipeUnit 7 1 4, 3)] } }
     recurs 1 (pipeUnit 7 0 0) 86400 d = false ∧ recurs 1 (pipeUnit 7 0 0) 86400 { d with flt := { lastAt := [((1, pipeUnit 7 0 0), 0)] }, evr := { optime := 86400000 } } = true ∧
     pipeLive 7 1 4 d = true ∧ pipeRole 7 1 4 d = 2 ∧ d.flt.underTest.find? (fun e => e.1 == pipeUnit 7 1 4) = some (pipeUnit 7 1 4, 3)) ∧
    (let d := (inMode .solo).updSlice 7 (fun x => { x with state := 1 })
     let e := { d with flt := { lastAt := [((2, 7), 0)] } }
     Powered (st d) ∧ (d.getSlice 7).state = 1 ∧ sliceRecurs 7 (clearSlice 7 d) = false ∧ sliceRecurs 7 (clearSlice 7 e) = true ∧ ((inMode .solo).getSlice 7).state ≠ 1) ∧
    (let d := (inMode .solo).updSlice 7 (fun x => { x with state := 2, restartSub := some (sub1, 4) })
     (d.getSlice 7).state = 2 ∧ (d.getSlice 7).restartSub = some (sub1, 4)) := by
  decide +kernel

theorem test_witness_UnitFaults :
    (Powered (st (inMode .solo)) ∧ recurs 7 5 3600 (inMode .solo) = false ∧ (inMode .solo).pins.hot = false ∧ 12 < 13 ∧ 6 < 7) ∧
    (let d := { inMode .solo with flt := { lastAt := [((7, 5), 0)] }, evr := { optime := 3600000 }, pins := { hot := true } }
     recurs 7 5 3600 d = true ∧ d.pins.hot = true) ∧ recurs 7 5 3600 { inMode .solo with flt := { lastAt := [((7, 5), 0)] }, evr := { optime := 3600001 } } = false := by
  decide +kernel

/-- A time-of-day message for second 5, complete with its check. -/
def Sys2Proof.Tests.tod5 (flags : Nat) : Bytes := let b := be 2 0xC5A7 ++ [1] ++ be 1 flags ++ be 6 5; b ++ be 2 (crc16 b)

theorem test_witness_Recorder :
    (∀ x ∈ [(10, 4), (11, 5), (0, 2 ^ 48 - 1)], let d := { inMode .solo with evr := { calq := 2, ppsRun := 2, ppsPrev := some x.2, ppsOn := true, ppsMsg := some x.1 } }
     Powered (st d) ∧ d.evr.calq = 2 ∧ d.evr.ppsMsg = some x.1 ∧ d.evr.ppsPrev = some x.2 ∧ 2 ≤ d.evr.ppsRun ∧
     (x.1 / 2 = (x.2 + 1) % 2 ^ 48 ∨ (x.1 % 2 = 1 ∧ x.1 / 2 = x.2)) ∧ d.evr.ppsOn = true) ∧
    (∀ p ∈ [none, some 5, some (2 ^ 48 - 1)], let d := { inMode .solo with evr := { calq := 3, ppsPrev := p, ppsMsg := some 10 } }
     d.evr.calq = 3 ∧ d.evr.ppsPrev = p ∧ (∀ q ∈ p, 10 / 2 ≠ (q + 1) % 2 ^ 48 ∧ 10 % 2 = 0) ∧ d.evr.ppsOn = false) ∧
    (let d := { inMode .solo with evr := { calq := 3, todBad := 1, optime := 59999 } }
     d.evr.ppsMsg = none ∧ d.evr.calq ≠ 0 ∧ d.evr.todBad ≠ 0 ∧ d.evr.optime < d.evr.todBad + 59999 ∧ 1 + 59999 ≤ 60000) ∧
    (reqHost ≠ reqJtag ∧ 2 ^ 48 - 1 < 2 ^ 48) ∧
    (∀ f ∈ [0, 1], (tod5 f).length = 12 ∧ beAt (tod5 f) 0 2 = 0xC5A7 ∧ beAt (tod5 f) 10 2 = crc16 ((tod5 f).take 10) ∧ byteAt (tod5 f) 2 = 1 ∧ byteAt (tod5 f) 3 % 2 = f) := by
  decide +kernel

theorem test_witness_UnitsAndSnapshots :
    (let d := { inMode .solo with fls := { addr := 0x100000, len := 0 } }
     regsShut d = false ∧ taskReq reqHost d = false ∧ flsRefuse 3 (fld d.fls.addr 27 0) (fld d.fls.len 12 0) d = 0 ∧ flsRefuse 1 (fld d.fls.addr 27 0) (fld d.fls.len 12 0) d ≠ 0 ∧
     flsRefuse 2 (fld d.fls.addr 27 0) (fld d.fls.len 12 0) d ≠ 0 ∧ d.fls.op = none) ∧
    (let d := { inMode .solo with fls := { addr := 0x47FFF00, len := 256 } }
     flsRefuse 1 (fld d.fls.addr 27 0) (fld d.fls.len 12 0) d = 0 ∧ flsRefuse 2 (fld d.fls.addr 27 0) (fld d.fls.len 12 0) d = 0 ∧
     flsRefuse 3 (fld d.fls.addr 27 0) (fld d.fls.len 12 0) d ≠ 0) ∧
    (∀ op ∈ [1, 2, 3], let d := { inMode .solo with fls := { busy := true, op := some (op, 0x100000, 256) } }
     Powered (st d) ∧ d.fls.op = some (op, 0x100000, 256)) ∧
    (let d := (inMode .solo).updI3c 1 (fun x => { x with ctrl := 9 })
     let e := (inMode .solo).updI3c 1 (fun x => { x with ctrl := 9, busy := true, cmd := 0x80 })
     (d.getI3c 1).busy = false ∧ bitAt (d.getI3c 1).ctrl 0 = true ∧ bitAt (d.getI3c 1).ctrl 3 = true ∧ (d.getI3c 1).ibi = false ∧ bitAt 0x80 7 = true ∧ bitAt 0x80 14 = false ∧ 1 < 2 ∧
     (e.getI3c 1).busy = true ∧ bitAt (e.getI3c 1).cmd 7 = true ∧ bitAt ((inMode .solo).getI3c 1).ctrl 0 = false) := by
  decide +kernel

theorem test_witness_RegisterAccess :
    (Powered (st (inMode .solo)) ∧ debugOpen (inMode .solo) = false ∧ hostClosed 0x20000 (inMode .kiln) = true ∧ hostClosed 0x1FFFC (inMode .kiln) = false ∧
     hostClosed 0xFFFFFF (inMode .solo) = false ∧ 0xFFFFFF < bar2 ∧ 0xFFFFFF % 4 ≠ 0 ∧ msixQword ⟨0xFFFFFF, 4⟩ = false ∧ msixQword ⟨0x38004, 8⟩ = false ∧
     (∀ o ∈ [0x38000, 0x38008, 0x34000], msixQword ⟨o, 8⟩ = true ∧
       (match regVal reqHost o (inMode .solo), regVal reqHost (o + 4) (inMode .solo) with | some (.word _), some (.word _) => true | _, _ => false) = true) ∧
     regsShut (inMode .reset) = true ∧ regsShut (inMode .kiln) = true ∧ regsShut (inMode .solo) = false ∧ gatedOff 0x120000 = true ∧ gatedOff 0x10000 = false) ∧
    ((match regVal reqHost 0 (inMode .solo) with | some (.word _) => true | _ => false) = true ∧
     (match regVal reqHost 8 (inMode .solo) with | some (.low _) => true | _ => false) = true ∧
     (match regVal reqHost 12 (inMode .solo) with | some (.high _) => true | _ => false) = true ∧ (regVal reqHost 0x230000 (inMode .solo)).isNone = true ∧
     (regVal reqHost 0x120000 (inMode .solo)).isSome = true) ∧
    (let d := { inMode .solo with hold := [(reqHost, some (8, 77))] }
     Tab.get none d.hold reqHost = some (12 - 4, 77)) ∧
    hostClosed (bar2 + 0x1000 * 63 + 0x14) (inMode .solo) = false ∧ badShape ⟨0x20002, 4⟩ = true ∧ badShape ⟨0x20000, 4⟩ = false ∧
    (let d := capDev 0 3 (fun k => { k with trBase := [(0, 0x40000000), (1, 0x10000000)], trLim := [(0, 0x40024003), (1, 0x10001007)] })
     let k := d.getCore (64 - 1)
     Powered (st d) ∧ k.run = .running ∧ k.exl = false ∧ k.super = false ∧ taskRegionOk k 0x40010014 4 0 = true ∧ taskRegionOk k 0x40010014 4 1 = true ∧
     taskRegionOk k 0x40100000 4 0 = false ∧ (regVal 64 0x10014 d).isSome = true ∧ taskReq 64 d = true ∧ taskDenied 0x10014 0 = true ∧ gatedOff 0x10014 = false ∧
     taskDenied 0x100 0 = false ∧ (regVal 64 0x230000 d).isNone = true ∧ 0x10012 % 4 ≠ 0 ∧ 0x10014 < bar2 ∧ bar2 % 4 = 0) := by
  decide +kernel

theorem test_witness_rules :
    (beAt (zeros 12 ++ [0x88, 0xE5]) 12 2 = 0x88E5 ∧ fld (Tab.get 0 [(3, 0x88E5)] 3) 15 0 = 0x88E5 ∧
     (let f : RxFrame := ⟨4, zeros 12 ++ [0x88, 0xE5], true, []⟩
      let d := (inMode .solo).updTck 63 (fun t => { t with rx := [f] })
      Powered (st d) ∧ (d.getTck 63).rx = f :: [] ∧ beAt f.bytes 12 2 = 0x88E5)) ∧
    (let d := coreDev (fun k => { k with regs := [(5, BitVec.ofInt 64 (-(2 ^ 63))), (6, BitVec.ofInt 64 (-1))] })
     Ready 63 (st d) ∧ (d.getCore 63).reg 7 = 0 ∧ (d.getCore 63).reg 5 = BitVec.ofInt 64 (-(2 ^ 63)) ∧ (d.getCore 63).reg 6 = BitVec.ofInt 64 (-1)) ∧
    (let d := { inMode .solo with mod := { mode := .solo, change := some (.swap, .solo), runtime := some {}, micro := some {} } }
     Powered (st d) ∧ d.mod.change = some (.swap, .solo) ∧ d.mod.swapRt = 0 ∧ d.mod.swapMc = 0 ∧ d.mod.runtime = some {} ∧ d.mod.micro = some {} ∧
     testedPair {} {} = false) ∧
    (let w : Win := { top := 5000, w := 4095, init := true, bitmap := 2 ^ (905 + 1) }
     w.w ≤ 4095 ∧ w.check 5001 = .pass ∧ w.check 905 ≠ .pass ∧ w.check 907 = .pass ∧ (w.mark 5001).low ≤ 907 ∧ w.low ≤ w.low + 2 ^ 32 - 1) ∧
    (let h : HoldFrame := ⟨4, 0, frame60, 0x8007, 5, 9, frame60, false, true, true, 48, []⟩
     let d := (inMode .solo).updPort 63 (fun x => { x with hold := [h] })
     Powered (st d) ∧ (d.getPort 63).hold = h :: [] ∧ h.tagOk = false) ∧
    ((3 : Nat) < 4 ∧ ({ sci := 2 ^ 64 - 1 } : Chan).sci < 2 ^ 64 ∧ 14 ≤ (List.replicate 14 (0 : Byte)).length) ∧
    Sys2Proof.glonikWord 63 0x05A00006 [] true = some (.addi 63 13 0 6) ∧ ({ pending := [.ppsEdge] } : State).pending = [.ppsEdge] ∧ ({ inMode .solo with pins := { stopped := true } } : Dev).pins.stopped = true := by
  decide +kernel

theorem test_witness_LegalConfigurationKept :
    let s : State := { pending := [.ppsMissing], dev := { coldDev with mem := { coldDev.mem with trained := true } } }
    s.dev.locks.Ok ∧ ∃ t : State, step s = .next t :=
  ⟨by unfold Locks.Ok; decide +kernel, _, rfl⟩

end
end

/-! SUPPORT. Register accesses, a layer at a time: how one DWORD reads and is written, which requests the window bars from a core, and how a
read or a write of each requester ends (13 R364, R365; 16 R441, R446). -/

namespace Sys2Proof.Machine

/-! ### From an access to a run -/

theorem runs_registerRead {req : Nat} {a : Access} {s : State} {d : Dev} (hp : Powered s) (h : doRegisterRead req a s.dev = d) :
    Runs (.registerRead req a) s d := runs_of hp rfl h

theorem runs_registerWrite {req v : Nat} {a : Access} {s : State} {d : Dev} (hp : Powered s) (h : doRegisterWrite req a v s.dev = d) :
    Runs (.registerWrite req a v) s d := runs_of hp rfl h

/-- With the registers shut, a row that writes one outside GLB and MOD runs to the device as it was. -/
theorem runs_doneReg_of_shut {i : Instr} {s : State} {f : Dev → Dev} (hp : Powered s) (hs : regsShut s.dev = true) (hx : exec i s = doneReg s f) :
    Runs i s s.dev := runs_of hp hx (if_pos hs)

theorem exec_prfFreeze (on : Bool) (s : State) : exec (.prfFreeze on) s = doneReg s (fun d => { d with prfFreeze := on }) := rfl

theorem lo32_of_lt {v : Nat} (h : v < 2 ^ 32) : lo32 v = v := Nat.mod_eq_of_lt h

/-! ### A DWORD of BAR0 -/

section
variable {req off v : Nat} {d : Dev}

theorem regRead_of_none (h : regVal req off d = none) : regRead req off d = (none, d) := by simp [regRead, h]

theorem regRead_of_word {x : Nat} (h : regVal req off d = some (.word x)) : regRead req off d = (some (lo32 x), d) := by simp [regRead, h]

/-- The low word of a 64-bit read-only value captures the high word (00 R5). -/
theorem regRead_of_low {x : Nat} (h : regVal req off d = some (.low x)) :
    regRead req off d = (some (lo32 x), { d with hold := Tab.set none d.hold req (some (off, hi32 x)) }) := by simp [regRead, h]

/-- The high word reads as captured. -/
theorem regRead_of_high {x w : Nat} (ho : 4 ≤ off) (h : regVal req off d = some (.high x)) (hh : Tab.get none d.hold req = some (off - 4, w)) :
    regRead req off d = (some w, d) := by simp [regRead, h, hh, Nat.sub_add_cancel ho]

theorem regWrite_of_none (h : regVal req off d = none) : regWrite req off v d = (.unassigned, d) := by simp [regWrite, h]

variable {x : RegVal} (hx : regVal req off d = some x)
include hx

theorem regWrite_of_gated (hg : gatedOff off = true) :
    regWrite req off v d = (.gated, eventOnce 0x0804 req 2 (be 1 req ++ be 4 off) (if req = reqHost then hostErr 0 d else d)) := by
  simp [regWrite, hx, hg]

theorem regWrite_of_denied (hg : gatedOff off = false) (ht : taskReq req d = true) (hd : taskDenied off v = true) :
    regWrite req off v d = (.denied, d) := by simp [regWrite, hx, hg, ht, hd]

theorem regWrite_of_open (hg : gatedOff off = false) (h : taskReq req d = false ∨ taskDenied off v = false) :
    regWrite req off v d = (.ok, regEffect req off v d) := by
  obtain h | h := h <;> simp [regWrite, hx, hg, h]

end

/-! ### A request of BAR0 -/

section
variable {req v : Nat} {a : Access} {d : Dev}

theorem not_msixQword_of_dword (h4 : a.len = 4) : msixQword a = false := by simp [msixQword, h4]

theorem not_badShape_of_dword (ha : a.off % 4 = 0) (h4 : a.len = 4) : badShape a = false := by simp [badShape, ha, h4]

theorem badShape_of_bar0 (ho : a.off < bar2) (hm : msixQword a = false) (h : a.off % 4 ≠ 0 ∨ a.len ≠ 4) : badShape a = true := by
  simpa [badShape, ho, hm] using h

theorem barRead_dword_none (ha : a.off % 4 = 0) (h4 : a.len = 4) (h : regVal req a.off d = none) : barRead req a d = (.unsupported, d) := by
  simp [barRead, not_msixQword_of_dword h4, not_badShape_of_dword ha h4, regRead_of_none h]

theorem barRead_dword_some {d' : Dev} {w : Nat} (ha : a.off % 4 = 0) (h4 : a.len = 4) (h : regRead req a.off d = (some w, d')) :
    barRead req a d = (.data w, d') := by
  simp [barRead, not_msixQword_of_dword h4, not_badShape_of_dword ha h4, h]

theorem barRead_msixQword {x y : Nat} (hm : msixQword a = true) (hx : regVal req a.off d = some (.word x))
    (hy : regVal req (a.off + 4) d = some (.word y)) : barRead req a d = (.data (lo32 x + 2 ^ 32 * lo32 y), d) := by
  simp [barRead, hm, regRead_of_word hx, regRead_of_word hy]

theorem barRead_badShape (hm : msixQword a = false) (hb : badShape a = true) :
    barRead req a d = (.unsupported, if req = reqHost then hostErr 1 d else d) := by simp [barRead, hm, hb]

theorem barWrite_badShape (hm : msixQword a = false) (hb : badShape a = true) :
    barWrite req a v d = emit (.refusedAccess req a.off) (if req = reqHost then hostErr 1 d else d) := by simp [barWrite, hm, hb]

theorem barWrite_dword (ha : a.off % 4 = 0) (h4 : a.len = 4) : barWrite req a v d = barWriteWord req a.off v d := by
  simp [barWrite, not_msixQword_of_dword h4, not_badShape_of_dword ha h4]

end

/-! ### A request of the BAR2 pages -/

/-- A request of one whole DWORD keeps nothing of its old value. -/
theorem mergeWord_whole (off old : Nat) {v : Nat} (hv : v < 2 ^ 32) : mergeWord ⟨off, 4⟩ v off old = v := by
  simp [mergeWord, List.range_succ, ofLe]
  omega

theorem pageWords_dword {off : Nat} (h : off % 4 = 0) : pageWords ⟨off, 4⟩ = [off] := by
  have : off / 4 * 4 = off := Nat.div_mul_cancel (Nat.dvd_of_mod_eq_zero h)
  simp [pageWords, h, this]

theorem pagesWrite_dword {req off v : Nat} {d : Dev} (h : off % 4 = 0) (hv : v < 2 ^ 32) :
    pagesWrite req ⟨off, 4⟩ v d = writePage (offFrom bar2 off) v d := by
  simp [pagesWrite, pageWords_dword h, each, mergeWord_whole off _ hv]

/-- The producer index of ring `r` lies at 0x14 of its page (13 R365). -/
theorem writePage_ringPi {r v : Nat} {d : Dev} (hr : r < 64) : writePage (0x1000 * r + 0x14) v d = ringPiWrite r v d := by
  have hpage : (0x1000 * r + 0x14) / 0x1000 = r := by omega
  have hreg : (0x1000 * r + 0x14) % 0x1000 = 0x14 := by omega
  simp [writePage, writeRing, hpage, hreg, hr, inR]

/-! ### What bars a core from the window -/

theorem bitAt_toNat (x : DWord) (i : Nat) : bitAt x.toNat i = x.getLsbD i := by
  rw [← BitVec.testBit_toNat, Nat.testBit_eq_decide_div_mod_eq]
  rfl

theorem mayAccess_singleton_iff (k : Core) (addr n right : Nat) :
    MayAccess k addr n [right] ↔ k.super = true ∨ taskRegionOk k addr n right = true := by
  simp [MayAccess, taskRegionOk, bitAt_toNat, and_assoc]

/-- Core `req - 1` has taken an exception for its access to the register at `off` (10 R287). -/
abbrev windowTrap (req off cause : Nat) (d : Dev) : Dev :=
  d.updCore (req - 1) (Core.except cause ((d.getCore (req - 1)).pc.setWidth 64) (BitVec.ofNat 64 (0x40000000 + off)))

section
variable {req right : Nat} {a : Access} {d : Dev}

theorem windowExc_of_running {off cause : Nat} (hr : (d.getCore (req - 1)).run = .running) (hx : (d.getCore (req - 1)).exl = false) :
    windowExc req off cause d = windowTrap req off cause d := by simp [windowExc, takeExc, hr, hx]

theorem windowBar_misaligned (h : a.off % a.len ≠ 0) : windowBar req a right d = some cMISALIGN := by simp [windowBar, h]

theorem windowBar_noRegion (h : a.off % a.len = 0) (hm : ¬MayAccess (d.getCore (req - 1)) (0x40000000 + a.off) a.len [right]) :
    windowBar req a right d = some cACCESS := by
  rw [mayAccess_singleton_iff, not_or] at hm
  simp [windowBar, h, hm]

theorem windowBar_open (h : a.off % a.len = 0) (hm : MayAccess (d.getCore (req - 1)) (0x40000000 + a.off) a.len [right]) :
    windowBar req a right d = none := by
  rw [mayAccess_singleton_iff] at hm
  obtain hm | hm := hm <;> simp [windowBar, h, hm]

end

/-! ### Accesses of a core -/

@[simp] theorem coreReq_reqHost : coreReq reqHost = false := rfl
@[simp] theorem coreReq_reqJtag : coreReq reqJtag = false := rfl
@[simp] theorem reqHost_ne_reqJtag : reqHost ≠ reqJtag := by decide

theorem coreReq_iff (req : Nat) : coreReq req = true ↔ 1 ≤ req ∧ req ≤ 64 := by simp [coreReq]

theorem doRegisterRead_answered {req : Nat} {a : Access} {d d' : Dev} {w : Nat} (hb : windowBar req a 0 d = none) (h : busRead req a d = (.data w, d')) :
    doRegisterRead req a d = emit (.read req a.off (.data w)) d' := by
  simp [doRegisterRead, hb, h, when_]

section
variable {req v : Nat} {a : Access} {d : Dev} (hc : coreReq req = true)
include hc

theorem busRead_core : busRead req a d = if a.off < bar2 then barRead req a d else (.unsupported, d) := by
  have hreq := (coreReq_iff req).mp hc
  have hj : req ≠ reqJtag := by unfold reqJtag; omega
  have hh : req ≠ reqHost := by unfold reqHost; omega
  simp [busRead, hc, hj, hh]

/-- No register answers a core outside BAR0 or in an unassigned range. -/
theorem busRead_core_unanswered (ha : a.off % a.len = 0) (h : bar2 ≤ a.off ∨ (a.len = 4 ∧ regVal req a.off d = none)) :
    busRead req a d = (.unsupported, d) := by
  rw [busRead_core hc]
  split
  next ho =>
    obtain ⟨h4, hn⟩ := h.resolve_left (Nat.not_le.mpr ho)
    exact barRead_dword_none (h4 ▸ ha) h4 hn
  next => rfl

theorem doRegisterRead_barred {e : Nat} (hb : windowBar req a 0 d = some e) :
    doRegisterRead req a d = emit (.read req a.off .unsupported) (windowExc req a.off e d) := by simp [doRegisterRead, hc, hb]

theorem doRegisterRead_unanswered {d' : Dev} (hb : windowBar req a 0 d = none) (h : busRead req a d = (.unsupported, d')) :
    doRegisterRead req a d = emit (.read req a.off .unsupported) (windowExc req a.off cBUSLOAD d') := by
  simp [doRegisterRead, hc, hb, h, when_]

theorem doRegisterWrite_barred {e : Nat} (hb : windowBar req a 1 d = some e) :
    doRegisterWrite req a v d = emit (.refusedAccess req a.off) (windowExc req a.off e d) := by
  simp [doRegisterWrite, coreWindowWrite, hc, hb]

theorem doRegisterWrite_unanswered (hb : windowBar req a 1 d = none) (h : bar2 ≤ a.off ∨ (a.len = 4 ∧ regVal req a.off d = none)) :
    doRegisterWrite req a v d = emit (.refusedAccess req a.off) (windowExc req a.off cBUSSTORE d) := by
  obtain h | ⟨h4, hn⟩ := h
  · simp [doRegisterWrite, coreWindowWrite, hc, hb, h]
  · simp [doRegisterWrite, coreWindowWrite, hc, hb, h4, regWrite_of_none hn, when_]

/-- A store of one DWORD of BAR0 that the window lets through ends as the register's write does. -/
theorem doRegisterWrite_dword {r : WriteEnd × Dev} (hv : v < 2 ^ 32) (hb : windowBar req a 1 d = none) (ho : a.off < bar2) (h4 : a.len = 4)
    (hr : regWrite req a.off v d = r) :
    doRegisterWrite req a v d =
      if r.1 = .ok then r.2 else when_ (r.1 == .unassigned) (emit (.refusedAccess req a.off)) (windowExc req a.off cBUSSTORE r.2) := by
  simp [doRegisterWrite, coreWindowWrite, hc, hb, h4, ho, lo32_of_lt hv, hr]

end

/-! ### Accesses of the host and of the JTAG port -/

theorem doRegisterRead_of_busRead {req : Nat} {a : Access} {d : Dev} {r : BusAns × Dev} (hc : coreReq req = false) (h : busRead req a d = r) :
    doRegisterRead req a d = emit (.read req a.off r.1) r.2 := by simp [doRegisterRead, hc, h, when_]

section
variable {a : Access} {v : Nat} {d : Dev}

theorem busRead_jtag_closed (h : debugOpen d = false) : busRead reqJtag a d = (.unsupported, d) := by simp [busRead, h]

theorem doRegisterWrite_jtag_closed (h : debugOpen d = false) : doRegisterWrite reqJtag a v d = emit (.refusedAccess reqJtag a.off) d := by
  simp [doRegisterWrite, h]

theorem busRead_host_closed (h : hostClosed a.off d = true) : busRead reqHost a d = (.unsupported, when_ (badShape a) (hostErr 1) d) := by
  simp [busRead, h]

theorem doRegisterWrite_host_closed (h : hostClosed a.off d = true) :
    doRegisterWrite reqHost a v d = emit (.refusedAccess reqHost a.off) (when_ (badShape a) (hostErr 1) d) := by
  simp [doRegisterWrite, h]

theorem busRead_host_bar0 (ho : a.off < bar2) (h : hostClosed a.off d = false) : busRead reqHost a d = barRead reqHost a d := by
  simp [busRead, h, ho]

theorem doRegisterWrite_host_bar0 (ho : a.off < bar2) (h : hostClosed a.off d = false) :
    doRegisterWrite reqHost a v d = barWrite reqHost a v d := by
  simp [doRegisterWrite, h, ho]

theorem doRegisterWrite_host_pages (ho : bar2 ≤ a.off) (hl : a.off < bar2 + aperture) (h : hostClosed a.off d = false) :
    doRegisterWrite reqHost a v d = pagesWrite reqHost a v d := by
  simp [doRegisterWrite, h, Nat.not_lt.mpr ho, Nat.not_le.mpr hl]

end

/-! ### The clauses of REGISTER_WRITE and REGISTER_READ, requester by requester -/

section
variable {s : State} (hp : Powered s) {req v : Nat} {a : Access}
include hp

section
variable (hc : coreReq req = true) (hr : (s.dev.getCore (req - 1)).run = .running) (he : (s.dev.getCore (req - 1)).exl = false)
include hc hr he

theorem runs_coreLoad_barred {cause : Nat} (hb : windowBar req a 0 s.dev = some cause) :
    Runs (.registerRead req a) s (emit (.read req a.off .unsupported) (windowTrap req a.off cause s.dev)) := by
  rw [← windowExc_of_running hr he]
  exact runs_registerRead hp (doRegisterRead_barred hc hb)

theorem runs_coreStore_barred {cause : Nat} (hb : windowBar req a 1 s.dev = some cause) :
    Runs (.registerWrite req a v) s (emit (.refusedAccess req a.off) (windowTrap req a.off cause s.dev)) := by
  rw [← windowExc_of_running hr he]
  exact runs_registerWrite hp (doRegisterWrite_barred hc hb)

theorem runs_coreLoad_unanswered (hb : windowBar req a 0 s.dev = none) (h : busRead req a s.dev = (.unsupported, s.dev)) :
    Runs (.registerRead req a) s (emit (.read req a.off .unsupported) (windowTrap req a.off cBUSLOAD s.dev)) := by
  rw [← windowExc_of_running hr he]
  exact runs_registerRead hp (doRegisterRead_unanswered hc hb h)

theorem runs_coreStore_unanswered (hb : windowBar req a 1 s.dev = none) (h : bar2 ≤ a.off ∨ (a.len = 4 ∧ regVal req a.off s.dev = none)) :
    Runs (.registerWrite req a v) s (emit (.refusedAccess req a.off) (windowTrap req a.off cBUSSTORE s.dev)) := by
  rw [← windowExc_of_running hr he]
  exact runs_registerWrite hp (doRegisterWrite_unanswered hc hb h)

end

theorem runs_coreLoad_word (hc : coreReq req = true) (hb : windowBar req a 0 s.dev = none) (ho : a.off < bar2) (ha : a.off % 4 = 0) (h4 : a.len = 4)
    {w : Nat} (hw : regVal req a.off s.dev = some (.word w)) : Runs (.registerRead req a) s (emit (.read req a.off (.data (lo32 w))) s.dev) := by
  apply runs_registerRead hp
  apply doRegisterRead_answered hb
  rw [busRead_core hc, if_pos ho]
  exact barRead_dword_some ha h4 (regRead_of_word hw)

section
variable (hc : coreReq req = true) (hv : v < 2 ^ 32) (hb : windowBar req a 1 s.dev = none) (ho : a.off < bar2) (h4 : a.len = 4)
  {x : RegVal} (hx : regVal req a.off s.dev = some x) (hg : gatedOff a.off = false)
include hc hv hb ho h4 hx hg

/-- A task's store to a register that R446 keeps from it raises BUSSTORE and leaves the register. -/
theorem runs_coreStore_denied (hr : (s.dev.getCore (req - 1)).run = .running) (he : (s.dev.getCore (req - 1)).exl = false)
    (ht : taskReq req s.dev = true) (hd : taskDenied a.off v = true) :
    Runs (.registerWrite req a v) s (windowTrap req a.off cBUSSTORE s.dev) := by
  rw [← windowExc_of_running hr he]
  exact runs_registerWrite hp (doRegisterWrite_dword hc hv hb ho h4 (regWrite_of_denied hx hg ht hd))

theorem runs_coreStore_open (h : taskReq req s.dev = false ∨ taskDenied a.off v = false) :
    Runs (.registerWrite req a v) s (regEffect req a.off v s.dev) :=
  runs_registerWrite hp (doRegisterWrite_dword hc hv hb ho h4 (regWrite_of_open hx hg h))

end

section
variable (ho : a.off < bar2) (hh : hostClosed a.off s.dev = false)
include ho hh

theorem runs_hostRead {r : BusAns × Dev} (h : barRead reqHost a s.dev = r) :
    Runs (.registerRead reqHost a) s (emit (.read reqHost a.off r.1) r.2) :=
  runs_registerRead hp (doRegisterRead_of_busRead rfl ((busRead_host_bar0 ho hh).trans h))

theorem runs_hostWrite {d : Dev} (h : barWrite reqHost a v s.dev = d) : Runs (.registerWrite reqHost a v) s d :=
  runs_registerWrite hp ((doRegisterWrite_host_bar0 ho hh).trans h)

theorem runs_hostWrite_dword (hv : v < 2 ^ 32) (ha : a.off % 4 = 0) (h4 : a.len = 4) {r : WriteEnd × Dev}
    (h : regWrite reqHost a.off v s.dev = r) :
    Runs (.registerWrite reqHost a v) s (if r.1 = .unassigned then emit (.refusedAccess reqHost a.off) r.2 else r.2) := by
  apply runs_hostWrite hp ho hh
  rw [barWrite_dword ha h4, barWriteWord, lo32_of_lt hv, h]

end

/-- A write of a ring page's PI is the command RING_PI_WRITE (13 R365). -/
theorem runs_hostWrite_ringPi {r : Nat} (hr : r < 64) (hv : v < 2 ^ 32) (hh : hostClosed (bar2 + 0x1000 * r + 0x14) s.dev = false) :
    Runs (.registerWrite reqHost ⟨bar2 + 0x1000 * r + 0x14, 4⟩ v) s (ringPiWrite r v s.dev) := by
  have hal : (bar2 + 0x1000 * r + 0x14) % 4 = 0 := by unfold bar2; omega
  have hoff : offFrom bar2 (bar2 + 0x1000 * r + 0x14) = 0x1000 * r + 0x14 := by unfold offFrom; omega
  apply runs_registerWrite hp
  calc doRegisterWrite reqHost ⟨bar2 + 0x1000 * r + 0x14, 4⟩ v s.dev
      = pagesWrite reqHost ⟨bar2 + 0x1000 * r + 0x14, 4⟩ v s.dev :=
        doRegisterWrite_host_pages (by dsimp only; omega) (by dsimp only; unfold aperture; omega) hh
    _ = writePage (0x1000 * r + 0x14) v s.dev := by rw [pagesWrite_dword hal hv, hoff]
    _ = ringPiWrite r v s.dev := writePage_ringPi hr

end

/-- Settles O51: a register access of each requester ends as its clause says, and with the registers shut no other row writes one. -/
theorem registerAccess : Obligations.RegisterAccess := by
  unfold Obligations.RegisterAccess
  refine ⟨fun s hp => ⟨fun req a v hv => ⟨?jtag, ?hostClosed, ?core, ?host⟩, fun r v hr hv hh => runs_hostWrite_ringPi hp hr hv hh⟩, ?shut⟩
  case jtag =>
    rintro rfl hd
    exact ⟨runs_registerWrite hp (doRegisterWrite_jtag_closed hd), runs_registerRead hp (doRegisterRead_of_busRead rfl (busRead_jtag_closed hd))⟩
  case hostClosed =>
    rintro rfl hh
    exact ⟨runs_registerWrite hp (doRegisterWrite_host_closed hh), runs_registerRead hp (doRegisterRead_of_busRead rfl (busRead_host_closed hh))⟩
  case core =>
    intro h1 h64 k traps barred hr he
    have hc : coreReq req = true := (coreReq_iff req).mpr ⟨h1, h64⟩
    refine ⟨fun hm => ?misaligned, fun ha => ⟨?noLoad, ?noStore, ?unloaded, ?unstored, fun ho h4 x hx => ⟨?load, ?store⟩⟩⟩
    case misaligned =>
      exact ⟨runs_coreStore_barred hp hc hr he (windowBar_misaligned hm), runs_coreLoad_barred hp hc hr he (windowBar_misaligned hm)⟩
    case noLoad => exact fun hm => runs_coreLoad_barred hp hc hr he (windowBar_noRegion ha hm)
    case noStore => exact fun hm => runs_coreStore_barred hp hc hr he (windowBar_noRegion ha hm)
    case unloaded => exact fun hm h => runs_coreLoad_unanswered hp hc hr he (windowBar_open ha hm) (busRead_core_unanswered hc ha h)
    case unstored => exact fun hm h => runs_coreStore_unanswered hp hc hr he (windowBar_open ha hm) h
    case load =>
      rintro w rfl hm
      exact runs_coreLoad_word hp hc (windowBar_open ha (h4 ▸ hm)) ho (h4 ▸ ha) h4 hx
    case store =>
      intro hm hg
      have hb : windowBar req a 1 s.dev = none := windowBar_open ha (h4 ▸ hm)
      exact ⟨runs_coreStore_denied hp hc hv hb ho h4 hx hg hr he, runs_coreStore_open hp hc hv hb ho h4 hx hg⟩
  case host =>
    rintro rfl ho hh
    refine ⟨fun hm hs => ?shape, fun x y hm hx hy => runs_hostRead hp ho hh (barRead_msixQword hm hx hy),
      fun ha h4 => ⟨fun hn => ?unassigned, fun x hx => ?word, fun x hx => ?low, fun x h h4o hx hw => ?high, fun x hx => ⟨fun hg => ?gated, fun hg => ?ungated⟩⟩⟩
    case shape =>
      have hb := badShape_of_bar0 ho hm hs
      exact ⟨runs_hostWrite hp ho hh (barWrite_badShape hm hb), runs_hostRead hp ho hh (barRead_badShape hm hb)⟩
    case unassigned =>
      exact ⟨runs_hostWrite_dword hp ho hh hv ha h4 (regWrite_of_none hn), runs_hostRead hp ho hh (barRead_dword_none ha h4 hn)⟩
    case word => exact runs_hostRead hp ho hh (barRead_dword_some ha h4 (regRead_of_word hx))
    case low => exact runs_hostRead hp ho hh (barRead_dword_some ha h4 (regRead_of_low hx))
    case high => exact runs_hostRead hp ho hh (barRead_dword_some ha h4 (regRead_of_high h4o hx hw))
    case gated => exact runs_hostWrite_dword hp ho hh hv ha h4 (regWrite_of_gated hx hg)
    case ungated => exact runs_hostWrite_dword hp ho hh hv ha h4 (regWrite_of_open hx hg (.inl rfl))
  case shut =>
    intro s hp hs r v l on
    have hfreeze : Runs (.prfFreeze on) s s.dev := runs_doneReg_of_shut hp hs (exec_prfFreeze on s)
    simp only [List.forall_mem_cons, List.not_mem_nil, false_implies, implies_true, hfreeze, true_and, and_true]
    and_intros <;> exact runs_doneReg_of_shut hp hs rfl

end Sys2Proof.Machine

/-! SUPPORT. Frame arrival, a branch at a time: what the delineation of a frame and the passing of the oldest waiting one make of the device
(01 R15; 02 R35; 08 R215, R216, R223). -/

namespace Sys2Proof.Machine

/-! ### What the codeword count leaves unchanged -/

@[simp] theorem fecCount_tab (n : Nat) (x : FecRun) (d : Dev) : (fecCount n x d).tab = d.tab := rfl

@[simp] theorem fecCount_getTck (n m : Nat) (x : FecRun) (d : Dev) : (fecCount n x d).getTck m = d.getTck m := rfl

@[simp] theorem fecCount_portEnabled (n m : Nat) (x : FecRun) (d : Dev) : portEnabled (fecCount n x d) m = portEnabled d m := rfl

/-! ### Delineation -/

/-- The frame that a port makes of delineated bytes: it takes the port's next index and holds no cells (01 R15). -/
def nextRx (p : Nat) (bytes : Bytes) (ok : Bool) (d : Dev) : RxFrame := ⟨(d.getTck p).nextIdx, bytes, ok, []⟩

/-- A port's frame joins its waiting frames, and the port's next index moves on. -/
def joinRx (p : Nat) (f : RxFrame) (d : Dev) : Dev := d.updTck p (fun t => { t with nextIdx := t.nextIdx + 1, rx := t.rx ++ [f] })

section
variable {p : Nat} {bytes : Bytes} {ok : Bool} {fec : FecRun} {d : Dev}

theorem doDelineated_of_dark (h : linesOff d = true ∨ cfgSize (d.tab.getPrt p).cfg = 0) : doDelineated p bytes ok fec d = d := by
  simp [doDelineated, h]

theorem doDelineated_of_idle (hl : linesOff d = false) (hc : cfgSize (d.tab.getPrt p).cfg ≠ 0)
    (h : portEnabled d p = false ∨ slotPort d.tab p = true) : doDelineated p bytes ok fec d = fecCount p fec d := by
  simp [doDelineated, hl, hc, h]

/-- An enabled Frame-mode port counts the codewords and takes the frame; only a held frame that is not too long is charged (08 R223). -/
theorem doDelineated_of_enabled (hl : linesOff d = false) (hc : cfgSize (d.tab.getPrt p).cfg ≠ 0) (he : portEnabled d p = true)
    (hs : slotPort d.tab p = false) {f : RxFrame} (hf : f = nextRx p bytes ok d) {e : Dev} (hj : e = joinRx p f (fecCount p fec d)) :
    doDelineated p bytes ok fec d = if frameLong p f e || !frameHeld p f.idx e then e else settlePort p (chargeFrame p f e) := by
  subst hf hj
  simp [doDelineated, hl, hc, he, hs, nextRx, joinRx]

end

theorem runs_frameDelineated {p : Nat} {bytes : Bytes} {x : FrameEnd} {s : State} {d : Dev} (hp : Powered s)
    (h : doDelineated p bytes x.ok x.fec s.dev = d) : Runs (.frameDelineated p bytes x) s d := runs_of hp rfl h

/-! ### Passing on -/

/-- The oldest waiting frame leaves the waiting frames of its port and counts as admitted (08 R215). -/
def admitRx (p : Nat) (f : RxFrame) (rest : List RxFrame) (d : Dev) : Dev :=
  d.updTck p (fun x => { x with rx := rest, admitted := f.idx + 1, got := x.got + 1 })

/-- An admitted frame of view `v` goes to the path of its port's face, under the tables of that view (08 R216). -/
def passOn (t : Tables) (v p : Nat) (f : RxFrame) (d : Dev) : Dev := if isCipher p = true then passCipher t v p f d else passClear t v p f d

section
variable {p : Nat} {f : RxFrame} {rest : List RxFrame} {d : Dev}

theorem doFramePassed_of_stopped (h : (d.getTck p).rx = [] ∨ portEnabled d p = false) : doFramePassed p d = d := by
  unfold doFramePassed
  split
  case h_1 => rfl
  case h_2 f rest hr =>
    have he : portEnabled d p = false := h.resolve_left (by simp [hr])
    simp [he]

theorem doFramePassed_of_held (hr : (d.getTck p).rx = f :: rest) (hh : frameHeld p f.idx d = true) : doFramePassed p d = d := by
  simp [doFramePassed, hr, hh]

variable (hr : (d.getTck p).rx = f :: rest) (he : portEnabled d p = true) (hh : frameHeld p f.idx d = false)
include hr he hh

/-- No disable is pending at the frame's view, so the frame goes to its path. -/
theorem doFramePassed_of_on (h : ∀ k, (d.getTck p).disableTack = some k → viewTack p f.idx d < k) :
    doFramePassed p d =
      settlePort p (leaveHold p f (passOn (tabAt (viewTack p f.idx d) d) (viewTack p f.idx d) p f (admitRx p f rest d))) := by
  cases hk : (d.getTck p).disableTack with
  | none => simp [doFramePassed, hr, he, hh, hk, passOn, admitRx]
  | some k => simp [doFramePassed, hr, he, hh, hk, Nat.not_le.mpr (h k hk), passOn, admitRx]

/-- A disable is pending at the frame's view, so the frame is admitted and goes nowhere (08 R225). -/
theorem doFramePassed_of_off {k : Nat} (hk : (d.getTck p).disableTack = some k) (h : k ≤ viewTack p f.idx d) :
    doFramePassed p d = settlePort p (leaveHold p f (admitRx p f rest d)) := by
  simp [doFramePassed, hr, he, hh, hk, h, admitRx]

end

theorem runs_framePassed {p : Nat} {s : State} {d : Dev} (hp : Powered s) (h : doFramePassed p s.dev = d) : Runs (.framePassed p) s d :=
  runs_of hp rfl h

/-- Settles O1: the delineation of a frame and the passing of a waiting one end as the branch of their operation says. -/
theorem frameArrival : Obligations.FrameArrival := by
  unfold Obligations.FrameArrival
  refine fun s hp p => ⟨fun bytes x => ⟨?dark, fun hl hc => ⟨?idle, fun he hs => ?enabled⟩⟩, ?stopped,
    fun f rest hr he => ⟨fun hh => ?held, fun hh => ⟨fun hk => ?on, fun k hk hv => ?off⟩⟩⟩
  case dark => exact fun h => runs_frameDelineated hp (doDelineated_of_dark h)
  case idle => exact fun h => runs_frameDelineated hp (doDelineated_of_idle hl hc h)
  case enabled =>
    intro f d
    have hd : doDelineated p bytes x.ok x.fec s.dev = if frameLong p f d || !frameHeld p f.idx d then d else settlePort p (chargeFrame p f d) :=
      doDelineated_of_enabled hl hc he hs rfl rfl
    refine ⟨fun h => ?uncharged, fun hlong hheld => ?charged⟩
    case uncharged => exact runs_frameDelineated hp (hd.trans (if_pos (by simpa using h)))
    case charged => exact runs_frameDelineated hp (hd.trans (if_neg (by simp [hlong, hheld])))
  case stopped => exact fun h => runs_framePassed hp (doFramePassed_of_stopped h)
  case held => exact runs_framePassed hp (doFramePassed_of_held hr hh)
  case on =>
    refine runs_framePassed hp (doFramePassed_of_on hr he hh fun k hsome => ?_)
    obtain hnone | ⟨j, hj, hv⟩ := hk
    · rw [hnone] at hsome; cases hsome
    · rw [hj] at hsome; cases hsome; exact hv
  case off => exact runs_framePassed hp (doFramePassed_of_off hr he hh hk hv)

end Sys2Proof.Machine

/-! SUPPORT. Lengths of byte strings under the ciphers, numbers read back from the bytes that spell them, and the keystream applied twice. -/

namespace Sys2Proof.Machine

/-! ### Byte strings -/

@[simp] theorem length_be (n v : Nat) : (be n v).length = n := by
  induction n with
  | zero => rfl
  | succ n ih => simp [be, ih]

@[simp] theorem length_zeros (n : Nat) : (zeros n).length = n := by simp [zeros]

@[simp] theorem length_fit (n : Nat) (b : Bytes) : (fit n b).length = n := by simp [fit]; omega

@[simp] theorem length_xorB (a b : Bytes) : (xorB a b).length = min a.length b.length := by simp [xorB]

/-- A key at least as long as the data, added twice, gives the data back. -/
theorem xorB_xorB_cancel {a s : Bytes} (h : a.length ≤ s.length) : xorB (xorB a s) s = a := by
  induction a generalizing s with
  | nil => rfl
  | cons x a ih =>
    cases s with
    | nil => simp at h
    | cons y s =>
      have htail : List.zipWith (· ^^^ ·) (List.zipWith (· ^^^ ·) a s) s = a := ih (Nat.le_of_succ_le_succ h)
      simp [xorB, htail]

theorem length_flatten_of_forall {n : Nat} {l : List Bytes} (h : ∀ x ∈ l, x.length = n) : l.flatten.length = l.length * n := by
  rw [List.length_flatten, List.map_eq_replicate_iff.mpr h, List.sum_replicate, smul_eq_mul]

/-! ### Whole pieces -/

/-- A string of `k` whole pieces is cut into exactly those. -/
theorem chunks_whole {n : Nat} (hn : 0 < n) (f k : Nat) (b : Bytes) (hb : b.length = k * n) (hf : k ≤ f) :
    (chunks n f b).length = k ∧ ∀ x ∈ chunks n f b, x.length = n := by
  induction f generalizing k b with
  | zero => simp [chunks, Nat.le_zero.mp hf]
  | succ f ih =>
    cases b with
    | nil =>
      have hk : k = 0 := by simpa [hn.ne'] using hb.symm
      simp [chunks, hk]
    | cons y b =>
      obtain ⟨k, rfl⟩ : ∃ j, k = j + 1 := ⟨k - 1, by cases k <;> simp at hb ⊢⟩
      rw [Nat.succ_mul] at hb
      obtain ⟨hcount, hall⟩ := ih k ((y :: b).drop n) (by simp only [List.length_drop]; omega) (by omega)
      refine ⟨by simp [chunks, hcount], fun x hx => ?_⟩
      obtain rfl | hx := List.mem_cons.mp hx
      · simp only [List.length_take]; omega
      · exact hall x hx

theorem length_pieces {n k : Nat} (hn : 0 < n) {b : Bytes} (hb : b.length = k * n) : (pieces n b).length = k :=
  (chunks_whole hn _ k b hb (by rw [hb, Nat.mul_div_cancel _ hn]; omega)).1

theorem length_of_mem_pieces {n k : Nat} (hn : 0 < n) {b x : Bytes} (hb : b.length = k * n) (hx : x ∈ pieces n b) : x.length = n :=
  (chunks_whole hn _ k b hb (by rw [hb, Nat.mul_div_cancel _ hn]; omega)).2 x hx

/-! ### AES -/

/-- Every word of the list has four bytes. -/
def Words (w : List Bytes) : Prop := ∀ x ∈ w, x.length = 4

theorem Words.length_nth {w : List Bytes} (h : Words w) {i : Nat} (hi : i < w.length) : (nth [] w i).length = 4 := by
  have : nth [] w i = w[i] := by simp [nth, hi]
  exact this ▸ h _ (List.getElem_mem hi)

theorem length_aesNextWord {nk i : Nat} {rcon : Byte} {w : List Bytes} (h : Words w) (hk : 0 < nk) (hw : nk ≤ w.length) :
    (aesNextWord nk i rcon w).length = 4 := by
  have h0 := h.length_nth (i := 0) (by omega)
  have h1 := h.length_nth (i := nk - 1) (by omega)
  unfold aesNextWord
  dsimp only
  split
  · simp [h0, h1]
  · split <;> simp [h0, h1]

theorem aesExpand_words {nk : Nat} (hk : 0 < nk) (n i : Nat) (rcon : Byte) (w : List Bytes) (h : Words w) (hw : nk ≤ w.length) :
    Words (aesExpand nk n i rcon w) ∧ (aesExpand nk n i rcon w).length = w.length + n := by
  induction n generalizing i rcon w with
  | zero => exact ⟨h, rfl⟩
  | succ n ih =>
    have hcons : Words (aesNextWord nk i rcon w :: w) := List.forall_mem_cons.mpr ⟨length_aesNextWord h hk hw, h⟩
    obtain ⟨hall, hcount⟩ := ih (i + 1) (if i % nk = 0 then xtime rcon else rcon) _ hcons (by simp; omega)
    exact ⟨hall, hcount.trans (by simp; omega)⟩

/-- Every round key has 16 bytes. -/
theorem length_of_mem_aesKeys {key k : Bytes} (hk : k ∈ aesKeys key) : k.length = 16 := by
  unfold aesKeys at hk
  dsimp only at hk
  generalize hnk : (if key.length = 32 then 8 else 4) = nk at hk
  have hpos : 0 < nk := by rw [← hnk]; split <;> omega
  have hfit : (fit (4 * nk) key).length = nk * 4 := by rw [length_fit, Nat.mul_comm]
  have hstart : Words (pieces 4 (fit (4 * nk) key)).reverse := fun x hx =>
    length_of_mem_pieces (by omega) hfit (List.mem_reverse.mp hx)
  have hcount : (pieces 4 (fit (4 * nk) key)).reverse.length = nk := by rw [List.length_reverse, length_pieces (by omega) hfit]
  obtain ⟨hwords, hlen⟩ := aesExpand_words hpos (4 * (nk + 7) - nk) nk 1 _ hstart hcount.ge
  refine length_of_mem_pieces (k := nk + 7) (by omega) ?_ hk
  rw [length_flatten_of_forall (n := 4) (fun x hx => hwords x (List.mem_reverse.mp hx)), List.length_reverse, hlen, hcount]
  omega

@[simp] theorem length_shiftRows (s : Bytes) : (shiftRows s).length = 16 := rfl

theorem length_mixCol {x : Bytes} (h : x.length = 4) : (mixCol x).length = 4 := by
  obtain ⟨a, b, c, d, rfl⟩ := List.length_eq_four.mp h
  rfl

theorem length_mixCols {s : Bytes} (h : s.length = 16) : (mixCols s).length = 16 := by
  have hs : s.length = 4 * 4 := h
  have hall : ∀ x ∈ (pieces 4 s).map mixCol, x.length = 4 := by
    intro x hx
    obtain ⟨y, hy, rfl⟩ := List.mem_map.mp hx
    exact length_mixCol (length_of_mem_pieces (by omega) hs hy)
  rw [mixCols, length_flatten_of_forall hall, List.length_map, length_pieces (by omega) hs]

theorem length_aesRounds {ks : List Bytes} {s : Bytes} (hks : ∀ k ∈ ks, k.length = 16) (hs : s.length = 16) : (aesRounds ks s).length = 16 := by
  induction ks, s using aesRounds.induct with
  | case1 s => exact hs
  | case2 k s => simp [aesRounds, hks k (by simp)]
  | case3 k ks s hne ih =>
    rw [aesRounds]
    · exact ih (fun x hx => hks x (by simp [hx])) (by simp [length_mixCols (length_shiftRows _), hks k (by simp)])
    · exact hne

theorem length_aesEncK {key b : Bytes} (hb : b.length = 16) : (aesEncK (aesKeys key) b).length = 16 := by
  have hks : ∀ k ∈ aesKeys key, k.length = 16 := fun k => length_of_mem_aesKeys
  unfold aesEncK
  split
  next => exact hb
  next k r hk =>
    rw [hk] at hks
    exact length_aesRounds (fun x hx => hks x (by simp [hx])) (by simp [hb, hks k (by simp)])

@[simp] theorem length_aesEnc (key b : Bytes) : (aesEnc key b).length = 16 := length_aesEncK (length_fit 16 b)

/-! ### GCM -/

@[simp] theorem length_ghash (h data : Bytes) : (ghash h data).length = 16 := length_be 16 _

@[simp] theorem length_gcmTag (key iv aad c : Bytes) : (gcmTag key iv aad c).length = 16 := by simp [gcmTag]

@[simp] theorem length_gcmJ0 (key iv : Bytes) : (gcmJ0 key iv).length = 16 := by
  unfold gcmJ0
  split <;> simp [*]

theorem length_inc32 {b : Bytes} (h : b.length = 16) : (inc32 b).length = 16 := by simp [inc32, h]

theorem length_ctrStream32 {key c : Bytes} (n : Nat) (hc : c.length = 16) : (ctrStream inc32 (aesKeys key) n c).length = n * 16 := by
  induction n generalizing c with
  | zero => simp [ctrStream]
  | succ n ih =>
    rw [ctrStream, List.length_append, length_aesEncK hc, ih (length_inc32 hc)]
    omega

/-- The keystream of GCM covers the data. -/
theorem le_length_gcmStream (key iv : Bytes) (n : Nat) :
    n ≤ (ctrStream inc32 (aesKeys key) (ceilDiv n 16) (inc32 (gcmJ0 key iv))).length := by
  rw [length_ctrStream32 _ (length_inc32 (length_gcmJ0 key iv)), ceilDiv]
  omega

@[simp] theorem length_gcmCrypt (key iv data : Bytes) : (gcmCrypt key iv data).length = data.length := by
  have := le_length_gcmStream key iv data.length
  simp only [gcmCrypt, ctr32, length_xorB]
  omega

/-- What the GCM keystream encrypts, it decrypts. -/
theorem gcmCrypt_gcmCrypt (key iv data : Bytes) : gcmCrypt key iv (gcmCrypt key iv data) = data := by
  have hlen := length_gcmCrypt key iv data
  unfold gcmCrypt ctr32 at hlen ⊢
  rw [hlen]
  exact xorB_xorB_cancel (le_length_gcmStream key iv data.length)

/-! ### Fields read back -/

theorem foldl_ofBe (a : Nat) (b : Bytes) : b.foldl (fun a x => a * 256 + x.toNat) a = a * 256 ^ b.length + ofBe b := by
  unfold ofBe
  induction b generalizing a with
  | nil => simp
  | cons x b ih =>
    rw [List.foldl_cons, List.foldl_cons, ih, ih (0 * 256 + x.toNat), List.length_cons, Nat.pow_succ]
    ring

theorem ofBe_be (n v : Nat) : ofBe (be n v) = v % 256 ^ n := by
  induction n with
  | zero => simp [be, ofBe, Nat.mod_one]
  | succ n ih =>
    change (be n v).foldl (fun a x => a * 256 + x.toNat) (0 * 256 + (BitVec.ofNat 8 (v / 256 ^ n)).toNat) = _
    rw [foldl_ofBe, ih, length_be, BitVec.toNat_ofNat, Nat.zero_mul, Nat.zero_add, Nat.pow_succ 256 n, Nat.mod_mul (x := v), Nat.add_comm,
      Nat.mul_comm]

theorem byteAt_eq_beAt (b : Bytes) (i : Nat) : byteAt b i = beAt b i 1 := by
  unfold byteAt beAt sub_
  by_cases h : i < b.length
  · have hb : (b.drop i).take 1 = [b[i]] := by rw [List.drop_eq_getElem_cons h]; rfl
    simp [hb, ofBe, h]
  · simp [List.drop_eq_nil_of_le (Nat.le_of_not_lt h), ofBe, Nat.le_of_not_lt h]

/-- A field beyond the first part of a string is a field of the rest. -/
theorem beAt_append_of_le {a r : Bytes} {i n : Nat} (h : a.length ≤ i) : beAt (a ++ r) i n = beAt r (i - a.length) n := by
  rw [beAt, beAt, sub_, sub_, List.drop_append, List.drop_eq_nil_of_le h, List.nil_append]

/-- A number written in `n` bytes reads back. -/
theorem beAt_be_append {n v : Nat} (r : Bytes) (hv : v < 256 ^ n) : beAt (be n v ++ r) 0 n = v := by
  rw [beAt, sub_, List.drop_zero, List.take_left' (length_be n v), ofBe_be, Nat.mod_eq_of_lt hv]

end Sys2Proof.Machine

/-! SUPPORT. A protected frame as its four parts, its SecTAG read back field by field, and its opening (02 R30 to R33, R39, R41). -/

namespace Sys2Proof.Machine

/-! ### The parts of a protected frame -/

/-- TCI and AN as the transmit side writes them (02 R30, R31). -/
def txTci (c : Chan) (an : Nat) : Nat := c.txSci.toNat * 32 + (if c.pcode = 3 then 0 else 12) + an

/-- SL as the transmit side writes it: the length of secure data shorter than 48 bytes (02 R32). -/
def txSl (n : Nat) : Nat := if n < 48 then n else 0

/-- The length of the addresses with the SecTAG. -/
def txHlen (c : Chan) : Nat := if c.txSci = true then 28 else 20

/-- The bytes of `n` bytes of secure data that stay in clear (02 Table 02-6). -/
def clearLen (pcode n : Nat) : Nat := if pcode = 3 then n else protOffset pcode n

theorem clearLen_le (pcode n : Nat) : clearLen pcode n ≤ n := by
  unfold clearLen protOffset
  split
  · exact le_rfl
  · exact Nat.min_le_left _ _

/-- The secure data as it leaves: the clear part and the ciphertext. -/
def sealedData (c : Chan) (sa : SaStat) (b : Bytes) (pn : Nat) : Bytes :=
  (b.drop 12).take (clearLen c.pcode (b.drop 12).length)
    ++ gcmCrypt sa.key (frameIv sa c.sci pn) ((b.drop 12).drop (clearLen c.pcode (b.drop 12).length))

section
variable (c : Chan) (sa : SaStat) (b : Bytes) (an pn : Nat)

@[simp] theorem length_sealedData : (sealedData c sa b pn).length = b.length - 12 := by
  have := clearLen_le c.pcode (b.length - 12)
  simp [sealedData]
  omega

theorem take_sealedData : (sealedData c sa b pn).take (clearLen c.pcode (b.length - 12)) = (b.drop 12).take (clearLen c.pcode (b.length - 12)) := by
  have := clearLen_le c.pcode (b.length - 12)
  simp only [sealedData, List.length_drop]
  exact List.take_left' (by simp; omega)

theorem drop_sealedData : (sealedData c sa b pn).drop (clearLen c.pcode (b.length - 12)) =
    gcmCrypt sa.key (frameIv sa c.sci pn) ((b.drop 12).drop (clearLen c.pcode (b.length - 12))) := by
  have := clearLen_le c.pcode (b.length - 12)
  simp only [sealedData, List.length_drop]
  exact List.drop_left' (by simp; omega)

/-- The ICV of a frame: over the SecTAG and the clear part, and the ciphertext. -/
def frameIcv : Bytes :=
  gcmTag sa.key (frameIv sa c.sci pn) (secTagBytes c b an pn ++ (sealedData c sa b pn).take (clearLen c.pcode (b.length - 12)))
    ((sealedData c sa b pn).drop (clearLen c.pcode (b.length - 12)))

@[simp] theorem length_frameIcv : (frameIcv c sa b an pn).length = 16 := length_gcmTag _ _ _ _

theorem protectFrame_eq : protectFrame c sa b an pn = secTagBytes c b an pn ++ (sealedData c sa b pn ++ frameIcv c sa b an pn) := by
  rw [frameIcv, take_sealedData, drop_sealedData]
  simp only [protectFrame, gcmSeal, sealedData, clearLen, List.append_assoc, List.length_drop]

/-! ### The SecTAG read back -/

theorem secTagBytes_eq : secTagBytes c b an pn =
    b.take 12 ++ be 2 0x88E5 ++ be 1 (txTci c an) ++ be 1 (txSl (b.length - 12)) ++ be 4 (lo32 pn) ++ (if c.txSci then be 8 c.sci else []) := rfl

end

section
variable {c : Chan} {sa : SaStat} {b : Bytes} {an pn : Nat}

theorem length_secTagBytes (hb : 12 ≤ b.length) : (secTagBytes c b an pn).length = txHlen c := by
  rw [secTagBytes_eq, txHlen]
  split <;> simp [hb]

/-- TCI and AN fit a byte, whose bits read back as the channel has them: V, ES and SCB are 0, E and C tell confidentiality (02 Table 02-3). -/
theorem txTci_bits (han : an < 4) :
    txTci c an < 256 ∧ bitAt (txTci c an) 7 = false ∧ bitAt (txTci c an) 6 = false ∧ bitAt (txTci c an) 5 = c.txSci ∧
      bitAt (txTci c an) 4 = false ∧ bitAt (txTci c an) 3 = (c.pcode != 3) ∧ bitAt (txTci c an) 2 = (c.pcode != 3) ∧
      fld (txTci c an) 1 0 = an := by
  have hfin : ∀ a < 4, ∀ x e : Bool, let v := x.toNat * 32 + (if e then 0 else 12) + a
      v < 256 ∧ bitAt v 7 = false ∧ bitAt v 6 = false ∧ bitAt v 5 = x ∧ bitAt v 4 = false ∧ bitAt v 3 = !e ∧ bitAt v 2 = !e ∧
        fld v 1 0 = a := by
    decide
  have he : (if c.pcode = 3 then 0 else 12) = if decide (c.pcode = 3) then 0 else 12 := by simp
  have hne : (c.pcode != 3) = !decide (c.pcode = 3) := by simp [bne, beq_eq_decide]
  rw [txTci, he, hne]
  exact hfin an han c.txSci (decide (c.pcode = 3))

section
variable (hb : 12 ≤ b.length) (r : Bytes)
include hb

theorem etype_secTagBytes : beAt (secTagBytes c b an pn ++ r) 12 2 = 0x88E5 := by
  simp only [secTagBytes_eq, List.append_assoc]
  rw [beAt_append_of_le (by simp)]
  simpa [hb] using beAt_be_append _ (by norm_num)

theorem tci_secTagBytes (han : an < 4) : byteAt (secTagBytes c b an pn ++ r) 14 = txTci c an := by
  simp only [byteAt_eq_beAt, secTagBytes_eq, List.append_assoc]
  rw [beAt_append_of_le (by simp), beAt_append_of_le (by simp [hb])]
  simpa [hb] using beAt_be_append _ (txTci_bits han).1

theorem sl_secTagBytes : byteAt (secTagBytes c b an pn ++ r) 15 = txSl (b.length - 12) := by
  have hsl : txSl (b.length - 12) < 256 ^ 1 := by unfold txSl; split <;> omega
  simp only [byteAt_eq_beAt, secTagBytes_eq, List.append_assoc]
  rw [beAt_append_of_le (by simp), beAt_append_of_le (by simp [hb]), beAt_append_of_le (by simp [hb])]
  simpa [hb] using beAt_be_append _ hsl

theorem pn_secTagBytes : beAt (secTagBytes c b an pn ++ r) 16 4 = lo32 pn := by
  have hpn : lo32 pn < 256 ^ 4 := Nat.mod_lt _ (by norm_num)
  simp only [secTagBytes_eq, List.append_assoc]
  rw [beAt_append_of_le (by simp), beAt_append_of_le (by simp [hb]), beAt_append_of_le (by simp [hb]), beAt_append_of_le (by simp [hb])]
  simpa [hb] using beAt_be_append _ hpn

theorem sci_secTagBytes (hsc : c.txSci = true) (hsci : c.sci < 2 ^ 64) : beAt (secTagBytes c b an pn ++ r) 20 8 = c.sci := by
  simp only [secTagBytes_eq, hsc, if_true]
  rw [List.append_assoc, beAt_append_of_le (by simp [hb])]
  simpa [hb] using beAt_be_append r hsci

end

/-- The SecTAG of a protected frame. -/
def txTag (c : Chan) (b : Bytes) (an pn : Nat) : SecTag := ⟨txTci c an, txSl (b.length - 12), lo32 pn, txHlen c, b.length - 12⟩

theorem readSecTag_protectFrame (han : an < 4) (hb : 14 ≤ b.length) : readSecTag (protectFrame c sa b an pn) = some (txTag c b an pn) := by
  have hb12 : 12 ≤ b.length := by omega
  have hlen : (protectFrame c sa b an pn).length = txHlen c + (b.length - 12) + 16 := by
    simp [protectFrame_eq, length_secTagBytes hb12]
    omega
  obtain ⟨-, -, -, hsc, -⟩ := txTci_bits (c := c) han
  have htci : byteAt (protectFrame c sa b an pn) 14 = txTci c an := by rw [protectFrame_eq]; exact tci_secTagBytes hb12 _ han
  have hsl : byteAt (protectFrame c sa b an pn) 15 = txSl (b.length - 12) := by rw [protectFrame_eq]; exact sl_secTagBytes hb12 _
  have hpn : beAt (protectFrame c sa b an pn) 16 4 = lo32 pn := by rw [protectFrame_eq]; exact pn_secTagBytes hb12 _
  have hh : (if bitAt (txTci c an) 5 then 28 else 20) = txHlen c := by rw [hsc, txHlen]
  have hlong : 20 ≤ txHlen c := by unfold txHlen; split <;> omega
  unfold readSecTag
  simp only [htci, hsl, hpn, hh, hlen]
  rw [if_neg (by simp; omega)]
  have hsd : txHlen c + (b.length - 12) + 16 - txHlen c - 16 = b.length - 12 := by omega
  rw [hsd, txTag]

theorem badTag_txTag (han : an < 4) (hb : 14 ≤ b.length) : badTag (txTag c b an pn) = false := by
  obtain ⟨-, hv, hes, -, hscb, he, hc, -⟩ := txTci_bits (c := c) han
  have hsl : txSl (b.length - 12) < 48 ∧ (txSl (b.length - 12) = 0 ∨ txSl (b.length - 12) = b.length - 12) ∧
      (txSl (b.length - 12) ≠ 0 ∨ ¬b.length - 12 < 48) := by
    unfold txSl
    split <;> omega
  obtain ⟨hshort, hsome | hsome, hnone⟩ := hsl <;>
    simp_all [badTag, txTag, SecTag.es, SecTag.sc, SecTag.scb, SecTag.e, SecTag.c]

end

/-- Settles O56: the SecTAG of a protected frame reads back, and its three parts are the header, the sealed data and the ICV. -/
theorem protectedFrameOpens : Obligations.ProtectedFrameOpens := by
  unfold Obligations.ProtectedFrameOpens
  intro c sa b an pn han hsci hb w hlen n sd off iv
  have hb12 : 12 ≤ b.length := by omega
  obtain ⟨-, -, hes, hsc, -, he, -, hfld⟩ := txTci_bits (c := c) han
  have hw : w = secTagBytes c b an pn ++ (sealedData c sa b pn ++ frameIcv c sa b an pn) := protectFrame_eq c sa b an pn
  have hhdr : (secTagBytes c b an pn).length = hlen := length_secTagBytes hb12
  have hsealed : (sealedData c sa b pn).length = n := length_sealedData c sa b pn
  have hsd : sd = sealedData c sa b pn := by
    simp only [sd, sub_, hw, List.drop_left' hhdr, List.take_left' hsealed]
  have hoff : off = clearLen c.pcode (b.length - 12) := by
    simp only [off, hsd, hsealed]; rfl
  have htake : w.take hlen = secTagBytes c b an pn := by rw [hw, List.take_left' hhdr]
  have hicv : w.drop (hlen + n) = frameIcv c sa b an pn := by
    rw [hw, ← List.append_assoc, List.drop_left' (by rw [List.length_append, hhdr, hsealed])]
  refine ⟨⟨txTag c b an pn, readSecTag_protectFrame han hb, badTag_txTag han hb, hfld, rfl, rfl, rfl, hsc, hes, he⟩, ?etype,
    fun htx => ?sci, ?icv, ?plain⟩
  case etype => rw [hw]; exact etype_secTagBytes hb12 _
  case sci => rw [hw]; exact sci_secTagBytes hb12 _ htx hsci
  case icv => rw [htake, hicv, hsd, hoff]; rfl
  case plain =>
    have haddr : w.take 12 = b.take 12 := by
      rw [hw, secTagBytes_eq]
      simp only [List.append_assoc]
      exact List.take_left' (by simp [hb12])
    rw [haddr, hsd, hoff, take_sealedData, drop_sealedData, gcmCrypt_gcmCrypt, List.take_append_drop, List.take_append_drop]

end Sys2Proof.Machine

/-! SUPPORT. What the frame path leaves alone: the replay windows and the frames released to the ports, which only ICV_VERIFIED, a bypass, a
slot's playout and the SA commands change. -/

namespace Sys2Proof.Machine

/-- The replay windows, and the frames that wait at each port to be sent on. -/
def Dev.passed (d : Dev) : Tab Win × (Nat → List RelFrame) := (d.sas.win, fun q => (d.getPort q).rel)

theorem Dev.passed_iff {d d' : Dev} : d'.passed = d.passed ↔ d'.sas.win = d.sas.win ∧ ∀ q, (d'.getPort q).rel = (d.getPort q).rel := by
  simp [Dev.passed, funext_iff]

theorem Dev.passed_of_eq {d d' : Dev} (hs : d'.sas.win = d.sas.win := by simp) (hp : d'.port = d.port := by simp) : d'.passed = d.passed := by
  simp [Dev.passed, Dev.getPort, hs, hp]

theorem Dev.getWin_of_passed {d d' : Dev} (h : d'.passed = d.passed) (i : Nat) : d'.getWin i = d.getWin i := by
  simp [Dev.getWin, (Dev.passed_iff.mp h).1]

theorem Dev.rel_of_passed {d d' : Dev} (h : d'.passed = d.passed) (q : Nat) : (d'.getPort q).rel = (d.getPort q).rel := (Dev.passed_iff.mp h).2 q

/-! ### Updates -/

theorem Dev.updPort_passed {n : Nat} {f : Port → Port} (h : ∀ x, (f x).rel = x.rel) (d : Dev) : (d.updPort n f).passed = d.passed := by
  refine Dev.passed_iff.mpr ⟨rfl, fun q => ?_⟩
  by_cases hq : q = n
  · subst hq; simp [h]
  · rw [Dev.getPort_updPort_ne _ _ _ _ hq]

@[simp] theorem Dev.updTck_passed (n : Nat) (f : TckPort → TckPort) (d : Dev) : (d.updTck n f).passed = d.passed := Dev.passed_of_eq rfl rfl
@[simp] theorem Dev.updTwn_passed (n : Nat) (f : TwnPort → TwnPort) (d : Dev) : (d.updTwn n f).passed = d.passed := Dev.passed_of_eq rfl rfl
@[simp] theorem Dev.updSlice_passed (n : Nat) (f : Slice → Slice) (d : Dev) : (d.updSlice n f).passed = d.passed := Dev.passed_of_eq rfl rfl
@[simp] theorem Dev.updCore_passed (n : Nat) (f : Core → Core) (d : Dev) : (d.updCore n f).passed = d.passed := Dev.passed_of_eq rfl rfl
@[simp] theorem Dev.updExt_passed (n : Nat) (f : ExtQ → ExtQ) (d : Dev) : (d.updExt n f).passed = d.passed := Dev.passed_of_eq rfl rfl
@[simp] theorem Dev.updSlt_passed (n : Nat) (f : SltPort → SltPort) (d : Dev) : (d.updSlt n f).passed = d.passed := Dev.passed_of_eq rfl rfl
@[simp] theorem Dev.updLive_passed (n : Nat) (f : SaLive → SaLive) (d : Dev) : (d.updLive n f).passed = d.passed := Dev.passed_of_eq rfl rfl
@[simp] theorem Dev.updChl_passed (n : Nat) (f : ChanLive → ChanLive) (d : Dev) : (d.updChl n f).passed = d.passed := Dev.passed_of_eq rfl rfl
@[simp] theorem Dev.updTab_passed (f : Tables → Tables) (d : Dev) : (d.updTab f).passed = d.passed := Dev.passed_of_eq rfl rfl
@[simp] theorem Dev.updViews_passed (f : Tables → Tables) (d : Dev) : (d.updViews f).passed = d.passed := Dev.passed_of_eq rfl rfl

theorem Dev.updSas_passed {f : Sas → Sas} (d : Dev) (h : (f d.sas).win = d.sas.win) : (d.updSas f).passed = d.passed :=
  Dev.passed_of_eq h rfl

@[simp] theorem Dev.passed_twn (d : Dev) (x : Twn) : Dev.passed { d with twn := x } = d.passed := rfl
@[simp] theorem Dev.passed_stn (d : Dev) (x : Stn) : Dev.passed { d with stn := x } = d.passed := rfl
@[simp] theorem Dev.passed_bpm (d : Dev) (x : Bpm) : Dev.passed { d with bpm := x } = d.passed := rfl

@[simp] theorem Dev.passed_ite (c : Prop) [Decidable c] (a b : Dev) : (if c then a else b).passed = if c then a.passed else b.passed := by
  split <;> rfl

@[simp] theorem each_passed {α : Type} (l : List α) (f : α → Dev → Dev) (d : Dev) (h : ∀ a x, (f a x).passed = x.passed) :
    (each l f d).passed = d.passed := each_keeps Dev.passed f h l d

theorem foldl_passed {α : Type} (l : List α) (f : Dev → α → Dev) (d : Dev) (h : ∀ x a, (f x a).passed = x.passed) :
    (l.foldl f d).passed = d.passed := each_passed l (fun a x => f x a) d fun a x => h x a

@[simp] theorem when_passed (c : Bool) (f : Dev → Dev) (d : Dev) (h : ∀ x, (f x).passed = x.passed) : (when_ c f d).passed = d.passed := by
  unfold when_
  split
  · exact h d
  · rfl

/-! ### Counters, events, sends and cells -/

@[simp] theorem emit_passed (o : Out) (d : Dev) : (emit o d).passed = d.passed := Dev.passed_of_eq
@[simp] theorem freeNat_passed (d : Dev) : (freeNat d).2.passed = d.passed := Dev.passed_of_eq
@[simp] theorem freeBytes_passed (n : Nat) (d : Dev) : (freeBytes n d).2.passed = d.passed := Dev.passed_of_eq
@[simp] theorem prfCount_passed (ev : Nat) (unit : Option Nat) (n : Nat) (d : Dev) : (prfCount ev unit n d).passed = d.passed := Dev.passed_of_eq
@[simp] theorem event_passed (code sev : Nat) (data : Bytes) (d : Dev) : (event code sev data d).passed = d.passed := Dev.passed_of_eq
@[simp] theorem eventOnce_passed (code key sev : Nat) (data : Bytes) (d : Dev) : (eventOnce code key sev data d).passed = d.passed := Dev.passed_of_eq
@[simp] theorem evPendAll_passed (bit : Nat) (d : Dev) : (evPendAll bit d).passed = d.passed := Dev.passed_of_eq
@[simp] theorem twnCount_passed (i : Nat) (d : Dev) : (twnCount i d).passed = d.passed := Dev.passed_of_eq
@[simp] theorem hpSend_passed (j type prio dst src hops eseq : Nat) (payload : Bytes) (d : Dev) :
    (hpSend j type prio dst src hops eseq payload d).passed = d.passed := Dev.passed_of_eq
@[simp] theorem hostOut_passed (o : HostOut) (d : Dev) : (hostOut o d).passed = d.passed := Dev.passed_of_eq
@[simp] theorem extSignal_passed (q : Nat) (d : Dev) : (extSignal q d).passed = d.passed := Dev.passed_of_eq
@[simp] theorem gateLate_passed (b : Sub) (tack st : Nat) (res : List Nat) (d : Dev) :
    (gateLate b tack st res d).passed = d.passed := Dev.passed_of_eq
@[simp] theorem gateFinal_passed (b : Sub) (tack st : Nat) (res : List Nat) (d : Dev) :
    (gateFinal b tack st res d).passed = d.passed := Dev.passed_of_eq
@[simp] theorem takeCells_passed (q n : Nat) (d : Dev) : (takeCells q n d).2.passed = d.passed := Dev.passed_of_eq
@[simp] theorem passCells_passed (r q : Nat) (cells : List Nat) (n : Nat) (d : Dev) :
    (passCells r q cells n d).2.passed = d.passed := Dev.passed_of_eq
@[simp] theorem freeCells_passed (q : Nat) (cells : List Nat) (d : Dev) : (freeCells q cells d).passed = d.passed := Dev.passed_of_eq
@[simp] theorem portCount_passed (n i : Nat) (d : Dev) : (portCount n i d).passed = d.passed := Dev.updPort_passed (fun _ => by rfl) d
@[simp] theorem patCount_passed (n i : Nat) (d : Dev) : (patCount n i d).passed = d.passed := Dev.updPort_passed (fun _ => by rfl) d
@[simp] theorem errBlock_passed (n : Nat) (d : Dev) : (errBlock n d).passed = d.passed := Dev.updPort_passed (fun _ => by rfl) d
@[simp] theorem saCount_passed (slot i n : Nat) (d : Dev) : (saCount slot i n d).passed = d.passed := Dev.passed_of_eq rfl rfl
@[simp] theorem relRef_passed (slot : Nat) (d : Dev) : (relRef slot d).passed = d.passed := Dev.passed_of_eq rfl rfl
@[simp] theorem takeRef_passed (slot : Nat) (d : Dev) : (takeRef slot d).passed = d.passed := Dev.passed_of_eq rfl rfl
@[simp] theorem lineEmit_passed (n : Nat) (o : Out) (d : Dev) : (lineEmit n o d).passed = d.passed := by simp [lineEmit]
@[simp] theorem idleEmit_passed (n : Nat) (d : Dev) : (idleEmit n d).passed = d.passed := by simp [idleEmit]
@[simp] theorem fenceDrop_passed (p : Nat) (d : Dev) : (fenceDrop p d).passed = d.passed := by simp [fenceDrop]
@[simp] theorem pruneViews_passed (d : Dev) : (pruneViews d).passed = d.passed := Dev.passed_of_eq rfl rfl

/-! ### The twin's digests and dispositions -/

@[simp] theorem pathSend_passed (path : Option (Nat × Nat)) (type eseq : Nat) (payload : Bytes) (d : Dev) :
    (pathSend path type eseq payload d).passed = d.passed := by
  unfold pathSend
  split <;> simp

@[simp] theorem twinSend_passed (type : Nat) (payload : Bytes) (d : Dev) : (twinSend type payload d).passed = d.passed := by simp [twinSend]
@[simp] theorem twnSet_passed (f : Twn → Twn) (d : Dev) : (twnSet f d).passed = d.passed := by simp [twnSet]
@[simp] theorem sendOffer_passed (answer : Bool) (d : Dev) : (sendOffer answer d).passed = d.passed := by simp [sendOffer]
@[simp] theorem offerPair_passed (d : Dev) : (offerPair d).passed = d.passed := by simp [offerPair]
@[simp] theorem sendDigest_passed (p first : Nat) (l : List Nat) (d : Dev) : (sendDigest p first l d).passed = d.passed := by simp [sendDigest]
@[simp] theorem unjoin_passed (d : Dev) : (unjoin d).passed = d.passed := by simp [unjoin]
@[simp] theorem giveUp_passed (p reason : Nat) (d : Dev) : (giveUp p reason d).passed = d.passed := by simp [giveUp]
@[simp] theorem noteDiverged_passed (p : Nat) (d : Dev) : (noteDiverged p d).passed = d.passed := by simp [noteDiverged]
@[simp] theorem diverge_passed (p first : Nat) (notify : Bool) (d : Dev) : (diverge p first notify d).passed = d.passed := by simp [diverge]

@[simp] theorem settleDigest_passed (p : Nat) (x : PartnerDigest) (d : Dev) : (settleDigest p x d).2.passed = d.passed := by
  unfold settleDigest
  split <;> simp

@[simp] theorem settleWaiting_passed (p : Nat) (d : Dev) : (settleWaiting p d).passed = d.passed :=
  foldl_passed _ _ d fun x a => by simp

@[simp] theorem closeBatch_passed (p b : Nat) (d : Dev) : (closeBatch p b d).passed = d.passed := by
  unfold closeBatch
  dsimp only
  (repeat' split) <;> simp

@[simp] theorem closePassed_passed (p old : Nat) (d : Dev) : (closePassed p old d).passed = d.passed := by simp [closePassed]
@[simp] theorem disposition_passed (p idx fp : Nat) (x : Dispo) (d : Dev) : (disposition p idx fp x d).passed = d.passed := by simp [disposition]

@[simp] theorem fingerprint_passed (bytes : Bytes) (fcsOk : Bool) (d : Dev) : (fingerprint bytes fcsOk d).2.passed = d.passed := by
  unfold fingerprint
  split <;> simp

@[simp] theorem dispose_passed (p idx : Nat) (bytes : Bytes) (fcsOk : Bool) (x : Dispo) (d : Dev) :
    (dispose p idx bytes fcsOk x d).passed = d.passed := by simp [dispose]

/-! ### Slice faults and freed cells -/

@[simp] theorem errorEndPort_passed (n : Nat) (d : Dev) : (errorEndPort n d).passed = d.passed := by
  simp [errorEndPort, Dev.updPort_passed]

@[simp] theorem dropSlotHold_passed (s p : Nat) (d : Dev) : (dropSlotHold s p d).passed = d.passed := by
  unfold dropSlotHold
  dsimp only
  rw [Dev.updSlt_passed]
  split <;> simp

@[simp] theorem dropHold_passed (s n : Nat) (d : Dev) : (dropHold s n d).passed = d.passed := by
  simp [dropHold, Dev.updPort_passed]

@[simp] theorem abortSeam_passed (s : Nat) (e : Nat × ChanLive) (d : Dev) : (abortSeam s e d).passed = d.passed := by
  unfold abortSeam
  (repeat' split) <;> simp

@[simp] theorem abortFinal_passed (o : Option (Sub × Nat)) (d : Dev) : (abortFinal o d).passed = d.passed := by
  unfold abortFinal
  split <;> simp

@[simp] theorem abortPend_passed (o : Option (Sub × Nat × Nat × Nat)) (d : Dev) : (abortPend o d).passed = d.passed := by
  unfold abortPend
  split <;> simp

@[simp] theorem abortSlot_passed (s : Nat) (e : Nat × SaLive) (d : Dev) : (abortSlot s e d).passed = d.passed := by simp [abortSlot]
@[simp] theorem abortSlice_passed (s : Nat) (d : Dev) : (abortSlice s d).passed = d.passed := by simp [abortSlice, Dev.updSas_passed]
@[simp] theorem sliceFault_passed (s cause : Nat) (d : Dev) : (sliceFault s cause d).passed = d.passed := by simp [sliceFault]
@[simp] theorem freeStage_passed (q : Nat) (cells : List Nat) (d : Dev) : (freeStage q cells d).passed = d.passed := by simp [freeStage]

/-! ### Boundaries, disables and resynchronisations of a port -/

@[simp] theorem updSTx_passed (p : Nat) (f : SltTx → SltTx) (d : Dev) : (updSTx p f d).passed = d.passed := Dev.passed_of_eq rfl rfl
@[simp] theorem updSRx_passed (p : Nat) (f : SltRx → SltRx) (d : Dev) : (updSRx p f d).passed = d.passed := Dev.passed_of_eq rfl rfl
@[simp] theorem updPm_passed (p : Nat) (f : Pm → Pm) (d : Dev) : (updPm p f d).passed = d.passed := Dev.passed_of_eq rfl rfl
@[simp] theorem dropTags_passed (p : Nat) (d : Dev) : (dropTags p d).passed = d.passed := by simp [dropTags]

@[simp] theorem freeHeld_passed (p : Nat) (d : Dev) : (freeHeld p d).passed = d.passed := by
  unfold freeHeld
  dsimp only
  split <;> simp

@[simp] theorem dropHeld_passed (p : Nat) (d : Dev) : (dropHeld p d).passed = d.passed := by simp [dropHeld]
@[simp] theorem slotSilent_passed (n : Nat) (d : Dev) : (slotSilent n d).passed = d.passed := by simp [slotSilent]
@[simp] theorem finishDisable_passed (p : Nat) (d : Dev) : (finishDisable p d).passed = d.passed := by simp [finishDisable]

@[simp] theorem settleBounds_passed (p : Nat) (d : Dev) : (settleBounds p d).passed = d.passed := by
  unfold settleBounds
  dsimp only
  (repeat' split) <;> simp

@[simp] theorem fenceChan_passed (chid : Nat) (d : Dev) : (fenceChan chid d).passed = d.passed := by simp [fenceChan]
@[simp] theorem softCheck_passed (slot : Nat) (d : Dev) : (softCheck slot d).passed = d.passed := by simp [softCheck]
@[simp] theorem setStateAll_passed (slot : Nat) (st : SlotState) (d : Dev) : (setStateAll slot st d).passed = d.passed := Dev.passed_of_eq rfl rfl
@[simp] theorem startDrain_passed (slot tack : Nat) (d : Dev) : (startDrain slot tack d).passed = d.passed := Dev.passed_of_eq rfl rfl

@[simp] theorem lastUsed_passed (slot : Nat) (d : Dev) : (lastUsed slot d).2.passed = d.passed := by
  unfold lastUsed
  split <;> simp

@[simp] theorem refuseSeam_passed (chid : Nat) (d : Dev) : (refuseSeam chid d).passed = d.passed := by
  unfold refuseSeam
  dsimp only
  split <;> simp

@[simp] theorem makeSeam_passed (chid place : Nat) (d : Dev) : (makeSeam chid place d).passed = d.passed := by
  unfold makeSeam
  dsimp only
  (repeat' split) <;>
    simp only [Dev.passed_twn, Dev.updChl_passed, Dev.updLive_passed, setStateAll_passed, startDrain_passed, lastUsed_passed, gateLate_passed]

@[simp] theorem takeSeam_passed (chid place : Nat) (d : Dev) : (takeSeam chid place d).passed = d.passed := by
  unfold takeSeam
  split <;> simp

@[simp] theorem resyncChan_passed (p : Nat) (x : Nat × Nat × Nat) (d : Dev) : (resyncChan p x d).passed = d.passed := by
  unfold resyncChan
  dsimp only
  (repeat' split) <;> simp

@[simp] theorem leadResynced_passed (p : Nat) (o : Int) (d : Dev) : (leadResynced p o d).passed = d.passed := by simp [leadResynced]
@[simp] theorem pmMove_passed (p new : Nat) (d : Dev) : (pmMove p new d).passed = d.passed := by simp [pmMove]
@[simp] theorem renumber_passed (p : Nat) (o : Int) (d : Dev) : (renumber p o d).passed = d.passed := by simp [renumber]
@[simp] theorem rebasePort_passed (p : Nat) (o : Int) (d : Dev) : (rebasePort p o d).passed = d.passed := by simp [rebasePort]

@[simp] theorem resyncStep_passed (p : Nat) (d : Dev) : (resyncStep p d).passed = d.passed := by
  unfold resyncStep
  dsimp only
  (repeat' split) <;> simp

@[simp] theorem chargeFrame_passed (p : Nat) (f : RxFrame) (d : Dev) : (chargeFrame p f d).passed = d.passed := by
  unfold chargeFrame
  dsimp only
  split <;> simp

@[simp] theorem chargeHeld_passed (p : Nat) (d : Dev) : (chargeHeld p d).passed = d.passed :=
  foldl_passed _ _ d fun x f => by simp

@[simp] theorem settlePort_passed (p : Nat) (d : Dev) : (settlePort p d).passed = d.passed := by simp [settlePort]

end Sys2Proof.Machine

/-! SUPPORT. A frame with EtherType 0x88E5 is never bypassed: no bypass entry allows it, and its way through either face releases nothing
(02 R61). -/

namespace Sys2Proof.Machine

/-! ### What a frame that is not bypassed leaves alone -/

@[simp] theorem fillCells_passed (cells : List Nat) (b : Bytes) (d : Dev) : (fillCells cells b d).passed = d.passed := Dev.passed_of_eq rfl rfl

@[simp] theorem extractToCore_passed (q c r : Nat) (cells : List Nat) (b : Bytes) (d : Dev) :
    (extractToCore q c r cells b d).2.passed = d.passed := by
  unfold extractToCore
  dsimp only
  (repeat' split) <;> simp

@[simp] theorem extractToHost_passed (q port rule idx : Nat) (mgmt : Bool) (r : Nat) (cells : List Nat) (b : Bytes) (d : Dev) :
    (extractToHost q port rule idx mgmt r cells b d).2.passed = d.passed := by
  unfold extractToHost
  dsimp only
  (repeat' split) <;> simp

@[simp] theorem extract_passed (q port rule idx : Nat) (mgmt : Bool) (r : Nat) (cells : List Nat) (b : Bytes) (d : Dev) :
    (extract q port rule idx mgmt r cells b d).passed = d.passed := by
  unfold extract
  dsimp only
  (repeat' split) <;> simp

@[simp] theorem dropFrame_passed (p : Nat) (f : RxFrame) (counter : Nat) (d : Dev) : (dropFrame p f counter d).passed = d.passed := by
  simp [dropFrame]

@[simp] theorem dropQuiet_passed (p : Nat) (f : RxFrame) (code : Nat) (d : Dev) : (dropQuiet p f code d).passed = d.passed := by simp [dropQuiet]

@[simp] theorem extractFrame_passed (p : Nat) (f : RxFrame) (q rule : Nat) (d : Dev) : (extractFrame p f q rule d).passed = d.passed := by
  simp [extractFrame]

@[simp] theorem fencedFrame_passed (p : Nat) (f : RxFrame) (d : Dev) : (fencedFrame p f d).passed = d.passed := by simp [fencedFrame]

@[simp] theorem bypassDenied_passed (n rule : Nat) (frame : Bytes) (d : Dev) : (bypassDenied n rule frame d).passed = d.passed := by
  simp [bypassDenied]

@[simp] theorem leaveHold_passed (p : Nat) (f : RxFrame) (d : Dev) : (leaveHold p f d).passed = d.passed := by simp [leaveHold]

@[simp] theorem stnHit_passed (t : Tables) (i : Nat) (d : Dev) : (stnHit t i d).passed = d.passed := by
  unfold stnHit
  split <;> simp

@[simp] theorem classifyFrame_passed (t : Tables) (n : Nat) (frame : Bytes) (d : Dev) : (classifyFrame t n frame d).2.passed = d.passed := by
  unfold classifyFrame
  dsimp only
  (repeat' split) <;> simp

@[simp] theorem admitTransmit_passed (t : Tables) (v p : Nat) (f : RxFrame) (chid rule : Nat) (d : Dev) :
    (admitTransmit t v p f chid rule d).passed = d.passed := by
  unfold admitTransmit
  dsimp only
  (repeat' split) <;> simp

@[simp] theorem countReplay_passed (t : Tables) (slot chid : Nat) (r : Replay) (d : Dev) : (countReplay t slot chid r d).passed = d.passed := by
  simp [countReplay]

@[simp] theorem rxFail_passed (p : Nat) (f : RxFrame) (slot code : Nat) (d : Dev) : (rxFail p f slot code d).passed = d.passed := by simp [rxFail]

@[simp] theorem rxSaStage_passed (t : Tables) (v p : Nat) (f : RxFrame) (s : SecTag) (chid slot : Nat) (sci : Option Nat) (d : Dev) :
    (rxSaStage t v p f s chid slot sci d).passed = d.passed := by
  unfold rxSaStage
  dsimp only
  (repeat' split) <;> simp [Dev.updPort_passed]

theorem noSa_passed (p : Nat) (f : RxFrame) (chid an : Nat) (d : Dev) : (passMacsec.noSa p f chid an d).passed = d.passed := by
  unfold passMacsec.noSa
  rw [dropFrame_passed, Dev.updPort_passed]
  intro x
  split <;> rfl

/-- A MACsec frame is dropped or held until its ICV is verified (02 R33, R48). -/
@[simp] theorem passMacsec_passed (t : Tables) (v p : Nat) (f : RxFrame) (d : Dev) : (passMacsec t v p f d).passed = d.passed := by
  unfold passMacsec
  dsimp only
  (repeat' split) <;> simp [noSa_passed]

/-! ### EtherType 0x88E5 and the bypass -/

theorem bypassAllowed_of_macsec {t : Tables} {n : Nat} {frame : Bytes} (h : beAt frame 12 2 = 0x88E5) : bypassAllowed t n frame = false := by
  simp [bypassAllowed, h]

/-- A bypass entry that holds 0x88E5 may as well be empty (02 R61). -/
theorem bypassAllowed_erase_macsec {t : Tables} {n k : Nat} {frame : Bytes} (h : fld (Tab.get 0 (t.getPrt n).bypass k) 15 0 = 0x88E5) :
    bypassAllowed t n frame = bypassAllowed (Tables.updPrt n (fun g => { g with bypass := Tab.set 0 g.bypass k 0 }) t) n frame := by
  by_cases he : beAt frame 12 2 = 0x88E5
  · rw [bypassAllowed_of_macsec he, bypassAllowed_of_macsec he]
  unfold bypassAllowed
  dsimp only
  congr 2
  funext j
  have hget : (Tables.updPrt n (fun g => { g with bypass := Tab.set 0 g.bypass k 0 }) t).getPrt n =
      { t.getPrt n with bypass := Tab.set 0 (t.getPrt n).bypass k 0 } := by simp [Tables.updPrt, Tables.getPrt]
  rw [hget, Tab.get_set]
  by_cases hj : j = k
  · simp [hj, h, Ne.symm he, bitAt]
  · simp [hj]

section
variable {p : Nat} {f : RxFrame} (h : beAt f.bytes 12 2 = 0x88E5)
include h

theorem passClear_passed (t : Tables) (v : Nat) (d : Dev) : (passClear t v p f d).passed = d.passed := by
  unfold passClear
  simp only [bypassAllowed_of_macsec h]
  (repeat' split) <;> simp_all

theorem passCipher_passed (t : Tables) (v : Nat) (d : Dev) : (passCipher t v p f d).passed = d.passed := by
  simp [passCipher, h]

theorem doFramePassed_passed {rest : List RxFrame} {d : Dev} (hr : (d.getTck p).rx = f :: rest) : (doFramePassed p d).passed = d.passed := by
  simp [doFramePassed, hr, passClear_passed h, passCipher_passed h]

end

/-- Settles O52: the bypass test rejects EtherType 0x88E5, and passing such a frame on leaves every port's released frames as they were. -/
theorem neverBypassed : Obligations.NeverBypassed := by
  unfold Obligations.NeverBypassed
  refine ⟨fun t n frame h => bypassAllowed_of_macsec h, fun t n k frame h => bypassAllowed_erase_macsec h, fun s hp p f rest hr h => ?_⟩
  refine ⟨doFramePassed p s.dev, runs_framePassed hp rfl, fun q x hx => ?_⟩
  rwa [Dev.rel_of_passed (doFramePassed_passed h hr)] at hx

end Sys2Proof.Machine

/-! SUPPORT. The protect stage: a queued frame that no fence, fallow port or error stops takes its PN, is protected and waits for its ICV to leave
(02 R30 to R32, R41, R42, R53). -/

namespace Sys2Proof.Machine

theorem runs_transmitQueueDequeue {p : Nat} {s : State} {d : Dev} (hp : Powered s) (h : doDequeue p s.dev = d) :
    Runs (.transmitQueueDequeue p) s d := runs_of hp rfl h

/-- A protected frame counts its octets (02 Table 02-14): authenticated alone under protection code 3, encrypted under the others. -/
def countProtected (pcode slot n : Nat) (d : Dev) : Dev :=
  if pcode = 3 then saCount slot 2 n (saCount slot 0 1 d) else saCount slot 3 n (saCount slot 1 1 d)

/-- The job `j` of slice `sl` stands protected in the egress stage of port `p`, and its disposition names its SA and PN. -/
def protectJob (t : Tables) (p sl : Nat) (j : TxJob) (slot an pn : Nat) (d : Dev) : Dev :=
  let c := t.getChn j.chid
  let f : EgFrame := ⟨slot, j.chid, pn, protectFrame c (d.tab.getSa slot) j.bytes an pn, false, j.src, j.idx, false, false, j.cells⟩
  dispose j.src j.idx j.bytes true { out := 0, code := j.rule, chid := j.chid, an := an, slot := slot, pnfc := pn }
    ((countProtected c.pcode slot (j.bytes.length - 12) (prfCount 4 (some sl) 1 d)).updPort p (fun x => { x with egress := x.egress ++ [f] }))

/-- A frame whose port is not fenced, towards a live Frame-mode port, with a PN, a good FCS and no more than MAXLEN, is protected. -/
theorem doDequeue_of_protected {p sl : Nat} {j : TxJob} {slot an pn : Nat} {d e : Dev} (hroom : (d.getPort p).egress.length ≤ 1)
    (hjob : nextJob p d = some (sl, j)) (hsrc : portFenced d j.src = false) (hgate : ((tabAt j.view d).getPrt p).gateOn = true)
    (hdead : portDead (popJob sl j d) p = false) (hslot : slotPort (tabAt j.view d) p = false) (hchan : d.twn.chFence = [])
    (hpn : takePn j.chid j.view j.idx (popJob sl j d) = (some (slot, an, pn), e)) (hfcs : j.fcsOk = true)
    (hlen : (protectFrame ((tabAt j.view d).getChn j.chid) (e.tab.getSa slot) j.bytes an pn).length + 4 ≤ ((tabAt j.view d).getPrt p).maxFrame) :
    doDequeue p d = pruneViews (protectJob (tabAt j.view d) p sl j slot an pn e) := by
  have hsrc' : portFenced (popJob sl j d) j.src = false := hsrc
  have hchan' : (popJob sl j d).twn.chFence = [] := hchan
  simp [doDequeue, Nat.not_lt.mpr hroom, hjob, hsrc', hgate, hdead, hslot, hchan', hpn, hfcs, Nat.not_lt.mpr hlen, protectJob, countProtected]

/-- Settles O2: no refusal of the transmit path applies, so the frame is protected under the PN taken. -/
theorem frameProtect : Obligations.FrameProtect := by
  unfold Obligations.FrameProtect
  intro s hp p sl j slot an pn d hroom hjob hsrc t hgate hdead hslot hchan hpn hfcs c b hlen
  exact runs_transmitQueueDequeue hp (doDequeue_of_protected hroom hjob hsrc hgate hdead hslot hchan hpn hfcs hlen)

end Sys2Proof.Machine

/-! SUPPORT. The egress stage, the hold and the release of frames, a branch at a time (02 R48, R49, R55, R62, R63; 01 R16; 09 R238, R244, R247;
15 R422). -/

namespace Sys2Proof.Machine

/-! ### The egress stage -/

theorem runs_icvEmitted {p : Nat} {s : State} {d : Dev} (hp : Powered s) (h : doIcvEmitted p s.dev = d) : Runs (.icvEmitted p) s d :=
  runs_of hp rfl h

/-- The head of the egress stage leaves it, and its port counts what is wrong with it. -/
def leaveEgress (p : Nat) (f : EgFrame) (rest : List EgFrame) (d : Dev) : Dev :=
  when_ f.tooLong (saCount f.slot 5 1) (when_ f.fcsErr (portCount f.clearPort 5) (d.updPort p (fun x => { x with egress := rest })))

/-- The reference and the cells of an emitted frame end. -/
def endEgress (f : EgFrame) (d : Dev) : Dev := freeStage (0x40 + chSlice f.chid) f.cells (relRef f.slot d)

theorem doIcvEmitted_nil {p : Nat} {d : Dev} (h : (d.getPort p).egress = []) : doIcvEmitted p d = d := by simp [doIcvEmitted, h]

section
variable {p : Nat} {f : EgFrame} {rest : List EgFrame} {d e : Dev} (hq : (d.getPort p).egress = f :: rest) (he : leaveEgress p f rest d = e)
include hq he

theorem doIcvEmitted_of_disabled (h : portEnabled e p = false) : doIcvEmitted p d = endEgress f (idleEmit p e) := by
  subst he
  simp only [leaveEgress] at h
  simp [doIcvEmitted, hq, h, leaveEgress, endEgress]

theorem doIcvEmitted_of_fenced (h : portEnabled e p = true) (hf : portFenced e p = true) :
    doIcvEmitted p d = endEgress f (lineEmit p (.idle p) (fenceDrop p e)) := by
  subst he
  simp only [leaveEgress] at h hf
  simp [doIcvEmitted, hq, h, hf, leaveEgress, endEgress]

theorem doIcvEmitted_of_open (h : portEnabled e p = true) (hf : portFenced e p = false) :
    doIcvEmitted p d = endEgress f (lineEmit p (.frame p f.bytes (!f.err && !badCells f.cells e)) e) := by
  subst he
  simp only [leaveEgress] at h hf
  simp [doIcvEmitted, hq, h, hf, leaveEgress, endEgress]

end

/-! ### The hold -/

theorem runs_icvVerified {p : Nat} {s : State} {d : Dev} (hp : Powered s) (h : doIcvVerified p s.dev = d) : Runs (.icvVerified p) s d :=
  runs_of hp rfl h

/-- The oldest held frame leaves the hold. -/
def leaveHeld (p : Nat) (rest : List HoldFrame) (d : Dev) : Dev := d.updPort p (fun x => { x with hold := rest })

/-- The window that a held frame is checked against; a slot without one has an empty window. -/
def heldWin (t : Tables) (h : HoldFrame) (d : Dev) : Win :=
  match winOf h.slot (t.getSa h.slot) with
  | some i => d.getWin i
  | none => {}

/-- A frame passes the check: its window is marked, it is counted, and learnt from (02 R48, R49; 06 R175). -/
def acceptHeld (t : Tables) (p : Nat) (h : HoldFrame) (d : Dev) : Dev :=
  let d := match winOf h.slot (t.getSa h.slot) with
    | some i => d.updWin i (fun x => x.mark h.pn)
    | none => d
  let d := saCount h.slot (if h.enc then 5 else 4) h.octets (saCount h.slot 0 1 (relRef h.slot d))
  formLearn t p h (prfCount 5 (some (chSlice h.chid)) 1 d)

/-- The disposition of an accepted frame names its SA and its PN. -/
def disposeHeld (t : Tables) (p : Nat) (h : HoldFrame) (out : Nat) (d : Dev) : Dev :=
  dispose p h.idx h.bytes true { out := out, chid := h.chid, an := (t.getSa h.slot).an, slot := h.slot, pnfc := h.pn } d

/-- The cells of a held frame are freed. -/
def freeHeldCells (h : HoldFrame) (d : Dev) : Dev := freeStage (0x48 + chSlice h.chid) h.cells d

/-- The cells of a held frame pass to the clear port's release stage. -/
def moveHeldCells (h : HoldFrame) (d : Dev) : Bool × Dev := moveCells (0x48 + chSlice h.chid) (0x50 + chSlice h.chid) h.cells d

theorem doIcvVerified_nil {p : Nat} {d : Dev} (h : (d.getPort p).hold = []) : doIcvVerified p d = d := by simp [doIcvVerified, h]

/-- The code of a frame refused as a replay. -/
def replayCode (t : Tables) (h : HoldFrame) (w : Win) : Nat := saCode (if w.check h.pn = .dup && (t.getChn h.chid).mgrp != 0 then 3 else 2)

/-- What the end of the tag comparison makes of an accepted frame: `e` has accepted it. -/
def releaseHeld (t : Tables) (p : Nat) (h : HoldFrame) (e : Dev) : Dev :=
  let dst := (t.getChn h.chid).dst
  if portFenced e p || e.twn.chFence.contains h.chid then disposeHeld t p h 4 (fenceDrop p (freeHeldCells h e))
  else if !portEnabled e dst || portDead e dst then disposeHeld t p h 0 (freeHeldCells h e)
  else if (moveHeldCells h e).1 then
    disposeHeld t p h 0 ((moveHeldCells h e).2.updPort dst
      (fun x => { x with rel := x.rel ++ [⟨p, h.idx, some h.chid, h.slot, clearFrame h, true, h.cells⟩] }))
  else dispose p h.idx h.bytes true { out := 3, code := 0x570 } (portCount dst 14 (freeHeldCells h (moveHeldCells h e).2))

section
variable {p : Nat} {h : HoldFrame} {rest : List HoldFrame} {d : Dev} (hq : (d.getPort p).hold = h :: rest)
include hq

theorem doIcvVerified_of_dead (hd : portDead (leaveHeld p rest d) p = true) :
    doIcvVerified p d = pruneViews (holdFail p h 0 (leaveHeld p rest d)) := by
  unfold leaveHeld at hd
  simp [doIcvVerified, hq, hd, leaveHeld]

variable (hd : portDead (leaveHeld p rest d) p = false)
include hd

theorem doIcvVerified_of_badTag (ht : h.tagOk = false ∨ badCells h.cells (leaveHeld p rest d) = true) :
    doIcvVerified p d = pruneViews (holdFail p h (saCode 1)
      (errBlock ((tabAt h.view d).getChn h.chid).src (saCount h.slot 1 1 (leaveHeld p rest d)))) := by
  unfold leaveHeld at hd ht
  have ht' : (!h.tagOk || badCells h.cells (d.updPort p (fun x => { x with hold := rest }))) = true := by simpa using ht
  simp [doIcvVerified, hq, hd, ht', leaveHeld]

variable (ht : h.tagOk = true) (hb : badCells h.cells (leaveHeld p rest d) = false)
include ht hb

theorem doIcvVerified_of_replay (hc : (heldWin (tabAt h.view d) h (leaveHeld p rest d)).check h.pn ≠ .pass) :
    doIcvVerified p d = pruneViews (holdFail p h (replayCode (tabAt h.view d) h (heldWin (tabAt h.view d) h (leaveHeld p rest d)))
      (countReplay (tabAt h.view d) h.slot h.chid ((heldWin (tabAt h.view d) h (leaveHeld p rest d)).check h.pn) (leaveHeld p rest d))) := by
  unfold leaveHeld at hd hb
  simp only [doIcvVerified, hq, hd, ht, hb, Bool.not_true, Bool.or_self, Bool.false_eq_true, if_false]
  congr 1
  split
  next hpass => exact absurd hpass hc
  next => rfl

theorem doIcvVerified_of_passed (hc : (heldWin (tabAt h.view d) h (leaveHeld p rest d)).check h.pn = .pass) :
    doIcvVerified p d = pruneViews (releaseHeld (tabAt h.view d) p h (acceptHeld (tabAt h.view d) p h (leaveHeld p rest d))) := by
  unfold leaveHeld at hd hb
  simp only [doIcvVerified, hq, hd, ht, hb, Bool.not_true, Bool.or_self, Bool.false_eq_true, if_false]
  congr 1
  split
  next => rfl
  next hne => exact absurd hc hne

end

/-! ### The release of an accepted frame -/

section
variable {t : Tables} {p : Nat} {h : HoldFrame} {e : Dev}

theorem releaseHeld_of_fenced (hf : portFenced e p = true ∨ e.twn.chFence.contains h.chid = true) :
    releaseHeld t p h e = disposeHeld t p h 4 (fenceDrop p (freeHeldCells h e)) := if_pos (by simpa using hf)

variable (hf : portFenced e p = false) (hc : e.twn.chFence.contains h.chid = false)
include hf hc

theorem releaseHeld_of_fallow (hd : portEnabled e (t.getChn h.chid).dst = false ∨ portDead e (t.getChn h.chid).dst = true) :
    releaseHeld t p h e = disposeHeld t p h 0 (freeHeldCells h e) :=
  (if_neg (by simp only [hf, hc]; decide)).trans (if_pos (by simpa using hd))

variable (he : portEnabled e (t.getChn h.chid).dst = true) (hd : portDead e (t.getChn h.chid).dst = false)
include he hd

theorem releaseHeld_of_moved (hm : (moveHeldCells h e).1 = true) :
    releaseHeld t p h e = disposeHeld t p h 0 ((moveHeldCells h e).2.updPort (t.getChn h.chid).dst
      (fun x => { x with rel := x.rel ++ [⟨p, h.idx, some h.chid, h.slot, clearFrame h, true, h.cells⟩] })) :=
  (if_neg (by simp only [hf, hc]; decide)).trans ((if_neg (by simp [he, hd])).trans (if_pos hm))

theorem releaseHeld_of_stuck (hm : (moveHeldCells h e).1 = false) :
    releaseHeld t p h e = dispose p h.idx h.bytes true { out := 3, code := 0x570 }
      (portCount (t.getChn h.chid).dst 14 (freeHeldCells h (moveHeldCells h e).2)) :=
  (if_neg (by simp only [hf, hc]; decide)).trans ((if_neg (by simp [he, hd])).trans (if_neg (by simp [hm])))

end

/-! ### Released frames -/

theorem runs_receiveEgressSend {p : Nat} {s : State} {d : Dev} (hp : Powered s) (h : doEgressSend p s.dev = d) : Runs (.receiveEgressSend p) s d :=
  runs_of hp rfl h

/-- The oldest released frame leaves the list of its port. -/
def leaveRel (p : Nat) (rest : List RelFrame) (d : Dev) : Dev := d.updPort p (fun x => { x with rel := rest })

/-- The cells of a released frame are freed; a bypassed one holds none. -/
def freeRelCells (f : RelFrame) (d : Dev) : Dev :=
  match f.chid with
  | some c => freeStage (0x50 + chSlice c) f.cells d
  | none => d

theorem doEgressSend_nil {p : Nat} {d : Dev} (h : (d.getPort p).rel = []) : doEgressSend p d = d := by simp [doEgressSend, h]

/-- What is sent for a released frame, in the order of the reasons for idle in its place: `e` has freed its cells, and `bad` tells whether one of
them had an uncorrectable error. -/
def sendRel (p : Nat) (f : RelFrame) (bad : Bool) (e : Dev) : Dev :=
  if !portEnabled e p || portDead e p then idleEmit p e
  else if suppressed p e then lineEmit p (.idle p) (e.updTwn p (fun t => { t with suppress := sat64 (t.suppress + 1) }))
  else if portFenced e p then lineEmit p (.idle p) (fenceDrop p e)
  else if bad then lineEmit p (.idle p) (errBlock f.src (saCount f.slot 1 1 e))
  else lineEmit p (.frame p f.bytes f.fcsOk) e

theorem doEgressSend_cons {p : Nat} {f : RelFrame} {rest : List RelFrame} {d : Dev} (hq : (d.getPort p).rel = f :: rest) :
    doEgressSend p d = sendRel p f (badCells f.cells (leaveRel p rest d)) (freeRelCells f (leaveRel p rest d)) := by
  unfold doEgressSend
  rw [hq]
  rfl

section
variable {p : Nat} {f : RelFrame} {bad : Bool} {e : Dev}

theorem sendRel_of_silent (h : portEnabled e p = false ∨ portDead e p = true) : sendRel p f bad e = idleEmit p e := if_pos (by simpa using h)

variable (he : portEnabled e p = true) (hd : portDead e p = false)
include he hd

theorem sendRel_of_suppressed (hs : suppressed p e = true) :
    sendRel p f bad e = lineEmit p (.idle p) (e.updTwn p (fun t => { t with suppress := sat64 (t.suppress + 1) })) := by
  simp [sendRel, he, hd, hs]

theorem sendRel_of_fenced (hs : suppressed p e = false) (hf : portFenced e p = true) :
    sendRel p f bad e = lineEmit p (.idle p) (fenceDrop p e) := by simp [sendRel, he, hd, hs, hf]

theorem sendRel_of_bad (hs : suppressed p e = false) (hf : portFenced e p = false) :
    sendRel p f true e = lineEmit p (.idle p) (errBlock f.src (saCount f.slot 1 1 e)) := by simp [sendRel, he, hd, hs, hf]

theorem sendRel_of_good (hs : suppressed p e = false) (hf : portFenced e p = false) :
    sendRel p f false e = lineEmit p (.frame p f.bytes f.fcsOk) e := by simp [sendRel, he, hd, hs, hf]

end

/-! ### Interim digests -/

theorem runs_interimDigest {p : Nat} {s : State} {d : Dev} (hp : Powered s) (h : doInterimDigest p s.dev = d) : Runs (.interimDigest p) s d :=
  runs_of hp rfl h

theorem doInterimDigest_of_unpaired {p : Nat} {d : Dev} (h : isTwin d = false ∨ d.twn.pair ≠ 1) : doInterimDigest p d = d :=
  if_pos (by simpa using h)

theorem doInterimDigest_of_paired {p : Nat} {d : Dev} (ht : isTwin d = true) (hp : d.twn.pair = 1) :
    doInterimDigest p d = interimOf p (streamEnd p rxStream d) (interimOf p (d.getTck p).admitted d) := if_neg (by simp [ht, hp])

/-- A stream of which no frame has passed has no open batch. -/
theorem interimOf_zero (p : Nat) (d : Dev) : interimOf p 0 d = d := rfl

theorem interimOf_eq (p a : Nat) (d : Dev) : interimOf p a d =
    if twnPrefix (d.getTwn p) (a / 256 * 256) (a - a / 256 * 256) = [] then d
    else sendDigest p (a / 256 * 256) (twnPrefix (d.getTwn p) (a / 256 * 256) (a - a / 256 * 256)) d := by
  simp [interimOf]

/-- Settles O3: each command ends as the branch of its operation says. -/
theorem frameRelease : Obligations.FrameRelease := by
  unfold Obligations.FrameRelease
  refine fun s hp p => ⟨fun h => ?noEgress, fun f rest hq => ?egress, fun h => ?noHold, fun h rest hq => ?hold, fun h => ?noRel,
    fun f rest hq => ?rel, fun h => ?unpaired, fun ht hpair => ?paired⟩
  case noEgress => exact runs_icvEmitted hp (doIcvEmitted_nil h)
  case egress =>
    exact ⟨fun he => runs_icvEmitted hp (doIcvEmitted_of_disabled hq rfl he),
      fun he hf => runs_icvEmitted hp (doIcvEmitted_of_fenced hq rfl he hf), fun he hf => runs_icvEmitted hp (doIcvEmitted_of_open hq rfl he hf)⟩
  case noHold => exact runs_icvVerified hp (doIcvVerified_nil h)
  case hold =>
    refine ⟨fun hd => ?dead, fun hd ht => ?badTag, fun hd ht hb => ⟨fun hc => ?replay, fun hc => ?passed⟩⟩
    case dead => exact runs_icvVerified hp (doIcvVerified_of_dead hq hd)
    case badTag => exact runs_icvVerified hp (doIcvVerified_of_badTag hq hd ht)
    case replay => exact runs_icvVerified hp (doIcvVerified_of_replay hq hd ht hb hc)
    case passed =>
      have hrel := doIcvVerified_of_passed hq hd ht hb hc
      refine ⟨fun hf => ?fenced, fun hf hch => ⟨fun he => ?fallow, fun he hdst => ⟨fun hm => ?moved, fun hm => ?stuck⟩⟩⟩
      case fenced => exact runs_icvVerified hp (hrel.trans (congrArg pruneViews (releaseHeld_of_fenced hf)))
      case fallow => exact runs_icvVerified hp (hrel.trans (congrArg pruneViews (releaseHeld_of_fallow hf hch he)))
      case moved => exact runs_icvVerified hp (hrel.trans (congrArg pruneViews (releaseHeld_of_moved hf hch he hdst hm)))
      case stuck => exact runs_icvVerified hp (hrel.trans (congrArg pruneViews (releaseHeld_of_stuck hf hch he hdst hm)))
  case noRel => exact runs_receiveEgressSend hp (doEgressSend_nil h)
  case rel =>
    have hsend := doEgressSend_cons hq
    refine ⟨fun h => ?silent, fun he hd => ⟨fun hs => ?suppressed, fun hs => ⟨fun hf => ?fenced,
      fun hf => ⟨fun hb => ?bad, fun hb => ?good⟩⟩⟩⟩
    case silent => exact runs_receiveEgressSend hp (hsend.trans (sendRel_of_silent h))
    case suppressed => exact runs_receiveEgressSend hp (hsend.trans (sendRel_of_suppressed he hd hs))
    case fenced => exact runs_receiveEgressSend hp (hsend.trans (sendRel_of_fenced he hd hs hf))
    case bad =>
      change badCells f.cells (leaveRel p rest s.dev) = true at hb
      rw [hb] at hsend
      exact runs_receiveEgressSend hp (hsend.trans (sendRel_of_bad he hd hs hf))
    case good =>
      change badCells f.cells (leaveRel p rest s.dev) = false at hb
      rw [hb] at hsend
      exact runs_receiveEgressSend hp (hsend.trans (sendRel_of_good he hd hs hf))
  case unpaired => exact runs_interimDigest hp (doInterimDigest_of_unpaired h)
  case paired =>
    have hdig := doInterimDigest_of_paired (p := p) ht hpair
    refine ⟨runs_interimDigest hp hdig, fun hz => ?noSlots⟩
    rw [hz, interimOf_zero, interimOf_eq] at hdig
    exact ⟨fun hl => runs_interimDigest hp (hdig.trans (if_pos hl)), fun hl => runs_interimDigest hp (hdig.trans (if_neg hl))⟩

end Sys2Proof.Machine

/-! SUPPORT. Packet numbers and replay windows: PN recovery, the bits of a window's bitmap, what marking a PN does to the check of every PN, and
the windows at a failed ICV (02 R47 to R49). -/

namespace Sys2Proof.Machine

/-! ### PN recovery -/

/-- A PN within 2^32 of the window's low edge is recovered from its low word (02 R47). -/
theorem recoverPn_xpn {low pn : Nat} (hl : low ≤ pn) (hu : pn < low + 2 ^ 32) : recoverPn (pn % 2 ^ 32) low true = pn := by
  have hlow : lo32 low = low % 2 ^ 32 := rfl
  change (if lo32 low ≤ pn % 2 ^ 32 then low / 2 ^ 32 else low / 2 ^ 32 + 1) * 2 ^ 32 + pn % 2 ^ 32 = pn
  split <;> omega

theorem recoverPn_short (wire low : Nat) : recoverPn wire low false = wire := rfl

/-! ### Single bits of a number -/

theorem bitAt_eq_testBit (v i : Nat) : bitAt v i = v.testBit i := by
  rw [Nat.testBit_eq_decide_div_mod_eq]
  rfl

theorem bitAt_zero (i : Nat) : bitAt 0 i = false := by simp [bitAt_eq_testBit]

/-- Setting a bit keeps what stands above and below it. -/
theorem setBit_eq (v i : Nat) (b : Bool) : setBit v i b = 2 ^ i * (v / 2 ^ i / 2 * 2 + b.toNat) + v % 2 ^ i := by
  have hv : 2 ^ i * (v / 2 ^ i) + v % 2 ^ i = v := Nat.div_add_mod v (2 ^ i)
  have hq : 2 ^ i * (v / 2 ^ i) = 2 ^ i * (v / 2 ^ i / 2 * 2) + 2 ^ i * (v / 2 ^ i % 2) := by rw [← Nat.mul_add]; congr 1; omega
  rw [Nat.mul_add]
  obtain h | h := Nat.mod_two_eq_zero_or_one (v / 2 ^ i) <;> rw [h] at hq <;> cases b <;> simp [setBit, bitAt, h] <;> omega

theorem bitAt_setBit (v i j : Nat) (b : Bool) : bitAt (setBit v i b) j = if j = i then b else bitAt v j := by
  have hlo : v % 2 ^ i < 2 ^ i := Nat.mod_lt _ (Nat.two_pow_pos i)
  rw [bitAt_eq_testBit, bitAt_eq_testBit, setBit_eq, Nat.testBit_two_pow_mul_add _ hlo]
  obtain h | h | h := Nat.lt_trichotomy j i
  · simp [h, h.ne]
  · cases b <;> simp [h]
  · obtain ⟨k, rfl⟩ : ∃ k, j = k + 1 + i := ⟨j - i - 1, by omega⟩
    have hb : (v / 2 ^ i / 2 * 2 + b.toNat) / 2 = v / 2 ^ i / 2 := by have := b.toNat_le; omega
    have hne : k + 1 + i ≠ i := by omega
    rw [if_neg (by omega), if_neg hne, Nat.add_sub_cancel, Nat.testBit_add_one, hb, ← Nat.testBit_add_one, ← Nat.testBit_add]

/-- Of the bits of a window, `clearBits` clears those of its PNs and no other. -/
theorem bitAt_clearBits (n a m j : Nat) : bitAt (clearBits n a m) j = true ↔ bitAt m j = true ∧ ∀ k < n, (a + k) % 4096 ≠ j := by
  induction n generalizing a m with
  | zero => simp [clearBits]
  | succ n ih =>
    have hk : (∀ k < n + 1, (a + k) % 4096 ≠ j) ↔ a % 4096 ≠ j ∧ ∀ k < n, (a + 1 + k) % 4096 ≠ j := by
      rw [Nat.forall_lt_succ_left']
      simp [Nat.add_assoc, Nat.add_comm 1]
    rw [clearBits, ih, bitAt_setBit, hk]
    by_cases h : j = a % 4096 <;> simp [h, Ne.symm]

/-! ### The check after a mark -/

theorem Win.check_eq_pass_iff (w : Win) (q : Nat) :
    w.check q = .pass ↔ w.low ≤ q ∧ (q ≤ w.top → bitAt w.bitmap (q % 4096) = false) := by
  unfold Win.check
  split
  next h => simp [h]
  next h => split <;> simp_all

@[simp] theorem Win.mark_top (w : Win) (pn : Nat) : (w.mark pn).top = Nat.max w.top pn := rfl

@[simp] theorem Win.mark_w (w : Win) (pn : Nat) : (w.mark pn).w = w.w := rfl

theorem Win.low_le_mark_low (w : Win) (pn : Nat) : w.low ≤ (w.mark pn).low := by
  have : w.top ≤ Nat.max w.top pn := Nat.le_max_left _ _
  simp only [Win.low, Win.mark_top, Win.mark_w]
  omega

/-- No two PNs of a window share a bit, so after a mark of `pn` the bit of another PN of the window says what it said before, and the bit of a
PN that the window has passed over is clear. -/
theorem Win.bitAt_mark {w : Win} {pn q : Nat} (hw : w.w ≤ 4095) (hpn : w.low ≤ pn) (hq : (w.mark pn).low ≤ q) (ht : q ≤ (w.mark pn).top) :
    bitAt (w.mark pn).bitmap (q % 4096) = true ↔ q = pn ∨ (q ≤ w.top ∧ bitAt w.bitmap (q % 4096) = true) := by
  simp only [Win.low, Win.mark_top, Win.mark_w] at hpn hq ht
  have hmax : (pn ≤ w.top ∧ Nat.max w.top pn = w.top) ∨ (w.top < pn ∧ Nat.max w.top pn = pn) :=
    (Nat.lt_or_ge w.top pn).symm.imp (fun h => ⟨h, Nat.max_eq_left h⟩) (fun h => ⟨h, Nat.max_eq_right h.le⟩)
  have hpq : q % 4096 = pn % 4096 ↔ q = pn := by omega
  simp only [Win.mark, bitAt_setBit, hpq]
  by_cases he : q = pn
  · simp [he]
  obtain ⟨hn, hm⟩ | ⟨hn, hm⟩ := hmax <;> rw [hm] at hq ht
  · simp [he, Nat.not_lt.mpr hn, ht]
  by_cases hg : 4096 < pn - w.top
  · have : ¬q ≤ w.top := by omega
    simp [he, hn, hg, bitAt_zero, this]
  · have hc : (∀ k < pn - w.top - 1, (w.top + 1 + k) % 4096 ≠ q % 4096) ↔ q ≤ w.top := by
      constructor
      · intro h
        by_contra hlt
        exact h (q - (w.top + 1)) (by omega) (by congr 1; omega)
      · omega
    simp [he, hn, hg, bitAt_clearBits, hc, and_comm]

/-- After a mark of a PN at or above the window's low edge, exactly the other PNs pass that passed before and that the window has not left
behind (02 R48). -/
theorem Win.mark_check_eq_pass_iff {w : Win} {pn : Nat} (hw : w.w ≤ 4095) (hpn : w.low ≤ pn) (q : Nat) :
    (w.mark pn).check q = .pass ↔ (w.mark pn).low ≤ q ∧ q ≠ pn ∧ w.check q = .pass := by
  rw [Win.check_eq_pass_iff, Win.check_eq_pass_iff]
  refine and_congr_right fun hq => ?_
  have hlow : w.low ≤ q := (w.low_le_mark_low pn).trans hq
  have htop : q ≤ w.top ∨ q = pn → q ≤ (w.mark pn).top := by
    rintro (h | rfl)
    · exact h.trans (Nat.le_max_left _ _)
    · exact Nat.le_max_right _ _
  constructor
  · intro h
    have hbit : ∀ hle : q ≤ (w.mark pn).top, ¬(q = pn ∨ (q ≤ w.top ∧ bitAt w.bitmap (q % 4096) = true)) := fun hle hb =>
      absurd ((Win.bitAt_mark hw hpn hq hle).mpr hb) (by simp [h hle])
    refine ⟨fun he => hbit (htop (.inr he)) (.inl he), hlow, fun hle => ?_⟩
    simpa using fun hb => hbit (htop (.inl hle)) (.inr ⟨hle, hb⟩)
  · rintro ⟨hne, -, hclear⟩ hle
    rw [← Bool.not_eq_true, Win.bitAt_mark hw hpn hq hle]
    rintro (he | ⟨ht, hb⟩)
    · exact hne he
    · simp [hclear ht] at hb

/-! ### A frame whose ICV fails -/

@[simp] theorem holdFail_passed (p : Nat) (h : HoldFrame) (code : Nat) (d : Dev) : (holdFail p h code d).passed = d.passed := by simp [holdFail]

/-- A failed tag comparison marks no window (02 R49). -/
theorem doIcvVerified_passed_of_badTag {p : Nat} {h : HoldFrame} {rest : List HoldFrame} {d : Dev} (hq : (d.getPort p).hold = h :: rest)
    (ht : h.tagOk = false) : (doIcvVerified p d).passed = d.passed := by
  have hleave : (leaveHeld p rest d).passed = d.passed := Dev.updPort_passed (fun _ => by rfl) d
  cases hd : portDead (leaveHeld p rest d) p with
  | true => rw [doIcvVerified_of_dead hq hd, pruneViews_passed, holdFail_passed, hleave]
  | false => rw [doIcvVerified_of_badTag hq hd (.inl ht), pruneViews_passed, holdFail_passed, errBlock_passed, saCount_passed, hleave]

/-- Settles O55: recovery is arithmetic on the low word, and the verdicts after a mark follow from `Win.mark_check_eq_pass_iff`. -/
theorem replayProtection : Obligations.ReplayProtection := by
  unfold Obligations.ReplayProtection
  refine ⟨fun low pn hl hu => ⟨recoverPn_xpn hl hu, recoverPn_short _ low⟩, fun w pn hw hpass => ?window, fun s hp p h rest hq ht => ?failed⟩
  case window =>
    have hiff := Win.mark_check_eq_pass_iff hw ((Win.check_eq_pass_iff w pn).mp hpass).1
    refine ⟨fun h => ?same, rfl, rfl, fun q hq h => ?refused, fun q hne hq hlow => (hiff q).mpr ⟨hlow, hne, hq⟩⟩
    case same =>
      obtain ⟨-, hne, -⟩ := (hiff pn).mp h
      exact hne rfl
    case refused =>
      obtain ⟨-, -, hold⟩ := (hiff q).mp h
      exact hq hold
  case failed =>
    exact ⟨doIcvVerified p s.dev, runs_icvVerified hp rfl, Dev.getWin_of_passed (doIcvVerified_passed_of_badTag hq ht)⟩

end Sys2Proof.Machine

/-! SUPPORT. Slot mode, sending: gated commands past their refusals, what a Slot-mode port that sends does in one frame period, and the page
swaps that it asks for (03 R82, R83, R87, R103; 05 R143; 08 R226; 09 R243, R247). -/

namespace Sys2Proof.Machine

/-! ### Gated commands and their refusals -/

theorem inSlice_of_up {n : Nat} {b : Sub} {f : Dev → Dev} {d : Dev} (h : sliceDown d n = false) : inSlice n b f d = f d := by simp [inSlice, h]

@[simp] theorem guards_nil (b : Sub) (f : Dev → Dev) (d : Dev) : guards b [] f d = f d := rfl

@[simp] theorem guards_cons (b : Sub) (c : Bool) (st : Nat) (l : List (Bool × Nat)) (f : Dev → Dev) (d : Dev) :
    guards b ((c, st) :: l) f d = if c = true then gateDone b st [] d else guards b l f d := rfl

/-! ### One frame period of a port that sends -/

theorem runs_slotFrameTransmit {p : Nat} {maps : List (Nat × List Block)} {s : State} {d : Dev} (hp : Powered s)
    (h : doSlotTransmit p maps s.dev = d) : Runs (.slotFrameTransmit p maps) s d := runs_of hp rfl h

/-- The transmitter sends idle, with no tag left to send (03 R87). -/
def slotIdle (p : Nat) (d : Dev) : Dev :=
  updSTx p (fun x => { x with running := false }) (dropTags p (lineEmit (prtOf p) (.idle (prtOf p)) d))

/-- The frame of FC `fc` goes out under the port SA `slot`; where none takes its FC, the port goes fallow (03 R82, R87). -/
def slotFrameUnder (t : Tables) (p v fc : Nat) (maps : List (Nat × List Block)) (slot : Option Nat) (d : Dev) : Dev :=
  match slot with
  | none => portSaFallow t p fc d
  | some slot => sendSlotFrame t p v fc (slotCols t p) maps true slot (d.updPort (prtOf p) (fun x => { x with fallowSa := false }))

/-- What a port that Slot mode enables puts on its line in the period of FC `fc`, under the tables `t` of its view `v`. -/
def slotPeriod (t : Tables) (p v fc : Nat) (maps : List (Nat × List Block)) (d : Dev) : Dev :=
  if slotFallow t p d = true then slotPassed p fc 3 (slotIdle p d)
  else if portFenced d (prtOf p) = true then slotPassed p fc 4 (fenceDrop (prtOf p) (slotIdle p d))
  else if sltTest (t.getSlt p) = true then
    let r := testFrame (slotCols t p) fc (d.getSlt p).tx.prbs
    slotPassed p fc 0 (lineEmit (prtOf p) (.slot (prtOf p) r.1) (updSTx p (testSent fc (slotCols t p) r) (dropTags p d)))
  else
    let sa := takeFc (fld (t.getSlt p).portCh 15 0) v fc (txMultiframe p fc d)
    slotFrameUnder t p v fc maps sa.1.1 sa.2

/-- The period of index `idx` is over: the port's index advances, and what waits for it is settled (08 R215). -/
def endSlotPeriod (p idx : Nat) (d : Dev) : Dev :=
  settlePort (prtOf p) (d.updTck (prtOf p) (fun x => { x with nextIdx := idx + 1, admitted := idx + 1, got := x.got + 1 }))

/-- Below the horizon, with no disable pending, an enabled Slot-mode port goes through one period (03 R82, 08 R215). -/
theorem doSlotTransmit_of_sending {p v : Nat} {maps : List (Nat × List Block)} {t : Tables} {k : TckPort} {d : Dev} (hk : d.getTck (prtOf p) = k)
    (hv : viewTack (prtOf p) k.nextIdx d = v) (ht : tabAt v d = t) (hl : linesOff d = false) (he : portEnabled d (prtOf p) = true)
    (hs : sltEn (t.getSlt p) = true) (hh : k.nextIdx < k.horizon) (hr : resyncHold (prtOf p) d = false) (hd : k.disableTack = none) :
    doSlotTransmit p maps d = endSlotPeriod p k.nextIdx (slotPeriod t p v ((t.getSlt p).fcBase + k.nextIdx) maps d) := by
  subst hk hv ht
  simp [doSlotTransmit, hl, he, hs, hr, hd, Nat.not_le.mpr hh]
  rfl

section
variable {t : Tables} {p v fc : Nat} {maps : List (Nat × List Block)} {d : Dev}

theorem slotPeriod_of_fallow (h : slotFallow t p d = true) : slotPeriod t p v fc maps d = slotPassed p fc 3 (slotIdle p d) := by
  simp [slotPeriod, h]

variable (hfallow : slotFallow t p d = false)
include hfallow

theorem slotPeriod_of_fenced (h : portFenced d (prtOf p) = true) :
    slotPeriod t p v fc maps d = slotPassed p fc 4 (fenceDrop (prtOf p) (slotIdle p d)) := by
  simp [slotPeriod, hfallow, h]

variable (hfence : portFenced d (prtOf p) = false)
include hfence

theorem slotPeriod_of_test (h : sltTest (t.getSlt p) = true) {r : List Block × Nat} (hr : testFrame (slotCols t p) fc (d.getSlt p).tx.prbs = r) :
    slotPeriod t p v fc maps d =
      slotPassed p fc 0 (lineEmit (prtOf p) (.slot (prtOf p) r.1) (updSTx p (testSent fc (slotCols t p) r) (dropTags p d))) := by
  simp [slotPeriod, hfallow, hfence, h, hr]

variable (htest : sltTest (t.getSlt p) = false) {inUse : Bool} {e : Dev}
include htest

/-- The port SA takes the FC and the frame goes out under it (03 R82, R83). -/
theorem slotPeriod_of_portSa {slot : Nat} (h : takeFc (fld (t.getSlt p).portCh 15 0) v fc (txMultiframe p fc d) = ((some slot, inUse), e)) :
    slotPeriod t p v fc maps d =
      sendSlotFrame t p v fc (slotCols t p) maps true slot (e.updPort (prtOf p) (fun x => { x with fallowSa := false })) := by
  simp [slotPeriod, hfallow, hfence, htest, h, slotFrameUnder]

/-- No port SA takes the FC and the port goes fallow (03 R87). -/
theorem slotPeriod_of_noPortSa (h : takeFc (fld (t.getSlt p).portCh 15 0) v fc (txMultiframe p fc d) = ((none, inUse), e)) :
    slotPeriod t p v fc maps d = portSaFallow t p fc e := by
  simp [slotPeriod, hfallow, hfence, htest, h, slotFrameUnder]

end

/-! ### Page swaps -/

theorem doSltSwap_of_ready {b : Sub} {p : Nat} {d : Dev} {g : SltGated} {x : SltTx} (hg : d.tab.getSlt p = g) (hx : (d.getSlt p).tx = x)
    (hs : sliceDown d (portSlice (prtOf p) d) = false) (hr : x.req = false) (hc : x.commit = false)
    (hf : tooFewSlots d.tab p (g.txPage (!x.act)) g.txClient = false) :
    doSltSwap b p d = gateDone b stOK []
      (updSTx p (fun x => { x with req := true, reqAt := d.tck.tno, reqSent := false, acked := false, cvReq := g.txVersion (!x.act) }) d) := by
  subst hg hx
  simp [doSltSwap, inSlice_of_up hs, hr, hc, hf]

theorem doSwapTimeout_of_unanswered {p : Nat} {d : Dev} {x : SltTx} (hx : (d.getSlt p).tx = x) (hr : x.req = true) (hs : x.reqSent = true)
    (ha : x.acked = false) (hc : x.commit = false) :
    doSwapTimeout p d = event 0x0302 2 (be 1 p ++ be 2 x.cvReq)
      (updSTx p (fun y => { y with req := false, reqSent := false, timeout := true, cvReq := 0 }) d) := by
  subst hx
  simp [doSwapTimeout, hr, hs, ha, hc]

/-- Settles O10: a sending port's period is `slotPeriod`, a branch at a time; no refusal of SLT_SWAP applies; an unanswered request is dropped. -/
theorem slotSending : Obligations.SlotSending := by
  unfold Obligations.SlotSending
  refine fun s hp p => ⟨?period, ?swap, ?timeout⟩
  case period =>
    intro maps n k v t g fc next hl he hs hh hr hd
    have hrun : ∀ d : Dev, slotPeriod t p v fc maps s.dev = d → Runs (.slotFrameTransmit p maps) s (next d) := fun d h =>
      runs_slotFrameTransmit hp (h ▸ doSlotTransmit_of_sending rfl rfl rfl hl he hs hh hr hd)
    refine ⟨fun h => ?fallow, fun hf h => ?fenced, fun hf hn h => ?test, fun slot inUse d hf hn ht h => ?sent, fun inUse d hf hn ht h => ?noSa⟩
    case fallow => exact hrun _ (slotPeriod_of_fallow h)
    case fenced => exact hrun _ (slotPeriod_of_fenced hf h)
    case test => exact hrun _ (slotPeriod_of_test hf hn h rfl)
    case sent => exact hrun _ (slotPeriod_of_portSa hf hn ht h)
    case noSa => exact hrun _ (slotPeriod_of_noPortSa hf hn ht h)
  case swap =>
    intro b hs g x hr hc hf
    exact runs_of hp rfl (doSltSwap_of_ready rfl rfl hs hr hc hf)
  case timeout =>
    intro x hr hs ha hc
    exact runs_of hp rfl (doSwapTimeout_of_unanswered rfl hr hs ha hc)

end Sys2Proof.Machine

/-! SUPPORT. Slot mode, control: what SLT_SET makes of each register of a Slot-mode port, the integration of a defect into a failure, and the
seconds of performance monitoring (03 R95, R102, R106, R107; 04 R119, R123, R125, R126, R130). -/

namespace Sys2Proof.Machine

/-- With the registers open, a row that writes one outside GLB and MOD does what its operation says. -/
theorem runs_doneReg_of_open {i : Instr} {s : State} {f : Dev → Dev} {d : Dev} (hp : Powered s) (ho : regsShut s.dev = false)
    (hx : exec i s = doneReg s f) (h : f s.dev = d) : Runs i s d := runs_of hp hx ((if_neg (by simp [ho])).trans h)

/-! ### The registers of a Slot-mode port -/

theorem runs_sltSet {b : Sub} {p off v : Nat} {s : State} {d : Dev} (hp : Powered s) (h : doSltSet b p off v s.dev = d) :
    Runs (.sltSet b p off v) s d := runs_of hp rfl h

/-- A write of a register of a Slot-mode port is carried out: its gated values change and the command is done. -/
def sltWritten (b : Sub) (p : Nat) (f : SltGated → SltGated) (d : Dev) : Dev := gateDone b stOK [] (d.updTab (Tables.updSlt p f))

/-- `Nat.mod_eq_of_lt`, with 2 ^ 32 in the form to which `simp` brings the operand of SLT_SET. -/
theorem dword_mod {v : Nat} (h : v < 2 ^ 32) : v % 4294967296 = v := Nat.mod_eq_of_lt h

section
variable {b : Sub} {p v : Nat} {d : Dev} (hv : v < 2 ^ 32) (hs : sliceDown d (portSlice (prtOf p) d) = false)
include hv hs

theorem doSltSet_ctrl : doSltSet b p 0 v d = setSltCtrl b p v d := by
  simp [doSltSet, inSlice_of_up hs, dword_mod hv]

theorem doSltSet_portCh (hlo : shortSuite d.tab (fld v 15 0) = false) (hhi : shortSuite d.tab (fld v 31 16) = false) :
    doSltSet b p 4 v d = sltWritten b p (fun g => { g with portCh := v }) d := by
  simp [doSltSet, inSlice_of_up hs, dword_mod hv, hlo, hhi, sltWritten]

theorem doSltSet_fillCh :
    doSltSet b p 8 v d = sltWritten b p (fun g => { g with fillCh := if isWide d.tab (prtOf p) = true then fld v 15 0 else 0 }) d := by
  simp [doSltSet, inSlice_of_up hs, dword_mod hv, sltWritten]

omit hv in
theorem doSltSet_fcBase_of_enabled (h : sltEn (d.tab.getSlt p) = true) : doSltSet b p 0x10 v d = gateDone b stBUSY [] d := by
  simp [doSltSet, inSlice_of_up hs, h]

theorem doSltSet_fcBaseLow (h : sltEn (d.tab.getSlt p) = false) :
    doSltSet b p 0x10 v d = sltWritten b p (fun g => { g with fcBase := hi32 g.fcBase * 2 ^ 32 + v }) d := by
  simp [doSltSet, inSlice_of_up hs, dword_mod hv, h, sltWritten]

theorem doSltSet_fcBaseHigh (h : sltEn (d.tab.getSlt p) = false) :
    doSltSet b p 0x14 v d = sltWritten b p (fun g => { g with fcBase := v * 2 ^ 32 + lo32 g.fcBase }) d := by
  simp [doSltSet, inSlice_of_up hs, dword_mod hv, h, sltWritten]

/-- Word `w` of calendar page `q` of the four, transmit A and B, then receive A and B (03 Table 03-9). -/
theorem doSltSet_calendar {off q w : Nat} (hoff : off = 0x300 + 0x140 * q + 4 * w) (hq : q < 4) (hw : w < 80) :
    doSltSet b p off v d = setCal b p w v (decide (2 ≤ q)) (q % 2 == 1) d := by
  have hpage : (off - 0x300) / 0x140 = q := by omega
  have hword : (off - 0x300) % 0x140 / 4 = w := by omega
  have hne : ∀ n < 0x300, off ≠ n := by omega
  have hge : ∀ n ≤ 0x300, ¬off < n := by omega
  have hcal : 0x300 ≤ off ∧ off < 0x800 := by omega
  simp [doSltSet, inSlice_of_up hs, dword_mod hv, hne, hge, hcal, hpage, hword]

end

/-- A word of the page that is active may not be written (03 Table 03-9). -/
theorem setCal_of_active {b : Sub} {p w v : Nat} {rx pageB : Bool} {d : Dev}
    (h : (if rx = true then (d.getSlt p).rx.act else (d.getSlt p).tx.act) = pageB) : setCal b p w v rx pageB d = gateDone b stPAGE_ACTIVE [] d := by
  simp [setCal, h]

/-! ### CTRL -/

/-- Of a write with EN 1, MGMTEN 0 and TESTPAT 0, what CTRL keeps has EN and no TESTPAT (03 Table 03-11). -/
theorem ctrl_bits_of_start {v : Nat} (h : v % 8 = 1) :
    bitAt (fld v 2 0 + at_ (fld v 15 8) 8) 0 = true ∧ bitAt (fld v 2 0 + at_ (fld v 15 8) 8) 2 = false := by
  simp only [bitAt, fld, at_, beq_iff_eq, beq_eq_false_iff_ne]
  omega

section
variable {b : Sub} {p v : Nat} {d : Dev} (hv : v % 8 = 1) (hen : sltEn (d.tab.getSlt p) = false)
include hv hen

/-- EN starts Slot mode on a port whose configuration has it, with the cells of both its slices reserved (03 R95, R107). -/
theorem setSltCtrl_of_start {lo hi : Nat} {e : Dev} (hcfg : cfgSlot (d.tab.getPrt (prtOf p)).cfg = true) (hr : slotShare d.tab p = (lo, hi))
    (hh : changeHold p lo hi true d = some e) :
    setSltCtrl b p v d = gateDone b stOK []
      (startSlot p lo hi (e.updTab (Tables.updSlt p (fun g => { g with ctrl := fld v 2 0 + at_ (fld v 15 8) 8 })))) := by
  obtain ⟨hstart, htest⟩ := ctrl_bits_of_start hv
  simp [setSltCtrl, hstart, htest, hen, hcfg, hr, hh]

theorem setSltCtrl_of_frameMode (hcfg : cfgSlot (d.tab.getPrt (prtOf p)).cfg = false) : setSltCtrl b p v d = gateDone b stBAD_PORT [] d := by
  obtain ⟨hstart, -⟩ := ctrl_bits_of_start hv
  simp [setSltCtrl, hstart, hen, hcfg]

end

/-! ### Failures -/

/-- A port-level defect has stood, or been away, long enough: its failure follows it (04 R119). -/
theorem doFailure_of_port {p k i : Nat} {present : Bool} {d : Dev} (hk : k < 8) (hdef : defectOn (d.getSlt p).dfc k i = present)
    (hfail : failureOn (d.getSlt p).dfc k i = !present) :
    doFailure p k i present d =
      event ((if present = true then 0x0400 else 0x0440) + k) (if present = false then 1 else if k < 6 then 3 else 2) (be 1 p ++ be 1 0xFF)
        (chgSDef p (fun x => { x with fchg := setBit x.fchg k true, failBits := setBit x.failBits k present }) d) := by
  have h8 : k ≠ 8 := by omega
  have h9 : k ≠ 9 := by omega
  have hclient : ¬8 ≤ k := by omega
  have hbit : ¬10 ≤ k := by omega
  cases present <;> simp [doFailure, hbit, hdef, hfail, h8, h9, hclient]

/-! ### Performance seconds -/

theorem doSecondEntry_of_few {p : Nat} {d : Dev} (h : (d.getSlt p).pm.line.length < 10) : doSecondEntry p d = d := by
  cases hl : (d.getSlt p).pm.line with
  | nil => simp [doSecondEntry, hl]
  | cons x rest => simp only [doSecondEntry, hl, if_pos (hl ▸ h)]

/-- With ten seconds waiting, the oldest is entered, and nothing outside the port's performance monitoring changes (04 R126). -/
theorem doSecondEntry_of_ten {p : Nat} {d : Dev} {x : PmSec} {rest : List PmSec} (hl : (d.getSlt p).pm.line = x :: rest) (hn : 9 ≤ rest.length) :
    ∃ f : Pm → Pm, doSecondEntry p d = updPm p f d ∧ ∀ m, (f m).line = rest ∧ (f m).entered = some x := by
  have hten : ¬rest.length + 1 < 10 := by omega
  simp only [doSecondEntry, hl, List.length_cons, if_neg hten]
  exact ⟨_, rfl, fun m => ⟨rfl, rfl⟩⟩

/-- Settles O12: each write of SLT_SET comes down to its register's row, and a failure and a second to their one operation. -/
theorem slotControl : Obligations.SlotControl := by
  unfold Obligations.SlotControl
  refine ⟨fun s hp b p v hv hs => ?registers, fun s hp p => ⟨fun k i present hk => ?failure, ?second, fun h => ?few, fun x rest hl hn => ?entry,
    fun v hshut => ?select⟩⟩
  case registers =>
    refine ⟨?fillCh, fun hlo hhi => ?portCh, fun h => ?busy, fun h => ⟨?low, ?high⟩, fun w hw => ⟨fun h => ?txPage, fun h => ?rxPage⟩,
      fun d h8 hen hcfg => ?start, fun h8 hen hcfg => ?frameMode⟩
    case fillCh => exact runs_sltSet hp (doSltSet_fillCh hv hs)
    case portCh => exact runs_sltSet hp (doSltSet_portCh hv hs hlo hhi)
    case busy => exact runs_sltSet hp (doSltSet_fcBase_of_enabled hs h)
    case low => exact runs_sltSet hp (doSltSet_fcBaseLow hv hs h)
    case high => exact runs_sltSet hp (doSltSet_fcBaseHigh hv hs h)
    case txPage => exact runs_sltSet hp ((doSltSet_calendar hv hs (q := 0) (by omega) (by omega) hw).trans (setCal_of_active h))
    case rxPage => exact runs_sltSet hp ((doSltSet_calendar hv hs (q := 3) (by omega) (by omega) hw).trans (setCal_of_active h))
    case start =>
      intro n lo hi hh
      exact runs_sltSet hp ((doSltSet_ctrl hv hs).trans (setSltCtrl_of_start h8 hen hcfg rfl hh))
    case frameMode => exact runs_sltSet hp ((doSltSet_ctrl hv hs).trans (setSltCtrl_of_frameMode h8 hen hcfg))
  case failure =>
    intro x hd hf
    exact runs_of hp rfl (doFailure_of_port hk hd hf)
  case second => exact runs_of hp rfl rfl
  case few => exact runs_of hp rfl (doSecondEntry_of_few h)
  case entry =>
    obtain ⟨f, hd, hf⟩ := doSecondEntry_of_ten hl hn
    obtain ⟨hline, hentered⟩ := hf (s.dev.getSlt p).pm
    refine ⟨updPm p f s.dev, runs_of hp rfl hd, ?_, ?_, rfl, rfl, rfl⟩
    · simp [updPm, hline]
    · simp [updPm, hentered]
  case select => exact runs_doneReg_of_open hp hshut rfl rfl

end Sys2Proof.Machine

/-! SUPPORT. Slot mode, receiving: the block of a hunting framer, what an aligned framer makes of a frame with a good and with an errored
alignment word, and what a clear port sends of its client (03 R90, R94, R97; 04 R110, R112, R117, R124; 09 R238, R247). -/

namespace Sys2Proof.Machine

/-! ### Hunting -/

theorem runs_huntBlock {p : Nat} {x : Block} {s : State} {d : Dev} (hp : Powered s) (h : doHuntBlock p x s.dev = d) :
    Runs (.huntBlock p x) s d := runs_of hp rfl h

/-- A hunting framer takes the block; at a confirmed alignment dLOF ends, and else a whole frame period of blocks is judged (04 R110, R124). -/
theorem doHuntBlock_of_hunting {p n : Nat} {x : Block} {d e : Dev} (hn : slotCols d.tab p = n) (hen : sltEn (d.tab.getSlt p) = true)
    (he : portEnabled d (prtOf p) = true) (hl : linesOff d = false) (hs : (d.getSlt p).rx.sync = false) (ha : (d.getPort (prtOf p)).loa = false)
    (h0 : n ≠ 0) (hx : updSRx p (huntStep n x) d = e) :
    doHuntBlock p x d =
      if (e.getSlt p).rx.sync = true then setDef p 2 false (clearHeldAn p e) else judgeFrame p ((e.getSlt p).rx.pos % (64 * n) == 0) e := by
  subst hn hx
  simp [doHuntBlock, hen, he, hl, hs, ha, h0]

/-! ### An aligned frame -/

@[simp] theorem fecCount_getSlt (n p : Nat) (x : FecRun) (d : Dev) : (fecCount n x d).getSlt p = d.getSlt p := rfl

@[simp] theorem fecCount_linesOff (n : Nat) (x : FecRun) (d : Dev) : linesOff (fecCount n x d) = linesOff d := rfl

@[simp] theorem markErr_length (err : List Nat) (bl : List Block) : (markErr err bl).length = bl.length := by simp [markErr]

theorem runs_slotFrameReceive {p : Nat} {bl : List Block} {x : FrameEnd} {s : State} {d : Dev} (hp : Powered s)
    (h : doSlotReceive p (markErr x.err bl) (!x.ok || !x.err.isEmpty) x.fec s.dev = d) : Runs (.slotFrameReceive p bl x) s d := runs_of hp rfl h

/-- The FC that a framer expects of a frame; the first after the hunt is the one whose FC confirmed the alignment (03 R90, 04 R110). -/
def SltRx.expect (r : SltRx) : Nat := if r.first then (r.fc + 2 ^ 64 - 1) % 2 ^ 64 else r.fc

/-- A frame arrives at an aligned framer: its codewords and its period count, and it may begin a multiframe (03 R92, R103; 04 R124; 12 R351). -/
def slotArrive (p expect : Nat) (fec : FecRun) (d : Dev) : Dev :=
  rxMultiframe p expect
    (updPm p (fun m => { m with periods := m.periods + 1 }) (updSRx p (fun r => { r with first := false }) (fecCount (prtOf p) fec d)))

/-- The alignment word in a frame's first block is errored: its F bit is 0, or more than three of its bits are wrong (04 R112). -/
def fawErrored (x : Block) : Bool := !blockF x || decide (3 < popN 64 (beAt (blockBytes x) 0 8 ^^^ slotFaw))

theorem fawErrored_iff {x : Block} : fawErrored x = true ↔ blockF x = false ∨ 3 < popN 64 (beAt (blockBytes x) 0 8 ^^^ slotFaw) := by
  simp [fawErrored]

theorem fawErrored_of_close {x : Block} (hf : blockF x = true) (h : popN 64 (beAt (blockBytes x) 0 8 ^^^ slotFaw) ≤ 3) : fawErrored x = false := by
  simp [fawErrored, hf, Nat.not_lt.mpr h]

/-- What a framer in the state `r` makes of a frame that has arrived, in test mode or not (03 R90; 04 R112, R124). -/
def slotFramed (p n : Nat) (test : Bool) (r : SltRx) (blocks : List Block) (uncorr : Bool) (d : Dev) : Dev :=
  let b := blockBytes (blocks.headD 0)
  let e := updSRx p (fun r => { r with fawErr := 0 }) d
  let f := slotJudge p n r.expect b r blocks uncorr e
  if fawErrored (blocks.headD 0) then slotFawBad p n r.expect r.hasPrev blocks d
  else if test then slotTest p n r.expect b r blocks uncorr e
  else slotTake p n r.expect f.1 (e.getSlt p).rx.an blocks f.2

/-- An aligned framer takes every whole frame of an enabled port (03 R90). -/
theorem doSlotReceive_of_aligned {p : Nat} {blocks : List Block} {uncorr : Bool} {fec : FecRun} {d : Dev} (hen : sltEn (d.tab.getSlt p) = true)
    (he : portEnabled d (prtOf p) = true) (hl : linesOff d = false) (hs : (d.getSlt p).rx.sync = true)
    (hb : blocks.length = 64 * slotCols d.tab p) (h0 : slotCols d.tab p ≠ 0) :
    doSlotReceive p blocks uncorr fec d = slotFramed p (slotCols d.tab p) (sltTest (d.tab.getSlt p)) (d.getSlt p).rx blocks uncorr
      (slotArrive p (d.getSlt p).rx.expect fec d) := by
  have hcount : (if (linesOff d || decide (slotCols d.tab p = 0)) = true then d else fecCount (prtOf p) fec d) = fecCount (prtOf p) fec d := by
    simp [hl, h0]
  have hopen : ¬(!sltEn (d.tab.getSlt p) || !portEnabled d (prtOf p) || linesOff d || !(d.getSlt p).rx.sync ||
      decide (blocks.length ≠ 64 * slotCols d.tab p)) = true := by
    simp [hen, he, hl, hs, hb]
  -- 2 ^ 64 stays as the model writes it, so that the two sides agree term by term
  simp only [doSlotReceive, hcount, fecCount_portEnabled, fecCount_linesOff, fecCount_getSlt, if_neg hopen, -Nat.reducePow]
  rfl

section
variable {p n : Nat} {test : Bool} {r : SltRx} {blocks : List Block} {uncorr : Bool} {d : Dev}

/-- A frame whose alignment word is errored counts as not received in alignment (04 R124, log entry 54). -/
theorem slotFramed_of_badFaw (h : fawErrored (blocks.headD 0) = true) :
    slotFramed p n test r blocks uncorr d = slotFawBad p n r.expect r.hasPrev blocks d := if_pos h

variable (h : fawErrored (blocks.headD 0) = false) {e : Dev} (he : updSRx p (fun r => { r with fawErr := 0 }) d = e)
include h he

/-- In test mode a frame in alignment is judged by its PRBS31 (04 R124). -/
theorem slotFramed_of_test (ht : test = true) :
    slotFramed p n test r blocks uncorr d = slotTest p n r.expect (blockBytes (blocks.headD 0)) r blocks uncorr e := by
  subst he
  rw [slotFramed, if_neg (Bool.eq_false_iff.mp h), if_pos ht]

/-- The tags of a frame in alignment judge the frame before, and its own header and clients are taken (03 R90, R94). -/
theorem slotFramed_of_clients (ht : test = false) {f : Bool × Dev}
    (hf : slotJudge p n r.expect (blockBytes (blocks.headD 0)) r blocks uncorr e = f) :
    slotFramed p n test r blocks uncorr d = slotTake p n r.expect f.1 (e.getSlt p).rx.an blocks f.2 := by
  subst he hf
  rw [slotFramed, if_neg (Bool.eq_false_iff.mp h), if_neg (Bool.eq_false_iff.mp ht)]

end

/-! ### Playout -/

theorem runs_portClientPlayout {p i : Nat} {s : State} {d : Dev} (hp : Powered s) (h : doPlayout p i s.dev = d) :
    Runs (.portClientPlayout p i) s d := runs_of hp rfl h

/-- The playout buffer of client `i` is emptied by a run of blocks that leaves the client inside a packet or not; each block takes one free
choice (03 R97, log entry 47). -/
def playDrain (p i : Nat) (inside : Bool) (l : List Block) (d : Dev) : Dev :=
  { updSRx p (fun r => { r with buf := Tab.set [] r.buf i [], playIn := Tab.set false r.playIn i inside }) d with fresh := d.fresh + l.length }

@[simp] theorem playDrain_suppressed (p i q : Nat) (inside : Bool) (l : List Block) (d : Dev) :
    suppressed q (playDrain p i inside l d) = suppressed q d := rfl

/-- Clear port `q` sends the `adapted` form of the verified blocks `l`, in 66-bit blocks where it has no RS-FEC; or idle in their place, with
their packets counted (03 R78, R97; 09 R238). -/
def playSend (q : Nat) (l adapted : List Block) (d : Dev) : Dev :=
  if suppressed q d then lineEmit q (.idle q) (d.updTwn q (fun t => { t with suppress := sat64 (t.suppress + packetStarts l) }))
  else lineEmit q (.client q (if plain66 d.tab q then spread66 adapted else adapted)) d

section
variable {p i e q : Nat} {d : Dev} (he : Tab.get 0 (d.tab.getSlt p).rxClient i = e) (hq : rxClear d.tab e = q)
  (hen : sltEn (d.tab.getSlt p) = true) (ht : cliType e = 1) (hport : portEnabled d q = true) (hlive : portDead d q = false)
  (hm : memberPlays (cliChid e) d = true)
include he hq hen ht hport hlive hm

/-- A client in defect, behind a fence or with nothing verified yet plays local fault (04 R117, 09 R247). -/
theorem doPlayout_of_fault
    (h : clientFault p i d = true ∨ d.twn.chFence.contains (cliChid e) = true ∨ Tab.get false (d.getSlt p).rx.play i = false) :
    doPlayout p i d = lineEmit q (.localFault q) (updSRx p (fun r => { r with playIn := Tab.set false r.playIn i false }) d) := by
  subst he hq
  have hfault : (clientFault p i d || d.twn.chFence.contains (cliChid (Tab.get 0 (d.tab.getSlt p).rxClient i)) ||
      !Tab.get false (d.getSlt p).rx.play i) = true := by
    simpa only [Bool.or_assoc, Bool.or_eq_true, Bool.not_eq_true'] using h
  simp only [doPlayout, ht, hen, hport, hlive, hm, hfault]
  rfl

/-- A client in no defect that plays has its buffer emptied onto its clear port (03 R97). -/
theorem doPlayout_of_playing (hc : clientFault p i d = false) (hfence : d.twn.chFence.contains (cliChid e) = false)
    (hplay : Tab.get false (d.getSlt p).rx.play i = true) {l : List Block} (hbuf : Tab.get [] (d.getSlt p).rx.buf i = l)
    {a : List Block × Bool} (ha : adaptIdle d.fresh (Tab.get false (d.getSlt p).rx.playIn i) l = a) :
    doPlayout p i d = playSend q l a.1 (playDrain p i a.2 l d) := by
  subst he hq hbuf ha
  simp only [doPlayout, ht, hen, hport, hlive, hm, hc, hfence, hplay]
  rfl

end

/-- A port that sends no received traffic plays idle and counts the packets that it withholds (09 R238). -/
theorem playSend_of_suppressed {q : Nat} {l adapted : List Block} {d : Dev} (h : suppressed q d = true) :
    playSend q l adapted d = lineEmit q (.idle q) (d.updTwn q (fun t => { t with suppress := sat64 (t.suppress + packetStarts l) })) := if_pos h

theorem playSend_of_sending {q : Nat} {l adapted : List Block} {d : Dev} (h : suppressed q d = false) :
    playSend q l adapted d = lineEmit q (.client q (if plain66 d.tab q then spread66 adapted else adapted)) d := if_neg (Bool.eq_false_iff.mp h)

/-- Settles O11: a hunting framer takes its block; an aligned framer's frame goes by its alignment word and the port's mode; a client's playout
goes by its defects, its fence and the shadow's clear ports. -/
theorem slotReceiving : Obligations.SlotReceiving := by
  unfold Obligations.SlotReceiving
  refine fun s hp p hen he hl => ⟨fun x hs ha h0 => ?hunt, fun bl x hs hb h0 => ?frame, fun i => ?playout⟩
  case hunt => exact runs_huntBlock hp (doHuntBlock_of_hunting rfl hen he hl hs ha h0 rfl)
  case frame =>
    have hrun : ∀ d : Dev, slotFramed p (slotCols s.dev.tab p) (sltTest (s.dev.tab.getSlt p)) (s.dev.getSlt p).rx (markErr x.err bl)
        (!x.ok || !x.err.isEmpty) (slotArrive p (s.dev.getSlt p).rx.expect x.fec s.dev) = d → Runs (.slotFrameReceive p bl x) s d := fun d h =>
      runs_slotFrameReceive hp ((doSlotReceive_of_aligned hen he hl hs ((markErr_length x.err bl).trans hb) h0).trans h)
    refine ⟨fun hframe hword => ⟨fun ht => ?test, fun ht => ?clients⟩, fun h => ?badFaw⟩
    case test => exact hrun _ (slotFramed_of_test (fawErrored_of_close hframe hword) rfl ht)
    case clients => exact hrun _ (slotFramed_of_clients (fawErrored_of_close hframe hword) rfl ht rfl)
    case badFaw => exact hrun _ (slotFramed_of_badFaw (fawErrored_iff.mpr h))
  case playout =>
    intro e q l a ht hport hlive hm
    refine ⟨fun h => ?fault, fun hc hfence hplay => ?playing⟩
    case fault => exact runs_portClientPlayout hp (doPlayout_of_fault rfl rfl hen ht hport hlive hm h)
    case playing =>
      have hrun : ∀ d : Dev, playSend q l a.1 (playDrain p i a.2 l s.dev) = d → Runs (.portClientPlayout p i) s d := fun d h =>
        runs_portClientPlayout hp ((doPlayout_of_playing rfl rfl hen ht hport hlive hm hc hfence hplay rfl rfl).trans h)
      refine ⟨fun hs => ?suppressed, fun hs => ?sending⟩
      case suppressed => exact hrun _ (playSend_of_suppressed ((playDrain_suppressed p i q a.2 l s.dev).trans hs))
      case sending => exact hrun _ (playSend_of_sending ((playDrain_suppressed p i q a.2 l s.dev).trans hs))

end Sys2Proof.Machine

/-! SUPPORT. The legal configuration along a step: the rows that write a locked register keep it legal, and every other row leaves it as it is
(05 R157, 07 R201, 08 R218, 11 R322, R325). -/

namespace Sys2Proof.Machine

/-- Command `i` at `s` runs, to a device whose configuration is legal. -/
def RunsLegal (i : Instr) (s : State) : Prop := ∃ d : Dev, Runs i s d ∧ d.locks.Ok

theorem ite_locks_ok {c : Prop} [Decidable c] {a b : Dev} (ha : a.locks.Ok) (hb : b.locks.Ok) : (if c then a else b).locks.Ok := by
  split
  · exact ha
  · exact hb

section
variable {i : Instr} {s : State} (hs : Inv s)
include hs

theorem runsLegal_of_locks {d : Dev} (hx : Runs i s d) (h : d.locks = s.dev.locks) : RunsLegal i s := ⟨d, hx, h ▸ hs⟩

variable {f : Dev → Dev} (hf : ∀ d : Dev, d.locks.Ok → (f d).locks.Ok)
include hf

theorem runsLegal_of_doneAlways (hx : exec i s = doneAlways s f) : RunsLegal i s := ⟨f s.dev, hx, hf s.dev hs⟩

theorem runsLegal_of_done (hx : exec i s = done s f) : RunsLegal i s := ⟨_, hx, ite_locks_ok hs (hf s.dev hs)⟩

theorem runsLegal_of_doneReg (hx : exec i s = doneReg s f) : RunsLegal i s := ⟨_, hx, ite_locks_ok hs (ite_locks_ok hs (hf s.dev hs))⟩

end

/-- On the return to D0 the commands that waited for host memory are submitted, and no submission changes the configuration (13 R363). -/
theorem powerStateD3hot_runsLegal (on : Bool) {s : State} (hs : Inv s) : RunsLegal (.powerStateD3hot on) s := by
  refine runsLegal_of_locks hs rfl ?_
  dsimp only
  split
  · rfl
  · cases on with
    | true => rfl
    | false => exact each_locks _ _ _ fun x d => submitOrFault_locks x.2.1 x.2.2 x.1 d

theorem freezeSealTimeout_runsLegal (p : Nat) {s : State} (hs : Inv s) : RunsLegal (.freezeSealTimeout p) s := by
  refine runsLegal_of_locks hs rfl ?_
  dsimp only
  split
  · rfl
  · split
    · exact formRec_locks ..
    · rfl

/-- The ESEQ of a mesh-wide zeroise that the row does not name is drawn (log entry 15). -/
theorem zeroise_runsLegal (j origin reason hops : Nat) {s : State} (hs : Inv s) : RunsLegal (.zeroise j origin reason hops) s :=
  ⟨_, rfl, ite_locks_ok hs (zeroiseIn_ok j origin hops _ _ _ ((freeNat_locks s.dev).symm ▸ hs))⟩

/-- Every command runs from a legal configuration to a legal one. The rows named here reset the device, destroy the root of the memory's protection
(a zeroise, in each of its origins), or may write a register of the configuration; no other row touches it. -/
theorem exec_runsLegal (i : Instr) (s : State) (hs : Inv s) : RunsLegal i s := by
  cases i
  -- resets
  case coldReset => exact runsLegal_of_doneAlways hs (fun d _ => resetDev_ok true 0 d) rfl
  case modReset r v => exact runsLegal_of_done hs (modResetWrite_ok r v) rfl
  case bistComplete pass cls unit => exact runsLegal_of_done hs (doBistDone_ok pass cls unit) rfl
  -- zeroise
  case tamperAssert => exact runsLegal_of_doneAlways hs doTamper_ok rfl
  case modZeroiseLocal r => exact runsLegal_of_done hs (zeroiseWrite_ok r 0x5A3E0001) rfl
  case modZeroiseMesh r => exact runsLegal_of_done hs (zeroiseWrite_ok r 0x5A3E0002) rfl
  case holpenFrame j bytes => exact runsLegal_of_done hs (doHolpenFrame_ok j bytes) rfl
  case zeroise j origin reason hops => exact zeroise_runsLegal j origin reason hops hs
  -- the life cycle and its fuses
  case enrolDone r => exact runsLegal_of_done hs (lcReqWrite_ok r 1) rfl
  case lcSeal r => exact runsLegal_of_done hs (lcReqWrite_ok r 2) rfl
  case lcReturn r => exact runsLegal_of_done hs (lcReqWrite_ok r 3) rfl
  case scrap r => exact runsLegal_of_done hs (lcReqWrite_ok r 4) rfl
  case fuseOwner r => exact runsLegal_of_done hs (lcReqWrite_ok r 5) rfl
  case fuseOwneronly r => exact runsLegal_of_done hs (lcReqWrite_ok r 6) rfl
  case fuseBlowComplete ok => exact runsLegal_of_done hs (doFuseBlow_ok ok) rfl
  -- the locked registers, by their rows and by an access to the register map
  case sasColdLock v => exact runsLegal_of_doneReg hs (coldCfgWrite_ok v) rfl
  case mecCfgLock v => exact runsLegal_of_doneReg hs (mecCfgWrite_ok v) rfl
  case mecInitComplete => exact runsLegal_of_done hs doMecInit_ok rfl
  case registerWrite r a v => exact runsLegal_of_done hs (doRegisterWrite_ok r a v) rfl
  case sb c rs ra imm => exact runsLegal_of_done hs (storeOp_ok 0x18 1 c rs ra imm) rfl
  case sh c rs ra imm => exact runsLegal_of_done hs (storeOp_ok 0x19 2 c rs ra imm) rfl
  case sw c rs ra imm => exact runsLegal_of_done hs (storeOp_ok 0x1A 4 c rs ra imm) rfl
  case sd c rs ra imm => exact runsLegal_of_done hs (storeOp_ok 0x1B 8 c rs ra imm) rfl
  case amoswap c rd ra rb => exact runsLegal_of_done hs (atomOp_ok _ _ c rd ra rb) rfl
  case amoadd c rd ra rb => exact runsLegal_of_done hs (atomOp_ok _ _ c rd ra rb) rfl
  case amoand c rd ra rb => exact runsLegal_of_done hs (atomOp_ok _ _ c rd ra rb) rfl
  case amoor c rd ra rb => exact runsLegal_of_done hs (atomOp_ok _ _ c rd ra rb) rfl
  case cas c rd ra rb => exact runsLegal_of_done hs (atomOp_ok _ _ c rd ra rb) rfl
  -- rows that do not touch it, by the `_locks` lemma of their operation
  case powerStateD3hot on => exact powerStateD3hot_runsLegal on hs
  case freezeSealTimeout p => exact freezeSealTimeout_runsLegal p hs
  all_goals exact runsLegal_of_locks hs rfl (by simp)

/-- Settles O59: every register of the legal configuration has its reset value. -/
theorem legalAtReset : Obligations.LegalAtReset := freshLocks_ok _ rfl rfl rfl rfl rfl rfl rfl

/-- Settles O60: a tick leaves the configuration as it is, and a command runs to a legal one. -/
theorem legalConfigurationKept : Obligations.LegalConfigurationKept := by
  unfold Obligations.LegalConfigurationKept
  intro s t hs ht
  unfold step at ht
  split at ht
  case h_1 hq =>
    obtain rfl := Host.Outcome.next.inj ht
    change (tick s.dev).locks.Ok
    exact (tick_locks s.dev).symm ▸ hs
  case h_2 c rest hq =>
    obtain ⟨d, hx, hd⟩ := exec_runsLegal c { s with pending := rest } hs
    obtain rfl := Host.Outcome.next.inj (hx.symm.trans ht)
    exact hd

end Sys2Proof.Machine

/-! SUPPORT. Staging, loading and parking of SAs: commands past their refusals, the accesses to a cold entry, and what SA_LOAD and SA_PARK make of the
entry that they name (05 R140 to R143, R151, R156 to R159; 11 R332). -/

namespace Sys2Proof.Machine

/-! ### Commands past their refusals -/

/-- A gated command of a running slice that no row of its refusal list meets is carried out (05 R143). -/
theorem gated_of_clear {n : Nat} {b : Sub} {l : List (Bool × Nat)} {f : Dev → Dev} {d : Dev} (hs : sliceDown d n = false)
    (h : ∀ c ∈ l, c.1 = false) : inSlice n b (guards b l f) d = f d := by
  rw [inSlice_of_up hs]
  induction l with
  | nil => rfl
  | cons c l ih =>
    obtain ⟨c, st⟩ := c
    obtain ⟨rfl, hl⟩ : c = false ∧ ∀ c ∈ l, c.1 = false := by simpa using h
    exact ih hl

@[simp] theorem eguards_nil (b : Sub) (eng : Nat) (f : Dev → Dev) (d : Dev) : eguards b eng [] f d = f d := rfl

@[simp] theorem eguards_cons (b : Sub) (eng : Nat) (c : Bool) (st : Nat) (l : List (Bool × Nat)) (f : Dev → Dev) (d : Dev) :
    eguards b eng ((c, st) :: l) f d = if c = true then complete b eng st [] d else eguards b eng l f d := rfl

/-! ### Cold entries -/

section
variable {i : Nat} {f : ColdEnt → ColdEnt} {d o : Dev}

theorem coldWrite_of_open (h : coldOpen i d = (true, o)) : coldWrite i f d = (true, o.updCold i f) := by simp [coldWrite, h]

theorem coldWrite_of_failed (h : coldOpen i d = (false, o)) : coldWrite i f d = (false, coldFail i o) := by simp [coldWrite, h]

end

/-! ### Staging -/

/-- The buffer that SA_STAGE fills from an image and a ticket (05 R140, R142). -/
def ticketBuf (b : Sub) (image : Bytes) (t : Ticket) : StageBuf :=
  let dir := fld (byteAt image 0) 0 0
  let suite := fld (byteAt image 0) 5 4
  let lim := stagedLimits dir suite (leAt image 32 8) (leAt image 40 8)
  { state := 1, src := 0, sub := some b,
    image := { state := .basting, dir := dir, suite := suite, ssci := leAt image 4 4, salt := leAt image 8 12, key := t.key },
    live := { nextPn := leAt image 24 8, softPn := lim.1, hardPn := lim.2 } }

theorem doSaStage_of_ticket {b : Sub} {buf ticket : Nat} {image : Bytes} {t : Ticket} {d : Dev} (hb : (d.getStage buf).state = 0)
    (ht : d.keys.tickets.find? (fun t => t.handle == ticket) = some t) (hf : fld (byteAt image 0) 0 0 = 0 → t.fresh = true)
    (hk : t.key.length = suiteKeyLen (fld (byteAt image 0) 5 4))
    (hl : badStagedLimits (fld (byteAt image 0) 0 0) (fld (byteAt image 0) 5 4) (leAt image 24 8) (ticketBuf b image t).live.softPn
      (ticketBuf b image t).live.hardPn = false) :
    doSaStage b buf ticket image d =
      ({ d with keys := { d.keys with tickets := d.keys.tickets.filter (fun t => t.handle != ticket) } } : Dev).setStage buf
        (ticketBuf b image t) := by
  have hfresh : (fld (byteAt image 0) 0 0 == 0 && !t.fresh) = false := by simpa using hf
  have hlim : badStagedLimits (fld (byteAt image 0) 0 0) (fld (byteAt image 0) 5 4) (leAt image 24 8)
      (stagedLimits (fld (byteAt image 0) 0 0) (fld (byteAt image 0) 5 4) (leAt image 32 8) (leAt image 40 8)).1
      (stagedLimits (fld (byteAt image 0) 0 0) (fld (byteAt image 0) 5 4) (leAt image 32 8) (leAt image 40 8)).2 = false := hl
  simp [doSaStage, hb, ht, hfresh, hk, hlim, ticketBuf]

/-- The buffer that SA_STAGEPIN fills from the cold entry `e` of index `cold` (05 R140, R158). -/
def coldBuf (b : Sub) (cold : Nat) (e : ColdEnt) : StageBuf :=
  { state := 1, src := 1, sub := some b,
    image := { state := .basting, dir := e.dir, suite := e.suite, ssci := e.ssci, salt := e.salt, key := e.key, coldIdx := some cold },
    live := { nextPn := e.nextPn, softPn := e.softPn, hardPn := e.hardPn, ctr := e.ctr } }

theorem doSaStagepin_of_open {b : Sub} {buf cold : Nat} {d o : Dev} (hb : (d.getStage buf).state = 0) (hc : coldHas cold d = true)
    (he : (d.getCold cold).state = 1) (ho : coldOpen cold d = (true, o)) :
    doSaStagepin b buf cold d = (o.updCold cold (fun e => { e with state := 2, stage := buf })).setStage buf (coldBuf b cold (d.getCold cold)) := by
  simp [doSaStagepin, hb, hc, he, coldWrite_of_open ho, coldBuf]

theorem doStageFill_of_ticket {b : Sub} {buf : Nat} {d : Dev} (hb : (d.getStage buf).state = 1) (hsrc : (d.getStage buf).src = 0)
    (hsub : (d.getStage buf).sub = some b) :
    doStageFill buf false d = complete b 3 stOK [] (d.setStage buf { d.getStage buf with state := 2, sub := none }) := by
  simp [doStageFill, hb, hsrc, hsub]

section
variable {b : Sub} {cold : Nat} {d o : Dev} (hc : coldHas cold d = true) (he : (d.getCold cold).state = 1 ∨ (d.getCold cold).state = 4)
include hc he

theorem doColdErase_of_open (ho : coldOpen cold d = (true, o)) : doColdErase b cold d = complete b 3 stOK [] (o.updCold cold (fun _ => {})) := by
  obtain he | he := he <;> simp [doColdErase, hc, he, coldWrite_of_open ho]

theorem doColdErase_of_failed (ho : coldOpen cold d = (false, o)) : doColdErase b cold d = complete b 3 stCOLD_FAULT [] (coldFail cold o) := by
  obtain he | he := he <;> simp [doColdErase, hc, he, coldWrite_of_failed ho]

end

/-! ### SA_LOAD -/

/-- The slot holds what the buffer `x` staged (05 R141). -/
def loadSlot (slot : Nat) (x : StageBuf) (d : Dev) : Dev :=
  (d.updTab (Tables.updSa slot (fun _ => { x.image with pinned := x.src == 1 }))).updLive slot (fun _ => x.live)

/-- A cold entry that was staged is PINNED to the slot; where its access fails, the slot stops (05 R158, R159). -/
def pinSlot (slot : Nat) (x : StageBuf) (d : Dev) : Dev :=
  match x.src, x.image.coldIdx with
  | 1, some i =>
    let r := coldWrite i (fun e => { e with state := 3, stage := 0, slot := slot }) d
    if r.1 then r.2 else stopSlot_ slot r.2
  | _, _ => d

section
variable {slot i : Nat} {x : StageBuf} {d o : Dev}

theorem pinSlot_of_ticket (hx : x.src = 0) : pinSlot slot x d = d := by simp [pinSlot, hx]

variable (hx : x.src = 1) (hi : x.image.coldIdx = some i)
include hx hi

theorem pinSlot_of_open (ho : coldOpen i d = (true, o)) :
    pinSlot slot x d = o.updCold i (fun e => { e with state := 3, stage := 0, slot := slot }) := by
  simp [pinSlot, hx, hi, coldWrite_of_open ho]

theorem pinSlot_of_failed (ho : coldOpen i d = (false, o)) : pinSlot slot x d = stopSlot_ slot (coldFail i o) := by
  simp [pinSlot, hx, hi, coldWrite_of_failed ho]

end

section
variable {b : Sub} {slot buf : Nat} {d : Dev} (hs : sliceDown d (slotSlice slot) = false)
include hs

theorem doSaLoad_of_taken (h : (d.tab.getSa slot).state ≠ .free) : doSaLoad b slot buf d = gateDone b stIN_USE [] d := by
  simp [doSaLoad, inSlice_of_up hs, h]

variable (hfree : (d.tab.getSa slot).state = .free)
include hfree

theorem doSaLoad_of_unstaged (h : (d.getStage buf).state ≠ 2) : doSaLoad b slot buf d = gateDone b stNOT_STAGED [] d := by
  simp [doSaLoad, inSlice_of_up hs, hfree, h]

variable (hready : (d.getStage buf).state = 2)
include hready

theorem doSaLoad_of_otherSlice (h : buf % 8 ≠ slotSlice slot) : doSaLoad b slot buf d = gateDone b stBAD_SLOT [] d := by
  simp [doSaLoad, inSlice_of_up hs, hfree, hready, h]

variable (hbuf : buf % 8 = slotSlice slot)
include hbuf

/-- A transmit SA's SSCI is even on side 0 and odd on side 1 (05 R156). -/
theorem doSaLoad_of_badSsci (hdir : (d.getStage buf).image.dir = 0) (h : (d.getStage buf).image.ssci % 2 ≠ d.tab.side) :
    doSaLoad b slot buf d = gateDone b stBAD_SSCI [] d := by
  simp [doSaLoad, inSlice_of_up hs, hfree, hready, hbuf, hdir, h]

theorem doSaLoad_of_ready (h : (d.getStage buf).image.dir = 0 → (d.getStage buf).image.ssci % 2 = d.tab.side) :
    doSaLoad b slot buf d = gateDone b stOK []
      (softCheck slot ((pinSlot slot (d.getStage buf) (loadSlot slot (d.getStage buf) d)).setStage buf {})) :=
  gated_of_clear hs (by simp [hfree, hready, hbuf]; exact h)

end

/-! ### SA_PARK -/

/-- An entry takes a parked slot when it is EMPTY or PINNED to that slot (05 R158). -/
def parksIn (slot : Nat) (e : ColdEnt) : Bool := e.state == 0 || (e.state == 3 && e.slot == slot)

/-- The slot is PARKING, and its write-back to the entry `cold` waits (05 R143, R158). -/
def startPark (b : Sub) (slot cold : Nat) (d : Dev) : Dev :=
  let d := d.updTab (Tables.updSa slot (fun x => { x with state := .parking }))
  { d with sas := { d.sas with parks := d.sas.parks ++ [(slot, cold, b, d.tck.tno)] } }

section
variable {b : Sub} {slot cold : Nat} {d o : Dev} (hs : sliceDown d (slotSlice slot) = false) (hb : (d.tab.getSa slot).state = .basting)
  (ha : (d.tab.getSa slot).att = false) (hc : coldHas cold d = true)
include hs hb ha hc

theorem doSaPark_of_inUse (h : parksIn slot (d.getCold cold) = false) : doSaPark b slot cold d = gateDone b stIN_USE [] d := by
  rw [parksIn] at h
  simp [doSaPark, inSlice_of_up hs, hb, ha, hc, h]

variable (he : parksIn slot (d.getCold cold) = true)
include he

theorem doSaPark_of_open (ho : coldOpen cold d = (true, o)) : doSaPark b slot cold d = startPark b slot cold o := by
  rw [parksIn] at he
  simp [doSaPark, inSlice_of_up hs, hb, ha, hc, he, ho, startPark]

theorem doSaPark_of_failed (ho : coldOpen cold d = (false, o)) : doSaPark b slot cold d = gateDone b stCOLD_FAULT [] (coldFail cold o) := by
  rw [parksIn] at he
  simp [doSaPark, inSlice_of_up hs, hb, ha, hc, he, ho]

end

/-- The entry that holds a parked SA (05 R158). -/
def parkedEnt (sa : SaStat) (l : SaLive) : ColdEnt :=
  { state := 1, nextPn := l.nextPn, softPn := l.softPn, hardPn := l.hardPn, ssci := sa.ssci, salt := sa.salt, dir := sa.dir, suite := sa.suite,
    key := sa.key, ctr := l.ctr }

theorem doParkWriteback_of_open {b : Sub} {slot cold tack : Nat} {d o : Dev}
    (hk : d.sas.parks.find? (fun k => k.1 == slot) = some (slot, cold, b, tack))
    (ho : coldOpen cold { d with sas := { d.sas with parks := d.sas.parks.filter (fun k => k.1 != slot) } } = (true, o)) :
    doParkWriteback slot d =
      gateLate b tack stOK [] (freeSlot slot (o.updCold cold (fun _ => parkedEnt (d.tab.getSa slot) (d.getLive slot)))) := by
  simp [doParkWriteback, hk, coldWrite_of_open ho, parkedEnt]

/-- Settles O5: staging fills a buffer; a load and a park go by the first refusal that holds, and then by the access to their cold entry. -/
theorem saLoading : Obligations.SaLoading := by
  unfold Obligations.SaLoading
  refine ⟨fun s hp b buf => ?staging, fun s hp b slot buf hs => ?load, fun s hp b slot cold o =>
    ⟨fun hs hb ha hc => ?park, fun tack hk => ?writeback⟩⟩
  case staging =>
    refine ⟨fun ticket image t hb ht => ?stage, fun cold o hb hc he ho => ?pin, fun hb hsrc hsub => ?fill, runs_of hp rfl rfl,
      fun cold o hc he => ⟨fun ho => ?erased, fun ho => ?eraseFailed⟩⟩
    case stage =>
      intro dir suite next lim hf hk hl
      exact runs_of hp rfl (doSaStage_of_ticket hb ht hf hk hl)
    case pin => exact runs_of hp rfl (doSaStagepin_of_open hb hc he ho)
    case fill => exact runs_of hp rfl (doStageFill_of_ticket hb hsrc hsub)
    case erased => exact runs_of hp rfl (doColdErase_of_open hc he ho)
    case eraseFailed => exact runs_of hp rfl (doColdErase_of_failed hc he ho)
  case load =>
    intro x free
    have hfree : free = true → (s.dev.tab.getSa slot).state = .free := fun h => by simpa [free] using h
    refine ⟨⟨fun h => ?taken, fun h hx => ?unstaged, fun h hx hbuf => ?otherSlice, fun h hx hbuf hdir hssci => ?badSsci⟩,
      fun h hx hbuf hssci => ?ready⟩
    case taken => exact runs_of hp rfl (doSaLoad_of_taken hs (by simpa [free] using h))
    case unstaged => exact runs_of hp rfl (doSaLoad_of_unstaged hs (hfree h) hx)
    case otherSlice => exact runs_of hp rfl (doSaLoad_of_otherSlice hs (hfree h) hx hbuf)
    case badSsci => exact runs_of hp rfl (doSaLoad_of_badSsci hs (hfree h) hx hbuf hdir hssci)
    case ready =>
      have hrun : ∀ e : Dev, pinSlot slot x (loadSlot slot x s.dev) = e →
          Runs (.saLoad b slot buf) s (gateDone b stOK [] (softCheck slot (e.setStage buf {}))) := fun e he =>
        runs_of hp rfl (he ▸ doSaLoad_of_ready hs (hfree h) hx hbuf hssci)
      refine ⟨fun hsrc => ?ticket, fun i o hsrc hi => ⟨fun ho => ?pinned, fun ho => ?stopped⟩⟩
      case ticket => exact hrun _ (pinSlot_of_ticket hsrc)
      case pinned => exact hrun _ (pinSlot_of_open hsrc hi ho)
      case stopped => exact hrun _ (pinSlot_of_failed hsrc hi ho)
  case park =>
    refine ⟨fun he => ⟨fun ho => ?parking, fun ho => ?failed⟩, fun h0 h3 => ?inUse⟩
    case parking => exact runs_of hp rfl (doSaPark_of_open hs hb ha hc (by simpa [parksIn] using he) ho)
    case failed => exact runs_of hp rfl (doSaPark_of_failed hs hb ha hc (by simpa [parksIn] using he) ho)
    case inUse => exact runs_of hp rfl (doSaPark_of_inUse hs hb ha hc (by simpa [parksIn, h0] using h3))
  case writeback =>
    intro sa l d ho
    exact runs_of hp rfl (doParkWriteback_of_open hk ho)

end Sys2Proof.Machine

/-! SUPPORT. Windows and the attaching of SAs: the two commands of a window block, the window that an SA_ATTACH may name, and the steps of
SA_ACTIVATE (05 R138, R139, R143, R159; 09 R241). -/

namespace Sys2Proof.Machine

/-! ### Window blocks -/

theorem doWinCreate_of_free {b : Sub} {w chid : Nat} {d : Dev} (hs : sliceDown d (slotSlice w) = false)
    (hfree : ∀ x ∈ winSlotsIn w, (d.tab.getSa x).state = .free) (hw : w % 16384 ≤ 16379) (hrc : isRc chid = true)
    (hkind : (d.tab.getChn chid).kind = 0) (hchan : chSlice chid = slotSlice w) :
    doWinCreate b w chid d = gateDone b stOK []
      ((each (winSlots w) (fun x d => d.updTab (Tables.updSa x (fun _ => { state := .window, win := some (w % 16384) }))) d).updWin w
        (fun _ => { w := (d.tab.getChn chid).replayW })) :=
  gated_of_clear hs (by simpa [hrc, hkind, hchan, hw] using hfree)

theorem doWinErase_of_empty {b : Sub} {w : Nat} {d : Dev} (hs : sliceDown d (slotSlice w) = false) (hw : isHeader d.tab w = true)
    (hm : (d.getWin w).members = 0) :
    doWinErase b w d = gateDone b stOK [] ((each (winSlots w) (fun x d => d.updTab (Tables.updSa x (fun _ => {}))) d).updWin w (fun _ => {})) :=
  gated_of_clear hs (by simp [hw, hm])

/-! ### The window that an SA_ATTACH names -/

/-- Window `w` may take an SA of the AN `an` and the suite `suite` on the receive channel `chid`: its SAs have that AN, that suite and the channel's
merge group, and no SA of that AN in the group names another window (05 R139, 09 R241). -/
def WindowTakes (t : Tables) (chid an suite w : Nat) : Prop :=
  (∀ e ∈ winNamers t w, e.2.an = an ∧ sameGroup t chid e.2.chid = true ∧ e.2.suite = suite) ∧
  ∀ e ∈ t.sa, e.2.att = true → e.2.dir = 1 → e.2.an = an → e.2.chid ≠ chid → sameGroup t chid e.2.chid = true →
    winOf e.1 e.2 = none ∨ winOf e.1 e.2 = some w

section
variable {t : Tables} {chid an : Nat}

/-- Only a receive SA of a KIND 0 channel names a window (05 R139). -/
theorem badWindow_none : badWindow t chid an none = (isRc chid && (t.getChn chid).kind == 0) := rfl

theorem badWindow_some_of_unneeded {w : Nat} (h : isRc chid = false ∨ (t.getChn chid).kind ≠ 0) : badWindow t chid an (some w) = true := by
  obtain h | h := h <;> simp [badWindow, h]

theorem badWindow_some_of_elsewhere {w : Nat} (h : isHeader t w = false ∨ slotSlice w ≠ chSlice chid) : badWindow t chid an (some w) = true := by
  obtain h | h := h <;> simp [badWindow, h]

theorem badWindow_of_takes {w suite : Nat} (hrc : isRc chid = true) (hkind : (t.getChn chid).kind = 0) (hw : isHeader t w = true)
    (hslice : slotSlice w = chSlice chid) (h : WindowTakes t chid an suite w) : badWindow t chid an (some w) = false := by
  obtain ⟨hn, hg⟩ := h
  have hnamers : (winNamers t w).any (fun e => e.2.an != an || !sameGroup t chid e.2.chid) = false := by
    simp only [List.any_eq_false]
    intro e he
    obtain ⟨han, hsame, -⟩ := hn e he
    simp [han, hsame]
  have hothers : t.sa.any (fun e => e.2.att && e.2.dir == 1 && e.2.an == an && e.2.chid != chid && sameGroup t chid e.2.chid
      && (winOf e.1 e.2).isSome && winOf e.1 e.2 != some w) = false := by
    simp only [List.any_eq_false]
    intro e he hbad
    simp only [Bool.and_eq_true, beq_iff_eq, bne_iff_ne] at hbad
    obtain ⟨⟨⟨⟨⟨⟨hatt, hdir⟩, han⟩, hne⟩, hsame⟩, hwin⟩, hother⟩ := hbad
    obtain hnone | hsome := hg e he hatt hdir han hne hsame
    · simp [hnone] at hwin
    · exact hother hsome
  simp [badWindow, hrc, hkind, hw, hslice, hnamers, hothers]

end

/-! ### SA_ATTACH -/

/-- The SA in `slot` is attached to `chid` under `an`, with its window (05 R143). -/
def joinChan (slot chid an : Nat) (win : Option Nat) (d : Dev) : Dev :=
  d.updTab (fun t => (t.updChn chid (fun c => { c with anSlot := Tab.set none c.anSlot an (some (slot % 16384)) })).updSa slot
    (fun x => { x with att := true, an := an, chid := chid, win := win.map (· % 16384) }))

section
variable {b : Sub} {slot chid an : Nat} {d : Dev} (hs : sliceDown d (slotSlice slot) = false) (hb : (d.tab.getSa slot).state = .basting)
  (ha : (d.tab.getSa slot).att = false) (hchan : chSlice chid = slotSlice slot) (hdir : ((d.tab.getSa slot).dir == 1) = isRc chid)
  (hfree : anSlotOf d.tab chid an = none)
include hs hb ha hchan hdir hfree

theorem doSaAttach_of_badWindow {win : Option Nat} (h : badWindow d.tab chid an win = true) :
    doSaAttach b slot chid an win d = gateDone b stBAD_SLOT [] d := by
  simp [doSaAttach, inSlice_of_up hs, hb, ha, hchan, hdir, hfree, h]

/-- Suites 2 and 3 are not for the channels of Slot mode (05 Table 05-4). -/
theorem doSaAttach_of_badSuite (hw : badWindow d.tab chid an none = false) (h2 : 2 ≤ (d.tab.getSa slot).suite)
    (hk : (d.tab.getChn chid).kind ≠ 0) : doSaAttach b slot chid an none d = gateDone b stBAD_SUITE [] d := by
  simp [doSaAttach, inSlice_of_up hs, hb, ha, hchan, hdir, hfree, hw, h2, hk]

theorem doSaAttach_of_badLimit (hw : badWindow d.tab chid an none = false) (hk : (d.tab.getChn chid).kind = 0) (h : (d.getLive slot).nextPn = 0) :
    doSaAttach b slot chid an none d = gateDone b stBAD_LIMIT [] d := by
  simp [doSaAttach, inSlice_of_up hs, hb, ha, hchan, hdir, hfree, hw, hk, h]

variable (hsuite : 2 ≤ (d.tab.getSa slot).suite → (d.tab.getChn chid).kind = 0)
include hsuite

variable (hpn : (d.tab.getChn chid).kind = 0 → (d.getLive slot).nextPn ≠ 0)
include hpn

theorem doSaAttach_of_bare (hw : badWindow d.tab chid an none = false) :
    doSaAttach b slot chid an none d = gateDone b stOK [] (joinChan slot chid an none d) :=
  gated_of_clear hs (by simp [hb, ha, hchan, hdir, hfree, hw]; exact ⟨hsuite, hpn⟩)

theorem doSaAttach_of_window {w : Nat} (hw : badWindow d.tab chid an (some w) = false)
    (h : ∀ e ∈ winNamers d.tab w, e.2.suite = (d.tab.getSa slot).suite) :
    doSaAttach b slot chid an (some w) d =
      gateDone b stOK [] ((joinChan slot chid an (some w) d).updWin w (fun x => { x with members := x.members + 1 })) :=
  gated_of_clear hs (by simp [hb, ha, hchan, hdir, hfree, hw]; exact ⟨⟨hsuite, fun a x hx => h (a, x) hx⟩, hpn⟩)

end

/-! ### SA_ACTIVATE -/

/-- The slot is ACTIVE, and its window, where it has one that is not initialised, admits what lies above the slot's lowest PN (05 R139). -/
def openSa (slot : Nat) (win : Option Nat) (d : Dev) : Dev :=
  let d := d.updTab (Tables.updSa slot (fun x => { x with state := .active }))
  match win with
  | some w => if (d.getWin w).init then d else d.updWin w (fun x => { x with top := (d.getLive slot).nextPn - 1, bitmap := 0, init := true })
  | none => d

@[simp] theorem openSa_getLive (slot n : Nat) (win : Option Nat) (d : Dev) : (openSa slot win d).getLive n = d.getLive n := by
  cases win with
  | none => rfl
  | some w =>
    dsimp only [openSa]
    split <;> rfl

theorem doSaActivate_of_attached {b : Sub} {slot : Nat} {d : Dev} (hs : sliceDown d (slotSlice slot) = false)
    (hb : (d.tab.getSa slot).state = .basting) (ha : (d.tab.getSa slot).att = true) (hdir : (d.tab.getSa slot).dir = 1) {e : Dev}
    (he : openSa slot (winOf slot (d.tab.getSa slot)) d = e) :
    doSaActivate b slot d = gateDone b stOK []
      (let e := if (d.getLive slot).limHit = true then startDrain slot 0 e else e
       { e with twn := { e.twn with chFence := e.twn.chFence.erase (d.tab.getSa slot).chid } }) := by
  subst he
  rw [← openSa_getLive slot slot (winOf slot (d.tab.getSa slot)) d]
  exact gated_of_clear hs (by simp [hb, ha, hdir])

/-- Settles O6: a window block is created and erased past its refusals; SA_ATTACH goes by `badWindow`, the suite and the PN; SA_ACTIVATE opens the
slot's window, if it names one. -/
theorem saAttaching : Obligations.SaAttaching := by
  unfold Obligations.SaAttaching
  refine ⟨fun s hp b w hs => ⟨fun chid hfree hw hrc hkind hchan => ?create, fun hw hm => ?erase⟩,
    fun s hp b slot hs hb => ⟨fun chid an ha hchan hfree => ?attach, fun ha hdir => ?activate⟩⟩
  case create => exact runs_of hp rfl (doWinCreate_of_free hs hfree hw hrc hkind hchan)
  case erase => exact runs_of hp rfl (doWinErase_of_empty hs hw hm)
  case attach =>
    intro sa kind joined
    refine ⟨fun hdir hrc => ?transmit, fun hdir hrc => ?receive⟩
    case transmit =>
      have hside : (sa.dir == 1) = isRc chid := by simp [hdir, hrc]
      have hbare : badWindow s.dev.tab chid an none = false := by simp [badWindow_none, hrc]
      refine ⟨fun hsuite hpn => ?done, fun w => ?window, fun h2 hk => ?suite, fun hk h0 => ?limit⟩
      case done => exact runs_of hp rfl (doSaAttach_of_bare hs hb ha hchan hside hfree hsuite hpn hbare)
      case window => exact runs_of hp rfl (doSaAttach_of_badWindow hs hb ha hchan hside hfree (badWindow_some_of_unneeded (.inl hrc)))
      case suite => exact runs_of hp rfl (doSaAttach_of_badSuite hs hb ha hchan hside hfree hbare h2 hk)
      case limit => exact runs_of hp rfl (doSaAttach_of_badLimit hs hb ha hchan hside hfree hbare hk h0)
    case receive =>
      have hside : (sa.dir == 1) = isRc chid := by simp [hdir, hrc]
      refine ⟨fun hk => ?missing, fun hk h2 => ?bare, fun w h => ?misnamed, fun w hk hw hslice hpn hnamers hothers => ?window⟩
      case missing =>
        exact runs_of hp rfl (doSaAttach_of_badWindow hs hb ha hchan hside hfree (by simpa [badWindow_none, hrc] using hk))
      case bare =>
        exact runs_of hp rfl (doSaAttach_of_bare hs hb ha hchan hside hfree (fun h => absurd h (Nat.not_le.mpr h2)) (fun h => absurd h hk)
          (by simpa [badWindow_none, hrc] using hk))
      case misnamed =>
        have hbad : badWindow s.dev.tab chid an (some w) = true := h.elim (fun hk => badWindow_some_of_unneeded (.inr hk)) badWindow_some_of_elsewhere
        exact runs_of hp rfl (doSaAttach_of_badWindow hs hb ha hchan hside hfree hbad)
      case window =>
        exact runs_of hp rfl (doSaAttach_of_window hs hb ha hchan hside hfree (fun _ => hk) (fun _ => hpn)
          (badWindow_of_takes hrc hk hw hslice ⟨hnamers, hothers⟩) (fun e he => (hnamers e he).2.2))
  case activate =>
    intro sa up first ends
    have hrun : ∀ e : Dev, openSa slot (winOf slot sa) s.dev = e → Runs (.saActivate b slot) s (ends e) := fun e he =>
      runs_of hp rfl (doSaActivate_of_attached hs hb ha hdir he)
    refine ⟨fun hw => ?plain, fun w hw => ?window⟩
    case plain => exact hrun _ (by rw [hw]; rfl)
    case window => exact hrun _ (by rw [hw]; rfl)

end Sys2Proof.Machine

/-! SUPPORT. The end of an SA's life and its limits: what SA_RETIRE and SA_ERASE make of each state of a slot, a drain that ends and one that does
not, and the changes of limits that wait for their channel's boundary (05 R144, R146, R147, R151, R154). -/

namespace Sys2Proof.Machine

/-! ### Retiring and erasing -/

section
variable {b : Sub} {slot : Nat} {d : Dev} (hs : sliceDown d (slotSlice slot) = false)
include hs

/-- An ACTIVE SA that its channel does not use, and no seam names, drains (05 R144). -/
theorem doSaRetire_of_active {keep : Bool} (ha : (d.tab.getSa slot).att = true) (hb : (d.tab.getSa slot).state = .active)
    (hc : isCurrent slot d = false) (ht : seamTarget slot d = false) {e : Dev}
    (he : (d.updTab (Tables.updSa slot (fun x => { x with state := .draining }))).updLive slot
      (fun l => { l with drainTack := d.tck.tno, keep := keep, pendRetire := if keep then some (b, d.tck.tno) else none }) = e) :
    doSaRetire b slot keep d = if keep then gateDeferred b e else gateDone b stOK [] e := by
  subst he
  refine (gated_of_clear hs (by simp [ha, hb, hc, ht])).trans ?_
  simp [hb]

theorem doSaErase_of_draining (hb : (d.tab.getSa slot).state = .draining) (h : (d.getLive slot).pendErase = none) :
    doSaErase b slot d = gateDeferred b (d.updLive slot (fun l => { l with pendErase := some (b, d.tck.tno) })) := by
  simp [doSaErase, inSlice_of_up hs, hb, h]

theorem doSaErase_of_erasing {q : Sub × Nat} (hb : (d.tab.getSa slot).state = .draining) (h : (d.getLive slot).pendErase = some q) :
    doSaErase b slot d = gateDone b stBUSY [] d := by
  simp [doSaErase, inSlice_of_up hs, hb, h]

theorem doSaErase_of_idle
    (h : (d.tab.getSa slot).state = .spent ∨ ((d.tab.getSa slot).state = .basting ∧ (d.tab.getSa slot).att = false)) :
    doSaErase b slot d = gateDone b stOK [] (freeSlot slot d) := by
  obtain h | ⟨h, ha⟩ := h
  · simp [doSaErase, inSlice_of_up hs, h]
  · simp [doSaErase, inSlice_of_up hs, h, ha]

theorem doSaErase_of_inUse (h : (d.tab.getSa slot).state = .parking ∨
    ((d.tab.getSa slot).att = true ∧ ((d.tab.getSa slot).state = .basting ∨ (d.tab.getSa slot).state = .active))) :
    doSaErase b slot d = gateDone b stIN_USE [] d := by
  obtain h | ⟨ha, h | h⟩ := h
  · simp [doSaErase, inSlice_of_up hs, h]
  · simp [doSaErase, inSlice_of_up hs, h, ha]
  · simp [doSaErase, inSlice_of_up hs, h, ha]

theorem doSaErase_of_noSa (h : (d.tab.getSa slot).state = .free ∨ (d.tab.getSa slot).state = .window) :
    doSaErase b slot d = gateDone b stBAD_STATE [] d := by
  obtain h | h := h <;> simp [doSaErase, inSlice_of_up hs, h]

end

/-! ### Drains -/

theorem doDrainTimeout_of_draining {slot : Nat} {d : Dev} (hb : (d.tab.getSa slot).state = .draining) :
    doDrainTimeout slot d = sliceFault (slotSlice slot) 2 (event 0x0503 3 (be 3 slot ++ [0] ++ be 2 (d.getLive slot).refs) d) := if_neg (by simp [hb])

/-- The slot is SPENT, and no command waits for it (05 R147). -/
def spendSlot (slot : Nat) (d : Dev) : Dev :=
  (setStateAll slot .spent d).updLive slot (fun x => { x with keep := false, pendErase := none, pendRetire := none, pendSeam := none })

/-- A drain ends once no frame refers to the slot, its tack is in effect and no frame of an earlier view waits for its channel; the erase that waited
for it is then carried out (05 R144, R146, R147). -/
theorem doDrainComplete_of_unused {slot : Nat} {d : Dev} {l : SaLive} (hl : d.getLive slot = l) (hb : (d.tab.getSa slot).state = .draining)
    (hr : l.refs = 0) (hk : l.keep = false) (hret : l.pendRetire = none) (hseam : l.pendSeam = none)
    (hq : ∀ j ∈ (d.getSlice (slotSlice slot)).txq, j.chid ≠ (d.tab.getSa slot).chid)
    (ht : tackEffective (chanPort (d.tab.getSa slot).chid (d.tab.getChn (d.tab.getSa slot).chid)) l.drainTack d = true) :
    doDrainComplete slot d = match l.pendErase with
      | some r => gateFinal r.1 r.2 stOK [] (freeSlot slot (spendSlot slot d))
      | none => spendSlot slot d := by
  subst hl
  have hqueue : (d.getSlice (slotSlice slot)).txq.any
      (fun j => j.chid == (d.tab.getSa slot).chid && decide (j.view < (d.getLive slot).drainTack)) = false := by
    simp only [List.any_eq_false]
    intro j hj
    simp [hq j hj]
  simp only [doDrainComplete, hb, hr, hk, hret, hseam, hqueue, ht]
  rfl

/-! ### Limits -/

section
variable {slot : Nat} {raise : Option Nat} {limit : Option (Nat × Nat)} {d : Dev}

theorem limitAtBoundary_of_current (h : isCurrent slot d = true) :
    limitAtBoundary slot raise limit d = { d with sas := { d.sas with pend := d.sas.pend ++ [⟨slot, d.tck.tno, raise, limit⟩] } } := if_pos h

theorem limitAtBoundary_of_other (h : isCurrent slot d = false) :
    limitAtBoundary slot raise limit d = applyLimit ⟨slot, d.tck.tno, raise, limit⟩ d := if_neg (by simp [h])

end

section
variable {b : Sub} {slot : Nat} {d : Dev} (hs : sliceDown d (slotSlice slot) = false)
  (hb : (d.tab.getSa slot).state = .active ∨ (d.tab.getSa slot).state = .basting) (hdir : (d.tab.getSa slot).dir = 0)
include hs hb hdir

theorem doSaSetlimit_of_ordered {soft hard : Nat} (hsoft : soft ≤ hard) (hhard : hard ≤ spentPn (d.tab.getSa slot).suite) :
    doSaSetlimit b slot soft hard d = gateDone b stOK [] (limitAtBoundary slot none (some (soft, hard)) d) :=
  gated_of_clear hs (by obtain hb | hb := hb <;> simp [hb, hdir, hsoft, hhard])

theorem doSaRaisepn_of_low {pn : Nat} (h : pn ≤ (d.getLive slot).nextPn) : doSaRaisepn b slot pn d = gateDone b stBAD_LIMIT [] d := by
  obtain hb | hb := hb <;> simp [doSaRaisepn, inSlice_of_up hs, hb, hdir, h]

theorem doSaRaisepn_of_rise {pn : Nat} (h : (d.getLive slot).nextPn < pn) (hhard : pn ≤ (d.getLive slot).hardPn) :
    doSaRaisepn b slot pn d = gateDone b stOK [] (limitAtBoundary slot (some pn) none d) :=
  gated_of_clear hs (by obtain hb | hb := hb <;> simp [hb, hdir, h, hhard])

end

/-- Settles O8: SA_RETIRE and SA_ERASE go by the slot's state, a drain by what still refers to the slot, and a limit by whether the SA is its
channel's current one. -/
theorem saLifetime : Obligations.SaLifetime := by
  unfold Obligations.SaLifetime
  refine ⟨fun s hp b slot hs => ⟨fun ha hb hc ht => ⟨?retire, ?keep⟩, fun hb h => ?defer, fun h => ?idle, fun h => ?inUse, fun h => ?noSa,
    fun q hb h => ?erasing, fun hb => ⟨?timeout, fun hr hk hret hseam hq ht => ?drained⟩⟩,
    fun s hp b slot hs hb hdir => ⟨fun soft hard hsoft hhard => ?limits, fun pn => ⟨fun h => ?low, fun h hhard => ?rise⟩⟩⟩
  case retire => exact runs_of hp rfl (doSaRetire_of_active hs ha hb hc ht rfl)
  case keep => exact runs_of hp rfl (doSaRetire_of_active hs ha hb hc ht rfl)
  case defer => exact runs_of hp rfl (doSaErase_of_draining hs hb h)
  case idle => exact runs_of hp rfl (doSaErase_of_idle hs h)
  case inUse => exact runs_of hp rfl (doSaErase_of_inUse hs h)
  case noSa => exact runs_of hp rfl (doSaErase_of_noSa hs h)
  case erasing => exact runs_of hp rfl (doSaErase_of_erasing hs hb h)
  case timeout => exact runs_of hp rfl (doDrainTimeout_of_draining hb)
  case drained =>
    intro d
    have hdrain := doDrainComplete_of_unused rfl hb hr hk hret hseam hq ht
    refine ⟨fun h => ?spent, fun tack h => ?erased⟩
    case spent => exact runs_of hp rfl (hdrain.trans (by rw [h]; rfl))
    case erased => exact runs_of hp rfl (hdrain.trans (by rw [h]; rfl))
  case limits =>
    have hset := doSaSetlimit_of_ordered (b := b) hs hb hdir hsoft hhard
    refine ⟨fun h => ?current, fun h => ?other⟩
    case current => exact runs_of hp rfl (limitAtBoundary_of_current h ▸ hset)
    case other => exact runs_of hp rfl (limitAtBoundary_of_other h ▸ hset)
  case low => exact runs_of hp rfl (doSaRaisepn_of_low hs hb hdir h)
  case rise =>
    have hset := doSaRaisepn_of_rise (b := b) hs hb hdir h hhard
    refine ⟨fun h => ?current, fun h => ?other⟩
    case current => exact runs_of hp rfl (limitAtBoundary_of_current h ▸ hset)
    case other => exact runs_of hp rfl (limitAtBoundary_of_other h ▸ hset)

end Sys2Proof.Machine

/-! SUPPORT. CH_SEAM past its refusals, and the channel records, the side and the SCI maps (02 R38, R44, R45; 03 R88; 05 R133, R134, R143, R148, R150,
R156). -/

namespace Sys2Proof.Machine

/-! ### Seams -/

/-- A transmit SA that its AN names, and that waits attached (05 R148). -/
def SeamReady (t : Tables) (chid an new : Nat) : Prop :=
  isRc chid = false ∧ anSlotOf t chid an = some new ∧ (t.getSa new).state = .basting ∧ (t.getSa new).att = true

/-- The channel's seam waits for the SA of `an`, at the place `v` of the kind `k` (05 R148). -/
def waitSeam (b : Sub) (chid an k v : Nat) (d : Dev) : Dev :=
  d.updChl chid (fun l => { l with nextAn := an, seamKind := k, seamAt := v, seamSub := some b, seamTack := d.tck.tno })

/-- A kind 1 seam to be taken at its tack's boundary: no SA is current, or its NEXTPN is at SEAMAT already (05 R148). -/
def seamAtTack (chid kind seamAt : Nat) (d : Dev) : Bool :=
  match curSlot d.tab chid d with
  | none => true
  | some old => kind == 0 || (kind == 1 && decide (seamAt ≤ (d.getLive old).nextPn))

/-- SEAMKIND of the seam that waits: 2 at a multiframe, 3 at the tack's boundary, 1 at a PN (05 R148). -/
def seamKindOf (chid kind seamAt : Nat) (d : Dev) : Nat :=
  if kind = 2 then 2 else if (d.tab.getChn chid).kind ≠ 0 || seamAtTack chid kind seamAt d then 3 else 1

/-- SEAMAT of that seam (03 R88, 05 R148). -/
def seamPlaceOf (chid kind seamAt : Nat) (d : Dev) : Nat :=
  let c := d.tab.getChn chid
  if kind = 2 then seamFc c (boundAt c.dst d) d else if seamKindOf chid kind seamAt d = 3 then boundAt (chanPort chid c) d else seamAt

theorem suiteAllowed {d : Dev} {suite : Nat} (h : suite < 2 ∨ (d.mod.mode ≠ .lead ∧ d.mod.mode ≠ .shadow)) :
    ((d.mod.mode == .lead || d.mod.mode == .shadow) && decide (suite ≥ 2)) = false := by
  obtain h | ⟨hl, hsh⟩ := h
  · simp [h]
  · simp [hl, hsh]

section
variable {b : Sub} {chid an kind seamAt : Nat} {d : Dev} (hs : sliceDown d (chSlice chid) = false)
include hs

theorem doChSeam_of_receive (h : isRc chid = true) : doChSeam b chid an kind seamAt d = gateDone b stBAD_CHANNEL [] d := by
  simp [doChSeam, inSlice_of_up hs, h]

theorem doChSeam_of_noSa (hrc : isRc chid = false) (h : anSlotOf d.tab chid an = none) :
    doChSeam b chid an kind seamAt d = gateDone b stBAD_STATE [] d := by
  simp [doChSeam, inSlice_of_up hs, hrc, h]

theorem doChSeam_of_badState {new : Nat} (hrc : isRc chid = false) (hnew : anSlotOf d.tab chid an = some new)
    (h : (d.tab.getSa new).state ≠ .basting ∨ (d.tab.getSa new).att = false) :
    doChSeam b chid an kind seamAt d = gateDone b stBAD_STATE [] d := by
  obtain h | h := h <;> simp [doChSeam, inSlice_of_up hs, hrc, hnew, h]

variable {new : Nat} (hready : SeamReady d.tab chid an new)
include hready

theorem doChSeam_of_pending (h : (d.getChl chid).seamKind ≠ 0) : doChSeam b chid an kind seamAt d = gateDone b stBUSY [] d := by
  obtain ⟨hrc, hnew, hb, ha⟩ := hready
  simp [doChSeam, inSlice_of_up hs, hrc, hnew, hb, ha, h]

variable (hk : (d.getChl chid).seamKind = 0)
include hk

/-- LEAD and SHADOW activate no SA of suite 2 or 3 (02 R38). -/
theorem doChSeam_of_badSuite (hm : d.mod.mode = .lead ∨ d.mod.mode = .shadow) (h2 : 2 ≤ (d.tab.getSa new).suite) :
    doChSeam b chid an kind seamAt d = gateDone b stBAD_SUITE [] d := by
  obtain ⟨hrc, hnew, hb, ha⟩ := hready
  obtain hm | hm := hm <;> simp [doChSeam, inSlice_of_up hs, hrc, hnew, hb, ha, hk, hm, h2]

variable (hsuite : (d.tab.getSa new).suite < 2 ∨ (d.mod.mode ≠ .lead ∧ d.mod.mode ≠ .shadow))
include hsuite

theorem doChSeam_of_badKind (h : (kind = 1 ∧ (d.tab.getChn chid).kind ≠ 0) ∨ (kind = 2 ∧ (d.tab.getChn chid).kind = 0)) :
    doChSeam b chid an kind seamAt d = gateDone b stBAD_CHANNEL [] d := by
  obtain ⟨hrc, hnew, hb, ha⟩ := hready
  obtain ⟨rfl, h⟩ | ⟨rfl, h⟩ := h <;> simp [doChSeam, inSlice_of_up hs, hrc, hnew, hb, ha, hk, suiteAllowed hsuite, h]

theorem doChSeam_of_waiting (h1 : kind = 1 → (d.tab.getChn chid).kind = 0) (h2 : kind = 2 → (d.tab.getChn chid).kind ≠ 0) :
    doChSeam b chid an kind seamAt d = waitSeam b chid an (seamKindOf chid kind seamAt d) (seamPlaceOf chid kind seamAt d) d := by
  obtain ⟨hrc, hnew, hb, ha⟩ := hready
  exact gated_of_clear hs (by simp [hrc, hnew, hb, ha, hk, suiteAllowed hsuite]; exact ⟨h1, h2⟩)

end

section
variable {chid seamAt : Nat} {d : Dev}

theorem seamAtTack_of_switch : seamAtTack chid 0 seamAt d = true := by
  unfold seamAtTack
  split <;> rfl

theorem seamAtTack_of_first {kind : Nat} (h : curSlot d.tab chid d = none) : seamAtTack chid kind seamAt d = true := by simp [seamAtTack, h]

theorem seamAtTack_of_current {old : Nat} (h : curSlot d.tab chid d = some old) :
    seamAtTack chid 1 seamAt d = decide (seamAt ≤ (d.getLive old).nextPn) := by simp [seamAtTack, h]

/-- A seam at its tack's boundary (05 R148). -/
theorem seam_of_atTack {kind : Nat} (h2 : kind ≠ 2) (h : seamAtTack chid kind seamAt d = true) :
    seamKindOf chid kind seamAt d = 3 ∧ seamPlaceOf chid kind seamAt d = boundAt (chanPort chid (d.tab.getChn chid)) d := by
  have hk : seamKindOf chid kind seamAt d = 3 := by simp [seamKindOf, h2, h]
  exact ⟨hk, by simp [seamPlaceOf, h2, hk]⟩

/-- A seam at the PN of SEAMAT (05 R148). -/
theorem seam_of_pn {kind : Nat} (h2 : kind ≠ 2) (hc : (d.tab.getChn chid).kind = 0) (h : seamAtTack chid kind seamAt d = false) :
    seamKindOf chid kind seamAt d = 1 ∧ seamPlaceOf chid kind seamAt d = seamAt := by
  have hk : seamKindOf chid kind seamAt d = 1 := by simp [seamKindOf, h2, hc, h]
  exact ⟨hk, by simp [seamPlaceOf, h2, hk]⟩

/-- A seam at a multiframe (03 R88). -/
theorem seam_of_multiframe : seamKindOf chid 2 seamAt d = 2 ∧
    seamPlaceOf chid 2 seamAt d = seamFc (d.tab.getChn chid) (boundAt (d.tab.getChn chid).dst d) d := ⟨rfl, rfl⟩

end

/-- Settles O7: the refusals in their order; a seam that none refuses waits at the place that its kind, the channel's KIND and the current SA give. -/
theorem channelSeam : Obligations.ChannelSeam := by
  unfold Obligations.ChannelSeam
  intro s hp b chid an kind seamAt hs c
  refine ⟨fun h => ?receive, fun hrc h => ?noSa, fun new hrc hnew => ⟨fun h => ?badState, fun hb ha => ⟨fun h => ?pending, fun hk =>
    ⟨fun hm h2 => ?badSuite, fun hsuite => ?seam⟩⟩⟩⟩
  case receive => exact runs_of hp rfl (doChSeam_of_receive hs h)
  case noSa => exact runs_of hp rfl (doChSeam_of_noSa hs hrc h)
  case badState => exact runs_of hp rfl (doChSeam_of_badState hs hrc hnew h)
  case pending => exact runs_of hp rfl (doChSeam_of_pending hs ⟨hrc, hnew, hb, ha⟩ h)
  case badSuite => exact runs_of hp rfl (doChSeam_of_badSuite hs ⟨hrc, hnew, hb, ha⟩ hk hm h2)
  case seam =>
    intro waits
    have hwaits : ∀ k v : Nat, (kind = 1 → c.kind = 0) → (kind = 2 → c.kind ≠ 0) →
        seamKindOf chid kind seamAt s.dev = k ∧ seamPlaceOf chid kind seamAt s.dev = v → waits k v := by
      rintro _ _ h1 h2 ⟨rfl, rfl⟩
      exact runs_of hp rfl (doChSeam_of_waiting hs ⟨hrc, hnew, hb, ha⟩ hk hsuite h1 h2)
    refine ⟨fun h => ?badKind, ?switch, ?atPn, ?multiframe⟩
    case badKind => exact runs_of hp rfl (doChSeam_of_badKind hs ⟨hrc, hnew, hb, ha⟩ hk hsuite h)
    case switch =>
      rintro rfl
      exact hwaits _ _ (by simp) (by simp) (seam_of_atTack (by simp) seamAtTack_of_switch)
    case atPn =>
      rintro rfl hc
      refine ⟨fun h => ?first, fun old h => ⟨fun hle => ?passed, fun hlt => ?later⟩⟩
      case first => exact hwaits _ _ (fun _ => hc) (by simp) (seam_of_atTack (by simp) (seamAtTack_of_first h))
      case passed => exact hwaits _ _ (fun _ => hc) (by simp) (seam_of_atTack (by simp) (by simp [seamAtTack_of_current h, hle]))
      case later => exact hwaits _ _ (fun _ => hc) (by simp) (seam_of_pn (by simp) hc (by simp [seamAtTack_of_current h, hlt]))
    case multiframe =>
      rintro rfl hc
      exact hwaits _ _ (by simp) (fun _ => hc) seam_of_multiframe

/-! ### Channel records and the side -/

section
variable {b : Sub} {chid : Nat} {image : Bytes} {d : Dev} (hs : sliceDown d (chSlice chid) = false)
include hs

theorem doChWrite_of_disabled (he : (d.tab.getChn chid).en = false) (hc : badChannel d.tab chid (chanOfImage (d.tab.getChn chid) image) = false) :
    doChWrite b chid image d = gateDone b stOK []
      (updateCsfAll (d.updTab (Tables.updChn chid (fun _ => chanOfImage (d.tab.getChn chid) image)))) :=
  gated_of_clear hs (by simp [he, hc])

theorem doChWrite_of_enabled (he : (d.tab.getChn chid).en = true) : doChWrite b chid image d = gateDone b stIN_USE [] d := by
  simp [doChWrite, inSlice_of_up hs, he]

theorem doChEnable_of_up : doChEnable b chid d = gateDone b stOK [] (d.updTab (Tables.updChn chid (fun c => { c with en := true }))) :=
  inSlice_of_up hs

theorem doChDisable_of_seamless (h : (d.getChl chid).seamKind = 0) :
    doChDisable b chid d = gateDone b stOK [] (d.updTab (Tables.updChn chid (fun c => { c with en := false }))) :=
  gated_of_clear hs (by simp [h])

theorem doChDisable_of_seam (h : (d.getChl chid).seamKind ≠ 0) : doChDisable b chid d = gateDone b stBUSY [] d := by
  simp [doChDisable, inSlice_of_up hs, h]

end

/-- The side changes while no transmit SA is loaded (05 R156). -/
theorem doSasSide_of_unloaded {b : Sub} {side : Nat} {d : Dev}
    (h : ∀ e ∈ d.tab.sa, e.2.dir = 0 → e.2.state = .free ∨ e.2.state = .spent ∨ e.2.state = .window) :
    doSasSide b side d = gateDone b stOK [] (d.updTab (fun t => { t with side := side })) := by
  have hnone : d.tab.sa.any (fun e => e.2.dir == 0 &&
      (e.2.state == .basting || e.2.state == .active || e.2.state == .draining || e.2.state == .parking)) = false := by
    simp only [List.any_eq_false]
    intro e he hbad
    simp only [Bool.and_eq_true, beq_iff_eq] at hbad
    obtain ⟨hdir, hstate⟩ := hbad
    obtain h | h | h := h e he hdir <;> simp [h] at hstate
  rw [doSasSide, guards_cons, hnone]
  rfl

/-! ### SCI maps -/

section
variable {b : Sub} {face sci chid : Nat} {d : Dev} {m : Tab (Option SciEnt)} (hm : d.tab.sciMap face = m)
include hm

theorem doSciDelete_of_absent (h : sciFind m sci = none) : doSciDelete b face sci d = gateDone b stNO_ENTRY [] d := by
  subst hm
  simp [doSciDelete, h]

theorem doSciDelete_of_found {i : Nat} (h : sciFind m sci = some i) :
    doSciDelete b face sci d = gateDone b stOK [] (d.updTab (Tables.setSci face i none)) := by
  subst hm
  simp [doSciDelete, h]

omit hm in
theorem doSciInsert_of_transmit (h : isRc chid = false) : doSciInsert b face sci chid d = gateDone b stBAD_CHANNEL [] d := by
  simp [doSciInsert, h]

variable (hrc : isRc chid = true)
include hrc

theorem doSciInsert_of_duplicate (h : (sciFind m sci).isSome = true) : doSciInsert b face sci chid d = gateDone b stDUPLICATE [] d := by
  subst hm
  simp [doSciInsert, hrc, h]

variable (hnew : sciFind m sci = none)
include hnew

theorem doSciInsert_of_full (h : (sciWays sci).find? (fun i => (Tab.get none m i).isNone) = none) :
    doSciInsert b face sci chid d = gateDone b stBUCKET_FULL [] d := by
  subst hm
  simp only [doSciInsert, h]
  simp [hrc, hnew]

theorem doSciInsert_of_way {i : Nat} (h : (sciWays sci).find? (fun i => (Tab.get none m i).isNone) = some i) :
    doSciInsert b face sci chid d = gateDone b stOK [] (d.updTab (Tables.setSci face i (some ⟨sci, chid⟩))) := by
  subst hm
  simp only [doSciInsert, h]
  simp [hrc, hnew]

end

/-- Settles O9: a record goes by its channel's EN and pending seam, the side by the SAs loaded, and an SCI by what its bucket holds. -/
theorem channelRecords : Obligations.ChannelRecords := by
  unfold Obligations.ChannelRecords
  refine ⟨fun s hp b => ⟨fun chid hs => ⟨fun image he => ?write, fun image he => ?enabled, ?enable, fun h => ?disable, fun h => ?seam⟩,
    fun side h => ?side⟩,
    fun s hp b face sci chid => ?maps⟩
  case write =>
    intro c hc
    exact runs_of hp rfl (doChWrite_of_disabled hs he hc)
  case enabled => exact runs_of hp rfl (doChWrite_of_enabled hs he)
  case enable => exact runs_of hp rfl (doChEnable_of_up hs)
  case disable => exact runs_of hp rfl (doChDisable_of_seamless hs h)
  case seam => exact runs_of hp rfl (doChDisable_of_seam hs h)
  case side => exact runs_of hp rfl (doSasSide_of_unloaded h)
  case maps =>
    intro m
    refine ⟨fun h => ?transmit, fun hrc h => ?duplicate, fun hrc hnew h => ?full, fun i hrc hnew h => ?inserted,
      fun h => ?absent, fun i h => ?deleted⟩
    case transmit => exact runs_of hp rfl (doSciInsert_of_transmit h)
    case duplicate => exact runs_of hp rfl (doSciInsert_of_duplicate rfl hrc h)
    case full => exact runs_of hp rfl (doSciInsert_of_full rfl hrc hnew h)
    case inserted => exact runs_of hp rfl (doSciInsert_of_way rfl hrc hnew h)
    case absent => exact runs_of hp rfl (doSciDelete_of_absent rfl h)
    case deleted => exact runs_of hp rfl (doSciDelete_of_found rfl h)

end Sys2Proof.Machine

/-! SUPPORT. What counters and events leave of the station block: its kept learns and the station commands that wait (06 R175, R177). -/

namespace Sys2Proof.Machine

/-! ### Events keep the station block -/

@[simp] theorem prfCount_stn (ev : Nat) (u : Option Nat) (n : Nat) (d : Dev) : (prfCount ev u n d).stn = d.stn := by
  unfold prfCount
  split <;> rfl

@[simp] theorem emit_stn (o : Out) (d : Dev) : (emit o d).stn = d.stn := rfl

@[simp] theorem evPendAll_stn (b : Nat) (d : Dev) : (evPendAll b d).stn = d.stn := rfl

@[simp] theorem hpEmit_stn (j : Nat) (b : Bytes) (d : Dev) : (hpEmit j b d).stn = d.stn := by
  unfold hpEmit
  split <;> simp

@[simp] theorem hpTransmit_stn (j q : Nat) (x : HpFrame) (d : Dev) : (hpTransmit j q x d).stn = d.stn := by simp [hpTransmit]

@[simp] theorem linkTransmit_stn (j : Nat) (x : HpFrame) (d : Dev) : (linkTransmit j x d).stn = d.stn := by simp [linkTransmit]

@[simp] theorem hpFirst_stn (j : Nat) (x : HpFrame) (d : Dev) : (hpFirst j x d).stn = d.stn := by simp [hpFirst, apply_ite Dev.stn]

@[simp] theorem hpSend_stn (j type prio dst src hops eseq : Nat) (p : Bytes) (d : Dev) :
    (hpSend j type prio dst src hops eseq p d).stn = d.stn := by simp [hpSend, apply_ite Dev.stn]

@[simp] theorem meshSend_stn (type prio dst : Nat) (p : Bytes) (d : Dev) : (meshSend type prio dst p d).stn = d.stn := by
  unfold meshSend
  dsimp only
  split <;> simp

@[simp] theorem collectRec_stn (r : EvRec) (d : Dev) : (collectRec r d).stn = d.stn := by
  unfold collectRec
  split <;> simp

@[simp] theorem flsFirst_stn (d : Dev) : (flsFirst d).stn = d.stn := by
  unfold flsFirst doFlsDone
  (repeat' split) <;> rfl

@[simp] theorem archiveFlush_stn (d : Dev) : (archiveFlush d).stn = d.stn := by
  unfold archiveFlush
  dsimp only
  split
  · simp
  · exact (each_keeps Dev.stn collectRec collectRec_stn _ _).trans (by split <;> simp)

@[simp] theorem recordFull_stn (code sev src flags : Nat) (b : Bytes) (a : Bool) (d : Dev) :
    (recordFull code sev src flags b a d).stn = d.stn := by
  simp only [recordFull, apply_ite Dev.stn, collectRec_stn, evPendAll_stn, archiveFlush_stn, ite_self]

@[simp] theorem event_stn (code sev : Nat) (b : Bytes) (d : Dev) : (event code sev b d).stn = d.stn := recordFull_stn ..

/-! ### The learns kept and the commands that wait -/

/-- The learns that the station block keeps for their interval, and the commands that wait for learns (06 R175, R177). -/
def Stn.jobs (x : Stn) : List Learn × List StnWait := (x.learns, x.waiting)

@[simp] theorem stnCount_jobs (q i n : Nat) (d : Dev) : (stnCount q i n d).stn.jobs = d.stn.jobs := rfl

@[simp] theorem stnChange_stn (k i : Nat) (old new : Option StnEntry) (d : Dev) : (stnChange k i old new d).stn = d.stn := rfl

@[simp] theorem learnLost_jobs (q why : Nat) (d : Dev) : (learnLost q why d).stn.jobs = d.stn.jobs := by
  unfold learnLost
  have hcount := stnCount_jobs q (if why = 1 then 2 else 3) 1 d
  generalize stnCount q (if why = 1 then 2 else 3) 1 d = x at hcount ⊢
  dsimp only
  split
  · exact hcount
  · rw [event_stn]
    exact hcount

/-- A learn that is applied changes the table and counts; it keeps no learn and holds no command (06 R177). -/
@[simp] theorem applyLearn_jobs (k : Nat) (l : Learn) (d : Dev) : (applyLearn k l d).stn.jobs = d.stn.jobs := by
  unfold applyLearn
  dsimp only
  split <;> simp

end Sys2Proof.Machine

/-! SUPPORT. The station table: its commands once no command waits, the walks of a partition, and the learns of an interval (06 R173, R174,
R177 to R181, Table 06-13). -/

namespace Sys2Proof.Machine

/-! ### Station commands and the learns before them -/

/-- With no command waiting, none is carried out. -/
@[simp] theorem stnDrain_of_idle {d : Dev} (hw : d.stn.waiting = []) : stnDrain d = d := by simp [stnDrain, each, hw]

section
variable {w : StnWait} {d : Dev} (hw : d.stn.waiting = [])
include hw

theorem stnGated_of_settled (hl : learnsSettled w.part w.tack d = true) : stnGated w d = w.run d := by simp [stnGated, hw, hl]

theorem stnGated_of_unsettled (hl : learnsSettled w.part w.tack d = false) (hf : w.filter = none) :
    stnGated w d = { d with stn := { d.stn with waiting := [w] } } := by simp [stnGated, hw, hl, hf]

/-- A flush waits only behind another command of its partition (06 R180). -/
theorem stnGated_of_flush {f : FlushFilter} (hf : w.filter = some f) : stnGated w d = addFilter f d := by
  simp [stnGated, hw, hf, StnWait.run]

end

/-! ### STN_INSERT and STN_DELETE -/

@[simp] theorem stnGuards_nil (k : Nat) (b : Sub) (f : Dev → Dev) (d : Dev) : stnGuards k b [] f d = gateLate b k stOK [] (f d) := rfl

@[simp] theorem stnGuards_cons (k : Nat) (b : Sub) (c : Bool) (st : Nat) (l : List (Bool × Nat)) (f : Dev → Dev) (d : Dev) :
    stnGuards k b ((c, st) :: l) f d = if c = true then gateLate b k st [] d else stnGuards k b l f d := rfl

section
variable {b : Sub} {part key : Nat} {d : Dev} (hs : sliceDown d part = false) (hw : d.stn.waiting = [])
  (hl : learnsSettled part d.tck.tno d = true)
include hs hw hl

/-- The place of an inserted entry: the key's own, or else the bucket's free one (06 Table 06-13). -/
theorem doStnInsert_of_place {chid i : Nat} (hrc : isRc chid = false) (hserves : partServes part (chSlice chid) = true)
    (hi : (stnFind (tabAt d.tck.tno d) part (keyDomain key) (keyMac key)).or
      (stnFree (tabAt d.tck.tno d) part (keyDomain key) (keyMac key)) = some i) :
    doStnInsert b part key chid d = gateLate b d.tck.tno stOK [] (stnChange d.tck.tno i ((tabAt d.tck.tno d).getStn i)
      (some (stnStatic key chid (tabAt d.tck.tno d).sweepNo)) d) := by
  refine (stnGated_of_settled hw hl).trans ?_
  simp [StnWait.run, StnWait.run.act, hi, hs, hrc, hserves]

theorem doStnInsert_of_full {chid : Nat} (hrc : isRc chid = false) (hserves : partServes part (chSlice chid) = true)
    (hhere : stnFind (tabAt d.tck.tno d) part (keyDomain key) (keyMac key) = none)
    (hfree : stnFree (tabAt d.tck.tno d) part (keyDomain key) (keyMac key) = none) :
    doStnInsert b part key chid d = gateLate b d.tck.tno stBUCKET_FULL [] d := by
  refine (stnGated_of_settled hw hl).trans ?_
  simp [StnWait.run, StnWait.run.act, hhere, hfree, hs, hrc, hserves]

theorem doStnInsert_of_badChannel {chid : Nat} (h : isRc chid = true ∨ partServes part (chSlice chid) = false) :
    doStnInsert b part key chid d = gateLate b d.tck.tno stBAD_CHANNEL [] d := by
  refine (stnGated_of_settled hw hl).trans ?_
  simp only [StnWait.run, StnWait.run.act]
  split <;> simp [hs, h]

theorem doStnDelete_of_found {i : Nat} (h : stnFind (tabAt d.tck.tno d) part (keyDomain key) (keyMac key) = some i) :
    doStnDelete b part key d = gateLate b d.tck.tno stOK [] (stnChange d.tck.tno i ((tabAt d.tck.tno d).getStn i) none d) := by
  refine (stnGated_of_settled hw hl).trans ?_
  simp [StnWait.run, StnWait.run.act, h, hs]

theorem doStnDelete_of_absent (h : stnFind (tabAt d.tck.tno d) part (keyDomain key) (keyMac key) = none) :
    doStnDelete b part key d = gateLate b d.tck.tno stNO_ENTRY [] d := by
  refine (stnGated_of_settled hw hl).trans ?_
  simp [StnWait.run, StnWait.run.act, h, hs]

end

/-! ### STN_FLUSH and STN_SETSWEEP -/

/-- The partitions that a flush names: 8 stands for all (06 Table 06-13). -/
def flushParts (part : Nat) : List Nat := if part = 8 then List.range 8 else [part]

theorem flushParts_of_lt {part : Nat} (h : part < 8) : flushParts part = [part] := if_neg (by omega)

section
variable {b : Sub} {part value : Nat} {byChan incl : Bool} {d : Dev} (hs : ∀ q ∈ flushParts part, sliceDown d q = false)
include hs

theorem doStnFlush_of_up : doStnFlush b part byChan value incl d =
    if ∃ q ∈ flushParts part, 4 ≤ Tab.get 0 d.stn.flushes q then gateDone b stBUSY [] d
    else gateDone b stOK [] (each (flushParts part)
      (fun q d => stnGated ⟨d.tck.tno, b, q, 0, none, some ⟨q, byChan, value, incl, d.tck.tno⟩⟩ d)
      { d with stn := { d.stn with flushes := (flushParts part).foldl (fun f q => Tab.upd 0 f q (· + 1)) d.stn.flushes } }) := by
  have hup : (flushParts part).any (sliceDown d) = false := by simpa using hs
  unfold flushParts at hup ⊢
  simp [doStnFlush, hup]

theorem doStnFlush_of_fourth (h : ∃ q ∈ flushParts part, 4 ≤ Tab.get 0 d.stn.flushes q) :
    doStnFlush b part byChan value incl d = gateDone b stBUSY [] d := (doStnFlush_of_up hs).trans (if_pos h)

theorem doStnFlush_of_room (h : ∀ q ∈ flushParts part, Tab.get 0 d.stn.flushes q < 4) : doStnFlush b part byChan value incl d =
    gateDone b stOK [] (each (flushParts part)
      (fun q d => stnGated ⟨d.tck.tno, b, q, 0, none, some ⟨q, byChan, value, incl, d.tck.tno⟩⟩ d)
      { d with stn := { d.stn with flushes := (flushParts part).foldl (fun f q => Tab.upd 0 f q (· + 1)) d.stn.flushes } }) :=
  (doStnFlush_of_up hs).trans (if_neg (by simpa using h))

end

theorem doStnSetsweep_of_range {b : Sub} {period : Nat} {d : Dev} (hlow : 1000 ≤ period) (hhigh : period ≤ 100000000) :
    doStnSetsweep b period d = gateDone b stOK [] (d.updTab (fun t => { t with stnPeriod := period, stnTacks := 0 })) := by
  simp [doStnSetsweep, hlow, hhigh]

theorem doStnSetsweep_of_outside {b : Sub} {period : Nat} {d : Dev} (h : period < 1000 ∨ 100000000 < period) :
    doStnSetsweep b period d = gateDone b stBAD_LIMIT [] d := by simp [doStnSetsweep, h]

/-! ### Walks -/

/-- A walk whose sweep tack has taken effect on the partition's ports removes its aged entries and counts them (06 R174). -/
theorem doStationWalk_of_due {q : Nat} {w : Nat × Nat × Nat} {d : Dev} (hfind : d.stn.walks.find? (fun w => w.1 == q) = some w)
    (hports : ∀ n ∈ partPorts q d, tackEffective n w.2.2 d = true) :
    doStationWalk q d = stnCount q 5 (d.tab.stn.filter (stnAged (withFlushes d d.tab) q w.2.1)).length
      (({ d with stn := { d.stn with walks := d.stn.walks.erase w } } : Dev).updViews
        (fun t => { t with stn := t.stn.filter (fun e => !stnAged (withFlushes d t) q w.2.1 e) })) := by
  unfold doStationWalk
  rw [hfind]
  exact if_pos (List.all_eq_true.mpr hports)

/-- The filters that a walk of partition `q` retires (06 R177, R180). -/
def dueFlushes (q : Nat) (d : Dev) : List FlushFilter :=
  d.tab.filters.filter (fun f => f.part == q && learnsSettled q f.tack d && !d.stn.waiting.any (fun w => w.part == q && decide (w.tack ≤ f.tack)))

/-- An entry that a walk retiring `fs` removes from a version of the table. -/
def flushHit (fs : List FlushFilter) (q : Nat) (t : Tables) (e : Nat × Option StnEntry) : Bool :=
  match e.2 with
  | some x => e.1 / 65536 == q && fs.any (fun f => t.filters.contains f && stnFlushed f q x)
  | none => false

/-- A version of the table after a walk that retires `fs`. -/
def flushed (fs : List FlushFilter) (q : Nat) (t : Tables) : Tables :=
  { t with stn := t.stn.filter (fun e => !flushHit fs q t e), filters := t.filters.filter (fun f => !fs.contains f) }

theorem doFlushWalk_eq (q : Nat) (d : Dev) : doFlushWalk q d = if (dueFlushes q d).isEmpty then d
    else stnCount q 6 (d.tab.stn.filter (flushHit (dueFlushes q d) q d.tab)).length (d.updViews (flushed (dueFlushes q d) q)) := rfl

theorem doFlushWalk_of_other {q : Nat} {d : Dev} (h : ∀ f ∈ d.tab.filters, f.part ≠ q) : doFlushWalk q d = d := by
  have hnone : dueFlushes q d = [] := List.filter_eq_nil_iff.mpr fun f hf => by simp [h f hf]
  simp [doFlushWalk_eq, hnone]

theorem dueFlushes_of_single {q : Nat} {f : FlushFilter} {d : Dev} (hf : d.tab.filters = [f]) (hq : f.part = q)
    (hl : learnsSettled q f.tack d = true) (hw : d.stn.waiting = []) : dueFlushes q d = [f] := by simp [dueFlushes, hf, hq, hl, hw]

/-- An entry of the walked partition that stays matches no retired filter. -/
theorem stnFlushed_of_flushed {q i : Nat} {f : FlushFilter} {e : StnEntry} {t : Tables} (hf : f ∈ t.filters)
    (he : (i, some e) ∈ (flushed [f] q t).stn) (hi : i / 65536 = q) : stnFlushed f q e = false := by
  have hmiss := (List.mem_filter.mp he).2
  simpa [flushHit, hi, hf] using hmiss

/-! ### Applying learns -/

/-- An operation that changes nothing for any item changes nothing. -/
theorem each_of_idle {α : Type} {l : List α} {f : α → Dev → Dev} {d : Dev} (h : ∀ a ∈ l, f a d = d) : each l f d = d := by
  induction l with
  | nil => rfl
  | cons a l ih => exact (congrArg (each l f) (h a (by simp))).trans (ih fun x hx => h x (by simp [hx]))

/-- Of the items only `a` changes the device, and once. -/
theorem each_of_single {α : Type} {a : α} {l : List α} {f : α → Dev → Dev} {d : Dev} (ha : a ∈ l)
    (hbefore : ∀ x ∈ l, x ≠ a → f x d = d) (hafter : ∀ x ∈ l, f x (f a d) = f a d) : each l f d = f a d := by
  induction l with
  | nil => simp at ha
  | cons x l ih =>
    change each l f (f x d) = f a d
    by_cases hx : x = a
    · subst hx
      exact each_of_idle fun y hy => hafter y (by simp [hy])
    · rw [hbefore x (by simp) hx]
      have hmem : a ∈ l := by simpa [Ne.symm hx] using ha
      exact ih hmem (fun y hy => hbefore y (by simp [hy])) fun y hy => hafter y (by simp [hy])

/-- The learns of interval `k` are applied in partition `q`, once they are complete there (06 R177, R478). -/
def learnsApplyIn (k q : Nat) (d : Dev) : Dev :=
  if !learnsComplete q k d || d.stn.learns.any (fun l => l.part == q && decide (l.interval < k)) then d
  else each (learnsOf q k d) (applyLearn (k + 2))
    { d with stn := { d.stn with learns := d.stn.learns.filter (fun l => !(l.part == q && l.interval == k)) } }

theorem doLearnsApply_eq (k : Nat) (d : Dev) : doLearnsApply k d =
    if d.tck.tno < k + 2 then d else stnDrain (each (List.range 8) (learnsApplyIn k) (stnDrain d)) := rfl

/-- A partition with no learn up to interval `k` stays as it is. -/
theorem learnsApplyIn_of_none {k q : Nat} {d : Dev} (h : ∀ l ∈ d.stn.learns, l.part = q → k < l.interval) : learnsApplyIn k q d = d := by
  have hmine : learnsOf q k d = [] := by
    simp only [learnsOf, List.flatten_eq_nil_iff, List.mem_map]
    rintro _ ⟨p, -, rfl⟩
    refine List.filter_eq_nil_iff.mpr fun l hl hbad => ?_
    simp only [Bool.and_eq_true, beq_iff_eq] at hbad
    obtain ⟨⟨hq, hk⟩, -⟩ := hbad
    have := h l hl hq
    omega
  have hkept : d.stn.learns.filter (fun l => !(l.part == q && l.interval == k)) = d.stn.learns := by
    refine List.filter_eq_self.mpr fun l hl => ?_
    by_cases hq : l.part = q
    · have := h l hl hq
      simp
      omega
    · simp [hq]
  unfold learnsApplyIn
  rw [hmine, hkept]
  exact ite_self d

/-- A single learn stands in the list of the ports that include its own. -/
theorem learnsOf_of_single {l : Learn} {d : Dev} (hl : d.stn.learns = [l]) (hport : l.port < 64) : learnsOf l.part l.interval d = [l] := by
  have hports : ∀ n : Nat, ((List.range n).map (fun p => [l].filter (fun x => x.part == l.part && x.interval == l.interval && x.port == p))).flatten
      = if l.port < n then [l] else [] := by
    intro n
    induction n with
    | zero => rfl
    | succ n ih =>
      rw [List.range_succ, List.map_append, List.flatten_append, ih]
      by_cases hn : l.port = n
      · simp [hn]
      · have : l.port < n + 1 ↔ l.port < n := by omega
        simp [hn, this]
  unfold learnsOf
  rw [hl, hports, if_pos hport]

theorem learnsApplyIn_of_single {l : Learn} {d : Dev} (hl : d.stn.learns = [l]) (hport : l.port < 64)
    (hc : learnsComplete l.part l.interval d = true) :
    learnsApplyIn l.interval l.part d = applyLearn (l.interval + 2) l { d with stn := { d.stn with learns := [] } } := by
  unfold learnsApplyIn
  rw [learnsOf_of_single hl hport, hl, hc]
  simp [each]

theorem doLearnsApply_of_early {k : Nat} {d : Dev} (h : d.tck.tno < k + 2) : doLearnsApply k d = d := if_pos h

theorem doLearnsApply_of_none {k : Nat} {d : Dev} (h : ∀ l ∈ d.stn.learns, k < l.interval) (hw : d.stn.waiting = []) : doLearnsApply k d = d := by
  have heach : each (List.range 8) (learnsApplyIn k) d = d := each_of_idle fun _ _ => learnsApplyIn_of_none fun l hl _ => h l hl
  simp [doLearnsApply_eq, hw, heach]

/-- The one learn kept is applied at the second tack after its interval, in its own partition (06 R177). -/
theorem doLearnsApply_of_single {l : Learn} {d : Dev} (ht : l.interval + 2 ≤ d.tck.tno) (hpart : l.part < 8) (hport : l.port < 64)
    (hl : d.stn.learns = [l]) (hw : d.stn.waiting = []) (hc : learnsComplete l.part l.interval d = true) :
    doLearnsApply l.interval d = applyLearn (l.interval + 2) l { d with stn := { d.stn with learns := [] } } := by
  have hone := learnsApplyIn_of_single hl hport hc
  have hjobs : (learnsApplyIn l.interval l.part d).stn.jobs = ([], []) := by
    rw [hone, applyLearn_jobs]
    simp [Stn.jobs, hw]
  obtain ⟨hlearns, hwaiting⟩ := Prod.mk.inj hjobs
  have heach : each (List.range 8) (learnsApplyIn l.interval) d = learnsApplyIn l.interval l.part d := by
    refine each_of_single (List.mem_range.mpr hpart) (fun q _ hq => ?before) fun q _ => ?after
    case before =>
      refine learnsApplyIn_of_none fun x hx hxq => absurd ?_ hq
      obtain rfl : x = l := by simpa [hl] using hx
      exact hxq.symm
    case after => exact learnsApplyIn_of_none (by simp [hlearns])
  rw [doLearnsApply_eq, if_neg (by omega), stnDrain_of_idle hw, heach, stnDrain_of_idle hwaiting, hone]

/-- Settles O14: a station command whose learns are applied goes by the key's bucket; a flush adds its filters; a walk removes what is aged or
flushed; the learns of an interval are applied partition by partition. -/
theorem stations : Obligations.Stations := by
  unfold Obligations.Stations
  refine ⟨fun s hp b part key chid hs => ?commands, fun s hp q => ?walks⟩
  case commands =>
    intro k t here entry
    refine ⟨fun hw hl => ⟨fun hrc hserves => ⟨fun i hi => ?place, fun hhere hfree => ?full⟩, fun h => ?badChannel, fun i h => ?found, fun h => ?absent⟩,
      fun hw hl => ⟨?insertWaits, ?deleteWaits⟩, fun byChan incl value hpart => ?flush, fun byChan incl value hup => ?flushAll,
      fun period => ⟨fun hlow hhigh => ?range, fun h => ?outside⟩⟩
    case place =>
      refine runs_of hp rfl (doStnInsert_of_place hs hw hl hrc hserves ?_)
      obtain hi | ⟨hhere, hfree⟩ := hi
      · exact Option.or_eq_some_iff.mpr (.inl hi)
      · exact Option.or_eq_some_iff.mpr (.inr ⟨hhere, hfree⟩)
    case full => exact runs_of hp rfl (doStnInsert_of_full hs hw hl hrc hserves hhere hfree)
    case badChannel => exact runs_of hp rfl (doStnInsert_of_badChannel hs hw hl h)
    case found => exact runs_of hp rfl (doStnDelete_of_found hs hw hl h)
    case absent => exact runs_of hp rfl (doStnDelete_of_absent hs hw hl h)
    case insertWaits => exact runs_of hp rfl (stnGated_of_unsettled hw hl rfl)
    case deleteWaits => exact runs_of hp rfl (stnGated_of_unsettled hw hl rfl)
    case flush =>
      have hparts := flushParts_of_lt hpart
      have hup : ∀ q ∈ flushParts part, sliceDown s.dev q = false := by simp [hparts, hs]
      refine ⟨fun h => ?fourth, fun h => ?room⟩
      case fourth => exact runs_of hp rfl (doStnFlush_of_fourth hup (by simp [hparts, h]))
      case room =>
        intro f d
        have hflush : doStnFlush b part byChan value incl s.dev = gateDone b stOK [] (stnGated ⟨k, b, part, 0, none, some f⟩ d) := by
          have hroom := doStnFlush_of_room (b := b) (value := value) (byChan := byChan) (incl := incl) hup (by simp [hparts, h])
          rw [hparts] at hroom
          exact hroom
        exact ⟨runs_of hp rfl hflush, fun hw => runs_of hp rfl (hflush.trans (congrArg _ (stnGated_of_flush (d := d) hw rfl)))⟩
    case flushAll =>
      have hup : ∀ q ∈ flushParts 8, sliceDown s.dev q = false := fun q hq => hup q (List.mem_range.mp hq)
      refine ⟨fun ⟨q, hq, h⟩ => ?fourth, fun h => ?room⟩
      case fourth => exact runs_of hp rfl (doStnFlush_of_fourth hup ⟨q, List.mem_range.mpr hq, h⟩)
      case room => exact runs_of hp rfl (doStnFlush_of_room hup fun q hq => h q (List.mem_range.mp hq))
    case range => exact runs_of hp rfl (doStnSetsweep_of_range hlow hhigh)
    case outside => exact runs_of hp rfl (doStnSetsweep_of_outside h)
  case walks =>
    refine ⟨fun w hfind hports => ?due, fun h => ?other, fun f hf hq hl hw => ?flush, fun k h => ?early, fun k _ h hw => ?none,
      fun k l ht hpart hk hport hl hw hc => ?single, fun v hopen => ?search⟩
    case due => exact runs_of hp rfl (doStationWalk_of_due hfind hports)
    case other => exact runs_of hp rfl (doFlushWalk_of_other h)
    case flush =>
      have hwalk := doFlushWalk_eq q s.dev
      rw [dueFlushes_of_single hf hq hl hw] at hwalk
      refine ⟨_, runs_of hp rfl hwalk, ?filters, fun i e he hi => stnFlushed_of_flushed (by simp [hf]) he hi, rfl, rfl⟩
      case filters => simp [flushed, hf]
    case early => exact runs_of hp rfl (doLearnsApply_of_early h)
    case none => exact runs_of hp rfl (doLearnsApply_of_none h hw)
    case single =>
      subst hk
      exact runs_of hp rfl (doLearnsApply_of_single ht hpart hport hl hw hc)
    case search => exact ⟨runs_doneReg_of_open hp hopen rfl rfl, runs_doneReg_of_open hp hopen rfl rfl⟩

end Sys2Proof.Machine

/-! SUPPORT. The Pattern banks: a load that starts or is refused, the two ends of a load, and the switch of the banks (06 R169 to R171, 14 R407). -/

namespace Sys2Proof.Machine

/-! ### PAT_LOAD -/

theorem doPatLoad_of_idle {b : Sub} {slot : Nat} {d : Dev} (hl : d.pat.loading = false) (hsw : switchPending d = false) :
    doPatLoad b slot d = { d with pat := { d.pat with loading := true, loadSlot := slot, loadSub := some b } } := by
  simp [doPatLoad, hl, hsw]

theorem doPatLoad_of_busy {b : Sub} {slot : Nat} {d : Dev} (h : d.pat.loading = true ∨ switchPending d = true) :
    doPatLoad b slot d = complete b 4 stBUSY [] d := if_pos (by simpa using h)

/-! ### PAT_LOAD_COMPLETE -/

/-- No load runs any more. -/
def loadEnded (d : Dev) : Dev := { d with pat := { d.pat with loading := false, loadSub := none } }

/-- The standby bank holds the loaded image, and the load is measured (06 R169, 14 R407). -/
def loadedBank (slot : Nat) (img : Image) (body : Bytes) (d : Dev) : Dev :=
  mrExtend 3 3 (img.digest ++ be 1 slot)
    (setBank (1 - d.tab.actBank) { valid := true, image := body, slot := slot, svn := img.svn, envVer := img.imgVer }
      { d with pat := { d.pat with err := 0 } })

/-- IMGVER of the runtime image that runs, 0 for none. -/
def runtimeVer (d : Dev) : Nat := match d.mod.runtime with | some r => r.imgVer | none => 0

section
variable {b : Sub} {d : Dev} (hl : d.pat.loading = true) (hb : d.pat.loadSub = some b) (hsw : switchSpreads d = false)
include hl hb hsw

/-- An image that fails a check of its envelope leaves the standby bank empty (06 R171). -/
theorem doPatLoadDone_of_bad {c : Nat} (hc : checkImage (loadEnded d) 3 d.pat.loadSlot = .bad c) :
    doPatLoadDone d = complete b 4 stBAD_IMAGE [] (imageRefused 3 d.pat.loadSlot c
      (setBank (1 - d.tab.actBank) {} { loadEnded d with pat := { (loadEnded d).pat with err := 1 } })) := by
  unfold loadEnded at hc
  simp [doPatLoadDone, hl, hb, hsw, hc, loadEnded]

/-- An image that passes every check, and names the runtime image as tested, ends its load without a record (14 R397, R407). -/
theorem doPatLoadDone_of_good {img : Image} {body : Bytes} (hc : checkImage (loadEnded d) 3 d.pat.loadSlot = .good img body)
    (hbody : patCheck body = 0)
    (ht : img.tested.contains (1, runtimeVer (loadedBank d.pat.loadSlot img body (loadEnded d))) = true) :
    doPatLoadDone d = complete b 4 stOK [] (loadedBank d.pat.loadSlot img body (loadEnded d)) := by
  unfold doPatLoadDone
  rw [hl, hb, hsw]
  unfold loadEnded at hc
  simp only [Bool.not_false, Bool.and_true, hc, hbody, ne_eq, not_true_eq_false, if_false]
  exact congrArg (complete b 4 stOK []) (if_pos ht)

end

/-! ### PAT_SWITCH -/

theorem doPatSwitch_of_empty {b : Sub} {d : Dev} (h : (standbyBank d).valid = false) : doPatSwitch b d = gateDone b stNOT_LOADED [] d := by
  simp [doPatSwitch, h]

theorem doPatSwitch_of_bank0 {b : Sub} {d : Dev} (h : (standbyBank d).valid = true) (h0 : d.tab.actBank = 0) : doPatSwitch b d =
    gateDone b stOK [] ((setBank 0 { d.pat.bank0 with valid := false } d).updTab (fun t => { t with actBank := 1 })) := by
  simp [doPatSwitch, h, h0]

/-- Settles O15: a load goes by what runs and by the first check that fails, a switch by whether the standby bank is valid. -/
theorem patternBanks : Obligations.PatternBanks := by
  unfold Obligations.PatternBanks
  refine fun s hp b => ⟨fun slot hl hsw => ?idle, fun slot h => ?busy, fun hl hb hsw => ?ends, fun h => ?empty, fun h h0 => ?switch⟩
  case idle => exact runs_of hp rfl (doPatLoad_of_idle hl hsw)
  case busy => exact runs_of hp rfl (doPatLoad_of_busy h)
  case ends =>
    intro stby d
    refine ⟨fun c hc => ?bad, fun img body hc hbody => ?good⟩
    case bad => exact runs_of hp rfl (doPatLoadDone_of_bad hl hb hsw hc)
    case good =>
      intro d1 d2 ht
      exact runs_of hp rfl (doPatLoadDone_of_good hl hb hsw hc hbody ht)
  case empty => exact runs_of hp rfl (doPatSwitch_of_empty h)
  case switch => exact runs_of hp rfl (doPatSwitch_of_bank0 h h0)

end Sys2Proof.Machine

/-! SUPPORT. Key commands, a branch at a time: what KEY_GEN, KEY_TICKET and KEY_CLEAR make of the device once no refusal applies (07 R186, R190 to
R192, Table 07-3). -/

namespace Sys2Proof.Machine

/-! ### Key commands and their refusals -/

@[simp] theorem keyGuards_nil (b : Sub) (f : Dev → Dev) (d : Dev) : keyGuards b [] f d = f d := rfl

@[simp] theorem keyGuards_cons (b : Sub) (c : Bool) (st : Nat) (l : List (Bool × Nat)) (f : Dev → Dev) (d : Dev) :
    keyGuards b ((c, st) :: l) f d = if c = true then complete b engKey st [] d else keyGuards b l f d := rfl

theorem ticketRoom_of_room {d : Dev} (h : d.keys.tickets.length < 256) : ticketRoom d = true := by simpa [ticketRoom] using h

theorem ticketRoom_of_full {d : Dev} (h : 256 ≤ d.keys.tickets.length) : ticketRoom d = false := by simpa [ticketRoom] using h

/-- A ticket, and a source of AES, takes a key of 16 or 32 bytes (07 R191). -/
theorem aesLen_of {n : Nat} (h : n = 16 ∨ n = 32) : (n == 16 || n == 32) = true := by simpa using h

/-! ### Destinations (13 R370) -/

@[simp] theorem destLpk_destTicket : destLpk destTicket = none := rfl

theorem destLpk_of_kek {n : Nat} (h : n < 1024) : destLpk n = none := by
  have hlow : ¬0x40000000 ≤ n := by omega
  simp [destLpk, hlow]

theorem destLpk_of_lpk {n : Nat} (h : n < 64) : destLpk (0x40000000 + n) = some n := by
  have hhigh : 0x40000000 + n < 0x40000040 := by omega
  simp [destLpk, offFrom, hhigh]

/-! ### KEY_GEN -/

section
variable {b : Sub} {len dest usage keyId : Nat} {d : Dev} (hm : keyBadMode (subReq b) false false d = false) (hr : rngBad d = false)
  (hk : noKwr d = false)
include hm hr hk

theorem doKeyGen_of_taken (hd : dest ≠ destTicket) (hf : kekFree dest d = false) :
    doKeyGen b len dest usage keyId d = complete b engKey stBAD_SLOT [] d := by
  simp [doKeyGen, hm, hr, hk, hd, hf]

variable (hl : len = 16 ∨ len = 32)
include hl

theorem doKeyGen_of_slot (hd : dest ≠ destTicket) (hf : kekFree dest d = true) (hu : badUsage usage len = false) :
    doKeyGen b len dest usage keyId d =
      complete b engKey stOK [] (putKek dest .generated usage keyId (freeBytes len d).1 (freeBytes len d).2) := by
  simp [doKeyGen, hm, hr, hk, hd, hf, hu, aesLen_of hl]

theorem doKeyGen_of_ticket (hd : dest = destTicket) (ht : d.keys.tickets.length < 256) :
    doKeyGen b len dest usage keyId d =
      let n := newTicket (freeBytes len d).1 true (subReq b) (freeBytes len d).2
      complete b engKey stOK [n.1] n.2 := by
  simp [doKeyGen, hm, hr, hk, hd, aesLen_of hl, ticketRoom_of_room ht]

theorem doKeyGen_of_noTicket (hd : dest = destTicket) (ht : 256 ≤ d.keys.tickets.length) :
    doKeyGen b len dest usage keyId d = complete b engKey stNO_TICKET [] d := by
  simp [doKeyGen, hm, hr, hk, hd, aesLen_of hl, ticketRoom_of_full ht]

end

/-! ### KEY_TICKET -/

/-- A ticket drawn FRESH uses the slot's FRESHLEFT up (07 R192). -/
def useFresh (slot : Nat) (fresh : Bool) (d : Dev) : Dev := if fresh = true then d.updKek slot (fun k => { k with freshLeft := false }) else d

section
variable {b : Sub} {slot : Nat} {fresh : Bool} {d : Dev} (hm : keyBadMode (subReq b) false false d = false) (hk : noKwr d = false)
  (hv : kekValid slot d = true) (hu : bitAt (d.getKek slot).usage uSAK = true)
include hm hk hv hu

theorem doKeyTicket_of_room (hf : fresh = true → (d.getKek slot).freshLeft = true) (ht : d.keys.tickets.length < 256) :
    doKeyTicket b slot fresh d =
      let n := newTicket (d.getKek slot).key fresh (subReq b) (useFresh slot fresh d)
      complete b engKey stOK [n.1] n.2 := by
  have hfresh : (fresh && !(d.getKek slot).freshLeft) = false := by simpa using hf
  simp [doKeyTicket, hm, hk, hv, hu, hfresh, ticketRoom_of_room ht, useFresh]

theorem doKeyTicket_of_used (hf : fresh = true) (h : (d.getKek slot).freshLeft = false) :
    doKeyTicket b slot fresh d = complete b engKey stNOT_FRESH [] d := by
  simp [doKeyTicket, hm, hk, hv, hu, hf, h]

end

/-! ### KEY_CLEAR -/

section
variable {b : Sub} {n : Nat} {d : Dev} (hm : keyBadMode (subReq b) false false d = false) (h2 : 2 ≤ n)
include hm h2

theorem doKeyClear_of_kek (h : n < 1024) : doKeyClear b n d = complete b engKey stOK [] (clearKek n d) := by
  simp [doKeyClear, hm, destLpk_of_kek h, Nat.not_lt.mpr h2, Nat.not_le.mpr h]

theorem doKeyClear_of_lpk (h : n < 64) : doKeyClear b (0x40000000 + n) d = complete b engKey stOK [] (clearLpk n d) := by
  simp [doKeyClear, hm, destLpk_of_lpk h, Nat.not_lt.mpr h2]

end

/-! ### The end of a ticket -/

theorem doTicketExpiry_of_held {h : Nat} {t : Ticket} {d : Dev} (ht : d.keys.tickets.find? (fun t => t.handle == h) = some t) :
    doTicketExpiry h d = event 0x0701 1 (be 1 h ++ be 1 t.requester)
      { d with keys := { d.keys with tickets := d.keys.tickets.filter (fun t => t.handle != h) } } := by
  simp [doTicketExpiry, ht]

/-! ### The random source (07 R186) -/

/-- A failed health test stops the source and raises its fault. -/
def rngStop (test : Nat) (d : Dev) : Dev := event 0x0704 3 (be 1 test) { d with keys := { d.keys with rngFault := true, rngOk := false } }

theorem exec_rngHealthFail (test : Nat) (s : State) : exec (.rngHealthFail test) s = done s (rngStop test) := rfl

/-- A retest decides whether a source that fails runs again. -/
def rngAgain (pass : Bool) (d : Dev) : Dev := if d.keys.rngOk then d else { d with keys := { d.keys with rngOk := pass } }

theorem exec_rngRetest (pass : Bool) (s : State) : exec (.rngRetest pass) s = done s (rngAgain pass) := rfl

/-- Settles O16: each key command goes by the first refusal that holds, and past them by its destination; the random source goes by its tests. -/
theorem keySources : Obligations.KeySources := by
  unfold Obligations.KeySources
  refine ⟨fun s hp b hm => ⟨fun len dest usage keyId hr hk hl => ?gen, fun slot fresh hk hv hu => ?draw, fun slot h2 h => ?clearKek,
    fun n h2 h => ?clearLpk, fun h t ht => ?expiry⟩, fun s hp => ⟨fun test => ?healthFail, fun pass => ⟨fun h => ?running, fun h => ?failing⟩⟩⟩
  case gen =>
    refine ⟨fun hd hf hu => ?slot, fun hd ht => ?ticket, fun hd ht => ?noTicket, fun hd hf => ?taken⟩
    case slot => exact runs_of hp rfl (doKeyGen_of_slot hm hr hk hl hd hf hu)
    case ticket => exact runs_of hp rfl (doKeyGen_of_ticket hm hr hk hl hd ht)
    case noTicket => exact runs_of hp rfl (doKeyGen_of_noTicket hm hr hk hl hd ht)
    case taken => exact runs_of hp rfl (doKeyGen_of_taken hm hr hk hd hf)
  case draw =>
    exact ⟨fun hf ht => runs_of hp rfl (doKeyTicket_of_room hm hk hv hu hf ht), fun hf h => runs_of hp rfl (doKeyTicket_of_used hm hk hv hu hf h)⟩
  case clearKek => exact runs_of hp rfl (doKeyClear_of_kek hm h2 h)
  case clearLpk => exact runs_of hp rfl (doKeyClear_of_lpk hm h2 h)
  case expiry => exact runs_of hp rfl (doTicketExpiry_of_held ht)
  case healthFail => exact runs_of hp (exec_rngHealthFail test s) rfl
  case running => exact runs_of hp (exec_rngRetest pass s) (if_pos h)
  case failing => exact runs_of hp (exec_rngRetest pass s) (if_neg (by simp [h]))

end Sys2Proof.Machine

/-! SUPPORT. Keys derived, combined, wrapped and unwrapped: what each command makes of the device by its destination, once no refusal applies
(07 R189 to R197, R206, Table 07-3). -/

namespace Sys2Proof.Machine

/-! ### KEY_DERIVE -/

/-- A qualifying derivation raises the source's DCTR (07 R190). -/
def raiseDctr (src ctr : Nat) (d : Dev) : Dev := d.updKek src (fun k => { k with dctr := ctr })

/-- Function 1 runs AES under its source key (log entry 95). -/
theorem aesSource_of {func n : Nat} (h : func = 1 → n = 16 ∨ n = 32) : func ≠ 1 ∨ (n == 16 || n == 32) = true :=
  (ne_or_eq func 1).imp_right fun h1 => aesLen_of (h h1)

section
variable {b : Sub} {src func : Nat} {label : Bytes} {ctr : Nat} {ctx : Bytes} {len dest usage keyId : Nat} {fresh : Bool} {d : Dev}
  (hm : keyBadMode (subReq b) false false d = false) (hk : noKwr d = false)
  (hv : kekValid src d = true) (hu : bitAt (d.getKek src).usage uDERIVE = true) (hfunc : func ≤ 1) (hlen : len ≤ 64) (hlabel : label.length ≤ 32)
  (hctx : ctx.length ≤ 64) (haes : func = 1 → (d.getKek src).key.length = 16 ∨ (d.getKek src).key.length = 32)

include hm hk hv hu hfunc hlen hlabel hctx haes

/-- A derivation into a free slot is refused only for a FRESH that it does not qualify for. -/
theorem doKeyDerive_to_slot (hd : dest ≠ destTicket) (hf : kekFree dest d = true) (hus : badUsage usage len = false) :
    doKeyDerive b src func 0 label ctr ctx len dest usage keyId fresh d =
      if fresh = true ∧ freshSource (d.getKek src) func ctr = false then complete b engKey stNOT_FRESH [] d
      else complete b engKey stOK [] (putKek dest (if freshSource (d.getKek src) func ctr = true then .ephemeral else .persistent) usage keyId
        (derived (d.getKek src) func 0 label ctr ctx len) (if freshSource (d.getKek src) func ctr = true then raiseDctr src ctr d else d)) := by
  obtain hkey | hkey := aesSource_of haes <;>
    simp [doKeyDerive, hm, hk, hv, hd, hf, hus, hu, hkey, raiseDctr, hfunc.not_gt, hlen.not_gt, hlabel.not_gt, hctx.not_gt]

/-- A derivation that makes a ticket is refused for a FRESH that it does not qualify for, or while 256 tickets stand. -/
theorem doKeyDerive_to_ticket (hl : len = 16 ∨ len = 32) :
    doKeyDerive b src func 0 label ctr ctx len destTicket usage keyId fresh d =
      if fresh = true ∧ freshSource (d.getKek src) func ctr = false then complete b engKey stNOT_FRESH [] d
      else if ticketRoom d = false then complete b engKey stNO_TICKET [] d
      else
        let n := newTicket (derived (d.getKek src) func 0 label ctr ctx len) fresh (subReq b) (if fresh = true then raiseDctr src ctr d else d)
        complete b engKey stOK [n.1] n.2 := by
  obtain hkey | hkey := aesSource_of haes <;>
    simp [doKeyDerive, hm, hk, hv, hu, hkey, aesLen_of hl, raiseDctr, hfunc.not_gt, hlen.not_gt, hlabel.not_gt, hctx.not_gt]

end

/-- A public output goes to memory, whatever its USAGE (07 R194). -/
theorem doKeyDerive_to_memory {b : Sub} {src : Nat} {label : Bytes} {ctr : Nat} {ctx : Bytes} {len dest usage keyId : Nat} {d : Dev}
    (hm : keyBadMode (subReq b) false false d = false) (hv : kekValid src d = true) (hu : bitAt (d.getKek src).usage uDERIVE = true)
    (hlen : len ≤ 64) (hlabel : label.length ≤ 32) (hctx : ctx.length ≤ 64)
    (hw : (engWrite (subReq b) dest (derived (d.getKek src) 0 1 label ctr ctx len) d).1 = true) :
    doKeyDerive b src 0 1 label ctr ctx len dest usage keyId false d =
      complete b engKey stOK [len] (engWrite (subReq b) dest (derived (d.getKek src) 0 1 label ctr ctx len) d).2 := by
  simp [doKeyDerive, hm, hv, hu, hw, hlen.not_gt, hlabel.not_gt, hctx.not_gt]

/-! ### KEY_COMBINE -/

/-- The combined key goes to the destination, from a device whose sources are cleared, under a KEYID of the device's (07 R206). -/
def putCombined (dest : Nat) (key : Bytes) (d : Dev) : Dev :=
  putKek dest .ephemeral (2 ^ uDERIVE) (freeKeyId d).1 key (freeKeyId d).2

section
variable {b : Sub} {x : Nat} {hash : Bytes} {dest : Nat} {d : Dev} (hm : keyBadMode (subReq b) false false d = false) (hk : noKwr d = false)
  (hx : x < 1024) (hex : isEphDerive (d.getKek x) = true) (hf : kekFree dest d = true)
include hm hk hx hex hf

theorem doKeyCombine_of_one : doKeyCombine b x none hash dest d =
    complete b engKey stOK [] (putCombined dest (combineKey (d.getKek x).key [] (fit 64 hash)) (clearKek x d)) := by
  simp [doKeyCombine, hm, hk, hx, hex, hf, putCombined]

theorem doKeyCombine_of_two {y : Nat} (hy : y < 1024) (hey : isEphDerive (d.getKek y) = true) : doKeyCombine b x (some y) hash dest d =
    complete b engKey stOK []
      (putCombined dest (combineKey (d.getKek x).key (d.getKek y).key (fit 64 hash)) (clearKek y (clearKek x d))) := by
  simp [doKeyCombine, hm, hk, hx, hex, hf, hy, hey, putCombined]

end

/-! ### KEY_WRAP -/

/-- What KEY_WRAP writes: a blob, or the key by AES-KW (07 R197). -/
def wrapped (wk : Bytes) (k : Kek) (fmt : Nat) : Bytes := if fmt = 0 then makeBlob wk k else kwWrap wk k.key

section
variable {b : Sub} {src wrapSlot fmt addr : Nat} {d : Dev} (hm : keyBadMode (subReq b) true false d = false)
include hm

theorem doKeyWrap_of_notOwner (ho : ownsSce (subReq b) d = false) :
    doKeyWrap b src wrapSlot fmt addr d = complete b engKey stNOT_OWNER [] d := by simp [doKeyWrap, hm, ho]

theorem doKeyWrap_of_owner (ho : ownsSce (subReq b) d = true) (hs : kekValid src d = true) (h2 : 2 ≤ src) (hv : kekValid wrapSlot d = true)
    (he : bitAt (d.getKek src).usage uEXPORT = true) (hu : bitAt (d.getKek wrapSlot).usage uWRAP = true)
    (hfmt : fmt = 0 ∨ fmt = 1 ∧ ((d.getKek src).key.length = 16 ∨ (d.getKek src).key.length = 32))
    {out : Bytes} (hout : wrapped (d.getKek wrapSlot).key (d.getKek src) fmt = out) (hw : (engWrite (subReq b) addr out d).1 = true) :
    doKeyWrap b src wrapSlot fmt addr d = complete b engKey stOK [out.length] (engWrite (subReq b) addr out d).2 := by
  subst hout
  obtain rfl | ⟨rfl, hl⟩ := hfmt
  · simp only [wrapped, if_true] at hw ⊢
    simp [doKeyWrap, hm, ho, hs, hv, he, hu, hw, h2.not_gt]
  · simp only [wrapped, one_ne_zero, if_false] at hw ⊢
    simp [doKeyWrap, hm, ho, hs, hv, he, hu, hw, h2.not_gt, aesLen_of hl]

end

/-! ### KEY_UNWRAP: what the data holds -/

/-- The material that the data holds, with its KIND, its USAGE and, from a blob, its KEYID; `none` where a condition fails (07 R195, R196). -/
def unwrapped (wk : Bytes) (wrapSlot fmt usage : Nat) (data : Bytes) : Option (Nat × Bytes × Nat × Option Nat) :=
  if fmt = 0 then (openBlob wk wrapSlot data).map (fun x => (x.1, x.2.1, x.2.2.1, some x.2.2.2))
  else (kwUnwrap wk data).bind (fun k => if k.length = 16 || k.length = 32 then some (0, k, usage, none) else none)

section
variable {wk data key : Bytes} {wrapSlot usage : Nat}

theorem unwrapped_blob_none (h : openBlob wk wrapSlot data = none) : unwrapped wk wrapSlot 0 usage data = none := by simp [unwrapped, h]

theorem unwrapped_blob_some {kind use kid : Nat} (h : openBlob wk wrapSlot data = some (kind, key, use, kid)) :
    unwrapped wk wrapSlot 0 usage data = some (kind, key, use, some kid) := by simp [unwrapped, h]

theorem unwrapped_kw_none (h : kwUnwrap wk data = none) : unwrapped wk wrapSlot 1 usage data = none := by simp [unwrapped, h]

theorem unwrapped_kw_badLen (h : kwUnwrap wk data = some key) (h16 : key.length ≠ 16) (h32 : key.length ≠ 32) :
    unwrapped wk wrapSlot 1 usage data = none := by simp [unwrapped, h, h16, h32]

theorem unwrapped_kw_some (h : kwUnwrap wk data = some key) (hl : key.length = 16 ∨ key.length = 32) :
    unwrapped wk wrapSlot 1 usage data = some (0, key, usage, none) := by simp [unwrapped, h, hl]

end

/-! ### KEY_UNWRAP: where the material goes -/

/-- Unwrapped material goes to its destination, or is refused there; data that fails a condition is recorded (07 R196). -/
def placeKey (b : Sub) (fmt : Nat) (data : Bytes) (wrapSlot dest : Nat) (got : Option (Nat × Bytes × Nat × Option Nat)) (d : Dev) : Dev :=
  match got with
  | none => badBlob b fmt wrapSlot data d
  | some (kind, key, use, kid) =>
    let id := match kid with | some i => (i, d) | none => freeKeyId d
    match destLpk dest with
    | some n =>
      if kind = 0 then complete b engKey stBAD_SLOT [] d
      else complete b engKey stOK [] (id.2.updLpk n (fun _ => { valid := true, type := 3, keyId := id.1, key := key }))
    | none =>
      if kind = 1 then complete b engKey stBAD_SLOT [] d
      else if (dest == destTicket && !(key.length == 16 || key.length == 32)) || (!(dest == destTicket) && badUsage use key.length) then
        complete b engKey stBAD_USAGE [] d
      else if dest == destTicket then
        if !ticketRoom d then complete b engKey stNO_TICKET [] d
        else
          let n := newTicket key false (subReq b) d
          complete b engKey stOK [n.1] n.2
      else complete b engKey stOK [] (putKek dest .persistent use id.1 key id.2)

section
variable {b : Sub} {fmt : Nat} {data key : Bytes} {wrapSlot dest use n : Nat} {kid : Option Nat} {d : Dev}

theorem placeKey_none : placeKey b fmt data wrapSlot dest none d = badBlob b fmt wrapSlot data d := rfl

theorem placeKey_lpk_key (hn : destLpk dest = some n) :
    placeKey b fmt data wrapSlot dest (some (0, key, use, kid)) d = complete b engKey stBAD_SLOT [] d := by simp [placeKey, hn]

theorem placeKey_lpk_seed {i : Nat} (hn : destLpk dest = some n) :
    placeKey b fmt data wrapSlot dest (some (1, key, use, some i)) d =
      complete b engKey stOK [] (d.updLpk n (fun _ => { valid := true, type := 3, keyId := i, key := key })) := by simp [placeKey, hn]

theorem placeKey_kek_seed (hn : destLpk dest = none) :
    placeKey b fmt data wrapSlot dest (some (1, key, use, kid)) d = complete b engKey stBAD_SLOT [] d := by simp [placeKey, hn]

section
variable (hd : dest ≠ destTicket) (hn : destLpk dest = none)
include hd hn

theorem placeKey_kek_badUsage (h : badUsage use key.length = true) :
    placeKey b fmt data wrapSlot dest (some (0, key, use, kid)) d = complete b engKey stBAD_USAGE [] d := by simp [placeKey, hn, hd, h]

variable (h : badUsage use key.length = false)
include h

theorem placeKey_kek_blob {i : Nat} : placeKey b fmt data wrapSlot dest (some (0, key, use, some i)) d =
    complete b engKey stOK [] (putKek dest .persistent use i key d) := by simp [placeKey, hn, hd, h]

theorem placeKey_kek_kw : placeKey b fmt data wrapSlot dest (some (0, key, use, none)) d =
    complete b engKey stOK [] (putKek dest .persistent use (freeKeyId d).1 key (freeKeyId d).2) := by simp [placeKey, hn, hd, h]

end

theorem placeKey_ticket_badLen (h16 : key.length ≠ 16) (h32 : key.length ≠ 32) :
    placeKey b fmt data wrapSlot destTicket (some (0, key, use, kid)) d = complete b engKey stBAD_USAGE [] d := by simp [placeKey, h16, h32]

variable (hl : key.length = 16 ∨ key.length = 32)
include hl

theorem placeKey_ticket_full (ht : 256 ≤ d.keys.tickets.length) :
    placeKey b fmt data wrapSlot destTicket (some (0, key, use, kid)) d = complete b engKey stNO_TICKET [] d := by
  simp [placeKey, aesLen_of hl, ticketRoom_of_full ht]

theorem placeKey_ticket_room (ht : d.keys.tickets.length < 256) :
    placeKey b fmt data wrapSlot destTicket (some (0, key, use, kid)) d =
      complete b engKey stOK [(newTicket key false (subReq b) d).1] (newTicket key false (subReq b) d).2 := by
  simp [placeKey, aesLen_of hl, ticketRoom_of_room ht]

end

/-! ### KEY_UNWRAP -/

/-- KEY_UNWRAP refuses the destination before it looks at the data: a slot that is not free, and an LPK slot for an AES-KW key (Table 07-3). -/
def badUnwrapDest (fmt dest : Nat) (d : Dev) : Bool :=
  match destLpk dest with
  | some n => fmt == 1 || !lpkFree n d
  | none => !(dest == destTicket) && !kekFree dest d

section
variable {fmt dest n : Nat} {d : Dev}

@[simp] theorem badUnwrapDest_ticket : badUnwrapDest fmt destTicket d = false := by simp [badUnwrapDest]

theorem badUnwrapDest_kek (hd : dest ≠ destTicket) (hn : destLpk dest = none) : badUnwrapDest fmt dest d = !kekFree dest d := by
  simp [badUnwrapDest, hd, hn]

theorem badUnwrapDest_lpk (hn : destLpk dest = some n) : badUnwrapDest fmt dest d = (fmt == 1 || !lpkFree n d) := by simp [badUnwrapDest, hn]

end

section
variable {b : Sub} {fmt : Nat} {data : Bytes} {wrapSlot dest usage : Nat} {d : Dev}

theorem doKeyUnwrap_eq : doKeyUnwrap b fmt data wrapSlot dest usage d =
    keyGuards b
      [(keyBadMode (subReq b) true true d, stBAD_MODE), (!ownsSce (subReq b) d, stNOT_OWNER), (noKwr d, stRNG_FAULT),
       (!kekValid wrapSlot d || badUnwrapDest fmt dest d, stBAD_SLOT),
       (!bitAt (d.getKek wrapSlot).usage uUNWRAP || decide (1 < fmt)
          || (fmt == 1 && !(dest == destTicket) && (destLpk dest).isNone && badUsage usage 16), stBAD_USAGE)]
      (placeKey b fmt data wrapSlot dest (unwrapped (d.getKek wrapSlot).key wrapSlot fmt usage data)) d := rfl

variable (hm : keyBadMode (subReq b) true true d = false)
include hm

theorem doKeyUnwrap_of_notOwner (ho : ownsSce (subReq b) d = false) :
    doKeyUnwrap b fmt data wrapSlot dest usage d = complete b engKey stNOT_OWNER [] d := by simp [doKeyUnwrap_eq, hm, ho]

variable (ho : ownsSce (subReq b) d = true) (hk : noKwr d = false)
include ho hk

theorem doKeyUnwrap_of_badDest (h : badUnwrapDest fmt dest d = true) :
    doKeyUnwrap b fmt data wrapSlot dest usage d = complete b engKey stBAD_SLOT [] d := by simp [doKeyUnwrap_eq, hm, ho, hk, h]

variable (hv : kekValid wrapSlot d = true) (hu : bitAt (d.getKek wrapSlot).usage uUNWRAP = true) (hf : badUnwrapDest fmt dest d = false)
include hv hu hf

/-- A USAGE that no key of AES-KW may take in a KEK slot is refused before the data is looked at (Table 07-3). -/
theorem doKeyUnwrap_of_badUsage (h1 : fmt = 1) (hd : dest ≠ destTicket) (hn : destLpk dest = none) (hus : badUsage usage 16 = true) :
    doKeyUnwrap b fmt data wrapSlot dest usage d = complete b engKey stBAD_USAGE [] d := by
  subst h1
  simp [doKeyUnwrap_eq, hm, ho, hk, hv, hu, hf, hd, hn, hus]

/-- Past its refusals, an unwrap places what the data holds. -/
theorem doKeyUnwrap_of_placed (h : fmt = 0 ∨ fmt = 1 ∧ (dest = destTicket ∨ badUsage usage 16 = false))
    {got : Option (Nat × Bytes × Nat × Option Nat)} (hg : unwrapped (d.getKek wrapSlot).key wrapSlot fmt usage data = got) :
    doKeyUnwrap b fmt data wrapSlot dest usage d = placeKey b fmt data wrapSlot dest got d := by
  subst hg
  obtain rfl | ⟨rfl, rfl | hus⟩ := h
  · simp [doKeyUnwrap_eq, hm, ho, hk, hv, hu, hf]
  · simp [doKeyUnwrap_eq, hm, ho, hk, hv, hu]
  · simp [doKeyUnwrap_eq, hm, ho, hk, hv, hu, hf, hus]

end

/-- Settles O17: a derivation and an unwrap go by their destination, a combination by its sources, a wrap by its format; past the refusals of
Table 07-3, an unwrap is what the data holds, placed at the destination. -/
theorem keyOutputs : Obligations.KeyOutputs := by
  unfold Obligations.KeyOutputs
  refine ⟨fun s hp b hm hk => ⟨fun src func label ctr ctx len dest usage keyId fresh => ?derive, fun x hash dest hx hex hf => ?combine⟩,
    fun s hp b => ⟨fun hm src wrapSlot fmt addr => ⟨?wrapNotOwner, ?wrap⟩, fun hm data wrapSlot usage => ⟨?unwrapNotOwner, fun ho hk hv hu => ?unwrap⟩⟩⟩
  case derive =>
    intro k hv hu hfunc hlen hlabel hctx haes
    refine ⟨fun hf hd hus => ?slot, fun hl => ?ticket, ?memory⟩
    case slot =>
      have hrun := doKeyDerive_to_slot (b := b) (ctr := ctr) (keyId := keyId) (fresh := fresh) hm hk hv hu hfunc hlen hlabel hctx haes hd hf hus
      exact ⟨fun hq => runs_of hp rfl (hrun.trans (by simp [hq, k, raiseDctr])), fun hq hfr => runs_of hp rfl (hrun.trans (by simp [hq, hfr, k])),
        fun hq hfr => runs_of hp rfl (hrun.trans (by simp [hq, hfr, k]))⟩
    case ticket =>
      have hrun := doKeyDerive_to_ticket (b := b) (ctr := ctr) (usage := usage) (keyId := keyId) (fresh := fresh) hm hk hv hu hfunc hlen hlabel hctx
        haes hl
      refine ⟨fun hq hfr => runs_of hp rfl (hrun.trans (if_pos ⟨hfr, hq⟩)), fun hq => ?qualified⟩
      have hok : ¬(fresh = true ∧ freshSource k func ctr = false) := by simpa using hq
      exact ⟨fun ht => runs_of hp rfl (hrun.trans ((if_neg hok).trans (if_pos (ticketRoom_of_full ht)))),
        fun ht => runs_of hp rfl (hrun.trans ((if_neg hok).trans (if_neg (by simp [ticketRoom_of_room ht]))))⟩
    case memory =>
      rintro rfl rfl hw
      exact runs_of hp rfl (doKeyDerive_to_memory hm hv hu hlen hlabel hctx hw)
  case combine =>
    exact ⟨runs_of hp rfl (doKeyCombine_of_one hm hk hx hex hf), fun y hy hey => runs_of hp rfl (doKeyCombine_of_two hm hk hx hex hf hy hey)⟩
  case wrapNotOwner => exact fun ho => runs_of hp rfl (doKeyWrap_of_notOwner hm ho)
  case wrap => exact fun ho hs h2 hv he hu hfmt hw => runs_of hp rfl (doKeyWrap_of_owner hm ho hs h2 hv he hu hfmt rfl hw)
  case unwrapNotOwner => exact fun fmt dest ho => runs_of hp rfl (doKeyUnwrap_of_notOwner hm ho)
  case unwrap =>
    intro wk answers puts recorded ticketed
    have place : ∀ {fmt dest : Nat} {got : Option (Nat × Bytes × Nat × Option Nat)} {d : Dev}, badUnwrapDest fmt dest s.dev = false →
        (fmt = 0 ∨ fmt = 1 ∧ (dest = destTicket ∨ badUsage usage 16 = false)) → unwrapped wk wrapSlot fmt usage data = got →
        placeKey b fmt data wrapSlot dest got s.dev = d → Runs (.keyUnwrap b fmt data wrapSlot dest usage) s d :=
      fun hf h hg hd => runs_of hp rfl ((doKeyUnwrap_of_placed hm ho hk hv hu hf h hg).trans hd)
    have badDest : ∀ {fmt dest : Nat}, badUnwrapDest fmt dest s.dev = true → answers fmt dest stBAD_SLOT :=
      fun h => runs_of hp rfl (doKeyUnwrap_of_badDest hm ho hk h)
    refine ⟨fun dest hd hn => ⟨fun hf => ?takenKek, fun hf => ?freeKek⟩, ?ticket, fun dest n hn => ⟨fun hf => ?takenLpk, ?kwLpk, fun hf => ?freeLpk⟩⟩
    case takenKek =>
      have hbad : ∀ fmt : Nat, badUnwrapDest fmt dest s.dev = true := fun fmt => by simp [badUnwrapDest_kek hd hn, hf]
      exact ⟨badDest (hbad 0), badDest (hbad 1)⟩
    case freeKek =>
      have hok : ∀ fmt : Nat, badUnwrapDest fmt dest s.dev = false := fun fmt => by simp [badUnwrapDest_kek hd hn, hf]
      refine ⟨fun h => ?badBlob, fun key use kid h => ?seed, fun key use kid h => ⟨fun hus => ?blobUsage, fun hus => ?blob⟩,
        fun hus => ?kwUsage, fun hus => ⟨fun h => ?badKw, fun key h => ⟨fun h16 h32 => ?kwLen, fun hl hus' => ?kw⟩⟩⟩
      case badBlob => exact place (hok 0) (.inl rfl) (unwrapped_blob_none h) placeKey_none
      case seed => exact place (hok 0) (.inl rfl) (unwrapped_blob_some h) (placeKey_kek_seed hn)
      case blobUsage => exact place (hok 0) (.inl rfl) (unwrapped_blob_some h) (placeKey_kek_badUsage hd hn hus)
      case blob => exact place (hok 0) (.inl rfl) (unwrapped_blob_some h) (placeKey_kek_blob hd hn hus)
      case kwUsage => exact runs_of hp rfl (doKeyUnwrap_of_badUsage hm ho hk hv hu (hok 1) rfl hd hn hus)
      case badKw => exact place (hok 1) (.inr ⟨rfl, .inr hus⟩) (unwrapped_kw_none h) placeKey_none
      case kwLen => exact place (hok 1) (.inr ⟨rfl, .inr hus⟩) (unwrapped_kw_badLen h h16 h32) placeKey_none
      case kw => exact place (hok 1) (.inr ⟨rfl, .inr hus⟩) (unwrapped_kw_some h hl) (placeKey_kek_kw hd hn hus')
    case ticket =>
      refine ⟨fun h => ?badBlob, fun key use kid h => ⟨fun h16 h32 => ?blobLen, fun hl => ?blob⟩, fun key h hl => ?kw⟩
      case badBlob => exact place badUnwrapDest_ticket (.inl rfl) (unwrapped_blob_none h) placeKey_none
      case blobLen => exact place badUnwrapDest_ticket (.inl rfl) (unwrapped_blob_some h) (placeKey_ticket_badLen h16 h32)
      case blob =>
        exact ⟨fun ht => place badUnwrapDest_ticket (.inl rfl) (unwrapped_blob_some h) (placeKey_ticket_full hl ht),
          fun ht => place badUnwrapDest_ticket (.inl rfl) (unwrapped_blob_some h) (placeKey_ticket_room hl ht)⟩
      case kw =>
        exact ⟨fun ht => place badUnwrapDest_ticket (.inr ⟨rfl, .inl rfl⟩) (unwrapped_kw_some h hl) (placeKey_ticket_full hl ht),
          fun ht => place badUnwrapDest_ticket (.inr ⟨rfl, .inl rfl⟩) (unwrapped_kw_some h hl) (placeKey_ticket_room hl ht)⟩
    case takenLpk => exact badDest (by simp [badUnwrapDest_lpk hn, hf])
    case kwLpk => exact badDest (by simp [badUnwrapDest_lpk hn])
    case freeLpk =>
      have hok : badUnwrapDest 0 dest s.dev = false := by simp [badUnwrapDest_lpk hn, hf]
      exact ⟨fun h => place hok (.inl rfl) (unwrapped_blob_none h) placeKey_none,
        fun key use kid h => place hok (.inl rfl) (unwrapped_blob_some h) (placeKey_lpk_key hn),
        fun key use kid h => place hok (.inl rfl) (unwrapped_blob_some h) (placeKey_lpk_seed hn)⟩

end Sys2Proof.Machine

/-! SUPPORT. The lattice engine, a step at a time: how a command joins the queue, what it finds when it starts, and what its end makes of the device
(07 R187, R198, R199; 14 R406). -/

namespace Sys2Proof.Machine

/-! ### The queue (07 R199) -/

section
variable {c : LatCmd} {d : Dev}

theorem latQueue_of_badMode (hm : keyBadMode (subReq c.sub) false (latAlien c) d = true) : latQueue c d = complete c.sub engLat stBAD_MODE [] d := by
  simp [latQueue, hm]

variable (hm : keyBadMode (subReq c.sub) false (latAlien c) d = false)
include hm

theorem latQueue_of_room (h : d.keys.latQueue.length < 256) :
    latQueue c d = { d with keys := { d.keys with latQueue := d.keys.latQueue ++ [c] } } := by
  simp [latQueue, hm, h.not_ge]

theorem latQueue_of_full (h : 256 ≤ d.keys.latQueue.length) : latQueue c d = complete c.sub engLat stBUSY [] d := by
  simp [latQueue, hm, h]

end

/-- A row that submits a lattice command queues it, or answers BAD_MODE or BUSY. -/
theorem runs_latQueue {i : Instr} {b : Sub} {code : Nat} {args : List Nat} {data : List Bytes} {s : State} (hp : Powered s)
    (hx : exec i s = done s (latQueue ⟨b, code, args, data, false, none⟩)) :
    (keyBadMode (subReq b) false (latAlien ⟨b, code, args, data, false, none⟩) s.dev = true → Runs i s (complete b engLat stBAD_MODE [] s.dev)) ∧
    (keyBadMode (subReq b) false (latAlien ⟨b, code, args, data, false, none⟩) s.dev = false →
      (s.dev.keys.latQueue.length < 256 →
        Runs i s { s.dev with keys := { s.dev.keys with latQueue := s.dev.keys.latQueue ++ [⟨b, code, args, data, false, none⟩] } }) ∧
      (256 ≤ s.dev.keys.latQueue.length → Runs i s (complete b engLat stBUSY [] s.dev))) :=
  ⟨fun hm => runs_of hp hx (latQueue_of_badMode hm),
    fun hm => ⟨fun h => runs_of hp hx (latQueue_of_room hm h), fun h => runs_of hp hx (latQueue_of_full hm h)⟩⟩

/-! ### The start of a command (07 R198, R199) -/

@[simp] theorem latSpend_latQueue (c : LatCmd) (d : Dev) : (latSpend c d).keys.latQueue = d.keys.latQueue := by
  unfold latSpend
  split <;> rfl

theorem latSpend_eq (c : LatCmd) (d : Dev) :
    latSpend c d = if (c.code = 0x0282 ∧ lpkIs (c.arg 0) 1 d = true) ∨ (c.code = 0x0287 ∧ lpkIs (c.arg 0) 2 d = true) then clearLpk (c.arg 0) d else d := by
  simp [latSpend]

section
variable {i : Nat} {c : LatCmd} {d : Dev} (hq : d.keys.latQueue[i]? = some c)
include hq

theorem latStart_of_started (h : c.run.isSome = true) : latStart i d = d := by simp [latStart, hq, h]

/-- A command that starts spends the LPK key that it names, and finds its destination claimed or not. -/
theorem latStart_of_waiting (h : c.run = none) :
    latStart i d =
      let claimed := (d.keys.latQueue.take i).any (fun e => c.dest.isSome && e.dest == c.dest && !e.fault && !e.clash)
      { latSpend c d with keys := { (latSpend c d).keys with
        latQueue := d.keys.latQueue.set i { c with run := some ⟨d.getLpk (c.arg 0), claimed⟩ } } } := by
  simp [latStart, hq, h]

end

/-! ### The end of a command -/

/-- The `n`-th command has left the queue. -/
def latLeave (n : Nat) (d : Dev) : Dev := { d with keys := { d.keys with latQueue := d.keys.latQueue.eraseIdx n } }

section
variable {n : Nat} {c : LatCmd} {s : State} {d : Dev} (hp : Powered s) (hq : (latStartTo n s.dev).keys.latQueue[n]? = some c)
include hp hq

theorem runs_latComplete_of_fault (hf : c.fault = true) :
    Runs (.latCommandComplete n) s (complete c.sub engLat stMEM_FAULT [] (latLeave n (latStartTo n s.dev))) :=
  runs_of hp rfl (by simp [doLatComplete, hq, hf, latLeave])

theorem runs_latComplete (hf : c.fault = false) (hr : latRun c (latLeave n (latStartTo n s.dev)) = d) : Runs (.latCommandComplete n) s d :=
  runs_of hp rfl (by simpa [doLatComplete, hq, hf, latLeave] using hr)

end

/-! ### The effect of each command -/

section
variable {c : LatCmd} {d : Dev}

theorem latRun_kemGen (hc : c.code = 0x0280) (hx : c.clash = false) (hr : rngBad d = false) (hk : noKwr d = false) (hf : lpkFree (c.arg 0) d = true) :
    latRun c d =
      let r := freeBytes 64 d
      latOut c (c.arg 1) (fit 1568 (Config.mlkemEk r.1)) (putPrivate (c.arg 0) 1 r.1) r.2 := by
  simp [latRun, hc, latKemGen, hx, hr, hk, hf]

theorem latRun_encap (hc : c.code = 0x0281) (hx : c.clash = false) (hr : rngBad d = false) (hk : noKwr d = false) (hf : kekFree (c.arg 0) d = true)
    (hl : (c.dat 0).length = 1568) (hek : Config.mlkemEkOk (c.dat 0) = true) :
    latRun c d =
      let r := freeBytes 32 d
      latOut c (c.arg 1) (fit 1568 (Config.mlkemCt (c.dat 0) r.1)) (putSecret (c.arg 0) (fit 32 (Config.mlkemSs (c.dat 0) r.1))) r.2 := by
  simp [latRun, hc, latEncap, hx, hr, hk, hf, hl, hek]

theorem latRun_decap {key : Bytes} (hc : c.code = 0x0282) (hx : c.clash = false) (hk : noKwr d = false) (hh : c.held 1 = some key)
    (hf : kekFree (c.arg 1) d = true) (hl : (c.dat 0).length = 1568) :
    latRun c d = complete c.sub engLat stOK [] (putSecret (c.arg 1) (fit 32 (Config.mlkemDecap key (c.dat 0))) d) := by
  simp [latRun, hc, latDecap, hx, hk, hh, hf, hl]

/-- A command that found no LPK key of its type when it started answers BAD_SLOT (07 R198). -/
theorem latRun_of_noKey (hk : noKwr d = false) (h : c.code = 0x0282 ∧ c.held 1 = none ∨ c.code = 0x0287 ∧ c.held 2 = none) :
    latRun c d = complete c.sub engLat stBAD_SLOT [] d := by
  obtain ⟨hc, hh⟩ | ⟨hc, hh⟩ := h
  · simp [latRun, hc, latDecap, hk, hh]
  · simp [latRun, hc, latEcdh, hk, hh]

section
variable (hc : c.code = 0x0283) (hr : rngBad d = false) (hs : lpkIs (c.arg 0) 3 d = true)
include hc hr hs

/-- LPK1 signs attestation reports alone (14 R406). -/
theorem latRun_sign_lpk1 (h1 : c.arg 0 = 1) : latRun c d = complete c.sub engLat stBAD_USAGE [] d := by
  rw [h1] at hs
  simp [latRun, hc, latSign, hr, hs, h1]

theorem latRun_sign (h1 : c.arg 0 ≠ 1) (hl : (c.dat 0).length ≤ 65536) :
    latRun c d =
      let r := freeBytes 32 d
      latOut c (c.arg 1) (fit 3309 (Config.mldsaSign (d.getLpk (c.arg 0)).key (c.dat 0) r.1)) id r.2 := by
  simp [latRun, hc, latSign, hr, hs, h1, hl.not_gt]

end

theorem latRun_verify (hc : c.code = 0x0284) (hl : (c.dat 1).length ≤ 65536) :
    latRun c d = complete c.sub engLat stOK [Config.verifyCode ((c.dat 0).length == 1952 && (c.dat 2).length == 3309 &&
      Config.mldsaVerify (c.dat 0) (c.dat 1) (c.dat 2))] d := by
  simp [latRun, hc, latVerify, hl.not_gt]

theorem latRun_pub (hc : c.code = 0x0285) (hs : lpkIs (c.arg 0) 3 d = true) :
    latRun c d = latOut c (c.arg 1) (fit 1952 (Config.mldsaPk (d.getLpk (c.arg 0)).key)) id d := by
  simp [latRun, hc, latPub, hs]

theorem latRun_ecGen (hc : c.code = 0x0286) (hx : c.clash = false) (hr : rngBad d = false) (hk : noKwr d = false) (hf : lpkFree (c.arg 0) d = true) :
    latRun c d =
      let r := freeBytes 48 d
      latOut c (c.arg 1) (fit 97 (Config.p384Pub r.1)) (putPrivate (c.arg 0) 2 r.1) r.2 := by
  simp [latRun, hc, latEcGen, hx, hr, hk, hf]

theorem latRun_ecdh {key : Bytes} (hc : c.code = 0x0287) (hx : c.clash = false) (hk : noKwr d = false) (hh : c.held 2 = some key)
    (hf : kekFree (c.arg 1) d = true) (hl : (c.dat 0).length = 97) (hpt : Config.p384Ok (c.dat 0) = true) :
    latRun c d = complete c.sub engLat stOK [] (putSecret (c.arg 1) (fit 48 (Config.p384Ecdh key (c.dat 0))) d) := by
  simp [latRun, hc, latEcdh, hx, hk, hh, hf, hl, hpt]

/-- The hash of algorithm `alg`, of `n` bytes for SHAKE256 (07 Table 07-5). -/
def latDigest (alg n : Nat) (data : Bytes) : Bytes :=
  match alg with | 0 => shake256 data n | 1 => sha3_256 data | 2 => sha3_384 data | _ => sha3_512 data

theorem latHash_eq : latHash c d =
    eguards c.sub engLat
      [(decide (3 < c.arg 0) || decide (2 ^ 20 < (c.dat 0).length) || (c.arg 0 == 0 && (c.arg 1 == 0 || decide (256 < c.arg 1))), stBAD_COMMAND)]
      (latOut c (c.arg 2) (latDigest (c.arg 0) (c.arg 1) (c.dat 0)) id) d := rfl

theorem latRun_hash (hc : c.code = 0x0288) (ha : c.arg 0 ≤ 3) (hn : c.arg 0 = 0 → 1 ≤ c.arg 1 ∧ c.arg 1 ≤ 256) (hl : (c.dat 0).length ≤ 2 ^ 20) :
    latRun c d = latOut c (c.arg 2) (latDigest (c.arg 0) (c.arg 1) (c.dat 0)) id d := by
  have hok : ¬(3 < c.arg 0 ∨ 2 ^ 20 < (c.dat 0).length ∨ c.arg 0 = 0 ∧ (c.arg 1 = 0 ∨ 256 < c.arg 1)) := by omega
  calc latRun c d = latHash c d := by simp [latRun, hc]
    _ = latOut c (c.arg 2) (latDigest (c.arg 0) (c.arg 1) (c.dat 0)) id d := by
      rw [latHash_eq, eguards_cons, eguards_nil]
      exact if_neg (by simpa [or_assoc] using hok)

end

/-! ### The lock of the service cipher (07 R200, R201; 16 R446) -/

section
variable {r : Nat} {d : Dev}

theorem sceClaim_of_free (h : d.keys.sceOwner = 0) :
    sceClaim r d = { d with keys := { d.keys with sceOwner := r, sceGen := (d.keys.sceGen + 1) % 65536 } } := if_neg (not_not.mpr h)

theorem sceClaim_of_held (h : d.keys.sceOwner ≠ 0) : sceClaim r d = d := if_pos h

theorem sceReleaseBy_of_owner (h : d.keys.sceOwner = r) : sceReleaseBy r d = sceRelease 0 d := if_pos h

theorem sceReleaseBy_of_other (h : d.keys.sceOwner ≠ r) : sceReleaseBy r d = d := if_neg h

theorem sceForceBy_host : sceForceBy reqHost d = sceRelease 4 d := by simp [sceForceBy, taskReq, reqHost]

theorem sceForceBy_task (h : taskReq r d = true) : sceForceBy r d = taskStore r 0x1D0000 d := if_pos h

theorem taskReq_reqCore {c : Nat} (hc : c < 64) : taskReq (reqCore c) d = !(d.getCore c).status.getLsbD 0 := by
  have h64 : c + 1 ≤ 64 := hc
  simp [taskReq, reqCore, h64]

theorem sceForceBy_supervisor {c : Nat} (hc : c < 64) (h : taskReq (reqCore c) d = false) : sceForceBy (reqCore c) d = sceRelease 4 d := by
  have h64 : reqCore c ≤ 64 := hc
  have h1 : 1 ≤ reqCore c := Nat.succ_pos c
  simp [sceForceBy, h, h1, h64]

end

/-- The lease runs out, unless a job runs (07 R201). -/
def sceLeaseEnd (d : Dev) : Dev := if d.keys.sceJob.isSome then d else sceRelease 1 d

theorem exec_sceLeaseExpiry (s : State) : exec .sceLeaseExpiry s = done s sceLeaseEnd := rfl

/-! ### Jobs of the service cipher (07 R202, R203) -/

section
variable {b : Sub} {job : Bytes} {d : Dev}

@[simp] theorem sceJobOf_sub : (sceJobOf b job).sub = b := rfl

@[simp] theorem sceJobOf_requester : (sceJobOf b job).requester = subReq b := rfl

theorem doSceJob_of_notOwner (h : ownsSce (subReq b) d = false) :
    doSceJob b job d = complete b engSce stNOT_OWNER [] { d with keys := { d.keys with sceLast := 3 } } := if_pos (by simp [h])

variable (ho : ownsSce (subReq b) d = true) (hn : d.keys.sceJob = none)
include ho hn

theorem doSceJob_of_owner : doSceJob b job d =
    if badJob (sceJobOf b job) d = true then complete b engSce stBAD_JOB [] { d with keys := { d.keys with sceLast := 2 } }
    else { d with keys := { d.keys with
      sceJob := some (sceJobOf b job), sceKey := (d.getKek (sceJobOf b job).keySlot).key, sceHeld := (sceJobOf b job).aead && (sceJobOf b job).op == 1 } } := by
  simp [doSceJob, ho, hn, sceRefuse]

end

section
variable {j : SceJob} {p aad tag : Bytes} {d d1 d2 d3 : Dev} (hj : d.keys.sceJob = some j)
  (hp : sceRead j j.src j.len d = (some p, d1)) (ha : sceRead j j.aadAdr (if j.aead = true then j.aadLen else 0) d1 = (some aad, d2))
  (ht : sceRead j (j.src + j.len) (if (j.aead && j.op == 1) = true then j.tagLen else 0) d2 = (some tag, d3))
include hj hp ha ht

theorem doSceComplete_of_tagFail (h : sceOutput j d.keys.sceKey p aad tag = none) : doSceComplete d = sceEnd j stTAG_FAIL 1 d3 := by
  simp only [Bool.and_eq_true, beq_iff_eq] at ht
  simp [doSceComplete, hj, hp, ha, ht, h]

theorem doSceComplete_of_output {out : Bytes} {d4 : Dev} (h : sceOutput j d.keys.sceKey p aad tag = some out) (hd : 0x40000 ≤ j.dst)
    (hw : engWrite j.requester j.dst out d3 = (true, d4)) : doSceComplete d = sceEnd j stOK 0 d4 := by
  simp only [Bool.and_eq_true, beq_iff_eq] at ht
  simp [doSceComplete, hj, hp, ha, ht, h, hd.not_gt, hw]

end

/-- Settles O18: a command joins the queue, starts, and ends with the effect of its code; the lock goes by its owner, and a job by its key and tag. -/
theorem keyEngines : Obligations.KeyEngines := by
  unfold Obligations.KeyEngines
  refine ⟨fun s hp => ⟨fun b x y z u v w => ?queued, fun i c hq => ⟨latStart_of_started hq, fun hrun => ?starts⟩, fun n c => ?ends⟩,
    fun s hp => ⟨fun r hs => ?lock, fun hs => ?forceHost, fun c hc hs => ?forceCore, fun hj => ?lease, fun j hj => ?leaseHeld,
      fun b job => ?job, fun j p aad tag d1 d2 d3 hj hr ha ht => ?complete⟩⟩
  case queued => refine ⟨?_, ?_, ?_, ?_, ?_, ?_, ?_, ?_, ?_⟩ <;> exact runs_latQueue hp rfl
  case starts =>
    intro claimed d
    rw [latStart_of_waiting hq hrun, latSpend_eq]
  case ends =>
    intro e hq d
    refine ⟨runs_latComplete_of_fault hp hq, fun hf hc hx hr hk hs => ?kemGen, fun hf hc hx hr hk hs hl hek => ?encap,
      fun key hf hc hx hk hh hs hl => ?decap, fun hf hk h => ?noKey, fun hf hc hr hs h1 => ?lpk1, fun hf hc hr hs h1 hl => ?sign,
      fun hf hc hl => ?verify, fun hf hc hs => ?pub, fun hf hc hx hr hk hs => ?ecGen, fun key hf hc hx hk hh hs hl hpt => ?ecdh,
      fun hf hc ha hn hl => ?hash⟩
    case kemGen => exact runs_latComplete hp hq hf (latRun_kemGen hc hx hr hk hs)
    case encap => exact runs_latComplete hp hq hf (latRun_encap hc hx hr hk hs hl hek)
    case decap => exact runs_latComplete hp hq hf (latRun_decap hc hx hk hh hs hl)
    case noKey => exact runs_latComplete hp hq hf (latRun_of_noKey hk h)
    case lpk1 => exact runs_latComplete hp hq hf (latRun_sign_lpk1 hc hr hs h1)
    case sign => exact runs_latComplete hp hq hf (latRun_sign hc hr hs h1 hl)
    case verify => exact runs_latComplete hp hq hf (latRun_verify hc hl)
    case pub => exact runs_latComplete hp hq hf (latRun_pub hc hs)
    case ecGen => exact runs_latComplete hp hq hf (latRun_ecGen hc hx hr hk hs)
    case ecdh => exact runs_latComplete hp hq hf (latRun_ecdh hc hx hk hh hs hl hpt)
    case hash => exact runs_latComplete hp hq hf (latRun_hash hc ha hn hl)
  case lock =>
    exact ⟨fun h => runs_doneReg_of_open hp hs rfl (sceClaim_of_free h), fun h => runs_doneReg_of_open hp hs rfl (sceClaim_of_held h),
      fun h => runs_doneReg_of_open hp hs rfl (sceReleaseBy_of_owner h), fun h => runs_doneReg_of_open hp hs rfl (sceReleaseBy_of_other h)⟩
  case forceHost => exact runs_doneReg_of_open hp hs rfl sceForceBy_host
  case forceCore =>
    have htask := taskReq_reqCore (d := s.dev) hc
    exact ⟨fun h => runs_doneReg_of_open hp hs rfl (sceForceBy_supervisor hc (by rw [htask, h]; rfl)),
      fun h => runs_doneReg_of_open hp hs rfl (sceForceBy_task (by rw [htask, h]; rfl))⟩
  case lease => exact runs_of hp (exec_sceLeaseExpiry s) (if_neg (by simp [hj]))
  case leaseHeld => exact runs_of hp (exec_sceLeaseExpiry s) (if_pos (by simp [hj]))
  case job =>
    refine ⟨fun ho => runs_of hp rfl (doSceJob_of_notOwner ho), fun ho hn => ⟨fun h => ?bad, fun h => ?starts⟩⟩
    case bad => exact runs_of hp rfl ((doSceJob_of_owner ho hn).trans (if_pos h))
    case starts => exact runs_of hp rfl ((doSceJob_of_owner ho hn).trans (if_neg (by simp [h])))
  case complete =>
    exact ⟨fun h => runs_of hp rfl (doSceComplete_of_tagFail hj hr ha ht h),
      fun out d4 h hd hw => runs_of hp rfl (doSceComplete_of_output hj hr ha ht h hd hw)⟩

end Sys2Proof.Machine

/-! SUPPORT. PKX as OSF runs it: what a fragment of a message makes of the device, and what each timer of a session does (07 R204, R207, R208,
Tables 07-8, 07-11, 07-12). -/

namespace Sys2Proof.Machine

/-! ### Fragments (07 R204) -/

/-- A header that no rule of its layout discards: of 20 bytes, with the magic, a length of a message, and its fragment's place among at most 12. -/
structure PkxHdrOk (hdr : Bytes) (code : Nat) : Prop where
  length : hdr.length = 20
  magic : beAt hdr 0 4 = 0x4F56504B
  code : byteAt hdr 5 = code
  nonempty : beAt hdr 6 2 ≠ 0
  bounded : beAt hdr 6 2 ≤ 16364
  place : byteAt hdr 16 < byteAt hdr 17
  parts : byteAt hdr 17 ≤ 12

/-- The fragment of a message waits with those of the same port, session and code. -/
def PkxFrag.goesWith (p session code : Nat) (f : PkxFrag) : Bool := f.port == p && f.session == session && f.code == code

/-- A fragment of an accepted message joins those of its message, and the last one completes it. -/
def pkxJoin (p code : Nat) (hdr body : Bytes) (d : Dev) : Dev :=
  let old := (d.keys.pkxFrags.find? (PkxFrag.goesWith p (beAt hdr 8 8) code)).getD ⟨p, beAt hdr 8 8, code, beAt hdr 6 2, byteAt hdr 17, []⟩
  let f := { old with parts := Tab.set [] old.parts (byteAt hdr 16) body }
  let rest := d.keys.pkxFrags.filter (fun f => !f.goesWith p (beAt hdr 8 8) code)
  let whole := ((List.range (byteAt hdr 17)).map (fun i => Tab.get [] f.parts i)).flatten
  if f.parts.length < byteAt hdr 17 then { d with keys := { d.keys with pkxFrags := rest ++ [f] } }
  else
    let d := { d with keys := { d.keys with pkxFrags := rest } }
    if whole.length < beAt hdr 6 2 then d else pkxMessage p code (beAt hdr 8 8) (whole.take (beAt hdr 6 2)) d

section
variable {p code : Nat} {hdr body : Bytes} {d : Dev}

theorem pkxFragment_eq : pkxFragment p code hdr body d =
    if hdr.length ≠ 20 || beAt hdr 0 4 ≠ 0x4F56504B || byteAt hdr 5 ≠ code || byteAt hdr 17 = 0 || decide (12 < byteAt hdr 17)
        || decide (byteAt hdr 17 ≤ byteAt hdr 16) || beAt hdr 6 2 = 0 || decide (16364 < beAt hdr 6 2) then d
    else if code != 1 && code != 7 && byteAt hdr 4 / 16 != 1 then
      (match pkxFind p (beAt hdr 8 8) d with | some n => pkxFail n 1 d | none => d)
    else pkxJoin p code hdr body d := rfl

section
variable (hh : PkxHdrOk hdr code)
include hh

/-- A message of a version that is not accepted fails its session (07 R208). -/
theorem pkxFragment_of_version {n : Nat} (h1 : code ≠ 1) (h7 : code ≠ 7) (hv : byteAt hdr 4 / 16 ≠ 1) (hn : pkxFind p (beAt hdr 8 8) d = some n) :
    pkxFragment p code hdr body d = pkxFail n 1 d := by
  obtain ⟨hlen, hmagic, hcode, h0, hmax, hplace, hparts⟩ := hh
  simp [pkxFragment_eq, hlen, hmagic, hcode, h0, hmax.not_gt, hplace.not_ge, (Nat.zero_lt_of_lt hplace).ne', hparts.not_gt, h1, h7, hv, hn]

/-- A message is accepted in version 1, and HELLO and ABORT in any. -/
theorem pkxFragment_of_accepted (ha : code = 1 ∨ code = 7 ∨ byteAt hdr 4 / 16 = 1) :
    pkxFragment p code hdr body d = pkxJoin p code hdr body d := by
  obtain ⟨hlen, hmagic, hcode, h0, hmax, hplace, hparts⟩ := hh
  have hver : (code != 1 && code != 7 && byteAt hdr 4 / 16 != 1) = false := by
    obtain h | h | h := ha <;> simp [h]
  simp [pkxFragment_eq, hlen, hmagic, hcode, h0, hmax.not_gt, hplace.not_ge, (Nat.zero_lt_of_lt hplace).ne', hparts.not_gt, hver]

end

/-! ### The first fragment of a message -/

theorem tabSet_nil {i : Nat} (hb : body ≠ []) : Tab.set [] [] i body = [(i, body)] := by simp [Tab.set, Tab.insert, hb]

variable (hf : ∀ f ∈ d.keys.pkxFrags, f.port = p → f.session ≠ beAt hdr 8 8)
include hf

theorem pkxFrags_find_none : d.keys.pkxFrags.find? (PkxFrag.goesWith p (beAt hdr 8 8) code) = none := by
  rw [List.find?_eq_none]
  intro f hmem
  simpa [PkxFrag.goesWith] using fun hport hsession => absurd hsession (hf f hmem hport)

theorem pkxFrags_filter_self : d.keys.pkxFrags.filter (fun f => !f.goesWith p (beAt hdr 8 8) code) = d.keys.pkxFrags := by
  rw [List.filter_eq_self]
  intro f hmem
  have hnone := List.find?_eq_none.mp (pkxFrags_find_none (code := code) hf) f hmem
  simpa using hnone

theorem pkxJoin_of_part (hb : body ≠ []) (hn : 2 ≤ byteAt hdr 17) :
    pkxJoin p code hdr body d = { d with keys := { d.keys with pkxFrags :=
      d.keys.pkxFrags ++ [⟨p, beAt hdr 8 8, code, beAt hdr 6 2, byteAt hdr 17, Tab.set [] [] (byteAt hdr 16) body⟩] } } := by
  have hpart : 1 < byteAt hdr 17 := hn
  simp [pkxJoin, pkxFrags_find_none hf, pkxFrags_filter_self hf, tabSet_nil hb, hpart]

theorem pkxJoin_of_whole (hb : body ≠ []) (h0 : byteAt hdr 16 = 0) (h1 : byteAt hdr 17 = 1) (hl : body.length = beAt hdr 6 2) :
    pkxJoin p code hdr body d = pkxMessage p code (beAt hdr 8 8) body d := by
  simp [pkxJoin, pkxFrags_find_none hf, pkxFrags_filter_self hf, tabSet_nil hb, h0, h1, ← hl, Tab.get]

end

/-- The fragments of a session on a port are discarded. -/
def pkxDiscard (p session : Nat) (d : Dev) : Dev :=
  { d with keys := { d.keys with pkxFrags := d.keys.pkxFrags.filter (fun f => !(f.port == p && f.session == session)) } }

theorem exec_pkxFragmentTimeout (p session : Nat) (s : State) : exec (.pkxFragmentTimeout p session) s = done s (pkxDiscard p session) := rfl

/-! ### Timers of a session (07 Table 07-12) -/

section
variable {n : Nat} {d : Dev}

theorem doTRetx_of_hello (hs : (getPkx n d).state = .helloSent) (hr : (getPkx n d).retx < 4) :
    doTRetx n d = pkxSend (getPkx n d).port (getPkx n d).lastCode (getPkx n d).session (getPkx n d).lastMsg
      (updPkx n (fun s => { s with retx := s.retx + 1 }) d) := by simp [doTRetx, hs, hr]

theorem doTRetx_of_last (hr : 4 ≤ (getPkx n d).retx) : doTRetx n d = d := by simp [doTRetx, hr.not_gt]

theorem doTSession_of_open (hs : (getPkx n d).state = .helloSent ∨ (getPkx n d).state = .replySent ∨ (getPkx n d).state = .confirmSent) :
    doTSession n d = pkxFail n 5 d := by
  obtain h | h | h := hs <;> simp [doTSession, h]

theorem doTSession_of_established (hs : (getPkx n d).state = .established) : doTSession n d = d := by simp [doTSession, hs]

/-- The new session that starts beside session `n`, of the same peer and groups, and replaces it. -/
def renewed (n : Nat) (x : PkxSession) : PkxSession :=
  { port := x.port, hybrid := x.hybrid, peerSerial := x.peerSerial, peerKeyId := x.peerKeyId, groups := x.groups, replaces := some n }

theorem doTCk_of_established (hs : (getPkx n d).state = .established) :
    doTCk n d = pkxStart (pkxNew d) (updPkx (pkxNew d) (fun _ => renewed n (getPkx n d)) d) := by
  simp [doTCk, hs, renewed]

theorem doTOverlap_of_replaced (h : ∃ e ∈ d.keys.pkx, e.2.replaces = some n ∧ e.2.state = .established) :
    doTOverlap n d =
      let d := each (d.keys.osfSas.filter (fun s => s.session == some n)) osfEnd d
      updPkx n (fun _ => {}) (pkxClear n (d.updKeys (fun k => { k with osfSas := k.osfSas.filter (fun s => s.session != some n) }))) :=
  if_pos (by simpa using h)

theorem doTOverlap_of_current (h : ∀ e ∈ d.keys.pkx, e.2.replaces = some n → e.2.state ≠ .established) : doTOverlap n d = d :=
  if_neg (by simpa using h)

section
variable (hs : (getPkx n d).state = .failed)
include hs

theorem doTBackoff_of_responder (hi : (getPkx n d).initiator = false) : doTBackoff n d = updPkx n (fun s => { s with state := .idle }) d := by
  simp [doTBackoff, hs, hi]

theorem doTBackoff_of_initiator (hi : (getPkx n d).initiator = true) :
    doTBackoff n d = pkxStart n (updPkx n (fun s => { s with state := .idle }) d) := by simp [doTBackoff, hs, hi]

end
end

end Sys2Proof.Machine

/-! SUPPORT. The MKA subset that OSF runs: the grant of the service cipher for an ICV, and what a received MKPDU and the two times of a CA make of the
device (07 R203, R212 to R214). -/

namespace Sys2Proof.Machine

/-! ### The ICV (07 R203) -/

/-- The slot of the CA's ICK holds a key that jobs of the service cipher may use. -/
def ickUsable (c : MkaCa) (d : Dev) : Bool := (d.getKek c.ick).valid && bitAt (d.getKek c.ick).usage uSCE

/-- OSF has had a grant of the service cipher for an ICV under the CA's ICK (07 R203). -/
def icvJobs (c : MkaCa) (d : Dev) : Dev :=
  d.updKeys (fun k => { k with sceGen := (k.sceGen + 1) % 65536, sceLast := if ickUsable c d = true then 0 else 2 })

section
variable {c : MkaCa} {body : Bytes} {d : Dev}

theorem mkaIcv_of_usable (h : ickUsable c d = true) : mkaIcv c body d = (some (cmac (d.getKek c.ick).key body), icvJobs c d) := by
  have hok : ((d.getKek c.ick).valid && bitAt (d.getKek c.ick).usage uSCE) = true := h
  simp only [mkaIcv, icvJobs, ickUsable, hok, if_true]

theorem mkaIcv_of_unusable (h : ickUsable c d = false) : mkaIcv c body d = (none, icvJobs c d) := by
  have hok : ((d.getKek c.ick).valid && bitAt (d.getKek c.ick).usage uSCE) = false := h
  simp [mkaIcv, icvJobs, ickUsable, hok]

end

/-! ### An MKPDU received -/

section
variable {n : Nat} {c : MkaCa} {body icv : Bytes} {d : Dev}

theorem doMkpdu_of_busy (h : sceFree d = false) : doMkpdu n body icv d = mkaLater (.received n body icv) d := by simp [doMkpdu, h]

theorem doMkpdu_of_off (h : sceFree d = true) (ho : mkaOff d = true) : doMkpdu n body icv d = d := by simp [doMkpdu, h, mkaReceive, ho]

/-- What an MKPDU whose ICV verifies does: a third participant is counted, an old message number is ignored, and the peer is taken (07 R212). -/
def mkaAccept (n : Nat) (c : MkaCa) (x : Mkpdu) (d : Dev) : Dev :=
  if c.peerId.isSome && c.peerId != some x.memberId then setMka n { c with third := c.third + 1 } d
  else if c.peerId.isSome && decide (x.mn ≤ c.peerMn) then d
  else mkaPeer n c x d

section
variable {x : Mkpdu} (hfree : sceFree d = true) (hon : mkaOff d = false) (hc : getMka n d = some c) (hx : mkpduOf body = some x)
include hfree hon hc hx

theorem doMkpdu_eq : doMkpdu n body icv d =
    if (mkaIcv c body (mkaKeys c d)).1 ≠ some icv then (mkaIcv c body (mkaKeys c d)).2 else mkaAccept n c x (mkaIcv c body (mkaKeys c d)).2 := by
  simp only [doMkpdu, hfree, if_true, mkaReceive, hon, hc, hx]
  rfl

theorem doMkpdu_of_badIcv (h : ickUsable c (mkaKeys c d) = false ∨ cmac ((mkaKeys c d).getKek c.ick).key body ≠ icv) :
    doMkpdu n body icv d = icvJobs c (mkaKeys c d) := by
  rw [doMkpdu_eq hfree hon hc hx]
  cases hu : ickUsable c (mkaKeys c d) with
  | false => simp [mkaIcv_of_unusable hu]
  | true => simp [mkaIcv_of_usable hu, h.resolve_left (by simp [hu])]

theorem doMkpdu_of_goodIcv (hu : ickUsable c (mkaKeys c d) = true) (h : cmac ((mkaKeys c d).getKek c.ick).key body = icv) :
    doMkpdu n body icv d = mkaAccept n c x (icvJobs c (mkaKeys c d)) := by
  rw [doMkpdu_eq hfree hon hc hx, mkaIcv_of_usable hu]
  simp [h]

end

section
variable {x : Mkpdu}

theorem mkaAccept_of_third {m : Nat} (hm : c.peerId = some m) (h : m ≠ x.memberId) :
    mkaAccept n c x d = setMka n { c with third := c.third + 1 } d := by simp [mkaAccept, hm, h]

theorem mkaAccept_of_old (hm : c.peerId = some x.memberId) (h : x.mn ≤ c.peerMn) : mkaAccept n c x d = d := by simp [mkaAccept, hm, h]

theorem mkaAccept_of_peer (h : c.peerId = none ∨ (c.peerId = some x.memberId ∧ c.peerMn < x.mn)) : mkaAccept n c x d = mkaPeer n c x d := by
  obtain h | ⟨hm, hmn⟩ := h
  · simp [mkaAccept, h]
  · simp [mkaAccept, hm, hmn.not_ge]

end

/-! ### OSF's own MKPDU, and the end of a peer -/

theorem doMkaHello_of_busy (h : sceFree d = false) : doMkaHello n d = mkaLater (.hello n) d := by simp [doMkaHello, h]

theorem doMkaHello_of_off (h : sceFree d = true) (ho : mkaOff d = true) : doMkaHello n d = d := by simp [doMkaHello, h, mkaSend, ho]

/-- The CA counts its next MKPDU, and has the keys for it. -/
def mkaNext (n : Nat) (c : MkaCa) (d : Dev) : Dev := mkaKeys { c with mn := c.mn + 1 } (setMka n { c with mn := c.mn + 1 } d)

/-- The body of the CA's next MKPDU. -/
def mkaOwnBody (n : Nat) (c : MkaCa) (d : Dev) : Bytes := (mkpduOwn { c with mn := c.mn + 1 } (mkaNext n c d)).bytes

/-- The MKPDU goes out with the ICV that the jobs gave, or not at all. -/
def mkaSendIcv (c : MkaCa) (src body : Bytes) (r : Option Bytes × Dev) : Dev :=
  match r.1 with
  | some icv => osfSend c.port (mkaFrame src body icv) r.2
  | none => r.2

section
variable (hfree : sceFree d = true) (hon : mkaOff d = false) (hc : getMka n d = some c)
include hfree hon hc

theorem doMkaHello_eq : doMkaHello n d =
    let r := freeBytes 6 (mkaNext n c d)
    mkaSendIcv c r.1 (mkaOwnBody n c d) (mkaIcv c (mkaOwnBody n c d) r.2) := by
  simp only [doMkaHello, hfree, if_true, mkaSend, hon, hc]
  rfl

theorem doMkaHello_of_usable (hu : ickUsable c (freeBytes 6 (mkaNext n c d)).2 = true) :
    doMkaHello n d =
      let r := freeBytes 6 (mkaNext n c d)
      osfSend c.port (mkaFrame r.1 (mkaOwnBody n c d) (cmac (r.2.getKek c.ick).key (mkaOwnBody n c d))) (icvJobs c r.2) := by
  rw [doMkaHello_eq hfree hon hc]
  dsimp only
  rw [mkaIcv_of_usable hu]
  rfl

theorem doMkaHello_of_unusable (hu : ickUsable c (freeBytes 6 (mkaNext n c d)).2 = false) :
    doMkaHello n d = icvJobs c (freeBytes 6 (mkaNext n c d)).2 := by
  rw [doMkaHello_eq hfree hon hc]
  dsimp only
  rw [mkaIcv_of_unusable hu]
  rfl

end

theorem doMkaLife_of_ca (hc : getMka n d = some c) :
    doMkaLife n d = setMka n { c with peerId := none, peerMn := 0, peerPriority := 0, peerSci := 0, keyServer := false } d := by
  simp [doMkaLife, hc]

end

/-- Settles O19: a message's first fragment is the message or waits, a timer goes by the session's state, and OSF's MKA work by the service cipher's
lock, the mode and the ICV. -/
theorem keyAgreement : Obligations.KeyAgreement := by
  unfold Obligations.KeyAgreement
  refine ⟨fun s hp p hdr body hlen hmagic h0 hmax => ⟨fun hf => ?accepted, fun hv hplace hparts => ?version, fun session => ?timeout⟩,
    fun s hp n => ?timers⟩
  case accepted =>
    intro taken one more
    have hone : ∀ {code : Nat} {row : Instr}, exec row s = done s (pkxFragment p code hdr body) → one code row := by
      intro code row hx ha hcode hfirst hparts hb
      have hh : PkxHdrOk hdr code := ⟨hlen, hmagic, hcode, h0, hmax, by omega, by omega⟩
      have hbody : body ≠ [] := by
        rintro rfl
        exact h0 hb.symm
      exact runs_of hp hx ((pkxFragment_of_accepted hh ha).trans (pkxJoin_of_whole hf hbody hfirst hparts hb))
    have hmore : ∀ {code : Nat} {row : Instr}, exec row s = done s (pkxFragment p code hdr body) → more code row := by
      intro code row hx ha hcode hplace h2 hparts hbody
      have hh : PkxHdrOk hdr code := ⟨hlen, hmagic, hcode, h0, hmax, hplace, hparts⟩
      exact runs_of hp hx ((pkxFragment_of_accepted hh ha).trans (pkxJoin_of_part hf hbody h2))
    exact ⟨⟨hone rfl, hone rfl, hone rfl, hone rfl, hone rfl, hone rfl, hone rfl⟩,
      hmore rfl, hmore rfl, hmore rfl, hmore rfl, hmore rfl, hmore rfl, hmore rfl⟩
  case version =>
    intro fails
    have hfails : ∀ {code : Nat} {row : Instr}, code ≠ 1 ∧ code ≠ 7 → exec row s = done s (pkxFragment p code hdr body) → fails code row := by
      rintro code row ⟨h1, h7⟩ hx hcode n hn
      have hh : PkxHdrOk hdr code := ⟨hlen, hmagic, hcode, h0, hmax, hplace, hparts⟩
      exact runs_of hp hx (pkxFragment_of_version hh h1 h7 hv hn)
    exact ⟨hfails (by decide) rfl, hfails (by decide) rfl, hfails (by decide) rfl, hfails (by decide) rfl, hfails (by decide) rfl⟩
  case timeout => exact runs_of hp (exec_pkxFragmentTimeout p session s) rfl
  case timers =>
    intro x
    refine ⟨fun hs hr => ?retx, fun hr => ?retxLast, fun hs => ?session, fun hs => ?renew, fun h => ?overlap, fun h => ?current, fun hs => ?backoff,
      fun c hc => ⟨runs_of hp rfl (doMkaLife_of_ca hc), fun hfree => ?busy, fun hfree hoff => ?off, fun hfree hon => ?mka⟩⟩
    case retx => exact runs_of hp rfl (doTRetx_of_hello hs hr)
    case retxLast => exact runs_of hp rfl (doTRetx_of_last hr)
    case session => exact runs_of hp rfl (doTSession_of_open hs)
    case renew => exact ⟨runs_of hp rfl (doTSession_of_established hs), runs_of hp rfl (doTCk_of_established hs)⟩
    case overlap => exact runs_of hp rfl (doTOverlap_of_replaced h)
    case current => exact runs_of hp rfl (doTOverlap_of_current h)
    case backoff => exact ⟨fun hi => runs_of hp rfl (doTBackoff_of_responder hs hi), fun hi => runs_of hp rfl (doTBackoff_of_initiator hs hi)⟩
    case busy => exact ⟨runs_of hp rfl (doMkaHello_of_busy hfree), fun version priority sci rest icv => runs_of hp rfl (doMkpdu_of_busy hfree)⟩
    case off => exact ⟨runs_of hp rfl (doMkaHello_of_off hfree hoff), fun version priority sci rest icv => runs_of hp rfl (doMkpdu_of_off hfree hoff)⟩
    case mka =>
      intro usable jobs
      refine ⟨fun version priority sci rest icv x hx => ⟨fun h => ?badIcv, fun hu h => ?goodIcv⟩,
        fun hu => runs_of hp rfl (doMkaHello_of_usable hfree hon hc hu), fun hu => runs_of hp rfl (doMkaHello_of_unusable hfree hon hc hu)⟩
      case badIcv => exact runs_of hp rfl (doMkpdu_of_badIcv hfree hon hc hx h)
      case goodIcv =>
        have hrun := doMkpdu_of_goodIcv hfree hon hc hx hu h
        exact ⟨fun m hm hne => runs_of hp rfl (hrun.trans (mkaAccept_of_third hm hne)), fun hm hmn => runs_of hp rfl (hrun.trans (mkaAccept_of_old hm hmn)),
          fun hpeer => runs_of hp rfl (hrun.trans (mkaAccept_of_peer hpeer))⟩

end Sys2Proof.Machine

/-! SUPPORT. Tacks and the gate: the records that a running source forms, the freezing and sealing of a port, and a submission at the gate
(08 R218 to R222, R226; 09 R235, R251, R253). -/

namespace Sys2Proof.Machine

/-! ### Records (08 R218 to R220, R222; 09 R235) -/

/-- The commands that wait stay in the gate's queue, and each late one is completed (08 R226). -/
def finishLate (w : Placing) (d : Dev) : Dev :=
  each w.late (fun e d => completeX e.sub stLATE engGate true false 0 [] d) { d with tck := { d.tck with gate := w.waits } }

/-- Every enabled port counts the frames of the next tack interval from 0 (`got` of 08 R219). -/
def restartGot (d : Dev) : Dev := each (enabledPorts d) (fun p d => d.updTck p (fun t => { t with got := 0 })) d

/-- The ports whose boundaries a BEAT raises. -/
def beatPorts (d : Dev) : List Nat := (enabledPorts d).filter (fun p => (d.getTck p).pstate == .active)

section
variable {p : Nat} {d : Dev}

theorem doTackForm_of_source (h : sourceOn d = true) {w : Placing} (hw : w = placeGate (d.tck.tno + 1) d) {e : Dev} (he : e = finishLate w d) :
    doTackForm d = formRec 0 ((enabledPorts e).map (tackEntry e)) w.placed (restartGot e) := by
  subst hw he
  exact if_neg (by simp [h])

theorem doBeatForm_of_source (h : sourceOn d = true) :
    doBeatForm d = formRec 1 ((beatPorts d).map (fun p => ⟨p, 2, (d.getTck p).admitted + marginNow p d⟩)) [] d := if_neg (by simp [h])

/-- A frozen port is woken for a slot frame that is due, or for a frame at or above its horizon that is not too long. -/
theorem doWakeSend_of_holding (h : sourceOn d = true) (he : portEnabled d p = true) (hs : (d.getTck p).pstate = .frozen)
    (hf : slotNow p d = true ∨ ∃ f ∈ (d.getTck p).rx, frameLong p f d = false ∧ (d.getTck p).horizon ≤ f.idx) :
    doWakeSend p d = formRec 1 [⟨p, 6, (d.getTck p).freezeAt + marginNow p d⟩] [] d := if_pos (by simpa [h, he, hs] using hf)

theorem doRecordApply_of_shadow {r : TackRec} {rest : List TackRec} (hr : d.tck.recq = r :: rest) (hm : d.mod.mode = .shadow) :
    doRecordApply d = applyRec r { d with tck := { d.tck with recq := rest } } := by
  simp [doRecordApply, hr, hm]

/-! ### Freezing and sealing (08 R221, 09 R253) -/

/-- Once the source holds its own report and the shadow's, it seals the port at the higher count. -/
theorem trySeal_of_reports {own peer : Nat} (ho : (d.getTck p).ownReport = some own) (hpeer : (d.getTck p).peerReport = some peer) :
    trySeal p d = formRec 1 [⟨p, 5, Nat.max own peer⟩] [] d := by
  simp [trySeal, ho, hpeer]

/-- The shadow's report reaches a source that holds its own. -/
theorem doFreezeReport_of_peer {own z : Nat} (hf : freezingHere p d = true) (ho : (d.getTck p).ownReport = some own) :
    doFreezeReport p z false d = formRec 1 [⟨p, 5, Nat.max own z⟩] [] (d.updTck p (fun t => { t with peerReport := some z })) :=
  (if_neg (by simp [hf])).trans (trySeal_of_reports (by simpa using ho) (by simp))

/-- The source of a pair still waits for the shadow's report of a freezing port. -/
def awaitsPeer (p : Nat) (d : Dev) : Bool := freezingHere p d && needsPeer d && (d.getTck p).peerReport.isNone

/-- While the shadow's report is awaited, the port is sealed at the source's own report, if there is one (09 R253). -/
def sealOwn (p : Nat) (d : Dev) : Dev :=
  match awaitsPeer p d, (d.getTck p).ownReport with
  | true, some z => formRec 1 [⟨p, 5, z⟩] [] d
  | _, _ => d

theorem exec_freezeSealTimeout (p : Nat) (s : State) : exec (.freezeSealTimeout p) s = done s (sealOwn p) := rfl

theorem awaitsPeer_of_freezing (hf : freezingHere p d = true) (hn : needsPeer d = true) (hr : (d.getTck p).peerReport = none) :
    awaitsPeer p d = true := by
  simp [awaitsPeer, hf, hn, hr]

theorem sealOwn_of_report {own : Nat} (ha : awaitsPeer p d = true) (ho : (d.getTck p).ownReport = some own) :
    sealOwn p d = formRec 1 [⟨p, 5, own⟩] [] d := by
  simp [sealOwn, ha, ho]

end

/-! ### Submission (08 R226, 09 R251) -/

/-- The gate takes no such command: it is not gated, or it carries SHADOWONLY and may not, or no pair is formed (09 R251). -/
def badSubmission (x : Desc) (d : Dev) : Bool :=
  !gateCodes.contains x.code || (x.shadowOnly && (!shadowCodes.contains x.code || d.twn.pair != 1))

/-- The one completion of a submission that the gate refuses. -/
def gateRefused (b : Sub) (st : Nat) (d : Dev) : Dev := completeX b st engGate true false 0 [] d

section
variable {b : Sub} {x : Desc} {d : Dev}

theorem doGateSubmit_of_bad (hb : badSubmission x d = true) : doGateSubmit b x d = gateRefused b stBAD_COMMAND d := if_pos hb

variable (hb : badSubmission x d = false)
include hb

theorem doGateSubmit_of_good : doGateSubmit b x d =
    if gateClosed d = true then gateRefused b stBAD_MODE d
    else if d.tck.gate.length ≥ 4096 then gateRefused b stBUSY d
    else { d with tck := { d.tck with gate := d.tck.gate ++ [⟨b, x⟩] } } := if_neg (Bool.eq_false_iff.mp hb)

theorem doGateSubmit_of_closed (hc : gateClosed d = true) : doGateSubmit b x d = gateRefused b stBAD_MODE d :=
  (doGateSubmit_of_good hb).trans (if_pos hc)

theorem doGateSubmit_of_full (hc : gateClosed d = false) (hl : 4096 ≤ d.tck.gate.length) : doGateSubmit b x d = gateRefused b stBUSY d := by
  simp [doGateSubmit_of_good hb, hc, hl]

theorem doGateSubmit_of_room (hc : gateClosed d = false) (hl : d.tck.gate.length < 4096) :
    doGateSubmit b x d = { d with tck := { d.tck with gate := d.tck.gate ++ [⟨b, x⟩] } } := by
  simp [doGateSubmit_of_good hb, hc, Nat.not_le.mpr hl]

end

/-- Settles O4: a running source forms each record from its ports, the shadow's report or its absence decides where a freezing port is sealed, and
a submission goes by the first refusal of the gate that holds. -/
theorem tackGate : Obligations.TackGate := by
  unfold Obligations.TackGate
  refine ⟨fun s hp => ⟨fun hs => ⟨?tack, ?beat, fun p he hz hf => ?wake⟩, fun r rest hr hm => ?record⟩,
    fun s hp p z own hf ho => ⟨?report, fun hn hr => ⟨?missing, ?timeout⟩⟩, fun s hp b x => ?submit⟩
  case tack => exact runs_of hp rfl (doTackForm_of_source hs rfl rfl)
  case beat => exact runs_of hp rfl (doBeatForm_of_source hs)
  case wake => exact runs_of hp rfl (doWakeSend_of_holding hs he hz hf)
  case record => exact runs_of hp rfl (doRecordApply_of_shadow hr hm)
  case report => exact runs_of hp rfl (doFreezeReport_of_peer hf ho)
  case missing => exact runs_of hp rfl (if_pos (awaitsPeer_of_freezing hf hn hr))
  case timeout => exact runs_of hp (exec_freezeSealTimeout p s) (sealOwn_of_report (awaitsPeer_of_freezing hf hn hr) ho)
  case submit =>
    intro bad
    refine ⟨fun hb => ?bad, fun hb hc => ?closed, fun hb hc hl => ?full, fun hb hc hl => ?room⟩
    case bad => exact runs_of hp rfl (doGateSubmit_of_bad hb)
    case closed => exact runs_of hp rfl (doGateSubmit_of_closed hb hc)
    case full => exact runs_of hp rfl (doGateSubmit_of_full hb hc hl)
    case room => exact runs_of hp rfl (doGateSubmit_of_room hb hc hl)

end Sys2Proof.Machine

/-! SUPPORT. Twin pairs: what becomes of an offer, a digest, a notice, and the steps of a resynchronisation and of a join (09 R236, R245, R249,
R250, R252; 15 R420). -/

namespace Sys2Proof.Machine

/-! ### An offer (09 R236) -/

section
variable {serial side dpver role : Nat} {d : Dev}

theorem doPairForm_of_nothing (h : pairCheck serial side dpver role d = 5) : doPairForm serial side dpver role d = d := by
  simp [doPairForm, pairForm, h, when_]

theorem doPairForm_of_version (h : pairCheck serial side dpver role d = 2) :
    doPairForm serial side dpver role d = pairRefused 2 (twnSet (fun t => { t with pdpVer := dpver }) d) := by
  simp [doPairForm, pairForm, h, when_]

theorem doPairForm_of_refused {why : Nat} (hw : why = 1 ∨ why = 3 ∨ why = 4) (h : pairCheck serial side dpver role d = why) :
    doPairForm serial side dpver role d = pairRefused why d := by
  obtain rfl | rfl | rfl := hw <;> simp [doPairForm, pairForm, h, when_]

theorem doPairForm_of_formed (h : pairCheck serial side dpver role d = 0) : doPairForm serial side dpver role d = sliceNotices (pairMade dpver d) := by
  simp [doPairForm, pairForm, h, when_]

theorem pairCheck_of_stranger (h : serial ≠ d.twn.partner) : pairCheck serial side dpver role d = 5 := by simp [pairCheck, h]

/-- A lead is offered a shadow, or a shadow a lead. -/
abbrev RolesFit (role : Nat) (d : Dev) : Prop := (d.mod.mode = .lead ∧ role = 1) ∨ (d.mod.mode = .shadow ∧ role = 0)

section
variable (hm : pairMode d = 1) (hfree : d.twn.pair ≠ 1 ∨ d.mod.mode = .lead) (hs : serial = d.twn.partner)
include hm hfree hs

/-- The partner's offer is judged by its version, its side, path A and its role, in this order. -/
theorem pairCheck_of_partner : pairCheck serial side dpver role d =
    if dpver ≠ dpVer then 2 else if side = ownSide d then 1 else if (d.getHp 6).state = 4 then 3 else if ¬RolesFit role d then 4
    else if (d.getHp 6).state ≠ 3 then 5 else 0 := by
  obtain h | h := hfree <;> simp [pairCheck, hm, hs, h, imp_iff_not_or]

theorem pairCheck_of_version (hv : dpver ≠ dpVer) : pairCheck serial side dpver role d = 2 :=
  (pairCheck_of_partner hm hfree hs).trans (if_pos hv)

variable (hv : dpver = dpVer)
include hv

theorem pairCheck_of_sameSide (hside : side = ownSide d) : pairCheck serial side dpver role d = 1 := by
  simp [pairCheck_of_partner hm hfree hs, hv, hside]

variable (hside : side ≠ ownSide d)
include hside

theorem pairCheck_of_incompatible (h6 : (d.getHp 6).state = 4) : pairCheck serial side dpver role d = 3 := by
  simp [pairCheck_of_partner hm hfree hs, hv, hside, h6]

theorem pairCheck_of_misfit (h6 : (d.getHp 6).state ≠ 4) (hf : ¬RolesFit role d) : pairCheck serial side dpver role d = 4 := by
  simp only [pairCheck_of_partner hm hfree hs, ne_eq, hv, not_true, if_false, hside, h6, hf, not_false_eq_true, if_true]

theorem pairCheck_of_fit (h6 : (d.getHp 6).state ≠ 4) (hf : RolesFit role d) :
    pairCheck serial side dpver role d = if (d.getHp 6).state = 3 then 0 else 5 := by
  simp only [pairCheck_of_partner hm hfree hs, ne_eq, hv, not_true, if_false, hside, h6, hf, ite_not]

end
end

/-! ### Digests and notices (09 R245, 15 R420) -/

section
variable {p first count : Nat} {digest : Bytes} {fps : List Nat} {d : Dev}

theorem sliceFault_of_compared (h : notCompared p d = false) : (d.getTwn p).sliceFault = false := by
  simp only [notCompared, Bool.or_eq_false_iff] at h
  obtain ⟨⟨⟨-, hs⟩, -⟩, -⟩ := h
  exact hs

theorem notCompared_of_fenced (h : portFenced d p = true) : notCompared p d = true := by simp [notCompared, h]

theorem doPartnerDigest_of_waiting (hp : paired d = true) (hm : d.mod.mode = .lead) (hc : notCompared p d = false)
    (hf : comparedFrom p first d ≤ first) (hw : (d.getTwn p).waiting.length < 1024) : doPartnerDigest p first count digest [] d =
      settleWaiting p (d.updTwn p (fun t => { t with waiting := t.waiting ++ [⟨first, count, digest⟩] })) := by
  simp [doPartnerDigest, hp, hm, hc, sliceFault_of_compared hc, hf.not_gt, hw.not_ge]

theorem doPartnerDigest_of_older (hm : d.mod.mode = .lead) (hf : first < comparedFrom p first d) : doPartnerDigest p first count digest [] d = d := by
  simp [doPartnerDigest, hm, hf]

/-- The shadow keeps the lead's fingerprints that are not among `old`, before the newest of those it had. -/
def keepLeadFp (old : List (Nat × Nat)) (first : Nat) (fps : List Nat) (t : TwnPort) : TwnPort :=
  let new := ((List.range fps.length).map (fun i => (first + i, nth 0 fps i))).filter (fun e => !old.any (fun x => x.1 == e.1))
  { t with leadFp := (new.reverse ++ t.leadFp).take 4096 }

/-- A shadow that hunts on a port has fenced it, so that the digest itself is not compared. -/
theorem doPartnerDigest_of_hunt (hp : paired d = true) (hm : d.mod.mode = .shadow) (hf : portFenced d p = true) (hs : (d.getTwn p).sliceFault = false) :
    doPartnerDigest p first count digest fps d = d.updTwn p (keepLeadFp (d.getTwn p).leadFp first fps) := by
  have hfenced : notCompared p (d.updTwn p (keepLeadFp (d.getTwn p).leadFp first fps)) = true :=
    notCompared_of_fenced (by simpa [portFenced, keepLeadFp] using hf)
  unfold keepLeadFp at hfenced ⊢
  simp [doPartnerDigest, hp, hs, hm, hfenced]

theorem doMismatch_of_slice (hp : paired d = true) :
    doMismatch p first true d = d.updTwn p (fun t => { t with sliceFault := true, noticed := true, waiting := [] }) := by simp [doMismatch, hp]

theorem doMismatch_of_spared (hp : paired d = true) (hc : notCompared p d = true) : doMismatch p first false d = d := by
  simp [doMismatch, hp, diverge, hc]

theorem doMismatch_of_compared (hp : paired d = true) (hc : notCompared p d = false) : doMismatch p first false d =
    let e := event 0x0901 3 (be 1 p ++ be 6 first) (twnCount 0 d)
    if e.mod.mode = .shadow then noteDiverged p (e.updTwn p (fun t => { t with state := 2, waiting := [] }))
    else e.updTwn p (fun t => { t with hunt := true, waiting := [] }) := by
  simp [doMismatch, hp, diverge, hc]

end

/-! ### Resynchronisation (09 R249, R250) -/

section
variable {p : Nat} {d : Dev}

section
variable (hp : paired d = true) (hm : d.mod.mode = .shadow)
include hp hm

section
variable (ht : (d.getTwn p).state = 2)
include ht

theorem doOffsetReport_of_slotPort (hs : slotPort d.tab p = true) :
    doOffsetReport p d = (twinSend 8 (offsetMsg p 0) d).updTwn p (fun t => { t with state := 3 }) := by
  simp [doOffsetReport, hp, hm, ht, hs]

theorem doOffsetReport_of_unique {o : Int} (hs : slotPort d.tab p = false)
    (ho : fpOffsets ((d.getTwn p).hashes.map (fun e => (e.1, e.2 / 2 ^ 32))) (d.getTwn p).leadFp = [o]) :
    doOffsetReport p d = (twinSend 8 (offsetMsg p o) d).updTwn p (fun t => { t with state := 3 }) := by
  simp [doOffsetReport, hp, hm, ht, hs, ho, -Nat.reducePow]

end

theorem doTwnResync_of_shadow (o : Int) : doTwnResync p o d = settlePort p (applyResync p o d) := by simp [doTwnResync, hp, hm]

end

/-- The command by which the lead has port `p` resynchronised at the tack of its next record. -/
def resyncCommand (p : Nat) (o : Int) : GateEnt :=
  ⟨⟨.lead, 0, 0, 0⟩, { code := codeResync, shadowOnly := false, nbt := none, nlt := none, p0 := p, p1 := twos 64 o, p2 := 0, p3 := 0, p4 := 0
                       image := [] }⟩

theorem doTwnResync_of_lead (hp : paired d = true) (hm : d.mod.mode = .lead) (hg : d.tck.gate.length < 4096) (o : Int) :
    doTwnResync p o d = { d with tck := { d.tck with gate := d.tck.gate ++ [resyncCommand p o] } } := by
  simp [doTwnResync, hp, hm, hg.not_ge, resyncCommand]

theorem doResyncState_of_pending {o : Int} {k : Nat} (l : List (Nat × Nat × Nat)) (hm : d.mod.mode = .shadow) (hr : (d.getTwn p).resync = some (o, k)) :
    doResyncState p l d = settlePort p (d.updTwn p (fun t => { t with resyncSt := some l })) := by
  simp [doResyncState, hm, hr]

/-- What RESYNC_GIVEUP does. -/
def giveUpFor (p reason : Nat) (d : Dev) : Dev := if paired d && giveUpCause p reason d then giveUp p reason d else d

theorem exec_resyncGiveup (p reason : Nat) (s : State) : exec (.resyncGiveup p reason) s = done s (giveUpFor p reason) := rfl

theorem giveUpFor_of_noCause {reason : Nat} (hc : giveUpCause p reason d = false) : giveUpFor p reason d = d := by simp [giveUpFor, hc]

theorem giveUpFor_of_cause {reason : Nat} (hp : paired d = true) (hc : giveUpCause p reason d = true) : giveUpFor p reason d = giveUp p reason d := by
  simp [giveUpFor, hp, hc]

end

/-! ### Joins (09 R252) -/

section
variable {t : Tables} {sas : JoinSas} {tck : Tab TckPort} {acts : Tab (Bool × Bool)} {d : Dev}

theorem doJoin_of_lead (hp : paired d = true) (hm : d.mod.mode = .lead) : doJoin t sas tck acts d = sendJoin (spareSlices d) := by simp [doJoin, hp, hm]

theorem doJoin_of_joined (hm : d.mod.mode = .shadow) (hj : d.twn.joined = true) : doJoin t sas tck acts d = d := by simp [doJoin, hm, hj]

theorem doJoin_of_joining (hp : paired d = true) (hm : d.mod.mode = .shadow) (hj : d.twn.joined = false) :
    doJoin t sas tck acts d = joinState t sas.live sas.chan sas.win tck acts d := by simp [doJoin, hp, hm, hj]

/-- Where neither twin has an SA, the shadow's slots and their live states stay as they are. -/
theorem joinState_of_noSa {live : Tab SaLive} {ch : Tab ChanLive} {win : Tab Win} (ht : t.sa = []) (hd : d.tab.sa = []) :
    joinState t live ch win tck acts d =
      let e := updateCsfAll (each (List.range 64) updateLos (joinDone (joinActs acts (joinStarts d.tab (joinTables t [] d.sas.live ch win
        (joinStops t (each (List.range 64) (joinPort t tck) d)))))))
      each (enabledPorts e) (fun p d => d.updTwn p (fun x => { x with state := if x.sliceFault then 0 else 2 })) (spareSlices e) := by
  have hslots : joinSlots t d = [] := by simp [joinSlots, ht, hd]
  simp only [joinState, hslots, ht, hd]
  rfl

end

/-- Settles O20: an offer goes by the order of its checks, a digest or notice by whether the port is compared, and a step of a resynchronisation or a
join by the twin's role. -/
theorem twinPairs : Obligations.TwinPairs := by
  unfold Obligations.TwinPairs
  refine ⟨fun s hp => ⟨fun hm hfree serial side dpver role => ⟨fun hs => ?stranger, fun hs => ⟨fun hv => ?version, fun hv hside => ?side,
        fun hv hside => ⟨fun h6 => ?pathA, fun h6 hf => ?role, fun h4 h3 hf => ?notUp, fun h6 hf => ?formed⟩⟩⟩,
      fun hpair p first => ⟨fun count digest hm hc hf hw => ?waits, fun count digest hm hf => ?older, fun count digest fps hm hf hs => ?hunt, ?slice,
        fun hc => ?spared, fun hc => ?diverged⟩⟩,
    fun s hp hpair p => ⟨fun hm => ⟨fun o ht hs ho => ?offset, fun ht hs => ?slotOffset, fun o => ?boundary, fun o k l hr => ?state,
        fun reason => ⟨fun hc => ?noCause, fun hc => ?giveUp⟩,
        fun t live ch win tck acts => ⟨fun hj => ?joined, fun hj ht hd => ?joinNoSa, fun hj => ?join⟩⟩,
      fun hm => ⟨fun hg o => ?command, fun t live ch win tck acts => ?stream⟩⟩⟩
  case stranger => exact runs_of hp rfl (doPairForm_of_nothing (pairCheck_of_stranger hs))
  case version => exact runs_of hp rfl (doPairForm_of_version (pairCheck_of_version hm hfree hs hv))
  case side => exact runs_of hp rfl (doPairForm_of_refused (.inl rfl) (pairCheck_of_sameSide hm hfree hs hv hside))
  case pathA => exact runs_of hp rfl (doPairForm_of_refused (by simp) (pairCheck_of_incompatible hm hfree hs hv hside h6))
  case role => exact runs_of hp rfl (doPairForm_of_refused (by simp) (pairCheck_of_misfit hm hfree hs hv hside h6 hf))
  case notUp => exact runs_of hp rfl (doPairForm_of_nothing ((pairCheck_of_fit hm hfree hs hv hside h4 hf).trans (if_neg h3)))
  case formed => exact runs_of hp rfl (doPairForm_of_formed ((pairCheck_of_fit hm hfree hs hv hside (by simp [h6]) hf).trans (if_pos h6)))
  case waits => exact runs_of hp rfl (doPartnerDigest_of_waiting hpair hm hc hf hw)
  case older => exact runs_of hp rfl (doPartnerDigest_of_older hm hf)
  case hunt => exact runs_of hp rfl (doPartnerDigest_of_hunt hpair hm hf hs)
  case slice => exact runs_of hp rfl (doMismatch_of_slice hpair)
  case spared => exact runs_of hp rfl (doMismatch_of_spared hpair hc)
  case diverged => exact runs_of hp rfl (doMismatch_of_compared hpair hc)
  case offset => exact runs_of hp rfl (doOffsetReport_of_unique hpair hm ht hs ho)
  case slotOffset => exact runs_of hp rfl (doOffsetReport_of_slotPort hpair hm ht hs)
  case boundary => exact runs_of hp rfl (doTwnResync_of_shadow hpair hm o)
  case state => exact runs_of hp rfl (doResyncState_of_pending l hm hr)
  case noCause => exact runs_of hp (exec_resyncGiveup p reason s) (giveUpFor_of_noCause hc)
  case giveUp => exact runs_of hp (exec_resyncGiveup p reason s) ((giveUpFor_of_cause hpair hc).trans (if_neg (by simp [hm])))
  case joined => exact runs_of hp rfl (doJoin_of_joined hm hj)
  case joinNoSa => exact runs_of hp rfl ((doJoin_of_joining hpair hm hj).trans (joinState_of_noSa ht hd))
  case join => exact runs_of hp rfl (doJoin_of_joining hpair hm hj)
  case command => exact runs_of hp rfl (doTwnResync_of_lead hpair hm hg o)
  case stream => exact runs_of hp rfl (doJoin_of_lead hpair hm)

end Sys2Proof.Machine

/-! SUPPORT. Primacy: heartbeats of a compared pair, takeover and the lead's lease, and the heartbeat pairing of SOLO devices (09 R254 to R261). -/

namespace Sys2Proof.Machine

/-! ### What sends, events and status changes leave of the mode, the tacks and the primacy -/

/-- Which of its two claims a twin holds: primacy, and that it has taken over. -/
def Dev.claims (d : Dev) : Bool × Bool := (d.twn.primacy, d.twn.tookOver)

@[simp] theorem Dev.updHp_claims (j : Nat) (f : HpPort → HpPort) (d : Dev) : (d.updHp j f).claims = d.claims := rfl

@[simp] theorem hpEmit_claims (j : Nat) (b : Bytes) (d : Dev) : (hpEmit j b d).claims = d.claims := by unfold hpEmit; split <;> rfl

@[simp] theorem hpTransmit_claims (j lseq : Nat) (f : HpFrame) (d : Dev) : (hpTransmit j lseq f d).claims = d.claims := by simp [hpTransmit]

@[simp] theorem hpFirst_claims (j : Nat) (f : HpFrame) (d : Dev) : (hpFirst j f d).claims = d.claims := by
  unfold hpFirst linkTransmit
  dsimp only
  (repeat' split) <;> simp

@[simp] theorem hpSend_claims (j type prio dst src hops eseq : Nat) (p : Bytes) (d : Dev) :
    (hpSend j type prio dst src hops eseq p d).claims = d.claims := by
  unfold hpSend
  dsimp only
  (repeat' split) <;> simp

@[simp] theorem meshSend_claims (type prio dst : Nat) (p : Bytes) (d : Dev) : (meshSend type prio dst p d).claims = d.claims := by
  unfold meshSend
  dsimp only
  split
  · rfl
  · exact hpSend_claims ..

@[simp] theorem collectRec_claims (r : EvRec) (d : Dev) : (collectRec r d).claims = d.claims := by
  unfold collectRec
  split
  · exact meshSend_claims ..
  · rfl

@[simp] theorem evPendAll_claims (b : Nat) (d : Dev) : (evPendAll b d).claims = d.claims := by simp [Dev.claims]

@[simp] theorem archiveFlush_claims (d : Dev) : (archiveFlush d).claims = d.claims := by
  have hfirst : (flsFirst d).claims = d.claims := by simp [Dev.claims]
  unfold archiveFlush
  dsimp only
  split
  · exact hfirst
  · refine (each_keeps Dev.claims collectRec collectRec_claims _ _).trans ?_
    split
    · exact (evPendAll_claims ..).trans hfirst
    · exact hfirst

@[simp] theorem event_claims (code sev : Nat) (b : Bytes) (d : Dev) : (event code sev b d).claims = d.claims := by
  simp only [event, recordFull, apply_ite Dev.claims, collectRec_claims, evPendAll_claims, archiveFlush_claims]
  simp [Dev.claims]

@[simp] theorem twnCount_claims (i : Nat) (d : Dev) : (twnCount i d).claims = d.claims := rfl

section
variable (path : Option (Nat × Nat)) (type eseq : Nat) (p : Bytes) (d : Dev)

@[simp] theorem pathSend_mod : (pathSend path type eseq p d).mod = d.mod := by unfold pathSend; split <;> simp
@[simp] theorem pathSend_tck : (pathSend path type eseq p d).tck = d.tck := by unfold pathSend; split <;> simp
@[simp] theorem pathSend_claims : (pathSend path type eseq p d).claims = d.claims := by unfold pathSend; split <;> simp

end

/-- A heartbeat that is due leaves on path A and then on path B. -/
theorem doHeartbeatSend_of_pair {d : Dev} (ht : isTwin d = true) (hp : d.twn.pair = 1 ∨ d.twn.pair = 3) : doHeartbeatSend d =
    sendHeartbeat 1 false (sendHeartbeat 0 false { d with twn := { d.twn with hbSeq := d.twn.hbSeq + 1 } }) := by
  obtain h | h := hp <;> simp [doHeartbeatSend, ht, h]

theorem doHeartbeatSend_keeps {β : Type} (g : Dev → β) (d : Dev) (hseq : g { d with twn := { d.twn with hbSeq := d.twn.hbSeq + 1 } } = g d)
    (hsend : ∀ path type eseq p e, g (pathSend path type eseq p e) = g e) : g (doHeartbeatSend d) = g d := by
  unfold doHeartbeatSend
  split
  · rfl
  · exact (hsend ..).trans ((hsend ..).trans hseq)

@[simp] theorem doHeartbeatSend_mod (d : Dev) : (doHeartbeatSend d).mod = d.mod := doHeartbeatSend_keeps Dev.mod d rfl pathSend_mod
@[simp] theorem doHeartbeatSend_tck (d : Dev) : (doHeartbeatSend d).tck = d.tck := doHeartbeatSend_keeps Dev.tck d rfl pathSend_tck
@[simp] theorem doHeartbeatSend_claims (d : Dev) : (doHeartbeatSend d).claims = d.claims :=
  doHeartbeatSend_keeps Dev.claims d rfl pathSend_claims

section
variable (f : Twn → Twn) (d : Dev)

/-- A change of the TWN block, with TWINCHG or without it. -/
theorem twnSet_cases : twnSet f d = { d with twn := f d.twn } ∨ twnSet f d = evPendAll 11 { d with twn := f d.twn } := ite_eq_or_eq ..

@[simp] theorem twnSet_mod : (twnSet f d).mod = d.mod := by obtain h | h := twnSet_cases f d <;> simp [h]
@[simp] theorem twnSet_twn : (twnSet f d).twn = f d.twn := by obtain h | h := twnSet_cases f d <;> simp [h]
theorem twnSet_claims : (twnSet f d).claims = ((f d.twn).primacy, (f d.twn).tookOver) := by simp [Dev.claims]

end

theorem twnSet_of_sameStatus {f : Twn → Twn} {d : Dev} (h : twnStatusWord (f d.twn) = twnStatusWord d.twn) :
    twnSet f d = { d with twn := f d.twn } := if_pos h

/-- A device that changes its mode is in it, for the reason given (14 R382). -/
theorem enterMode_mode (m : Mode) (reason : Nat) (d : Dev) : (enterMode m reason d).mod.mode = m := by simp [enterMode, takeMode, mrExtend]
theorem enterMode_reason (m : Mode) (reason : Nat) (d : Dev) : (enterMode m reason d).mod.reason = reason := by simp [enterMode, takeMode, mrExtend]

theorem paired_of_mode {d : Dev} (hm : d.mod.mode = .lead ∨ d.mod.mode = .shadow) (hp : d.twn.pair = 1) : paired d = true := by
  simp [paired, isTwin, hm, hp]

/-! ### Heartbeats of the partner (09 R254, R256, R257) -/

/-- A heartbeat on a path restores it, is contact, and carries or ends the evidence of a departure. -/
def heartbeatHeard (path seq : Nat) (depart : Bool) (t : Twn) : Twn :=
  { t with pathA := t.pathA || path == 0, pathB := t.pathB || path == 1, hbRx := seq, contact := !depart, evDepart := depart, evNbr := t.evNbr && depart }

section
variable {path serial role seq : Nat} {depart : Bool} {d : Dev}

theorem doHeartbeat_of_stranger (hs : serial ≠ d.twn.partner) : doHeartbeat path serial role seq depart d = d := by simp [doHeartbeat, hs]

section
variable (ht : isTwin d = true) (hs : serial = d.twn.partner)
include ht hs

/-- The partner's heartbeat makes a lead split, or rejoin, or neither, as its primacy says. -/
theorem doHeartbeat_of_partner : doHeartbeat path serial role seq depart d =
    let e := twnSet (heartbeatHeard path seq depart) d
    if d.mod.mode = .lead ∧ d.twn.primacy = true ∧ role = 2 then splitLead e
    else if d.mod.mode = .lead ∧ d.twn.primacy = false ∧ d.twn.split = true ∧ depart = false then rejoin e else e := by
  unfold heartbeatHeard
  simp [doHeartbeat, ht, hs, and_assoc]

theorem doHeartbeat_of_notLead (hm : d.mod.mode ≠ .lead) :
    doHeartbeat path serial role seq depart d = twnSet (heartbeatHeard path seq depart) d := by
  simp [doHeartbeat_of_partner ht hs, hm]

theorem doHeartbeat_of_rival (hm : d.mod.mode = .lead) (hp : d.twn.primacy = true) (hr : role = 2) :
    doHeartbeat path serial role seq depart d = splitLead (twnSet (heartbeatHeard path seq depart) d) := by
  simp [doHeartbeat_of_partner ht hs, hm, hp, hr]

theorem doHeartbeat_of_primary (hp : d.twn.primacy = true) (hr : role ≠ 2) :
    doHeartbeat path serial role seq depart d = twnSet (heartbeatHeard path seq depart) d := by
  simp [doHeartbeat_of_partner ht hs, hp, hr]

theorem doHeartbeat_of_split (hm : d.mod.mode = .lead) (hp : d.twn.primacy = false) (hsplit : d.twn.split = true) (hd : depart = false) :
    doHeartbeat path serial role seq depart d = rejoin (twnSet (heartbeatHeard path seq depart) d) := by
  simp [doHeartbeat_of_partner ht hs, hm, hp, hsplit, hd]

theorem doHeartbeat_of_apart (hp : d.twn.primacy = false) (h : d.twn.split = false ∨ depart = true) :
    doHeartbeat path serial role seq depart d = twnSet (heartbeatHeard path seq depart) d := by
  obtain h | h := h <;> simp [doHeartbeat_of_partner ht hs, hp, h]

end
end

/-! ### Silence on one path (09 R254) -/

/-- What HEARTBEATS_LOST_ON_ONE_PATH does. -/
def losePath (path : Nat) (d : Dev) : Dev :=
  if !isTwin d || !(if path = 0 then d.twn.pathA else d.twn.pathB) then d
  else event 0x0906 2 (be 1 path) (twnSet (fun t => if path = 0 then { t with pathA := false } else { t with pathB := false }) d)

theorem exec_heartbeatsLostOnOnePath (path : Nat) (s : State) : exec (.heartbeatsLostOnOnePath path) s = done s (losePath path) := rfl

theorem losePath_of_pathA {d : Dev} (ht : isTwin d = true) (ha : d.twn.pathA = true) :
    losePath 0 d = event 0x0906 2 (be 1 0) (twnSet (fun t => { t with pathA := false }) d) := by simp [losePath, ht, ha]

theorem losePath_of_pathB {d : Dev} (ht : isTwin d = true) (hb : d.twn.pathB = true) :
    losePath 1 d = event 0x0906 2 (be 1 1) (twnSet (fun t => { t with pathB := false }) d) := by simp [losePath, ht, hb]

/-! ### Silence: coasting, takeover and the lease (09 R255 to R257) -/

section
variable {d : Dev}

theorem doCoast_of_shadow (hm : d.mod.mode = .shadow) (hp : d.twn.pair = 1) (hs : d.tck.stopped = false) :
    doCoast d = raiseAll (twnSet (fun t => { t with coast := true }) d) := by
  simp [doCoast, hm, paired_of_mode (.inr hm) hp, hs]

/-- A takeover drops the records that wait to be applied; it is counted and recorded, and the partner hears of it. -/
def announceTakeover (evidence : Bool) (d : Dev) : Dev :=
  doHeartbeatSend (event 0x0904 3 (be 1 (if evidence then 2 else 1)) (twnCount 4 { d with tck := { d.tck with recq := [] } }))

theorem announceTakeover_mod (evidence : Bool) (d : Dev) : (announceTakeover evidence d).mod = d.mod := by simp [announceTakeover]
theorem announceTakeover_claims (evidence : Bool) (d : Dev) : (announceTakeover evidence d).claims = d.claims := by
  simp only [announceTakeover, doHeartbeatSend_claims, event_claims]
  rfl
theorem announceTakeover_recq (evidence : Bool) (d : Dev) : (announceTakeover evidence d).tck.recq = [] := by simp [announceTakeover]

/-- The shadow becomes the lead, with its primacy and its record. -/
def takenOver (evidence : Bool) (d : Dev) : Dev :=
  announceTakeover evidence (twnSet (fun t => { t with
    tookOver := true, primacy := true, coast := false, contact := false, pair := if evidence = true then 3 else t.pair, recBuf := [], recEseq := none })
    (enterMode .lead 9 d))

theorem takenOver_mod (evidence : Bool) (d : Dev) : (takenOver evidence d).mod = (enterMode .lead 9 d).mod :=
  (announceTakeover_mod ..).trans (twnSet_mod ..)

theorem takenOver_mode (evidence : Bool) (d : Dev) : (takenOver evidence d).mod.mode = .lead :=
  (congrArg Mod.mode (takenOver_mod evidence d)).trans (enterMode_mode ..)

theorem takenOver_reason (evidence : Bool) (d : Dev) : (takenOver evidence d).mod.reason = 9 :=
  (congrArg Mod.reason (takenOver_mod evidence d)).trans (enterMode_reason ..)

theorem takenOver_claims (evidence : Bool) (d : Dev) : (takenOver evidence d).claims = (true, true) :=
  (announceTakeover_claims ..).trans (twnSet_claims ..)

theorem takenOver_recq (evidence : Bool) (d : Dev) : (takenOver evidence d).tck.recq = [] := announceTakeover_recq ..

section
variable {evidence : Bool}

theorem doTakeover_of_noEvidence (he : evidence = true) (hg : partnerGone d = false) : doTakeover evidence d = d := by simp [doTakeover, he, hg]

theorem doTakeover_of_due (hm : d.mod.mode = .shadow) (hp : d.twn.pair = 1) (h : evidence = true → partnerGone d = true) :
    doTakeover evidence d = takenOver evidence d := by
  have hdue : ¬(evidence = true ∧ partnerGone d = false) := by simpa using h
  unfold takenOver announceTakeover
  simp [doTakeover, hm, paired_of_mode (.inr hm) hp, hdue]

theorem doLeaseLapse_of_tookOver (ht : d.twn.tookOver = true) (hc : d.twn.contact = false) : doLeaseLapse evidence d = d := by
  simp [doLeaseLapse, ht, hc]

theorem doLeaseLapse_of_otherEvidence (hg : evidence ≠ partnerGone d) : doLeaseLapse evidence d = d := by simp [doLeaseLapse, hg]

end

section
variable (hm : d.mod.mode = .lead) (hp : d.twn.pair = 1) (hprim : d.twn.primacy = true) (ht : ¬(d.twn.tookOver = true ∧ d.twn.contact = false))
include hm hp hprim ht

theorem doLeaseLapse_of_alone (hg : partnerGone d = true) : doLeaseLapse true d = twnSet (fun t => { t with pair := 3 }) d := by
  simp [doLeaseLapse, hm, paired_of_mode (.inl hm) hp, hprim, ht, hg]

theorem doLeaseLapse_of_silent (hg : partnerGone d = false) : doLeaseLapse false d = splitLead d := by
  simp [doLeaseLapse, hm, paired_of_mode (.inl hm) hp, hprim, ht, hg]

end
end

/-! ### Heartbeat pairing (09 R259 to R261) -/

section
variable {d : Dev}

@[simp] theorem length_freeBytes (n : Nat) (d : Dev) : (freeBytes n d).1.length = n := by simp [freeBytes]

@[simp] theorem length_hbPayload (role : Nat) (d : Dev) : (hbPayload role d).length = 46 := by simp [hbPayload]

/-- The heartbeat frame that OSF sends next takes the next SEQ. -/
def hbSeqTaken (d : Dev) : Dev := { d with twn := { d.twn with hbFrSeq := d.twn.hbFrSeq + 1 } }

/-- The heartbeat frame that OSF sends next (09 Table 09-6). -/
def hbNextFrame (d : Dev) : Bytes :=
  be 6 0x035A0C000001 ++ (freeBytes 6 (hbSeqTaken d)).1 ++ be 2 0x88B6 ++ hbPayload (hbFrRole d) (hbSeqTaken d)

/-- A heartbeat frame fits one cell. -/
theorem ceilDiv_hbNextFrame (d : Dev) : ceilDiv (hbNextFrame d).length 256 = 1 := by simp [hbNextFrame, ceilDiv]

/-- A frame of OSF that finds a queue, room in it and cells waits there (13 R375, R376). -/
theorem osfSend_of_room {p q : Nat} {b : Bytes} {l : List Nat} {e : Dev} (hq : osfQueue none p d = some q)
    (hr : (d.getInj q).frames.length < 2 ^ fld (d.getInj q).cfg 11 8) (hc : takeCells (0xA0 + q) (ceilDiv b.length 256) d = (some l, e)) :
    osfSend p b d = e.updInj q (fun g => { g with frames := g.frames ++ [⟨b, l⟩] }) := by
  simp [osfSend, osfPut, hq, hr.not_ge, hc]

section
variable (hon : hbOn d = true)
include hon

theorem doHbSend_of_on : doHbSend d = twnSet (fun t => { t with hbTaking := false })
    (each (hbPorts d) (fun p => osfSend p (hbNextFrame d)) (freeBytes 6 (hbSeqTaken d)).2) := if_neg (by simp [hon])

theorem doHbSend_of_onePort {p q : Nat} {l : List Nat} {e x : Dev} (hx : (freeBytes 6 (hbSeqTaken d)).2 = x) (hports : hbPorts d = [p])
    (hq : osfQueue none p x = some q) (hr : (x.getInj q).frames.length < 2 ^ fld (x.getInj q).cfg 11 8) (hc : takeCells (0xA0 + q) 1 x = (some l, e)) :
    doHbSend d = twnSet (fun t => { t with hbTaking := false }) (e.updInj q (fun g => { g with frames := g.frames ++ [⟨hbNextFrame d, l⟩] })) := by
  have hsend := osfSend_of_room hq hr (b := hbNextFrame d) (by rw [ceilDiv_hbNextFrame]; exact hc)
  simp [doHbSend_of_on hon, hports, hx, each, hsend]

end

/-- OSF keeps the SEQ of the frame. -/
abbrev hbHeard (b : Bytes) (d : Dev) : Dev := twnSet (fun t => { t with hbFrRx := beAt b 6 4 }) d

/-- The higher priority transmits, and among equals the lower serial number (09 R260). -/
abbrev hbWins (b : Bytes) (d : Dev) : Bool :=
  decide (fld d.twn.hbCfg 23 16 > byteAt b 4) || (fld d.twn.hbCfg 23 16 == byteAt b 4 && decide (d.mod.fuses.serial < beAt b 14 8))

section
variable {b : Bytes} (hon : hbOn d = true) (hl : 46 ≤ b.length) (hmagic : beAt b 0 2 = 0x4842) (hver : byteAt b 2 = 2)
include hon hl hmagic hver

theorem doHbFrame_of_valid : doHbFrame b d =
    let e := if d.twn.hbFirst = true then hbHeard b d
      else hbRoleSet (hbWins b d) (twnSet (fun t => { t with pair := 2, hbFirst := true }) (hbHeard b d))
    if byteAt b 3 = 4 ∧ e.twn.hbActive = false then hbTakeover e else e := by
  have hheard : hbHeard b d = { d with twn := { d.twn with hbFrRx := beAt b 6 4 } } := twnSet_of_sameStatus rfl
  rw [hheard]
  cases hf : d.twn.hbFirst <;> simp [doHbFrame, hon, hl.not_gt, hmagic, hver, hf]

theorem doHbFrame_of_first (hf : d.twn.hbFirst = false) (hr : byteAt b 3 ≠ 4) :
    doHbFrame b d = hbRoleSet (hbWins b d) (twnSet (fun t => { t with pair := 2, hbFirst := true }) (hbHeard b d)) := by
  simp [doHbFrame_of_valid hon hl hmagic hver, hf, hr]

theorem doHbFrame_of_later (hf : d.twn.hbFirst = true) (hr : byteAt b 3 ≠ 4) : doHbFrame b d = hbHeard b d := by
  simp [doHbFrame_of_valid hon hl hmagic hver, hf, hr]

theorem doHbFrame_of_handover (hf : d.twn.hbFirst = true) (hr : byteAt b 3 = 4) (ha : d.twn.hbActive = false) :
    doHbFrame b d = hbTakeover (hbHeard b d) := by
  simp [doHbFrame_of_valid hon hl hmagic hver, hf, hr, ha]

end

/-- What STANDBY_TAKEOVER does (09 R260). -/
def standbyTakes (d : Dev) : Dev := if hbOn d && d.twn.hbFirst && !d.twn.hbActive then hbTakeover d else d

/-- What ACTIVE_ACK_TIMEOUT does (09 R260). -/
def activeFences (d : Dev) : Dev :=
  let los := (d.getPort (fld d.twn.hbCfg 5 0)).los && (d.getPort (fld d.twn.hbCfg 13 8)).los
  if hbOn d && d.twn.hbFirst && d.twn.hbActive && !los then hbRoleSet false d else d

/-- What FENCED_SOLO_TIMEOUT does (09 R261). -/
def fencedTakes (d : Dev) : Dev := if hbOn d && !d.twn.hbFirst && !d.twn.hbActive then hbTakeover d else d

theorem exec_standbyTakeover (s : State) : exec .standbyTakeover s = done s standbyTakes := rfl
theorem exec_activeAckTimeout (s : State) : exec .activeAckTimeout s = done s activeFences := rfl
theorem exec_fencedSoloTimeout (s : State) : exec .fencedSoloTimeout s = done s fencedTakes := rfl

/-- Both heartbeat ports report loss of signal. -/
abbrev HbPortsDark (d : Dev) : Prop := (d.getPort (fld d.twn.hbCfg 5 0)).los = true ∧ (d.getPort (fld d.twn.hbCfg 13 8)).los = true

theorem standbyTakes_of_standby (hon : hbOn d = true) (hf : d.twn.hbFirst = true) (ha : d.twn.hbActive = false) : standbyTakes d = hbTakeover d :=
  if_pos (by simp [hon, hf, ha])

theorem standbyTakes_of_other (h : d.twn.hbFirst = false ∨ d.twn.hbActive = true) : standbyTakes d = d := by
  obtain h | h := h <;> simp [standbyTakes, h]

theorem activeFences_of_active (hon : hbOn d = true) (hf : d.twn.hbFirst = true) (ha : d.twn.hbActive = true) (hl : ¬HbPortsDark d) :
    activeFences d = hbRoleSet false d := if_pos (by simpa [hon, hf, ha, imp_iff_not_or] using hl)

theorem activeFences_of_other (h : d.twn.hbFirst = false ∨ d.twn.hbActive = false ∨ HbPortsDark d) : activeFences d = d := by
  obtain h | h | ⟨hfirst, hsecond⟩ := h
  · simp [activeFences, h]
  · simp [activeFences, h]
  · simp [activeFences, hfirst, hsecond]

theorem fencedTakes_of_unheard (hon : hbOn d = true) (hf : d.twn.hbFirst = false) (ha : d.twn.hbActive = false) : fencedTakes d = hbTakeover d :=
  if_pos (by simp [hon, hf, ha])

theorem fencedTakes_of_other (h : d.twn.hbFirst = true ∨ d.twn.hbActive = true) : fencedTakes d = d := by
  obtain h | h := h <;> simp [fencedTakes, h]

end

/-- Settles O21: a heartbeat is judged by the device's mode and primacy, a silence by its pair and the evidence of the partner, and a frame or silence of
heartbeat pairing by whether a first frame has come and whether the device transmits. -/
theorem primacies : Obligations.Primacies := by
  unfold Obligations.Primacies
  refine ⟨fun s hp => ?twins, fun s hp hon => ?solo⟩
  case twins =>
    intro runs
    refine ⟨fun ht hpair => ?send, fun path serial side dpver role seq ack depart ht => ⟨fun hs => ?stranger, fun hs => ⟨fun hm => ?notLead,
        fun hm hprim => ⟨fun hr => ?rival, fun hr => ?primary⟩, fun hm hprim => ⟨fun hsplit hd => ?split, fun h => ?apart⟩⟩⟩,
      fun ht => ⟨fun ha => ?lostA, fun hb => ?lostB⟩, fun hm hpair hstop => ?coast,
      fun evidence hm hpair => ⟨fun he hg => ?noEvidence, fun h => ?takeover⟩,
      fun hm hpair hprim => ⟨fun ⟨ht, hc⟩ evidence => ?kept, fun ht => ⟨fun hg => ⟨?alone, ?notAlone⟩, fun hg => ⟨?notSplit, ?splits⟩⟩⟩⟩
    case send => exact runs_of hp rfl (doHeartbeatSend_of_pair ht hpair)
    case stranger => exact runs_of hp rfl (doHeartbeat_of_stranger hs)
    case notLead => exact runs_of hp rfl (doHeartbeat_of_notLead ht hs hm)
    case rival => exact runs_of hp rfl (doHeartbeat_of_rival ht hs hm hprim hr)
    case primary => exact runs_of hp rfl (doHeartbeat_of_primary ht hs hprim hr)
    case split => exact runs_of hp rfl (doHeartbeat_of_split ht hs hm hprim hsplit hd)
    case apart => exact runs_of hp rfl (doHeartbeat_of_apart ht hs hprim h)
    case lostA => exact runs_of hp (exec_heartbeatsLostOnOnePath _ s) (losePath_of_pathA ht ha)
    case lostB => exact runs_of hp (exec_heartbeatsLostOnOnePath _ s) (losePath_of_pathB ht hb)
    case coast => exact runs_of hp rfl (doCoast_of_shadow hm hpair hstop)
    case noEvidence => exact runs_of hp rfl (doTakeover_of_noEvidence he hg)
    case takeover =>
      intro d e
      have he : e = takenOver evidence s.dev := rfl
      clear_value e
      subst he
      obtain ⟨hprim, htook⟩ := Prod.mk.inj (takenOver_claims evidence s.dev)
      exact ⟨runs_of hp rfl (doTakeover_of_due hm hpair h), takenOver_mode evidence s.dev, takenOver_reason evidence s.dev, hprim, htook,
        takenOver_recq evidence s.dev⟩
    case kept => exact runs_of hp rfl (doLeaseLapse_of_tookOver ht hc)
    case alone => exact runs_of hp rfl (doLeaseLapse_of_alone hm hpair hprim ht hg)
    case notAlone => exact runs_of hp rfl (doLeaseLapse_of_otherEvidence (by simp [hg]))
    case notSplit => exact runs_of hp rfl (doLeaseLapse_of_otherEvidence (by simp [hg]))
    case splits => exact runs_of hp rfl (doLeaseLapse_of_silent hm hpair hprim ht hg)
  case solo =>
    intro runs first active e r role frame
    refine ⟨fun p q l d1 hports htaking hq hroom hcells => ?sendOne, runs_of hp rfl (doHbSend_of_on hon),
      fun b hl hmagic hver => ⟨fun hf hr => ?elect, fun hf hr => ?heard, fun hf hr ha => ?handover⟩, fun hf ha => ?standby, fun h => ?noStandby,
      ⟨fun hf ha hlos => ?unanswered, fun h => ?answered⟩, fun hf ha => ?fenced, fun h => ?notFenced⟩
    case sendOne => exact runs_of hp rfl (doHbSend_of_onePort hon rfl hports hq hroom hcells)
    case elect => exact runs_of hp rfl (doHbFrame_of_first hon hl hmagic hver hf hr)
    case heard => exact runs_of hp rfl (doHbFrame_of_later hon hl hmagic hver hf hr)
    case handover => exact runs_of hp rfl (doHbFrame_of_handover hon hl hmagic hver hf hr ha)
    case standby => exact runs_of hp (exec_standbyTakeover s) (standbyTakes_of_standby hon hf ha)
    case noStandby => exact runs_of hp (exec_standbyTakeover s) (standbyTakes_of_other h)
    case unanswered => exact runs_of hp (exec_activeAckTimeout s) (activeFences_of_active hon hf ha hlos)
    case answered => exact runs_of hp (exec_activeAckTimeout s) (activeFences_of_other h)
    case fenced => exact runs_of hp (exec_fencedSoloTimeout s) (fencedTakes_of_unheard hon hf ha)
    case notFenced => exact runs_of hp (exec_fencedSoloTimeout s) (fencedTakes_of_other h)

end Sys2Proof.Machine

/-! SUPPORT. Holpen links and the mesh: frames and hellos received, a zeroise that arrives, rekeying, restarts, the fault of the TWN block and the lock
of the node address (09 R254, R263 to R267, R270, R271; 14 R410; 15 R413, R421). -/

namespace Sys2Proof.Machine

/-! ### Protected frames (09 R263, R265) -/

/-- TYPE of a Holpen frame (09 Table 09-7). -/
abbrev hpType (b : Bytes) : Nat := fld (byteAt b 1) 5 0

/-- The frame opened under the link key of port `j` and its frame counter. -/
abbrev hpOpened (j : Nat) (b : Bytes) (d : Dev) : Option Bytes :=
  gcmOpen (d.getHp j).rxKey (hpIv (d.getHp j).rxSalt (if (d.getHp j).lowSerial = true then 1 else 0) (d.getHp j).rxCtr) (b.take 16)
    (sub_ b 16 (beAt b 2 2)) (b.drop (16 + beAt b 2 2))

/-- A frame received takes one link frame counter. -/
abbrev hpCounted (j : Nat) (d : Dev) : Dev := d.updHp j (fun h => { h with rxCtr := h.rxCtr + 1 })

/-- One more failure in a row. -/
abbrev hpFailed (j : Nat) (d : Dev) : Dev := d.updHp j (fun h => { h with fails := h.fails + 1 })

section
variable {j : Nat} {d : Dev}

theorem holpenFail_of_lossy : holpenFail j false d = d := rfl

theorem holpenFail_of_few (h : (d.getHp j).fails < 3) : holpenFail j true d = hpRequest j (hpFailed j d) := by simp [holpenFail, h]

theorem holpenFail_of_many (h : 3 ≤ (d.getHp j).fails) : holpenFail j true d = hpLose j (hpFailed j d) := by
  have hmany : ¬(d.getHp j).fails + 1 < 4 := by omega
  simp [holpenFail, hmany]

end

section
variable {j : Nat} {b : Bytes} {d : Dev}

theorem doHolpenFrame_of_down (hs : (d.getHp j).state ≠ 3) (ht : hpType b ≠ 1) : doHolpenFrame j b d = d := by simp [doHolpenFrame, hs, ht]

section
variable (hs : (d.getHp j).state = 3) (ht : hpType b ≠ 1)
include hs ht

theorem doHolpenFrame_of_up : doHolpenFrame j b d = protectedFrame j b d := by simp [doHolpenFrame, hs, ht]

theorem doHolpenFrame_of_unopened (h : b.length ≠ beAt b 2 2 + 32 ∨ 2048 < b.length ∨ hpOpened j b d = none) :
    doHolpenFrame j b d = holpenFail j (hpLossless (hpType b)) (hpCounted j d) := by
  rw [doHolpenFrame_of_up hs ht]
  obtain h | h | h := h
  · simp [protectedFrame, h]
  · simp [protectedFrame, h]
  · simp only [protectedFrame, h, ite_self]

section
variable {p : Bytes} (hl : b.length = beAt b 2 2 + 32) (hmax : b.length ≤ 2048) (ho : hpOpened j b d = some p)
include hl hmax ho

theorem doHolpenFrame_of_opened : doHolpenFrame j b d =
    if hpLossless (hpType b) = true ∧ byteAt b 9 ≠ ((d.getHp j).lack + 1) % 256 then holpenFail j true (hpCounted j d)
    else holpenTake j b p (hpCounted j d) := by
  have hshort : ¬2048 < beAt b 2 2 + 32 := by omega
  rw [doHolpenFrame_of_up hs ht]
  simp [protectedFrame, ho, hl, hshort]

theorem doHolpenFrame_of_outOfSequence (hll : hpLossless (hpType b) = true) (hq : byteAt b 9 ≠ ((d.getHp j).lack + 1) % 256) :
    doHolpenFrame j b d = holpenFail j (hpLossless (hpType b)) (hpCounted j d) := by
  rw [doHolpenFrame_of_opened hs ht hl hmax ho, if_pos ⟨hll, hq⟩, hll]

theorem doHolpenFrame_of_inSequence (hq : hpLossless (hpType b) = true → byteAt b 9 = ((d.getHp j).lack + 1) % 256) :
    doHolpenFrame j b d = holpenTake j b p (hpCounted j d) :=
  (doHolpenFrame_of_opened hs ht hl hmax ho).trans (if_neg fun ⟨hll, hne⟩ => hne (hq hll))

end
end
end

/-- The frame acknowledges what was sent up to its LACK, and is the last one received in order when it is lossless. -/
abbrev hpTaken (j : Nat) (b : Bytes) (d : Dev) : Dev :=
  hpAck j (byteAt b 10) (d.updHp j (fun h => { h with fails := 0, lack := if hpLossless (hpType b) = true then byteAt b 9 else h.lack }))

section
variable {j : Nat} {b p : Bytes} {d : Dev}

theorem holpenTake_of_request (ht : hpType b = 0) : holpenTake j b p d = hpResend j (hpTaken j b d) := if_pos ht

theorem holpenTake_of_other (ht : hpType b ≠ 0) : holpenTake j b p d =
    holpenAct j (hpType b) (byteAt b 1 / 64) (beAt b 4 2) (beAt b 6 2) (byteAt b 8) (beAt b 12 4) p (hpTaken j b d) := if_neg ht

end

/-! ### LINKHELLO (09 R266, R267) -/

/-- A field of a part of a string is a field of the string. -/
theorem beAt_sub_ {b : Bytes} {i n k m : Nat} (h : k + m ≤ n) : beAt (sub_ b i n) k m = beAt b (i + k) m := by
  have hm : min m (n - k) = m := by omega
  simp [beAt, sub_, List.drop_take, List.take_take, List.drop_drop, hm]

theorem byteAt_sub_ {b : Bytes} {i n k : Nat} (h : k < n) : byteAt (sub_ b i n) k = byteAt b (i + k) := by
  rw [byteAt_eq_beAt, byteAt_eq_beAt, beAt_sub_ h]

/-- Port `j` trains or is up. -/
abbrev HpLinked (j : Nat) (d : Dev) : Prop := (d.getHp j).state = 1 ∨ (d.getHp j).state = 2 ∨ (d.getHp j).state = 3

section
variable {j majors minor nbr serial : Nat} {d : Dev}

/-- A LINKHELLO frame of 28 bytes that is no part of a PKX message is the version offer. -/
theorem doHolpenFrame_of_hello {b : Bytes} (hs : HpLinked j d) (ht : hpType b = 1) (hn : beAt b 2 2 = 28) (hl : b.length = 60)
    (hx : beAt b 16 4 ≠ 0x4F56504B) : doHolpenFrame j b d = doLinkhello j (beAt b 16 2) (byteAt b 19) (beAt b 34 2) (beAt b 36 8) d := by
  have hlen : (sub_ b 16 28).length = 28 := by simp [sub_, hl]
  simp [doHolpenFrame, ht, hn, hl, helloFrame, hx, hlen, beAt_sub_, byteAt_sub_, or_assoc, hs]

theorem linkPart_of_linked {x : Bytes} (hs : HpLinked j d) : linkPart j x d = pkxFragment (64 + j) (byteAt x 5) (x.take 20) (x.drop 20) d := by
  simp [linkPart, or_assoc, hs]

/-- What LINKHELLO does. -/
def helloOrPart (j majors minor nbr serial : Nat) (x : Bytes) (d : Dev) : Dev :=
  if x.isEmpty then doLinkhello j majors minor nbr serial d else linkPart j x d

theorem exec_linkhello (j majors minor nbr serial : Nat) (x : Bytes) (s : State) :
    exec (.linkhello j majors minor nbr serial x) s = done s (helloOrPart j majors minor nbr serial x) := rfl

theorem helloOrPart_of_part {x : Bytes} (hx : x ≠ []) (hs : HpLinked j d) :
    helloOrPart j majors minor nbr serial x d = pkxFragment (64 + j) (byteAt x 5) (x.take 20) (x.drop 20) d := by
  simp [helloOrPart, hx, linkPart_of_linked hs]

theorem wrongNeighbour_of_none (h : servesTorus j d = none) : wrongNeighbour j nbr d = false := by simp [wrongNeighbour, h]

theorem wrongNeighbour_iff {t : Nat} (h : servesTorus j d = some t) :
    wrongNeighbour j nbr d = true ↔ nodeLocked d = true ∧ nbr ≠ torusNeighbour t d := by
  simp [wrongNeighbour, h]

theorem doLinkhello_of_idle (hs : ¬HpLinked j d) : doLinkhello j majors minor nbr serial d = d := by
  obtain ⟨h1, h2, h3⟩ := (not_or.trans (and_congr_right' not_or)).mp hs
  simp [doLinkhello, h1, h2, h3]

theorem doLinkhello_of_up (hs : (d.getHp j).state = 3) :
    doLinkhello j majors minor nbr serial d = if wrongNeighbour j nbr d = true then refuseNeighbour j d else d := by
  simp [doLinkhello, hs]

section
variable (hs : (d.getHp j).state = 1 ∨ (d.getHp j).state = 2)
include hs

theorem doLinkhello_of_version (hv : bitAt majors 1 = false) :
    doLinkhello j majors minor nbr serial d = event 0x0908 2 (be 1 j ++ be 1 1) (d.updHp j (fun h => { h with state := 4 })) := by
  obtain h | h := hs <;> simp [doLinkhello, h, hv]

variable (hv : bitAt majors 1 = true)
include hv

theorem doLinkhello_of_wrong (hw : wrongNeighbour j nbr d = true) : doLinkhello j majors minor nbr serial d = refuseNeighbour j d := by
  obtain h | h := hs <;> simp [doLinkhello, h, hv, hw]

end

/-- The neighbour of a port in training is known, and the version and direction of the link with it. -/
abbrev helloTaken (j nbr serial : Nat) (d : Dev) : Dev := d.updHp j (fun h => { h with
  vmaj := 1, vmin := 0, nbr := nbr, known := true, lowSerial := decide (d.mod.fuses.serial < serial), state := 2 })

section
variable (hv : bitAt majors 1 = true) (hw : wrongNeighbour j nbr d = false)
include hv hw

theorem doLinkhello_of_again (hs : (d.getHp j).state = 2) : doLinkhello j majors minor nbr serial d = helloTaken j nbr serial d := by
  simp [doLinkhello, hs, hv, hw]

theorem doLinkhello_of_first (hs : (d.getHp j).state = 1) :
    doLinkhello j majors minor nbr serial d = linkStart j (linkHello j (helloTaken j nbr serial d)) := by
  simp [doLinkhello, hs, hv, hw]

end
end

/-! ### Mesh-wide zeroise (09 R271, 14 R410) -/

@[simp] theorem meshFlood_mod (type prio src hops eseq : Nat) (p : Bytes) (arrival : Option Nat) (d : Dev) :
    (meshFlood type prio src hops eseq p arrival d).mod = d.mod :=
  (each_keeps Dev.mod _ (fun j e => hpSend_mod j type prio 0x8000 src hops eseq p e) _ _).trans rfl

section
variable {j origin hops eseq : Nat} {p : Bytes} {d : Dev}

/-- A mesh-wide zeroise is recorded, unless the node is ZEROISED, and carried out. -/
abbrev meshZeroised (origin hops : Nat) (recorded : Bool) (d : Dev) : Dev :=
  zeroiseNow 8 4 2 (when_ recorded (event 0x0909 3 (be 2 origin ++ be 1 (25 - hops))) d)

theorem zeroiseIn_of_onward (h : 1 < hops) :
    zeroiseIn j origin hops eseq p d = meshZeroised origin hops (d.mod.mode != .zeroised) (meshFlood 2 0 origin (hops - 1) eseq p (some j) d) := by
  simp [zeroiseIn, h.not_ge]

theorem zeroiseIn_of_lastHop (h : hops ≤ 1) :
    zeroiseIn j origin hops eseq p d = meshZeroised origin hops (d.mod.mode != .zeroised) (twnCount 5 d) := by
  simp [zeroiseIn, h, twnCount]

end

/-- What ZEROISE does: its ESEQ is a free value (log entry 15). -/
def zeroiseArrives (j origin reason hops : Nat) (d : Dev) : Dev :=
  zeroiseIn j origin hops ((freeNat d).1 % 2 ^ 32) (be 2 origin ++ be 1 reason) (freeNat d).2

theorem exec_zeroise (j origin reason hops : Nat) (s : State) : exec (.zeroise j origin reason hops) s = done s (zeroiseArrives j origin reason hops) := rfl

/-! ### Rekeying and restart (09 R266, 12 R358, 15 R413) -/

/-- Session `e` is one that this end of the link of port `j` has opened and established. -/
abbrev ownLinkSession (j : Nat) (e : Nat × PkxSession) : Bool := e.2.port == 64 + j && e.2.state == .established && e.2.initiator

section
variable {j : Nat} {d : Dev}

theorem doLinkRekey_of_initiator {e : Nat × PkxSession} (hs : (d.getHp j).state = 3) (he : d.keys.pkx.find? (ownLinkSession j) = some e) :
    doLinkRekey j d = doTCk e.1 d := by simp [doLinkRekey, hs, he]

theorem doLinkRekey_of_other (h : (d.getHp j).state ≠ 3 ∨ d.keys.pkx.find? (ownLinkSession j) = none) : doLinkRekey j d = d := by
  obtain h | h := h
  · simp [doLinkRekey, h]
  · simp [doLinkRekey, h]

/-- What HOLPEN_PORT_RESTART does. -/
def restartPort (j : Nat) (d : Dev) : Dev := if (d.getHp j).state = 0 then hpFollow j d else d

theorem exec_holpenPortRestart (j : Nat) (s : State) : exec (.holpenPortRestart j) s = done s (restartPort j) := rfl

theorem restartPort_of_running (hs : (d.getHp j).state ≠ 0) : restartPort j d = d := if_neg hs

section
variable (hs : (d.getHp j).state = 0)
include hs

theorem restartPort_of_ready (hl : hpLanesUp j d = true) (ho : hpOff j d = false) :
    restartPort j d = linkHello j (d.updHp j (fun h => { h with state := 1 })) := by simp [restartPort, hs, hpFollow, hl, ho]

theorem restartPort_of_unready (h : hpLanesUp j d = false ∨ hpOff j d = true) : restartPort j d = neighbourLost j d := by
  obtain h | h := h <;> simp [restartPort, hs, hpFollow, h]

end

/-- A lane of no signal or no lock. -/
abbrev LaneDark (l : Nat) (d : Dev) : Prop := (d.getLane l).los = true ∨ (d.getLane l).lol = true

theorem hpDark_iff : hpDark j d = true ↔ ∀ l ∈ [64 + 2 * j, 65 + 2 * j], LaneDark l d := by simp [hpDark]

theorem hpLanesUp_of_dark (h : hpDark j d = true) : hpLanesUp j d = false := by
  obtain hl | hl := hpDark_iff.mp h (64 + 2 * j) (by simp) <;> simp [hpLanesUp, hl]

theorem hpDark_of_lit (h : ((d.getLane (64 + 2 * j)).los = false ∧ (d.getLane (64 + 2 * j)).lol = false) ∨
    ((d.getLane (65 + 2 * j)).los = false ∧ (d.getLane (65 + 2 * j)).lol = false)) : hpDark j d = false := by
  obtain ⟨hs, hl⟩ | ⟨hs, hl⟩ := h <;> simp [hpDark, hs, hl]

theorem neighbourLost_of_known (hj : j < 6) (hn : nodeLocked d = true) (hk : (d.getHp j).known = true) (hd : hpDark j d = true) :
    neighbourLost j d =
      let e := (d.twn.eseq + 1) % 2 ^ 32
      meshFlood 0x0B 2 (nodeAddr d) 24 e (be 2 (d.getHp j).nbr) (some j)
        (({ d with twn := { d.twn with eseq := e } } : Dev).updHp j (fun h => { h with known := false })) :=
  if_pos (by simp only [hj, hn, hk, decide_true, Bool.true_and]; exact hd)

theorem neighbourLost_of_other (h : 6 ≤ j ∨ nodeLocked d = false ∨ (d.getHp j).known = false ∨ hpDark j d = false) : neighbourLost j d = d := by
  refine if_neg fun hlost => ?_
  change (decide (j < 6) && nodeLocked d && (d.getHp j).known && hpDark j d) = true at hlost
  simp only [Bool.and_eq_true, decide_eq_true_eq] at hlost
  obtain ⟨⟨⟨hj, hn⟩, hk⟩, hd⟩ := hlost
  obtain h | h | h | h := h
  · omega
  · simp [hn] at h
  · simp [hk] at h
  · simp [hd] at h

end

/-! ### The fault of the TWN block (09 R254, 15 R421) -/

/-- What TWN_BLOCK_FAULT does. -/
def twnFault (d : Dev) : Dev :=
  deviceFault 6 (each (List.range 8) hpDown (each (List.range 16) (fun i d => d.updLane (64 + i) (fun l => { l with squelch := true })) d))

theorem exec_twnBlockFault (s : State) : exec .twnBlockFault s = done s twnFault := rfl

/-! ### The node address (09 R267, Table 09-14) -/

section
variable {v : Nat} {d : Dev}

/-- TWN_NODEADDR takes the fields that a write of `v` names. -/
abbrev nodeAddrTaken (v : Nat) (d : Dev) : Dev :=
  { d with twn := { d.twn with nodeAddr := fld v 8 0 + at_ (fld v 24 16) 16 + (if bitAt v 31 = true then 2 ^ 31 else 0) } }

theorem nodeAddr_nodeAddrTaken (v : Nat) (d : Dev) : nodeAddr (nodeAddrTaken v d) = fld v 8 0 := by
  simp only [nodeAddr, fld, at_]
  split <;> omega

/-- Bit 31 of a number that has it above a smaller one. -/
theorem bitAt_topBit {x : Nat} (hx : x < 2 ^ 31) (c : Bool) : bitAt (x + if c = true then 2 ^ 31 else 0) 31 = c := by
  cases c <;> simp [bitAt] <;> omega

theorem nodeLocked_nodeAddrTaken (v : Nat) (d : Dev) : nodeLocked (nodeAddrTaken v d) = bitAt v 31 := by
  have hfields : fld v 8 0 + at_ (fld v 24 16) 16 < 2 ^ 31 := by
    simp only [fld, at_]
    omega
  exact bitAt_topBit hfields (bitAt v 31)

theorem nodeAddrWrite_of_locked (hl : nodeLocked d = true) : nodeAddrWrite v d = d := by simp [nodeAddrWrite, hl]

section
variable (hv : v < 2 ^ 32) (hl : nodeLocked d = false)
include hv hl

theorem nodeAddrWrite_of_unlocking (hb : bitAt v 31 = false) : nodeAddrWrite v d = nodeAddrTaken v d := by
  have hmod : v % 2 ^ 32 = v := Nat.mod_eq_of_lt hv
  simp [nodeAddrWrite, hl, hmod, hb, -Nat.reducePow]

theorem nodeAddrWrite_of_locking (hb : bitAt v 31 = true) : nodeAddrWrite v d = each (List.range 8) (fun j d =>
    if (2 ≤ (d.getHp j).state ∧ (d.getHp j).state ≤ 3) ∧ wrongNeighbour j (d.getHp j).nbr d = true then refuseNeighbour j d else d)
      (relabelTorus (nodeAddrTaken v d)) := by
  have hmod : v % 2 ^ 32 = v := Nat.mod_eq_of_lt hv
  simp [nodeAddrWrite, hl, hmod, hb, nodeAddrTaken, when_, -Nat.reducePow]

end
end

/-- Settles O22: a protected frame goes by whether it opens in sequence, a hello by the port's state and the neighbour's address, a zeroise by its hops, a
restart by the port's lanes, and a write of the node address by LOCK. -/
theorem holpenNetwork : Obligations.HolpenNetwork := by
  unfold Obligations.HolpenNetwork
  refine ⟨fun s hp j => ⟨fun b => ⟨fun hs ht => ?whole, fun hs ht => ?down, fun hs ht hn hl hx => ?helloFrame⟩,
      fun hs majors minor nbr serial x hx => ?part, fun majors minor nbr serial => ?hello,
      fun origin reason hops => ⟨fun hh => ?onward, fun hh => ?lastHop⟩⟩,
    fun s hp => ⟨fun j => ⟨fun e hs he => ?rekey, fun h => ?noRekey, fun hs hl ho => ?restart, fun hs => ?running, fun hs hl h => ?waiting,
        fun hs hj hn hk hd => ?lost⟩, ?fault,
      fun v hv hopen => ⟨fun hl => ?locked, fun hl => ⟨?address, ?lock, fun hb => ?unlocking, fun hb => ?locking⟩⟩⟩⟩
  case whole =>
    intro opened e taken fails
    have hfails : doHolpenFrame j b s.dev = holpenFail j (hpLossless (hpType b)) (hpCounted j s.dev) → fails := by
      intro h
      refine ⟨fun hll => ?lossy, fun hll hf => ?few, fun hll hf => ?many⟩
      case lossy => exact runs_of hp rfl (by rw [h, hll]; rfl)
      case few => exact runs_of hp rfl (by rw [h, hll]; exact holpenFail_of_few (by simpa using hf))
      case many => exact runs_of hp rfl (by rw [h, hll]; exact holpenFail_of_many (by simpa using hf))
    refine ⟨fun h => hfails (doHolpenFrame_of_unopened hs ht h), fun p hl hmax ho => ⟨fun hll hq => ?outOfSequence, fun hq => ?inSequence⟩⟩
    case outOfSequence => exact hfails (doHolpenFrame_of_outOfSequence hs ht hl hmax ho hll hq)
    case inSequence =>
      have htake := doHolpenFrame_of_inSequence hs ht hl hmax ho hq
      exact ⟨fun h0 => runs_of hp rfl (htake.trans (holpenTake_of_other h0)), fun h0 => runs_of hp rfl (htake.trans (holpenTake_of_request h0))⟩
  case down => exact runs_of hp rfl (doHolpenFrame_of_down hs ht)
  case helloFrame => exact runs_of hp rfl (doHolpenFrame_of_hello hs ht hn hl hx)
  case part => exact runs_of hp (exec_linkhello j majors minor nbr serial x s) (helloOrPart_of_part hx hs)
  case hello =>
    have hrun : ∀ {d : Dev}, doLinkhello j majors minor nbr serial s.dev = d → Runs (.linkhello j majors minor nbr serial []) s d :=
      fun h => runs_of hp (exec_linkhello j majors minor nbr serial [] s) h
    intro row refused wrong
    refine ⟨fun h1 h2 h3 => hrun (doLinkhello_of_idle (by simp [h1, h2, h3])), fun hs => ⟨fun hn => ?upAlone, fun t hn => ?upTorus⟩,
      fun hs => ⟨fun hv => hrun (doLinkhello_of_version hs hv), fun hv => ?train⟩⟩
    case upAlone => exact hrun (by simp [doLinkhello_of_up hs, wrongNeighbour_of_none hn])
    case upTorus =>
      exact ⟨fun hw => hrun ((doLinkhello_of_up hs).trans (if_pos ((wrongNeighbour_iff hn).mpr hw))),
        fun hw => hrun ((doLinkhello_of_up hs).trans (if_neg (mt (wrongNeighbour_iff hn).mp hw)))⟩
    case train =>
      intro d taken
      have htaken : wrongNeighbour j nbr s.dev = false → taken := fun hw =>
        ⟨fun h2 => hrun (doLinkhello_of_again hv hw h2), fun h1 => hrun (doLinkhello_of_first hv hw h1)⟩
      exact ⟨fun hn => htaken (wrongNeighbour_of_none hn), fun t hn => ⟨fun hw => hrun (doLinkhello_of_wrong hs hv ((wrongNeighbour_iff hn).mpr hw)),
        fun hw => htaken (Bool.eq_false_iff.mpr (mt (wrongNeighbour_iff hn).mp hw))⟩⟩
  case onward => exact runs_of hp (exec_zeroise j origin reason hops s) (zeroiseIn_of_onward hh)
  case lastHop => exact runs_of hp (exec_zeroise j origin reason hops s) (zeroiseIn_of_lastHop hh)
  case rekey => exact runs_of hp rfl (doLinkRekey_of_initiator hs he)
  case noRekey => exact runs_of hp rfl (doLinkRekey_of_other h)
  case restart => exact runs_of hp (exec_holpenPortRestart j s) (restartPort_of_ready hs hl ho)
  case running => exact runs_of hp (exec_holpenPortRestart j s) (restartPort_of_running hs)
  case waiting =>
    have hother : 6 ≤ j ∨ nodeLocked s.dev = false ∨ (s.dev.getHp j).known = false ∨ hpDark j s.dev = false :=
      h.imp_right (Or.imp_right (Or.imp_right hpDark_of_lit))
    exact runs_of hp (exec_holpenPortRestart j s) ((restartPort_of_unready hs hl).trans (neighbourLost_of_other hother))
  case lost =>
    have hdark : hpDark j s.dev = true := hpDark_iff.mpr hd
    exact runs_of hp (exec_holpenPortRestart j s)
      ((restartPort_of_unready hs (.inl (hpLanesUp_of_dark hdark))).trans (neighbourLost_of_known hj hn hk hdark))
  case fault => exact runs_of hp (exec_twnBlockFault s) rfl
  case locked => exact runs_doneReg_of_open hp hopen rfl (nodeAddrWrite_of_locked hl)
  case address => exact nodeAddr_nodeAddrTaken v s.dev
  case lock => exact nodeLocked_nodeAddrTaken v s.dev
  case unlocking => exact runs_doneReg_of_open hp hopen rfl (nodeAddrWrite_of_unlocking hv hl hb)
  case locking => exact runs_doneReg_of_open hp hopen rfl (nodeAddrWrite_of_locking hv hl hb)

end Sys2Proof.Machine

/-! SUPPORT. Glonik cores: what the counters, the sampling and a status write leave of a core, how an instruction ends, and what a memory operand's
checks answer (10 R275, R276, R285 to R290, R306, R307). -/

namespace Sys2Proof.Machine

/-! ### General registers (10 R275) -/

section
variable {k : Core} {v : DWord}

theorem Core.reg_setReg (i r : Nat) : (k.setReg i v).reg r = if r % 32 = i % 32 ∧ i % 32 ≠ 0 then v else k.reg r := by
  by_cases hi : i % 32 = 0
  · simp [Core.setReg, hi]
  · by_cases hr : r % 32 = i % 32
    · simp [Core.setReg, Core.reg, hi, hr]
    · simp [Core.setReg, Core.reg, hi, hr, Tab.get_set]

/-- A write of g0 is discarded. -/
@[simp] theorem Core.setReg_zero : k.setReg 0 v = k := rfl

@[simp] theorem Core.reg_zero : k.reg 0 = 0 := rfl

end

/-! ### What the counters and the sampling keep (10 R306, R307) -/

section
variable {k k' : Core}

theorem or256_of_counter (s e : DWord) : (if s.getLsbD 11 then e ||| BitVec.twoPow 64 8 else e) ||| 256 = e ||| 256 := by
  split
  · rw [BitVec.or_assoc]
    rfl
  · rfl

/-- The event counters have counted: `k'` differs from `k` in them and in EVPEND bit 8 alone. -/
def Core.Counted (k k' : Core) : Prop :=
  ∃ cnt sel pend, k' = { k with pcnt := cnt, pcSel := sel, evPend := pend } ∧ pend ||| 256 = k.evPend ||| 256

theorem Core.Counted.refl (k : Core) : k.Counted k := ⟨k.pcnt, k.pcSel, k.evPend, rfl, rfl⟩

theorem Core.Counted.trans {k'' : Core} (h : k.Counted k') (h' : k'.Counted k'') : k.Counted k'' := by
  obtain ⟨_, _, _, rfl, hp⟩ := h
  obtain ⟨cnt, sel, pend, he, hp'⟩ := h'
  exact ⟨cnt, sel, pend, he, hp'.trans hp⟩

theorem Core.Counted.ite {p : Prop} [Decidable p] (h : k.Counted k') : k.Counted (if p then k' else k) := by
  split
  · exact h
  · exact .refl k

theorem Core.addCtr_counted (i n : Nat) (k : Core) : k.Counted (k.addCtr i n) := by
  simp only [Core.addCtr]
  split
  · exact .refl k
  · split
    · exact ⟨_, _, _, rfl, or256_of_counter _ _⟩
    · exact ⟨_, k.pcSel, k.evPend, rfl, rfl⟩

theorem Core.countIf_counted (p : DWord → Bool) (ev n : Nat) (k : Core) : k.Counted (k.countIf p ev n) := by
  unfold Core.countIf
  induction List.range 8 generalizing k with
  | nil => exact .refl k
  | cons i l ih => exact (k.addCtr_counted i n).ite.trans (ih _)

theorem coreCount_counted (ev : Nat) (k : Core) : k.Counted (coreCount ev k) := k.countIf_counted _ ev 1
theorem coreEdge_counted (ev : Nat) (k : Core) : k.Counted (coreEdge ev k) := k.countIf_counted _ ev 1

@[simp] theorem coreCount_run (ev : Nat) (k : Core) : (coreCount ev k).run = k.run := by
  obtain ⟨_, _, _, h, -⟩ := coreCount_counted ev k
  rw [h]

@[simp] theorem coreCount_pc (ev : Nat) (k : Core) : (coreCount ev k).pc = k.pc := by
  obtain ⟨_, _, _, h, -⟩ := coreCount_counted ev k
  rw [h]

@[simp] theorem coreEdge_run (ev : Nat) (k : Core) : (coreEdge ev k).run = k.run := by
  obtain ⟨_, _, _, h, -⟩ := coreEdge_counted ev k
  rw [h]

/-- A status write changes STATUS and the counters of the clocks that begin with it. -/
theorem Core.setStatus_eq (v : DWord) (k : Core) :
    ∃ cnt sel pend, k.setStatus v = { k with status := v, pcnt := cnt, pcSel := sel, evPend := pend } := by
  simp only [Core.setStatus]
  split
  · exact ⟨k.pcnt, k.pcSel, k.evPend, rfl⟩
  · obtain ⟨cnt, sel, pend, h, -⟩ := coreEdge_counted (if ({ k with status := v } : Core).super then 16 else 15) { k with status := v }
    exact ⟨cnt, sel, pend, h⟩

@[simp] theorem Core.setStatus_run (v : DWord) (k : Core) : (k.setStatus v).run = k.run := by
  obtain ⟨_, _, _, h⟩ := k.setStatus_eq v
  rw [h]

@[simp] theorem Core.setStatus_pc (v : DWord) (k : Core) : (k.setStatus v).pc = k.pc := by
  obtain ⟨_, _, _, h⟩ := k.setStatus_eq v
  rw [h]

@[simp] theorem Core.setStatus_status (v : DWord) (k : Core) : (k.setStatus v).status = v := by
  obtain ⟨_, _, _, h⟩ := k.setStatus_eq v
  rw [h]

/-- An exception saves the state and enters supervisor level at the vector; the rest of the core but for the counters stays (10 R287). -/
theorem Core.except_eq (cause : Nat) (epc eval : DWord) (k : Core) :
    ∃ cnt sel pend, k.except cause epc eval = { k with
      status := 3, estatus := k.status, epc := epc, ecause := BitVec.ofNat 64 cause, eval := eval
      pc := BitVec.ofNat 32 (k.evbase.toNat + 64 * cause), pcnt := cnt, pcSel := sel, evPend := pend } := by
  obtain ⟨_, _, _, hc, -⟩ := coreCount_counted 9 k
  obtain ⟨cnt, sel, pend, hs⟩ := (coreCount 9 k).setStatus_eq 3
  refine ⟨cnt, sel, pend, ?_⟩
  rw [Core.except, hs, hc]

theorem Core.keeps_refl (k : Core) : k.keeps k := ⟨rfl, rfl⟩

theorem Core.keeps.trans {k'' : Core} (h : k.keeps k') (h' : k'.keeps k'') : k.keeps k'' := by
  obtain ⟨he, hp⟩ := h
  obtain ⟨he', hp'⟩ := h'
  refine ⟨?_, hp'.trans hp⟩
  rw [he', he]

theorem Core.keeps_setReg (i : Nat) (v : DWord) (k : Core) : k.keeps (k.setReg i v) := by
  unfold Core.setReg
  split
  · exact k.keeps_refl
  · exact ⟨rfl, rfl⟩

section
variable (h : k.keeps k')
include h

theorem Core.keeps.run : k'.run = k.run := by rw [h.1]
theorem Core.keeps.status : k'.status = k.status := by rw [h.1]
theorem Core.keeps.exl : k'.exl = k.exl := congrArg (·.getLsbD 1) h.status
theorem Core.keeps.epc : k'.epc = k.epc := by rw [h.1]
theorem Core.keeps.ecause : k'.ecause = k.ecause := by rw [h.1]
theorem Core.keeps.sram : k'.sram = k.sram := by rw [h.1]
theorem Core.keeps.evbase : k'.evbase = k.evbase := by rw [h.1]
theorem Core.keeps.handles : k'.handles = k.handles := by rw [h.1]
theorem Core.keeps.mailbox : k'.mailbox = k.mailbox := by rw [h.1]
theorem Core.keeps.deferred : k'.deferred = k.deferred := by rw [h.1]

end

/-- Retirement counts and samples: registers and program counter stay too. -/
theorem Core.retire_eq (w : Nat) (e : Ending) (k : Core) :
    k.keeps (k.retire w e) ∧ (k.retire w e).regs = k.regs ∧ (k.retire w e).pc = k.pc := by
  have hcounted : k.Counted (if e.redirect then coreCount 3 (coreCount 1 k) else coreCount 1 k) :=
    (coreCount_counted 1 k).trans (coreCount_counted 3 _).ite
  obtain ⟨_, _, _, h3, hp3⟩ := hcounted
  simp only [Core.retire, h3]
  refine ⟨⟨?_, ?_⟩, ?_, ?_⟩
  · (repeat' split) <;> rfl
  · (repeat' split) <;> exact hp3
  · (repeat' split) <;> rfl
  · (repeat' split) <;> rfl

theorem Core.retire_keeps (w : Nat) (e : Ending) (k : Core) : k.keeps (k.retire w e) := (k.retire_eq w e).1
@[simp] theorem Core.retire_pc (w : Nat) (e : Ending) (k : Core) : (k.retire w e).pc = k.pc := (k.retire_eq w e).2.2

@[simp] theorem Core.retire_reg (w : Nat) (e : Ending) (r : Nat) : (k.retire w e).reg r = k.reg r := by
  rw [Core.reg, (k.retire_eq w e).2.1, Core.reg]

end

/-! ### One core changes -/

section
variable {c : Nat} {d d' d'' : Dev}

theorem OnlyCore.refl (c : Nat) (d : Dev) : OnlyCore c d d := ⟨rfl, fun _ _ => rfl⟩

theorem OnlyCore.trans (h : OnlyCore c d d') (h' : OnlyCore c d' d'') : OnlyCore c d d'' := by
  obtain ⟨he, hx⟩ := h
  obtain ⟨he', hx'⟩ := h'
  refine ⟨?_, fun x hne => (hx' x hne).trans (hx x hne)⟩
  rw [he', he]

theorem onlyCore_updCore (c : Nat) (f : Core → Core) (d : Dev) : OnlyCore c d (d.updCore c f) :=
  ⟨rfl, fun x hx => Dev.getCore_updCore_ne c x f d hx⟩

/-- Of the device, core `c`'s general register `rd` alone has changed: it has taken `v`, unless it is g0. -/
def WritesReg (c rd : Nat) (v : DWord) (d d' : Dev) : Prop := OnlyCore c d d' ∧ d'.getCore c = (d.getCore c).setReg rd v

theorem writesReg_updCore (c rd : Nat) (v : DWord) (d : Dev) : WritesReg c rd v d (d.updCore c (fun k => k.setReg rd v)) :=
  ⟨onlyCore_updCore .., Dev.getCore_updCore ..⟩

/-- An instruction without a destination writes g0. -/
theorem writesReg_g0 (c : Nat) (v : DWord) (d : Dev) : WritesReg c 0 v d d := ⟨OnlyCore.refl c d, rfl⟩

/-- An update of a core goes by what it makes of that core. -/
theorem updCore_congr {f g : Core → Core} (h : f (d.getCore c) = g (d.getCore c)) : d.updCore c f = d.updCore c g := by
  simp only [Dev.getCore] at h
  simp only [Dev.updCore, Tab.upd, h]

end

/-! ### How an instruction ends (10 R281, R287) -/

section
variable {i : Instr} {c cause : Nat} {s : State} {e : Ending} {d d1 : Dev} {v eval t : DWord}

theorem jumpTo_fetchable (h : fetchable t.toNat = true) : jumpTo c t d = d.updCore c (fun k => { k with pc := t.setWidth 32 }) := by
  simp [jumpTo, h]

theorem takeExc_of_exl_false {epc : DWord} (h : (d.getCore c).exl = false) : takeExc c cause epc eval d = d.updCore c (Core.except cause epc eval) := by
  simp [takeExc, h]

theorem finish_next (h : e.how = .next) : finish c e d = d.updCore c (fun k => { k with pc := (d.getCore c).pc + 4 }) := by simp [finish, h]

theorem finish_jump (h : e.how = .jump t) : finish c e d = jumpTo c t d := by simp [finish, h]

theorem finish_exc (h : e.how = .exc cause eval) : finish c e d = takeExc c cause ((d.getCore c).pc.setWidth 64) eval d := by simp [finish, h]

/-- Instruction `i` of core `c`, whose effect leaves `d`, retires there and ends as `e` says. -/
def Ends (i : Instr) (c : Nat) (s : State) (e : Ending) (d : Dev) : Prop :=
  ∃ w d', Runs i s (finish c e d') ∧ OnlyCore c d d' ∧ d'.getCore c = (d.getCore c).retire w e

theorem coreRun_of_ready {w : Nat} {body : Dev → Ending × Dev} (hr : Ready c s) (hb : body s.dev = (e, d)) :
    coreRun c w body s.dev = if (d.getCore c).run = .running then finish c e (d.updCore c (Core.retire w e)) else d := by
  obtain ⟨-, hc, hrun, hf⟩ := hr
  simp [coreRun, Nat.not_le.mpr hc, hrun, hf, hb]

/-- An instruction whose effect leaves the core running ends as its effect says. -/
theorem ends_of {w : Nat} {f : Dev → Dev} {body : Dev → Ending × Dev} (hr : Ready c s) (hx : exec i s = done s f)
    (hf : f s.dev = coreRun c w body s.dev) (hb : body s.dev = (e, d)) (hrun : (d.getCore c).run = .running) : Ends i c s e d := by
  refine ⟨w, d.updCore c (Core.retire w e), runs_of hr.1 hx ?_, onlyCore_updCore .., Dev.getCore_updCore ..⟩
  rw [hf, coreRun_of_ready hr hb, if_pos hrun]

/-- The core completes once nothing but its program counter moves after the retirement. -/
theorem Ends.completes_at {rd : Nat} {pc : BitVec 32} (h : Ends i c s e d) (hd : WritesReg c rd v d1 d)
    (hfin : ∀ d' : Dev, (d'.getCore c).pc = (d1.getCore c).pc → finish c e d' = d'.updCore c (fun k => { k with pc := pc })) :
    Completes i c rd v pc s d1 := by
  obtain ⟨w, d', hruns, honly, hcore⟩ := h
  obtain ⟨honly1, hcore1⟩ := hd
  have hpc : (d'.getCore c).pc = (d1.getCore c).pc := by
    rw [hcore, hcore1, Core.retire_pc, Core.setReg]
    split <;> rfl
  rw [hfin d' hpc] at hruns
  refine ⟨_, hruns, (honly1.trans honly).trans (onlyCore_updCore ..), ?_, fun r => ?_, ?_⟩
  · have hkeeps : (d1.getCore c).keeps (d'.getCore c) := by
      rw [hcore, hcore1]
      exact (Core.keeps_setReg ..).trans (Core.retire_keeps ..)
    rw [Dev.getCore_updCore]
    exact hkeeps.trans ⟨rfl, rfl⟩
  · have hreg : (d'.getCore c).reg r = if r % 32 = rd % 32 ∧ rd % 32 ≠ 0 then v else (d1.getCore c).reg r := by
      rw [hcore, hcore1, Core.retire_reg, Core.reg_setReg]
    rw [Dev.getCore_updCore]
    exact hreg
  · rw [Dev.getCore_updCore]

/-- The next instruction follows. -/
theorem Ends.completes {rd : Nat} {pc : BitVec 32} (h : Ends i c s e d) (he : e.how = .next) (hd : WritesReg c rd v d1 d)
    (hpc : (d1.getCore c).pc = pc) : Completes i c rd v (pc + 4) s d1 :=
  h.completes_at hd (fun d' hd' => by rw [finish_next he, hd', hpc])

/-- Control goes to an address where instructions stand. -/
theorem Ends.completes_jump {rd : Nat} (h : Ends i c s e d) (he : e.how = .jump t) (ht : fetchable t.toNat = true) (hd : WritesReg c rd v d1 d) :
    Completes i c rd v (t.setWidth 32) s d1 :=
  h.completes_at hd (fun d' _ => by rw [finish_jump he, jumpTo_fetchable ht])

/-- What an exception leaves of the core that takes it. -/
def Core.trapView (k : Core) : Tab DWord × DWord × DWord × Tab Byte × Tab (Option Handle) × List Message :=
  (k.regs, k.status, k.evbase, k.sram, k.handles, k.mailbox)

theorem Core.trapView_retire (w : Nat) (e : Ending) (k : Core) : (k.retire w e).trapView = k.trapView := by
  obtain ⟨hk, hregs, -⟩ := k.retire_eq w e
  simp only [Core.trapView, hregs, hk.status, hk.evbase, hk.sram, hk.handles, hk.mailbox]

/-- An exception taken with EXL 0 traps (10 R287). -/
theorem traps_of_takeExc {epc : DWord} (hruns : Runs i s (takeExc c cause epc eval d)) (honly : OnlyCore c d1 d)
    (hview : (d.getCore c).trapView = (d1.getCore c).trapView) (hexl : (d1.getCore c).exl = false) : Traps i c cause epc eval s d1 := by
  simp only [Core.trapView, Prod.mk.injEq] at hview
  obtain ⟨hregs, hstatus, hevbase, hsram, hhandles, hmailbox⟩ := hview
  have hexl' : (d.getCore c).exl = false := by rw [Core.exl, hstatus, ← hexl, Core.exl]
  rw [takeExc_of_exl_false hexl'] at hruns
  obtain ⟨_, _, _, hx⟩ := (d.getCore c).except_eq cause epc eval
  refine ⟨_, hruns, honly.trans (onlyCore_updCore ..), fun r => ?_, ?_⟩
  · rw [Dev.getCore_updCore, hx, if_neg (by simp)]
    simp only [Core.reg, hregs]
  · simp only [Dev.getCore_updCore, hx]
    simp [hstatus, hevbase, hsram, hhandles, hmailbox]

/-- The instruction raises an exception. -/
theorem Ends.traps {pc : BitVec 32} (h : Ends i c s e d1) (he : e.how = .exc cause eval) (hexl : (d1.getCore c).exl = false)
    (hpc : (d1.getCore c).pc = pc) : Traps i c cause (pc.setWidth 64) eval s d1 := by
  obtain ⟨w, d', hruns, honly, hcore⟩ := h
  rw [finish_exc he, hcore, Core.retire_pc, hpc] at hruns
  exact traps_of_takeExc hruns honly (by rw [hcore, Core.trapView_retire]) hexl

end

end Sys2Proof.Machine

/-! SUPPORT. Memory operands of a Glonik instruction: what the checks of a load, a store and a device operand answer, and the bytes that a write
leaves (10 R276, R280, R283, R286, R290). -/

namespace Sys2Proof.Machine

/-! ### Bytes of a memory -/

@[simp] theorem length_le (n v : Nat) : (le n v).length = n := by
  induction n generalizing v with
  | zero => rfl
  | succ n ih => simp [le, ih]

@[simp] theorem length_getBytes (t : Tab Byte) (i n : Nat) : (getBytes t i n).length = n := by
  induction n generalizing i with
  | zero => rfl
  | succ n ih => simp [getBytes, ih]

theorem getElem_getBytes (t : Tab Byte) (i n j : Nat) (h : j < (getBytes t i n).length) : (getBytes t i n)[j] = Tab.get 0 t (i + j) := by
  induction n generalizing i j with
  | zero => simp at h
  | succ n ih =>
    cases j with
    | zero => rfl
    | succ j => simp [getBytes, ih, Nat.add_assoc, Nat.add_comm 1]

/-- A written string reads back. -/
theorem getBytes_putBytes (b : Bytes) (i : Nat) (t : Tab Byte) : getBytes (putBytes b i t) i b.length = b := by
  refine List.ext_getElem (length_getBytes ..) fun j hj hb => ?_
  rw [getElem_getBytes, get_putBytes, if_pos ⟨Nat.le_add_right i j, Nat.add_lt_add_left hb i⟩, Nat.add_sub_cancel_left]
  simp [hb]

theorem ofLe_le (n v : Nat) : ofLe (le n v) = v % 256 ^ n := by
  induction n generalizing v with
  | zero => simp [le, ofLe, Nat.mod_one]
  | succ n ih => rw [le, ofLe, ih, BitVec.toNat_ofNat, Nat.pow_succ' (n := n), Nat.mod_mul]

/-- A 64-bit word that was stored reads back. -/
theorem zbytes_le (v : DWord) : zbytes (le 8 v.toNat) = v := by
  apply BitVec.eq_of_toNat_eq
  have := v.isLt
  simp only [zbytes, ofLe_le, BitVec.toNat_ofNat]
  omega

theorem getD_le {n j : Nat} (v : Nat) (h : j < n) : (le n v).getD j 0 = BitVec.ofNat 8 (v / 256 ^ j) := by
  induction n generalizing v j with
  | zero => omega
  | succ n ih =>
    cases j with
    | zero => simp [le]
    | succ j => rw [le, List.getD_cons_succ, ih _ (Nat.lt_of_succ_lt_succ h), Nat.div_div_eq_div_mul, Nat.pow_succ']

/-- Byte `j` of a stored value. -/
theorem getD_le_toNat {n j : Nat} (v : DWord) (h : j < n) : (le n v.toNat).getD j 0 = v.extractLsb' (8 * j) 8 := by
  rw [getD_le _ h, BitVec.extractLsb', Nat.shiftRight_eq_div_pow, Nat.pow_mul]

/-- A signed value is its two's complement, sign-extended (10 Table 10-3). -/
theorem ofInt_signed {n : Nat} (hn : 0 < n) (v : Nat) : BitVec.ofInt 64 (signed n v) = (BitVec.ofNat n v).signExtend 64 := by
  have hpow : 2 ^ n = 2 * 2 ^ (n - 1) := by rw [← Nat.pow_succ', Nat.succ_eq_add_one, Nat.sub_add_cancel hn]
  have hint : signed n v = (BitVec.ofNat n v).toInt := by
    rw [BitVec.toInt_eq_toNat_cond, BitVec.toNat_ofNat, signed]
    have : v % 2 ^ n < 2 ^ (n - 1) ↔ 2 * (v % 2 ^ n) < 2 ^ n := by omega
    simp only [this]
    push_cast
    rfl
  rw [hint]
  rfl

theorem sbytes_eq {n : Nat} {b : Bytes} (hn : 0 < n) (hb : 8 * b.length = n) : sbytes b = (BitVec.ofNat n (ofLe b)).signExtend 64 := by
  rw [sbytes, hb, ofInt_signed hn]

/-! ### Checks (10 R280, R286, R290) -/

theorem MayAccess.mono {k : Core} {a n : Nat} {rights rights' : List Nat} (h : MayAccess k a n rights) (hsub : rights' ⊆ rights) :
    MayAccess k a n rights' := by
  obtain h | ⟨i, hi, hbase, hlim, hr⟩ := h
  · exact .inl h
  · exact .inr ⟨i, hi, hbase, hlim, fun r hmem => hr r (hsub hmem)⟩

section
variable {c a n align right : Nat} {b : Bytes} {d : Dev}

theorem denied_eq_false_iff : denied c a n right d = false ↔ MayAccess (d.getCore c) a n [right] := by
  simp only [mayAccess_singleton_iff, denied, Bool.and_eq_false_iff, Bool.not_eq_false']

theorem denied_eq_true_iff : denied c a n right d = true ↔ ¬MayAccess (d.getCore c) a n [right] := by
  rw [← denied_eq_false_iff, Bool.not_eq_false]

theorem rangeOf_sram (h : a + n ≤ 0x40000) : rangeOf a n d = .sram := by simp [rangeOf, h]

theorem rangeOf_shared (hl : 0x10000000 ≤ a) (hu : a + n ≤ 0x10800000) : rangeOf a n d = .shared := by
  have : ¬a + n ≤ 0x40000 := by omega
  simp [rangeOf, this, hl, hu]

theorem rangeOf_ddr (hl : ddrBase ≤ a) (hu : a + n ≤ ddrBase + ddrInstalled d) : rangeOf a n d = .ddr := by
  have hbase : 0x800000000 ≤ a := hl
  have h1 : ¬a + n ≤ 0x40000 := by omega
  have h2 : ¬a + n ≤ 0x10800000 := by omega
  have h3 : ¬a + n ≤ 0x41000000 := by omega
  simp [rangeOf, h1, h2, h3, hl, hu]

/-- Outside local SRAM, shared memory and DDR5 stands the register window, or nothing. -/
theorem rangeOf_elsewhere (h1 : 0x40000 < a + n) (h2 : a < 0x10000000 ∨ 0x10800000 < a + n)
    (h3 : a < ddrBase ∨ ddrBase + ddrInstalled d < a + n) : rangeOf a n d = .window ∨ rangeOf a n d = .none := by
  have n1 : ¬a + n ≤ 0x40000 := by omega
  have n2 : ¬(0x10000000 ≤ a ∧ a + n ≤ 0x10800000) := by omega
  have n3 : ¬(ddrBase ≤ a ∧ a + n ≤ ddrBase + ddrInstalled d) := by omega
  by_cases hw : 0x40000000 ≤ a ∧ a + n ≤ 0x41000000
  · exact .inl (by simp [rangeOf, n1, n2, hw])
  · exact .inr (by simp [rangeOf, n1, n2, n3, hw])

theorem coreLoad_misaligned (h : a % n ≠ 0) : coreLoad c a n d = ((some cMISALIGN, []), d) := by simp [coreLoad, h]

theorem coreStore_misaligned (h : a % b.length ≠ 0) : coreStore c a b d = (.fails cMISALIGN, d) := by simp [coreStore, h]

section
variable (ha : a % n = 0) (hm : MayAccess (d.getCore c) a n [0])
include ha hm

theorem coreLoad_sram (hs : a + n ≤ 0x40000) (hb : badIn 6 c a n d = false) :
    coreLoad c a n d = ((none, getBytes (d.getCore c).sram a n), d) := by
  simp [coreLoad, ha, denied_eq_false_iff.mpr hm, rangeOf_sram hs, hb]

theorem coreLoad_sram_bad (hs : a + n ≤ 0x40000) (hb : badIn 6 c a n d = true) : coreLoad c a n d = ((some cECC, []), d) := by
  simp [coreLoad, ha, denied_eq_false_iff.mpr hm, rangeOf_sram hs, hb]

section
variable (hl : 0x10000000 ≤ a) (hu : a + n ≤ 0x10800000)
include hl hu

theorem coreLoad_shared (hb : badIn 7 0 (offFrom 0x10000000 a) n d = false) :
    coreLoad c a n d = ((none, getBytes d.mem.shared (offFrom 0x10000000 a) n), d) := by
  simp [coreLoad, ha, denied_eq_false_iff.mpr hm, rangeOf_shared hl hu, hb]

theorem coreLoad_shared_bad (hb : badIn 7 0 (offFrom 0x10000000 a) n d = true) : coreLoad c a n d = ((some cECC, []), d) := by
  simp [coreLoad, ha, denied_eq_false_iff.mpr hm, rangeOf_shared hl hu, hb]

end
end

theorem coreStore_sram (ha : a % b.length = 0) (hm : MayAccess (d.getCore c) a b.length [1]) (hs : a + b.length ≤ 0x40000) :
    coreStore c a b d = (.ok, sramWrite c a b d) := by
  simp [coreStore, ha, denied_eq_false_iff.mpr hm, rangeOf_sram hs]

theorem coreStore_shared (ha : a % b.length = 0) (hm : MayAccess (d.getCore c) a b.length [1]) (hl : 0x10000000 ≤ a) (hu : a + b.length ≤ 0x10800000) :
    coreStore c a b d = (.ok, sharedWrite (offFrom 0x10000000 a) b d) := by
  simp [coreStore, ha, denied_eq_false_iff.mpr hm, rangeOf_shared hl hu]

/-! ### What a write into local SRAM or shared memory leaves (10 R290) -/

@[simp] theorem badClear_core (region unit addr n : Nat) (d : Dev) : (badClear region unit addr n d).core = d.core := by
  unfold badClear
  split <;> rfl

@[simp] theorem badClear_mem (region unit addr n : Nat) (d : Dev) : (badClear region unit addr n d).mem = d.mem := by
  unfold badClear
  split <;> rfl

@[simp] theorem badClear_getCore (region unit addr n x : Nat) (d : Dev) : (badClear region unit addr n d).getCore x = d.getCore x := by
  rw [Dev.getCore, badClear_core, Dev.getCore]

@[simp] theorem sramWrite_getCore (c a : Nat) (b : Bytes) (d : Dev) :
    (sramWrite c a b d).getCore c = { d.getCore c with sram := putBytes b a (d.getCore c).sram } := by
  rw [sramWrite, Dev.getCore_updCore, badClear_getCore]

theorem sramWrite_getCore_ne {x : Nat} (h : x ≠ c) : (sramWrite c a b d).getCore x = d.getCore x := by
  rw [sramWrite, Dev.getCore_updCore_ne _ _ _ _ h, badClear_getCore]

@[simp] theorem sramWrite_mem (c a : Nat) (b : Bytes) (d : Dev) : (sramWrite c a b d).mem = d.mem := by
  rw [sramWrite, Dev.updCore_mem, badClear_mem]

@[simp] theorem sharedWrite_getCore (off x : Nat) (b : Bytes) (d : Dev) : (sharedWrite off b d).getCore x = d.getCore x :=
  badClear_getCore ..

@[simp] theorem sharedWrite_mem (off : Nat) (b : Bytes) (d : Dev) :
    (sharedWrite off b d).mem = { d.mem with shared := putBytes b off d.mem.shared } := by
  simp [sharedWrite]

end

/-! ### Device instructions (10 R285, R291) -/

section
variable {c a n align right dop rd ra rb imm cap : Nat} {body f : Dev → Ending × Dev} {d : Dev}

theorem devOp_of_granted (h : Granted (d.getCore c) cap) :
    devOp dop (some cap) c rd ra rb imm body d = coreRun c (wordD dop rd ra rb imm) body d := by
  have h' : ((d.getCore c).super || (d.getCore c).taskCap.getLsbD cap) = true := by simpa [Granted] using h
  simp [devOp, coreRun, h']

theorem devOp_of_not_granted (h : ¬Granted (d.getCore c) cap) :
    devOp dop (some cap) c rd ra rb imm body d = coreRun c (wordD dop rd ra rb imm)
      (fun d => ({ how := .exc cPRIV (BitVec.ofNat 64 (wordD dop rd ra rb imm)), src := 6 }, d)) d := by
  have h' : ((d.getCore c).super || (d.getCore c).taskCap.getLsbD cap) = false := by simpa [Granted] using h
  simp [devOp, coreRun, h']

theorem devOp_of_super (h : (d.getCore c).super = true) :
    devOp dop none c rd ra rb imm body d = coreRun c (wordD dop rd ra rb imm) body d := by simp [devOp, coreRun, h]

theorem devOp_of_task (h : (d.getCore c).super = false) :
    devOp dop none c rd ra rb imm body d = coreRun c (wordD dop rd ra rb imm)
      (fun d => ({ how := .exc cPRIV (BitVec.ofNat 64 (wordD dop rd ra rb imm)), src := 6 }, d)) d := by simp [devOp, coreRun, h]

theorem opPre_of_may (ha : a % align = 0) (hm : MayAccess (d.getCore c) a n [right]) : opPre c a n align right d = none := by
  simp [opPre, ha, denied_eq_false_iff.mpr hm]

theorem opPre_of_barred (ha : a % align = 0) (hm : ¬MayAccess (d.getCore c) a n [right]) : opPre c a n align right d = some cACCESS := by
  simp [opPre, ha, denied_eq_true_iff.mpr hm]

theorem withOp_of_barred (ha : a % align = 0) (hm : ¬MayAccess (d.getCore c) a n [right]) :
    withOp c a n align right f d = devExc a cACCESS (BitVec.ofNat 64 a) d := by simp [withOp, opPre_of_barred ha hm]

theorem withOp_of_may (ha : a % align = 0) (hm : MayAccess (d.getCore c) a n [right]) (hs : a + n ≤ 0x40000)
    (hb : right = 0 → badIn 6 c a n d = false) : withOp c a n align right f d = f d := by
  have hpost : opPost c a n (right == 0) d = none := by
    simpa [opPost, Nat.not_lt.mpr hs] using hb
  simp [withOp, opPre_of_may ha hm, hpost]

end

end Sys2Proof.Machine

/-! SUPPORT. The results of Glonik arithmetic as 10 Table 10-4 states them, and the instructions that write one register (10 R275, R277 to R279). -/

namespace Sys2Proof.Machine

/-! ### Shifts, comparisons, quotients -/

theorem toNat_and_63 (b : DWord) : (b &&& 63).toNat = b.toNat % 64 := by
  rw [BitVec.toNat_and]
  exact Nat.and_two_pow_sub_one_eq_mod b.toNat 6

theorem sll64_eq (a b : DWord) : sll64 a b = a <<< (b &&& 63) := by rw [sll64, BitVec.shiftLeft_eq', toNat_and_63]

theorem srl64_eq (a b : DWord) : srl64 a b = a >>> (b &&& 63) := by rw [srl64, BitVec.ushiftRight_eq', toNat_and_63]

theorem flag_slt (a b : DWord) : flag (a.slt b) = if a.toInt < b.toInt then 1 else 0 := by simp [flag, BitVec.slt]

theorem flag_ult (a b : DWord) : flag (a.ult b) = if a.toNat < b.toNat then 1 else 0 := by simp [flag, BitVec.ult]

section
variable {a b : DWord} (hb : b ≠ 0)
include hb

theorem div64_of_ne_zero : div64 a b = BitVec.ofInt 64 (a.toInt.tdiv b.toInt) := if_neg hb
theorem rem64_of_ne_zero : rem64 a b = BitVec.ofInt 64 (a.toInt.tmod b.toInt) := if_neg hb

theorem divu64_of_ne_zero : divu64 a b = a / b := by
  rw [divu64, if_neg hb, ← BitVec.toNat_udiv, BitVec.ofNat_toNat, BitVec.setWidth_eq]

theorem remu64_of_ne_zero : remu64 a b = a % b := by
  rw [remu64, if_neg hb, ← BitVec.toNat_umod, BitVec.ofNat_toNat, BitVec.setWidth_eq]

end

/-- The quotient of -2^63 by -1 overflows to -2^63, and leaves no remainder (10 R279). -/
theorem div64_overflow : div64 (BitVec.intMin 64) (BitVec.allOnes 64) = BitVec.intMin 64 := by decide
theorem rem64_overflow : rem64 (BitVec.intMin 64) (BitVec.allOnes 64) = 0 := by decide

theorem min64_eq (a b : DWord) : min64 a b = if b.toInt < a.toInt then b else a := by simp only [min64, ← not_lt, ite_not]
theorem max64_eq (a b : DWord) : max64 a b = if a.toInt < b.toInt then b else a := by
  obtain h | h | h := lt_trichotomy a.toInt b.toInt
  · simp [max64, h, h.le]
  · simp [max64, BitVec.eq_of_toInt_eq h]
  · simp [max64, not_le.mpr h, not_lt.mpr h.le]
theorem minu64_eq (a b : DWord) : minu64 a b = if b.toNat < a.toNat then b else a := by simp only [minu64, ← not_lt, ite_not]
theorem maxu64_eq (a b : DWord) : maxu64 a b = if a.toNat < b.toNat then b else a := by
  obtain h | h | h := lt_trichotomy a.toNat b.toNat
  · simp [maxu64, h, h.le]
  · simp [maxu64, BitVec.eq_of_toNat_eq h]
  · simp [maxu64, not_le.mpr h, not_lt.mpr h.le]

/-! ### Counts of bits -/

theorem clz64_eq {a : DWord} {n : Nat} (hn : n < 64) (hl : 2 ^ (63 - n) ≤ a.toNat) (hu : a.toNat < 2 ^ (64 - n)) : clz64 a = BitVec.ofNat 64 n := by
  have hne : a.toNat ≠ 0 := (Nat.two_pow_pos _ |>.trans_le hl).ne'
  have hexp : 64 - n = 63 - n + 1 := by omega
  have hlog : a.toNat.log2 = 63 - n := (Nat.log2_eq_iff hne).mpr ⟨hl, hexp ▸ hu⟩
  have hsub : 63 - (63 - n) = n := by omega
  rw [clz64, if_neg hne, hlog, hsub]

theorem popN_eq (n v : Nat) : popN n v = ((List.range n).filter (fun i => v.testBit i)).length := by
  induction n generalizing v with
  | zero => rfl
  | succ n ih =>
    have hstep : (fun i => v.testBit i) ∘ Nat.succ = fun i => (v / 2).testBit i := funext fun i => Nat.testBit_succ ..
    rw [popN, ih, List.range_succ_eq_map, List.filter_cons, List.filter_map, hstep, Nat.testBit_zero]
    obtain h | h := Nat.mod_two_eq_zero_or_one v <;> simp [h, Nat.add_comm]

theorem popc64_eq (a : DWord) : popc64 a = BitVec.ofNat 64 ((List.range 64).filter (fun i => a.getLsbD i)).length := by
  rw [popc64, popN_eq]
  rfl

/-! ### Bytes and halfwords -/

theorem ofBe_eq_ofLe_reverse (b : Bytes) : ofBe b = ofLe b.reverse := by
  induction b using List.reverseRecOn with
  | nil => rfl
  | append_singleton b x ih =>
    have hlast : ofBe (b ++ [x]) = ofBe b * 256 + x.toNat := List.foldl_append ..
    rw [hlast, ih, List.reverse_append, List.reverse_singleton, List.singleton_append, ofLe]
    ring

/-- Byte `i` of a number spelt least significant byte first. -/
theorem ofLe_div_mod (b : Bytes) (i : Nat) : ofLe b / 256 ^ i % 256 = (b.getD i 0).toNat := by
  induction b generalizing i with
  | nil => simp [ofLe]
  | cons x b ih =>
    have hx : x.toNat < 256 := x.isLt
    cases i with
    | zero =>
      simp only [ofLe, pow_zero, Nat.div_one, List.getD_cons_zero]
      omega
    | succ i =>
      have hdiv : ofLe (x :: b) / 256 = ofLe b := by
        rw [ofLe]
        omega
      rw [Nat.pow_succ', ← Nat.div_div_eq_div_mul, hdiv, ih, List.getD_cons_succ]

theorem ofLe_lt (b : Bytes) : ofLe b < 256 ^ b.length := by
  induction b with
  | nil => simp [ofLe]
  | cons x b ih =>
    have hx : x.toNat < 256 := x.isLt
    rw [ofLe, List.length_cons, Nat.pow_succ']
    omega

/-- The bytes of BSWAP's result are the operand's in reverse order. -/
theorem extractLsb'_bswap64 (a : DWord) {i : Nat} (hi : i < 8) : (bswap64 a).extractLsb' (8 * i) 8 = a.extractLsb' (8 * (7 - i)) 8 := by
  have hlt : ofLe (le 8 a.toNat).reverse < 2 ^ 64 := by simpa using ofLe_lt (le 8 a.toNat).reverse
  have hrev : (le 8 a.toNat).reverse.getD i 0 = (le 8 a.toNat).getD (7 - i) 0 := by
    simp [List.getD_eq_getElem?_getD, hi, (by omega : 7 - i < 8)]
  rw [← getD_le_toNat a (by omega : 7 - i < 8), ← hrev]
  apply BitVec.eq_of_toNat_eq
  rw [← ofLe_div_mod, bswap64, ofBe_eq_ofLe_reverse, BitVec.extractLsb'_toNat, BitVec.toNat_ofNat, Nat.mod_eq_of_lt hlt,
    Nat.shiftRight_eq_div_pow, Nat.pow_mul]

/-- A replaced field keeps what stands above and below it. -/
theorem setFld_eq (v lo x : Nat) {n : Nat} (hn : 0 < n) :
    setFld v lo n x = 2 ^ lo * (2 ^ n * (v / 2 ^ lo / 2 ^ n) + x % 2 ^ n) + v % 2 ^ lo := by
  have hwidth : lo + n - 1 + 1 - lo = n := by omega
  have hv : 2 ^ lo * (v / 2 ^ lo) + v % 2 ^ lo = v := Nat.div_add_mod ..
  have hq : 2 ^ lo * (2 ^ n * (v / 2 ^ lo / 2 ^ n)) + 2 ^ lo * (v / 2 ^ lo % 2 ^ n) = 2 ^ lo * (v / 2 ^ lo) := by
    rw [← Nat.mul_add, Nat.div_add_mod]
  rw [setFld, fld, hwidth, Nat.mul_add, Nat.mul_comm _ (2 ^ lo), Nat.mul_comm _ (2 ^ lo)]
  omega

theorem testBit_setFld (v lo x i : Nat) {n : Nat} (hn : 0 < n) :
    (setFld v lo n x).testBit i = if lo ≤ i ∧ i < lo + n then x.testBit (i - lo) else v.testBit i := by
  have hx : x % 2 ^ n < 2 ^ n := Nat.mod_lt _ (Nat.two_pow_pos n)
  have hlo : v % 2 ^ lo < 2 ^ lo := Nat.mod_lt _ (Nat.two_pow_pos lo)
  rw [setFld_eq v lo x hn, Nat.testBit_two_pow_mul_add _ hlo, Nat.testBit_two_pow_mul_add _ hx]
  obtain h | h := Nat.lt_or_ge i lo
  · simp [h, Nat.not_le.mpr h]
  · obtain ⟨j, rfl⟩ := Nat.exists_eq_add_of_le h
    obtain hj | hj := Nat.lt_or_ge j n
    · simp [hj]
    · simp [Nat.not_lt.mpr hj, Nat.testBit_div_two_pow, Nat.sub_add_cancel hj, Nat.add_comm]

/-- HINS replaces the halfword at bit `lo` (10 Table 10-3). -/
theorem hins64_eq (a : DWord) {lo imm : Nat} (himm : imm < 2 ^ 16) :
    hins64 a lo imm = (a &&& ~~~ ((0xFFFF : DWord) <<< lo)) ||| (BitVec.ofNat 64 imm <<< lo) := by
  have hmask (j : Nat) : (0xFFFF : DWord).getLsbD j = decide (j < 16) := Nat.testBit_two_pow_sub_one 16 j
  have hhigh (j : Nat) (hj : 16 ≤ j) : imm.testBit j = false :=
    Nat.testBit_lt_two_pow (himm.trans_le (Nat.pow_le_pow_right (by decide) hj))
  refine BitVec.eq_of_getLsbD_eq fun i hi => ?_
  have hbit : a.getLsbD i = a.toNat.testBit i := rfl
  have hsub : i - lo < 64 := by omega
  simp only [hins64, BitVec.getLsbD_ofNat, testBit_setFld _ _ _ _ (by decide : 0 < 16), BitVec.getLsbD_or, BitVec.getLsbD_and, BitVec.getLsbD_not,
    BitVec.getLsbD_shiftLeft, hmask, hi, hbit, hsub, decide_true, Bool.true_and]
  obtain h | h := Nat.lt_or_ge i lo
  · simp [h, Nat.not_le.mpr h]
  · obtain ⟨j, rfl⟩ := Nat.exists_eq_add_of_le h
    obtain hj | hj := Nat.lt_or_ge j 16
    · simp [hj]
    · simp [hhigh j hj, Nat.not_lt.mpr hj]

theorem zimm_eq {imm : Nat} (h : imm < 2 ^ 16) : zimm imm = BitVec.ofNat 64 imm := by
  apply BitVec.eq_of_toNat_eq
  simp only [zimm, BitVec.toNat_setWidth, BitVec.toNat_ofNat]
  omega

/-! ### Instructions that write one register -/

/-- Such an instruction takes its value from the core's own state and completes. -/
theorem completes_regOp {i : Instr} {c rd w : Nat} {s : State} {f : Core → DWord} {v : DWord} (hr : Ready c s) (hx : exec i s = done s (regOp c w rd f))
    (hv : f (s.dev.getCore c) = v) : Completes i c rd v ((s.dev.getCore c).pc + 4) s s.dev := by
  obtain ⟨-, -, hrun, -⟩ := id hr
  have hset : s.dev.updCore c (fun k => k.setReg rd (f k)) = s.dev.updCore c (fun k => k.setReg rd v) := updCore_congr (by rw [hv])
  refine (ends_of (e := {}) (d := s.dev.updCore c (fun k => k.setReg rd v)) hr hx rfl (by rw [← hset]) ?_).completes rfl (writesReg_updCore ..) rfl
  rw [Dev.getCore_updCore, (Core.keeps_setReg ..).run, hrun]

/-- Settles O23: each row is an operation on registers, whose result is the one of Table 10-4. -/
theorem registerResults : Obligations.RegisterResults := by
  unfold Obligations.RegisterResults
  refine ⟨fun s c rd ra rb hr => ?alu, fun s c rd ra imm hr himm => ?imm⟩
  case alu =>
    intro k a b gives
    refine ⟨completes_regOp hr rfl rfl, completes_regOp hr rfl rfl, completes_regOp hr rfl rfl, completes_regOp hr rfl rfl,
      completes_regOp hr rfl rfl, completes_regOp hr rfl (sll64_eq a b), completes_regOp hr rfl (srl64_eq a b), completes_regOp hr rfl rfl,
      completes_regOp hr rfl (flag_slt a b), completes_regOp hr rfl (flag_ult a b), completes_regOp hr rfl rfl, completes_regOp hr rfl rfl,
      completes_regOp hr rfl rfl, fun hb => ?quotients, fun hb => ?byZero, fun ha hb => ?overflow,
      completes_regOp hr rfl (min64_eq a b), completes_regOp hr rfl (max64_eq a b), completes_regOp hr rfl (minu64_eq a b),
      completes_regOp hr rfl (maxu64_eq a b), fun n hn hl hu => completes_regOp hr rfl (clz64_eq hn hl hu), fun ha => ?clzZero,
      completes_regOp hr rfl (popc64_eq a), bswap64 a, completes_regOp hr rfl rfl, fun i hi => extractLsb'_bswap64 a hi⟩
    case quotients =>
      exact ⟨completes_regOp hr rfl (div64_of_ne_zero hb), completes_regOp hr rfl (divu64_of_ne_zero hb),
        completes_regOp hr rfl (rem64_of_ne_zero hb), completes_regOp hr rfl (remu64_of_ne_zero hb)⟩
    case byZero =>
      exact ⟨completes_regOp hr rfl (if_pos hb), completes_regOp hr rfl (if_pos hb), completes_regOp hr rfl (if_pos hb),
        completes_regOp hr rfl (if_pos hb)⟩
    case overflow =>
      have hdiv : div64 a b = BitVec.intMin 64 := by rw [ha, hb, div64_overflow]
      have hrem : rem64 a b = 0 := by rw [ha, hb, rem64_overflow]
      exact ⟨completes_regOp hr rfl hdiv, completes_regOp hr rfl hrem⟩
    case clzZero =>
      have hclz : clz64 a = 64 := by
        rw [ha]
        rfl
      exact completes_regOp hr rfl hclz
  case imm =>
    intro k a sx zx gives
    have hzx : zimm imm = zx := zimm_eq himm
    refine ⟨completes_regOp hr rfl rfl, completes_regOp hr rfl (congrArg (a &&& ·) hzx), completes_regOp hr rfl (congrArg (a ||| ·) hzx),
      completes_regOp hr rfl (congrArg (a ^^^ ·) hzx), completes_regOp hr rfl (flag_slt a sx), completes_regOp hr rfl (flag_ult a sx),
      completes_regOp hr rfl rfl, fun h64 => ?shifts, completes_regOp hr rfl (hins64_eq a himm), completes_regOp hr rfl (hins64_eq a himm),
      completes_regOp hr rfl (hins64_eq a himm)⟩
    have hsh : imm % 64 = imm := Nat.mod_eq_of_lt h64
    exact ⟨completes_regOp hr rfl (congrArg (a <<< ·) hsh), completes_regOp hr rfl (congrArg (a >>> ·) hsh),
      completes_regOp hr rfl (congrArg (a.sshiftRight ·) hsh)⟩

/-- Settles O53: the corners of R279 are values of the four operations. -/
theorem divisionCorners : Obligations.DivisionCorners := by
  unfold Obligations.DivisionCorners
  intro s c rd ra rb hr k gives
  refine ⟨fun hb => ?byZero, fun ha hb => ?overflow⟩
  case byZero =>
    exact ⟨completes_regOp hr rfl (if_pos hb), completes_regOp hr rfl (if_pos hb), completes_regOp hr rfl (if_pos hb),
      completes_regOp hr rfl (if_pos hb)⟩
  case overflow =>
    have hdiv : div64 (k.reg ra) (k.reg rb) = BitVec.ofInt 64 (-(2 ^ 63)) := by
      rw [ha, hb]
      exact div64_overflow
    have hrem : rem64 (k.reg ra) (k.reg rb) = 0 := by
      rw [ha, hb]
      exact rem64_overflow
    exact ⟨completes_regOp hr rfl hdiv, completes_regOp hr rfl hrem⟩

end Sys2Proof.Machine

/-! SUPPORT. Loads, stores and atomics of the Glonik cores, an access that its address permits and each one that traps (10 R276, R280, R283, R286,
R290, Table 10-3). -/

namespace Sys2Proof.Machine

section
variable {i : Instr} {c cause : Nat} {s : State}

/-! ### Loads -/

section
variable {op n rd ra imm : Nat} {f : Bytes → DWord} (hr : Ready c s) (hx : exec i s = done s (loadOp op n f c rd ra imm)) {b : Bytes} {d1 : Dev}
include hr hx

theorem completes_loadOp (hl : coreLoad c (effAddr (s.dev.getCore c) ra imm) n s.dev = ((none, b), d1)) (hrun : (d1.getCore c).run = .running) :
    Completes i c rd (f b) ((d1.getCore c).pc + 4) s d1 := by
  refine (ends_of (e := { addr := effAddr (s.dev.getCore c) ra imm, src := srcOf (effAddr (s.dev.getCore c) ra imm) n s.dev }) hr hx rfl
    (by simp only [hl]) ?_).completes rfl (writesReg_updCore ..) rfl
  rw [Dev.getCore_updCore, (Core.keeps_setReg ..).run, hrun]

theorem traps_loadOp (hl : coreLoad c (effAddr (s.dev.getCore c) ra imm) n s.dev = ((some cause, b), s.dev))
    (hexl : (s.dev.getCore c).exl = false) :
    Traps i c cause ((s.dev.getCore c).pc.setWidth 64) (BitVec.ofNat 64 (effAddr (s.dev.getCore c) ra imm)) s s.dev :=
  (ends_of (e := { how := .exc cause (BitVec.ofNat 64 (effAddr (s.dev.getCore c) ra imm)), addr := effAddr (s.dev.getCore c) ra imm,
                   src := srcOf (effAddr (s.dev.getCore c) ra imm) n s.dev }) hr hx rfl (by simp only [hl]) hr.2.2.1).traps rfl hexl rfl

end

/-! ### Stores -/

section
variable {op n rs ra imm : Nat} (hr : Ready c s) (hx : exec i s = done s (storeOp op n c rs ra imm)) {d1 : Dev}
include hr hx

theorem completes_storeOp
    (hs : coreStore c (effAddr (s.dev.getCore c) ra imm) (le n ((s.dev.getCore c).reg rs).toNat) s.dev = (.ok, d1))
    (hrun : (d1.getCore c).run = .running) : Completes i c 0 0 ((d1.getCore c).pc + 4) s d1 :=
  (ends_of (e := { addr := effAddr (s.dev.getCore c) ra imm, src := srcOf (effAddr (s.dev.getCore c) ra imm) n s.dev }) hr hx rfl
    (by simp only [hs]) hrun).completes rfl (writesReg_g0 ..) rfl

theorem traps_storeOp
    (hs : coreStore c (effAddr (s.dev.getCore c) ra imm) (le n ((s.dev.getCore c).reg rs).toNat) s.dev = (.fails cause, s.dev))
    (hexl : (s.dev.getCore c).exl = false) :
    Traps i c cause ((s.dev.getCore c).pc.setWidth 64) (BitVec.ofNat 64 (effAddr (s.dev.getCore c) ra imm)) s s.dev :=
  (ends_of (e := { how := .exc cause (BitVec.ofNat 64 (effAddr (s.dev.getCore c) ra imm)), addr := effAddr (s.dev.getCore c) ra imm,
                   src := srcOf (effAddr (s.dev.getCore c) ra imm) n s.dev }) hr hx rfl (by simp only [hs]) hr.2.2.1).traps rfl hexl rfl

end

/-! ### What an instruction that has written local SRAM or shared memory leaves -/

section
variable {rd a : Nat} {v : DWord} {pc : BitVec 32} {b : Bytes}

theorem Completes.sramWritten (h : Completes i c rd v pc s (sramWrite c a b s.dev)) :
    ∃ d : Dev, Runs i s d ∧ (d.getCore c).pc = pc ∧ RegsAfter c rd v s.dev d ∧ (∀ x : Nat, x ≠ c → d.getCore x = s.dev.getCore x) ∧
      d.mem = s.dev.mem ∧ (d.getCore c).sram = putBytes b a (s.dev.getCore c).sram := by
  obtain ⟨d, hruns, ⟨hdev, hother⟩, hkeeps, hregs, hpc⟩ := h
  refine ⟨d, hruns, hpc, fun r => ?_, fun x hx => (hother x hx).trans (sramWrite_getCore_ne hx), ?_, ?_⟩
  · rw [hregs r, sramWrite_getCore]
    rfl
  · rw [hdev]
    exact sramWrite_mem ..
  · rw [hkeeps.sram, sramWrite_getCore]

theorem Completes.sharedWritten (h : Completes i c rd v pc s (sharedWrite a b s.dev)) :
    ∃ d : Dev, Runs i s d ∧ (d.getCore c).pc = pc ∧ RegsAfter c rd v s.dev d ∧ (∀ x : Nat, x ≠ c → d.getCore x = s.dev.getCore x) ∧
      (d.getCore c).sram = (s.dev.getCore c).sram ∧ d.mem = { s.dev.mem with shared := putBytes b a s.dev.mem.shared } := by
  obtain ⟨d, hruns, ⟨hdev, hother⟩, hkeeps, hregs, hpc⟩ := h
  refine ⟨d, hruns, hpc, fun r => ?_, fun x hx => (hother x hx).trans (sharedWrite_getCore ..), ?_, ?_⟩
  · rw [hregs r, sharedWrite_getCore]
  · rw [hkeeps.sram, sharedWrite_getCore]
  · rw [hdev]
    exact sharedWrite_mem ..

end

/-! ### Atomics -/

section
variable {a : Nat} {d : Dev}

theorem atomLoad_misaligned (h : a % 8 ≠ 0) : atomLoad c a d = ((some cMISALIGN, []), d) := by simp [atomLoad, h]

/-- Task code needs one region that grants both rights (10 R286). -/
theorem atomRegion_iff (k : Core) : MayAccess k a 8 [0, 1] ↔ k.super = true ∨ (List.range 8).any (fun i =>
    let lim := (Tab.get 0 k.trLim i).toNat
    decide ((Tab.get 0 k.trBase i).toNat / 4096 * 4096 ≤ a) && decide (a + 8 ≤ lim / 4096 * 4096) && bitAt lim 0 && bitAt lim 1) = true := by
  simp [MayAccess, bitAt_toNat, and_assoc]

theorem atomLoad_barred (ha : a % 8 = 0) (hm : ¬MayAccess (d.getCore c) a 8 [0, 1]) : atomLoad c a d = ((some cACCESS, []), d) := by
  rw [atomRegion_iff, not_or, Bool.not_eq_true, Bool.not_eq_true] at hm
  simp only [atomLoad, ha, hm.1, hm.2]
  rfl

section
variable (ha : a % 8 = 0) (hm : MayAccess (d.getCore c) a 8 [0, 1])
include ha hm

theorem atomLoad_memory (hw : rangeOf a 8 d ≠ .window) (hn : rangeOf a 8 d ≠ .none) : atomLoad c a d = coreLoad c a 8 d := by
  rw [atomRegion_iff, ← Bool.or_eq_true, ← Bool.not_eq_false', Bool.not_or] at hm
  simp only [atomLoad, ha, hm]
  cases hrange : rangeOf a 8 d <;> simp_all

theorem atomLoad_elsewhere (h : rangeOf a 8 d = .window ∨ rangeOf a 8 d = .none) : atomLoad c a d = ((some cBUSLOAD, []), d) := by
  rw [atomRegion_iff, ← Bool.or_eq_true, ← Bool.not_eq_false', Bool.not_or] at hm
  simp only [atomLoad, ha, hm]
  obtain h | h := h <;> simp [h]

end
end

section
variable {func rd ra rb : Nat} {f : DWord → DWord → DWord → Option DWord} (hr : Ready c s) (hx : exec i s = done s (atomOp func f c rd ra rb))
  {b : Bytes} {d1 : Dev}
include hr hx

theorem traps_atomOp {pc : BitVec 32} (hl : atomLoad c ((s.dev.getCore c).reg ra).toNat s.dev = ((some cause, b), d1))
    (hrun : (d1.getCore c).run = .running) (hexl : (d1.getCore c).exl = false) (hpc : (d1.getCore c).pc = pc) :
    Traps i c cause (pc.setWidth 64) (BitVec.ofNat 64 ((s.dev.getCore c).reg ra).toNat) s d1 :=
  (ends_of (e := { how := .exc cause (BitVec.ofNat 64 ((s.dev.getCore c).reg ra).toNat), addr := ((s.dev.getCore c).reg ra).toNat,
                   src := srcOf ((s.dev.getCore c).reg ra).toNat 8 s.dev }) hr hx rfl (by simp only [hl]) hrun).traps rfl hexl hpc

variable (hl : atomLoad c ((s.dev.getCore c).reg ra).toNat s.dev = ((none, b), d1))
include hl

/-- The word stays as it is. -/
theorem completes_atomOp_none (hf : f (zbytes b) ((s.dev.getCore c).reg rd) ((s.dev.getCore c).reg rb) = none) (hrun : (d1.getCore c).run = .running) :
    Completes i c rd (zbytes b) ((d1.getCore c).pc + 4) s d1 := by
  refine (ends_of (e := { addr := ((s.dev.getCore c).reg ra).toNat, src := srcOf ((s.dev.getCore c).reg ra).toNat 8 s.dev }) hr hx rfl
    (by simp only [hl, hf]) ?_).completes rfl (writesReg_updCore ..) rfl
  rw [Dev.getCore_updCore, (Core.keeps_setReg ..).run, hrun]

/-- The word takes `v`. -/
theorem completes_atomOp_some {v : DWord} {d2 : Dev} (hf : f (zbytes b) ((s.dev.getCore c).reg rd) ((s.dev.getCore c).reg rb) = some v)
    (hs : coreStore c ((s.dev.getCore c).reg ra).toNat (le 8 v.toNat) d1 = (.ok, d2)) (hrun : (d2.getCore c).run = .running) :
    Completes i c rd (zbytes b) ((d2.getCore c).pc + 4) s d2 := by
  refine (ends_of (e := { addr := ((s.dev.getCore c).reg ra).toNat, src := srcOf ((s.dev.getCore c).reg ra).toNat 8 s.dev }) hr hx rfl
    (by simp only [hl, hf, hs, if_true]) ?_).completes rfl (writesReg_updCore ..) rfl
  rw [Dev.getCore_updCore, (Core.keeps_setReg ..).run, hrun]

end

/-! ### Atomics on local SRAM and shared memory -/

/-- A word that was stored reads back. -/
theorem zbytes_getBytes_putBytes (v : DWord) (a : Nat) (t : Tab Byte) : zbytes (getBytes (putBytes (le 8 v.toNat) a t) a 8) = v := by
  have h := getBytes_putBytes (le 8 v.toNat) a t
  rw [length_le] at h
  rw [h, zbytes_le]

/-- Every other byte reads as before. -/
theorem get_putBytes_le {a x : Nat} (v : Nat) (t : Tab Byte) (hx : x < a ∨ a + 8 ≤ x) : Tab.get 0 (putBytes (le 8 v) a t) x = Tab.get 0 t x := by
  rw [get_putBytes, length_le, if_neg (by omega)]

section
variable {func rd ra rb a : Nat} {f : DWord → DWord → DWord → Option DWord} {r : Option DWord} {o : DWord} (hr : Ready c s)
  (hx : exec i s = done s (atomOp func f c rd ra rb)) (haddr : ((s.dev.getCore c).reg ra).toNat = a)
  (ha : a % 8 = 0) (hm : MayAccess (s.dev.getCore c) a 8 [0, 1]) (hf : f o ((s.dev.getCore c).reg rd) ((s.dev.getCore c).reg rb) = r)
include hr hx haddr ha hm hf

theorem atomOp_sram (ho : zbytes (getBytes (s.dev.getCore c).sram a 8) = o) (hs : a + 8 ≤ 0x40000) (hbad : badIn 6 c a 8 s.dev = false) :
    ∃ d : Dev, Runs i s d ∧ (d.getCore c).pc = (s.dev.getCore c).pc + 4 ∧ RegsAfter c rd o s.dev d ∧
      (∀ x : Nat, x ≠ c → d.getCore x = s.dev.getCore x) ∧ d.mem = s.dev.mem ∧
      (∀ x : Nat, x < a ∨ a + 8 ≤ x → Tab.get 0 (d.getCore c).sram x = Tab.get 0 (s.dev.getCore c).sram x) ∧
      zbytes (getBytes (d.getCore c).sram a 8) = r.getD o := by
  subst haddr ho
  have hrange : rangeOf ((s.dev.getCore c).reg ra).toNat 8 s.dev = .sram := rangeOf_sram hs
  have hload := (atomLoad_memory ha hm (by simp [hrange]) (by simp [hrange])).trans (coreLoad_sram ha (hm.mono (by simp)) hs hbad)
  cases r with
  | none =>
    obtain ⟨d, hruns, ⟨hdev, hother⟩, hkeeps, hregs, hpc⟩ := completes_atomOp_none hr hx hload hf hr.2.2.1
    have hmem : d.mem = s.dev.mem := by rw [hdev]
    refine ⟨d, hruns, hpc, hregs, hother, hmem, fun x _ => ?_, ?_⟩ <;> rw [hkeeps.sram]
    rfl
  | some v =>
    have hstore := coreStore_sram (c := c) (b := le 8 v.toNat) (by simpa using ha) (by simpa using hm.mono (by simp)) (by simpa using hs)
    have hdone := completes_atomOp_some hr hx hload hf hstore (by rw [sramWrite_getCore]; exact hr.2.2.1)
    rw [sramWrite_getCore] at hdone
    obtain ⟨d, hruns, hpc, hregs, hother, hmem, hsram⟩ := hdone.sramWritten
    refine ⟨d, hruns, hpc, hregs, hother, hmem, fun x hx => ?_, ?_⟩ <;> rw [hsram]
    · exact get_putBytes_le _ _ hx
    · exact zbytes_getBytes_putBytes ..

theorem atomOp_shared {p : Nat} (hp : offFrom 0x10000000 a = p) (ho : zbytes (getBytes s.dev.mem.shared p 8) = o) (hl : 0x10000000 ≤ a)
    (hu : a + 8 ≤ 0x10800000) (hbad : badIn 7 0 p 8 s.dev = false) :
    ∃ d : Dev, Runs i s d ∧ (d.getCore c).pc = (s.dev.getCore c).pc + 4 ∧ RegsAfter c rd o s.dev d ∧
      (∀ x : Nat, x ≠ c → d.getCore x = s.dev.getCore x) ∧ (d.getCore c).sram = (s.dev.getCore c).sram ∧
      d.mem = { s.dev.mem with shared := d.mem.shared } ∧
      (∀ x : Nat, x < p ∨ p + 8 ≤ x → Tab.get 0 d.mem.shared x = Tab.get 0 s.dev.mem.shared x) ∧
      zbytes (getBytes d.mem.shared p 8) = r.getD o := by
  subst haddr hp ho
  have hrange : rangeOf ((s.dev.getCore c).reg ra).toNat 8 s.dev = .shared := rangeOf_shared hl hu
  have hload := (atomLoad_memory ha hm (by simp [hrange]) (by simp [hrange])).trans (coreLoad_shared ha (hm.mono (by simp)) hl hu hbad)
  cases r with
  | none =>
    obtain ⟨d, hruns, ⟨hdev, hother⟩, hkeeps, hregs, hpc⟩ := completes_atomOp_none hr hx hload hf hr.2.2.1
    have hmem : d.mem = s.dev.mem := by rw [hdev]
    refine ⟨d, hruns, hpc, hregs, hother, hkeeps.sram, ?_, fun x _ => ?_, ?_⟩ <;> rw [hmem]
    rfl
  | some v =>
    have hstore := coreStore_shared (c := c) (b := le 8 v.toNat) (by simpa using ha) (by simpa using hm.mono (by simp)) hl (by simpa using hu)
    have hdone := completes_atomOp_some hr hx hload hf hstore (by rw [sharedWrite_getCore]; exact hr.2.2.1)
    rw [sharedWrite_getCore] at hdone
    obtain ⟨d, hruns, hpc, hregs, hother, hsram, hmem⟩ := hdone.sharedWritten
    refine ⟨d, hruns, hpc, hregs, hother, hsram, ?_, fun x hx => ?_, ?_⟩ <;> rw [hmem]
    · exact get_putBytes_le _ _ hx
    · exact zbytes_getBytes_putBytes ..

end

end

/-- Settles O24: a load goes by what its access answers. -/
theorem loadResults : Obligations.LoadResults := by
  unfold Obligations.LoadResults
  intro s c rd ra imm hr k a sx zx loads
  have hloads {op n : Nat} {i : Instr} {g f : Bytes → DWord} (hx : exec i s = done s (loadOp op n g c rd ra imm))
      (hg : ∀ b : Bytes, b.length = n → g b = f b) : loads n i f := by
    refine ⟨fun b d1 hl hrun hb => ?permitted, fun ha hs hsup hbad => ?sram, fun ha hexl => ?misaligned⟩
    case permitted =>
      rw [← hg b hb]
      exact completes_loadOp hr hx hl hrun
    case sram =>
      rw [← hg _ (length_getBytes ..)]
      exact completes_loadOp hr hx (coreLoad_sram ha (.inl hsup) hs hbad) hr.2.2.1
    case misaligned => exact traps_loadOp hr hx (coreLoad_misaligned ha) hexl
  have hsigned {n m : Nat} (hn : 0 < m) (hm : 8 * n = m) (b : Bytes) (hb : b.length = n) : sbytes b = sx m b := sbytes_eq hn (hb ▸ hm)
  have hunsigned {n : Nat} (b : Bytes) (_ : b.length = n) : zbytes b = zx b := rfl
  exact ⟨hloads rfl (hsigned (by decide) rfl), hloads rfl hunsigned, hloads rfl (hsigned (by decide) rfl), hloads rfl hunsigned,
    hloads rfl (hsigned (by decide) rfl), hloads rfl hunsigned, hloads rfl hunsigned⟩

/-- Settles O25: a store goes by what its access answers, and in local SRAM its bytes are those of the write. -/
theorem storeResults : Obligations.StoreResults := by
  unfold Obligations.StoreResults
  intro s c rs ra imm hr k a stores
  have hstores {op n : Nat} {i : Instr} (hx : exec i s = done s (storeOp op n c rs ra imm)) : stores n i := by
    have hlen : (le n (k.reg rs).toNat).length = n := length_le ..
    refine ⟨fun d1 hs hrun => completes_storeOp hr hx hs hrun, fun ha hs hsup => ?sram,
      fun ha hexl => traps_storeOp hr hx (coreStore_misaligned (hlen.symm ▸ ha)) hexl⟩
    case sram =>
      have hstore : coreStore c a (le n (k.reg rs).toNat) s.dev = (.ok, sramWrite c a (le n (k.reg rs).toNat) s.dev) :=
        coreStore_sram (hlen.symm ▸ ha) (.inl hsup) (hlen.symm ▸ hs)
      have hdone := completes_storeOp hr hx hstore (by rw [sramWrite_getCore]; exact hr.2.2.1)
      rw [sramWrite_getCore] at hdone
      obtain ⟨d, hruns, hpc, hregs, hother, hmem, hsram⟩ := hdone.sramWritten
      refine ⟨d, hruns, hpc, fun r => ?_, hother, hmem, fun x hx => ?_, fun j hj => ?_⟩
      · rw [hregs r, if_neg (by simp)]
      · rw [hsram, get_putBytes, hlen, if_neg (by omega)]
      · rw [hsram, get_putBytes, hlen, if_pos (by omega), Nat.add_sub_cancel_left, getD_le_toNat _ hj]
  exact ⟨hstores rfl, hstores rfl, hstores rfl, hstores rfl⟩

/-- Settles O26: an atomic goes by its range, loads the old word there and stores what its function gives. -/
theorem atomicResults : Obligations.AtomicResults := by
  unfold Obligations.AtomicResults
  intro s c rd ra rb hr k a word may swaps
  have hrun : k.run = .running := hr.2.2.1
  have hswaps {func : Nat} {i : Instr} {g : DWord → DWord → DWord → Option DWord} (f : DWord → Option DWord)
      (hx : exec i s = done s (atomOp func g c rd ra rb)) (hg : ∀ o, g o (k.reg rd) (k.reg rb) = f o) : swaps i f := by
    have htrap {cause : Nat} {b : Bytes} (hl : atomLoad c a s.dev = ((some cause, b), s.dev)) (hexl : k.exl = false) :
        Traps i c cause (k.pc.setWidth 64) (BitVec.ofNat 64 a) s s.dev := traps_atomOp hr hx hl hrun hexl rfl
    refine ⟨fun ha hexl => htrap (atomLoad_misaligned ha) hexl, fun ha hm hexl => htrap (atomLoad_barred ha hm) hexl,
      fun ha hm => ⟨fun hs => ⟨fun hbad => atomOp_sram hr hx rfl ha hm (hg _) rfl hs hbad, fun hbad hexl => ?sramEcc⟩, fun hl hu => ?shared,
        fun b d1 hl hu => ?ddr, fun h1 h2 h3 hexl => ?elsewhere⟩⟩
    case sramEcc =>
      have hrange : rangeOf a 8 s.dev = .sram := rangeOf_sram hs
      exact htrap ((atomLoad_memory ha hm (by simp [hrange]) (by simp [hrange])).trans (coreLoad_sram_bad ha (hm.mono (by simp)) hs hbad)) hexl
    case shared =>
      have hoff : offFrom 0x10000000 a = a - 0x10000000 := by
        simp only [offFrom]
        omega
      have hrange : rangeOf a 8 s.dev = .shared := rangeOf_shared hl hu
      exact ⟨fun hbad => atomOp_shared hr hx rfl ha hm (hg _) hoff rfl hl hu hbad,
        fun hbad hexl => htrap ((atomLoad_memory ha hm (by simp [hrange]) (by simp [hrange])).trans
          (coreLoad_shared_bad ha (hm.mono (by simp)) hl hu (hoff ▸ hbad))) hexl⟩
    case ddr =>
      have hrange : rangeOf a 8 s.dev = .ddr := rangeOf_ddr hl hu
      have hatom : atomLoad c a s.dev = coreLoad c a 8 s.dev := atomLoad_memory ha hm (by simp [hrange]) (by simp [hrange])
      exact ⟨fun hload => ⟨fun hf hrun1 => completes_atomOp_none hr hx (hatom.trans hload) ((hg _).trans hf) hrun1,
          fun v d2 hf hs hrun2 => completes_atomOp_some hr hx (hatom.trans hload) ((hg _).trans hf) hs hrun2⟩,
        fun hload hrun1 hexl hpc => traps_atomOp hr hx (hatom.trans hload) hrun1 hexl hpc⟩
    case elsewhere => exact htrap (atomLoad_elsewhere ha hm (rangeOf_elsewhere h1 h2 h3)) hexl
  refine ⟨?swap, ?add, ?and, ?or, ?cas⟩
  case swap => exact hswaps (fun _ => some (k.reg rb)) rfl (fun _ => rfl)
  case add => exact hswaps (fun o => some (o + k.reg rb)) rfl (fun _ => rfl)
  case and => exact hswaps (fun o => some (o &&& k.reg rb)) rfl (fun _ => rfl)
  case or => exact hswaps (fun o => some (o ||| k.reg rb)) rfl (fun _ => rfl)
  case cas => exact hswaps (fun o => if o = k.reg rd then some (k.reg rb) else none) rfl (fun _ => rfl)

end Sys2Proof.Machine

/-! SUPPORT. Branches, jumps, control registers, ERET, exceptions and the words of the instruction set (10 R277, R278, R281, R282, R285, R287, R289,
R307, Tables 10-3 and 10-9). -/

namespace Sys2Proof.Machine

section
variable {i : Instr} {c : Nat} {s : State}

/-! ### Branches and jumps (10 R281) -/

section
variable {op ra rb disp : Nat} {f : DWord → DWord → Bool} (hr : Ready c s) (hx : exec i s = done s (branchOp op f c ra rb disp))
include hr hx

theorem completes_branch_taken (hf : f ((s.dev.getCore c).reg ra) ((s.dev.getCore c).reg rb) = true)
    (ht : fetchable ((s.dev.getCore c).pc.setWidth 64 + disp4 16 disp).toNat = true) :
    Completes i c 0 0 (((s.dev.getCore c).pc.setWidth 64 + disp4 16 disp).setWidth 32) s s.dev :=
  (ends_of (e := { how := .jump ((s.dev.getCore c).pc.setWidth 64 + disp4 16 disp), redirect := !backward 16 disp, mispredict := !backward 16 disp })
    hr hx rfl (by simp only [hf, if_true]) hr.2.2.1).completes_jump rfl ht (writesReg_g0 ..)

theorem completes_branch_not_taken (hf : f ((s.dev.getCore c).reg ra) ((s.dev.getCore c).reg rb) = false) :
    Completes i c 0 0 ((s.dev.getCore c).pc + 4) s s.dev :=
  (ends_of (e := { redirect := backward 16 disp, mispredict := backward 16 disp }) hr hx rfl (by simp [hf]) hr.2.2.1).completes rfl
    (writesReg_g0 ..) rfl

end

/-- A jump that links in register `rd` ends at its target with the link written. -/
theorem ends_link {w rd : Nat} {f : Dev → Dev} {body : Dev → Ending × Dev} {e : Ending} (hr : Ready c s) (hx : exec i s = done s f)
    (hf : f s.dev = coreRun c w body s.dev) (hb : body s.dev = (e, s.dev.updCore c (fun k => k.setReg rd k.link))) :
    Ends i c s e (s.dev.updCore c (fun k => k.setReg rd (s.dev.getCore c).link)) := by
  have hset : s.dev.updCore c (fun k => k.setReg rd k.link) = s.dev.updCore c (fun k => k.setReg rd (s.dev.getCore c).link) := updCore_congr rfl
  refine ends_of hr hx hf (hb.trans (by rw [hset])) ?_
  rw [Dev.getCore_updCore, (Core.keeps_setReg ..).run, hr.2.2.1]

/-- A jump to an address where no instruction stands raises FETCH at the target (10 R281, R286). -/
theorem Ends.traps_jump {e : Ending} {d d1 : Dev} {v t : DWord} (h : Ends i c s e d) (he : e.how = .jump t) (ht : fetchable t.toNat = false)
    (hd : WritesReg c 0 v d1 d) (hexl : (d1.getCore c).exl = false) : Traps i c cFETCH t t s d1 := by
  obtain ⟨w, d', hruns, honly, hcore⟩ := h
  obtain ⟨honly1, hcore1⟩ := hd
  rw [finish_jump he, jumpTo, if_neg (by simp [ht])] at hruns
  have hview : (d'.getCore c).trapView = (d1.getCore c).trapView := by rw [hcore, Core.trapView_retire, hcore1, Core.setReg_zero]
  exact traps_of_takeExc hruns ((honly1.trans honly).trans (onlyCore_updCore ..)) (by rw [Dev.getCore_updCore]; exact hview) hexl

/-! ### Control registers (10 R282, R285, R307) -/

@[simp] theorem csrStore_run (num : Nat) (v ones : DWord) (k : Core) : (csrStore num v ones k).run = k.run := by
  simp only [csrStore]
  (repeat' split) <;> simp

@[simp] theorem csrStore_pc (num : Nat) (v ones : DWord) (k : Core) : (csrStore num v ones k).pc = k.pc := by
  simp only [csrStore]
  (repeat' split) <;> simp

section
variable (c) (num kind : Nat) (v x : DWord) (d : Dev)

@[simp] theorem freeNat_getCore (c : Nat) (d : Dev) : (freeNat d).2.getCore c = d.getCore c := rfl

@[simp] theorem drawJitter_run : ((drawJitter c d).getCore c).run = (d.getCore c).run := by
  unfold drawJitter
  split <;> simp

@[simp] theorem drawJitter_pc : ((drawJitter c d).getCore c).pc = (d.getCore c).pc := by
  unfold drawJitter
  split <;> simp

@[simp] theorem csrTake_run : ((csrTake c num d).getCore c).run = (d.getCore c).run := by
  unfold csrTake
  split <;> simp

@[simp] theorem csrTake_pc : ((csrTake c num d).getCore c).pc = (d.getCore c).pc := by
  unfold csrTake
  split <;> simp

@[simp] theorem csrPut_run : ((csrPut kind c num v x d).getCore c).run = (d.getCore c).run := by
  unfold csrPut when_
  (repeat' split) <;> simp

@[simp] theorem csrPut_pc : ((csrPut kind c num v x d).getCore c).pc = (d.getCore c).pc := by
  unfold csrPut when_
  (repeat' split) <;> simp

end

section
variable {num kind : Nat} {v x : DWord} {d : Dev}

theorem csrTake_of_ne (h : num ≠ 0x065) : csrTake c num d = d := if_neg h

theorem csrPut_of_not_writes (h : csrWrites kind num = false) : csrPut kind c num v x d = d := by simp [csrPut, h]

theorem csrListed_of_readOnly (h : csrReadOnly num = true) : csrListed num = true := by
  obtain rfl | rfl | rfl | rfl : num = 0x010 ∨ num = 0x011 ∨ num = 0x040 ∨ num = 0x061 := by simpa [csrReadOnly, or_assoc] using h
  all_goals decide

theorem not_sample_of_readOnly (h : csrReadOnly num = true) : num ≠ 0x065 := by
  rintro rfl
  simp [csrReadOnly] at h

theorem not_sample_of_taskOk {write : Bool} {k : Core} (h : csrTaskOk num write k = true) : num ≠ 0x065 := by
  rintro rfl
  simp [csrTaskOk] at h

end

section
variable {num kind rd ra : Nat} (hr : Ready c s) (hx : exec i s = done s (csrOp kind c rd ra num)) (hnum : num < 4096)
include hr hx hnum

/-- A permitted operation gives the old value, writes the new one and takes the sample. -/
theorem completes_csrOp {v : DWord} (hl : csrListed num = true) (hw : kind = 0 ∨ csrReadOnly num = false ∨ ra % 32 = 0)
    (hp : (s.dev.getCore c).super = true ∨ csrTaskOk num (csrWrites kind num) (s.dev.getCore c) = true)
    (hv : (if kind = 1 then (s.dev.getCore c).reg ra else if kind = 2 then csrValue c num (s.dev.getCore c) ||| (s.dev.getCore c).reg ra
      else csrValue c num (s.dev.getCore c) &&& ~~~ (s.dev.getCore c).reg ra) = v) :
    Completes i c rd (csrValue c num (s.dev.getCore c)) ((s.dev.getCore c).pc + 4) s
      (csrTake c num (csrPut kind c num v ((s.dev.getCore c).reg ra) s.dev)) := by
  have hlegal : (!csrListed num || (kind != 0 && csrReadOnly num && ra % 32 != 0)) = false := by
    obtain h | h | h := hw <;> simp [hl, h]
  have hmay : (!(s.dev.getCore c).super && !csrTaskOk num (csrWrites kind num) (s.dev.getCore c)) = false := by
    obtain h | h := hp <;> simp [h]
  refine (ends_of (e := {}) hr hx rfl ?body ?run).completes rfl (writesReg_updCore c rd (csrValue c num (s.dev.getCore c)) _) (by simp)
  case body =>
    simp only [csrBody, Nat.mod_eq_of_lt hnum, hlegal, hmay, hv]
    rfl
  case run => rw [Dev.getCore_updCore, (Core.keeps_setReg ..).run, csrTake_run, csrPut_run, hr.2.2.1]

variable (hexl : (s.dev.getCore c).exl = false)
include hexl

theorem traps_csrOp_illegal (h : csrListed num = false ∨ (kind ≠ 0 ∧ csrReadOnly num = true ∧ ra % 32 ≠ 0)) :
    Traps i c cILLEGAL ((s.dev.getCore c).pc.setWidth 64) (BitVec.ofNat 64 (wordCsr kind rd ra num)) s s.dev := by
  have hlegal : (!csrListed num || (kind != 0 && csrReadOnly num && ra % 32 != 0)) = true := by
    obtain h | ⟨h1, h2, h3⟩ := h
    · simp [h]
    · simp [h1, h2, h3]
  exact (ends_of (e := { how := .exc cILLEGAL (BitVec.ofNat 64 (wordCsr kind rd ra num)) }) hr hx rfl
    (by simp only [csrBody, Nat.mod_eq_of_lt hnum, hlegal, if_true]) hr.2.2.1).traps rfl hexl rfl

theorem traps_csrOp_priv (hl : csrListed num = true) (hw : kind = 0 ∨ csrReadOnly num = false) (hs : (s.dev.getCore c).super = false)
    (ht : csrTaskOk num (csrWrites kind num) (s.dev.getCore c) = false) :
    Traps i c cPRIV ((s.dev.getCore c).pc.setWidth 64) (BitVec.ofNat 64 (wordCsr kind rd ra num)) s s.dev := by
  have hlegal : (!csrListed num || (kind != 0 && csrReadOnly num && ra % 32 != 0)) = false := by
    obtain h | h := hw <;> simp [hl, h]
  refine (ends_of (e := { how := .exc cPRIV (BitVec.ofNat 64 (wordCsr kind rd ra num)) }) hr hx rfl ?body hr.2.2.1).traps rfl hexl rfl
  simp only [csrBody, Nat.mod_eq_of_lt hnum, hlegal, hs, ht]
  rfl

end

/-! ### A written register reads back (10 Tables 10-9, 10-16) -/

section
variable {num : Nat} (v x : DWord) (k : Core)

theorem csrValue_csrStore_base (c : Nat) (hl : 0x020 ≤ num) (hu : num ≤ 0x027) : csrValue c num (csrStore num v x k) = v &&& csrMask num := by
  simp [csrValue, csrStore, hl, hu]

theorem csrValue_csrStore_limit (c : Nat) (hl : 0x028 ≤ num) (hu : num ≤ 0x02F) : csrValue c num (csrStore num v x k) = v &&& csrMask num := by
  have h : ¬num ≤ 0x027 := by omega
  simp [csrValue, csrStore, hl, hu, h]

theorem csrValue_csrStore_counter (c : Nat) (hl : 0x058 ≤ num) (hu : num ≤ 0x05F) : csrValue c num (csrStore num v x k) = v &&& csrMask num := by
  have h1 : ¬num ≤ 0x027 := by omega
  have h2 : ¬num ≤ 0x02F := by omega
  have h3 : ¬num ≤ 0x057 := by omega
  simp [csrValue, csrStore, hl, hu, h1, h2, h3]

/-- A PCSEL keeps SAT unless the written value clears it (10 Table 10-16). -/
theorem csrValue_csrStore_select (c : Nat) (hl : 0x050 ≤ num) (hu : num ≤ 0x057) : csrValue c num (csrStore num v x k) =
    (v &&& 0xBFF) ||| (if (Tab.get 0 k.pcSel (num - 0x050)).getLsbD 10 = true ∧ x.getLsbD 10 = false then 0x400 else 0) := by
  have h1 : ¬num ≤ 0x027 := by omega
  have h2 : ¬num ≤ 0x02F := by omega
  have hmask : v &&& csrMask num &&& 0xBFF = v &&& 0xBFF := by
    have : csrMask num = 0xFFF := by simp [csrMask, hl, hu, h1, h2]
    rw [this, BitVec.and_assoc]
    rfl
  rw [← hmask]
  simp [csrValue, csrStore, hl, hu, h1, h2]

theorem csrValue_csrStore_single (c : Nat) (h : num ∈ [0x000, 0x001, 0x002, 0x003, 0x004, 0x005, 0x006, 0x007, 0x008, 0x012, 0x041, 0x060]) :
    csrValue c num (csrStore num v x k) = v &&& csrMask num := by
  simp only [List.mem_cons, List.not_mem_nil, or_false] at h
  obtain rfl | rfl | rfl | rfl | rfl | rfl | rfl | rfl | rfl | rfl | rfl | rfl := h
  · exact Core.setStatus_status ..
  all_goals rfl

end

/-- The registers that are listed and not read-only, but for the sample buffer's. -/
theorem csr_writable_cases {num : Nat} (hl : csrListed num = true) (hw : csrReadOnly num = false) (hn : num < 0x062 ∨ 0x065 < num) :
    num ∈ [0x000, 0x001, 0x002, 0x003, 0x004, 0x005, 0x006, 0x007, 0x008, 0x012, 0x041, 0x060] ∨ (0x020 ≤ num ∧ num ≤ 0x027) ∨
      (0x028 ≤ num ∧ num ≤ 0x02F) ∨ (0x050 ≤ num ∧ num ≤ 0x057) ∨ (0x058 ≤ num ∧ num ≤ 0x05F) := by
  simp only [csrListed, csrReadOnly, Bool.or_eq_true, Bool.and_eq_true, Bool.or_eq_false_iff, decide_eq_true_eq, beq_iff_eq, beq_eq_false_iff_ne] at hl hw
  simp only [List.mem_cons, List.not_mem_nil, or_false]
  omega

/-! ### ERET -/

theorem doEret_of_task {d : Dev} (h : (d.getCore c).super = false) : doEret c d =
    coreRun c (wordR 0x31 0 0 0 0) (fun d => ({ how := .exc cPRIV (BitVec.ofNat 64 (wordR 0x31 0 0 0 0)) }, d)) d := by
  simp [doEret, coreRun, h]

theorem doEret_of_super {d : Dev} (h : (d.getCore c).super = true) : doEret c d =
    coreRun c (wordR 0x31 0 0 0 0) (fun d => ({ how := .jump (((d.getCore c).epc.setWidth 32).setWidth 64) },
      d.updCore c (fun k => k.setStatus k.estatus))) d := by
  simp [doEret, coreRun, h]

theorem runs_eret (hr : Ready c s) (hsup : (s.dev.getCore c).super = true)
    (ht : fetchable (((s.dev.getCore c).epc.setWidth 32).setWidth 64 : DWord).toNat = true) :
    ∃ d : Dev, Runs (.eret c) s d ∧ (d.getCore c).status = (s.dev.getCore c).estatus ∧ (d.getCore c).pc = (s.dev.getCore c).epc.setWidth 32 ∧
      (∀ r : Nat, (d.getCore c).reg r = (s.dev.getCore c).reg r) ∧ (d.getCore c).sram = (s.dev.getCore c).sram := by
  obtain ⟨w, d', hruns, -, hcore⟩ := ends_of (i := .eret c) hr rfl (doEret_of_super hsup) rfl (by simp [hr.2.2.1])
  rw [finish_jump rfl, jumpTo_fetchable ht] at hruns
  obtain ⟨_, _, _, hset⟩ := (s.dev.getCore c).setStatus_eq (s.dev.getCore c).estatus
  rw [Dev.getCore_updCore, hset] at hcore
  obtain ⟨hkeeps, hregs, -⟩ := Core.retire_eq w { how := .jump (((s.dev.getCore c).epc.setWidth 32).setWidth 64) } _
  rw [← hcore] at hkeeps hregs
  refine ⟨_, hruns, ?_, ?_, fun r => ?_, ?_⟩ <;> rw [Dev.getCore_updCore]
  · exact hkeeps.status
  · exact BitVec.eq_of_toNat_eq (by simp)
  · simp only [Core.reg, hregs]
  · exact hkeeps.sram

end

/-- Settles O27: a branch goes by its comparison, and a jump by whether instructions stand at its target. -/
theorem branchTargets : Obligations.BranchTargets := by
  unfold Obligations.BranchTargets
  intro s c ra rb disp hr k a b t branch
  have hbranch {op : Nat} {f : DWord → DWord → Bool} {i : Instr} {p : Prop} (hx : exec i s = done s (branchOp op f c ra rb disp))
      (hp : f a b = true ↔ p) : branch i p :=
    ⟨fun h ht => completes_branch_taken hr hx (hp.mpr h) ht, fun h => completes_branch_not_taken hr hx (Bool.eq_false_iff.mpr (mt hp.mp h))⟩
  refine ⟨hbranch rfl beq_iff_eq, hbranch rfl bne_iff_ne, hbranch rfl (by simp [BitVec.slt]), hbranch rfl (by simp [BitVec.slt]),
    hbranch rfl (by simp [BitVec.ult]), hbranch rfl (by simp [BitVec.ult]), fun ht => ?jal, fun rd imm ht => ?jalr, fun imm ht hexl => ?fetch⟩
  case jal => exact (ends_link hr rfl rfl rfl).completes_jump rfl ht (writesReg_updCore ..)
  case jalr => exact (ends_link hr rfl rfl rfl).completes_jump rfl ht (writesReg_updCore ..)
  case fetch =>
    obtain ⟨d, hruns, -, -, hes, hepc, hcause, heval, -⟩ := (ends_link (i := .jalr c 0 ra imm) hr rfl rfl rfl).traps_jump rfl ht (writesReg_updCore ..) hexl
    exact ⟨d, hruns, hcause, hepc, heval, hes⟩

/-- Settles O28: an operation on a listed register is permitted, or it traps; what it stores reads back by the register's range. -/
theorem controlRegisters : Obligations.ControlRegisters := by
  unfold Obligations.ControlRegisters
  refine ⟨fun s c rd ra num hr hnum => ?ops, fun c num v x k hl hw hn => ⟨fun hsel => ?plain, csrValue_csrStore_select v x k c⟩⟩
  case ops =>
    intro k x old puts
    refine ⟨fun hsup => ⟨fun hl => ?read, fun hl hw => ?write, fun hro hra => ?readOnly, fun h hexl => ?illegal, fun t ht hf => ?eret⟩,
      fun htask => ⟨fun hl ht => ?taskRead, fun hexl => ⟨?taskEret, fun hl ht => ?taskDenied, fun hl hw => ?taskWrite⟩⟩⟩
    case read =>
      have h := completes_csrOp (i := .csrr c rd num) hr rfl hnum hl (.inl rfl) (.inl hsup) rfl
      rwa [csrPut_of_not_writes rfl] at h
    case write =>
      exact ⟨completes_csrOp hr rfl hnum hl (.inr (.inl hw)) (.inl hsup) rfl, completes_csrOp hr rfl hnum hl (.inr (.inl hw)) (.inl hsup) rfl,
        completes_csrOp hr rfl hnum hl (.inr (.inl hw)) (.inl hsup) rfl⟩
    case readOnly =>
      have hro' {kind : Nat} {i : Instr} (hx : exec i s = done s (csrOp kind c rd ra num)) : Completes i c rd old (k.pc + 4) s s.dev := by
        have h := completes_csrOp hr hx hnum (csrListed_of_readOnly hro) (.inr (.inr hra)) (.inl hsup) rfl
        rwa [csrPut_of_not_writes (by simp [csrWrites, hro]), csrTake_of_ne (not_sample_of_readOnly hro)] at h
      exact ⟨hro' rfl, hro' rfl, hro' rfl⟩
    case illegal => exact traps_csrOp_illegal hr rfl hnum hexl (h.imp_right fun h => ⟨Nat.one_ne_zero, h⟩)
    case eret =>
      subst ht
      exact runs_eret hr hsup hf
    case taskRead =>
      have h := completes_csrOp (i := .csrr c rd num) hr rfl hnum hl (.inl rfl) (.inr ht) rfl
      rwa [csrPut_of_not_writes rfl, csrTake_of_ne (not_sample_of_taskOk ht)] at h
    case taskEret => exact (ends_of hr rfl (doEret_of_task htask) rfl hr.2.2.1).traps rfl hexl rfl
    case taskDenied => exact traps_csrOp_priv hr rfl hnum hexl hl (.inl rfl) htask ht
    case taskWrite =>
      have hwrites : csrTaskOk num (csrWrites 1 num) k = false := by simp [csrWrites, csrTaskOk, hw]
      exact traps_csrOp_priv hr rfl hnum hexl hl (.inr hw) htask hwrites
  case plain =>
    obtain h | ⟨h1, h2⟩ | ⟨h1, h2⟩ | ⟨h1, h2⟩ | ⟨h1, h2⟩ := csr_writable_cases hl hw hn
    · exact csrValue_csrStore_single v x k c h
    · exact csrValue_csrStore_base v x k c h1 h2
    · exact csrValue_csrStore_limit v x k c h1 h2
    · omega
    · exact csrValue_csrStore_counter v x k c h1 h2

/-- Settles O57: the front of the queue is what `step` matches on. -/
theorem stepFront : Obligations.StepFront := by
  unfold Obligations.StepFront
  refine ⟨fun s c rest h => ?front, fun s c w image dmaOk i h => ?word⟩
  case front => simp only [step, h]
  case word => simp only [State.withGlonikWord, h, step]

end Sys2Proof.Machine

/-! SUPPORT. TRAP, ILLEGAL and FENCE, and the instruction that each legal word spells (10 R277, R278, R284, R287, R289, Tables 10-2 to 10-4 and
10-10; log entry 62). -/

namespace Sys2Proof.Machine

/-! ### The instruction that a legal word spells (10 R277, R278) -/

/-- The reading of a word gives an instruction of the table, and not ILLEGAL. -/
def Spelt (c w : Nat) (o : Option Instr) : Prop := ∃ i : Instr, o = some i ∧ i ≠ .illegal c w

section
variable {c w rd ra rb imm : Nat}

theorem spelt_some {i : Instr} (h : i ≠ .illegal c w) : Spelt c w (some i) := ⟨i, rfl, h⟩

theorem spelt_glonikAlu {func : Nat} (h : func ≤ 0x017) : Spelt c w (glonikAlu c rd ra rb func) := by
  interval_cases func <;> exact spelt_some nofun

theorem spelt_glonikAtom {func : Nat} (h : func ≤ 4) : Spelt c w (glonikAtom c rd ra rb func) := by
  interval_cases func <;> exact spelt_some nofun

theorem spelt_glonikDev {dop : Nat} {image : Bytes} {dmaOk : Bool} (h : dop ≤ 13) : Spelt c w (glonikDev c rd ra rb dop imm image dmaOk) := by
  interval_cases dop <;> exact spelt_some nofun

/-- The operation codes of formats I, S and B that spell a row by themselves. -/
def ImmOp (op : Nat) : Prop :=
  (1 ≤ op ∧ op ≤ 0x06) ∨ (0x08 ≤ op ∧ op ≤ 0x0B) ∨ (0x10 ≤ op ∧ op ≤ 0x16) ∨ (0x18 ≤ op ∧ op ≤ 0x1B) ∨ (0x20 ≤ op ∧ op ≤ 0x25) ∨ op = 0x27

theorem spelt_glonikImm {op : Nat} (h : ImmOp op) : Spelt c w (glonikImm op c rd ra imm) := by
  obtain ⟨hl, hu⟩ | ⟨hl, hu⟩ | ⟨hl, hu⟩ | ⟨hl, hu⟩ | ⟨hl, hu⟩ | rfl := h
  case inr.inr.inr.inr.inr => exact spelt_some nofun
  all_goals interval_cases op <;> exact spelt_some nofun

theorem spelt_shift (h : imm / 64 ≤ 2) : Spelt c w (glonikImm 0x07 c rd ra imm) := by
  simp only [glonikImm]
  interval_cases imm / 64 <;> exact spelt_some nofun

theorem spelt_csr (h : imm / 4096 ≤ 3) : Spelt c w (glonikImm 0x30 c rd ra imm) := by
  simp only [glonikImm]
  interval_cases imm / 4096 <;> exact spelt_some nofun

end

section
variable {c w : Nat} {image : Bytes} {dmaOk : Bool}

theorem legalAlu_le (h : legalAlu w = true) : fld w 10 0 ≤ 0x017 := by
  simp only [legalAlu, Bool.or_eq_true, Bool.and_eq_true, decide_eq_true_eq] at h
  omega

theorem legalShift_le (h : legalShift w = true) : fld w 15 0 / 64 ≤ 2 := by
  simp only [legalShift, fld, Bool.and_eq_true, bne_iff_ne, beq_iff_eq] at h ⊢
  omega

theorem legalCsr_le (h : legalCsr w = true) : fld w 15 0 / 4096 ≤ 3 := by
  simp only [legalCsr, Bool.and_eq_true] at h
  have hkind : fld w 15 12 ≤ 3 := by
    obtain ⟨-, h⟩ := h
    split at h
    · omega
    · simp only [Bool.and_eq_true, decide_eq_true_eq] at h
      exact h.1
  simp only [fld] at hkind ⊢
  omega

theorem legalDev_le (h : legalDev w = true) : fld w 10 6 ≤ 13 := by
  by_contra hgt
  have hlt : fld w 10 6 < 32 := Nat.mod_lt _ (by decide)
  have hdop : 14 ≤ fld w 10 6 := by omega
  simp only [legalDev] at h
  generalize fld w 10 6 = dop at *
  interval_cases dop <;> simp at h

/-- Of the legal words of OP 0x31, FENCE's is the one with func 1. -/
theorem legalSys_cases (hw : w < 2 ^ 32) (hop : fld w 31 26 = 0x31) (h : legalSys w = true) (hne : w ≠ wordFence) :
    fld w 10 0 = 0 ∨ fld w 10 0 = 2 := by
  have hfence : wordFence = 0x31 * 2 ^ 26 + 1 := rfl
  simp only [legalSys] at h
  split at h
  · exact .inl ‹_›
  · simp only [fld, beq_iff_eq] at *
    omega
  · exact .inr ‹_›
  · simp at h

/-- What a legal word's operation code asks of its other fields. -/
theorem legalWord_cases (h : legalWord w = true) :
    ImmOp (fld w 31 26) ∨ fld w 31 26 = 0x26 ∨ (fld w 31 26 = 0x00 ∧ legalAlu w = true) ∨ (fld w 31 26 = 0x07 ∧ legalShift w = true) ∨
    (fld w 31 26 = 0x1C ∧ fld w 10 0 ≤ 4) ∨ (fld w 31 26 = 0x30 ∧ legalCsr w = true) ∨ (fld w 31 26 = 0x31 ∧ legalSys w = true) ∨
    (fld w 31 26 = 0x38 ∧ legalDev w = true) := by
  unfold legalWord at h
  unfold ImmOp
  generalize fld w 31 26 = op at h ⊢
  obtain ⟨h0, h⟩ | ⟨h0, h⟩ := ite_eq_iff.mp h
  · exact .inr (.inr (.inl ⟨h0, h⟩))
  obtain ⟨h6, -⟩ | ⟨h6, h⟩ := ite_eq_iff.mp h
  · exact .inl (by omega)
  obtain ⟨h7, h⟩ | ⟨h7, h⟩ := ite_eq_iff.mp h
  · exact .inr (.inr (.inr (.inl ⟨h7, h⟩)))
  obtain ⟨h8, -⟩ | ⟨h8, h⟩ := ite_eq_iff.mp h
  · exact .inl (by omega)
  obtain ⟨hB, -⟩ | ⟨hB, h⟩ := ite_eq_iff.mp h
  · exact .inl (by omega)
  obtain ⟨-, h⟩ | ⟨h10, h⟩ := ite_eq_iff.mp h
  · cases h
  obtain ⟨h16, -⟩ | ⟨h16, h⟩ := ite_eq_iff.mp h
  · exact .inl (by omega)
  obtain ⟨-, h⟩ | ⟨h17, h⟩ := ite_eq_iff.mp h
  · cases h
  obtain ⟨h1B, -⟩ | ⟨h1B, h⟩ := ite_eq_iff.mp h
  · exact .inl (by omega)
  obtain ⟨h1C, h⟩ | ⟨h1C, h⟩ := ite_eq_iff.mp h
  · exact .inr (.inr (.inr (.inr (.inl ⟨h1C, of_decide_eq_true h⟩))))
  obtain ⟨-, h⟩ | ⟨h20, h⟩ := ite_eq_iff.mp h
  · cases h
  obtain ⟨h27, -⟩ | ⟨h27, h⟩ := ite_eq_iff.mp h
  · obtain h26 | h26 := eq_or_ne op 0x26
    · exact .inr (.inl h26)
    · exact .inl (by omega)
  obtain ⟨h30, h⟩ | ⟨-, h⟩ := ite_eq_iff.mp h
  · exact .inr (.inr (.inr (.inr (.inr (.inl ⟨h30, h⟩)))))
  obtain ⟨h31, h⟩ | ⟨-, h⟩ := ite_eq_iff.mp h
  · exact .inr (.inr (.inr (.inr (.inr (.inr (.inl ⟨h31, h⟩))))))
  obtain ⟨h38, h⟩ | ⟨-, h⟩ := ite_eq_iff.mp h
  · exact .inr (.inr (.inr (.inr (.inr (.inr (.inr ⟨h38, h⟩))))))
  · cases h

theorem spelt_glonikWord (hw : w < 2 ^ 32) (h : legalWord w = true) (hne : w ≠ wordFence) : Spelt c w (glonikWord c w image dmaOk) := by
  have hguard : (!legalWord w || w == wordFence) = false := by simp [h, hne]
  simp only [glonikWord, hguard]
  obtain hop | hop | ⟨hop, h⟩ | ⟨hop, h⟩ | ⟨hop, h⟩ | ⟨hop, h⟩ | ⟨hop, h⟩ | ⟨hop, h⟩ := legalWord_cases h
  case inl =>
    have himm := spelt_glonikImm (c := c) (w := w) (rd := fld w 25 21) (ra := fld w 20 16) (imm := fld w 15 0) hop
    generalize fld w 31 26 = op at *
    obtain ⟨hl, hu⟩ | ⟨hl, hu⟩ | ⟨hl, hu⟩ | ⟨hl, hu⟩ | ⟨hl, hu⟩ | rfl := hop
    case inr.inr.inr.inr.inr => exact himm
    all_goals interval_cases op <;> exact himm
  all_goals simp only [hop]
  · exact spelt_some nofun
  · exact spelt_glonikAlu (legalAlu_le h)
  · exact spelt_shift (legalShift_le h)
  · exact spelt_glonikAtom h
  · exact spelt_csr (legalCsr_le h)
  · obtain hf | hf := legalSys_cases hw hop h hne <;> simp only [hf] <;> exact spelt_some nofun
  · exact spelt_glonikDev (legalDev_le h)

end

/-! ### ILLEGAL (10 R284, R287) -/

section
variable {c w : Nat} {d : Dev}

section
variable (hw : w < 2 ^ 32)
include hw

theorem doIllegal_of_illegal (h : legalWord w = false) :
    doIllegal c w d = coreRun c w (fun d => ({ how := .exc cILLEGAL (BitVec.ofNat 64 w) }, d)) d := by
  have hmod : w % 2 ^ 32 = w := Nat.mod_eq_of_lt hw
  have hne : w ≠ wordFence := by
    rintro rfl
    exact absurd h (by decide)
  simp only [doIllegal, hmod, if_neg hne, h]
  rfl

theorem doIllegal_of_legal (h : legalWord w = true) (hne : w ≠ wordFence) : doIllegal c w d = d := by
  have hmod : w % 2 ^ 32 = w := Nat.mod_eq_of_lt hw
  simp only [doIllegal, hmod, if_neg hne, if_pos h]

end

theorem doIllegal_fence : doIllegal c wordFence d = coreRun c wordFence (fun d => ({}, d)) d := by
  have hmod : wordFence % 2 ^ 32 = wordFence := by decide
  simp only [doIllegal, hmod, if_true, doFence]

end

/-! ### TRAP (10 R287, R289) -/

/-- TRAP's exception carries its code. -/
abbrev trapEnding (code : Nat) : Ending := { how := .exc cTRAP (BitVec.ofNat 64 code) }

theorem trap_body {code : Nat} (h : code < 2 ^ 15) (d : Dev) :
    (({ how := .exc cTRAP (BitVec.ofNat 64 (code % 2 ^ 15)) }, d) : Ending × Dev) = (trapEnding code, d) := by rw [Nat.mod_eq_of_lt h]

/-- An exception with EXL set stops the core (10 R289). -/
theorem takeExc_of_exl {c cause : Nat} {epc eval : DWord} {d : Dev} (h : (d.getCore c).exl = true) : takeExc c cause epc eval d =
    coreFault .doubleFault c (event 0x0A01 3
      (be 1 c ++ be 1 (d.getCore c).ecause.toNat ++ be 1 cause ++ be 4 (d.getCore c).epc.toNat ++ [0]) d) := by
  simp [takeExc, h]

theorem runs_trap_doubleFault {s : State} {c code : Nat} (hr : Ready c s) (hcode : code < 2 ^ 15) (hexl : (s.dev.getCore c).exl = true) :
    ∃ k' : Core, (s.dev.getCore c).keeps k' ∧ Runs (.trap c code) s (coreFault .doubleFault c (event 0x0A01 3
      (be 1 c ++ be 1 (s.dev.getCore c).ecause.toNat ++ be 1 cTRAP ++ be 4 (s.dev.getCore c).epc.toNat ++ [0]) (s.dev.updCore c (fun _ => k')))) := by
  have hkeeps := (s.dev.getCore c).retire_keeps (wordTrap code) (trapEnding code)
  refine ⟨_, hkeeps, runs_of hr.1 rfl ?_⟩
  have hupd : s.dev.updCore c (Core.retire (wordTrap code) (trapEnding code)) =
      s.dev.updCore c (fun _ => (s.dev.getCore c).retire (wordTrap code) (trapEnding code)) := updCore_congr rfl
  have hrun : doTrap c code s.dev = finish c (trapEnding code) (s.dev.updCore c (Core.retire (wordTrap code) (trapEnding code))) := by
    rw [doTrap, coreRun_of_ready hr (trap_body hcode s.dev), if_pos hr.2.2.1]
  rw [hrun, finish_exc rfl, takeExc_of_exl (by rw [Dev.getCore_updCore, hkeeps.exl, hexl]), hupd, Dev.getCore_updCore, hkeeps.ecause, hkeeps.epc]

/-- Settles O29: TRAP and an illegal word raise their exception, or the double fault; FENCE completes; a legal word spells an instruction. -/
theorem exceptionEntry : Obligations.ExceptionEntry := by
  unfold Obligations.ExceptionEntry
  intro s c hr k
  refine ⟨fun code hcode => ?trap, fun w hw hl hexl => ?illegal, fun w hw hl hne => ?legal, ?fence, fun w image dmaOk hw => ⟨fun h => ?row, fun hl hne => ?spelt⟩⟩
  case trap =>
    exact ⟨fun hexl => (ends_of hr rfl rfl (trap_body hcode s.dev) hr.2.2.1).traps rfl hexl rfl, fun hexl => runs_trap_doubleFault hr hcode hexl⟩
  case illegal => exact (ends_of hr rfl (doIllegal_of_illegal hw hl) rfl hr.2.2.1).traps rfl hexl rfl
  case legal => exact runs_of hr.1 rfl (doIllegal_of_legal hw hl hne)
  case fence => exact (ends_of hr rfl doIllegal_fence rfl hr.2.2.1).completes rfl (writesReg_g0 ..) rfl
  case row =>
    obtain hl | rfl := h
    · simp [Sys2Proof.glonikWord, hl]
    · simp [Sys2Proof.glonikWord]
  case spelt => exact spelt_glonikWord hw hl hne

end Sys2Proof.Machine

/-! SUPPORT. Device instructions that complete or raise an exception, table handles and cells (10 R285, R291 to R295, 11 R312 to R318). -/

namespace Sys2Proof.Machine

/-! ### How a device instruction ends (10 R285, R291) -/

section
variable {i : Instr} {c w rd a cause : Nat} {s : State} {f : Dev → Dev} {body : Dev → Ending × Dev} {d1 : Dev} {v eval : DWord} {pc : BitVec 32}
  (hr : Ready c s) (hx : exec i s = done s f) (hf : f s.dev = coreRun c w body s.dev)
include hr hx hf

theorem completes_devGive (hb : body s.dev = devGive c rd a v d1) (hrun : (d1.getCore c).run = .running) (hpc : (d1.getCore c).pc = pc) :
    Completes i c rd v (pc + 4) s d1 := by
  refine (ends_of hr hx hf hb ?_).completes rfl (writesReg_updCore ..) hpc
  rw [Dev.getCore_updCore, (Core.keeps_setReg ..).run, hrun]

theorem traps_devExc (hb : body s.dev = devExc a cause eval d1) (hrun : (d1.getCore c).run = .running) (hexl : (d1.getCore c).exl = false)
    (hpc : (d1.getCore c).pc = pc) : Traps i c cause (pc.setWidth 64) eval s d1 :=
  (ends_of hr hx hf hb hrun).traps rfl hexl hpc

end

/-- Without its grant an instruction of task level raises PRIV with its word (10 R285). -/
theorem traps_priv {i : Instr} {c dop cap rd ra rb imm : Nat} {s : State} {f : Dev → Dev} {body : Dev → Ending × Dev} (hr : Ready c s)
    (hx : exec i s = done s f) (hf : f s.dev = devOp dop (some cap) c rd ra rb imm body s.dev) (hg : ¬Granted (s.dev.getCore c) cap)
    (hexl : (s.dev.getCore c).exl = false) :
    Traps i c cPRIV ((s.dev.getCore c).pc.setWidth 64) (BitVec.ofNat 64 (wordD dop rd ra rb imm)) s s.dev :=
  (ends_of hr hx (hf.trans (devOp_of_not_granted hg)) rfl hr.2.2.1).traps rfl hexl rfl

/-! ### Table handles (10 R292 to R294) -/

section
variable {c rd ra h : Nat} {s : State} (hr : Ready c s) (hsup : (s.dev.getCore c).super = true)
include hr hsup

theorem completes_hopen_bad (hbad : badHandle ((s.dev.getCore c).reg ra).toNat = true) :
    Completes (.hopen c rd ra h) c rd 9 ((s.dev.getCore c).pc + 4) s s.dev :=
  completes_devGive hr rfl (devOp_of_super hsup) (by simp only [hbad]; rfl) hr.2.2.1 rfl

variable (hh : h < 64) (hbad : badHandle ((s.dev.getCore c).reg ra).toNat = false)
include hh hbad

theorem completes_hopen_open (hkind : fld ((s.dev.getCore c).reg ra).toNat 3 0 ≠ 0) (hcount : fld ((s.dev.getCore c).reg ra).toNat 51 32 ≠ 0) :
    Completes (.hopen c rd ra h) c rd 0 ((s.dev.getCore c).pc + 4) s (s.dev.updCore c (fun k => { k with
      handles := Tab.set none k.handles h (some ⟨fld ((s.dev.getCore c).reg ra).toNat 3 0, bitAt ((s.dev.getCore c).reg ra).toNat 4,
        bitAt ((s.dev.getCore c).reg ra).toNat 5, fld ((s.dev.getCore c).reg ra).toNat 31 12, fld ((s.dev.getCore c).reg ra).toNat 51 32⟩) })) := by
  have hmod : h % 64 = h := Nat.mod_eq_of_lt hh
  refine completes_devGive (a := 0) hr rfl (devOp_of_super hsup) ?body ?run ?pc
  case body =>
    simp only [hbad, hkind, hcount, hmod]
    rfl
  case run => rw [Dev.getCore_updCore, hr.2.2.1]
  case pc => rw [Dev.getCore_updCore]

theorem completes_hopen_close (hz : fld ((s.dev.getCore c).reg ra).toNat 3 0 = 0 ∨ fld ((s.dev.getCore c).reg ra).toNat 51 32 = 0) :
    Completes (.hopen c rd ra h) c rd 0 ((s.dev.getCore c).pc + 4) s
      (s.dev.updCore c (fun k => { k with handles := Tab.set none k.handles h none })) := by
  have hmod : h % 64 = h := Nat.mod_eq_of_lt hh
  have hclose : (decide (fld ((s.dev.getCore c).reg ra).toNat 3 0 = 0) || decide (fld ((s.dev.getCore c).reg ra).toNat 51 32 = 0)) = true := by
    simpa using hz
  refine completes_devGive (a := 0) hr rfl (devOp_of_super hsup) ?body ?run ?pc
  case body =>
    simp only [hbad, hclose, hmod]
    rfl
  case run => rw [Dev.getCore_updCore, hr.2.2.1]
  case pc => rw [Dev.getCore_updCore]

end

section
variable {c rd ra rb h : Nat} {s : State} {x : Handle} (hr : Ready c s) (hg : Granted (s.dev.getCore c) 0)
include hr hg

theorem completes_hrd (hk : (s.dev.getCore c).handle h = some x) (hread : x.read = true) (hin : x.holds ((s.dev.getCore c).reg ra).toNat = true)
    (hw : ((s.dev.getCore c).reg rb).toNat < kindWords x.kind) :
    Completes (.hrd c rd ra rb h) c rd (BitVec.ofNat 64 (leAt (entryBytes x.kind ((s.dev.getCore c).reg ra).toNat s.dev)
      (8 * ((s.dev.getCore c).reg rb).toNat) 8)) ((s.dev.getCore c).pc + 4) s s.dev :=
  completes_devGive hr rfl (devOp_of_granted hg) (by simp only [hk, hread, hin, hw]; rfl) hr.2.2.1 rfl

theorem traps_hrd (hexl : (s.dev.getCore c).exl = false) (h0 : (s.dev.getCore c).handle h = none ∨ ∃ x, (s.dev.getCore c).handle h = some x ∧
      (x.read = false ∨ x.holds ((s.dev.getCore c).reg ra).toNat = false ∨ kindWords x.kind ≤ ((s.dev.getCore c).reg rb).toNat)) :
    Traps (.hrd c rd ra rb h) c cHANDLE ((s.dev.getCore c).pc.setWidth 64) (handleEval h ((s.dev.getCore c).reg ra).toNat) s s.dev := by
  refine traps_devExc (a := 0) hr rfl (devOp_of_granted hg) ?_ hr.2.2.1 hexl rfl
  obtain h0 | ⟨x, hk, hout⟩ := h0
  · simp only [h0]
  · have hguard : (x.read && x.holds ((s.dev.getCore c).reg ra).toNat && decide (((s.dev.getCore c).reg rb).toNat < kindWords x.kind)) = false := by
      obtain h1 | h1 | h1 := hout <;> simp [h1]
    simp only [hk, hguard]
    rfl

section
variable (ha : ((s.dev.getCore c).reg ra).toNat % 8 = 0)
include ha

theorem completes_hsnap (hk : (s.dev.getCore c).handle h = some x) (hm : MayAccess (s.dev.getCore c) ((s.dev.getCore c).reg ra).toNat (8 * kindWords x.kind) [1])
    (hread : x.read = true) (hin : x.holds ((s.dev.getCore c).reg rb).toNat = true)
    (hs : ((s.dev.getCore c).reg ra).toNat + 8 * kindWords x.kind ≤ 0x40000) :
    Completes (.hsnap c rd ra rb h) c rd 0 ((s.dev.getCore c).pc + 4) s
      (sramWrite c ((s.dev.getCore c).reg ra).toNat (entryBytes x.kind ((s.dev.getCore c).reg rb).toNat s.dev) s.dev) := by
  have hpost : opPost c ((s.dev.getCore c).reg ra).toNat (8 * kindWords x.kind) false s.dev = none := by simp [opPost, Nat.not_lt.mpr hs]
  refine completes_devGive (a := ((s.dev.getCore c).reg ra).toNat) hr rfl (devOp_of_granted hg) ?body ?run ?pc
  case body =>
    simp only [hk, opPre_of_may ha hm, hread, hin, hpost]
    rfl
  case run => rw [sramWrite_getCore, hr.2.2.1]
  case pc => rw [sramWrite_getCore]

theorem traps_hsnap (hexl : (s.dev.getCore c).exl = false) (hk : (s.dev.getCore c).handle h = some x)
    (hm : MayAccess (s.dev.getCore c) ((s.dev.getCore c).reg ra).toNat (8 * kindWords x.kind) [1])
    (hout : x.read = false ∨ x.holds ((s.dev.getCore c).reg rb).toNat = false) :
    Traps (.hsnap c rd ra rb h) c cHANDLE ((s.dev.getCore c).pc.setWidth 64) (handleEval h ((s.dev.getCore c).reg rb).toNat) s s.dev := by
  refine traps_devExc (a := ((s.dev.getCore c).reg ra).toNat) hr rfl (devOp_of_granted hg) ?_ hr.2.2.1 hexl rfl
  have hguard : (x.read && x.holds ((s.dev.getCore c).reg rb).toNat) = false := by
    obtain h1 | h1 := hout <;> simp [h1]
  simp only [hk, opPre_of_may ha hm, hguard]
  rfl

theorem traps_hsnap_closed (hexl : (s.dev.getCore c).exl = false) (hk : (s.dev.getCore c).handle h = none)
    (hm : MayAccess (s.dev.getCore c) ((s.dev.getCore c).reg ra).toNat 8 [1]) :
    Traps (.hsnap c rd ra rb h) c cHANDLE ((s.dev.getCore c).pc.setWidth 64) (handleEval h ((s.dev.getCore c).reg rb).toNat) s s.dev := by
  refine traps_devExc (a := ((s.dev.getCore c).reg ra).toNat) hr rfl (devOp_of_granted hg) ?_ hr.2.2.1 hexl rfl
  simp only [hk, opPre_of_may ha hm]

end

theorem completes_hsrch (hk : (s.dev.getCore c).handle h = some x) (hx : x.search = true) :
    Completes (.hsrch c rd ra rb h) c rd (searchGive x (stnFind (withFlushes s.dev s.dev.tab) (fld ((s.dev.getCore c).reg rb).toNat 2 0)
      (fld ((s.dev.getCore c).reg ra).toNat 59 48) (fld ((s.dev.getCore c).reg ra).toNat 47 0))) ((s.dev.getCore c).pc + 4) s s.dev :=
  completes_devGive hr rfl (devOp_of_granted hg) (by simp only [hk, hx]; rfl) hr.2.2.1 rfl

theorem traps_hsrch (hexl : (s.dev.getCore c).exl = false)
    (h0 : (s.dev.getCore c).handle h = none ∨ ∃ x, (s.dev.getCore c).handle h = some x ∧ x.search = false) :
    Traps (.hsrch c rd ra rb h) c cHANDLE ((s.dev.getCore c).pc.setWidth 64) (handleEval h (freeNat s.dev).1) s (freeNat s.dev).2 := by
  refine traps_devExc (a := 0) hr rfl (devOp_of_granted hg) ?_ hr.2.2.1 hexl rfl
  obtain h0 | ⟨x, hk, hx⟩ := h0
  · simp only [h0]
  · simp only [hk, hx]
    rfl

theorem completes_hnext (hk : (s.dev.getCore c).handle h = some x) (hx : x.search = true) :
    Completes (.hnext c rd ra rb h) c rd (searchGive x ((stnNextFrom (withFlushes s.dev s.dev.tab)
      (Nat.max ((s.dev.getCore c).reg ra).toNat x.base / 65536) (Nat.max ((s.dev.getCore c).reg ra).toNat x.base)
      (if bitAt ((s.dev.getCore c).reg rb).toNat 12 = true then some (fld ((s.dev.getCore c).reg rb).toNat 11 0) else none)).map (fun r => r.1)))
      ((s.dev.getCore c).pc + 4) s s.dev :=
  completes_devGive hr rfl (devOp_of_granted hg) (by simp only [hk, hx]; rfl) hr.2.2.1 rfl

theorem traps_hnext (hexl : (s.dev.getCore c).exl = false)
    (h0 : (s.dev.getCore c).handle h = none ∨ ∃ x, (s.dev.getCore c).handle h = some x ∧ x.search = false) :
    Traps (.hnext c rd ra rb h) c cHANDLE ((s.dev.getCore c).pc.setWidth 64) (handleEval h ((s.dev.getCore c).reg ra).toNat) s s.dev := by
  refine traps_devExc (a := 0) hr rfl (devOp_of_granted hg) ?_ hr.2.2.1 hexl rfl
  obtain h0 | ⟨x, hk, hx⟩ := h0
  · simp only [h0]
  · simp only [hk, hx]
    rfl

end

/-- Settles O30: a handle instruction goes by its grant, by its handle and by the entry that it names. -/
theorem handleInstructions : Obligations.HandleInstructions := by
  unfold Obligations.HandleInstructions
  intro s c rd ra rb h hr hh k a b priv
  refine ⟨fun htask hexl => ?hopenPriv, fun hg hexl => ?priv, fun hsup => ⟨fun hbad => ?bad, fun hbad hkind hcount => ?opens, fun hbad hz => ?closes⟩,
    fun hg => ⟨fun x hk => ⟨fun hread hin hw => ?hrd, fun hout hexl => ?hrdOut, fun ha hm => ⟨fun hread hin hs => ?hsnap, fun hout hexl => ?hsnapOut⟩,
      fun hx => ⟨?hsrch, ?hnext⟩, fun hx => ⟨fun hexl => ?hsrchOut, fun hexl => ?hnextOut⟩⟩,
      fun hk => ⟨fun hexl => ?hrdClosed, fun hexl => ?hnextClosed, fun hexl => ?hsrchClosed, fun ha hm hexl => ?hsnapClosed⟩⟩⟩
  case hopenPriv => exact (ends_of hr rfl (devOp_of_task htask) rfl hr.2.2.1).traps rfl hexl rfl
  case priv => exact ⟨traps_priv hr rfl rfl hg hexl, traps_priv hr rfl rfl hg hexl, traps_priv hr rfl rfl hg hexl, traps_priv hr rfl rfl hg hexl⟩
  case bad => exact completes_hopen_bad hr hsup hbad
  case opens => exact completes_hopen_open hr hsup hh hbad hkind hcount
  case closes => exact completes_hopen_close hr hsup hh hbad hz
  case hrd => exact completes_hrd hr hg hk hread hin hw
  case hrdOut => exact traps_hrd hr hg hexl (.inr ⟨x, hk, hout⟩)
  case hsnap => exact completes_hsnap hr hg ha hk hm hread hin hs
  case hsnapOut => exact traps_hsnap hr hg ha hexl hk hm hout
  case hsrch => exact completes_hsrch hr hg hk hx
  case hnext => exact completes_hnext hr hg hk hx
  case hsrchOut => exact traps_hsrch hr hg hexl (.inr ⟨x, hk, hx⟩)
  case hnextOut => exact traps_hnext hr hg hexl (.inr ⟨x, hk, hx⟩)
  case hrdClosed => exact traps_hrd hr hg hexl (.inl hk)
  case hnextClosed => exact traps_hnext hr hg hexl (.inl hk)
  case hsrchClosed => exact traps_hsrch hr hg hexl (.inl hk)
  case hsnapClosed => exact traps_hsnap_closed hr hg ha hexl hk hm

/-! ### Cells (10 R295, 11 R312 to R318) -/

section
variable {c rd ra rb dir : Nat} {s : State} (hr : Ready c s) (hg : Granted (s.dev.getCore c) 1)
include hr hg

theorem completes_calloc_granted {n : Nat} {d : Dev} (hgrant : grantCell c s.dev = some (n, d)) (hrun : (d.getCore c).run = .running) :
    Completes (.calloc c rd) c rd (BitVec.ofNat 64 n) ((d.getCore c).pc + 4) s d :=
  completes_devGive (a := 0) hr rfl (devOp_of_granted hg) (by simp only [hgrant]) hrun rfl

theorem completes_calloc_denied (hgrant : grantCell c s.dev = none) :
    Completes (.calloc c rd) c rd (BitVec.allOnes 64) ((s.dev.getCore c).pc + 4) s ((bpmDeny c s.dev).updCore c (coreCount 12)) := by
  have hcore : (bpmDeny c s.dev).getCore c = s.dev.getCore c := rfl
  refine completes_devGive (a := 0) hr rfl (devOp_of_granted hg) (by simp only [hgrant]) ?run ?pc
  case run => rw [Dev.getCore_updCore, coreCount_run, hcore, hr.2.2.1]
  case pc => rw [Dev.getCore_updCore, coreCount_pc, hcore]

theorem completes_cfree_owned (hown : ownsCell c ((s.dev.getCore c).reg ra).toNat s.dev = true)
    (hrun : ((dropCell c ((s.dev.getCore c).reg ra).toNat s.dev).getCore c).run = .running) :
    Completes (.cfree c rd ra) c rd 0 (((dropCell c ((s.dev.getCore c).reg ra).toNat s.dev).getCore c).pc + 4) s
      (dropCell c ((s.dev.getCore c).reg ra).toNat s.dev) :=
  completes_devGive (a := 0) hr rfl (devOp_of_granted hg) (by simp only [hown]; rfl) hrun rfl

theorem completes_cfree_notOwned (hown : ownsCell c ((s.dev.getCore c).reg ra).toNat s.dev = false)
    (hrun : ((badFree c ((s.dev.getCore c).reg ra).toNat s.dev).getCore c).run = .running) :
    Completes (.cfree c rd ra) c rd 3 (((badFree c ((s.dev.getCore c).reg ra).toNat s.dev).getCore c).pc + 4) s
      (badFree c ((s.dev.getCore c).reg ra).toNat s.dev) :=
  completes_devGive (a := 0) hr rfl (devOp_of_granted hg) (by simp only [hown]; rfl) hrun rfl

/-- Without a region for its local address CMOVE raises ACCESS. -/
theorem traps_cmove (ha : ((s.dev.getCore c).reg rb).toNat % 32 = 0) (hexl : (s.dev.getCore c).exl = false)
    (hm : ¬MayAccess (s.dev.getCore c) ((s.dev.getCore c).reg rb).toNat 256 [if dir % 2 = 0 then 1 else 0]) :
    Traps (.cmove c rd ra rb dir) c cACCESS ((s.dev.getCore c).pc.setWidth 64) (BitVec.ofNat 64 ((s.dev.getCore c).reg rb).toNat) s s.dev :=
  traps_devExc hr rfl (devOp_of_granted hg) (withOp_of_barred ha (by simpa using hm)) hr.2.2.1 hexl rfl

section
variable (ha : ((s.dev.getCore c).reg rb).toNat % 32 = 0) (hs : ((s.dev.getCore c).reg rb).toNat + 256 ≤ 0x40000)
include ha hs

section
variable (hm : MayAccess (s.dev.getCore c) ((s.dev.getCore c).reg rb).toNat 256 [1]) (hdir : dir % 2 = 0)
include hm hdir

theorem completes_cmove_out (hown : ownsCell c ((s.dev.getCore c).reg ra).toNat s.dev = true)
    (hgood : badIn 0 ((s.dev.getCore c).reg ra).toNat 0 256 s.dev = false) :
    Completes (.cmove c rd ra rb dir) c rd 0 ((s.dev.getCore c).pc + 4) s
      (sramWrite c ((s.dev.getCore c).reg rb).toNat (cellBytes ((s.dev.getCore c).reg ra).toNat s.dev) s.dev) := by
  refine completes_devGive (a := ((s.dev.getCore c).reg rb).toNat) hr rfl (devOp_of_granted hg) ?body ?run ?pc
  case body =>
    simp only [hdir]
    refine (withOp_of_may ha hm hs (by simp)).trans ?_
    simp only [hown, hgood]
    rfl
  case run => rw [sramWrite_getCore, hr.2.2.1]
  case pc => rw [sramWrite_getCore]

theorem completes_cmove_notOwned (hown : ownsCell c ((s.dev.getCore c).reg ra).toNat s.dev = false) :
    Completes (.cmove c rd ra rb dir) c rd 3 ((s.dev.getCore c).pc + 4) s s.dev := by
  refine completes_devGive (a := ((s.dev.getCore c).reg rb).toNat) hr rfl (devOp_of_granted hg) ?body hr.2.2.1 rfl
  simp only [hdir]
  refine (withOp_of_may ha hm hs (by simp)).trans ?_
  simp only [hown]
  rfl

end

theorem completes_cmove_in (hm : MayAccess (s.dev.getCore c) ((s.dev.getCore c).reg rb).toNat 256 [0]) (hdir : dir % 2 = 1)
    (hown : ownsCell c ((s.dev.getCore c).reg ra).toNat s.dev = true) (hgood : badIn 6 c ((s.dev.getCore c).reg rb).toNat 256 s.dev = false) :
    let d := badClear 0 ((s.dev.getCore c).reg ra).toNat 0 256 s.dev
    Completes (.cmove c rd ra rb dir) c rd 0 ((s.dev.getCore c).pc + 4) s { d with bpm := { d.bpm with
      data := Tab.set [] d.bpm.data ((s.dev.getCore c).reg ra).toNat (getBytes (s.dev.getCore c).sram ((s.dev.getCore c).reg rb).toNat 256) } } := by
  intro d
  have hcore : d.getCore c = s.dev.getCore c := badClear_getCore ..
  refine completes_devGive (a := ((s.dev.getCore c).reg rb).toNat) hr rfl (devOp_of_granted hg) ?body ?run ?pc
  case body =>
    simp only [hdir]
    refine (withOp_of_may ha hm hs (fun _ => hgood)).trans ?_
    simp only [hown]
    rfl
  case run => exact (congrArg Core.run hcore).trans hr.2.2.1
  case pc => exact congrArg Core.pc hcore

end
end

/-- Settles O31: a cell instruction goes by its grant, by the pool's answer or the cell's owner, and CMOVE by its direction too. -/
theorem cellInstructions : Obligations.CellInstructions := by
  unfold Obligations.CellInstructions
  intro s c rd ra rb hr k priv
  refine ⟨fun hg hexl => ⟨traps_priv hr rfl rfl hg hexl, traps_priv hr rfl rfl hg hexl, fun dir => traps_priv hr rfl rfl hg hexl⟩,
    fun hg => ⟨fun n d1 hgrant hrun => ?granted, fun hgrant => ?denied, fun hown hrun => ?freed, fun hown hrun => ?notFreed,
      fun dir ha => ⟨fun hm hexl => ?barred, fun hm hs => ⟨fun hdir hown hgood => ?outward, fun hdir hown hgood => ?inward, fun hdir hown => ?notOwned⟩⟩⟩⟩
  case granted => exact completes_calloc_granted hr hg hgrant hrun
  case denied => exact completes_calloc_denied hr hg hgrant
  case freed => exact completes_cfree_owned hr hg hown hrun
  case notFreed => exact completes_cfree_notOwned hr hg hown hrun
  case barred => exact traps_cmove hr hg ha hexl hm
  case outward => exact completes_cmove_out hr hg ha hs (by simpa [hdir] using hm) hdir hown hgood
  case inward => exact completes_cmove_in hr hg ha hs (by simpa [hdir] using hm) hdir hown hgood
  case notOwned => exact completes_cmove_notOwned hr hg ha hs (by simpa [hdir] using hm) hdir hown

end Sys2Proof.Machine

/-! SUPPORT. Messages, events and submissions of a core (10 R296 to R300, 08 R226, 13 R363, R378). -/

namespace Sys2Proof.Machine

/-- Without a region for its operand an instruction raises ACCESS with the operand's address (10 R286). -/
theorem traps_barred {i : Instr} {c dop cap rd ra rb imm a n align right : Nat} {s : State} {f : Dev → Dev} {body g : Dev → Ending × Dev} (hr : Ready c s)
    (hx : exec i s = done s f) (hf : f s.dev = devOp dop (some cap) c rd ra rb imm body s.dev) (hg : Granted (s.dev.getCore c) cap)
    (hb : body s.dev = withOp c a n align right g s.dev) (ha : a % align = 0) (hm : ¬MayAccess (s.dev.getCore c) a n [right])
    (hexl : (s.dev.getCore c).exl = false) : Traps i c cACCESS ((s.dev.getCore c).pc.setWidth 64) (BitVec.ofNat 64 a) s s.dev :=
  traps_devExc hr hx (hf.trans (devOp_of_granted hg)) (hb.trans (withOp_of_barred ha hm)) hr.2.2.1 hexl rfl

/-! ### Messages and events (10 R296, R297, R300) -/

/-- An event leaves every core's state and program counter. -/
theorem evPendCore_run_pc (t bit x : Nat) (d : Dev) :
    ((evPendCore t bit d).getCore x).run = (d.getCore x).run ∧ ((evPendCore t bit d).getCore x).pc = (d.getCore x).pc := by
  by_cases hx : x = t
  · simp [evPendCore, hx]
  · simp [evPendCore, Dev.getCore_updCore_ne _ _ _ _ hx]

section
variable {c rd ra : Nat} {s : State} (hr : Ready c s) (hg : Granted (s.dev.getCore c) 2)
include hr hg

section
variable (ha : ((s.dev.getCore c).reg ra).toNat % 8 = 0) (hs : ((s.dev.getCore c).reg ra).toNat + 64 ≤ 0x40000)
include ha hs

theorem completes_msend (hm : MayAccess (s.dev.getCore c) ((s.dev.getCore c).reg ra).toNat 64 [0])
    (hgood : badIn 6 c ((s.dev.getCore c).reg ra).toNat 64 s.dev = false) {st : Nat} {d : Dev}
    (hsend : msend c (messageOf (getBytes (s.dev.getCore c).sram ((s.dev.getCore c).reg ra).toNat 64)) s.dev = (st, d)) (hst : st ≠ dFULL)
    (hrun : (d.getCore c).run = .running) : Completes (.msend c rd ra) c rd (BitVec.ofNat 64 st) ((d.getCore c).pc + 4) s d := by
  refine completes_devGive (a := ((s.dev.getCore c).reg ra).toNat) hr rfl (devOp_of_granted hg) ?_ hrun rfl
  refine (withOp_of_may ha hm hs (fun _ => hgood)).trans ?_
  simp only [hsend, if_neg hst]
  rfl

section
variable (hm : MayAccess (s.dev.getCore c) ((s.dev.getCore c).reg ra).toNat 64 [1])
include hm

theorem completes_mrecv_empty (hmail : (s.dev.getCore c).mailbox = []) : Completes (.mrecv c rd ra) c rd 1 ((s.dev.getCore c).pc + 4) s s.dev := by
  refine completes_devGive (a := ((s.dev.getCore c).reg ra).toNat) hr rfl (devOp_of_granted hg) ?_ hr.2.2.1 rfl
  refine (withOp_of_may ha hm hs (by simp)).trans ?_
  simp only [hmail]
  rfl

theorem completes_mrecv {m : Message} {rest : List Message} (hmail : (s.dev.getCore c).mailbox = m :: rest) :
    Completes (.mrecv c rd ra) c rd 0 ((s.dev.getCore c).pc + 4) s
      ((sramWrite c ((s.dev.getCore c).reg ra).toNat (messageBytes m) s.dev).updCore c (fun k => { coreCount 10 k with mailbox := rest })) := by
  refine completes_devGive (a := ((s.dev.getCore c).reg ra).toNat) hr rfl (devOp_of_granted hg) ?body ?run ?pc
  case body =>
    refine (withOp_of_may ha hm hs (by simp)).trans ?_
    simp only [hmail]
    rfl
  case run => rw [Dev.getCore_updCore, coreCount_run, sramWrite_getCore, hr.2.2.1]
  case pc => rw [Dev.getCore_updCore, coreCount_pc, sramWrite_getCore]

end
end

theorem completes_evpost (halive : coreAlive (s.dev.getCore (fld ((s.dev.getCore c).reg ra).toNat 5 0)) = true) :
    Completes (.evpost c rd ra) c rd 0 ((s.dev.getCore c).pc + 4) s (evPendCore (fld ((s.dev.getCore c).reg ra).toNat 5 0) 1 s.dev) := by
  obtain ⟨hrun, hpc⟩ := evPendCore_run_pc (fld ((s.dev.getCore c).reg ra).toNat 5 0) 1 c s.dev
  exact completes_devGive (a := 0) hr rfl (devOp_of_granted hg) (by simp only [halive]; rfl) (hrun.trans hr.2.2.1) hpc

theorem completes_evpost_stopped (hstopped : coreAlive (s.dev.getCore (fld ((s.dev.getCore c).reg ra).toNat 5 0)) = false) :
    Completes (.evpost c rd ra) c rd 6 ((s.dev.getCore c).pc + 4) s s.dev :=
  completes_devGive (a := 0) hr rfl (devOp_of_granted hg) (by simp only [hstopped]; rfl) hr.2.2.1 rfl

end

/-! ### Submissions (10 R299, 13 R363, R378) -/

section
variable {x : Desc} {dmaOk : Bool} {b : Sub} {d : Dev}

theorem submitOrFault_noImage (h : readsImage x.code = false) : submitOrFault x dmaOk b d = submit b x d := by simp [submitOrFault, h, when_]

/-- In D3hot the command waits with its input. -/
theorem submitOrFault_held (h : readsImage x.code = true) (hd3 : d.hif.d3hot = true) :
    submitOrFault x dmaOk b d = d.updHif (fun h => { h with heldSubs := h.heldSubs ++ [(b, x, dmaOk)] }) := by simp [submitOrFault, h, hd3]

theorem submitOrFault_image (h : readsImage x.code = true) (hd3 : d.hif.d3hot = false) (hok : dmaOk = true) (hlen : x.image.length = 64) :
    submitOrFault x dmaOk b d = submit b x (dmaRead (imageAddr x) 64 d) := by simp [submitOrFault, h, hd3, hok, hlen, when_]

end

/-- What an accepted submission returns: OK and its number. -/
def subGiven (d : Dev) : DWord := BitVec.ofNat 64 (at_ (d.hif.subno % 2 ^ 32) 32)

/-- Instruction `i` submits command `x` on device `d`: at once, waiting in D3hot, or with the host memory that it names. -/
def Submits (i : Instr) (c rd tag : Nat) (x : Desc) (dmaOk : Bool) (s : State) (d : Dev) : Prop :=
  let n := takeSubno ⟨.core c, tag, 0, 0⟩ d
  let due := n.2.updCore c (fun k => { k with outstanding := k.outstanding + 1 })
  (readsImage x.code = false → let d1 := submit n.1 x due
    (d1.getCore c).run = .running → Completes i c rd (subGiven s.dev) ((d1.getCore c).pc + 4) s d1) ∧
  (readsImage x.code = true → d.hif.d3hot = true →
    Completes i c rd (subGiven s.dev) ((s.dev.getCore c).pc + 4) s (due.updHif (fun h => { h with heldSubs := h.heldSubs ++ [(n.1, x, dmaOk)] }))) ∧
  (readsImage x.code = true → d.hif.d3hot = false → dmaOk = true → x.image.length = 64 →
    let d1 := submit n.1 x (dmaRead (imageAddr x) 64 due)
    (d1.getCore c).run = .running → Completes i c rd (subGiven s.dev) ((d1.getCore c).pc + 4) s d1)

section
variable {i : Instr} {c w rd a tag : Nat} {s : State} {f : Dev → Dev} {body : Dev → Ending × Dev} {d : Dev} {pc : BitVec 32}
  (hr : Ready c s) (hx : exec i s = done s f) (hf : f s.dev = coreRun c w body s.dev) (hsubno : d.hif.subno = s.dev.hif.subno)
include hr hx hf hsubno

/-- An accepted submission returns OK and its number. -/
theorem completes_coreSubmit {g : Sub → Dev → Dev} {d1 : Dev} (hb : body s.dev = coreSubmit c rd a tag g d)
    (hd1 : g (takeSubno ⟨.core c, tag, 0, 0⟩ d).1 ((takeSubno ⟨.core c, tag, 0, 0⟩ d).2.updCore c (fun k => { k with outstanding := k.outstanding + 1 })) = d1)
    (hrun : (d1.getCore c).run = .running) (hpc : (d1.getCore c).pc = pc) :
    Completes i c rd (subGiven s.dev) (pc + 4) s d1 := by
  refine completes_devGive (a := a) hr hx hf (hb.trans ?_) hrun hpc
  have hno : dOK + at_ ((takeSubno ⟨.core c, tag, 0, 0⟩ d).1.subno % 2 ^ 32) 32 = at_ (s.dev.hif.subno % 2 ^ 32) 32 :=
    (Nat.zero_add _).trans (by rw [← hsubno]; rfl)
  simp only [coreSubmit, hd1, hno]
  rfl

theorem submits_of {x : Desc} {dmaOk : Bool} (hb : body s.dev = coreSubmit c rd a tag (submitOrFault x dmaOk) d)
    (hdrun : (d.getCore c).run = .running) (hdpc : (d.getCore c).pc = (s.dev.getCore c).pc) : Submits i c rd tag x dmaOk s d := by
  unfold Submits
  intro n due
  have hcore : due.getCore c = { d.getCore c with outstanding := (d.getCore c).outstanding + 1 } := Dev.getCore_updCore ..
  refine ⟨fun himage hrun => ?now, fun himage hd3 => ?held, fun himage hd3 hok hlen hrun => ?read⟩
  case now => exact completes_coreSubmit hr hx hf hsubno hb (submitOrFault_noImage himage) hrun rfl
  case held =>
    exact completes_coreSubmit hr hx hf hsubno hb (submitOrFault_held himage hd3) ((congrArg Core.run hcore).trans hdrun)
      ((congrArg Core.pc hcore).trans hdpc)
  case read => exact completes_coreSubmit hr hx hf hsubno hb (submitOrFault_image himage hd3 hok hlen) hrun rfl

end

/-! ### TACKG and ENGQ (10 R299) -/

section
variable {c rd ra e : Nat} {image : Bytes} {dmaOk : Bool} {s : State}

/-- The 64 bytes of a core's descriptor in local SRAM. -/
def coreDesc (c ra : Nat) (d : Dev) : Bytes := getBytes (d.getCore c).sram ((d.getCore c).reg ra).toNat 64

variable (hr : Ready c s) (ha : ((s.dev.getCore c).reg ra).toNat % 8 = 0) (hs : ((s.dev.getCore c).reg ra).toNat + 64 ≤ 0x40000)
  (hm : MayAccess (s.dev.getCore c) ((s.dev.getCore c).reg ra).toNat 64 [0])
  (hgood : badIn 6 c ((s.dev.getCore c).reg ra).toNat 64 s.dev = false)
include hr ha hs hm hgood

section
variable (hg : Granted (s.dev.getCore c) 3)
include hg

theorem completes_tackg_full (hfull : 256 ≤ (s.dev.getCore c).outstanding) :
    Completes (.tackg c rd ra image dmaOk) c rd 2 ((s.dev.getCore c).pc + 4) s s.dev := by
  have hcf : coreFull c s.dev = true := decide_eq_true hfull
  refine completes_devGive (a := ((s.dev.getCore c).reg ra).toNat) hr rfl (devOp_of_granted hg) ?_ hr.2.2.1 rfl
  refine (withOp_of_may ha hm hs (fun _ => hgood)).trans ?_
  simp only [hcf]
  rfl

section
variable (hroom : (s.dev.getCore c).outstanding < 256)
include hroom

theorem completes_tackg_refused (hst : tackgStatus (coreDesc c ra s.dev) (descOf (coreDesc c ra s.dev) image) s.dev ≠ dOK) :
    Completes (.tackg c rd ra image dmaOk) c rd (BitVec.ofNat 64 (tackgStatus (coreDesc c ra s.dev) (descOf (coreDesc c ra s.dev) image) s.dev))
      ((s.dev.getCore c).pc + 4) s s.dev := by
  have hcf : coreFull c s.dev = false := decide_eq_false (Nat.not_le.mpr hroom)
  refine completes_devGive (a := ((s.dev.getCore c).reg ra).toNat) hr rfl (devOp_of_granted hg) ?_ hr.2.2.1 rfl
  refine (withOp_of_may ha hm hs (fun _ => hgood)).trans ?_
  simp only [hcf]
  exact if_pos hst

end

/-- The gate takes the command, and the core counts its submission. -/
theorem submits_tackg (hroom : (s.dev.getCore c).outstanding < 256)
    (hst : tackgStatus (coreDesc c ra s.dev) (descOf (coreDesc c ra s.dev) image) s.dev = dOK) :
    Submits (.tackg c rd ra image dmaOk) c rd (descTag (coreDesc c ra s.dev)) (descOf (coreDesc c ra s.dev) image) dmaOk s
      (s.dev.updCore c (coreCount 13)) := by
  have hcf : coreFull c s.dev = false := decide_eq_false (Nat.not_le.mpr hroom)
  refine submits_of (d := s.dev.updCore c (coreCount 13)) (a := ((s.dev.getCore c).reg ra).toNat) hr rfl (devOp_of_granted hg) rfl ?body ?run ?pc
  case body =>
    refine (withOp_of_may ha hm hs (fun _ => hgood)).trans ?_
    simp only [hcf]
    exact if_neg (not_not.mpr hst)
  case run => rw [Dev.getCore_updCore, coreCount_run, hr.2.2.1]
  case pc => rw [Dev.getCore_updCore, coreCount_pc]

end

section
variable (hg : Granted (s.dev.getCore c) 4)
include hg

/-- The engine takes the command. -/
theorem submits_engq (hpos : 1 ≤ e) (he : e < 64) (hst : engqStatus c e (coreDesc c ra s.dev) (descOf (coreDesc c ra s.dev) image) s.dev = dOK) :
    Submits (.engq c rd ra e image dmaOk) c rd (descTag (coreDesc c ra s.dev)) (descOf (coreDesc c ra s.dev) image) dmaOk s s.dev := by
  have hmod : e % 64 = e := Nat.mod_eq_of_lt he
  refine submits_of (a := ((s.dev.getCore c).reg ra).toNat) hr rfl (devOp_of_granted hg) rfl ?_ hr.2.2.1 rfl
  refine (withOp_of_may ha hm hs (fun _ => hgood)).trans ?_
  simp only [hmod]
  rw [coreDesc] at hst
  rw [hst, if_neg (by decide), if_neg (by decide), if_neg (Nat.ne_of_gt hpos)]
  rfl

/-- A job goes to the SCE; the TAG of its completion is a free value. -/
theorem completes_engq_job (hst : engqStatus c 0 (coreDesc c ra s.dev) (descOf (coreDesc c ra s.dev) image) s.dev = dOK) :
    let r := freeNat s.dev
    let n := takeSubno ⟨.core c, r.1 % 2 ^ 16, 0, 0⟩ r.2
    let d1 := doSceJob n.1 (coreDesc c ra s.dev) (n.2.updCore c (fun k => { k with outstanding := k.outstanding + 1 }))
    (d1.getCore c).run = .running → Completes (.engq c rd ra 0 image dmaOk) c rd (subGiven s.dev) ((d1.getCore c).pc + 4) s d1 := by
  intro r n d1 hrun
  refine completes_coreSubmit (a := ((s.dev.getCore c).reg ra).toNat) (d := r.2) (g := fun b => doSceJob b (coreDesc c ra s.dev)) hr rfl (devOp_of_granted hg) rfl ?_ rfl hrun rfl
  refine (withOp_of_may ha hm hs (fun _ => hgood)).trans ?_
  rw [coreDesc] at hst
  simp only [Nat.zero_mod, hst]
  rfl

end
end

/-- Settles O32: a message goes by the grant, by its operand's region and by its CLASS; a submission by the grant, the status of the gate or the
engine, and where its input lies. -/
theorem messageInstructions : Obligations.MessageInstructions := by
  unfold Obligations.MessageInstructions
  intro s c rd ra hr k a traps
  refine ⟨fun hexl => ⟨fun hg => ⟨traps_priv hr rfl rfl hg hexl, traps_priv hr rfl rfl hg hexl, traps_priv hr rfl rfl hg hexl⟩,
      fun hg ha => ⟨fun hm => ?msendBarred, fun hm => ?mrecvBarred⟩,
      fun image dmaOk => ⟨fun hg => traps_priv hr rfl rfl hg hexl, fun hg ha hm => ?tackgBarred,
        fun e => ⟨fun hg => traps_priv hr rfl rfl hg hexl, fun hg ha hm => ?engqBarred⟩⟩⟩,
    fun ha hs => ⟨fun hg hm hgood hst hrun => ?msend, fun hg hm => ⟨fun hmail => ?empty, fun m rest hmail => ?mrecv⟩,
      fun image dmaOk hm hgood => ⟨fun hg => ⟨fun hfull => ?full, fun hroom hst => ?refused, fun hroom hst => ?tackg⟩,
        fun hg => ⟨fun e hpos he hst => ?engq, fun hst hrun => ?job⟩⟩⟩,
    fun hg => ⟨fun halive => ?evpost, fun hstopped => ?stopped⟩⟩
  case msendBarred => exact traps_barred hr rfl rfl hg rfl ha hm hexl
  case mrecvBarred => exact traps_barred hr rfl rfl hg rfl ha hm hexl
  case tackgBarred => exact traps_barred hr rfl rfl hg rfl ha hm hexl
  case engqBarred => exact traps_barred hr rfl rfl hg rfl ha hm hexl
  case msend => exact completes_msend hr hg ha hs hm hgood rfl hst hrun
  case empty => exact completes_mrecv_empty hr hg ha hs hm hmail
  case mrecv => exact completes_mrecv hr hg ha hs hm hmail
  case full => exact completes_tackg_full hr ha hs hm hgood hg hfull
  case refused => exact completes_tackg_refused hr ha hs hm hgood hg hroom hst
  case tackg => exact submits_tackg hr ha hs hm hgood hg hroom hst
  case engq => exact submits_engq hr ha hs hm hgood hg hpos he hst
  case job => exact completes_engq_job hr ha hs hm hgood hg hst hrun
  case evpost => exact completes_evpost hr hg halive
  case stopped => exact completes_evpost_stopped hr hg hstopped

end Sys2Proof.Machine

/-! SUPPORT. Waits, and the events that a core takes at an instruction boundary (10 R287, R288, R299, R301, R306, R307, 15 R418). -/

namespace Sys2Proof.Machine

/-! ### DEFERRED (10 R288) -/

section
variable {c a : Nat} {d : Dev}

theorem raiseDeferred_of_none (h : (d.getCore c).deferred = none) : raiseDeferred c d = d := by simp [raiseDeferred, h]

theorem raiseDeferred_of_some (h : (d.getCore c).deferred = some a) : raiseDeferred c d =
    takeExc c cDEFERRED ((d.getCore c).pc.setWidth 64) (BitVec.ofNat 64 a) (d.updCore c (fun k => { k with deferred := none })) := by
  simp [raiseDeferred, h]

end

/-! ### EWAIT (10 R301) -/

section
variable {c rd ra rb flags : Nat} {s : State}

/-- EVPEND after an EWAIT that returns `ev`: with CLR the bits returned are cleared. -/
def evLeft (clr : Bool) (ev pend : DWord) : DWord := if clr = true then pend &&& ~~~ ev else pend

theorem Core.ewaitGive_keeps (ev : DWord) (clr : Bool) (k : Core) : { k with evPend := evLeft clr ev k.evPend }.keeps (k.ewaitGive rd ev clr) :=
  Core.keeps_setReg ..

theorem writesReg_ewaitGive (ev : DWord) (clr : Bool) (g : Core → Core) (d : Dev) :
    WritesReg c rd ev (d.updCore c (fun k => { g k with evPend := evLeft clr ev (g k).evPend }))
      (d.updCore c (fun k => (g k).ewaitGive rd ev clr)) := by
  refine ⟨⟨?_, fun x hx => ?_⟩, ?_⟩
  · rfl
  · rw [Dev.getCore_updCore_ne _ _ _ _ hx, Dev.getCore_updCore_ne _ _ _ _ hx]
  · rw [Dev.getCore_updCore, Dev.getCore_updCore, Core.ewaitGive, evLeft]

section
variable (hr : Ready c s) (hg : Granted (s.dev.getCore c) 5)
include hr hg

theorem completes_ewait (hev : (s.dev.getCore c).events &&& (s.dev.getCore c).reg ra ≠ 0 ∨ bitAt flags 0 = true) :
    let ev := (s.dev.getCore c).events &&& (s.dev.getCore c).reg ra
    Completes (.ewait c rd ra rb flags) c rd ev ((s.dev.getCore c).pc + 4) s
      (s.dev.updCore c (fun k => { k with evPend := evLeft (bitAt flags 1) ev k.evPend })) := by
  intro ev
  have hwrites := writesReg_ewaitGive (c := c) (rd := rd) ev (bitAt flags 1) id s.dev
  have hnow : (decide (ev ≠ 0) || bitAt flags 0) = true := by simpa using hev
  refine (ends_of hr rfl (devOp_of_granted hg) (if_pos hnow) ?_).completes rfl hwrites (by rw [Dev.getCore_updCore])
  rw [Dev.getCore_updCore, Core.ewaitGive, (Core.keeps_setReg ..).run]
  exact hr.2.2.1

/-- Without an event of its mask EWAIT begins to sleep. -/
theorem runs_ewait_sleep (hev : (s.dev.getCore c).events &&& (s.dev.getCore c).reg ra = 0) (hpoll : bitAt flags 0 = false) :
    Runs (.ewait c rd ra rb flags) s (s.dev.updCore c (fun k => coreEdge 8 { k with
      run := .waiting, sleep := some ⟨wordD 12 rd ra rb flags, rd, (k.reg ra).toNat, (k.reg rb).toNat, bitAt flags 1, k.cycle⟩ })) := by
  have hsleep : ¬(decide ((s.dev.getCore c).events &&& (s.dev.getCore c).reg ra ≠ 0) || bitAt flags 0) = true := by simp [hev, hpoll]
  refine runs_of hr.1 rfl ((devOp_of_granted hg).trans ((coreRun_of_ready hr (if_neg hsleep)).trans ?_))
  rw [Dev.getCore_updCore, coreEdge_run, if_neg (by simp)]
  exact updCore_congr rfl

end

section
variable {x : Sleep} (hp : Powered s) (hwait : (s.dev.getCore c).run = .waiting) (hx : (s.dev.getCore c).sleep = some x)
include hp hwait hx

/-- Without an event of its mask, and before its limit, the sleep goes on. -/
theorem runs_ewaitWake_asleep (hev : (s.dev.getCore c).events &&& BitVec.ofNat 64 x.mask = 0)
    (hlim : x.limit = 0 ∨ (s.dev.getCore c).cycle < x.since + x.limit) : Runs (.ewaitWake c) s s.dev := by
  have hpast : x.limit ≠ 0 → ¬x.since + x.limit ≤ (s.dev.getCore c).cycle := fun h0 => Nat.not_le.mpr (hlim.resolve_left h0)
  refine runs_of hp rfl ?_
  simpa [doEwaitWake, hwait, hx, hev] using fun h0 h1 => absurd h1 (hpast h0)

/-- An event of its mask, or its limit, ends the sleep and the EWAIT. -/
theorem ends_ewaitWake (hend : (s.dev.getCore c).events &&& BitVec.ofNat 64 x.mask ≠ 0 ∨ (x.limit ≠ 0 ∧ x.since + x.limit ≤ (s.dev.getCore c).cycle))
    (hdef : (s.dev.getCore c).deferred = none) : Ends (.ewaitWake c) c s { src := 6 }
      (s.dev.updCore c (fun k => k.wake.ewaitGive x.rd ((s.dev.getCore c).events &&& BitVec.ofNat 64 x.mask) x.clr)) := by
  refine ⟨x.word, s.dev.updCore c (fun k => (k.wake.ewaitGive x.rd ((s.dev.getCore c).events &&& BitVec.ofNat 64 x.mask) x.clr).retire x.word { src := 6 }),
    runs_of hp rfl ?runs, ⟨rfl, fun y hy => ?others⟩, ?core⟩
  case runs =>
    have hkept : ((finish c { src := 6 } (s.dev.updCore c (fun k =>
        (k.wake.ewaitGive x.rd ((s.dev.getCore c).events &&& BitVec.ofNat 64 x.mask) x.clr).retire x.word { src := 6 }))).getCore c).deferred = none := by
      rw [finish_next rfl, Dev.getCore_updCore, Dev.getCore_updCore]
      exact ((Core.ewaitGive_keeps ..).trans (Core.retire_keeps ..)).deferred.trans hdef
    simp only [doEwaitWake, hwait, hx, beq_self_eq_true]
    rw [if_pos (by simpa using hend), raiseDeferred_of_none hkept]
  case others => rw [Dev.getCore_updCore_ne _ _ _ _ hy, Dev.getCore_updCore_ne _ _ _ _ hy]
  case core => rw [Dev.getCore_updCore, Dev.getCore_updCore]

theorem completes_ewaitWake (hend : (s.dev.getCore c).events &&& BitVec.ofNat 64 x.mask ≠ 0 ∨ (x.limit ≠ 0 ∧ x.since + x.limit ≤ (s.dev.getCore c).cycle))
    (hdef : (s.dev.getCore c).deferred = none) :
    let ev := (s.dev.getCore c).events &&& BitVec.ofNat 64 x.mask
    Completes (.ewaitWake c) c x.rd ev ((s.dev.getCore c).pc + 4) s (s.dev.updCore c (fun k => { k.wake with evPend := evLeft x.clr ev k.evPend })) := by
  intro ev
  exact (ends_ewaitWake hp hwait hx hend hdef).completes rfl (writesReg_ewaitGive ev x.clr Core.wake s.dev) (by rw [Dev.getCore_updCore]; rfl)

end
end

/-- Settles O33: an EWAIT goes by the pending events of its mask and by POLL; a sleep by the events of its mask and by its limit. -/
theorem eventWaits : Obligations.EventWaits := by
  unfold Obligations.EventWaits
  intro s c
  refine ⟨fun rd ra rb flags hr => ⟨fun hg hexl => ?priv, fun hg hev => ?gives, fun hg hev hpoll => ?sleeps⟩,
    fun hp x hwait hx => ⟨fun hev hlim => ?asleep, fun hend hdef => ?wakes⟩⟩
  case priv => exact traps_priv hr rfl rfl hg hexl
  case gives => exact completes_ewait hr hg hev
  case sleeps => exact runs_ewait_sleep hr hg hev hpoll
  case asleep => exact runs_ewaitWake_asleep hp hwait hx hev hlim
  case wakes => exact completes_ewaitWake hp hwait hx hend hdef

/-! ### The timer, failed stores, completions, samples and self-tests (10 R287, R288, R299, R307, 15 R418) -/

section
variable {c : Nat} {s : State} (hp : Powered s)
include hp

theorem runs_timer_early (hdue : (s.dev.getCore c).timerDue = false) : Runs (.timerException c) s s.dev :=
  runs_of hp rfl (by simp [doTimer, hdue])

theorem traps_timer (hdue : (s.dev.getCore c).timerDue = true) (hrun : (s.dev.getCore c).run = .running ∨ (s.dev.getCore c).run = .waiting)
    (hdef : (s.dev.getCore c).deferred = none) : Traps (.timerException c) c cTIMER ((s.dev.getCore c).pc.setWidth 64) 0 s s.dev := by
  have hat : ((s.dev.getCore c).run == .running || (s.dev.getCore c).run == .waiting) = true := by simpa using hrun
  have hexl : (s.dev.getCore c).exl = false := by
    simp only [Core.timerDue, Bool.and_eq_true, Bool.not_eq_true'] at hdue
    obtain ⟨⟨-, hexl⟩, -⟩ := hdue
    exact hexl
  refine traps_of_takeExc (d := s.dev.updCore c Core.wake) (runs_of hp rfl ?_) (onlyCore_updCore ..) ?_ hexl
  · simp [doTimer, hat, hdue, hdef]
  · rw [Dev.getCore_updCore]
    rfl

/-- A failed posted store raises DEFERRED at the boundary that the core stands at. -/
theorem traps_deferredFail {addr : Nat} (hrun : (s.dev.getCore c).run = .running) (hexl : (s.dev.getCore c).exl = false)
    (hdef : (s.dev.getCore c).deferred = none) :
    Traps (.deferredStoreFail c addr) c cDEFERRED ((s.dev.getCore c).pc.setWidth 64) (BitVec.ofNat 64 addr) s s.dev := by
  have hnow : doDeferredFail c addr s.dev = raiseDeferred c (s.dev.updCore c (fun k => { k with deferred := some (k.deferred.getD addr) })) := by
    simp [doDeferredFail, coreAlive, hrun]
  have hraise := raiseDeferred_of_some (c := c) (a := addr) (d := s.dev.updCore c (fun k => { k with deferred := some (k.deferred.getD addr) }))
    (by rw [Dev.getCore_updCore, hdef]; rfl)
  rw [Dev.getCore_updCore] at hraise
  refine traps_of_takeExc (runs_of hp rfl (hnow.trans hraise)) ((onlyCore_updCore ..).trans (onlyCore_updCore ..)) ?_ hexl
  rw [Dev.getCore_updCore, Dev.getCore_updCore]
  rfl

/-- In an EWAIT that sleeps, DEFERRED waits for its end. -/
theorem runs_deferredFail_waiting {addr : Nat} (hrun : (s.dev.getCore c).run = .waiting) : Runs (.deferredStoreFail c addr) s
    (s.dev.updCore c (fun k => { k with deferred := some (k.deferred.getD addr) })) :=
  runs_of hp rfl (by simp [doDeferredFail, coreAlive, hrun])

section
variable {m : Message} {rest : List Message} (hheld : (s.dev.getCore c).held = m :: rest)
include hheld

theorem runs_completionDeliver (halive : coreAlive (s.dev.getCore c) = true) (hroom : (s.dev.getCore c).mailbox.length < 64) :
    Runs (.completionDeliver c) s (s.dev.updCore c (fun k => { k.countDelivery m with held := rest, mailbox := k.mailbox ++ [m] })) :=
  runs_of hp rfl (by simp [doCompletionDeliver, hheld, halive, hroom])

theorem runs_completionDeliver_full (hfull : 64 ≤ (s.dev.getCore c).mailbox.length) : Runs (.completionDeliver c) s s.dev :=
  runs_of hp rfl (by simp [doCompletionDeliver, hheld, Nat.not_lt.mpr hfull])

end

section
variable {latency flags : Nat}

theorem runs_sampleTake_none (hhit : (s.dev.getCore c).smpHit = false) : Runs (.sampleTake c latency flags) s s.dev :=
  runs_of hp rfl (by simp [doSampleTake, hhit])

theorem runs_sampleTake (hhit : (s.dev.getCore c).smpHit = true) : Runs (.sampleTake c latency flags) s
    (drawJitter c (s.dev.updCore c (fun k => { k.keepSample (sampleBytes c latency flags k) with
      smpCount := k.smpCount - k.period, smpSeq := (k.smpSeq + 1) % 2 ^ 24, smpHit := false }))) :=
  runs_of hp rfl (by simp [doSampleTake, hhit])

end

section
variable (htest : s.dev.flt.coreTest.contains c = true)
include htest

theorem runs_coreSelftest_failed : Runs (.coreSelftestComplete c false) s (coreRetire c 3 s.dev) :=
  runs_of hp rfl (by simp only [doCoreTest, htest]; rfl)

/-- A core that passes its test is halted. -/
theorem runs_coreSelftest_passed (hstopped : coreAlive (s.dev.getCore c) = false) : Runs (.coreSelftestComplete c true) s (transientUnit 3 c 3
    (({ s.dev with flt := { s.dev.flt with coreTest := s.dev.flt.coreTest.filter (fun x => x != c) } } : Dev).updCore c
      (fun k => { k with run := .halted }))) := by
  refine runs_of hp rfl ?_
  simp only [doCoreTest, htest]
  exact congrArg (transientUnit 3 c 3) (updCore_congr (if_neg (ne_true_of_eq_false hstopped)))

end
end

/-- Settles O34: TIMER goes by its due time, DEFERRED by what the core does, a completion by the mailbox's room, a sample by its record, a self-test
by its result. -/
theorem coreEvents : Obligations.CoreEvents := by
  unfold Obligations.CoreEvents
  intro s c hp
  refine ⟨fun hdue => ?early, fun hdue hrun hdef => ?timer, fun addr hrun hexl hdef => ?deferred, fun addr hrun => ?waits,
    fun m rest hheld => ⟨fun halive hroom => ?delivered, fun hfull => ?full⟩, fun latency flags => ⟨fun hhit => ?noSample, fun hhit => ?sample⟩,
    fun htest => ⟨?failed, fun hstopped => ?passed⟩⟩
  case early => exact runs_timer_early hp hdue
  case timer => exact traps_timer hp hdue hrun hdef
  case deferred => exact traps_deferredFail hp hrun hexl hdef
  case waits => exact runs_deferredFail_waiting hp hrun
  case delivered => exact runs_completionDeliver hp hheld halive hroom
  case full => exact runs_completionDeliver_full hp hheld hfull
  case noSample => exact runs_sampleTake_none hp hhit
  case sample => exact runs_sampleTake hp hhit
  case failed => exact runs_coreSelftest_failed hp htest
  case passed => exact runs_coreSelftest_passed hp htest hstopped

end Sys2Proof.Machine

/-! SUPPORT. The cell pool: its bobbins and quotas, and U under grants, moves and releases (11 R314 to R316, Tables 11-3 and 11-4). -/

namespace Sys2Proof.Machine

/-! ### Bobbins (11 R316) -/

theorem bobLow_le_bobHigh (q : Nat) : bobLow q ≤ bobHigh q := by unfold bobLow bobHigh; split <;> decide

section
variable {q : Nat} {d : Dev}

theorem doRefill_of_low (hq : q < 0xC0) (hlow : d.bpm.bobOf q < bobLow q) (hroom : d.bpm.used + (bobTarget q - d.bpm.bobOf q) ≤ d.bpm.shared) :
    doRefill q d = { d with bpm := { d.bpm with bob := Tab.set 0 d.bpm.bob q (bobTarget q) } } := by simp [doRefill, hq, hlow, hroom]

theorem doRefill_of_filled (h : bobLow q ≤ d.bpm.bobOf q) : doRefill q d = d := by simp [doRefill, Nat.not_lt.mpr h]

theorem doSpill_of_high (hq : q < 0xC0) (h : bobHigh q < d.bpm.bobOf q) :
    doSpill q d = { d with bpm := { d.bpm with bob := Tab.set 0 d.bpm.bob q (bobTarget q) } } := by simp [doSpill, hq, h]

theorem doSpill_of_not_high (h : d.bpm.bobOf q ≤ bobHigh q) : doSpill q d = d := by simp [doSpill, Nat.not_lt.mpr h]

end

/-- An update of every listed entry of a table, each listed once. -/
theorem Tab.get_foldl_upd {α : Type} [DecidableEq α] (x : α) (f : Nat → α → α) (l : List Nat) (hl : l.Nodup) (t : Tab α) (i : Nat) :
    Tab.get x (l.foldl (fun t q => Tab.upd x t q (f q)) t) i = if i ∈ l then f i (Tab.get x t i) else Tab.get x t i := by
  induction l generalizing t with
  | nil => rfl
  | cons q l ih =>
    obtain ⟨hq, hl⟩ := List.nodup_cons.mp hl
    rw [List.foldl_cons, ih hl]
    by_cases h : i = q
    · subst h; simp [hq]
    · simp [h, Tab.get_upd_ne x t q i (f q) h]

theorem mem_requesters {q : Nat} : q ∈ requesters ↔ q < 0xC0 := List.mem_range

/-- With little room left in the pool every bobbin is brought down to its low mark. -/
theorem doSpillAll_of_tight {d : Dev} (h : d.bpm.shared - d.bpm.used < 4096) :
    doSpillAll d = { d with bpm := { d.bpm with bob := requesters.foldl (fun t q => Tab.upd 0 t q (fun n => Nat.min n (bobLow q))) d.bpm.bob } } :=
  if_pos h

theorem bobOf_doSpillAll {d : Dev} (h : d.bpm.shared - d.bpm.used < 4096) {q : Nat} (hq : q < 0xC0) :
    (doSpillAll d).bpm.bobOf q = Nat.min (d.bpm.bobOf q) (bobLow q) := by
  rw [doSpillAll_of_tight h, Bpm.bobOf, Tab.get_foldl_upd 0 (fun q n => Nat.min n (bobLow q)) requesters List.nodup_range,
    if_pos (mem_requesters.mpr hq), Bpm.bobOf]

/-! ### Quotas (11 R315) -/

section
variable {fixed : Bool} {f : Bpm → Bpm} {d : Dev}

/-- The written quota keeps the pool sound and lies in its requester's range. -/
abbrev QuotaSound (x : Bpm) : Prop :=
  poolSound x = true ∧ x.minOf x.qsel ≤ x.capOf x.qsel ∧ quotaRange x.qsel (x.minOf x.qsel) (x.capOf x.qsel) = true

variable (hsel : (f d.bpm).qsel = d.bpm.qsel)
include hsel

theorem quotaWrite_of_sound (hfix : fixed = false) (h : QuotaSound (f d.bpm)) : quotaWrite fixed f d = { d with bpm := f d.bpm } := by
  obtain ⟨hpool, hle, hrange⟩ := h
  rw [hsel] at hle hrange
  simp [quotaWrite, hfix, hpool, hrange, Nat.not_lt.mpr hle]

theorem quotaWrite_of_refused (h : fixed = true ∨ ¬QuotaSound (f d.bpm)) : quotaWrite fixed f d = quotaRefused d := by
  refine if_pos ?_
  obtain hfix | h := h
  · simp [hfix]
  · rw [QuotaSound, hsel] at h
    by_cases hpool : poolSound (f d.bpm) = true
    · by_cases hle : (f d.bpm).minOf d.bpm.qsel ≤ (f d.bpm).capOf d.bpm.qsel
      · have hrange := Bool.eq_false_iff.mpr fun hr => h ⟨hpool, hle, hr⟩
        simp [hrange]
      · simp [Nat.not_le.mp hle]
    · simp [hpool]

end

/-- A field from bit 0 holds a number that fits it. -/
theorem fld_low_of_lt {v hi : Nat} (h : v < 2 ^ (hi + 1)) : fld v hi 0 = v := by simpa [fld] using Nat.mod_eq_of_lt h

/-- Settles O35: a bobbin goes by its marks, a quota by whether what it would leave is sound. -/
theorem poolSteps : Obligations.PoolSteps := by
  unfold Obligations.PoolSteps
  refine fun s hp => ⟨fun q hq => ⟨?refill, ?filled, ?spill, ?kept⟩, fun h => ?spillAll, fun v hopen => ⟨?select, ?noRequester⟩, fun v hv hopen => ?quota⟩
  case refill => exact fun hlow hroom => runs_of hp rfl (doRefill_of_low hq hlow hroom)
  case filled => exact fun h => runs_of hp rfl (doRefill_of_filled h)
  case spill => exact fun h => runs_of hp rfl (doSpill_of_high hq h)
  case kept => exact fun h => runs_of hp rfl (doSpill_of_not_high h)
  case spillAll =>
    refine ⟨doSpillAll s.dev, runs_of hp rfl rfl, fun q hq => bobOf_doSpillAll h hq, ?_⟩
    rw [doSpillAll_of_tight h]
  case select => exact fun h => runs_doneReg_of_open hp hopen rfl (if_pos h)
  case noRequester => exact fun h => runs_doneReg_of_open hp hopen rfl (if_neg (Nat.not_lt.mpr h))
  case quota =>
    have hfld : fld v 17 0 = v := fld_low_of_lt hv
    refine ⟨fun hfix h => ?minTaken, fun h => ?minRefused, fun hfix h => ?capTaken, fun h => ?capRefused⟩
    all_goals refine runs_doneReg_of_open hp hopen rfl ?_
    case minTaken => rw [qminWrite, hfld]; exact quotaWrite_of_sound rfl hfix h
    case minRefused => rw [qminWrite, hfld]; exact quotaWrite_of_refused rfl h
    case capTaken => rw [qcapWrite, hfld]; exact quotaWrite_of_sound rfl hfix h
    case capRefused => rw [qcapWrite, hfld]; exact quotaWrite_of_refused rfl h

/-! ### U and the ring (11 R314) -/

/-- A sum over the requesters of which one requester's share changes. -/
theorem sum_requesters_change {f g : Nat → Nat} {q : Nat} (hq : q < 0xC0) (h : ∀ x, x ≠ q → g x = f x) :
    (requesters.map g).sum + f q = (requesters.map f).sum + g q := by
  have hmem : q ∈ Finset.range 0xC0 := Finset.mem_range.mpr hq
  have hrest : ∑ x ∈ (Finset.range 0xC0).erase q, g x = ∑ x ∈ (Finset.range 0xC0).erase q, f x :=
    Finset.sum_congr rfl fun x hx => h x (Finset.ne_of_mem_erase hx)
  change ∑ x ∈ Finset.range 0xC0, g x + f q = ∑ x ∈ Finset.range 0xC0, f x + g q
  rw [← Finset.add_sum_erase _ g hmem, ← Finset.add_sum_erase _ f hmem, hrest]
  omega

/-- The count of requester `q` changes by `f`. -/
def Bpm.updCnt (q : Nat) (f : Nat → Nat) (b : Bpm) : Bpm := { b with count := Tab.upd 0 b.count q f }

/-- The bobbin of requester `q` changes by `f`. -/
def Bpm.updBob (q : Nat) (f : Nat → Nat) (b : Bpm) : Bpm := { b with bob := Tab.upd 0 b.bob q f }

section
variable {b b' : Bpm} {q r : Nat} {f : Nat → Nat}

@[simp] theorem Bpm.minOf_updCnt (x : Nat) : (b.updCnt q f).minOf x = b.minOf x := rfl
@[simp] theorem Bpm.minOf_updBob (x : Nat) : (b.updBob q f).minOf x = b.minOf x := rfl
@[simp] theorem Bpm.capOf_updCnt (x : Nat) : (b.updCnt q f).capOf x = b.capOf x := rfl
@[simp] theorem Bpm.capOf_updBob (x : Nat) : (b.updBob q f).capOf x = b.capOf x := rfl
@[simp] theorem Bpm.bobOf_updCnt (x : Nat) : (b.updCnt q f).bobOf x = b.bobOf x := rfl
@[simp] theorem Bpm.cnt_updBob (x : Nat) : (b.updBob q f).cnt x = b.cnt x := rfl
@[simp] theorem Bpm.shared_updCnt : (b.updCnt q f).shared = b.shared := rfl
@[simp] theorem Bpm.shared_updBob : (b.updBob q f).shared = b.shared := rfl
@[simp] theorem Bpm.cnt_updCnt : (b.updCnt q f).cnt q = f (b.cnt q) := Tab.get_upd_same ..

theorem Bpm.cnt_updCnt_ne {x : Nat} (h : x ≠ q) : (b.updCnt q f).cnt x = b.cnt x := Tab.get_upd_ne 0 b.count q x f h

@[simp] theorem Bpm.bobOf_updBob : (b.updBob q f).bobOf q = f (b.bobOf q) := Tab.get_upd_same ..

theorem Bpm.bobOf_updBob_ne {x : Nat} (h : x ≠ q) : (b.updBob q f).bobOf x = b.bobOf x := Tab.get_upd_ne 0 b.bob q x f h

/-- U counts what a requester holds beyond its minimum. -/
theorem Bpm.used_updCnt (hq : q < 0xC0) (b : Bpm) (f : Nat → Nat) :
    (b.updCnt q f).used + (b.cnt q - b.minOf q) = b.used + (f (b.cnt q) - b.minOf q) := by
  have h := sum_requesters_change (f := fun x => b.cnt x - b.minOf x + b.bobOf x)
    (g := fun x => (b.updCnt q f).cnt x - b.minOf x + b.bobOf x) hq fun x hx => by simp only [Bpm.cnt_updCnt_ne hx]
  rw [Bpm.cnt_updCnt] at h
  change (b.updCnt q f).used + (b.cnt q - b.minOf q + b.bobOf q) = b.used + (f (b.cnt q) - b.minOf q + b.bobOf q) at h
  omega

/-- U counts the cells of every bobbin. -/
theorem Bpm.used_updBob (hq : q < 0xC0) (b : Bpm) (f : Nat → Nat) : (b.updBob q f).used + b.bobOf q = b.used + f (b.bobOf q) := by
  have h := sum_requesters_change (f := fun x => b.cnt x - b.minOf x + b.bobOf x)
    (g := fun x => b.cnt x - b.minOf x + (b.updBob q f).bobOf x) hq fun x hx => by simp only [Bpm.bobOf_updBob_ne hx]
  rw [Bpm.bobOf_updBob] at h
  change (b.updBob q f).used + (b.cnt q - b.minOf q + b.bobOf q) = b.used + (b.cnt q - b.minOf q + f (b.bobOf q)) at h
  omega

/-- A grant that is given takes a cell of the bobbin, of the minimum, or of the room that U leaves. -/
theorem Bpm.grant_eq_some (h : b.grant q = some b') :
    b.cnt q < b.capOf q ∧ (b.minOf q ≤ b.cnt q → b.bobOf q = 0 → b.used < b.shared) ∧ b' = (b.updBob q (· - 1)).updCnt q (· + 1) := by
  simp only [Bpm.grant, Option.ite_none_left_eq_some, Option.some.injEq, Bool.and_eq_true, decide_eq_true_eq, beq_iff_eq] at h
  obtain ⟨hcap, hroom, rfl⟩ := h
  exact ⟨by omega, fun hmin hbob => by omega, rfl⟩

/-- A move that is made finds its taker below the cap, and leaves U as it is or finds room in it. -/
theorem Bpm.move_eq_some (h : b.move r q = some b') :
    b.cnt q < b.capOf q ∧ (b.minOf q ≤ b.cnt q → b.cnt r ≤ b.minOf r → b.used < b.shared) ∧ b' = (b.updCnt r (· - 1)).updCnt q (· + 1) := by
  simp only [Bpm.move, Option.ite_none_left_eq_some, Option.some.injEq, Bool.and_eq_true, Bool.not_eq_true', decide_eq_true_eq,
    decide_eq_false_iff_not] at h
  obtain ⟨hcap, hroom, rfl⟩ := h
  exact ⟨by omega, fun hmin habv => by omega, rfl⟩

/-- A released cell leaves the pool's count, and enters the releaser's bobbin where U has room for it. -/
theorem Bpm.release_cases : b.release r q = b.updCnt q (· - 1) ∨
    ((b.minOf q ≤ b.cnt q - 1 ∨ b.used < b.shared) ∧ b.release r q = (b.updCnt q (· - 1)).updBob r (· + 1)) := by
  unfold Bpm.release
  dsimp only
  split
  next h =>
    simp only [Bool.and_eq_true, Bool.or_eq_true, decide_eq_true_eq] at h
    refine .inr ⟨h.2.imp_left fun hc => ?_, rfl⟩
    exact (show b.cnt q - 1 = _ from (Bpm.cnt_updCnt (b := b) (f := (· - 1))).symm) ▸ hc
  next => exact .inl rfl

theorem Bpm.used_grant (hq : q < 0xC0) (hu : b.used ≤ b.shared) (h : b.grant q = some b') :
    b'.used ≤ b'.shared ∧ b'.cnt q = b.cnt q + 1 ∧ b'.cnt q ≤ b'.capOf q ∧ b'.shared = b.shared := by
  obtain ⟨hcap, hroom, rfl⟩ := Bpm.grant_eq_some h
  have hcnt := Bpm.used_updCnt hq (b.updBob q (· - 1)) (· + 1)
  have hbob := Bpm.used_updBob hq b (· - 1)
  simp only [Bpm.cnt_updBob, Bpm.minOf_updBob] at hcnt
  simp only [Bpm.shared_updCnt, Bpm.shared_updBob, Bpm.cnt_updCnt, Bpm.cnt_updBob, Bpm.capOf_updCnt, Bpm.capOf_updBob, and_true, true_and]
  omega

theorem Bpm.ring_updCnt_move (hq : q < 0xC0) (hr : r < 0xC0) (hne : r ≠ q) (h0 : 0 < b.cnt r) :
    ((b.updCnt r (· - 1)).updCnt q (· + 1)).ring = b.ring := by
  have hfrom := sum_requesters_change (f := fun x => b.cnt x + b.bobOf x) (g := fun x => (b.updCnt r (· - 1)).cnt x + b.bobOf x) hr
    fun x hx => by simp only [Bpm.cnt_updCnt_ne hx]
  have hto := sum_requesters_change (f := fun x => (b.updCnt r (· - 1)).cnt x + b.bobOf x)
    (g := fun x => ((b.updCnt r (· - 1)).updCnt q (· + 1)).cnt x + b.bobOf x) hq fun x hx => by simp only [Bpm.cnt_updCnt_ne hx]
  simp only [Bpm.cnt_updCnt, Bpm.cnt_updCnt_ne hne.symm] at hfrom hto
  unfold Bpm.ring
  simp only [Bpm.bobOf_updCnt]
  omega

theorem Bpm.used_move (hq : q < 0xC0) (hr : r < 0xC0) (hne : r ≠ q) (h0 : 0 < b.cnt r) (hu : b.used ≤ b.shared) (h : b.move r q = some b') :
    b'.used ≤ b'.shared ∧ b'.cnt q = b.cnt q + 1 ∧ b'.cnt r + 1 = b.cnt r ∧ b'.cnt q ≤ b'.capOf q ∧ b'.ring = b.ring := by
  obtain ⟨hcap, hroom, rfl⟩ := Bpm.move_eq_some h
  have hto := Bpm.used_updCnt hq (b.updCnt r (· - 1)) (· + 1)
  have hfrom := Bpm.used_updCnt hr b (· - 1)
  simp only [Bpm.cnt_updCnt_ne hne.symm, Bpm.minOf_updCnt] at hto
  refine ⟨?_, ?_, ?_, ?_, Bpm.ring_updCnt_move hq hr hne h0⟩
  all_goals simp only [Bpm.shared_updCnt, Bpm.cnt_updCnt, Bpm.cnt_updCnt_ne hne, Bpm.cnt_updCnt_ne hne.symm, Bpm.capOf_updCnt]
  all_goals omega

theorem Bpm.used_release (hq : q < 0xC0) (hr : r < 0xC0) (h0 : 0 < b.cnt q) (hu : b.used ≤ b.shared) :
    (b.release r q).used ≤ (b.release r q).shared ∧ (b.release r q).cnt q + 1 = b.cnt q := by
  have hcnt := Bpm.used_updCnt hq b (· - 1)
  obtain h | ⟨hroom, h⟩ := Bpm.release_cases (b := b) (r := r) (q := q)
  · rw [h, Bpm.shared_updCnt, Bpm.cnt_updCnt]
    omega
  · have hbob := Bpm.used_updBob hr (b.updCnt q (· - 1)) (· + 1)
    rw [h, Bpm.shared_updBob, Bpm.shared_updCnt, Bpm.cnt_updBob, Bpm.cnt_updCnt]
    omega

end

/-- Settles O36: a cell that U counts anew has found room, and every other change of the counts leaves U or lowers it. -/
theorem usedWithinShared : Obligations.UsedWithinShared := by
  unfold Obligations.UsedWithinShared
  intro b hu
  refine ⟨fun q b' hq h => ?grant, fun r q b' hq hr hne h0 h => ?move, fun r q hq hr h0 => ?release⟩
  case grant => exact Bpm.used_grant hq hu h
  case move => exact Bpm.used_move hq hr hne h0 hu h
  case release => exact Bpm.used_release hq hr h0 hu

end Sys2Proof.Machine

/-! SUPPORT. DDR5 and its protection: training, scrubbing and clearing, the locked registers, initialisation and re-provisioning, and what the MEC
makes of a sector that it opens or writes (05 R157; 11 R322 to R337; 16 R448). -/

namespace Sys2Proof.Machine

/-- A row that writes a register outside GLB and MOD, and leaves the device as it is. -/
theorem runs_doneReg_of_same {i : Instr} {s : State} {f : Dev → Dev} (hp : Powered s) (hx : exec i s = doneReg s f) (h : f s.dev = s.dev) :
    Runs i s s.dev := runs_of hp hx (by rw [h, ite_self])

/-- A table without the entries of some indices. -/
theorem Tab.get_filter_index {α : Type} (x : α) (p : Nat → Bool) (t : Tab α) (i : Nat) :
    Tab.get x (t.filter (fun e => p e.1)) i = if p i = true then Tab.get x t i else x := by
  induction t with
  | nil => simp
  | cons e t ih =>
    obtain ⟨k, v⟩ := e
    by_cases hk : p k = true
    · by_cases h : i = k
      · subst h; simp [Tab.get, hk]
      · simp [Tab.get, hk, h, ih]
    · by_cases h : i = k
      · subst h; simp [hk, ih]
      · simp [Tab.get, hk, h, ih]

/-! ### Training (11 R322) -/

section
variable {rate gibs failMap : Nat} {d : Dev} (ht : d.mem.trained = false) (hf : d.mem.fail = false)
include ht hf

theorem doTrain_of_full (hr : rate = 0) :
    doTrain rate gibs failMap true d = { d with mem := { d.mem with trained := true, rate := rate, dimmGib := gibs % 256 } } := by
  simp [doTrain, ht, hf, hr]

theorem doTrain_of_lower (h0 : 0 < rate) (h3 : rate < 3) : doTrain rate gibs failMap true d =
    event 0x0B08 2 (be 1 rate ++ be 1 failMap) { d with mem := { d.mem with trained := true, rate := rate, dimmGib := gibs % 256 } } := by
  simp [doTrain, ht, hf, Nat.not_le.mpr h3, Nat.ne_of_gt h0]

theorem doTrain_of_failed :
    doTrain rate gibs failMap false d = event 0x0B08 3 (be 1 3 ++ be 1 failMap) { d with mem := { d.mem with fail := true } } := by
  simp [doTrain, ht, hf]

end

/-! ### The scrubber (11 R323) -/

theorem protSize_le_metaEnd (d : Dev) : protSize d ≤ metaEnd d := by unfold metaEnd; omega

section
variable {addr : Nat} {d : Dev} (hb : ddrBase ≤ addr) (hi : addr - ddrBase < ddrInstalled d) (hm : metaEnd d ≤ addr - ddrBase)
include hb hi hm

/-- Above the metadata a scrub counts what it corrects, and records what it cannot. -/
theorem doScrub_above (corrected uncorr : Bool) : doScrub addr corrected uncorr d =
    let e := when_ corrected (Dev.updMem (fun m => { m with ceCnt := bump m.ceCnt (addr / 256 % 4) 1 })) d
    if uncorr = true then event 0x0B04 2 (be 1 (addr / 256 % 4) ++ be 6 addr)
      (markBad 100 0 (addr - ddrBase) (e.updMem (fun m => { m with ueCnt := bump m.ueCnt (addr / 256 % 4) 1 }))) else e := by
  have hoff : offFrom ddrBase addr = addr - ddrBase := by unfold offFrom; omega
  have hprot : ¬addr - ddrBase < protSize d := Nat.not_lt.mpr ((protSize_le_metaEnd d).trans hm)
  cases uncorr <;> simp [doScrub, hoff, hprot, Nat.not_lt.mpr hb, Nat.not_le.mpr hi, Nat.not_lt.mpr hm, when_]

end

/-! ### Clearing (11 R337) -/

section
variable {d : Dev}

theorem doMemClearDone_of_idle (h : d.mem.clearBusy = false) : doMemClearDone d = d := by simp [doMemClearDone, h]

theorem doMemClearDone_of_busy (h : d.mem.clearBusy = true) : doMemClearDone d =
    { d with mem := { d.mem with clearBusy := false, clearDone := true, ddr := d.mem.ddr.filter (fun e => decide (e.1 < metaEnd d)) }
             flt := { d.flt with bad := d.flt.bad.filter (fun b => !(b.1 == 100 && decide (metaEnd d ≤ b.2.2))) } } := by
  simp [doMemClearDone, h]

theorem memClearWrite_go_of_ready (hb : d.mem.clearBusy = false) (hr : d.mem.ready = true) :
    memClearWrite 1 d = { d with mem := { d.mem with clearBusy := true } } := by simp [memClearWrite, bitAt, hb, hr]

theorem memClearWrite_go_of_unready (hr : d.mem.ready = false) : memClearWrite 1 d = d := by simp [memClearWrite, bitAt, hr]

theorem memClearWrite_done : memClearWrite 4 d = { d with mem := { d.mem with clearDone := false } } := by simp [memClearWrite, bitAt]

end

/-! ### SAS_COLDCFG and MEC_CFG (05 R157, 11 R325) -/

/-- The top bit of a register word. -/
theorem bitAt_31_of_lt {v : Nat} (h : v < 2 ^ 31) : bitAt v 31 = false := by
  rw [bitAt, Nat.div_eq_of_lt h]
  rfl

theorem bitAt_31_add {v : Nat} (h : v < 2 ^ 31) : bitAt (2 ^ 31 + v) 31 = true := by
  rw [bitAt, Nat.add_div_left v (by decide), Nat.div_eq_of_lt h]
  rfl

/-- A low field of a register word does not see the top bit. -/
theorem fld_add_top {v hi : Nat} (hi30 : hi < 31) : fld (2 ^ 31 + v) hi 0 = fld v hi 0 := by
  have hdvd : 2 ^ (hi + 1) ∣ 2 ^ 31 := Nat.pow_dvd_pow 2 (by omega)
  obtain ⟨k, hk⟩ := hdvd
  simp only [fld, Nat.pow_zero, Nat.div_one, Nat.sub_zero]
  rw [hk, Nat.mul_add_mod]

section
variable {v n : Nat} {d : Dev}

theorem coldCfgWrite_of_locked (h : d.sas.coldLock = true) : coldCfgWrite v d = d := by simp [coldCfgWrite, h]

theorem mecCfgWrite_of_locked (h : d.mem.lock = true) : mecCfgWrite v d = d := by simp [mecCfgWrite, h]

theorem coldCfgWrite_size (hv : v < 2 ^ 31) (h : d.sas.coldLock = false) :
    coldCfgWrite v d = { d with sas := { d.sas with coldSize := fld v 10 0, coldLock := false } } := by
  simp [coldCfgWrite, h, bitAt_31_of_lt hv]

theorem coldCfgWrite_lock (hsize : fld v 10 0 = n) (hb : bitAt v 31 = true) (hn : n ≤ 1024) (h : d.sas.coldLock = false)
    (hr : d.mem.ready = true) (hfit : d.sas.coldBase + 262144 * n ≤ protSize d) :
    coldCfgWrite v d = { d with sas := { d.sas with coldSize := n, coldLock := true } } := by
  have hmin : Nat.min 1024 n = n := Nat.min_eq_right hn
  have hfit' : d.sas.coldBase + 256 * (1024 * n) ≤ d.mem.psize * gib := by unfold protSize at hfit; omega
  simp [coldCfgWrite, h, hsize, hb, hr, coldCount, hmin, protSize, hfit']

theorem mecCfgWrite_size (hv : v < 2 ^ 31) (h : d.mem.lock = false) (h1 : 1 ≤ fld v 6 0) (h64 : fld v 6 0 ≤ 64) :
    mecCfgWrite v d = { d with mem := { d.mem with psize := fld v 6 0 } } := by
  simp [mecCfgWrite, h, bitAt_31_of_lt hv, h1, h64]

section
variable (hsize : fld v 6 0 = n) (hb : bitAt v 31 = true) (h1 : 1 ≤ n) (h64 : n ≤ 64) (h : d.mem.lock = false) (ht : d.mem.trained = true) (hf : d.mem.fail = false)
include hsize hb h1 h64 h ht hf

/-- LOCK is taken over a region that, with its metadata, fits the memory installed, and is an error over another. -/
theorem mecCfgWrite_lock : mecCfgWrite v d =
    if 17 * (n * gib) / 16 ≤ 4 * d.mem.dimmGib * gib then { d with mem := { d.mem with psize := n, lock := true } }
    else { d with mem := { d.mem with psize := n, cfgErr := true } } := by
  have hp : (if 1 ≤ n ∧ n ≤ 64 then n else d.mem.psize) = n := if_pos ⟨h1, h64⟩
  by_cases hfit : 17 * (n * gib) / 16 ≤ 4 * d.mem.dimmGib * gib
  · simp [mecCfgWrite, h, hsize, hb, hp, metaEnd, protSize, ddrInstalled, hf, ht, hfit]
  · simp [mecCfgWrite, h, hsize, hb, hp, metaEnd, protSize, ddrInstalled, hf, ht, Nat.not_le.mp hfit, hfit]

end
end

/-! ### Initialisation and re-provisioning (11 R325, R334) -/

section
variable {d : Dev}

theorem doMecInit_of_lock (hl : d.mem.lock = true) (hr : d.mem.ready = false) (hk : d.keys.kwrValid = true) :
    doMecInit d = prfCount 16 none (protSize d / 512)
      { d with
        fresh := d.fresh + 1
        mem := { d.mem with ready := true, ddr := d.mem.ddr.filter (fun e => decide (protSize d ≤ e.1)),
                            writes := sat64 (d.mem.writes + protSize d / 512 + Config.freeNat d.fresh),
                            provs := [], rises := [], root := [], cache := [], alien := [] }
        flt := { d.flt with bad := d.flt.bad.filter (fun b => !(b.1 == 101 || (b.1 == 100 && decide (b.2.2 < metaEnd d)))) } } := by
  simp [doMecInit, hl, hr, hk, freeNat, protSize, metaEnd]

theorem reprovWrite_of_noGo {v : Nat} (h : bitAt v 31 = false) : reprovWrite v d = d := by simp [reprovWrite, h]

theorem reprovWrite_of_refused {v : Nat} (h : bitAt v 31 = true) (hr : reprovRefuse (fld v 30 27) (fld v 26 0) d = true) :
    reprovWrite v d = { d with mem := { d.mem with reprovRefused := true } } := by simp [reprovWrite, h, hr]

theorem reprovWrite_of_go {v : Nat} (h : bitAt v 31 = true) (hr : reprovRefuse (fld v 30 27) (fld v 26 0) d = false) :
    reprovWrite v d = { d with mem := { d.mem with reprov := some (fld v 30 27, fld v 26 0), reprovBusy := true } } := by
  simp [reprovWrite, h, hr]

theorem doReprovDone_of_none (h : d.mem.reprov = none) : doReprovDone d = d := by simp [doReprovDone, h]

end

/-- The sectors of a subtree, and the first of them. -/
def reprovSpan (level : Nat) (d : Dev) : Nat := if level = 15 then protSize d / 512 else 8 ^ level
def reprovFirst (level index : Nat) (d : Dev) : Nat := if level = 15 then 0 else index * reprovSpan level d

/-- A re-provisioned range, before its counter changes in its parent. -/
def reprovRange (level index : Nat) (d : Dev) : Dev :=
  ((reprovBad level index (freeNat d).2).updSas (fun x => { x with cold := x.cold.filter (fun e => !coldInRange level index e.1 (freeNat d).2) })).updMem
    (fun m => { reprovTree level index (m.writes + 1) m with
      ddr := m.ddr.filter (fun e => !(decide (e.1 < protSize d) && decide (reprovFirst level index d ≤ e.1 / 512) &&
        decide (e.1 / 512 < reprovFirst level index d + reprovSpan level d)))
      doubts := m.doubts.filter (fun x => !inside level index x)
      rootDoubt := m.rootDoubt && level != 15
      writes := sat64 (m.writes + Nat.min (reprovSpan level d) (protSize d / 512 - reprovFirst level index d) + (freeNat d).1)
      reprov := none, reprovBusy := false, reprovDone := true })

theorem doReprovDone_of_some {level index : Nat} {d : Dev} (h : d.mem.reprov = some (level, index)) :
    doReprovDone d = prfCount 16 none (Nat.min (reprovSpan level d) (protSize d / 512 - reprovFirst level index d))
      (event 0x0B07 1 (be 1 level ++ be 4 index) (when_ (level != 15) (touchNode (level + 1) (index / 8)) (reprovRange level index d))) := by
  simp only [doReprovDone, h]
  rfl

/-! ### Sectors (11 R327, R328, R331) -/

section
variable {i : Nat} {d : Dev}

theorem macId_sector : macId 0 i = i := rfl

/-- With the level 1 node of a sector in the cache no node is fetched for it. -/
theorem chainOf_of_cached (h : cached 1 (i / 8) d.mem = true) : chainOf 1 (i / 8) d = [] := by
  have hrange : (List.range (topLevel d + 1)).filter (fun l => decide (1 ≤ l)) = (List.range (topLevel d)).map (· + 1) := by
    rw [List.range_succ_eq_map, List.filter_cons, if_neg (by decide), List.filter_eq_self.mpr (by simp)]
  have htop : topLevel d = topLevel d - 1 + 1 := by unfold topLevel; split <;> [rfl; split <;> rfl]
  rw [chainOf, hrange, htop, List.range_succ_eq_map]
  simp [h]

/-- An uncorrectable error in the sector's bursts is one of the errors known. -/
theorem exists_bad_of_badIn (hb : badIn 100 0 (512 * i) 512 d = true) :
    ∃ b, d.flt.bad.find? (fun b => b.1 == 100 && b.2.2 / 512 == i) = some b := by
  obtain ⟨b, hmem, hb⟩ := List.any_eq_true.mp hb
  simp only [badSize, if_true, Bool.and_eq_true, beq_iff_eq, decide_eq_true_eq] at hb
  obtain ⟨⟨⟨hregion, -⟩, hbelow⟩, habove⟩ := hb
  have hsector : b.2.2 / 512 = i := by omega
  exact Option.isSome_iff_exists.mp (List.find?_isSome.mpr ⟨b, hmem, by simp [hregion, hsector]⟩)

section
variable (hc : cached 1 (i / 8) d.mem = true) (hs : sectorDoubt d i = false)
include hc

theorem fetchFinds_of_cached : fetchFinds i true d = nodeFault 0 i d := by
  simp [fetchFinds, chainFinds, chainOf_of_cached hc]

include hs

theorem openSector_of_fault {x : Nat × Nat × Nat} (h : nodeFault 0 i d = some x) :
    openSector i true d = (false, fetchFailed x (when_ (x.1 == 0) (prfCount 15 none 1) d)) := by
  simp [openSector, hs, fetchFinds_of_cached hc, h]

theorem openSector_of_badMac (hb : badIn 100 0 (512 * i) 512 d = false) (hm : macOk 0 i d = false) :
    openSector i true d = (false, doubtDeclare 0 i 2 (prfCount 15 none 1 d)) := by
  rw [openSector_of_fault hc hs (x := (0, i, 2)) (by simp [nodeFault, hb, hm])]
  rfl

theorem openSector_of_badBurst (hb : badIn 100 0 (512 * i) 512 d = true) : ∃ b ∈ d.flt.bad, b.1 = 100 ∧ b.2.2 / 512 = i ∧
    openSector i true d = (false, doubtDeclare 0 i 1
      ((prfCount 15 none 1 d).updMem (fun m => { m with ueCnt := bump m.ueCnt (b.2.2 / 256 % 4) 1 }))) := by
  obtain ⟨b, hfind⟩ := exists_bad_of_badIn hb
  have hkey := List.find?_some hfind
  simp only [Bool.and_eq_true, beq_iff_eq] at hkey
  refine ⟨b, List.mem_of_find?_eq_some hfind, hkey.1, hkey.2, ?_⟩
  have hflt : (prfCount 15 none 1 d).flt = d.flt := by unfold prfCount; split <;> rfl
  rw [openSector_of_fault hc hs (x := (0, i, 1)) (by simp [nodeFault, hb])]
  simp [fetchFailed, when_, hflt, hfind]

end

/-- A rise of a node above the sectors leaves what the MEC keeps of sector `i`. -/
theorem riseCtr_keeps_sector {level index : Nat} (hl : 1 ≤ level) (hi : i < 2 ^ 63) (m : Mem) :
    Tab.get 0 (riseCtr level index m).rises i = Tab.get 0 m.rises i ∧ Tab.get none (riseCtr level index m).alien i = Tab.get none m.alien i := by
  have hne : i ≠ macId level index := by
    have : macId level index = 2 ^ 63 + level * 2 ^ 56 + index := if_neg (by omega)
    omega
  exact ⟨Tab.get_upd_ne 0 m.rises (macId level index) i (· + 1) hne, Tab.get_set_ne none none m.alien (macId level index) i hne⟩

theorem noteRise_keeps_sector (hi : i < 2 ^ 63) (t f : Nat) {level : Nat} (hl : 1 ≤ level) (index : Nat) (m : Mem) :
    Tab.get 0 (noteRise t f level index m).rises i = Tab.get 0 m.rises i ∧
      Tab.get none (noteRise t f level index m).alien i = Tab.get none m.alien i := by
  induction f generalizing level index m with
  | zero => exact ⟨rfl, rfl⟩
  | succ f ih =>
    unfold noteRise
    split
    · exact ⟨rfl, rfl⟩
    split
    · exact ⟨rfl, rfl⟩
    · obtain ⟨hrises, halien⟩ := ih (Nat.le_add_left 1 level) (index / 8) (riseCtr level index m)
      obtain ⟨hrises', halien'⟩ := riseCtr_keeps_sector (index := index) hl hi m
      exact ⟨hrises.trans hrises', halien.trans halien'⟩

theorem sectorList_one (i : Nat) : sectorList (512 * i) 512 = [i] := by
  have hcount : sectorsOf (512 * i) 512 = 1 := by rw [sectorsOf, if_neg (by decide)]; omega
  have hfirst : 512 * i / 512 = i := by omega
  simp [sectorList, hcount, hfirst]

/-- The counter that the last initialisation or re-provisioning gave sector `i`. -/
def provisioned (provs : List Prov) (i : Nat) : Nat :=
  match provs.find? (fun p => inside p.level p.index ⟨0, i, 0⟩) with | some p => p.value | none => 1

theorem mecCtr_sector (i : Nat) (d : Dev) : mecCtr 0 i d = provisioned d.mem.provs i + Tab.get 0 d.mem.rises i := by
  have htop : ¬(0 = topLevel d ∧ d.mem.root ≠ []) := fun h => absurd h.1 (by unfold topLevel; split <;> [decide; split <;> decide])
  exact if_neg htop

theorem macOk_of_own (h : Tab.get none d.mem.alien (macId 0 i) = none) : macOk 0 i d = true := by simp only [macOk, h]

theorem mecStored_of_own (h : Tab.get none d.mem.alien (macId 0 i) = none) :
    mecStored 0 i d = (sectorCipher i d, mecMac d.mem.macKey i (mecCtr 0 i d) (sectorCipher i d)) := by
  simp only [mecStored, h]
  rfl

/-- A write of one sector raises its counter, and puts the MEC's own content and MAC in its place. -/
theorem protWrite_sector (hi : 512 * i < protSize d) (h63 : i < 2 ^ 63) :
    mecCtr 0 i (protWrite (512 * i) 512 d) = mecCtr 0 i d + 1 ∧ macOk 0 i (protWrite (512 * i) 512 d) = true := by
  have hmem : (protWrite (512 * i) 512 d).mem = noteRise (topLevel d) 9 1 (i / 8) (riseCtr 0 i d.mem) := by
    rw [protWrite, if_neg (Nat.not_le.mpr hi)]
    simp [sectorList_one, riseSectors]
  obtain ⟨hrises, halien⟩ := noteRise_keeps_sector h63 (topLevel d) 9 (le_refl 1) (i / 8) (riseCtr 0 i d.mem)
  have hprovs : (noteRise (topLevel d) 9 1 (i / 8) (riseCtr 0 i d.mem)).provs = d.mem.provs :=
    noteRise_keeps Mem.provs (fun _ _ _ => rfl) (fun _ _ _ => rfl) ..
  constructor
  · rw [mecCtr_sector, mecCtr_sector, hmem, hrises, hprovs, Nat.add_assoc]
    exact congrArg _ (Tab.get_upd_same 0 d.mem.rises i (· + 1))
  · refine macOk_of_own ?_
    rw [hmem, macId_sector, halien]
    exact Tab.get_set_same none none d.mem.alien i

end

/-- Settles O37: each row goes by the conditions of its own rule; a sector that opens goes by the first fault found, one written by its next counter. -/
theorem externalMemory : Obligations.ExternalMemory := by
  unfold Obligations.ExternalMemory
  refine ⟨fun s hp => ⟨fun rate gibs failMap ht hf => ?train, fun addr hb hi hm => ?scrub, fun h => ?idle, fun hb hopen => ?clear, fun hb hwf => ?cleared⟩,
    fun s hp => ⟨fun v => ?locked, fun v hv hopen => ?sizes, fun n hn hopen hl hr hfit => ?coldLock, fun n h1 h64 hopen hl ht hf => ?mecLock,
      fun hl hr hk hwf => ?init, fun v => ?reprov, fun h => ?noReprov, fun level index h => ?reprovDone⟩,
    fun d i => ⟨fun h => ?own, fun hc hs hb hm => ?badMac, fun hc hs hb => ?badBurst, fun h64 hi => ?write⟩⟩
  case train =>
    exact ⟨fun hr => runs_of hp rfl (doTrain_of_full ht hf hr), fun h0 h3 => runs_of hp rfl (doTrain_of_lower ht hf h0 h3),
      runs_of hp rfl (doTrain_of_failed ht hf)⟩
  case scrub =>
    exact ⟨runs_of hp rfl (doScrub_above hb hi hm false false), fun _ => ⟨runs_of hp rfl (doScrub_above hb hi hm true false),
      runs_of hp rfl (doScrub_above hb hi hm false true)⟩⟩
  case idle => exact runs_of hp rfl (doMemClearDone_of_idle h)
  case clear =>
    exact ⟨fun hr => runs_doneReg_of_open hp hopen rfl (memClearWrite_go_of_ready hb hr),
      fun hr => runs_doneReg_of_open hp hopen rfl (memClearWrite_go_of_unready hr), runs_doneReg_of_open hp hopen rfl memClearWrite_done⟩
  case cleared =>
    refine ⟨_, runs_of hp rfl (doMemClearDone_of_busy hb), rfl, rfl, fun x hx => ?_, fun x hx => ?_, rfl, rfl, rfl⟩
    · exact (Tab.get_filter_index 0 (fun k => decide (k < metaEnd s.dev)) ..).trans (if_neg (by simpa using hx))
    · exact (Tab.get_filter_index 0 (fun k => decide (k < metaEnd s.dev)) ..).trans (if_pos (by simpa using hx))
  case locked =>
    exact ⟨fun h => runs_doneReg_of_same hp rfl (coldCfgWrite_of_locked h), fun h => runs_doneReg_of_same hp rfl (mecCfgWrite_of_locked h)⟩
  case sizes =>
    exact ⟨fun h => runs_doneReg_of_open hp hopen rfl (coldCfgWrite_size hv h),
      fun h h1 h64 => runs_doneReg_of_open hp hopen rfl (mecCfgWrite_size hv h h1 h64)⟩
  case coldLock =>
    have hsize : fld (2 ^ 31 + n) 10 0 = n := (fld_add_top (by decide)).trans (fld_low_of_lt (by omega))
    exact runs_doneReg_of_open hp hopen rfl (coldCfgWrite_lock hsize (bitAt_31_add (by omega)) hn hl hr hfit)
  case mecLock =>
    have hsize : fld (2 ^ 31 + n) 6 0 = n := (fld_add_top (by decide)).trans (fld_low_of_lt (by omega))
    have h := mecCfgWrite_lock hsize (bitAt_31_add (by omega)) h1 h64 hl ht hf
    exact ⟨fun hfit => runs_doneReg_of_open hp hopen rfl (h.trans (if_pos hfit)),
      fun hfit => runs_doneReg_of_open hp hopen rfl (h.trans (if_neg (Nat.not_le.mpr hfit)))⟩
  case init =>
    refine ⟨_, runs_of hp rfl (doMecInit_of_lock hl hr hk), ?_, fun x hx => ?_, fun x hx => ?_, ?_, ?_⟩
    all_goals simp only [prfCount_mem, prfCount_core, prfCount_sas]
    · exact (Tab.get_filter_index 0 (fun k => decide (protSize s.dev ≤ k)) ..).trans (if_neg (by simpa using hx))
    · exact (Tab.get_filter_index 0 (fun k => decide (protSize s.dev ≤ k)) ..).trans (if_pos (by simpa using hx))
  case reprov =>
    exact ⟨fun h => runs_doneReg_of_same hp rfl (reprovWrite_of_noGo h), fun h hopen =>
      ⟨fun hr => runs_doneReg_of_open hp hopen rfl (reprovWrite_of_refused h hr), fun hr => runs_doneReg_of_open hp hopen rfl (reprovWrite_of_go h hr)⟩⟩
  case noReprov => exact runs_of hp rfl (doReprovDone_of_none h)
  case reprovDone =>
    refine ⟨reprovRange level index s.dev, runs_of hp rfl (doReprovDone_of_some h), rfl, rfl, rfl, fun h15 => ?_, fun x hx => ?_, rfl, rfl⟩
    · simp [reprovRange, h15]
    · simpa using List.of_mem_filter (show x ∈ s.dev.mem.doubts.filter (fun x => !inside level index x) from hx)
  case own => exact ⟨macOk_of_own h, mecStored_of_own h⟩
  case badMac => exact openSector_of_badMac hc hs hb hm
  case badBurst => exact openSector_of_badBurst hc hs hb
  case write =>
    have h63 : i < 2 ^ 63 := by
      have : protSize d ≤ 64 * gib := Nat.mul_le_mul_right gib h64
      unfold gib at this
      omega
    exact protWrite_sector hi h63

end Sys2Proof.Machine

/-! SUPPORT. Ports: their configuration past its refusals, the enable and the disable, and the gated Frame-mode registers (02 R68; 08 R225; 12 R345 to
R348). -/

namespace Sys2Proof.Machine

section
variable {b : Sub} {n : Nat} {d : Dev} (hup : sliceDown d (portSlice n d) = false)
include hup

/-! ### CMD_PORT_CONFIG (12 R345 to R347) -/

/-- The configuration that CMD_PORT_CONFIG takes: SIZE 0 is none. -/
abbrev cfgTaken (cfg : Nat) : Nat := if cfgSize cfg = 0 then 0 else fld cfg 12 0

theorem doPortConfig_of_inUse {cfg : Nat}
    (h : (d.tab.getPrt n).gateOn = true ∨ (isCipher n = true ∧ sltEn (d.tab.getSlt (facePos n)) = true)) :
    doPortConfig b n cfg d = gateDone b stIN_USE [] d := by
  have hrow : ((d.tab.getPrt n).gateOn || (isCipher n && sltEn (d.tab.getSlt (facePos n)))) = true := by simpa using h
  rw [doPortConfig, inSlice_of_up hup, guards_cons, if_pos hrow]

/-- A port takes a configuration: its lanes move, its slot registers fit it, and it begins idle. -/
abbrev portConfigured (n c : Nat) (d : Dev) : Dev :=
  idleEmit n (updateLos n ((moveLanes n (d.tab.getPrt n).cfg c
    ((endDisable n d).updTab (fun t => fitSlt n c (t.updPrt n (fun x => { x with cfg := c }))))).updPort n (fun x => { x with laneFail := false })))

theorem doPortConfig_of_allowed {cfg : Nat} (hoff : (d.tab.getPrt n).gateOn = false)
    (hslot : isCipher n = true → sltEn (d.tab.getSlt (facePos n)) = false)
    (hrow : cfgTaken cfg ≠ 0 → lanesOverlap n (cfgTaken cfg) d = false ∧ rowOk n (cfgTaken cfg) = true ∧ pairRule n (cfgTaken cfg) d = false)
    (hold : cfgSize (d.tab.getPrt n).cfg = 0 ∨ (cfgSize (cfgTaken cfg) ≠ 0 ∧ (cfgSize (cfgTaken cfg) = 5 ↔ cfgSize (d.tab.getPrt n).cfg = 5)) ∨
      portNamed n d.tab = false)
    (hmode : cfgSlot (cfgTaken cfg) = true → isCipher n = true ∧ cfgSize (cfgTaken cfg) ≠ 1)
    (hlanes : ∀ l ∈ portLanes (cfgTaken cfg) n, (d.getLane l).retired = false) :
    doPortConfig b n cfg d = gateDone b stOK [] (portConfigured n (cfgTaken cfg) d) := by
  have huse : ((d.tab.getPrt n).gateOn || (isCipher n && sltEn (d.tab.getSlt (facePos n)))) = false := by simpa [hoff] using hslot
  have hover : (cfgTaken cfg != 0 && lanesOverlap n (cfgTaken cfg) d) = false := by simpa using fun h => (hrow h).1
  have hbadRow : (cfgTaken cfg != 0 && !rowOk n (cfgTaken cfg)) = false := by simpa using fun h => (hrow h).2.1
  have hpair : (cfgTaken cfg != 0 && pairRule n (cfgTaken cfg) d) = false := by simpa using fun h => (hrow h).2.2
  have hnamed : (cfgSize (d.tab.getPrt n).cfg != 0 && (cfgSize (cfgTaken cfg) == 0 ||
      (cfgSize (cfgTaken cfg) == 5) != (cfgSize (d.tab.getPrt n).cfg == 5)) && portNamed n d.tab) = false := by
    obtain h | ⟨h0, h5⟩ | h := hold
    · simp [h]
    · have hsame : (cfgSize (cfgTaken cfg) == 5) = (cfgSize (d.tab.getPrt n).cfg == 5) := Bool.eq_iff_iff.mpr (by simpa using h5)
      simp [h0, hsame]
    · simp [h]
  have hbadMode : (cfgSlot (cfgTaken cfg) && (!isCipher n || cfgSize (cfgTaken cfg) == 1)) = false := by simpa using hmode
  have hretired : (portLanes (cfgTaken cfg) n).any (fun l => (d.getLane l).retired) = false := by simpa using hlanes
  simp only [doPortConfig, inSlice_of_up hup, guards_cons, guards_nil, huse, hover, hnamed, hbadRow, hpair, hbadMode, hretired, Bool.false_eq_true,
    if_false]

/-! ### Enable and disable (08 R225) -/

theorem doPortEnable_of_enrol (hm : d.mod.mode = .enrol) : doPortEnable b n d = gateDone b stBAD_MODE [] d := by
  rw [doPortEnable, inSlice_of_up hup, if_pos hm]

section
variable (hm : d.mod.mode ≠ .enrol)
include hm

theorem doPortEnable_of_on (h : (d.tab.getPrt n).gateOn = true) : doPortEnable b n d = gateDone b stOK [] d := by
  rw [doPortEnable, inSlice_of_up hup, if_neg hm, if_pos h]

theorem doPortEnable_of_off (h : (d.tab.getPrt n).gateOn = false) (hl : portLanes (d.tab.getPrt n).cfg n ≠ [])
    (hr : ∀ l ∈ portLanes (d.tab.getPrt n).cfg n, (d.getLane l).retired = false) :
    doPortEnable b n d = gateDone b stOK [] (enablePort n (endDisable n d)) := by
  have hbad : ((portLanes (d.tab.getPrt n).cfg n).isEmpty || (portLanes (d.tab.getPrt n).cfg n).any (fun l => (d.getLane l).retired)) = false := by
    simpa [hl] using hr
  simp only [doPortEnable, inSlice_of_up hup, if_neg hm, h, guards_cons, guards_nil, hbad, Bool.false_eq_true, if_false]

end

theorem doPortDisable_of_off (h : portEnabled d n = false ∨ (d.getTck n).disableTack ≠ none) : doPortDisable b n d = gateDone b stOK [] d := by
  have hoff : (!portEnabled (gateDone b stOK [] d) n || ((gateDone b stOK [] d).getTck n).disableTack.isSome) = true := by
    simpa [portEnabled, Dev.getTck, Option.isSome_iff_ne_none] using h
  rw [doPortDisable, inSlice_of_up hup]
  exact if_pos hoff

theorem doPortDisable_of_on (h : portEnabled d n = true) (hw : (d.getTck n).disableTack = none) : doPortDisable b n d =
    settlePort n (((gateDone b stOK [] d).updTck n (fun t => { t with disableTack := some (gateDone b stOK [] d).tck.tno })).updTab
      (Tables.updPrt n (fun g => { g with gateOn := false }))) := by
  have hon : ¬(!portEnabled (gateDone b stOK [] d) n || ((gateDone b stOK [] d).getTck n).disableTack.isSome) = true := by
    simpa [portEnabled, Dev.getTck] using ⟨h, hw⟩
  rw [doPortDisable, inSlice_of_up hup]
  exact if_neg hon

/-! ### PRT_SET (02 R68) -/

/-- The registers of a port's Frame mode that only a cipher port has. -/
abbrev CipherOff (off : Nat) : Prop := off = 0x400 ∨ (0x410 ≤ off ∧ off < 0x430)

variable {off v : Nat} (hg : prtGatedOff off = true)
include hg

theorem doPrtSet_of_clear (hc : isCipher n = false) (ho : CipherOff off) : doPrtSet b n off v d = gateDone b stBAD_PORT [] d := by
  simp [doPrtSet, inSlice_of_up hup, hg, hc, ho]

theorem doPrtSet_of_badLimit (ho : off = 0x404) (hv : fld v 13 0 < 64 ∨ 9728 < fld v 13 0) :
    doPrtSet b n off v d = gateDone b stBAD_LIMIT [] d := by
  subst ho
  simp [doPrtSet, inSlice_of_up hup, hg, hv]

theorem doPrtSet_of_badChannel (hc : isCipher n = true) (ho : off = 0x400) (hv : bitAt v 4 = true)
    (h : isRc (fld v 31 16) = false ∨ portReaches d.tab n (chSlice (fld v 31 16)) = false) :
    doPrtSet b n off v d = gateDone b stBAD_CHANNEL [] d := by
  subst ho
  simp [doPrtSet, inSlice_of_up hup, hg, hc, hv, h]

theorem doPrtSet_of_allowed (hc : isCipher n = true ∨ (off ≠ 0x400 ∧ (off < 0x410 ∨ 0x430 ≤ off)))
    (hl : off = 0x404 → 64 ≤ fld v 13 0 ∧ fld v 13 0 ≤ 9728)
    (hch : off = 0x400 → bitAt v 4 = true → isRc (fld v 31 16) = true ∧ portReaches d.tab n (chSlice (fld v 31 16)) = true) :
    doPrtSet b n off v d = gateDone b stOK [] (d.updTab (Tables.updPrt n (prtSetReg off v))) := by
  have hport : (!isCipher n && (off == 0x400 || (decide (0x410 ≤ off) && decide (off < 0x430)))) = false := by
    obtain h | ⟨hne, hout⟩ := hc
    · simp [h]
    · simp only [Bool.and_eq_false_iff, Bool.or_eq_false_iff, beq_eq_false_iff_ne, decide_eq_false_iff_not, Nat.not_le, Nat.not_lt]
      exact .inr ⟨hne, hout⟩
  have hlimit : (off == 0x404 && (decide (fld v 13 0 < 64) || decide (9728 < fld v 13 0))) = false := by simpa using hl
  have hchannel : (off == 0x400 && bitAt v 4 && (!isRc (fld v 31 16) || !portReaches d.tab n (chSlice (fld v 31 16)))) = false := by simpa using hch
  simp [doPrtSet, inSlice_of_up hup, hg, hport, hlimit, hchannel]

end

/-- Settles O13: each command goes by the first refusal that holds, and past them to its one effect. -/
theorem portCommands : Obligations.PortCommands := by
  unfold Obligations.PortCommands
  intro s hp b n hup
  refine ⟨fun cfg => ⟨fun h => ?inUse, fun hoff hslot hrow hold hmode hlanes => ?configured⟩, fun hm => ?enrol, fun hm => ⟨fun h => ?on, fun h hl hr => ?off⟩,
    fun h => ?noDisable, fun h hw => ?disable, fun off v hg => ⟨fun hc ho => ?clear, fun ho hv => ?limit, fun hc ho hv h => ?channel,
      fun hc hl hch => ?taken⟩⟩
  case inUse => exact runs_of hp rfl (doPortConfig_of_inUse hup h)
  case configured => exact runs_of hp rfl (doPortConfig_of_allowed hup hoff hslot hrow hold hmode hlanes)
  case enrol => exact runs_of hp rfl (doPortEnable_of_enrol hup hm)
  case on => exact runs_of hp rfl (doPortEnable_of_on hup hm h)
  case off => exact runs_of hp rfl (doPortEnable_of_off hup hm h hl hr)
  case noDisable => exact runs_of hp rfl (doPortDisable_of_off hup h)
  case disable => exact runs_of hp rfl (doPortDisable_of_on hup h hw)
  case clear => exact runs_of hp rfl (doPrtSet_of_clear hup hg hc ho)
  case limit => exact runs_of hp rfl (doPrtSet_of_badLimit hup hg ho hv)
  case channel => exact runs_of hp rfl (doPrtSet_of_badChannel hup hg hc ho hv h)
  case taken => exact runs_of hp rfl (doPrtSet_of_allowed hup hg hc hl hch)

end Sys2Proof.Machine

/-! SUPPORT. Lanes and their references: signal, lock and alignment, faults and retirement, the lane registers, and the line code (12 R340, R341, R344,
R348 to R362). -/

namespace Sys2Proof.Machine

/-! ### One lane changes -/

section
variable {l : Nat} {d : Dev} {f g : Lane → Lane}

@[simp] theorem Dev.getLane_updLane : (d.updLane l f).getLane l = f (d.getLane l) := by
  unfold Dev.getLane Dev.updLane
  split <;> simp

/-- A change of a lane is known by what it makes of that lane. -/
theorem Dev.updLane_congr (h : f (d.getLane l) = g (d.getLane l)) : d.updLane l f = d.updLane l g := by
  unfold Dev.getLane at h
  unfold Dev.updLane Tab.upd
  split at h
  next hl => rw [if_pos hl, if_pos hl, h]
  next hl => rw [if_neg hl, if_neg hl, h]

theorem onLane_of_retired (h : (d.getLane l).retired = true) : onLane l f d = d := if_pos h

/-- A lane in service takes its change, but acquires only while its reference stands. -/
theorem onLane_of_live (hr : (d.getLane l).retired = false)
    (h : { f (d.getLane l) with acq := (f (d.getLane l)).acq && !bitAt d.pins.refLost (laneRef l) } = g (d.getLane l)) :
    onLane l f d = laneFollow l (d.updLane l g) := by
  rw [onLane, if_neg (by simp [hr]), laneStep, Dev.updLane_congr h]

end

/-! ### Signal, lock and figure of merit (12 R349, R350, R352, R356) -/

/-- What LANE_ACQUIRE_COMPLETE makes of the device. -/
def laneAcquired (l freqOfs : Nat) (d : Dev) : Dev :=
  if bitAt d.pins.refLost (laneRef l) || !(d.getLane l).acq || (d.getLane l).los then d
  else onLane l (fun x => { laneSet false false false x with freqOfs := fld freqOfs 15 0 }) d

theorem exec_laneAcquireComplete (l f : Nat) (s : State) : exec (.laneAcquireComplete l f) s = done s (laneAcquired l f) := rfl

/-- What FOM_MEASURE makes of the device: the lane takes the figure, and a margin that it newly misses is recorded. -/
def fomMeasured (l fom eye : Nat) (d : Dev) : Dev :=
  let x := d.getLane l
  if x.los || x.lol || x.retired then d
  else
    let fom := Nat.min 255 fom
    let y := fomStep (laneRate l d) fom (eye % 4) x
    let d := d.updLane l (fun _ => y)
    if y.marginLow && !x.marginLow then event 0x0C03 2 (laneData l ++ be 1 fom) d else d

theorem exec_fomMeasure (l fom eye : Nat) (s : State) : exec (.fomMeasure l fom eye) s = done s (fomMeasured l fom eye) := rfl

section
variable {s : State} (hp : Powered s) {l : Nat}
include hp

/-- A row that changes a lane under a condition on it leaves a retired lane as it is. -/
theorem runs_onLane_of_retired {i : Instr} {c : Dev → Bool} {f : Lane → Lane} (hx : exec i s = done s (fun d => if c d then onLane l f d else d))
    (hr : (s.dev.getLane l).retired = true) : Runs i s s.dev := runs_of hp hx (by rw [onLane_of_retired hr, ite_self])

section
variable (hr : (s.dev.getLane l).retired = false)
include hr

theorem runs_laneLosDeclare : Runs (.laneLosDeclare l) s (laneFollow l (s.dev.updLane l (fun x =>
    { x with los := true, lol := true, acq := false, losChg := x.losChg || !x.los, lolChg := x.lolChg || !x.lol }))) :=
  runs_of hp rfl (onLane_of_live hr (by simp [laneSet]))

theorem runs_laneLosClear (hlos : (s.dev.getLane l).los = true) : Runs (.laneLosClear l) s (laneFollow l (s.dev.updLane l (fun x =>
    { x with los := false, acq := !bitAt s.dev.pins.refLost (laneRef l), losChg := true }))) :=
  runs_of hp rfl ((if_pos hlos).trans (onLane_of_live hr (by simp [laneSet, hlos])))

theorem runs_laneLolDeclare {f : Nat} (hf : f < 2 ^ 16) : Runs (.laneLolDeclare l f) s (laneFollow l (s.dev.updLane l (fun x =>
    { x with lol := true, acq := !x.los && !bitAt s.dev.pins.refLost (laneRef l), lolChg := x.lolChg || !x.lol, freqOfs := f }))) :=
  runs_of hp rfl (onLane_of_live hr (by simp [laneSet, fld_low_of_lt hf]))

theorem runs_laneAcquireComplete {f : Nat} (hf : f < 2 ^ 16) (href : bitAt s.dev.pins.refLost (laneRef l) = false)
    (hacq : (s.dev.getLane l).acq = true) (hlos : (s.dev.getLane l).los = false) :
    Runs (.laneAcquireComplete l f) s (laneFollow l (s.dev.updLane l (fun x =>
      { x with lol := false, acq := false, lolChg := x.lolChg || x.lol, freqOfs := f }))) :=
  runs_of hp (exec_laneAcquireComplete l f s) ((if_neg (by simp [href, hacq, hlos])).trans (onLane_of_live hr (by simp [laneSet, hlos, fld_low_of_lt hf])))

theorem runs_laneAcquireTimeout (hacq : (s.dev.getLane l).acq = true) : Runs (.laneAcquireTimeout l) s (laneFollow l (s.dev.updLane l (fun x =>
    { x with acq := !bitAt s.dev.pins.refLost (laneRef l), cntAcq := Nat.min 255 (x.cntAcq + 1) }))) :=
  runs_of hp rfl ((if_pos hacq).trans (onLane_of_live hr (by simp [hacq])))

/-- The lane after a figure of merit. -/
theorem runs_fomMeasure {fom eye : Nat} (hf : fom < 256) (he : eye < 4) (hlos : (s.dev.getLane l).los = false)
    (hlol : (s.dev.getLane l).lol = false) : Runs (.fomMeasure l fom eye) s
      (let y := fomStep (laneRate l s.dev) fom eye (s.dev.getLane l)
       if (y.marginLow && !(s.dev.getLane l).marginLow) = true then event 0x0C03 2 (laneData l ++ be 1 fom) (s.dev.updLane l (fun _ => y))
       else s.dev.updLane l (fun _ => y)) := by
  have hfom : Nat.min 255 fom = fom := Nat.min_eq_right (by omega)
  refine runs_of hp (exec_fomMeasure l fom eye s) ?_
  simp only [fomMeasured, hlos, hlol, hr, hfom, Nat.mod_eq_of_lt he, Bool.or_false, Bool.false_eq_true, if_false]

end

theorem runs_fomMeasure_of_retired {fom eye : Nat} (hr : (s.dev.getLane l).retired = true) : Runs (.fomMeasure l fom eye) s s.dev :=
  runs_of hp (exec_fomMeasure l fom eye s) (if_pos (by simp [hr]))

end

/-! ### Faults and retirement (12 R359 to R361, Table 12-7) -/

theorem laneFault_of_live {l row : Nat} {f g : Lane → Lane} {d : Dev} (hr : (d.getLane l).retired = false)
    (h : { f (d.getLane l) with acq := (f (d.getLane l)).acq && !bitAt d.pins.refLost (laneRef l) } = g (d.getLane l)) :
    laneFault l row f d =
      if recurs (if 64 ≤ l then 5 else 4) (if 64 ≤ l then l - 64 else l) 3600 d = true then laneRetire l row 0 (laneFollow l (d.updLane l g))
      else event 0x0C04 1 (laneData l ++ be 1 row)
        (markFault (if 64 ≤ l then 5 else 4) (if 64 ≤ l then l - 64 else l) (laneFollow l (d.updLane l g))) := by
  have hstep : laneStep l f d = laneFollow l (d.updLane l g) := by rw [laneStep, Dev.updLane_congr h]
  simp only [laneFault, hr, hstep, isHln, Bool.false_eq_true, if_false, decide_eq_true_eq]

theorem doLaneSelftest_of_idle {fails : List (Nat × Nat)} {d : Dev} (h : d.mod.laneTest = false ∨ d.mod.mode ≠ .kiln) :
    doLaneSelftest fails d = d := if_pos (by simpa using h)

section
variable {d : Dev} (ht : d.mod.laneTest = true) (hm : d.mod.mode = .kiln)
include ht hm

theorem doLaneSelftest_of_passed : doLaneSelftest [] d = d.updMod (fun m => { m with laneTest := false }) := if_neg (by simp [ht, hm])

theorem doLaneSelftest_of_failed {l rate : Nat} (hr : (d.getLane l).retired = false) : doLaneSelftest [(l, rate)] d =
    laneRetire l 3 3 (event 0x0C05 3 (laneData l ++ be 1 3 ++ be 1 rate) (d.updMod (fun m => { m with laneTest := false }))) := by
  have hr' : ((d.updMod (fun m => { m with laneTest := false })).getLane l).retired = false := hr
  rw [doLaneSelftest, if_neg (by simp [ht, hm])]
  exact if_neg (by simp [hr'])

end

/-! ### Lane registers (12 R354, R355, R362) -/

section
variable {l : Nat} {d : Dev}

@[simp] theorem laneMode_updLane (f : Lane → Lane) : laneMode (d.updLane l f) = laneMode d := by simp [laneMode]

@[simp] theorem lanePort_updLane (m : Nat) (f : Lane → Lane) : lanePort m (d.updLane l f) = lanePort m d := by simp [lanePort]

@[simp] theorem laneInUse_updLane (m : Nat) (f : Lane → Lane) : laneInUse m (d.updLane l f) = laneInUse m d := by
  simp [laneInUse, portEnabled]

/-- A write of CAL's GO alone writes the register, and nothing that a 1 clears. -/
theorem doLneCal_go : doLneCal l 1 d =
    let e := d.updLane l (fun x => x)
    if (!laneMode d || (e.getLane l).acq || (e.getLane l).calBusy) = true then e.updLane l (fun x => { x with calRefused := true })
    else onLane l (fun x => { laneSet x.los true false x with calBusy := true }) e := by
  have hclear : d.updLane l (fun x => { x with calDone := x.calDone && !bitAt 1 2, calRefused := x.calRefused && !bitAt 1 3 })
      = d.updLane l (fun x => x) := Dev.updLane_congr (by simp [bitAt])
  simp only [doLneCal, hclear, laneMode_updLane]
  rfl

theorem doLneCal_of_refused (hm : laneMode d = false) :
    doLneCal l 1 d = (d.updLane l (fun x => x)).updLane l (fun x => { x with calRefused := true }) := by
  simp [doLneCal_go, hm]

theorem doLneCal_of_started (hm : laneMode d = true) (hacq : (d.getLane l).acq = false) (hb : (d.getLane l).calBusy = false)
    (hr : (d.getLane l).retired = false) : doLneCal l 1 d =
      laneFollow l ((d.updLane l (fun x => x)).updLane l (fun x => { laneSet x.los true false x with calBusy := true })) := by
  have hlive : ((d.updLane l (fun x => x)).getLane l).retired = false := by simpa using hr
  rw [doLneCal_go]
  dsimp only
  rw [if_neg (by simp [hm, hacq, hb])]
  exact onLane_of_live hlive (by simp [laneSet])

/-- A field of a field. -/
theorem fld_fld {v hi h k : Nat} (hh : h ≤ hi) (hk : k ≤ h) : fld (fld v hi 0) h k = fld v h k := by
  have hpow : 2 ^ (hi + 1) = 2 ^ k * 2 ^ (hi + 1 - k) := by rw [← Nat.pow_add]; congr 1; omega
  have hdvd : 2 ^ (h + 1 - k) ∣ 2 ^ (hi + 1 - k) := Nat.pow_dvd_pow 2 (by omega)
  simp only [fld, Nat.pow_zero, Nat.div_one, Nat.sub_zero]
  rw [hpow, Nat.mod_mul_right_div_self, Nat.mod_mod_of_dvd _ hdvd]

section
variable {v : Nat} (hv : v < 2 ^ 31)
include hv

theorem doLneTest_eq : doLneTest l v d =
    let e := d.updLane l (fun x => x)
    if ((fld v 1 0 ≠ 0 ∨ fld v 4 3 ≠ 0) ∧ (laneMode d = false ∨ laneInUse l d = true)) then e.updLane l (fun x => { x with testRefused := true })
    else e.updLane l (fun x =>
      { x with test := fld v 7 0, rate := if (decide (l < 64) && (lanePort l d).isNone) = true then testRate (fld v 7 0) else x.rate }) := by
  have hclear : d.updLane l (fun x => { x with testRefused := x.testRefused && !bitAt v 31 }) = d.updLane l (fun x => x) :=
    Dev.updLane_congr (by simp [bitAt_31_of_lt hv])
  have h10 : fld (fld v 7 0) 1 0 = fld v 1 0 := fld_fld (by decide) (by decide)
  have h43 : fld (fld v 7 0) 4 3 = fld v 4 3 := fld_fld (by decide) (by decide)
  simp [doLneTest, hclear, h10, h43]

theorem doLneTest_of_refused (ht : fld v 1 0 ≠ 0 ∨ fld v 4 3 ≠ 0) (h : laneMode d = false ∨ laneInUse l d = true) :
    doLneTest l v d = (d.updLane l (fun x => x)).updLane l (fun x => { x with testRefused := true }) :=
  (doLneTest_eq hv).trans (if_pos ⟨ht, h⟩)

theorem doLneTest_of_taken (h : (fld v 1 0 = 0 ∧ fld v 4 3 = 0) ∨ (laneMode d = true ∧ laneInUse l d = false)) :
    doLneTest l v d = (d.updLane l (fun x => x)).updLane l (fun x =>
      { x with test := fld v 7 0, rate := if (decide (l < 64) && (lanePort l d).isNone) = true then testRate (fld v 7 0) else x.rate }) := by
  refine (doLneTest_eq hv).trans (if_neg fun ⟨ht, hm⟩ => ?_)
  obtain ⟨h1, h4⟩ | ⟨hmode, huse⟩ := h
  · simp [h1, h4] at ht
  · simp [hmode, huse] at hm

end
end

/-! ### References (12 R344) -/

section
variable {i : Nat} {d : Dev}

theorem doRefLoss_of_lanes (hi : i < 4) (h : bitAt d.pins.refLost i = false) : doRefLoss i d =
    each (refLanes i) (fun l => onLane l (fun x => laneSet x.los true false x)) (event 0x0C01 3 (be 1 i) (setClk i false d)) := by
  have h5 : ¬5 ≤ i := by omega
  simp [doRefLoss, h, h5, Nat.ne_of_lt hi]

theorem doRefLoss_of_system (h : bitAt d.pins.refLost 4 = false) :
    doRefLoss 4 d = archiveFlush (deviceFault 1 (event 0x0C01 3 (be 1 4) (setClk 4 false d))) := by
  simp [doRefLoss, h, refLanes, each]

theorem doRefReturn_of_lt (hi : i < 5) : doRefReturn i d =
    each (refLanes i) (fun l => onLane l (fun x => if (x.los || !x.lol) = true then x else { x with acq := true })) (setClk i true d) :=
  if_neg (Nat.not_le.mpr hi)

end

/-! ### The line code (12 R340, R341) -/

theorem grayPair_grayOf (a b : Bool) : grayPair (grayOf a b) = [a, b] := by cases a <;> cases b <;> rfl

theorem grayOf_lt (a b : Bool) : grayOf a b < 4 := by cases a <;> cases b <;> decide

theorem graySymbols_lt {x : Nat} {bits : List Bool} (h : x ∈ graySymbols bits) : x < 4 := by
  induction bits using graySymbols.induct with
  | case1 a b rest ih =>
    obtain rfl | h := List.mem_cons.mp h
    · exact grayOf_lt a b
    · exact ih h
  | case2 l hl => cases l with
    | nil => cases h
    | cons a l => cases l with
      | nil => cases h
      | cons b l => exact absurd rfl (hl a b l)

/-- Bits in pairs are the pairs of their symbols. -/
theorem flatten_grayPair_graySymbols {bits : List Bool} (h : bits.length % 2 = 0) : ((graySymbols bits).map grayPair).flatten = bits := by
  induction bits using graySymbols.induct with
  | case1 a b rest ih =>
    have hrest : rest.length % 2 = 0 := by simp only [List.length_cons] at h; omega
    simp [graySymbols, grayPair_grayOf, ih hrest]
  | case2 l hl => cases l with
    | nil => rfl
    | cons a l => cases l with
      | nil => simp at h
      | cons b l => exact absurd rfl (hl a b l)

theorem precode_lt {p x : Nat} {g : List Nat} (h : x ∈ precode p g) : x < 4 := by
  induction g generalizing p with
  | nil => cases h
  | cons a g ih =>
    obtain rfl | h := List.mem_cons.mp h
    · exact Nat.mod_lt _ (by decide)
    · exact ih h

theorem unprecode_precode {p : Nat} {g : List Nat} (hp : p < 4) (hg : ∀ x ∈ g, x < 4) : unprecode p (precode p g) = g := by
  induction g generalizing p with
  | nil => rfl
  | cons a g ih =>
    have ha : a < 4 := hg a List.mem_cons_self
    have hhead : ((a + 4 - p % 4) % 4 + p) % 4 = a := by omega
    have htail := ih (p := (a + 4 - p % 4) % 4) (Nat.mod_lt _ (by decide)) fun x hx => hg x (List.mem_cons_of_mem a hx)
    rw [precode, unprecode, hhead, htail]

theorem pamSymbol_pamLevel (v : Nat) : pamSymbol (pamLevel v) = v := by unfold pamSymbol pamLevel; omega

theorem pamLevel_of_lt {v : Nat} (h : v < 4) : pamLevel v = -3 ∨ pamLevel v = -1 ∨ pamLevel v = 1 ∨ pamLevel v = 3 := by unfold pamLevel; omega

/-- What a lane sends before its polarity is applied: PAM4 symbols as CTRL.TXPRE has them, or one level a bit. -/
def evenLevels (rate ctrl : Nat) (bits : List Bool) : List Int :=
  if isPam4 rate = true then (if bitAt ctrl 0 = true then precode 0 (graySymbols bits) else graySymbols bits).map pamLevel
  else bits.map (fun b => if b = true then 1 else -1)

theorem sendLevels_eq (rate ctrl : Nat) (bits : List Bool) :
    sendLevels rate ctrl bits = if bitAt ctrl 2 = true then (evenLevels rate ctrl bits).map (fun x => -x) else evenLevels rate ctrl bits := rfl

/-- The bits that a receiver recovers from levels of upright polarity. -/
def evenBits (rate ctrl : Nat) (levels : List Int) : List Bool :=
  if isPam4 rate = true then ((if bitAt ctrl 1 = true then unprecode 0 (levels.map pamSymbol) else levels.map pamSymbol).map grayPair).flatten
  else levels.map (fun x => decide (0 < x))

theorem recoverBits_eq (rate ctrl : Nat) (levels : List Int) :
    recoverBits rate ctrl levels = evenBits rate ctrl (if bitAt ctrl 3 = true then levels.map (fun x => -x) else levels) := rfl

theorem evenBits_evenLevels {rate ctrl : Nat} {bits : List Bool} (hlen : isPam4 rate = true → bits.length % 2 = 0)
    (hpre : bitAt ctrl 0 = bitAt ctrl 1) : evenBits rate ctrl (evenLevels rate ctrl bits) = bits := by
  have hsymbols : ∀ l : List Nat, (l.map pamLevel).map pamSymbol = l := fun l => by
    rw [List.map_map]
    exact (List.map_congr_left fun v _ => pamSymbol_pamLevel v).trans (List.map_id l)
  unfold evenBits evenLevels
  split
  next h4 =>
    rw [← hpre, hsymbols]
    split
    · rw [unprecode_precode (by decide) fun x hx => graySymbols_lt hx, flatten_grayPair_graySymbols (hlen h4)]
    · exact flatten_grayPair_graySymbols (hlen h4)
  next =>
    rw [List.map_map]
    refine (List.map_congr_left fun b _ => ?_).trans (List.map_id bits)
    cases b <;> rfl

theorem recoverBits_sendLevels {rate ctrl : Nat} {bits : List Bool} (hlen : isPam4 rate = true → bits.length % 2 = 0)
    (hpre : bitAt ctrl 0 = bitAt ctrl 1) (hinv : bitAt ctrl 2 = bitAt ctrl 3) : recoverBits rate ctrl (sendLevels rate ctrl bits) = bits := by
  rw [recoverBits_eq, sendLevels_eq, ← hinv]
  by_cases h : bitAt ctrl 2 = true
  · have hneg : ((evenLevels rate ctrl bits).map (fun x => -x)).map (fun x => -x) = evenLevels rate ctrl bits := by simp [List.map_map]
    rw [if_pos h, if_pos h, hneg, evenBits_evenLevels hlen hpre]
  · rw [if_neg h, if_neg h, evenBits_evenLevels hlen hpre]

theorem mem_evenLevels {rate ctrl : Nat} {bits : List Bool} {x : Int} (h : x ∈ evenLevels rate ctrl bits) :
    if isPam4 rate = true then x = -3 ∨ x = -1 ∨ x = 1 ∨ x = 3 else x = -1 ∨ x = 1 := by
  unfold evenLevels at h
  split at h
  next h4 =>
    obtain ⟨v, hv, rfl⟩ := List.mem_map.mp h
    rw [if_pos h4]
    refine pamLevel_of_lt ?_
    split at hv
    · exact precode_lt hv
    · exact graySymbols_lt hv
  next h4 =>
    obtain ⟨b, -, rfl⟩ := List.mem_map.mp h
    rw [if_neg h4]
    cases b <;> simp

theorem mem_sendLevels {rate ctrl : Nat} {bits : List Bool} {x : Int} (h : x ∈ sendLevels rate ctrl bits) :
    if isPam4 rate = true then x = -3 ∨ x = -1 ∨ x = 1 ∨ x = 3 else x = -1 ∨ x = 1 := by
  rw [sendLevels_eq] at h
  split at h
  · obtain ⟨y, hy, rfl⟩ := List.mem_map.mp h
    have hy := mem_evenLevels hy
    split at hy
    next h4 => rw [if_pos h4]; omega
    next h4 => rw [if_neg h4]; omega
  · exact mem_evenLevels h

theorem laneLevels_of_quiet {d : Dev} {l : Nat} {bits : List Bool} (h : laneQuiet l d = true) : laneLevels l bits d = none :=
  if_pos (by simp [squelched, h])

/-- Settles O38: a lane in service takes the change of its row, and a fault goes by its recurrence; a receiver undoes what a transmitter does, step by
step. -/
theorem lanes : Obligations.Lanes := by
  unfold Obligations.Lanes
  refine ⟨fun s hp l => ⟨fun hr => ?retired, fun hr => ?live, fun f href => ?noReference, fun p aligned h64 => ?portAlign, fun j aligned => ?meshAlign,
      fun fom eye hf he hlos hlol hr => ?fom⟩,
    fun s hp l => fun hr => ⟨?pll, ?watchdog, ?relock, fun fails h => ?noSelftest, fun ht hm => ?selftest⟩,
    fun s hp => ⟨fun l hopen => ?registers, fun i hi h => ?loss, fun h => ?systemLoss, fun i hi => ?refReturn⟩,
    fun rate ctrl bits hlen hpre hinv => ?code, fun d l bits h => ?quiet⟩
  case retired =>
    refine ⟨runs_of hp rfl (onLane_of_retired hr), ?_, fun f => runs_of hp rfl (onLane_of_retired hr), ?_, fun a b => runs_fomMeasure_of_retired hp hr⟩
    · exact runs_onLane_of_retired (c := fun d => (d.getLane l).los) hp rfl hr
    · exact runs_onLane_of_retired (c := fun d => (d.getLane l).acq) hp rfl hr
  case live =>
    exact ⟨runs_laneLosDeclare hp hr, runs_laneLosClear hp hr, fun f => runs_laneLolDeclare hp hr, fun f => runs_laneAcquireComplete hp hr,
      runs_laneAcquireTimeout hp hr, fun h => runs_of hp rfl (if_neg (by simp [h])), fun h => runs_of hp rfl (if_neg (by simp [h]))⟩
  case noReference => exact runs_of hp (exec_laneAcquireComplete l f s) (if_pos (by simp [href]))
  case portAlign => exact runs_of hp rfl (if_pos h64)
  case meshAlign => exact runs_of hp rfl ((if_neg (by omega)).trans (by rw [Nat.add_sub_cancel_left]))
  case fom =>
    have h := runs_fomMeasure hp hr hf he hlos hlol
    exact ⟨fun hlow => by simpa [hlow] using h, fun hkept => by obtain hkept | hkept := hkept <;> simpa [hkept] using h⟩
  case pll =>
    have h := laneFault_of_live (row := 1) (f := fun x => { x with squelch := true, cntPll := Nat.min 255 (x.cntPll + 1) })
      (g := fun x => { x with acq := x.acq && !bitAt s.dev.pins.refLost (laneRef l), squelch := true, cntPll := Nat.min 255 (x.cntPll + 1) }) hr rfl
    exact ⟨fun hone => runs_of hp rfl (h.trans (if_neg (by simp [hone]))), fun hagain => runs_of hp rfl (h.trans (if_pos hagain))⟩
  case watchdog =>
    have h := laneFault_of_live (row := 2) (f := fun x => { laneSet x.los true (!x.los) x with cntCtlr := Nat.min 255 (x.cntCtlr + 1) })
      (g := fun x => { laneSet x.los true (!x.los && !bitAt s.dev.pins.refLost (laneRef l)) x with cntCtlr := Nat.min 255 (x.cntCtlr + 1) }) hr rfl
    exact ⟨fun hone => runs_of hp rfl (h.trans (if_neg (by simp [hone]))), fun hagain => runs_of hp rfl (h.trans (if_pos hagain))⟩
  case relock =>
    exact runs_of hp (f := fun d => if (d.getLane l).retired then d else d.updLane l (fun x => { x with squelch := false })) rfl
      (if_neg (Bool.eq_false_iff.mp hr))
  case noSelftest => exact runs_of hp rfl (doLaneSelftest_of_idle h)
  case selftest => exact ⟨runs_of hp rfl (doLaneSelftest_of_passed ht hm), fun rate => runs_of hp rfl (doLaneSelftest_of_failed ht hm hr)⟩
  case registers =>
    refine ⟨fun hl hm => ?calRefused, fun hr hm hacq hb hacq' hb' hr' => ?calStarted, fun hb hr => ?calEnd, fun hr => ?calRetired, fun hb => ?noCal,
      fun v hv => ⟨fun ht h => ?testRefused, fun h => ?testTaken⟩, fun v => ⟨fun h => ?ctrlInUse, fun h => ?ctrl⟩, fun v => ⟨fun h => ?taps, fun h => ?txeq⟩⟩
    case calRefused => exact runs_doneReg_of_open hp hopen rfl (doLneCal_of_refused hm)
    case calStarted => exact runs_doneReg_of_open hp hopen rfl (doLneCal_of_started hm hacq hb hr)
    case calEnd => exact runs_of hp rfl ((if_pos hb).trans (onLane_of_live hr rfl))
    case calRetired => exact runs_onLane_of_retired (c := fun d => (d.getLane l).calBusy) hp rfl hr
    case noCal => exact runs_of hp rfl (if_neg (by simp [hb]))
    case testRefused => exact runs_doneReg_of_open hp hopen rfl (doLneTest_of_refused hv ht h)
    case testTaken => exact runs_doneReg_of_open hp hopen rfl (doLneTest_of_taken hv h)
    case ctrlInUse => exact runs_doneReg_of_open hp hopen rfl (if_pos h)
    case ctrl => exact runs_doneReg_of_open hp hopen rfl (if_neg (by simp [h]))
    case taps => exact runs_doneReg_of_open hp hopen rfl (if_pos h)
    case txeq => exact runs_doneReg_of_open hp hopen rfl (if_neg (Nat.not_lt.mpr h))
  case loss => exact runs_of hp rfl (doRefLoss_of_lanes hi h)
  case systemLoss => exact runs_of hp rfl (doRefLoss_of_system h)
  case refReturn => exact runs_of hp rfl (doRefReturn_of_lt hi)
  case code => exact ⟨recoverBits_sendLevels hlen hpre hinv, fun x hx => mem_sendLevels hx⟩
  case quiet => exact laneLevels_of_quiet h

end Sys2Proof.Machine

/-! SUPPORT. Faults of the units: on-chip SRAM, engines, temperature and the supply (11 R311, 15 R419, R421, R426, R427, 17 R456, R464). -/

namespace Sys2Proof.Machine

/-! ### On-chip SRAM (15 R419) -/

section
variable {region row addr unit : Nat} {d : Dev} (h : region < 13)
include h

theorem doSramPatrol_of_corrected : doSramPatrol region row addr unit false d = rowCorrected region row unit d := by
  rw [doSramPatrol, if_neg (Nat.not_le.mpr h)]
  rfl

theorem doSramPatrol_of_uncorrectable : doSramPatrol region row addr unit true d =
    if recurs 7 row 3600 d = true then rowRepair region row unit (sramUncorr region addr unit (markFault 7 row d))
    else sramUncorr region addr unit (markFault 7 row d) := by
  rw [doSramPatrol, if_neg (Nat.not_le.mpr h)]
  rfl

end

/-! ### Temperature (15 R421) -/

/-- A junction temperature that is not negative reads as it is. -/
theorem signed_of_lt {n v : Nat} (h : v < 2 ^ (n - 1)) : signed n v = v := by
  have hlt : v < 2 ^ n := h.trans_le (Nat.pow_le_pow_right (by decide) (Nat.sub_le n 1))
  have hmod : v % 2 ^ n = v := Nat.mod_eq_of_lt hlt
  rw [signed, hmod, if_pos h]
  exact_mod_cast hmod

section
variable {tj : Nat} {d : Dev} (ht : tj < 2 ^ 15)
include ht

theorem setTj_of_lt : setTj tj d = { d with pins := { d.pins with tj := tj } } := by rw [setTj, Nat.mod_eq_of_lt (by omega)]

theorem doTempHot_of_hot (h : 880 ≤ tj) : doTempHot tj d =
    let d := { d with pins := { d.pins with tj := tj } }
    if d.pins.hot = false then event 0x0F16 2 (be 2 tj) { d with pins := { d.pins with hot := true } } else d := by
  have hs : signed 16 tj = tj := signed_of_lt ht
  have hcool : ¬(tj : Int) < 840 := by omega
  have hhot : (880 : Int) ≤ tj := by omega
  simp [doTempHot, setTj_of_lt ht, hs, hcool, hhot]

theorem doTempHot_of_not_hot (h : tj < 880) : doTempHot tj d =
    let d := { d with pins := { d.pins with tj := tj } }
    if tj < 840 then { d with pins := { d.pins with hot := false } } else d := by
  have hs : signed 16 tj = tj := signed_of_lt ht
  have hhot : ¬(880 : Int) ≤ tj := by omega
  simp [doTempHot, setTj_of_lt ht, hs, hhot]

theorem doTempFault_of_lt : doTempFault tj d =
    let d := { d with pins := { d.pins with tj := tj } }
    if tj < 960 then d else deviceFault 5 { d with pins := { d.pins with thermTrip := true } } := by
  have hs : signed 16 tj = tj := signed_of_lt ht
  simp [doTempFault, setTj_of_lt ht, hs]

end

/-! ### A failing supply stops the device (15 R427, 17 R456) -/

section
variable (n : Nat) (d : Dev)

@[simp] theorem errorEndPort_pins : (errorEndPort n d).pins = d.pins :=
  each_keeps Dev.pins _ (fun f x => by unfold lineEmit; split <;> simp) _ d

@[simp] theorem fallowAll_pins : (fallowAll d).pins = d.pins := each_keeps Dev.pins _ (fun n d => errorEndPort_pins n d) _ d

@[simp] theorem haltCores_pins : (haltCores d).pins = d.pins := rfl

theorem settleFlash_pins : (settleFlash d).pins = d.pins := by
  unfold settleFlash
  split
  · rfl
  · unfold doFlsDone; split <;> rfl

theorem settleFlash_core : (settleFlash d).core = d.core := by
  unfold settleFlash
  split
  · rfl
  · unfold doFlsDone; split <;> rfl

theorem powerFlush_stopped : (powerFlush d).pins.stopped = d.pins.stopped := by
  unfold powerFlush; dsimp only; (repeat' split) <;> rfl

theorem powerFlush_pwrFail : (powerFlush d).pins.pwrFail = d.pins.pwrFail := by
  unfold powerFlush; dsimp only; (repeat' split) <;> rfl

theorem powerFlush_fls : (powerFlush d).fls = d.fls := by
  unfold powerFlush; dsimp only; (repeat' split) <;> rfl

theorem powerFlush_core : (powerFlush d).core = d.core := by
  unfold powerFlush; dsimp only; (repeat' split) <;> rfl

end

/-- Of the cores that a table lists none is alive once every one of them is halted. -/
theorem getCore_haltCores (c : Nat) (d : Dev) : coreAlive ((haltCores d).getCore c) = false ∨ (haltCores d).getCore c = {} := by
  unfold Dev.getCore haltCores
  dsimp only
  induction d.core with
  | nil => exact Or.inr rfl
  | cons e t ih =>
    simp only [List.map_cons, Tab.get]
    split
    · cases h : coreAlive e.2 <;> simp_all [coreAlive]
    · exact ih

section
variable (d : Dev)

theorem powerStop_stopped : (powerStop d).pins.stopped = true := by rw [powerStop, powerFlush_stopped]; rfl

theorem powerStop_busy : (powerStop d).fls.busy = false := by rw [powerStop, powerFlush_fls]; rfl

theorem powerStop_pwrFail : (powerStop d).pins.pwrFail = d.pins.pwrFail := by
  rw [powerStop, powerFlush_pwrFail]
  dsimp only [darken]
  rw [settleFlash_pins, haltCores_pins, fallowAll_pins]
  split <;> rfl

theorem getCore_powerStop (c : Nat) : coreAlive ((powerStop d).getCore c) = false ∨ (powerStop d).getCore c = {} := by
  have hcore : ∀ e : Dev, (powerFlush (darken e)).getCore c = e.getCore c := fun e => by
    simp only [Dev.getCore, powerFlush_core, darken, settleFlash_core]
  rw [powerStop, hcore]
  exact getCore_haltCores c _

end

/-- What PWRFAIL_ASSERT makes of the device. -/
def supplyFailed (d : Dev) : Dev := powerStop { d with pins := { d.pins with pwrFail := true } }

theorem exec_pwrfailAssert (s : State) : exec .pwrfailAssert s = done s supplyFailed := rfl

/-- What RAIL_UNDERVOLTAGE makes of the device: a rail of 17 Table 17-1 but VREC stops it. -/
def railLow (rail : Nat) (d : Dev) : Dev :=
  if 7 ≤ rail then d
  else powerStop (if d.evr.ready then
    { d with evr := placeRec ⟨0, 3, 6, 0, 0x1103, 0, 0, 0, 0, fit 8 (be 1 rail)⟩ false d.evr } else d)

theorem exec_railUndervoltage (rail : Nat) (s : State) : exec (.railUndervoltage rail) s = done s (railLow rail) := rfl

theorem runs_pwrfailAssert {s : State} (hp : Powered s) : ∃ d, Runs .pwrfailAssert s d ∧ d.pins.stopped = true ∧ d.pins.pwrFail = true ∧
    d.fls.busy = false ∧ ∀ c : Nat, coreAlive (d.getCore c) = false ∨ d.getCore c = {} := by
  refine ⟨supplyFailed s.dev, runs_of hp (exec_pwrfailAssert s) rfl, ?_⟩
  rw [supplyFailed]
  exact ⟨powerStop_stopped _, powerStop_pwrFail _, powerStop_busy _, getCore_powerStop _⟩

theorem railLow_stopped {rail : Nat} {d : Dev} (h : rail < 7) : (railLow rail d).pins.stopped = true := by
  rw [railLow, if_neg (Nat.not_le.mpr h)]
  exact powerStop_stopped _

/-- An engine that fails its test is retired, and the failure is a device fault. -/
theorem runs_engineKat {s : State} (hp : Powered s) (scePass latPass : Bool) : Runs (.engineKat scePass latPass) s
    (match scePass, latPass with
     | true, true => s.dev
     | false, true => deviceFault 4 (retireUnit 8 0 3 s.dev)
     | true, false => deviceFault 4 (retireUnit 9 0 3 s.dev)
     | false, false => deviceFault 4 (retireUnit 9 0 3 (retireUnit 8 0 3 s.dev))) := by
  refine runs_of hp (f := doEngineKat scePass latPass) rfl ?_
  cases scePass <;> cases latPass <;> simp only [doEngineKat, Bool.and_true, Bool.and_false, Bool.false_eq_true, if_true, if_false]

/-- Settles O48: the rows of an SRAM word go by the recurrence of its fault, those of a temperature by its limits; the stop halts every core. -/
theorem unitFaults : Obligations.UnitFaults := by
  unfold Obligations.UnitFaults
  refine fun s hp => ⟨fun region row addr unit h => ⟨?corrected, fun hone => ?uncorrectable, fun hagain => ?again⟩, fun row addr slice h hone => ?slice,
    runs_engineKat hp true true, runs_engineKat hp false true, runs_engineKat hp true false, runs_engineKat hp false false,
    fun tj ht => ⟨fun h hcold => ?hot, fun h hhot => ?stillHot, fun h => ?cool, fun h h' => ?between, fun h => ?warm, fun h => ?trip⟩,
    ?pwrfail,
    fun rail => ⟨fun h => ?noRail, fun h => ?rail⟩⟩
  case corrected => exact runs_of hp rfl (doSramPatrol_of_corrected h)
  case uncorrectable => exact runs_of hp rfl ((doSramPatrol_of_uncorrectable h).trans (if_neg (by simp [hone])))
  case again => exact runs_of hp rfl ((doSramPatrol_of_uncorrectable h).trans (if_pos hagain))
  case slice =>
    have hunit : sramUncorr 1 addr slice (markFault 7 row s.dev) = sliceFault slice 3 (markFault 7 row s.dev) :=
      congrArg (fun n => sliceFault n 3 (markFault 7 row s.dev)) (Nat.mod_eq_of_lt h)
    exact runs_of hp rfl (((doSramPatrol_of_uncorrectable (by decide)).trans (if_neg (by simp [hone]))).trans hunit)
  case hot => exact runs_of hp (f := doTempHot tj) rfl ((doTempHot_of_hot ht h).trans (if_pos hcold))
  case stillHot => exact runs_of hp (f := doTempHot tj) rfl ((doTempHot_of_hot ht h).trans (if_neg (by simp [hhot])))
  case cool => exact runs_of hp (f := doTempHot tj) rfl ((doTempHot_of_not_hot ht (h.trans (by decide))).trans (if_pos h))
  case between => exact runs_of hp (f := doTempHot tj) rfl ((doTempHot_of_not_hot ht h').trans (if_neg (Nat.not_lt.mpr h)))
  case warm => exact runs_of hp (f := doTempFault tj) rfl ((doTempFault_of_lt ht).trans (if_pos h))
  case trip => exact runs_of hp (f := doTempFault tj) rfl ((doTempFault_of_lt ht).trans (if_neg (Nat.not_lt.mpr h)))
  case pwrfail => exact runs_pwrfailAssert hp
  case noRail => exact runs_of hp (exec_railUndervoltage rail s) (if_pos h)
  case rail => exact ⟨railLow rail s.dev, runs_of hp (exec_railUndervoltage rail s) rfl, railLow_stopped h⟩

end Sys2Proof.Machine

/-! SUPPORT. The host interface: version, rings and queues, injected frames, holdoffs, function reset and D3hot (13 R363, R367, R368, R375 to R380). -/

namespace Sys2Proof.Machine

/-! ### Version (13 R367) -/

section
variable {v : Nat} {d : Dev}

theorem anyQueueOn_trained : anyQueueOn (when_ (d.hif.link == 0) linkTrain d) = anyQueueOn d := by
  unfold when_
  split <;> rfl

theorem doHostver_of_on (h : anyQueueOn d = true) : doHostver v d = when_ (d.hif.link == 0) linkTrain d :=
  if_pos (anyQueueOn_trained.trans h)

theorem doHostver_of_off (h : anyQueueOn d = false) : doHostver v d =
    let d := when_ (d.hif.link == 0) linkTrain d
    if bitAt (fld v 15 0) 1 = true then
      { d with hif := { d.hif with hostVer := fld v 19 0, maj := 1, min := 0, valid := true, incompat := false } }
    else hostErr 5 { d with hif := { d.hif with hostVer := fld v 19 0, maj := 0, min := 0, valid := false, incompat := true } } := by
  rw [doHostver]
  dsimp only
  rw [anyQueueOn_trained, if_neg (by simp [h]), commonMajor]
  cases bitAt (fld v 15 0) 1 <;> simp

end

/-! ### Configuration words (13 R365, R368) -/

/-- A word `w` that enables, and the rest `v` of it. -/
structure Enabling (w v : Nat) : Prop where
  lt : w < 2 ^ 32
  top : bitAt w 31 = true
  rest : w % 2 ^ 31 = v
  field : ∀ hi lo : Nat, lo ≤ hi → hi < 31 → fld w hi lo = fld v hi lo

theorem enabling_add {v : Nat} (hv : v < 2 ^ 31) : Enabling (2 ^ 31 + v) v where
  lt := by omega
  top := bitAt_31_add hv
  rest := by omega
  field hi lo hlo hhi := by rw [← fld_fld (le_refl hi) hlo, fld_add_top hhi, fld_fld (le_refl hi) hlo]

section
variable {w v : Nat} (hw : Enabling w v) {d : Dev}
include hw

theorem ringCfgWrite_of_enabled {r : Nat} (he : (d.getRing r).en = true) : ringCfgWrite r w d = d := by simp [ringCfgWrite, hw.top, he]

theorem ringCfgWrite_of_disabled {r : Nat} (he : (d.getRing r).en = false) : ringCfgWrite r w d =
    if d.hif.valid = true ∧ (d.getRing r).rbase % 64 = 0 ∧ (d.getRing r).cbase % 64 = 0 ∧ 6 ≤ fld v 4 0 ∧ fld v 4 0 ≤ 16 then
      ringOverrun r (d.updRing r (fun g => { g with rcfg := v, en := true }))
    else d.updRing r (fun g => { g with rcfg := v, cause := 1 }) := by
  have hsize : fld w 4 0 = fld v 4 0 := hw.field 4 0 (by decide) (by decide)
  rw [ringCfgWrite]
  dsimp only
  rw [if_neg (by simp [hw.top]), if_neg (by simp [he]), hw.rest, hsize, ← ite_not]
  refine if_congr ?_ rfl rfl
  simp only [Bool.or_eq_true, Bool.not_eq_true', bne_iff_ne, ne_eq, decide_eq_true_eq, or_assoc, not_or, not_not, Bool.not_eq_false, Nat.not_lt]

theorem injCfgWrite_of_taken {q : Nat} (he : (d.getInj q).en = false) (hvalid : d.hif.valid = true) (hbase : (d.getInj q).base % 16 = 0)
    (hlo : 4 ≤ fld v 11 8) (hhi : fld v 11 8 ≤ 12) : injCfgWrite q w d = d.updInj q (fun g => { g with cfg := v, en := true }) := by
  have hsize : fld w 11 8 = fld v 11 8 := hw.field 11 8 (by decide) (by decide)
  rw [injCfgWrite, if_neg (by simp [hw.top]), if_neg (by simp [he]), hw.rest, hsize]
  simp [hvalid, hbase, hlo, hhi]

theorem extCfgWrite_of_taken {q : Nat} (he : (d.getExt q).en = false) (hvalid : d.hif.valid = true) (hb : (d.getExt q).bbase % 8 = 0)
    (hc : (d.getExt q).cbase % 32 = 0) (hlo : 4 ≤ fld v 11 8) (hhi : fld v 11 8 ≤ 12) :
    extCfgWrite q w d = d.updExt q (fun g => { g with cfg := v, en := true }) := by
  have hsize : fld w 11 8 = fld v 11 8 := hw.field 11 8 (by decide) (by decide)
  rw [extCfgWrite, if_neg (by simp [hw.top]), if_neg (by simp [he]), hw.rest, hsize]
  simp [hvalid, hb, hc, hlo, hhi]

theorem hmbCfgWrite_of_enabled (he : d.hif.hmbEn = true) : hmbCfgWrite w d = d := by simp [hmbCfgWrite, hw.top, he]

theorem hmbCfgWrite_of_disabled (he : d.hif.hmbEn = false) : hmbCfgWrite w d =
    { d with hif := { d.hif with hmbCfg := v, hmbEn := d.hif.valid && d.hif.hmbBase % 64 == 0 && decide (4 ≤ fld v 3 0) && decide (fld v 3 0 ≤ 12) } } := by
  have hsize : fld w 3 0 = fld v 3 0 := hw.field 3 0 (by decide) (by decide)
  rw [hmbCfgWrite, if_neg (by simp [hw.top]), if_neg (by simp [he]), hw.rest, hsize]

end

section
variable {v : Nat} (hv : v < 2 ^ 31) {d : Dev}
include hv

theorem ringCfgWrite_of_off {r : Nat} : ringCfgWrite r v d = d.updRing r (fun g => { g with rcfg := v, en := false, halt := false, cause := 0 }) := by
  simp only [ringCfgWrite, bitAt_31_of_lt hv, Nat.mod_eq_of_lt hv, Bool.not_false, if_true]

theorem hmbCfgWrite_of_off : hmbCfgWrite v d = { d with hif := { d.hif with hmbCfg := v, hmbEn := false } } := by
  simp only [hmbCfgWrite, bitAt_31_of_lt hv, Nat.mod_eq_of_lt hv, Bool.not_false, if_true]

end

/-! ### Ring indices (13 R368) -/

section
variable {r : Nat} {d : Dev}

/-- More descriptors are posted than the ring has entries. -/
def ringOverfull (g : Ring) : Bool := decide ((g.pi + 2 ^ 32 - g.ci) % 2 ^ 32 > 2 ^ fld g.rcfg 4 0)

theorem ringOverrun_eq : ringOverrun r d = if ((d.getRing r).en && !(d.getRing r).halt && ringOverfull (d.getRing r)) = true then haltRing r 2 d else d := rfl

theorem ringOverrun_of_full (he : (d.getRing r).en = true) (hh : (d.getRing r).halt = false) (hfull : ringOverfull (d.getRing r) = true) :
    ringOverrun r d = haltRing r 2 d := by simp [ringOverrun_eq, he, hh, hfull]

theorem ringOverrun_of_kept (h : (d.getRing r).en = false ∨ (d.getRing r).halt = true ∨ ringOverfull (d.getRing r) = false) :
    ringOverrun r d = d := by
  obtain h | h | h := h <;> simp [ringOverrun_eq, h]

end

/-! ### Injected frames (13 R375, R376) -/

section
variable {q : Nat} {d : Dev}

theorem getInj_hostOut (o : HostOut) (d : Dev) (q : Nat) : (hostOut o d).getInj q = d.getInj q := by
  unfold hostOut Dev.getInj
  split <;> rfl

theorem getInj_hostErr (b : Nat) (d : Dev) (q : Nat) : (hostErr b d).getInj q = d.getInj q := by
  unfold hostErr
  split
  · rfl
  · dsimp only
    split
    · unfold sendMsix
      split
      · rfl
      · exact getInj_hostOut _ _ q
    · rfl

theorem getInj_dmaFailed (kind p : Nat) (d : Dev) (q : Nat) : (dmaFailed kind p d).getInj q = d.getInj q := by
  rw [dmaFailed, Dev.getInj, event_hif]
  exact getInj_hostErr 4 d q

theorem injSend_of_empty (h : (d.getInj q).frames = []) : injSend q d = d := by simp only [injSend, h]

theorem injRead_of_idle {f : HostFrame} {fail : Bool} (h : injReads q d = false) : injRead q f fail d = d := if_pos (by simp [h])

theorem injReads_of_frames {f : InjFrame} {rest : List InjFrame} (h : (d.getInj q).frames = f :: rest) : injReads q d = false := by
  simp [injReads, h]

theorem frames_of_injReads (h : injReads q d = true) : (d.getInj q).frames = [] := by
  simp only [injReads, Bool.and_eq_true, List.isEmpty_iff] at h
  exact h.1.1.2

/-- The host-owned queue's reads of its next entry and of the entry's frame. -/
def injDma (q : Nat) (entry : Bytes) (d : Dev) : Dev :=
  dmaRead (leAt entry 0 8) (leAt entry 8 2) (dmaRead ((d.getInj q).base + 16 * ((d.getInj q).ci % 2 ^ fld (d.getInj q).cfg 11 8)) 16 d)

/-- A read that fails drops its frame. -/
def injMissed (q : Nat) (d : Dev) : Dev :=
  dmaFailed 1 q (d.updInj q (fun g => { g with drop := sat64 (g.drop + 1), ci := (g.ci + 1) % 2 ^ 32 }))

section
variable {f : HostFrame} {fail : Bool} (hr : injReads q d = true) (hl : f.entry.length = 16)
include hr hl

theorem injRead_of_missed (h : fail = true ∨ f.data.length ≠ leAt f.entry 8 2) : injRead q f fail d = injMissed q (injDma q f.entry d) := by
  rw [injRead, if_neg (by simp [hr])]
  dsimp only
  rw [if_pos (by simpa [hl, or_assoc] using h)]
  simp only [hl, when_, beq_self_eq_true, if_true]
  rfl

theorem injRead_of_taken {l : List Nat} {d1 : Dev} (h : f.data.length = leAt f.entry 8 2)
    (ht : takeCells (0xA0 + q) (ceilDiv f.data.length 256) (injDma q f.entry d) = (some l, d1)) :
    injRead q f false d = d1.updInj q (fun g => { g with frames := [⟨f.data, l⟩] }) := by
  unfold injDma at ht
  rw [injRead, if_neg (by simp [hr])]
  dsimp only
  rw [if_neg (by simp [hl, h])]
  simp only [hl, when_, beq_self_eq_true, if_true, ht]

end

theorem injSend_injMissed (h : (d.getInj q).frames = []) : injSend q (injMissed q d) = injMissed q d :=
  injSend_of_empty (by rw [injMissed, getInj_dmaFailed, Dev.getInj_updInj]; exact h)

theorem getInj_injDma (entry : Bytes) : (injDma q entry d).getInj q = d.getInj q := by rw [injDma, dmaRead, dmaRead, getInj_hostOut, getInj_hostOut]

/-- What INJECTION_FRAME_SEND makes of the device. -/
def injected (q : Nat) (f : HostFrame) (fail : Bool) (d : Dev) : Dev := if (d.getInj q).en then injSend q (injRead q f fail d) else d

theorem exec_injectionFrameSend (q : Nat) (f : HostFrame) (fail : Bool) (s : State) :
    exec (.injectionFrameSend q f fail) s = done s (injected q f fail) := rfl

section
variable {f : HostFrame} {fail : Bool}

theorem injected_of_off (he : (d.getInj q).en = false) : injected q f fail d = d := if_neg (by simp [he])

variable (he : (d.getInj q).en = true)
include he

theorem injected_of_on : injected q f fail d = injSend q (injRead q f fail d) := if_pos he

theorem injected_of_empty (hf : (d.getInj q).frames = []) (hr : injReads q d = false) : injected q f fail d = d := by
  rw [injected_of_on he, injRead_of_idle hr, injSend_of_empty hf]

theorem injected_of_missed (hr : injReads q d = true) (hl : f.entry.length = 16) (h : fail = true ∨ f.data.length ≠ leAt f.entry 8 2) :
    injected q f fail d = injMissed q (injDma q f.entry d) := by
  rw [injected_of_on he, injRead_of_missed hr hl h]
  exact injSend_injMissed (by rw [getInj_injDma]; exact frames_of_injReads hr)

section
variable {g : InjFrame} {rest : List InjFrame} (hf : (d.getInj q).frames = g :: rest) (h6 : bitAt (d.getInj q).cfg 6 = false)
include hf h6

theorem injected_of_frame : injected q f fail d =
    let p := fld (d.getInj q).cfg 5 0
    if injEtype (d.getInj q) g.bytes = true ∧ portEnabled d p = true ∧ portDead d p = false ∧ 60 ≤ g.bytes.length ∧ g.bytes.length ≤ 9724 then
      injPop q (lineEmit p (.frame p g.bytes (!badCells g.cells d)) d)
    else injDrop q d := by
  rw [injected_of_on he, injRead_of_idle (injReads_of_frames hf), injSend]
  simp only [hf, h6, Bool.false_eq_true, if_false]
  rw [← ite_not]
  refine if_congr ?_ rfl rfl
  simp only [Bool.or_eq_true, Bool.not_eq_true', decide_eq_true_eq, or_assoc, not_or, Bool.not_eq_false, Bool.not_eq_true, Nat.not_lt]

end
end
end

/-! ### Holdoffs and D3hot (13 R363, R379) -/

theorem holdoffEnd_of_ring {r : Nat} {d : Dev} (hr : r < 64) : holdoffEnd r d =
    let e := d.updRing r (fun g => { g with holdoff := false, sigPend := false })
    if (d.getRing r).sigPend = true then ringSignal r e else e := if_pos hr

/-- What POWER_STATE_D3HOT makes of the device. -/
def powerState (on : Bool) (d : Dev) : Dev :=
  if on then { d with hif := { d.hif with d3hot := true } }
  else
    let h := d.hif
    each h.heldSubs (fun x d => submitOrFault x.2.1 x.2.2 x.1 d) { d with
      hif := { h with d3hot := false, held := [], heldSubs := [], hmbLate := 0,
                      ring := h.ring.map (fun e => (e.1, { e.2 with late := 0 })), ext := h.ext.map (fun e => (e.1, { e.2 with late := 0 })) }
      out := h.held.map Out.host ++ d.out }

theorem exec_powerStateD3hot (on : Bool) (s : State) : exec (.powerStateD3hot on) s = done s (powerState on) := rfl

/-! ### Pages (13 R365) -/

section
variable {s : State} (hp : Powered s) (hopen : regsShut s.dev = false) {w : Nat} (hw : w < 2 ^ 32) {d : Dev}
include hp hopen hw

theorem runs_ringEnable_of_page {page : Nat} (h : pageCfgWrite page w s.dev = d) : Runs (.ringEnable page w) s d :=
  runs_doneReg_of_open hp hopen (f := pageCfgWrite page (w % 2 ^ 32)) rfl (by rw [Nat.mod_eq_of_lt hw]; exact h)

theorem runs_ringEnable_of_ring {r : Nat} (hr : r < 64) (h : ringCfgWrite r w s.dev = d) : Runs (.ringEnable r w) s d :=
  runs_ringEnable_of_page hp hopen hw (by rw [pageCfgWrite, if_pos hr, h])

theorem runs_ringEnable_of_inj {q : Nat} (hq : q < 16) (h : injCfgWrite q w s.dev = d) : Runs (.ringEnable (64 + q) w) s d :=
  runs_ringEnable_of_page hp hopen hw (by rw [pageCfgWrite, if_neg (by omega), if_pos (by omega), Nat.add_sub_cancel_left, h])

theorem runs_ringEnable_of_ext {q : Nat} (hq : q < 16) (h : extCfgWrite q w s.dev = d) : Runs (.ringEnable (80 + q) w) s d :=
  runs_ringEnable_of_page hp hopen hw
    (by rw [pageCfgWrite, if_neg (by omega), if_neg (by omega), if_pos (by omega), Nat.add_sub_cancel_left, h])

theorem runs_ringEnable_of_hmb (h : hmbCfgWrite w s.dev = d) : Runs (.ringEnable 96 w) s d :=
  runs_ringEnable_of_page hp hopen hw h

end

/-- Settles O39: a configuration word goes by its enable rules, and a queue's frame by the checks of its queue and port. -/
theorem hostInterface : Obligations.HostInterface := by
  unfold Obligations.HostInterface
  refine ⟨fun s hp hopen => ⟨fun v => ⟨fun hon => ?verOn, fun hoff => ⟨fun h1 => ?verAgreed, fun h1 => ?verOther⟩⟩,
      fun r v hr hv => ?ring, fun q v hq hv he hvalid hbase hlo hhi => ?inj, fun q v hq hv he hvalid hb hc hlo hhi => ?ext, fun v hv => ?hmb,
      fun r v hv => ⟨fun he hh hfull => ?piFull, fun h => ?piKept⟩, fun q v hv => ?injPi, fun q v bufs hv => ?extPi⟩,
    fun s hp => ⟨fun q h fail => ⟨fun he => ?injOff, fun he hf hr => ?injEmpty, fun he hr hl => ⟨fun h => ?injMissed, fun l d1 hok h ht => ?injTaken⟩,
      fun f rest he hf h6 => ⟨fun h1 h2 h3 h4 h5 => ?frameSent, fun h => ?frameDropped⟩⟩, fun r hr => ⟨fun h => ?signal, fun h => ?noSignal⟩,
      fun cause => runs_of hp rfl rfl, runs_of hp (exec_powerStateD3hot true s) rfl, runs_of hp (exec_powerStateD3hot false s) rfl⟩⟩
  case verOn => exact runs_doneReg_of_open hp hopen rfl (doHostver_of_on hon)
  case verAgreed => exact runs_doneReg_of_open hp hopen rfl ((doHostver_of_off hoff).trans (if_pos h1))
  case verOther => exact runs_doneReg_of_open hp hopen rfl ((doHostver_of_off hoff).trans (if_neg (by simp [h1])))
  case ring =>
    have hw := enabling_add hv
    refine ⟨fun he => ?on, fun he hvalid hb hc hlo hhi => ⟨fun h => ?taken, fun hh hfull => ?overfull⟩, fun he h => ?refused, ?off⟩
    case on => exact runs_ringEnable_of_ring hp hopen hw.lt hr (ringCfgWrite_of_enabled hw he)
    case taken =>
      refine runs_ringEnable_of_ring hp hopen hw.lt hr (((ringCfgWrite_of_disabled hw he).trans (if_pos ⟨hvalid, hb, hc, hlo, hhi⟩)).trans ?_)
      exact ringOverrun_of_kept (Or.inr (by rw [Dev.getRing_updRing]; exact h.imp_right decide_eq_false))
    case overfull =>
      refine runs_ringEnable_of_ring hp hopen hw.lt hr (((ringCfgWrite_of_disabled hw he).trans (if_pos ⟨hvalid, hb, hc, hlo, hhi⟩)).trans ?_)
      exact ringOverrun_of_full (by rw [Dev.getRing_updRing]) (by rw [Dev.getRing_updRing]; exact hh) (by rw [Dev.getRing_updRing]; exact decide_eq_true hfull)
    case refused =>
      refine runs_ringEnable_of_ring hp hopen hw.lt hr ((ringCfgWrite_of_disabled hw he).trans (if_neg ?_))
      rintro ⟨hvalid, hb, hc, hlo, hhi⟩
      simp [hvalid, hb, hc] at h
      omega
    case off => exact runs_ringEnable_of_ring hp hopen (by omega) hr (ringCfgWrite_of_off hv)
  case inj => exact runs_ringEnable_of_inj hp hopen (enabling_add hv).lt hq (injCfgWrite_of_taken (enabling_add hv) he hvalid hbase hlo hhi)
  case ext => exact runs_ringEnable_of_ext hp hopen (enabling_add hv).lt hq (extCfgWrite_of_taken (enabling_add hv) he hvalid hb hc hlo hhi)
  case hmb =>
    have hw := enabling_add hv
    refine ⟨?off, fun he => ?on, fun he => ⟨fun hvalid hb hlo hhi => ?taken, fun h => ?refused⟩⟩
    case off => exact runs_ringEnable_of_hmb hp hopen (by omega) (hmbCfgWrite_of_off hv)
    case on => exact runs_ringEnable_of_hmb hp hopen hw.lt (hmbCfgWrite_of_enabled hw he)
    case taken => exact runs_ringEnable_of_hmb hp hopen hw.lt ((hmbCfgWrite_of_disabled hw he).trans (by simp [hvalid, hb, hlo, hhi]))
    case refused =>
      have hno : (s.dev.hif.valid && s.dev.hif.hmbBase % 64 == 0 && decide (4 ≤ fld v 3 0) && decide (fld v 3 0 ≤ 12)) = false := by
        refine Bool.eq_false_iff.mpr ?_
        simp only [ne_eq, Bool.and_eq_true, beq_iff_eq, decide_eq_true_eq]
        rintro ⟨⟨⟨hvalid, hb⟩, hlo⟩, hhi⟩
        simp [hvalid, hb] at h
        omega
      exact runs_ringEnable_of_hmb hp hopen hw.lt ((hmbCfgWrite_of_disabled hw he).trans (by rw [hno]))
  case piFull =>
    refine runs_doneReg_of_open hp hopen (f := ringPiWrite r v) rfl ?_
    rw [ringPiWrite, Nat.mod_eq_of_lt hv]
    exact ringOverrun_of_full he hh hfull
  case piKept =>
    refine runs_doneReg_of_open hp hopen (f := ringPiWrite r v) rfl ?_
    rw [ringPiWrite, Nat.mod_eq_of_lt hv]
    exact ringOverrun_of_kept h
  case injPi => exact runs_doneReg_of_open hp hopen (f := hiqPiWrite q v) rfl (by rw [hiqPiWrite, Nat.mod_eq_of_lt hv])
  case extPi => exact runs_doneReg_of_open hp hopen (f := hxqBpiWrite q v bufs) rfl (by rw [hxqBpiWrite, Nat.mod_eq_of_lt hv])
  case injOff => exact runs_of hp (exec_injectionFrameSend q h fail s) (injected_of_off he)
  case injEmpty => exact runs_of hp (exec_injectionFrameSend q h fail s) (injected_of_empty he hf hr)
  case injMissed h' => exact runs_of hp (exec_injectionFrameSend q h' fail s) (injected_of_missed he hr hl h)
  case injTaken h' =>
    subst hok
    exact runs_of hp (exec_injectionFrameSend q h' false s) ((injected_of_on he).trans (congrArg (injSend q) (injRead_of_taken hr hl h ht)))
  case frameSent => exact runs_of hp (exec_injectionFrameSend q h fail s) ((injected_of_frame he hf h6).trans (if_pos ⟨h1, h2, h3, h4, h5⟩))
  case frameDropped h' =>
    refine runs_of hp (exec_injectionFrameSend q h' fail s) ((injected_of_frame he hf h6).trans (if_neg ?_))
    rintro ⟨h1, h2, h3, h4, h5⟩
    simp [h1, h2, h3] at h
    omega
  case signal => exact runs_of hp rfl ((holdoffEnd_of_ring hr).trans (if_pos h))
  case noSignal => exact runs_of hp rfl ((holdoffEnd_of_ring hr).trans (if_neg (by simp [h])))

end Sys2Proof.Machine

/-! SUPPORT. Descriptors, failed reads and the host's own commands (13 R366, R369, R371, R374, R378). -/

namespace Sys2Proof.Machine

/-! ### Descriptors (13 R371) -/

section
variable {r : Nat} {desc image : Bytes} {imageFail : Bool} {d : Dev}

theorem doDescriptorFetch_of_still {ringFail : Bool} (h : (d.getRing r).en = false ∨ (d.getRing r).halt = true ∨ d.hif.d3hot = true) :
    doDescriptorFetch r desc image ringFail imageFail d = d := by
  have hrun : ringRuns r d = false := by obtain h | h | h := h <;> simp [ringRuns, h]
  simp [doDescriptorFetch, ringFetches, hrun]

theorem ringFetches_of_posted (he : (d.getRing r).en = true) (hh : (d.getRing r).halt = false) (h3 : d.hif.d3hot = false)
    (hw : (d.getRing r).waiting = none) (hpi : (d.getRing r).ci ≠ (d.getRing r).pi)
    (hroom : ((d.getRing r).cpi + 2 ^ 32 - (d.getRing r).cci) % 2 ^ 32 + (d.getRing r).reserved + 2 ≤ 2 ^ fld (d.getRing r).rcfg 4 0) :
    ringFetches r d = true := by
  rw [ringFetches, decide_eq_true hroom]
  simp [ringRuns, he, hh, h3, hw, hpi]

/-- The read of ring `r`'s next descriptor. -/
def descRead (r : Nat) (d : Dev) : Dev := dmaRead ((d.getRing r).rbase + 64 * ((d.getRing r).ci % 2 ^ fld (d.getRing r).rcfg 4 0)) 64 d

/-- The descriptor is taken: CI moves on, and two completion entries are reserved. -/
def descTaken (r : Nat) (d : Dev) : Dev := (descRead r d).updRing r (fun g => { g with ci := (g.ci + 1) % 2 ^ 32, reserved := g.reserved + 2 })

/-- The submission of a fetched descriptor `b`. -/
def descSub (r : Nat) (b : Bytes) (d : Dev) : Sub := ⟨.ring r, descTag b, 0, (d.getRing r).ci⟩

/-- The read of a descriptor's own input. -/
def inputRead (x : Desc) (d : Dev) : Dev := when_ (readsImage x.code) (dmaRead (imageAddr x) 64) d

section
variable (hf : ringFetches r d = true)
include hf

theorem doDescriptorFetch_of_fetched {ringFail : Bool} : doDescriptorFetch r desc image ringFail imageFail d =
    if ringFail = true then haltRing r 3 (dmaFailed 0 r (descRead r d))
    else
      let b := fit 64 desc
      let x := descOf b image
      if descOk b x = false then refuseDesc (descSub r b d) x.code stBAD_COMMAND (descTaken r d)
      else if readsImage x.code = true ∧ (imageFail = true ∨ image.length ≠ 64) then
        refuseDesc (descSub r b d) x.code stDMA_FAULT (dmaFailed 2 r (inputRead x (descTaken r d)))
      else ringTry r ((inputRead x (descTaken r d)).updRing r (fun g => { g with waiting := some (descSub r b d, x, descFence b) })) := by
  have hw : (d.getRing r).waiting.isSome = false := by
    simp only [ringFetches, Bool.and_eq_true, Option.isNone_iff_eq_none] at hf
    simp [hf.1.1.2]
  rw [doDescriptorFetch, if_neg (by simp [hw]), if_neg (by simp [hf])]
  dsimp only
  refine if_congr Iff.rfl rfl (if_congr (by rw [Bool.not_eq_true']) rfl (if_congr ?_ rfl rfl))
  simp only [Bool.and_eq_true, Bool.or_eq_true, bne_iff_ne]

theorem doDescriptorFetch_of_malformed (h : descOk (fit 64 desc) (descOf (fit 64 desc) image) = false) :
    doDescriptorFetch r desc image false imageFail d =
      refuseDesc (descSub r (fit 64 desc) d) (descOf (fit 64 desc) image).code stBAD_COMMAND (descTaken r d) :=
  (doDescriptorFetch_of_fetched hf).trans ((if_neg Bool.false_ne_true).trans (if_pos h))

variable (hok : descOk (fit 64 desc) (descOf (fit 64 desc) image) = true)
include hok

theorem doDescriptorFetch_of_inputMissed (hi : readsImage (descOf (fit 64 desc) image).code = true) :
    doDescriptorFetch r desc image false true d = refuseDesc (descSub r (fit 64 desc) d) (descOf (fit 64 desc) image).code stDMA_FAULT
      (dmaFailed 2 r (inputRead (descOf (fit 64 desc) image) (descTaken r d))) := by
  rw [doDescriptorFetch_of_fetched hf, if_neg Bool.false_ne_true]
  dsimp only
  rw [if_neg (by simp [hok]), if_pos ⟨hi, Or.inl rfl⟩]

theorem doDescriptorFetch_of_submitted (hi : readsImage (descOf (fit 64 desc) image).code = true → imageFail = false ∧ image.length = 64) :
    doDescriptorFetch r desc image false imageFail d = ringTry r ((inputRead (descOf (fit 64 desc) image) (descTaken r d)).updRing r
      (fun g => { g with waiting := some (descSub r (fit 64 desc) d, descOf (fit 64 desc) image, descFence (fit 64 desc)) })) := by
  have hread : ¬(readsImage (descOf (fit 64 desc) image).code = true ∧ (imageFail = true ∨ image.length ≠ 64)) := by
    rintro ⟨himage, hmiss⟩
    obtain ⟨hfail, hlen⟩ := hi himage
    simp [hfail, hlen] at hmiss
  rw [doDescriptorFetch_of_fetched hf, if_neg Bool.false_ne_true]
  dsimp only
  rw [if_neg (by simp [hok]), if_neg hread]

end
end

/-! ### Reads without a completion (13 R378) -/

section
variable {q : Nat} {d : Dev} {desc : Bytes}

theorem doDmaTimeout_of_noFetch (h : ringFetches q d = false) : doDmaTimeout .fetch q d = d := if_neg (by simp [h])

theorem doDmaTimeout_of_fetch (h : ringFetches q d = true) : doDmaTimeout .fetch q d = haltRing q 3 (dmaFailed 0 q (descRead q d)) :=
  (if_pos h).trans ((doDescriptorFetch_of_fetched h).trans (if_pos rfl))

theorem doDmaTimeout_of_noCommand (h : ringFetches q d = false ∨ readsHost (descOf (fit 64 desc) []) = false) :
    doDmaTimeout (.command desc) q d = d := if_neg (by obtain h | h := h <;> simp [h])

theorem doDmaTimeout_of_command (h : ringFetches q d = true) (hr : readsHost (descOf (fit 64 desc) []) = true) :
    doDmaTimeout (.command desc) q d = doDescriptorFetch q desc [] false true d := if_pos (by simp [h, hr])

theorem doDmaTimeout_of_noFrame (h : (d.getInj q).en = false ∨ injReads q d = false) : doDmaTimeout .frame q d = d := by
  rw [doDmaTimeout]
  split
  next he =>
    obtain h | h := h
    · simp [h] at he
    · exact injRead_of_idle h
  next => rfl

theorem doDmaTimeout_of_frame (he : (d.getInj q).en = true) (h : injReads q d = true) : doDmaTimeout .frame q d =
    injMissed q (dmaRead ((d.getInj q).base + 16 * ((d.getInj q).ci % 2 ^ fld (d.getInj q).cfg 11 8)) 16 d) := by
  rw [doDmaTimeout, if_pos he, injRead, if_neg (by simp [h])]
  rfl

end

/-! ### Host messages (13 R374) -/

section
variable {b : Sub} {msg : Bytes} {d : Dev} (h3 : fld (leAt msg 0 8) 3 0 = 0) (h19 : fld (leAt msg 0 8) 21 19 = 0)
include h3 h19

theorem doMsgSend_of_dead (ha : coreAlive (d.getCore (fld (leAt msg 0 8) 9 4)) = false) : doMsgSend b msg d = complete b 5 stBAD_DEST [] d := by
  simp [doMsgSend, h3, h19, ha]

theorem doMsgSend_of_alive (ha : coreAlive (d.getCore (fld (leAt msg 0 8) 9 4)) = true) : doMsgSend b msg d =
    if (d.getCore (fld (leAt msg 0 8) 9 4)).mailbox.length < 64 then complete b 5 stOK []
      (d.updCore (fld (leAt msg 0 8) 9 4) (fun k => { k with mailbox := k.mailbox ++ [withSrc (messageOf msg) reqHost] }))
    else complete b 5 stBUSY [] d := by
  rw [doMsgSend]
  dsimp only
  rw [if_neg (by simp [h3, h19]), if_neg (by simp [ha]), mailboxPut]
  split <;> simp

end

/-! ### Copies (13 R366) -/

theorem offFrom_add (base off : Nat) : offFrom base (base + off) = off := by
  rw [offFrom, Nat.cast_add, add_sub_cancel_left, Int.toNat_natCast]

theorem hostReach_of_unlocked {off n : Nat} {write : Bool} {d : Dev} (h : d.mem.lock = false) : hostReach off n write d = .blocked := by
  simp [hostReach, h]

theorem hostReach_of_ok {off n : Nat} {write : Bool} {d : Dev} (hl : d.mem.lock = true) (h : ddrCheck .host off n write d = .ok) :
    hostReach off n write d = .ok := by simp [hostReach, hl, h]

section
variable {b : Sub} {host off len : Nat} {data : Bytes} {d : Dev} (h0 : 0 < len) (hmax : len ≤ 2 ^ 24)
include h0 hmax

theorem doHifCopy_of_blocked (h : d.mem.lock = false) :
    doHifCopy b host (ddrBase + off) len 1 data d = complete b 5 stMEM_FAULT [] (ddrFail .host off len false .blocked d) := by
  rw [doHifCopy, if_neg (by simp; omega), if_neg (by omega)]
  simp only [offFrom_add, hostReach_of_unlocked h]
  rfl

theorem doHifCopy_of_out (hl : d.mem.lock = true) (h : ddrCheck .host off len false d = .ok) : doHifCopy b host (ddrBase + off) len 1 data d =
    complete b 5 stOK [] (hostOut (.dma host (getBytes d.mem.ddr off len)) d) := by
  have hreach : hostReach off len ((1 : Nat) == 0) d = .ok := hostReach_of_ok hl h
  rw [doHifCopy, if_neg (by simp; omega), if_neg (by omega)]
  simp only [offFrom_add, hreach]
  rfl

theorem doHifCopy_of_in (hl : d.mem.lock = true) (h : ddrCheck .host off len true d = .ok) : doHifCopy b host (ddrBase + off) len 0 data d =
    if data.length = len then complete b 5 stOK [] (ddrWrite .host off data (dmaRead host len d)).2
    else complete b 5 stDMA_FAULT [] (dmaFailed 2 (subRing b) (dmaRead host len d)) := by
  have hreach : hostReach off len ((0 : Nat) == 0) d = .ok := hostReach_of_ok hl h
  rw [doHifCopy, if_neg (by simp; omega), if_neg (by omega)]
  simp only [offFrom_add, hreach, if_true]
  exact ite_not _ _ _

end

/-- Settles O40: a fetched descriptor goes by its form and its reads, a message by its mailbox, and a copy by what the host may reach. -/
theorem hostCommands : Obligations.HostCommands := by
  unfold Obligations.HostCommands
  refine fun s hp => ⟨fun r desc image imageFail => ⟨fun h => ?still, fun he hh h3 hw hpi hroom => ?fetch⟩, fun r desc h => ⟨?noFetch, ?noCommand⟩,
    fun r desc h => ⟨fun hr => ?command, fun hr => ?noHost⟩, fun q => ⟨fun h => ?noFrame, fun he h => ?frame⟩, fun b => runs_of hp rfl rfl,
    fun b msg h3 h19 => ⟨fun ha => ?dead, fun ha hroom => ?room, fun ha hfull => ?full⟩,
    fun b host off len data h0 hmax => ⟨fun hl h hlen => ?copyIn, fun hl h hlen => ?copyMissed, fun hl h => ?copyOut, fun h => ?copyBlocked⟩⟩
  case still => exact runs_of hp rfl (doDescriptorFetch_of_still h)
  case fetch =>
    have hf := ringFetches_of_posted he hh h3 hw hpi hroom
    refine ⟨?halted, ?timeout, fun hok => ?malformed, fun hok hi hfail => ?inputMissed, fun hok hi => ?submitted⟩
    case halted => exact runs_of hp rfl ((doDescriptorFetch_of_fetched hf).trans (if_pos rfl))
    case timeout => exact runs_of hp rfl (doDmaTimeout_of_fetch hf)
    case malformed => exact runs_of hp rfl (doDescriptorFetch_of_malformed hf hok)
    case inputMissed => subst hfail; exact runs_of hp rfl (doDescriptorFetch_of_inputMissed hf hok hi)
    case submitted => exact runs_of hp rfl (doDescriptorFetch_of_submitted hf hok hi)
  case noFetch => exact runs_of hp rfl (doDmaTimeout_of_noFetch h)
  case noCommand => exact runs_of hp rfl (doDmaTimeout_of_noCommand (Or.inl h))
  case command => exact runs_of hp rfl (doDmaTimeout_of_command h hr)
  case noHost => exact runs_of hp rfl (doDmaTimeout_of_noCommand (Or.inr hr))
  case noFrame => exact runs_of hp rfl (doDmaTimeout_of_noFrame h)
  case frame => exact runs_of hp rfl (doDmaTimeout_of_frame he h)
  case dead => exact runs_of hp rfl (doMsgSend_of_dead h3 h19 ha)
  case room => exact runs_of hp rfl ((doMsgSend_of_alive h3 h19 ha).trans (if_pos hroom))
  case full => exact runs_of hp rfl ((doMsgSend_of_alive h3 h19 ha).trans (if_neg (Nat.not_lt.mpr hfull)))
  case copyIn => exact runs_of hp rfl ((doHifCopy_of_in h0 hmax hl h).trans (if_pos hlen))
  case copyMissed => exact runs_of hp rfl ((doHifCopy_of_in h0 hmax hl h).trans (if_neg hlen))
  case copyOut => exact runs_of hp rfl (doHifCopy_of_out h0 hmax hl h)
  case copyBlocked => exact runs_of hp rfl (doHifCopy_of_blocked h0 hmax h)

end Sys2Proof.Machine

/-! SUPPORT. Mode changes: what the operations of a mode change leave of the MOD block, and the requests of MOD_REQ (14 R382, R388 to R390, R401). -/

namespace Sys2Proof.Machine

/-! ### What keeps the MOD block -/

section
variable (d : Dev)

@[simp] theorem errorEndPort_mod (n : Nat) : (errorEndPort n d).mod = d.mod :=
  each_keeps Dev.mod _ (fun f x => by unfold lineEmit; split <;> simp) _ d

@[simp] theorem fallowAll_mod : (fallowAll d).mod = d.mod := each_keeps Dev.mod _ (fun n d => errorEndPort_mod d n) _ d

@[simp] theorem sendDepart_mod : (sendDepart d).mod = d.mod := (pathSend_mod ..).trans (pathSend_mod ..)

@[simp] theorem departFirst_mod (m : Mode) : (departFirst m d).mod = d.mod := by unfold departFirst; split <;> simp

@[simp] theorem osfPut_mod (q : Option Nat) (b : Bytes) : (osfPut q b d).mod = d.mod := by
  unfold osfPut
  dsimp only
  (repeat' split) <;> simp

@[simp] theorem hbFrames_mod (role : Nat) : (hbFrames role d).mod = d.mod := by
  unfold hbFrames
  exact (each_keeps Dev.mod _ (fun p x => osfPut_mod x _ _) _ _).trans (freeBytes_mod 6 _)

@[simp] theorem offerPair_mod : (offerPair d).mod = d.mod := by
  unfold offerPair sendOffer
  split <;> simp

@[simp] theorem fenceAll_mod : (fenceAll d).mod = d.mod := each_keeps Dev.mod fencePort (fun n d => Dev.updTwn_mod n _ d) _ d

@[simp] theorem unfenceAll_mod : (unfenceAll d).mod = d.mod := by
  unfold unfenceAll
  dsimp only
  rw [each_keeps Dev.mod _ (fun n d => Dev.updTwn_mod n _ d)]

@[simp] theorem pairReset_mod : (pairReset d).mod = d.mod := twnSet_mod _ d

@[simp] theorem onSolo_mod : (onSolo d).mod = d.mod := rfl

@[simp] theorem loadDeviceKeys_mod : (loadDeviceKeys d).mod = d.mod := by
  unfold loadDeviceKeys putKek freeKeyId
  dsimp only
  split <;> simp

end

/-! ### The mode after a change (14 R382) -/

section
variable (m : Mode) (reason : Nat) (d : Dev)

/-- The mode of a device and the one before it. -/
def Dev.modes (d : Dev) : Mode × Mode := (d.mod.mode, d.mod.prev)

theorem Dev.modes_of_mod {d e : Dev} (h : e.mod = d.mod) : e.modes = d.modes := by rw [Dev.modes, h, Dev.modes]

@[simp] theorem takeMode_modes : (takeMode m reason d).modes = (m, d.mod.mode) := by simp [Dev.modes, takeMode, mrExtend]

@[simp] theorem takeMode_reason : (takeMode m reason d).mod.reason = reason := by simp [takeMode, mrExtend]

@[simp] theorem enterMode_modes : (enterMode m reason d).modes = (m, d.mod.mode) := by simp [enterMode]

@[simp] theorem enterFallow_modes : (enterFallow m reason d).modes = (m, d.mod.mode) := by simp [enterFallow]

theorem takeMode_mode : (takeMode m reason d).mod.mode = m := by simp [takeMode, mrExtend]

theorem enterFallow_mode : (enterFallow m reason d).mod.mode = m := by rw [enterFallow, takeMode_mode]

@[simp] theorem enterFallow_reason : (enterFallow m reason d).mod.reason = reason := by simp [enterFallow]

theorem onEnrol_modes : (onEnrol d).modes = d.modes := by
  unfold onEnrol
  dsimp only
  (repeat' split) <;> simp [Dev.modes]

end

/-! ### Requests (14 R388 to R390) -/

theorem fld_mode_code (t : Mode) : fld t.code 3 0 = t.code := by cases t <;> decide

theorem modeOf_code (t : Mode) : modeOf t.code = some t := by cases t <;> rfl

section
variable {t : Mode} {r : Nat} {d : Dev}

theorem mode_disarm : (disarm r d).mod.mode = d.mod.mode := rfl

/-- The change itself, before what the target begins with. -/
def modeChanged (t : Mode) (d : Dev) : Dev :=
  let from_ := d.mod.mode
  let d := if hbOn d then hbFrames 4 d else d
  let d := if t = .service || t = .fallow then enterFallow t 0 d else enterMode t 0 d
  if from_ = .lead || from_ = .shadow || t = .lead || t = .shadow then pairReset d else d

theorem modeChanged_modes (t : Mode) (d : Dev) : (modeChanged t d).modes = (t, d.mod.mode) := by
  have hb : (if hbOn d = true then hbFrames 4 d else d).mod = d.mod := by split <;> simp
  have hpair : ∀ (c : Bool) (e : Dev), (if c = true then pairReset e else e).modes = e.modes := fun c e => by
    split
    · exact Dev.modes_of_mod (pairReset_mod e)
    · rfl
  rw [modeChanged, hpair]
  split <;> simp [hb]

/-- What the target begins with. -/
def modeBegun (old t : Mode) (d : Dev) : Dev :=
  match t with
  | .solo => onSolo (if old = .shadow && pairMode d != 2 then unfenceAll d else d)
  | .lead => offerPair (twnSet (fun x => { x with primacy := true }) d)
  | .shadow => offerPair (fenceAll (twnSet (fun x => { x with primacy := false }) d))
  | .enrol => onEnrol d
  | _ => d

theorem modEnter_eq (t : Mode) (d : Dev) : modEnter t d = modeBegun d.mod.mode t (modeChanged t d) := rfl

theorem modeBegun_modes (old t : Mode) (d : Dev) : (modeBegun old t d).modes = d.modes := by
  unfold modeBegun
  split
  · refine Dev.modes_of_mod ?_
    rw [onSolo_mod]
    split
    · exact unfenceAll_mod _
    · rfl
  · exact Dev.modes_of_mod ((offerPair_mod _).trans (twnSet_mod ..))
  · exact Dev.modes_of_mod ((offerPair_mod _).trans ((fenceAll_mod _).trans (twnSet_mod ..)))
  · exact onEnrol_modes d
  · rfl

/-- A change leaves the mode that it was made in for the target. -/
theorem modEnter_modes (t : Mode) (d : Dev) : (modEnter t d).modes = (t, d.mod.mode) := by
  rw [modEnter_eq, modeBegun_modes, modeChanged_modes]

theorem modReqWrite_of_task {v : Nat} (h : taskReq r d = true) : modReqWrite r v d = taskStore r 0x10004 d := if_pos h

theorem modReqWrite_of_super {v : Nat} (h : taskReq r d = false) :
    modReqWrite r v d = modReq (fld v 3 0) (fld v 5 4) (fld v 7 6) r (disarm r d) := if_neg (by simp [h])

theorem modReq_of_refused {code rt mc : Nat} (ht : modeOf code = some t) (h : modRefCode t d ≠ 0) :
    modReq code rt mc r d = modRefuse code (modRefCode t d) r d := by simp [modReq, ht, h]

theorem modReq_of_accepted {code rt mc : Nat} (ht : modeOf code = some t) (hs : t ≠ .swap) (h : modRefCode t d = 0) :
    modReq code rt mc r d = modEnter t d := by simp [modReq, ht, h, hs]

theorem modReq_of_swap {rt mc : Nat} (h : modRefCode .swap d = 0) : modReq 8 rt mc r d = swapStart rt mc r d := by
  have hswap : modeOf 8 = some .swap := modeOf_code .swap
  simp [modReq, hswap, h]

theorem modRefuse_mode (t code r : Nat) (d : Dev) : (modRefuse t code r d).mod.mode = d.mod.mode := by simp [modRefuse]

theorem modRefuse_refused (t code r : Nat) (d : Dev) : (modRefuse t code r d).mod.refused = true := by simp [modRefuse]

end

/-- `x` is a request of `r` for the mode `t`, which is not SWAP. -/
structure Requests (r : Nat) (x : Instr) (t : Mode) : Prop where
  exec : ∀ s : State, exec x s = done s (modReqWrite r t.code)
  plain : t ≠ .swap

theorem requests_mem {r : Nat} {x : Instr × Mode} (hx : x ∈ [(Instr.modReqFactory r, Mode.factory), (.modReqEnrol r, .enrol), (.modReqSolo r, .solo),
    (.modReqLead r, .lead), (.modReqShadow r, .shadow), (.modReqService r, .service), (.modReqFallow r, .fallow)]) : Requests r x.1 x.2 := by
  simp only [List.mem_cons, List.not_mem_nil, or_false] at hx
  obtain rfl | rfl | rfl | rfl | rfl | rfl | rfl := hx <;> exact ⟨fun _ => rfl, nofun⟩

section
variable {s : State} (hp : Powered s) {r : Nat} {x : Instr} {t : Mode}
include hp

theorem Requests.runs_of_task (hx : Requests r x t) (h : taskReq r s.dev = true) : Runs x s (taskStore r 0x10004 s.dev) :=
  runs_of hp (hx.exec s) (modReqWrite_of_task h)

theorem Requests.runs_of_super (hx : Requests r x t) (h : taskReq r s.dev = false) :
    (modRefCode t (disarm r s.dev) = 0 → Runs x s (modEnter t (disarm r s.dev))) ∧
    (modRefCode t (disarm r s.dev) ≠ 0 → Runs x s (modRefuse t.code (modRefCode t (disarm r s.dev)) r (disarm r s.dev))) := by
  refine ⟨fun h0 => runs_of hp (hx.exec s) ((modReqWrite_of_super h).trans ?_), fun h0 => runs_of hp (hx.exec s) ((modReqWrite_of_super h).trans ?_)⟩
  · rw [fld_mode_code, modReq_of_accepted (modeOf_code t) hx.plain h0]
  · rw [fld_mode_code, modReq_of_refused (modeOf_code t) h0]

end

/-- The fields of a SWAP request's word. -/
theorem swapWord_fields {rt mc : Nat} (hrt : rt < 4) (hmc : mc < 4) : fld (8 + 16 * (rt % 4) + 64 * (mc % 4)) 3 0 = 8 ∧
    fld (8 + 16 * (rt % 4) + 64 * (mc % 4)) 5 4 = rt ∧ fld (8 + 16 * (rt % 4) + 64 * (mc % 4)) 7 6 = mc := by
  simp only [fld]
  omega

theorem modReqWrite_of_swap {r rt mc : Nat} {d : Dev} (h : taskReq r d = false) (hrt : rt < 4) (hmc : mc < 4) :
    modReqWrite r (8 + 16 * (rt % 4) + 64 * (mc % 4)) d = modReq 8 rt mc r (disarm r d) := by
  obtain ⟨h3, h5, h7⟩ := swapWord_fields hrt hmc
  rw [modReqWrite_of_super h, h3, h5, h7]

/-- Settles O41: a request is read once as the mode that its code names, and then goes by the rows of Table 14-7. -/
theorem modeRequests : Obligations.ModeRequests := by
  unfold Obligations.ModeRequests
  refine ⟨fun s hp r htask => ⟨fun x hx => ?task, fun rt mc => runs_of hp rfl (modReqWrite_of_task htask)⟩,
    fun s hp r hsuper => ⟨fun x hx => ⟨fun h => ?accepted, fun h => ?refused⟩, fun rt mc hrt hmc => ⟨fun h => ?swap, fun h => ?swapRefused⟩⟩⟩
  case task =>
    obtain ⟨y, hy, rfl⟩ : ∃ y ∈ [(Instr.modReqFactory r, Mode.factory), (.modReqEnrol r, .enrol), (.modReqSolo r, .solo), (.modReqLead r, .lead),
        (.modReqShadow r, .shadow), (.modReqService r, .service), (.modReqFallow r, .fallow)], y.1 = x := List.mem_map.mp hx
    exact (requests_mem hy).runs_of_task hp htask
  case accepted =>
    obtain ⟨hmode, hprev⟩ := Prod.mk.inj (modEnter_modes x.2 (disarm r s.dev))
    exact ⟨((requests_mem hx).runs_of_super hp hsuper).1 h, hmode, hprev⟩
  case refused => exact ⟨((requests_mem hx).runs_of_super hp hsuper).2 h, modRefuse_mode .., modRefuse_refused ..⟩
  case swap => exact runs_of hp rfl ((modReqWrite_of_swap hsuper hrt hmc).trans (modReq_of_swap h))
  case swapRefused => exact runs_of hp rfl ((modReqWrite_of_swap hsuper hrt hmc).trans (modReq_of_refused (modeOf_code .swap) h))

end Sys2Proof.Machine

/-! SUPPORT. Life-cycle requests and resets: the conditions of MOD_LCREQ in their order, and what a reset keeps of the MOD block (14 R383 to R386,
R392). -/

namespace Sys2Proof.Machine

/-! ### What a reset keeps of the MOD block (14 R392) -/

section
variable (d : Dev)

@[simp] theorem cleanFlush_mod : (cleanFlush d).mod = d.mod := by
  unfold cleanFlush
  dsimp only
  split <;> simp

@[simp] theorem doFlsDone_mod (ok : Bool) : (doFlsDone ok d).mod = d.mod := by unfold doFlsDone; split <;> rfl

@[simp] theorem settleErase_mod : (settleErase d).mod = d.mod := by unfold settleErase; split <;> simp

variable {d}

/-- With no fuse operation running, an interruption leaves the fuses. -/
theorem lcInterrupt_of_idle (h : d.mod.lcOp = none) : lcInterrupt d = { d with mod := { d.mod with lcBusy := false } } := by simp [lcInterrupt, h]

/-- The device that a reset finds, once what must be said and stored is. -/
def beforeReset (cold : Bool) (d : Dev) : Dev :=
  let d := if !cold && (d.mod.mode = .lead || d.mod.mode = .shadow) then sendDepart d else d
  let d := lcInterrupt d
  if cold then d else settleErase (cleanFlush d)

theorem beforeReset_mod {cold : Bool} (h : d.mod.lcOp = none) : (beforeReset cold d).mod = { d.mod with lcBusy := false } := by
  have hsaid : ∀ c : Bool, (lcInterrupt (if c = true then sendDepart d else d)).mod = { d.mod with lcBusy := false } := fun c => by
    have hmod : (if c = true then sendDepart d else d).mod = d.mod := by split <;> simp
    rw [lcInterrupt_of_idle (by rw [hmod, h]), hmod]
  unfold beforeReset
  dsimp only
  split
  · exact hsaid _
  · rw [settleErase_mod, cleanFlush_mod, hsaid]

section
variable (cold : Bool) (cause : Nat)

theorem resetDev_mode (d : Dev) : (resetDev cold cause d).mod.mode = .reset := rfl

theorem resetDev_rstCause (d : Dev) : (resetDev cold cause d).mod.rstCause = if cold = true then 0 else cause := rfl

theorem resetDev_keys (d : Dev) : (resetDev cold cause d).keys = {} := rfl

theorem resetDev_tab (d : Dev) : (resetDev cold cause d).tab = {} := rfl

theorem resetDev_shared (d : Dev) : (resetDev cold cause d).mem.shared = [] := rfl

theorem resetDev_stopped (d : Dev) : (resetDev cold cause d).pins.stopped = false := rfl

theorem resetDev_fuses_eq (d : Dev) : (resetDev cold cause d).mod.fuses = (freeBytes 32 (beforeReset cold d)).2.mod.fuses := rfl

variable {cold cause}

theorem resetDev_fuses (h : d.mod.lcOp = none) : (resetDev cold cause d).mod.fuses = d.mod.fuses := by
  rw [resetDev_fuses_eq, freeBytes_mod, beforeReset_mod h]

end

/-! ### Requests of MOD_LCREQ (14 R383 to R386) -/

section
variable {op r v : Nat} {armed : Bool}

theorem lcRequest_of_busy (h : d.mod.lcBusy = true) : lcRequest op r armed d = d := if_pos h

section
variable (hb : d.mod.lcBusy = false)
include hb

theorem lcRequest_of_unarmed : lcRequest op r false d = lcRefuse 3 d := by simp [lcRequest, hb]

theorem lcRequest_of_refused (ho : op ≠ 3) (h : lcCheck op d ≠ 0) : lcRequest op r true d = lcRefuse (lcCheck op d) d := by
  simp [lcRequest, hb, ho, h]

theorem lcRequest_of_started (h3 : op ≠ 3) (h5 : op ≠ 5) (h : lcCheck op d = 0) :
    lcRequest op r true d = lcStart op (lcTarget op d.mod.fuses.life) d := by simp [lcRequest, hb, h3, h5, h]

theorem lcRequest_of_owner {b : Bytes} (h : lcCheck 5 d = 0) (hr : (engRead r d.mod.lcArg 1952 d).1 = some b) :
    lcRequest 5 r true d = lcStart 5 d.mod.fuses.life { (engRead r d.mod.lcArg 1952 d).2 with
      mod := { (engRead r d.mod.lcArg 1952 d).2.mod with lcHash := shake256 b 32 } } := by simp [lcRequest, hb, h, hr]

theorem lcRequest_of_return {b : Bytes} (h : lcCheck 3 d = 0) (hr : (engRead r d.mod.lcArg 3350 d).1 = some b) :
    lcRequest 3 r true d = if authOk b d = true then lcStart 3 .returned (newNonce (engRead r d.mod.lcArg 3350 d).2)
      else lcRefuse 4 (newNonce (engRead r d.mod.lcArg 3350 d).2) := by
  cases hok : authOk b d <;> simp [lcRequest, hb, h, hr, hok]

end

theorem lcKeyWrite_of_super (h : taskReq r d = false) : lcKeyWrite r v d =
    if v = 0x4C435943 then { disarm r d with mod := { (disarm r d).mod with lcArmed := r :: (disarm r d).mod.lcArmed } } else disarm r d :=
  if_neg (by simp [h])

theorem lcReqWrite_of_task (h : taskReq r d = true) : lcReqWrite r v d = taskStore r 0x10014 d := if_pos h

theorem lcReqWrite_of_super (h : taskReq r d = false) : lcReqWrite r v d = lcRequest (fld v 2 0) r (d.mod.lcArmed.contains r) (disarm r d) :=
  if_neg (by simp [h])

end

theorem fld_lcOp {op : Nat} (h : op < 8) : fld op 2 0 = op := fld_low_of_lt h

/-- `x` is a request of `r` for operation `op`. -/
structure LcRequests (r : Nat) (x : Instr) (op : Nat) : Prop where
  exec : ∀ s : State, exec x s = done s (lcReqWrite r op)
  lt : op < 8

theorem lcRequests_mem {r : Nat} {x : Instr × Nat} (hx : x ∈ [(Instr.enrolDone r, 1), (.lcSeal r, 2), (.lcReturn r, 3), (.scrap r, 4),
    (.fuseOwner r, 5), (.fuseOwneronly r, 6)]) : LcRequests r x.1 x.2 := by
  simp only [List.mem_cons, List.not_mem_nil, or_false] at hx
  obtain rfl | rfl | rfl | rfl | rfl | rfl := hx <;> exact ⟨fun _ => rfl, by simp⟩

section
variable {s : State} (hp : Powered s) {r op : Nat} {x : Instr} (hx : LcRequests r x op)
include hp hx

theorem LcRequests.runs_of_task (h : taskReq r s.dev = true) : Runs x s (taskStore r 0x10014 s.dev) :=
  runs_of hp (hx.exec s) (lcReqWrite_of_task h)

theorem LcRequests.runs_of_super {e : Dev} (h : taskReq r s.dev = false) (he : lcRequest op r (s.dev.mod.lcArmed.contains r) (disarm r s.dev) = e) :
    Runs x s e := runs_of hp (hx.exec s) (by rw [lcReqWrite_of_super h, fld_lcOp hx.lt, he])

theorem LcRequests.runs_of_armed {e : Dev} (h : taskReq r s.dev = false) (ha : s.dev.mod.lcArmed.contains r = true)
    (he : lcRequest op r true (disarm r s.dev) = e) : Runs x s e := hx.runs_of_super hp h (by rw [ha, he])

end

/-! ### Fuses blown (14 R385) -/

section
variable {op : Nat} {target : Life} {ok : Bool}

theorem doFuseBlow_of_idle (h : d.mod.lcOp = none) : doFuseBlow ok d = d := by simp [doFuseBlow, h]

/-- The fuses hold the operation's result. -/
def fusesBlown (op : Nat) (target : Life) (d : Dev) : Dev :=
  { d with mod := { d.mod with fuses := lcFuses op target d.mod, lcOp := none, lcBusy := false, lcDone := true } }

theorem doFuseBlow_of_blown (h : d.mod.lcOp = some (op, target)) : doFuseBlow true d =
    if op ≤ 4 then resetDev false 2 (event 0x0E05 3 (be 1 d.mod.fuses.life.code ++ be 1 target.code) (fusesBlown op target d))
    else fusesBlown op target d := by
  rw [doFuseBlow]
  simp only [h, Bool.not_true, Bool.false_eq_true, if_false]
  rfl

theorem lcFuses_life {m : Mod} (h : op ≤ 4) : (lcFuses op target m).life = target := by rw [lcFuses, if_pos h]

end

end

/-- Settles O43: the requests share one write of MOD_LCREQ, whose conditions are taken in their order. -/
theorem lifeCycle : Obligations.LifeCycle := by
  unfold Obligations.LifeCycle
  refine fun s hp => ⟨fun r htask => ⟨fun v => runs_of hp rfl (if_pos htask), fun x hx => ?task⟩,
    fun r hsuper => ⟨?key, fun v hv => ?notKey, fun x hx => ⟨fun hb => ?busy, fun hb ha => ?unarmed, fun hb ha h3 hc => ?refused⟩,
      fun hb ha => ⟨fun h => ?enrol, fun h => ?sealed, fun h => ?scrap, fun h => ?ownerOnly, fun b h hr => ?owner,
        fun b h hr => ⟨fun hok => ?returned, fun hok => ?unauthorised⟩⟩⟩,
    fun h ok => runs_of hp rfl (doFuseBlow_of_idle h), fun op target h => ⟨fun hop => ?fuse, fun hop => ⟨?runs, ?life, rfl, rfl⟩⟩⟩
  case task =>
    obtain ⟨y, hy, rfl⟩ : ∃ y ∈ [(Instr.enrolDone r, 1), (.lcSeal r, 2), (.lcReturn r, 3), (.scrap r, 4), (.fuseOwner r, 5), (.fuseOwneronly r, 6)],
        y.1 = x := List.mem_map.mp hx
    exact (lcRequests_mem hy).runs_of_task hp htask
  case key => exact runs_of hp rfl ((lcKeyWrite_of_super hsuper).trans (if_pos rfl))
  case notKey => exact runs_of hp rfl ((lcKeyWrite_of_super hsuper).trans (if_neg hv))
  case busy => exact (lcRequests_mem hx).runs_of_super hp hsuper (lcRequest_of_busy hb)
  case unarmed => exact (lcRequests_mem hx).runs_of_super hp hsuper (by rw [ha, lcRequest_of_unarmed hb, lcRefuse])
  case refused => exact (lcRequests_mem hx).runs_of_armed hp hsuper ha (lcRequest_of_refused hb h3 hc)
  case enrol => exact LcRequests.runs_of_armed hp ⟨fun _ => rfl, by decide⟩ hsuper ha (lcRequest_of_started hb (by decide) (by decide) h)
  case sealed => exact LcRequests.runs_of_armed hp ⟨fun _ => rfl, by decide⟩ hsuper ha (lcRequest_of_started hb (by decide) (by decide) h)
  case scrap => exact LcRequests.runs_of_armed hp ⟨fun _ => rfl, by decide⟩ hsuper ha (lcRequest_of_started hb (by decide) (by decide) h)
  case ownerOnly => exact LcRequests.runs_of_armed hp ⟨fun _ => rfl, by decide⟩ hsuper ha (lcRequest_of_started hb (by decide) (by decide) h)
  case owner => exact LcRequests.runs_of_armed hp ⟨fun _ => rfl, by decide⟩ hsuper ha (lcRequest_of_owner hb h hr)
  case returned =>
    exact LcRequests.runs_of_armed hp ⟨fun _ => rfl, by decide⟩ hsuper ha ((lcRequest_of_return hb h hr).trans (if_pos hok))
  case unauthorised =>
    exact LcRequests.runs_of_armed hp ⟨fun _ => rfl, by decide⟩ hsuper ha ((lcRequest_of_return hb h hr).trans (if_neg (by simp [hok])))
  case fuse => exact runs_of hp rfl ((doFuseBlow_of_blown h).trans (if_neg (Nat.not_le.mpr hop)))
  case runs => exact runs_of hp rfl ((doFuseBlow_of_blown h).trans (if_pos hop))
  case life =>
    refine (congrArg Fuses.life (resetDev_fuses ?_)).trans ?_
    · rw [event_mod]
    · rw [event_mod]; exact lcFuses_life hop

end Sys2Proof.Machine

/-! SUPPORT. Resets, Kiln and BIST (14 R391, R392, R398, R410). -/

namespace Sys2Proof.Machine

/-! ### Resets (14 R384, R392) -/

section
variable {r v : Nat} {d : Dev}

theorem modResetWrite_of_task (h : taskReq r d = true) : modResetWrite r v d = taskStore r 0x10030 d := if_pos h

theorem modResetWrite_of_super (h : taskReq r d = false) : modResetWrite r v d = modReset v (disarm r d) := if_neg (by simp [h])

theorem modReset_of_key : modReset 0x57525354 d = resetDev false 1 d := if_neg (by simp)

theorem modReset_of_other (h : v ≠ 0x57525354) : modReset v d = d := if_pos h

end

/-! ### Kiln (14 R398) -/

section
variable {d : Dev}

theorem kilnEnter_mode (d : Dev) : (kilnEnter d).mod.mode = .kiln := enterMode_mode ..

theorem doKilnBoot_of_reset (h : d.mod.mode = .reset) : doKilnBoot d = kilnGo (kilnEnter d) := by
  rw [doKilnBoot, if_pos h]
  exact if_pos (kilnEnter_mode d)

theorem doKilnBoot_of_kiln (h : d.mod.mode = .kiln) : doKilnBoot d = kilnGo d := by
  have hr : d.mod.mode ≠ .reset := by simp [h]
  rw [doKilnBoot, if_neg hr]
  exact if_pos h

theorem doKilnBoot_of_running (hr : d.mod.mode ≠ .reset) (hk : d.mod.mode ≠ .kiln) : doKilnBoot d = d := by
  rw [doKilnBoot, if_neg hr]
  exact if_neg hk

theorem kilnGo_of_waiting (h : d.mod.kilnDone = true ∨ (d.mem.trained = false ∧ d.mem.fail = false) ∨ laneTestDue d = true) : kilnGo d = d :=
  if_pos (by obtain h | ⟨h, h'⟩ | h := h <;> simp_all)

theorem kilnGo_of_due (hd : d.mod.kilnDone = false) (ht : d.mem.trained = true ∨ d.mem.fail = true) (hl : laneTestDue d = false) :
    kilnGo d = kilnStart (kilnImages d) := if_neg (by obtain h | h := ht <;> simp [hd, hl, h])

theorem kilnStart_of_scrapped (h : d.mod.fuses.life = .scrapped) : kilnStart d = d.updMod (fun m => { m with reason := 11 }) := if_pos h

section
variable (hl : d.mod.fuses.life ≠ .scrapped)
include hl

theorem kilnStart_of_tamper (ht : d.pins.tamper = true) : kilnStart d = d.updMod (fun m => { m with reason := 12, kilnWait := true }) :=
  (if_neg hl).trans (if_pos ht)

theorem kilnStart_of_calm (ht : d.pins.tamper = false) : kilnStart d =
    let t := startMode d.mod.kilnReq d.mod.micro d.mod.runtime d
    let e := when_ d.mod.runtime.isSome (loadRuntime d.mod.kilnBody) (reportUntested t.2 d.mod.micro d.mod.runtime d)
    each (List.range 8) hpFollow (modeStarted t.1 (enterMode t.1 t.2 (e.updMod (fun m => { m with kilnWait := false, kilnBody := [] })))) := by
  rw [kilnStart, if_neg hl, if_neg (by simp [ht])]

end

theorem doTamperRelease_of_calm (h : d.mod.mode ≠ .kiln ∨ d.mod.kilnWait = false) :
    doTamperRelease d = { d with pins := { d.pins with tamper := false } } := if_neg (by obtain h | h := h <;> simp [h])

theorem doTamperRelease_of_waiting (hm : d.mod.mode = .kiln) (hw : d.mod.kilnWait = true) : doTamperRelease d =
    kilnStart { d with pins := { d.pins with tamper := false }, mod := { d.mod with kilnWait := false } } := if_pos (by simp [hm, hw])

end

/-! ### BIST (14 R391) -/

section
variable {d : Dev} {pass : Bool} {cls unit cause : Nat}

theorem bistWrite_go (r : Nat) (d : Dev) : bistWrite r 1 d =
    if laneMode (disarm r d) = true then { disarm r d with mod := { (disarm r d).mod with bistRun := true } }
    else { disarm r d with mod := { (disarm r d).mod with bistRefused := true } } := by
  have hgo : bitAt 1 0 = true := by decide
  have hkeep : bitAt 1 1 = false := by decide
  simp only [bistWrite, modWrite, hgo, hkeep, Bool.not_true, Bool.not_false, Bool.and_true, Bool.false_eq_true, if_false]
  split <;> rfl

theorem doBistDone_of_idle (h : d.mod.bistRun = false) : doBistDone pass cls unit d = d := if_pos (by simp [h])

section
variable (h : d.mod.bistRun = true)
include h

theorem doBistDone_of_passed : doBistDone true cls unit d = resetDev false 3 { d with mod := { d.mod with bistRun := false, bistRes := 3 } } :=
  if_neg (by simp [h])

theorem doBistDone_of_failed (hc : cls < 256) (hu : unit < 65536) : doBistDone false cls unit d =
    resetDev false 3 (bistUnit cls unit (event 0x0E07 3 (be 1 cls ++ be 1 unit)
      { d with mod := { d.mod with bistRun := false, bistRes := 1 + at_ cls 8 + at_ unit 16 } })) := by
  rw [doBistDone, if_neg (by simp [h]), Nat.mod_eq_of_lt hc, Nat.mod_eq_of_lt hu]
  rfl

end

theorem lcInterrupt_bistRes (d : Dev) : (lcInterrupt d).mod.bistRes = d.mod.bistRes := by unfold lcInterrupt; split <;> rfl

theorem beforeReset_bistRes (d : Dev) : (beforeReset false d).mod.bistRes = d.mod.bistRes := by
  have hsaid : ∀ c : Bool, (if c = true then sendDepart d else d).mod = d.mod := fun c => by split <;> simp
  unfold beforeReset
  dsimp only
  rw [if_neg Bool.false_ne_true, settleErase_mod, cleanFlush_mod, lcInterrupt_bistRes, hsaid]

theorem resetDev_bistRes (cause : Nat) (d : Dev) : (resetDev false cause d).mod.bistRes = d.mod.bistRes := by
  have hread : (resetDev false cause d).mod.bistRes = (freeBytes 32 (beforeReset false d)).2.mod.bistRes := rfl
  rw [hread, freeBytes_mod, beforeReset_bistRes]

end

/-- Settles O44: a reset rebuilds the device from what it keeps, and Kiln goes on only where nothing holds it. -/
theorem resets : Obligations.Resets := by
  unfold Obligations.Resets
  refine ⟨fun s => ⟨runs_always rfl rfl, fun h => resetDev_fuses h, rfl, rfl, rfl, rfl, rfl, rfl⟩,
    fun s hp => ⟨fun r hsuper h => ⟨?warm, rfl, rfl, resetDev_fuses h, rfl, rfl, fun v hv => ?otherValue⟩, fun r htask v => ?task,
      fun hm => ⟨fun h => ?waiting, fun hd ht hl => ⟨fun hlife => ?scrapped, fun hlife htamper => ?tamper, fun hlife htamper => ?calm⟩⟩,
      fun hm => ⟨?boot, kilnEnter_mode s.dev⟩, fun hr hk => ?running, ⟨fun h => ?released, fun hm hw => ?goesOn⟩,
      fun r => ⟨fun h => ?bist, fun h => ?bistRefused⟩, fun pass cls unit h => ?noBist, fun cls unit h => ⟨?passed, resetDev_bistRes .., rfl⟩,
      fun cls unit h hc hu => ?failed⟩⟩
  case warm => exact runs_of hp rfl ((modResetWrite_of_super hsuper).trans modReset_of_key)
  case otherValue => exact runs_of hp rfl ((modResetWrite_of_super hsuper).trans (modReset_of_other hv))
  case task => exact runs_of hp rfl (modResetWrite_of_task htask)
  case waiting => exact runs_of hp rfl ((doKilnBoot_of_kiln hm).trans (kilnGo_of_waiting h))
  case scrapped => exact runs_of hp rfl (((doKilnBoot_of_kiln hm).trans (kilnGo_of_due hd ht hl)).trans (kilnStart_of_scrapped hlife))
  case tamper => exact runs_of hp rfl (((doKilnBoot_of_kiln hm).trans (kilnGo_of_due hd ht hl)).trans (kilnStart_of_tamper hlife htamper))
  case calm => exact runs_of hp rfl (((doKilnBoot_of_kiln hm).trans (kilnGo_of_due hd ht hl)).trans (kilnStart_of_calm hlife htamper))
  case boot => exact runs_of hp rfl (doKilnBoot_of_reset hm)
  case running => exact runs_of hp rfl (doKilnBoot_of_running hr hk)
  case released => exact runs_of hp rfl (doTamperRelease_of_calm h)
  case goesOn => exact runs_of hp rfl (doTamperRelease_of_waiting hm hw)
  case bist => exact runs_of hp rfl ((bistWrite_go r s.dev).trans (if_pos h))
  case bistRefused => exact runs_of hp rfl ((bistWrite_go r s.dev).trans (if_neg (by simp [h])))
  case noBist => exact runs_of hp rfl (doBistDone_of_idle h)
  case passed => exact runs_of hp rfl (doBistDone_of_passed h)
  case failed => exact runs_of hp rfl (doBistDone_of_failed h hc hu)

end Sys2Proof.Machine

/-! SUPPORT. Zeroise events (14 R409, R410; 15 Table 15-8). -/

namespace Sys2Proof.Machine

/-! ### What a change to ZEROISED leaves of the key stores -/

section
variable (d : Dev)

@[simp] theorem errorEndPort_keys (n : Nat) : (errorEndPort n d).keys = d.keys :=
  each_keeps Dev.keys _ (fun f x => by unfold lineEmit; split <;> simp) _ d

@[simp] theorem fallowAll_keys : (fallowAll d).keys = d.keys := each_keeps Dev.keys _ (fun n d => errorEndPort_keys d n) _ d

@[simp] theorem pathSend_keys (path : Option (Nat × Nat)) (type eseq : Nat) (p : Bytes) : (pathSend path type eseq p d).keys = d.keys := by
  unfold pathSend
  split <;> simp

@[simp] theorem departFirst_keys (m : Mode) : (departFirst m d).keys = d.keys := by
  unfold departFirst
  split
  · exact (pathSend_keys ..).trans (pathSend_keys ..)
  · rfl

@[simp] theorem twnSet_keys (f : Twn → Twn) : (twnSet f d).keys = d.keys := by obtain h | h := twnSet_cases f d <;> simp [h]

@[simp] theorem takeMode_keys (m : Mode) (reason : Nat) : (takeMode m reason d).keys = d.keys := by
  unfold takeMode mrExtend
  dsimp only
  (repeat' split) <;> simp

@[simp] theorem enterFallow_keys (m : Mode) (reason : Nat) : (enterFallow m reason d).keys = d.keys := by simp [enterFallow]

/-! ### The wipe (11 R336) -/

@[simp] theorem wipeSce_mod : (wipeSce d).mod = d.mod := by
  unfold wipeSce sceRelease sceDone
  dsimp only
  (repeat' split) <;> simp

@[simp] theorem wipeSce_kwrValid : (wipeSce d).keys.kwrValid = d.keys.kwrValid := by
  unfold wipeSce sceRelease sceDone
  dsimp only
  (repeat' split) <;> simp

@[simp] theorem wipeSram_mod : (wipeSram d).mod = d.mod := rfl

theorem wipeSram_kwrValid : (wipeSram d).keys.kwrValid = d.keys.kwrValid := rfl

@[simp] theorem queuesOff_mod : (queuesOff d).mod = d.mod := rfl

theorem destroyKwr_mod (why : Nat) (record : Bool) : (destroyKwr why record d).mod = d.mod := by unfold destroyKwr; dsimp only; split <;> simp

theorem destroyKwr_kwrValid (why : Nat) (record : Bool) : (destroyKwr why record d).keys.kwrValid = false := by unfold destroyKwr; simp [Keys.unmasked]

/-- A clean flush changes nothing that the flush does not, but the mark of the clean stop. -/
theorem cleanFlush_cases : cleanFlush d = archiveFlush d ∨
    cleanFlush d = { archiveFlush d with evr := { (archiveFlush d).evr with cleanStop := true } } := ite_eq_or_eq ..

@[simp] theorem cleanFlush_keys : (cleanFlush d).keys = d.keys := by obtain h | h := cleanFlush_cases d <;> simp [h]
@[simp] theorem cleanFlush_mem : (cleanFlush d).mem = d.mem := by obtain h | h := cleanFlush_cases d <;> simp [h]
@[simp] theorem cleanFlush_views : (cleanFlush d).views = d.views := by obtain h | h := cleanFlush_cases d <;> simp [h]
@[simp] theorem cleanFlush_tab : (cleanFlush d).tab = d.tab := by obtain h | h := cleanFlush_cases d <;> simp [h]

/-- What a zeroise event does once the key wrapping root is gone. -/
def zeroiseWiped (code : Nat) (d : Dev) : Dev := cleanFlush (event 0x0E04 3 (be 1 code) (queuesOff (wipeSram (wipeSce d))))

theorem zeroiseWiped_mod (code : Nat) : (zeroiseWiped code d).mod = d.mod := by
  rw [zeroiseWiped, cleanFlush_mod, event_mod, queuesOff_mod, wipeSram_mod, wipeSce_mod]

theorem zeroiseWiped_keys (code : Nat) : (zeroiseWiped code d).keys = (wipeSram (wipeSce d)).keys := by
  rw [zeroiseWiped, cleanFlush_keys, event_keys]
  rfl

theorem zeroiseWiped_shared (code : Nat) : (zeroiseWiped code d).mem.shared = [] := by
  rw [zeroiseWiped, cleanFlush_mem, event_mem]
  rfl

theorem zeroiseWiped_views (code : Nat) : (zeroiseWiped code d).views = [] := by
  rw [zeroiseWiped, cleanFlush_views, event_views]
  rfl

theorem zeroiseWiped_sa (code : Nat) : (zeroiseWiped code d).tab.sa = [] := by
  rw [zeroiseWiped, cleanFlush_tab, event_tab]
  rfl

end

/-! ### The sequence (14 R409, R410) -/

section
variable {reason code why r v : Nat} {d : Dev}

/-- ZEROISED is entered: what runs is interrupted, and the key wrapping root is destroyed first. -/
def zeroiseEntered (reason why : Nat) (d : Dev) : Dev :=
  enterFallow .zeroised reason (destroyKwr why true (lcInterrupt { d with mod := { d.mod with change := none } }))

theorem zeroiseSeq_of_zeroised (h : d.mod.mode = .zeroised) : zeroiseSeq reason code why d = destroyKwr why false d := if_pos h

theorem zeroiseSeq_of_new (h : d.mod.mode ≠ .zeroised) : zeroiseSeq reason code why d = zeroiseWiped code (zeroiseEntered reason why d) := if_neg h

theorem zeroiseSeq_mode (reason code why : Nat) (d : Dev) : (zeroiseSeq reason code why d).mod.mode = .zeroised := by
  by_cases h : d.mod.mode = .zeroised
  · rw [zeroiseSeq_of_zeroised h, destroyKwr_mod, h]
  · rw [zeroiseSeq_of_new h, zeroiseWiped_mod, zeroiseEntered, enterFallow_mode]

theorem zeroiseSeq_kwrValid (reason code why : Nat) (d : Dev) : (zeroiseSeq reason code why d).keys.kwrValid = false := by
  by_cases h : d.mod.mode = .zeroised
  · rw [zeroiseSeq_of_zeroised h, destroyKwr_kwrValid]
  · rw [zeroiseSeq_of_new h, zeroiseWiped_keys, wipeSram_kwrValid, wipeSce_kwrValid, zeroiseEntered, enterFallow_keys, destroyKwr_kwrValid]

theorem zeroiseOut_mod (reason : Nat) (d : Dev) : (zeroiseOut reason d).mod = d.mod := by
  unfold zeroiseOut
  dsimp only
  split <;> simp

theorem zeroiseNow_of_running (hr : d.mod.mode ≠ .reset) (hk : d.mod.mode ≠ .kiln) : zeroiseNow reason code why d = zeroiseSeq reason code why d :=
  if_neg (by simp [hr, hk])

theorem zeroiseNow_of_kiln (hk : d.mod.mode = .kiln) : zeroiseNow reason code why d = zeroiseEarly code why d := if_pos (by simp [hk])

theorem zeroiseEarly_eq : zeroiseEarly code why d = zeroiseWiped code (destroyKwr why true d) := rfl

theorem zeroiseWrite_of_task (h : taskReq r d = true) : zeroiseWrite r v d = taskStore r 0x1003C d := if_pos h

theorem zeroiseWrite_of_local (h : taskReq r d = false) : zeroiseWrite r 0x5A3E0001 d = zeroiseNow 7 2 2 (disarm r d) := by
  simp [zeroiseWrite, modWriteSup, modWrite, h]

theorem zeroiseWrite_of_mesh (h : taskReq r d = false) : zeroiseWrite r 0x5A3E0002 d = zeroiseNow 8 3 2 (zeroiseOut 3 (disarm r d)) := by
  simp [zeroiseWrite, modWriteSup, modWrite, h]

end

/-! ### The tamper input (15 Table 15-8) -/

section
variable {d : Dev}

/-- What becomes of a link whose keys are overwritten. -/
def linkOverwritten (h : HpPort) : HpPort :=
  if h.state = 5 then h else { h with state := 0, txKey := [], rxKey := [], txSalt := [], rxSalt := [], txq := [], sent := [] }

theorem overwriteLinks_eq (d : Dev) : overwriteLinks d = each (List.range 8) (fun j d => d.updHp j linkOverwritten) d := rfl

theorem overwriteLinks_mod (d : Dev) : (overwriteLinks d).mod = d.mod := each_keeps Dev.mod _ (fun j d => Dev.updHp_mod j linkOverwritten d) _ d

theorem getHp_each_updHp {f : HpPort → HpPort} {l : List Nat} (hl : l.Nodup) (d : Dev) (j : Nat) :
    (each l (fun j d => d.updHp j f) d).getHp j = if j ∈ l then f (d.getHp j) else d.getHp j := by
  induction l generalizing d with
  | nil => rfl
  | cons q l ih =>
    obtain ⟨hq, hl⟩ := List.nodup_cons.mp hl
    refine (ih hl (d.updHp q f)).trans ?_
    by_cases h : j = q
    · subst h; simp [hq]
    · simp [h, Dev.getHp_updHp_ne q j f d h]

theorem getHp_overwriteLinks {j : Nat} (hj : j < 8) (d : Dev) : (overwriteLinks d).getHp j = linkOverwritten (d.getHp j) := by
  rw [overwriteLinks_eq, getHp_each_updHp List.nodup_range, if_pos (List.mem_range.mpr hj)]

theorem linkOverwritten_of_live {h : HpPort} (hs : h.state ≠ 5) :
    (linkOverwritten h).txKey = [] ∧ (linkOverwritten h).rxKey = [] ∧ (linkOverwritten h).state = 0 := by simp [linkOverwritten, hs]

variable (hr : d.mod.mode ≠ .reset) (hk : d.mod.mode ≠ .kiln)
include hr hk

theorem doTamper_of_local (hz : bitAt d.twn.cfg 3 = false) :
    doTamper d = zeroiseSeq 6 1 1 (overwriteLinks { d with pins := { d.pins with tamper := true } }) := by
  rw [doTamper]
  dsimp only
  rw [if_neg (by simp [hz]), zeroiseNow_of_running (by rw [overwriteLinks_mod]; exact hr) (by rw [overwriteLinks_mod]; exact hk)]

theorem doTamper_of_mesh (hz : bitAt d.twn.cfg 3 = true) :
    doTamper d = zeroiseSeq 6 1 1 (overwriteLinks (zeroiseOut 1 { d with pins := { d.pins with tamper := true } })) := by
  rw [doTamper]
  dsimp only
  rw [if_pos hz, zeroiseNow_of_running (by rw [overwriteLinks_mod, zeroiseOut_mod]; exact hr) (by rw [overwriteLinks_mod, zeroiseOut_mod]; exact hk)]

end

/-- Settles O45: every zeroise event destroys the key wrapping root first, and the wipe that follows keeps no stored key. -/
theorem zeroise : Obligations.Zeroise := by
  unfold Obligations.Zeroise
  refine ⟨fun s hp r htask => ⟨runs_of hp rfl (zeroiseWrite_of_task htask), runs_of hp rfl (zeroiseWrite_of_task htask)⟩,
    fun s hp r hsuper => ⟨fun hr hk => ⟨?here, zeroiseSeq_mode .., zeroiseSeq_kwrValid ..⟩, fun hr hk hz => ?wiped,
      fun hr hk => ⟨?mesh, zeroiseSeq_mode ..⟩, fun hk => ⟨?early, ?stays⟩⟩,
    fun s hr hk => ⟨fun hz => ⟨runs_always rfl (doTamper_of_local hr hk hz), zeroiseSeq_mode ..⟩, fun hz => runs_always rfl (doTamper_of_mesh hr hk hz),
      fun j hj hs => ?links⟩⟩
  case here => exact runs_of hp rfl ((zeroiseWrite_of_local hsuper).trans (zeroiseNow_of_running hr hk))
  case wiped =>
    dsimp only
    rw [zeroiseSeq_of_new hz]
    refine ⟨?reason, ?kek, ?lpk, ?tickets, zeroiseWiped_shared .., zeroiseWiped_views .., zeroiseWiped_sa ..⟩
    case reason => rw [zeroiseWiped_mod, zeroiseEntered, enterFallow_reason]
    all_goals rw [zeroiseWiped_keys]; rfl
  case mesh =>
    refine runs_of hp rfl ((zeroiseWrite_of_mesh hsuper).trans (zeroiseNow_of_running ?_ ?_)) <;> rw [zeroiseOut_mod]
    · exact hr
    · exact hk
  case early => exact runs_of hp rfl ((zeroiseWrite_of_local hsuper).trans (zeroiseNow_of_kiln hk))
  case stays => rw [zeroiseEarly_eq, zeroiseWiped_mod, destroyKwr_mod, hk]
  case links =>
    rw [getHp_overwriteLinks hj]
    exact linkOverwritten_of_live hs

end Sys2Proof.Machine

/-! SUPPORT. Firmware activation: SWAP, anti-rollback values and tested pairs (14 R397, R400 to R403). -/

namespace Sys2Proof.Machine

/-! ### What the opening of a protected sector leaves of the MOD block (11 R328, R331) -/

/-- What every step of a fold keeps, the fold keeps. -/
theorem foldl_snd_keeps {α β γ : Type} (g : Dev → γ) (f : α × Dev → β → α × Dev) (h : ∀ r b, g (f r b).2 = g r.2) (l : List β) (r : α × Dev) :
    g (l.foldl f r).2 = g r.2 := by
  induction l generalizing r with
  | nil => rfl
  | cons b l ih => exact (ih (f r b)).trans (h r b)

section
variable (d : Dev)

@[simp] theorem setStateAll_mod (slot : Nat) (st : SlotState) : (setStateAll slot st d).mod = d.mod := by simp [setStateAll]

@[simp] theorem setLimHit_mod (slot : Nat) : (setLimHit slot d).mod = d.mod := by unfold setLimHit; split <;> simp

@[simp] theorem stopSlot_mod (slot : Nat) : (stopSlot_ slot d).mod = d.mod := by
  unfold stopSlot_ startDrain
  dsimp only
  split <;> simp

@[simp] theorem stopPinned_mod (level index : Nat) : (stopPinned level index d).mod = d.mod := by
  refine each_keeps Dev.mod _ (fun e d => ?_) _ d
  split
  · split
    · exact stopSlot_mod d _
    · rfl
  · rfl

@[simp] theorem rootDoubtSet_mod (why : Nat) : (rootDoubtSet why d).mod = d.mod := by simp [rootDoubtSet]

@[simp] theorem doubtDeclare_mod (level index cause : Nat) : (doubtDeclare level index cause d).mod = d.mod := by
  unfold doubtDeclare
  dsimp only
  (repeat' split) <;> simp

@[simp] theorem cacheInsert_mod (f level index : Nat) (dirty : Bool) : (cacheInsert f level index dirty d).2.mod = d.mod := by
  induction f generalizing level index dirty d with
  | zero => rfl
  | succ f ih =>
    unfold cacheInsert
    dsimp only
    (repeat' split) <;> simp [ih]

@[simp] theorem fetchFailed_mod (x : Nat × Nat × Nat) : (fetchFailed x d).mod = d.mod := by
  unfold fetchFailed
  (repeat' split) <;> simp

@[simp] theorem fetchNodes_mod (level index : Nat) : (fetchNodes level index d).2.mod = d.mod := by
  refine foldl_snd_keeps Dev.mod _ (fun r l => ?_) _ (true, d)
  dsimp only
  split <;> simp

@[simp] theorem takeStored_mod (s : Nat) : (takeStored s d).mod = d.mod := by unfold takeStored; split <;> simp

@[simp] theorem openSector_mod (s : Nat) (read : Bool) : (openSector s read d).2.mod = d.mod := by
  unfold openSector when_
  (repeat' split) <;> simp

@[simp] theorem protOpen_mod (off n : Nat) (write : Bool) : (protOpen off n write d).2.mod = d.mod := by
  unfold protOpen
  split
  · rfl
  · exact foldl_snd_keeps Dev.mod _ (fun r s => by split <;> simp) _ (true, d)

/-! ### What the first steps of SWAP leave of it (14 R402) -/

theorem coldWrite_mod (i : Nat) (f : ColdEnt → ColdEnt) : (coldWrite i f d).2.mod = d.mod := by
  unfold coldWrite coldOpen coldFail
  dsimp only
  (repeat' split) <;> simp

theorem clearStage_mod (buf : Nat) : (clearStage buf d).mod = d.mod := by
  unfold clearStage unstageCold
  dsimp only
  (repeat' split) <;> simp [coldWrite_mod]

theorem releaseCoreCells_mod (c : Nat) : (releaseCoreCells c d).mod = d.mod := by
  unfold releaseCoreCells
  rw [event_mod]
  exact each_keeps Dev.mod (dropCell c) (fun a d => by unfold dropCell; split <;> simp) _ d

theorem sceRelease_mod (why : Nat) : (sceRelease why d).mod = d.mod := by
  unfold sceRelease sceDone
  dsimp only
  (repeat' split) <;> simp

theorem stopCore_mod (run : CoreRun) (c : Nat) : (stopCore run c d).mod = d.mod := by
  unfold stopCore sceOwnerGone
  dsimp only
  split <;> simp [sceRelease_mod, releaseCoreCells_mod]

theorem swapCore_mod (c : Nat) : (swapCore c d).mod = d.mod := by
  unfold swapCore
  rw [Dev.updCore_mod]
  split
  · rfl
  · exact stopCore_mod ..

theorem imageRefused_mod (type slot check : Nat) : (imageRefused type slot check d).mod = d.mod := by simp [imageRefused]

end

theorem swapStage_mod (i : Nat) (d : Dev) : (if (d.getStage i).state = 0 then d else clearStage i d).mod = d.mod := by
  split
  · rfl
  · exact clearStage_mod ..

/-- SWAP's first steps, before it remembers its images. -/
def swapCleared (d : Dev) : Dev :=
  each (List.range 32) (fun i d => if (d.getStage i).state = 0 then d else clearStage i d) (each (List.range 64) swapCore (enterMode .swap 0 d))

theorem swapCleared_mode (d : Dev) : (swapCleared d).mod.mode = .swap := by
  rw [swapCleared, each_keeps Dev.mod _ swapStage_mod, each_keeps Dev.mod swapCore (fun c d => swapCore_mod d c), enterMode_mode]

theorem swapEnter_mode (rt mc : Image) (d : Dev) : (swapEnter rt mc d).mod.mode = .swap := by
  have hcleared := swapCleared_mode d
  unfold swapCleared at hcleared
  simp only [swapEnter, swapFlt, Dev.updMod_mod, Dev.updMem_mod, Dev.updKeys_mod, Dev.updHif_mod, hcleared]

/-! ### The images of a SWAP (14 R397, R401) -/

theorem testedPair_iff {rt mc : Image} : testedPair rt mc = true ↔
    (∃ e ∈ rt.tested, e.1 = 2 ∧ e.2 = mc.imgVer) ∨ (∃ e ∈ mc.tested, e.1 = 1 ∧ e.2 = rt.imgVer) := by
  have hlist : ∀ (l : List (Nat × Nat)) (t v : Nat), l.contains (t, v) = true ↔ ∃ e ∈ l, e.1 = t ∧ e.2 = v := fun l t v => by
    rw [List.contains_iff_mem]
    exact ⟨fun h => ⟨_, h, rfl, rfl⟩, fun ⟨e, he, ht, hv⟩ => ht ▸ hv ▸ he⟩
  rw [testedPair, Bool.or_eq_true, hlist, hlist]

section
variable {d : Dev} {o : Mode}

/-- The runtime image that a SWAP takes, and the device once it has been read. -/
def swapRuntime (d : Dev) : Option Image × Dev := swapImage 1 d.mod.swapRt d.mod.runtime d

/-- The microcode that it takes, and the device once both have been read. -/
def swapMicro (d : Dev) : Option Image × Dev := swapImage 2 d.mod.swapMc d.mod.micro (swapRuntime d).2

/-- The device whose SWAP request has ended. -/
def swapDropped (d : Dev) : Dev := { (swapMicro d).2 with mod := { (swapMicro d).2.mod with change := none } }

theorem doSwapVerified_of_none (h : d.mod.change = none) : doSwapVerified d = d := by simp [doSwapVerified, h]

variable (hc : d.mod.change = some (.swap, o))
include hc

theorem doSwapVerified_of_images {i j : Image} (hi : (swapRuntime d).1 = some i) (hj : (swapMicro d).1 = some j) : doSwapVerified d =
    if testedPair i j = true then swapEnter i j (swapMicro d).2
    else modRefuse 8 6 (swapMicro d).2.mod.changeReq (event 0x0E03 2 (be 4 i.imgVer ++ be 4 j.imgVer) (swapDropped d)) := by
  unfold swapMicro swapRuntime at hj
  unfold swapRuntime at hi
  simp only [doSwapVerified, hc, hi, hj]
  rfl

theorem doSwapVerified_of_missing (h : (swapRuntime d).1 = none ∨ (swapMicro d).1 = none) :
    doSwapVerified d = modRefuse 8 6 (swapMicro d).2.mod.changeReq (swapDropped d) := by
  unfold swapMicro swapRuntime at h
  simp only [doSwapVerified, hc]
  split
  next hi hj => simp [hi, hj] at h
  next => rfl

end

theorem modRefuse_change (t code r : Nat) (d : Dev) : (modRefuse t code r d).mod.change = d.mod.change := by simp [modRefuse]

theorem modRefuse_refCode (t code r : Nat) (d : Dev) : (modRefuse t code r d).mod.refCode = code := by simp [modRefuse]

/-- Settles O54: a TESTED list names an image by TYPE and IMGVER, and an untested pair ends its request before anything of the SWAP is done. -/
theorem testedPairs : Obligations.TestedPairs := by
  unfold Obligations.TestedPairs
  refine ⟨fun rt mc => testedPair_iff, fun s hp o rt mc hc hrt hmc hr hm htested => ?_⟩
  have hrun : swapRuntime s.dev = (some rt, s.dev) := by simp [swapRuntime, swapImage, hrt, hr]
  have hmicro : swapMicro s.dev = (some mc, s.dev) := by simp [swapMicro, swapImage, hrun, hmc, hm]
  refine ⟨_, runs_of hp rfl ((doSwapVerified_of_images hc (congrArg Prod.fst hrun) (congrArg Prod.fst hmicro)).trans (if_neg (by simp [htested]))),
    modRefuse_refused .., modRefuse_refCode .., ?mode, ?change⟩
  case mode => rw [modRefuse_mode, event_mod, swapDropped, hmicro]
  case change => rw [modRefuse_change, event_mod, swapDropped]

/-! ### The images loaded (14 R402, R403) -/

section
variable {ok : Bool} {d : Dev}

theorem doSwapReload_of_other (h : d.mod.mode ≠ .swap) : doSwapReload ok d = d := if_pos h

variable (hm : d.mod.mode = .swap)
include hm

theorem doSwapReload_of_none (h : swapChoice ok d = none) : doSwapReload ok d = enterFallow .fallow 4 d := by simp [doSwapReload, hm, h]

/-- The runtime image `i` of body `b` is measured and loaded. -/
def runtimeLoaded (i : Image) (b : Bytes) (d : Dev) : Dev :=
  loadRuntime b (mrExtend 2 2 (mrImage i) { d with mod := { d.mod with runtime := some i } })

/-- The microcode `m` is measured, and the lanes restart from it. -/
def microLoaded (m : Image) (d : Dev) : Dev := restartLanes (mrExtend 1 1 (mrImage m) { d with mod := { d.mod with micro := some m } })

/-- SWAP ends in the mode that it came from. -/
def swapReturned (d : Dev) : Dev := enterMode d.mod.swapOrigin 13 { d with mod := { d.mod with swapNewRt := none, swapNewMc := none } }

/-- New microcode is loaded, where the SWAP brings any. -/
def newMicroLoaded (d : Dev) : Dev := match d.mod.swapNewMc with | some m => microLoaded m d | none => d

theorem doSwapReload_of_chosen {i : Image} {b : Bytes} (h : swapChoice ok d = some (i, b)) :
    doSwapReload ok d = swapReturned (newMicroLoaded (runtimeLoaded i b d)) := by
  rw [doSwapReload, if_neg (by simp [hm])]
  simp only [h]
  rfl

end

theorem newMicroLoaded_of_none {d : Dev} (h : d.mod.swapNewMc = none) : newMicroLoaded d = d := by rw [newMicroLoaded, h]

theorem newMicroLoaded_of_some {d : Dev} {m : Image} (h : d.mod.swapNewMc = some m) : newMicroLoaded d = microLoaded m d := by rw [newMicroLoaded, h]

/-! ### Anti-rollback values (14 R400) -/

section
variable {r v : Nat} {d : Dev}

/-- The modes of R400. -/
abbrev SvnMode (m : Mode) : Prop := m = .solo ∨ m = .lead ∨ m = .shadow ∨ m = .service

theorem svnCommit_of_other (h : ¬SvnMode (disarm r d).mod.mode) : svnCommit r v d = disarm r d := by
  unfold SvnMode at h
  push Not at h
  simp [svnCommit, modWrite, h]

theorem svnCommit_of_runtime {i : Image} (hm : SvnMode (disarm r d).mod.mode) (hi : (disarm r d).mod.runtime = some i) :
    svnCommit r 1 d = svnRaise 1 i.svn 64 (disarm r d) := by
  have h0 : bitAt 1 0 = true := by decide
  have h1 : bitAt 1 1 = false := by decide
  have h2 : bitAt 1 2 = false := by decide
  obtain h | h | h | h := hm <;> simp [svnCommit, modWrite, h, hi, h0, h1, h2]

theorem svnRaise_of_reached {n : Nat} (h : n ≤ d.mod.fuses.svnRt) : svnRaise 1 n 64 d = d :=
  if_pos ((Nat.min_le_left n 64).trans h)

theorem svnRaise_of_higher {n : Nat} (h : d.mod.fuses.svnRt < n) (hn : n ≤ 64) : svnRaise 1 n 64 d =
    event 0x0E08 1 (be 1 1 ++ be 1 n) { d with mod := { d.mod with fuses := { d.mod.fuses with svnRt := n } } } := by
  have hmin : Nat.min n 64 = n := Nat.min_eq_left hn
  simp [svnRaise, hmin, fusedSvn, Nat.not_le.mpr h]

end

/-- Settles O42: the images read decide whether the SWAP begins, and those loaded how it ends. -/
theorem activation : Obligations.Activation := by
  unfold Obligations.Activation
  refine fun s hp => ⟨fun o hc => ⟨fun i j hi hj => ⟨fun h => ⟨?begun, swapEnter_mode ..⟩, fun h => ?untested⟩, fun h => ?missing⟩,
    fun h => runs_of hp rfl (doSwapVerified_of_none h),
    fun ok => ⟨fun h => runs_of hp rfl (doSwapReload_of_other h), fun hm h => runs_of hp rfl (doSwapReload_of_none hm h),
      fun i b hm h => ⟨fun hn => ?runtime, fun m hn => ?micro⟩⟩,
    fun r v => ⟨fun h => ?otherMode, fun i hm hi => ⟨fun h => ?reached, fun h hn => ?raised⟩⟩⟩
  case begun => exact runs_of hp rfl ((doSwapVerified_of_images hc hi hj).trans (if_pos h))
  case untested => exact runs_of hp rfl ((doSwapVerified_of_images hc hi hj).trans (if_neg (by simp [h])))
  case missing => exact runs_of hp rfl (doSwapVerified_of_missing hc h)
  case runtime => exact runs_of hp rfl ((doSwapReload_of_chosen hm h).trans (congrArg swapReturned (newMicroLoaded_of_none hn)))
  case micro => exact runs_of hp rfl ((doSwapReload_of_chosen hm h).trans (congrArg swapReturned (newMicroLoaded_of_some hn)))
  case otherMode => exact runs_of hp rfl (svnCommit_of_other (by simpa [SvnMode] using h))
  case reached => exact runs_of hp rfl ((svnCommit_of_runtime hm hi).trans (svnRaise_of_reached h))
  case raised => exact runs_of hp rfl ((svnCommit_of_runtime hm hi).trans (svnRaise_of_higher h hn))

end Sys2Proof.Machine

/-! SUPPORT. Measurements and attestation (14 R407, R408, R411), and a stopped device (15 R427). -/

namespace Sys2Proof.Machine

/-! ### Measurement registers (14 R407) -/

section
variable {r i : Nat} {d : Dev}

theorem getMr_mrExtend (i kind : Nat) (x : Bytes) (d : Dev) : Tab.get [] (mrExtend i kind x d).mod.mr i =
    shake256 (fit 64 (Tab.get [] d.mod.mr i) ++ be 1 kind ++ be 4 x.length ++ x) 64 := by simp only [mrExtend, Tab.get_set_same]

section
variable (hi : i < 8)
include hi

theorem fld_mr : fld i 2 0 = i := fld_low_of_lt hi

theorem mrExtWrite_of_device (h : taskReq r d = false) (h5 : i < 5) : mrExtWrite r i d = disarm r d := by
  rw [mrExtWrite, if_neg (by simp [h]), modWrite]
  exact if_pos (by rw [fld_mr hi]; exact h5)

theorem mrExtWrite_of_read {b : Bytes} (h : taskReq r d = false) (h5 : 5 ≤ i) (hb : (engRead r (disarm r d).mod.mrArg 64 (disarm r d)).1 = some b) :
    mrExtWrite r i d = mrExtend i 5 b (engRead r (disarm r d).mod.mrArg 64 (disarm r d)).2 := by
  rw [mrExtWrite, if_neg (by simp [h]), modWrite, fld_mr hi, if_neg (by omega)]
  simp only [hb]

theorem mrSelWrite_of_lt : mrSelWrite r i d =
    { disarm r d with mod := { (disarm r d).mod with mrSel := i, mrData := fit 64 (Tab.get [] (disarm r d).mod.mr i) } } := by
  rw [mrSelWrite, modWrite, fld_mr hi]

end

/-! ### Reports (14 R408, R411) -/

/-- A write of GO alone starts an attestation, or says why not. -/
theorem attWrite_go : attWrite r 1 d =
    let d := disarm r d
    let n := engRead r d.mod.attSrc 64 d
    if d.mod.attBusy = true then d
    else if (d.getLpk 1).valid = false then { d with mod := { d.mod with attErr := 1 } }
    else if n.1 = none ∨ engCanWrite r d.mod.attDst 3949 d = false then { n.2 with mod := { n.2.mod with attErr := 2 } }
    else { n.2 with mod := { n.2.mod with attBusy := true, attErr := 0, attReq := r } } := by
  have h0 : bitAt 1 0 = true := by decide
  have h2 : bitAt 1 2 = false := by decide
  simp [attWrite, modWrite, h0, h2]

theorem doAttest_of_idle (h : d.mod.attBusy = false) : doAttest d = d := if_pos (by simp [h])

/-- The device whose attestation has read its nonce. -/
def attestRead (d : Dev) : Dev :=
  let n := engRead d.mod.attReq d.mod.attSrc 64 d
  { n.2 with mod := { n.2.mod with attBusy := false } }

/-- The report over `nonce` leaves for its address. -/
def attestOut (nonce : Bytes) (d : Dev) : Dev :=
  let r := attReport nonce d
  let w := engWrite d.mod.attReq d.mod.attDst r.1 r.2
  if w.1 then { w.2 with mod := { w.2.mod with attDone := true } } else { w.2 with mod := { w.2.mod with attErr := 2 } }

theorem doAttest_of_read {b : Bytes} (h : d.mod.attBusy = true) (hb : (engRead d.mod.attReq d.mod.attSrc 64 d).1 = some b) :
    doAttest d = attestOut b (attestRead d) := by
  rw [doAttest, if_neg (by simp [h]), attestOut, attestRead]
  dsimp only
  generalize engRead d.mod.attReq d.mod.attSrc 64 d = n at hb ⊢
  obtain ⟨o, e⟩ := n
  subst hb
  rfl

theorem attReport_eq (nonce : Bytes) (d : Dev) : attReport nonce d =
    (attBody nonce d ++ fit 3309 (Config.mldsaSign (d.getLpk 1).key (attBody nonce d) (freeBytes 32 d).1), (freeBytes 32 d).2) := rfl

theorem attestOut_of_written {nonce : Bytes} {w : Bool × Dev} (hw : engWrite d.mod.attReq d.mod.attDst
      (attBody nonce d ++ fit 3309 (Config.mldsaSign (d.getLpk 1).key (attBody nonce d) (freeBytes 32 d).1)) (freeBytes 32 d).2 = w)
    (h : w.1 = true) : attestOut nonce d = { w.2 with mod := { w.2.mod with attDone := true } } := by
  rw [attestOut, attReport_eq]
  dsimp only
  rw [hw, if_pos h]

end

/-- Settles O46: a register is extended by what its requester may read, and a report is written where its key and its memory allow it. -/
theorem attestation : Obligations.Attestation := by
  unfold Obligations.Attestation
  refine fun s hp r => ⟨fun hsuper i hi => ⟨fun h5 => ?device, fun b h5 hb => ⟨?extended, getMr_mrExtend ..⟩⟩, fun i hi => ?selected,
    ⟨fun h => ?busy, fun h hk => ?noKey, fun h hk hm => ?noMemory, fun b h hk hb hw => ?started⟩, fun h => ?idle, fun b h hb hw => ?done⟩
  case device => exact runs_of hp rfl (mrExtWrite_of_device hi hsuper h5)
  case extended => exact runs_of hp rfl (mrExtWrite_of_read hi hsuper h5 hb)
  case selected => exact runs_of hp rfl (mrSelWrite_of_lt hi)
  case busy => exact runs_of hp rfl (attWrite_go.trans (if_pos h))
  case noKey => exact runs_of hp rfl (attWrite_go.trans ((if_neg (by simp [h])).trans (if_pos hk)))
  case noMemory => exact runs_of hp rfl (attWrite_go.trans ((if_neg (by simp [h])).trans ((if_neg (by simp [hk])).trans (if_pos hm))))
  case started =>
    have hreach : ¬((engRead r (disarm r s.dev).mod.attSrc 64 (disarm r s.dev)).1 = none ∨
        engCanWrite r (disarm r s.dev).mod.attDst 3949 (disarm r s.dev) = false) := by simp [hb, hw]
    exact runs_of hp rfl (attWrite_go.trans ((if_neg (by simp [h])).trans ((if_neg (by simp [hk])).trans (if_neg hreach))))
  case idle => exact runs_of hp rfl (doAttest_of_idle h)
  case done =>
    exact runs_of hp (f := doAttest) rfl ((doAttest_of_read h hb).trans (attestOut_of_written rfl hw))

/-! ### A stopped device (15 R427) -/

/-- Command `c` at `s` completes, and in a stopped device it changes nothing. -/
def Pauses (c : Instr) (s : State) : Prop := ∃ e : Dev, exec c s = .next { s with dev := if s.dev.pins.stopped = true then s.dev else e }

theorem exec_pauses {c : Instr} (s : State) (hc : c ≠ .coldReset) (ht : c ≠ .tamperAssert) : Pauses c s := by
  cases c
  case coldReset => exact absurd rfl hc
  case tamperAssert => exact absurd rfl ht
  all_goals exact ⟨_, rfl⟩

theorem exec_next (c : Instr) (s : State) : ∃ d : Dev, exec c s = .next { s with dev := d } := by
  by_cases hc : c = .coldReset
  · subst hc; exact ⟨_, rfl⟩
  by_cases ht : c = .tamperAssert
  · subst ht; exact ⟨_, rfl⟩
  obtain ⟨e, he⟩ := exec_pauses s hc ht
  exact ⟨_, he⟩

/-- Settles O58: but for a cold reset and a tamper assertion, every row asks first whether the device has stopped. -/
theorem stoppedDevice : Obligations.StoppedDevice := by
  unfold Obligations.StoppedDevice
  refine fun c s => ⟨?next, fun hs hc ht => ?stopped⟩
  case next =>
    obtain ⟨d, hd⟩ := exec_next c s
    exact ⟨_, hd, rfl⟩
  case stopped =>
    obtain ⟨e, he⟩ := exec_pauses s hc ht
    rw [he, if_pos hs]

end Sys2Proof.Machine

/-! SUPPORT. The recorder's copies and postings, the calendar, and the time of day (15 R433 to R436, 17 R465 to R467). -/

namespace Sys2Proof.Machine

/-! ### The calendar's part of the recorder -/

/-- The calendar and what the time of day has told of it. -/
structure Calendar where
  sec : Nat
  q : Nat
  run : Nat
  prev : Option Nat
  msg : Option Nat
  on : Bool

def Dev.calendar (d : Dev) : Calendar := ⟨d.evr.calSec, d.evr.calq, d.evr.ppsRun, d.evr.ppsPrev, d.evr.ppsMsg, d.evr.ppsOn⟩

section
variable {d : Dev}

theorem placeRec_calendar (r : EvRec) (a : Bool) : ({ d with evr := placeRec r a d.evr } : Dev).calendar = d.calendar := by
  unfold placeRec Dev.calendar
  dsimp only
  (repeat' split) <;> rfl

theorem collectRec_calendar (r : EvRec) : (collectRec r d).calendar = d.calendar := by simp [Dev.calendar]

/-- An event that is no device fault leaves the calendar. -/
theorem event_calendar {code sev : Nat} {b : Bytes} (h : sev ≠ 3) : (event code sev b d).calendar = d.calendar := by
  unfold event recordFull
  dsimp only
  rw [if_neg h, if_neg Bool.false_ne_true, Bool.false_or]
  split
  · split <;> rfl
  · split
    · exact placeRec_calendar ..
    · exact (collectRec_calendar _).trans (placeRec_calendar ..)

theorem setCalq_calendar (q : Nat) (d : Dev) : (setCalq q d).calendar = { d.calendar with q := q } := by
  rw [setCalq]
  dsimp only
  split
  next h => rw [← h]; rfl
  next => rw [event_calendar (by decide)]; rfl

theorem calSet_calendar {v : Nat} (hv : v < 2 ^ 48) : (calSet v d).calendar = { d.calendar with sec := v, q := 1, run := 0 } := by
  rw [calSet, setCalq_calendar, Nat.mod_eq_of_lt hv]
  rfl

/-- The quality that a lost second leaves. -/
def lostCalq (q : Nat) : Nat := if q = 3 then 2 else q

theorem lostCalq_of_qualified : lostCalq 3 = 2 := rfl

theorem lostCalq_of_other {q : Nat} (h : q ≠ 3) : lostCalq q = q := if_neg h

theorem loseCalq_calendar {q : Nat} (d : Dev) (h : d.evr.calq = q) :
    (if q = 3 then setCalq 2 d else d).calendar = { d.calendar with q := lostCalq q } := by
  subst h
  unfold lostCalq
  split
  · exact setCalq_calendar 2 d
  · rfl

end

/-! ### Edges (17 R466, R467) -/

/-- An edge's message agrees with the value that the edge before left. -/
def ppsAgrees (prev : Option Nat) (m : Nat) : Bool :=
  match prev with
  | some p => m / 2 == (p + 1) % 2 ^ 48 || (m % 2 == 1 && m / 2 == p)
  | none => false

theorem ppsAgrees_some {p m : Nat} : ppsAgrees (some p) m = true ↔ m / 2 = (p + 1) % 2 ^ 48 ∨ (m % 2 = 1 ∧ m / 2 = p) := by
  simp only [ppsAgrees, Bool.or_eq_true, Bool.and_eq_true, beq_iff_eq]

/-- The edges that have agreed in a row, after one with message `m`. -/
def ppsRunNext (e : Evr) (m : Nat) : Nat := if ppsAgrees e.ppsPrev m = true then Nat.min 3 (e.ppsRun + 1) else 0

section
variable {d : Dev}

theorem doPpsEdge_of_message {m : Nat} (h : d.evr.ppsMsg = some m) : (doPpsEdge d).calendar =
    ⟨m / 2, if ppsRunNext d.evr m = 3 then 3 else lostCalq d.evr.calq, ppsRunNext d.evr m, some (m / 2), none, true⟩ := by
  have hrun : ∀ (x : Dev), x.evr.calq = d.evr.calq →
      (if ppsRunNext d.evr m = 3 then setCalq 3 x else if d.evr.calq = 3 then setCalq 2 x else x).calendar =
        { x.calendar with q := if ppsRunNext d.evr m = 3 then 3 else lostCalq d.evr.calq } := fun x hx => by
    split
    · exact setCalq_calendar 3 x
    · exact loseCalq_calendar x hx
  unfold doPpsEdge
  simp only [h]
  exact hrun _ rfl

theorem doPpsEdge_of_none (h : d.evr.ppsMsg = none) (hq : d.evr.calq ≠ 0) : (doPpsEdge d).calendar =
    ⟨(d.evr.calSec + 1) % 2 ^ 48, lostCalq d.evr.calq, 0, some ((d.evr.calSec + 1) % 2 ^ 48), none, true⟩ := by
  have hknown : (d.evr.ppsOn || decide (d.evr.calq ≠ 0)) = true := by simp [hq]
  unfold doPpsEdge
  simp only [h, hknown, if_true]
  refine (loseCalq_calendar (q := d.evr.calq) _ ?_).trans ?_ <;> rfl

theorem doPpsMissing_of_off (h : d.evr.ppsOn = false) : doPpsMissing d = d := if_pos (by simp [h])

theorem doPpsMissing_of_on (h : d.evr.ppsOn = true) : (doPpsMissing d).calendar =
    { d.calendar with sec := (d.evr.calSec + 1) % 2 ^ 48, q := lostCalq d.evr.calq, run := 0, on := false } := by
  rw [doPpsMissing, if_neg (by simp [h])]
  exact loseCalq_calendar _ rfl

end

/-! ### Messages (17 R465) -/

/-- A message of the right length, mark and check. -/
abbrev TodShape (b : Bytes) : Prop := b.length = 12 ∧ beAt b 0 2 = 0xC5A7 ∧ beAt b 10 2 = crc16 (b.take 10)

/-- A message of version 1 whose value is valid. -/
abbrev TodValid (b : Bytes) : Prop := byteAt b 2 = 1 ∧ byteAt b 3 % 2 = 1

/-- Why a message is discarded; 0, it is accepted. -/
def todWhy (b : Bytes) (inTime : Bool) : Nat :=
  if b.length ≠ 12 || beAt b 0 2 ≠ 0xC5A7 || beAt b 10 2 ≠ crc16 (b.take 10) then 1
  else if byteAt b 2 ≠ 1 || byteAt b 3 % 2 ≠ 1 then 2 else if !inTime then 3 else 0

section
variable {b : Bytes} {inTime : Bool} {d : Dev}

theorem todWhy_of_shapeless (h : ¬TodShape b) : todWhy b inTime = 1 := if_pos (by
  simp only [Bool.or_eq_true, decide_eq_true_eq, or_assoc]
  simpa only [TodShape, not_and_or] using h)

theorem todWhy_of_shape (h : TodShape b) : todWhy b inTime = if ¬TodValid b then 2 else if inTime = false then 3 else 0 := by
  obtain ⟨hlen, hmark, hcheck⟩ := h
  refine (if_neg (by simp [hlen, hmark, ← hcheck])).trans (if_congr ?_ rfl (if_congr (by simp) rfl rfl))
  simp only [Bool.or_eq_true, decide_eq_true_eq, TodValid, not_and_or, ne_eq]

theorem doTod_eq : doTod b inTime d =
    if todWhy b inTime = 0 then { d with evr := { d.evr with ppsMsg := some (2 * beAt b 4 6 + byteAt b 3 / 2 % 2) } }
    else if d.evr.todBad = 0 || d.evr.todBad + 59999 ≤ d.evr.optime then
      event 0x1102 2 (be 1 (todWhy b inTime)) { d with evr := { d.evr with todBad := d.evr.optime + 1 } }
    else d := rfl

theorem doTod_of_accepted (h : todWhy b inTime = 0) :
    doTod b inTime d = { d with evr := { d.evr with ppsMsg := some (2 * beAt b 4 6 + byteAt b 3 / 2 % 2) } } := doTod_eq.trans (if_pos h)

variable {why : Nat} (h : todWhy b inTime = why) (h0 : why ≠ 0)
include h h0

theorem doTod_of_recorded (ht : d.evr.todBad = 0 ∨ d.evr.todBad + 59999 ≤ d.evr.optime) :
    doTod b inTime d = event 0x1102 2 (be 1 why) { d with evr := { d.evr with todBad := d.evr.optime + 1 } } := by
  rw [doTod_eq, h, if_neg h0, if_pos (by simpa using ht)]

theorem doTod_of_silent (ht : d.evr.todBad ≠ 0) (ho : d.evr.optime < d.evr.todBad + 59999) : doTod b inTime d = d := by
  rw [doTod_eq, h, if_neg h0, if_neg (by simp [ht, ho])]

end

/-! ### Postings (15 R436) -/

theorem postWrite_of_refused {r v : Nat} {d : Dev} (h : r = reqJtag ∨ d.mod.mode = .reset ∨ d.mod.mode = .kiln ∨ d.mod.mode = .zeroised) :
    postWrite r v d = d := if_pos (by simpa [or_assoc] using h)

theorem postWrite_of_posted {r v : Nat} {d : Dev} (hj : r ≠ reqJtag) (hr : d.mod.mode ≠ .reset) (hk : d.mod.mode ≠ .kiln)
    (hz : d.mod.mode ≠ .zeroised) : postWrite r v d =
      recordFull (fld v 15 0) (fld v 17 16) (if r = reqHost then 62 else 63) 1
        (le 4 (Tab.get 0 d.evr.postLo r) ++ le 4 (Tab.get 0 d.evr.postHi r)) false d := if_neg (by simp [hj, hr, hk, hz])

/-- Settles O49: an event leaves the calendar as it is, so that a row's calendar is what the row itself writes. -/
theorem recorder : Obligations.Recorder := by
  unfold Obligations.Recorder
  refine fun s hp => ⟨runs_of hp rfl rfl, runs_of hp rfl rfl, fun r v => ⟨fun h => ?refused, fun hj hr hk hz => ?posted⟩, fun v hv hopen => ?calset,
    ⟨fun h => ?holdover, fun h => ?noHoldover⟩, fun m hm => ?edge, fun hm hq => ?edgeAlone, ⟨fun h => ?off, fun h => ?missing⟩,
    fun b => ⟨fun hs hv => ?accepted, fun ht => ⟨fun hs inTime => ?shapeless, fun hs hv inTime => ?invalid, fun hs hv => ?late⟩,
      fun ht ho hs inTime => ?silent⟩⟩
  case refused => exact runs_doneReg_of_same hp rfl (postWrite_of_refused h)
  case posted => exact runs_doneReg_of_open hp (by simp [regsShut, hr, hk]) rfl (postWrite_of_posted hj hr hk hz)
  case calset =>
    have h := calSet_calendar (d := s.dev) hv
    exact ⟨calSet v s.dev, runs_doneReg_of_open hp hopen rfl rfl, congrArg Calendar.sec h, congrArg Calendar.q h, congrArg Calendar.run h⟩
  case holdover =>
    have hc := setCalq_calendar 1 s.dev
    exact ⟨setCalq 1 s.dev, runs_of hp rfl (if_pos h), congrArg Calendar.q hc, congrArg Calendar.sec hc⟩
  case noHoldover => exact runs_of hp rfl (if_neg h)
  case edge =>
    have h := doPpsEdge_of_message hm
    have hrun : (doPpsEdge s.dev).evr.ppsRun = ppsRunNext s.dev.evr m := congrArg Calendar.run h
    have hq : (doPpsEdge s.dev).evr.calq = if ppsRunNext s.dev.evr m = 3 then 3 else lostCalq s.dev.evr.calq := congrArg Calendar.q h
    refine ⟨doPpsEdge s.dev, runs_of hp rfl rfl, congrArg Calendar.sec h, congrArg Calendar.prev h, congrArg Calendar.msg h, congrArg Calendar.on h,
      fun p hprev => ⟨fun ha => ?agrees, fun hnext hkept => ?disagrees⟩, fun hprev => ?first⟩
    case agrees =>
      have hnext : ppsRunNext s.dev.evr m = Nat.min 3 (s.dev.evr.ppsRun + 1) := if_pos (by rw [hprev]; exact ppsAgrees_some.mpr ha)
      refine ⟨hrun.trans hnext, fun h2 => hq.trans (if_pos (hnext.trans (Nat.min_eq_left ?_)))⟩
      omega
    case disagrees =>
      have hnext : ppsRunNext s.dev.evr m = 0 := if_neg (by rw [hprev, ppsAgrees_some]; omega)
      have hlost : (doPpsEdge s.dev).evr.calq = lostCalq s.dev.evr.calq := hq.trans (if_neg (by simp [hnext]))
      exact ⟨hrun.trans hnext, fun h3 => by rw [hlost, h3, lostCalq_of_qualified], fun h3 => by rw [hlost, lostCalq_of_other h3]⟩
    case first => exact hrun.trans (if_neg (by simp [hprev, ppsAgrees]))
  case edgeAlone =>
    have h := doPpsEdge_of_none hm hq
    have hlost : (doPpsEdge s.dev).evr.calq = lostCalq s.dev.evr.calq := congrArg Calendar.q h
    exact ⟨doPpsEdge s.dev, runs_of hp rfl rfl, congrArg Calendar.sec h, congrArg Calendar.prev h, congrArg Calendar.run h,
      fun h3 => by rw [hlost, h3, lostCalq_of_qualified], fun h3 => by rw [hlost, lostCalq_of_other h3]⟩
  case off => exact runs_of hp rfl (doPpsMissing_of_off h)
  case missing =>
    have h := doPpsMissing_of_on h
    have hlost : (doPpsMissing s.dev).evr.calq = lostCalq s.dev.evr.calq := congrArg Calendar.q h
    exact ⟨doPpsMissing s.dev, runs_of hp rfl rfl, congrArg Calendar.sec h, congrArg Calendar.on h, congrArg Calendar.msg h,
      fun h3 => by rw [hlost, h3, lostCalq_of_qualified], fun h3 => by rw [hlost, lostCalq_of_other h3]⟩
  case accepted => exact runs_of hp rfl (doTod_of_accepted ((todWhy_of_shape hs).trans (by simp [hv.1, hv.2, TodValid])))
  case shapeless => exact runs_of hp rfl (doTod_of_recorded (todWhy_of_shapeless hs) (by decide) ht)
  case invalid => exact runs_of hp rfl (doTod_of_recorded ((todWhy_of_shape hs).trans (if_pos hv)) (by decide) ht)
  case late => exact runs_of hp rfl (doTod_of_recorded ((todWhy_of_shape hs).trans (by simp [hv.1, hv.2, TodValid])) (by decide) ht)
  case silent => exact runs_of hp rfl (doTod_of_silent (todWhy_of_shapeless hs) (by decide) ht ho)

end Sys2Proof.Machine

/-! SUPPORT. Pipeline faults, spares and slice restarts (15 R413 to R418). -/

namespace Sys2Proof.Machine

/-! ### Pipelines (15 R413 to R416) -/

section
variable {sl dir pipe p : Nat} {d : Dev}

theorem doPipeFault_of_out {mirror : Bool} (h : 2 ≤ pipeRole sl dir pipe d) : doPipeFault sl dir pipe mirror d = d := if_pos (by simp [h])

section
variable (hl : pipeLive sl dir pipe d = true)
include hl

theorem doPipeFault_of_spare (h : pipeRole sl dir pipe d = 1) :
    doPipeFault sl dir pipe false d = pipeOut sl dir pipe 1 (prfCount 17 (some sl) 1 d) := by
  simp [doPipeFault, hl, h]

/-- A fault of a traffic pipeline spoils a frame, and the spare takes its place. -/
theorem doPipeFault_of_traffic (h : pipeRole sl dir pipe d = 0) (hs : spareOf sl dir d = some p) :
    doPipeFault sl dir pipe false d = pipeOut sl dir pipe 1 (setRole sl dir p 0 (spoilOne sl dir (prfCount 17 (some sl) 1 d))) := by
  simp [doPipeFault, hl, h, hs]

theorem doPipeFault_of_noSpare (h : pipeRole sl dir pipe d = 0) (hs : spareOf sl dir d = none) :
    doPipeFault sl dir pipe false d =
      let d := spoilOne sl dir (prfCount 17 (some sl) 1 d)
      let u := pipeUnit sl dir pipe
      sliceFault sl 1 (if recurs 1 u 86400 d = true then retirePipe sl dir pipe 1 d else markFault 1 u d) := by
  simp [doPipeFault, hl, h, hs]

/-- A pipeline under test leaves the list of those under test with the way in which it came there. -/
theorem doPipeKat_of_tested {how : Nat} {pass : Bool} (h : pipeRole sl dir pipe d = 2)
    (hf : d.flt.underTest.find? (fun e => e.1 == pipeUnit sl dir pipe) = some (pipeUnit sl dir pipe, how)) :
    doPipeKat sl dir pipe pass d =
      let d := { d with flt := { d.flt with underTest := d.flt.underTest.filter (fun e => e.1 != pipeUnit sl dir pipe) } }
      if pass = true then transientUnit 1 (pipeUnit sl dir pipe) how
        ((setRole sl dir pipe 1 d).updSlice sl (fun x => { x with fltTransient := Nat.min 255 (x.fltTransient + 1) }))
      else retirePipe sl dir pipe how d := by
  simp only [doPipeKat, hl, h, hf, Bool.not_true, Bool.false_or, ne_eq, not_true, decide_false, Bool.false_eq_true, if_false]

theorem doSpareKatFail_of_spare (hs : spareOf sl dir d = some pipe) :
    doSpareKatFail sl dir d = pipeOut sl dir pipe 3 (prfCount 17 (some sl) 1 d) := by simp [doSpareKatFail, hs, hl]

theorem doSpareRotate_of_standing (hs : spareOf sl dir d = some pipe) (h : ∀ q < 5, pipeRole sl dir q d < 2) :
    doSpareRotate sl dir d = setRole sl dir pipe 0 (setRole sl dir ((pipe + 1) % 5) 1 d) := by
  simp only [doSpareRotate, hs]
  refine if_neg ?_
  simp only [hl, Bool.not_true, Bool.false_or, List.any_eq_true, List.mem_range, decide_eq_true_eq, not_exists, not_and, Nat.not_le]
  exact h

end

theorem doPipeKat_of_other {pass : Bool} (h : pipeRole sl dir pipe d ≠ 2) : doPipeKat sl dir pipe pass d = d := if_pos (by simp [h])

theorem doSpareRotate_of_fallen (hs : spareOf sl dir d = some pipe) (h : ∃ q < 5, 2 ≤ pipeRole sl dir q d) : doSpareRotate sl dir d = d := by
  simp only [doSpareRotate, hs]
  refine if_pos ?_
  rw [Bool.or_eq_true]
  refine Or.inr ?_
  simp only [List.any_eq_true, List.mem_range, decide_eq_true_eq]
  exact h

end

/-! ### Slice restarts (15 R417, R418) -/

section
variable {b : Sub} {sl : Nat} {d : Dev}

theorem doSlcRestart_of_standing (h : (d.getSlice sl).state ≠ 1) : doSlcRestart b sl d = gateDone b stBAD_STATE [] d := by
  simp [doSlcRestart, guards, h]

theorem doSlcRestart_of_failed (h : (d.getSlice sl).state = 1) : doSlcRestart b sl d =
    let d := clearSlice sl d
    if sliceRecurs sl d = true then gateDone b stABORTED [] (retireUnit 2 sl 0 (d.updSlice sl (fun x => { x with state := 3 })))
    else d.updSlice sl (fun x => { x with state := 2, restartSub := some (b, d.tck.tno) }) := by
  simp [doSlcRestart, guards, h]

theorem doSlcRestartComplete_of_other {pass : Bool} (h : (d.getSlice sl).state ≠ 2) : doSlcRestartComplete sl pass d = d := if_pos h

section
variable {k : Nat} (h : (d.getSlice sl).state = 2) (hb : (d.getSlice sl).restartSub = some (b, k))
include h hb

theorem doSlcRestartComplete_of_failed : doSlcRestartComplete sl false d = gateLate b k stABORTED []
    (retireUnit 2 sl 3 (d.updSlice sl (fun x => { x with state := 3, cause := 6, restartSub := none }))) := by
  rw [doSlcRestartComplete]
  dsimp only
  rw [if_neg (by simp [h])]
  simp only [hb, Bool.false_eq_true, if_false]

theorem doSlcRestartComplete_of_passed : doSlcRestartComplete sl true d =
    let e := d.updSlice sl (fun x => { pipesPassed x with state := 0, cause := 0, restartSub := none })
    gateLate b k stOK [] (event 0x0F14 1 (be 1 sl)
      { e with flt := { e.flt with lastAt := ((2, sl), (d.getSlice sl).faultAt) :: e.flt.lastAt.filter (fun x => x.1 != (2, sl)) } }) := by
  rw [doSlcRestartComplete]
  dsimp only
  rw [if_neg (by simp [h])]
  simp only [hb, if_true]

end
end

/-- Settles O47: a fault goes by the role of its pipeline and by whether a spare stands; a restart by the slice's state and its last fault. -/
theorem pipelineFaults : Obligations.PipelineFaults := by
  unfold Obligations.PipelineFaults
  refine fun s hp => ⟨fun sl dir pipe hl => ⟨fun p h hs => ?traffic, fun h hs => ?noSpare, fun h => ?spare, fun h mirror => ?outOfService,
      fun h how hf => ⟨?passed, ?failed⟩, fun h pass => ?notTested, fun hs => ⟨?spareFailed, fun h => ?rotated, fun h => ?still⟩⟩,
    fun b sl => ⟨fun h => ?standing, fun h hr => ?restarted, fun h hr => ?recurred⟩,
    fun sl => ⟨fun h pass => ?notRestarting, fun b k h hb => ⟨?restartFailed, ?restartPassed⟩⟩⟩
  case traffic => exact runs_of hp rfl (doPipeFault_of_traffic hl h hs)
  case noSpare => exact runs_of hp rfl (doPipeFault_of_noSpare hl h hs)
  case spare => exact runs_of hp rfl (doPipeFault_of_spare hl h)
  case outOfService => exact runs_of hp rfl (doPipeFault_of_out h)
  case passed => exact runs_of hp rfl ((doPipeKat_of_tested hl h hf).trans (if_pos rfl))
  case failed => exact runs_of hp rfl ((doPipeKat_of_tested hl h hf).trans (if_neg Bool.false_ne_true))
  case notTested => exact runs_of hp rfl (doPipeKat_of_other h)
  case spareFailed => exact runs_of hp rfl (doSpareKatFail_of_spare hl hs)
  case rotated => exact runs_of hp rfl (doSpareRotate_of_standing hl hs h)
  case still => exact runs_of hp rfl (doSpareRotate_of_fallen hs h)
  case standing => exact runs_of hp rfl (doSlcRestart_of_standing h)
  case restarted => exact runs_of hp rfl ((doSlcRestart_of_failed h).trans (if_neg (by simp [hr])))
  case recurred => exact runs_of hp rfl ((doSlcRestart_of_failed h).trans (if_pos hr))
  case notRestarting => exact runs_of hp rfl (doSlcRestartComplete_of_other h)
  case restartFailed => exact runs_of hp rfl (doSlcRestartComplete_of_failed h hb)
  case restartPassed => exact runs_of hp rfl (doSlcRestartComplete_of_passed h hb)

end Sys2Proof.Machine

/-! SUPPORT. Flash, board ports, device counters, selection registers and the package (02 R66; 05 R136, R160; 16 R446 to R451; 17 R463, R469, R470,
R473, R474). -/

namespace Sys2Proof.Machine

/-! ### The FLS block (16 R450, R451) -/

/-- `x` is a write of FLS_CMD by `r` with operation `op`. -/
structure FlsRequests (r : Nat) (x : Instr) (op : Nat) : Prop where
  exec : ∀ s : State, exec x s = doneReg s (flsRow r op)

theorem flsRequests_mem {r : Nat} {x : Instr × Nat} (hx : x ∈ [(Instr.flsRead r, 1), (.flsProgram r, 2), (.flsErase r, 3)]) :
    FlsRequests r x.1 x.2 := by
  simp only [List.mem_cons, List.not_mem_nil, or_false] at hx
  obtain rfl | rfl | rfl := hx <;> exact ⟨fun _ => rfl⟩

theorem flsRequests_of_mem {r : Nat} {x : Instr} (hx : x ∈ [Instr.flsRead r, .flsProgram r, .flsErase r]) : ∃ op, FlsRequests r x op := by
  simp only [List.mem_cons, List.not_mem_nil, or_false] at hx
  obtain rfl | rfl | rfl := hx
  · exact ⟨1, ⟨fun _ => rfl⟩⟩
  · exact ⟨2, ⟨fun _ => rfl⟩⟩
  · exact ⟨3, ⟨fun _ => rfl⟩⟩

theorem flsStart_of_accepted {op : Nat} {d : Dev} (h : flsRefuse op (fld d.fls.addr 27 0) (fld d.fls.len 12 0) d = 0) :
    flsStart op d = { d with fls := { d.fls with busy := true, op := some (op, fld d.fls.addr 27 0, fld d.fls.len 12 0) } } :=
  if_neg (not_not.mpr h)

theorem flsStart_of_refused {op : Nat} {d : Dev} (h : flsRefuse op (fld d.fls.addr 27 0) (fld d.fls.len 12 0) d ≠ 0) :
    flsStart op d = { d with fls := { d.fls with refused := true, code := flsRefuse op (fld d.fls.addr 27 0) (fld d.fls.len 12 0) d } } := if_pos h

section
variable {s : State} (hp : Powered s) (hopen : regsShut s.dev = false) {r op : Nat} {x : Instr} (hx : FlsRequests r x op)
include hp hopen hx

theorem FlsRequests.runs_of_task (h : taskReq r s.dev = true) : Runs x s (taskStore r 0x70000 s.dev) :=
  runs_doneReg_of_open hp hopen (hx.exec s) (if_pos h)

theorem FlsRequests.runs_of_super {e : Dev} (h : taskReq r s.dev = false) (he : flsStart op s.dev = e) : Runs x s e :=
  runs_doneReg_of_open hp hopen (hx.exec s) ((if_neg (by simp [h])).trans he)

end

/-- The block once its operation has ended, before what the operation did is counted. -/
def flsEnded (f : Fls) : Fls := { f with busy := false, done := true, op := none, suspended := false }

section
variable {a n : Nat} {d : Dev}

theorem doFlsDone_of_idle (h : d.fls.op = none) (ok : Bool) : doFlsDone ok d = d := by simp [doFlsDone, h]

theorem doFlsDone_of_read (h : d.fls.op = some (1, a, n)) (ok : Bool) :
    doFlsDone ok d = { d with fls := { flsEnded d.fls with buf := putBytes (flsReadBytes d a n) 0 d.fls.buf } } := by simp [doFlsDone, h, flsEnded]

theorem doFlsDone_of_program (h : d.fls.op = some (2, a, n)) :
    (doFlsDone true d).fls.flash = flashProgram (getBytes d.fls.buf 0 n) a d.fls.flash ∧ (doFlsDone true d).fls.busy = false := by
  simp [doFlsDone, h]

theorem doFlsDone_of_erase (h : d.fls.op = some (3, a, n)) :
    doFlsDone true d = { d with fls := { flsEnded d.fls with flash := d.fls.flash.filter (fun e => e.1 / 65536 != a / 65536) } } := by
  simp [doFlsDone, h, flsEnded]

theorem doFlsDone_of_erase_failed (h : d.fls.op = some (3, a, n)) : doFlsDone false d = { d with fls := flsEnded d.fls } := by
  simp [doFlsDone, h, flsEnded]

/-- Every byte of an erased sector reads FF. -/
theorem flashByte_doFlsDone_erase (h : d.fls.op = some (3, a, n)) {k : Nat} (hk : k / 65536 = a / 65536) : flashByte (doFlsDone true d).fls k = 0xFF := by
  have hgone : Tab.get 0 (d.fls.flash.filter (fun e => e.1 / 65536 != a / 65536)) k = 0 :=
    (Tab.get_filter_index 0 (fun i => i / 65536 != a / 65536) d.fls.flash k).trans (if_neg (by simp [hk]))
  rw [doFlsDone_of_erase h, flashByte, hgone]
  rfl

end

/-! ### Board-sensor ports (17 R469, R470) -/

/-- A change of a port is told by what it makes of that port. -/
theorem updI3c_congr {i : Nat} {f g : I3c → I3c} {d : Dev} (h : f (d.getI3c i) = g (d.getI3c i)) : d.updI3c i f = d.updI3c i g :=
  congrArg (fun x => { d with i3c := Tab.set {} d.i3c i x }) h

section
variable {i v : Nat} {d : Dev}

theorem i3cCmdWrite_of_absent (h : 2 ≤ i) : i3cCmdWrite i v d = d := if_pos h

theorem i3cCmdWrite_of_refused (hi : i < 2) (h : (d.getI3c i).busy = true ∨ bitAt (d.getI3c i).ctrl 0 = false) :
    i3cCmdWrite i v d = d.updI3c i (fun x => { x with refused := true }) :=
  (if_neg (Nat.not_le.mpr hi)).trans (if_pos (by simpa using h))

/-- A read that sends no byte first starts on an idle, enabled port. -/
theorem i3cCmdWrite_of_read (hv : v < 2 ^ 16) (hi : i < 2) (hidle : (d.getI3c i).busy = false) (hen : bitAt (d.getI3c i).ctrl 0 = true)
    (hread : bitAt v 7 = true) (hplain : bitAt v 14 = false) :
    i3cCmdWrite i v d = emit (.i3c i v []) (d.updI3c i (fun x => { x with busy := true, cmd := v })) := by
  have hcmd : fld v 15 0 = v := fld_low_of_lt hv
  simp [i3cCmdWrite, hcmd, Nat.not_le.mpr hi, hidle, hen, hread, hplain]

theorem getI3c_doI3cDone_of_idle (h : (d.getI3c i).busy = false) (nack err : Bool) (data : Bytes) :
    (doI3cDone i nack err data d).getI3c i = d.getI3c i := by simp [doI3cDone, h]

/-- A read that its target answered ends with its bytes in the buffer. -/
theorem doI3cDone_of_read (hbusy : (d.getI3c i).busy = true) (hread : bitAt (d.getI3c i).cmd 7 = true) (err : Bool) (data : Bytes) :
    doI3cDone i false err data d = d.updI3c i (fun x =>
      { x with busy := false, done := true, err := x.err || err, data := putBytes (data.take (Nat.min 32 (fld x.cmd 13 8))) 0 x.data }) :=
  updI3c_congr (by simp [hbusy, hread])

theorem doI3cIbi_of_enabled {addr data : Nat} (ha : addr < 128) (hd : data < 256) (hen : bitAt (d.getI3c i).ctrl 3 = true)
    (hnone : (d.getI3c i).ibi = false) : doI3cIbi i addr data d = d.updI3c i (fun x => { x with ibi := true, ibiAddr := addr, ibiData := data }) :=
  updI3c_congr (by simp [hen, hnone, Nat.mod_eq_of_lt ha, Nat.mod_eq_of_lt hd])

end

/-! ### Device counters (16 R448, R449) -/

theorem prfClearAll_cleared {i : Nat} (hi : i < 16) (d : Dev) :
    (Tab.get {} (prfClearAll d).prf i).cnt = 0 ∧ (Tab.get {} (prfClearAll d).prf i).sat = false := by
  have hget := Tab.get_foldl_upd {} (fun _ c => { c with cnt := 0, sat := false }) (List.range 16) List.nodup_range d.prf i
  rw [if_pos (List.mem_range.mpr hi)] at hget
  rw [prfClearAll, hget]
  exact ⟨rfl, rfl⟩

theorem prfClearAll_eq (d : Dev) : prfClearAll d = { d with prf := (prfClearAll d).prf } := by simp only [prfClearAll]

theorem prfClrOne_of_lt {i : Nat} (hi : i < 16) (d : Dev) :
    prfClrOne i d = { d with prf := Tab.upd {} d.prf i (fun c => { c with cnt := 0, sat := false }) } := if_pos hi

/-! ### Selection registers (02 R66; 05 R136, R160; 07 Table 07-18) -/

section
variable {d : Dev}

theorem statselWrite_of_lt {slot : Nat} (h : slot < 2 ^ 17) :
    statselWrite slot d = { d with sas := { d.sas with statSel := slot, statSnap := (d.getLive slot).ctr } } := by
  rw [statselWrite, fld_low_of_lt h]

theorem recselWrite_of_lt {slot : Nat} (h : slot < 2 ^ 17) : recselWrite slot d = { d with sas := { d.sas with
    recSel := slot, recState := (d.tab.getSa slot).state.code, recSnap := snapWords (slotBytes slot d) 16 } } := by
  rw [recselWrite, fld_low_of_lt h]

theorem chnselWrite_of_lt {c : Nat} (h : c < 2 ^ 16) : chnselWrite c d = { d with sas := { d.sas with
    chnSel := c, chnSnap := snapWords (chanBytes (d.tab.getChn c) (d.getChl c)) 16 } } := by
  rw [chnselWrite, fld_low_of_lt h]

theorem slotselWrite_of_kek {n : Nat} (h : n < 2 ^ 10) :
    slotselWrite n d = { d with keys := { d.keys with slotSel := n, slotInfo := snapWords (kekBytes (d.getKek n)) 4 } } := by
  have hslot : fld n 9 0 = n := fld_low_of_lt h
  have hsel : fld n 10 0 = n := fld_low_of_lt (Nat.lt_trans h (by decide))
  have hkek : bitAt n 10 = false := by simp only [bitAt, Nat.div_eq_of_lt h]; rfl
  simp [slotselWrite, hslot, hsel, hkek]

theorem slotselWrite_of_lpk {n : Nat} (h : n < 64) :
    slotselWrite (2 ^ 10 + n) d = { d with keys := { d.keys with slotSel := 2 ^ 10 + n, slotInfo := snapWords (lpkBytes (d.getLpk n)) 4 } } := by
  have hslot : fld (2 ^ 10 + n) 9 0 = n := by simp only [fld]; omega
  have hsel : fld (2 ^ 10 + n) 10 0 = 2 ^ 10 + n := fld_low_of_lt (by omega)
  have hlpk : bitAt (2 ^ 10 + n) 10 = true := by simp only [bitAt, beq_iff_eq]; omega
  rw [slotselWrite, hslot, hsel, hlpk, if_pos rfl, if_pos h]

end

/-! ### Balls (17 R473, R474) -/

/-- The ball carries a pin of a line lane. -/
def Ball.isLine : Ball → Bool
  | .line _ _ => true
  | _ => false

theorem Ball.ne_line_of_isLine {b : Ball} (h : b.isLine = false) (n : Nat) (pin : LanePin) : b ≠ .line n pin := by
  rintro rfl
  nomatch h

theorem Ball.isLine_ite {p : Prop} [Decidable p] {a b : Ball} (ha : a.isLine = false) (hb : b.isLine = false) : (if p then a else b).isLine = false := by
  split
  · exact ha
  · exact hb

/-- A ball looked up in a list that holds no line lane is none. -/
theorem isLine_find {l : List (Nat × Ball)} (p : Nat × Ball → Bool) (h : ∀ x : Nat × Ball, x ∈ l → x.2.isLine = false) :
    (((l.find? p).map (fun x => x.2)).getD Ball.vss).isLine = false := by
  cases hx : l.find? p with
  | none => rfl
  | some x => exact h x (List.mem_of_find?_eq_some hx)

theorem rowOneBall_isLine (col : Nat) : (rowOneBall col).isLine = false := by
  simp only [rowOneBall]
  split_ifs
  case neg => exact isLine_find _ (by decide)
  all_goals rfl

/-- A pin of a row pair is of the kind that the row carries. -/
theorem rowLane_isLine {f : Nat → LanePin → Ball} (hf : ∀ i pin, (f i pin).isLine = false) (out : Bool) (col : Nat) : (rowLane f out col).isLine = false := by
  unfold rowLane
  split
  · exact hf _ _
  · rfl

theorem topBall_isLine (row col : Nat) : (topBall row col).isLine = false :=
  have hlane := rowLane_isLine (f := .pcie) (fun _ _ => rfl) (row == 2) col
  Ball.isLine_ite (rowOneBall_isLine col) (Ball.isLine_ite rfl (Ball.isLine_ite rfl (Ball.isLine_ite rfl (Ball.isLine_ite rfl
    (Ball.isLine_ite hlane rfl)))))

theorem bottomBall_isLine (row col : Nat) : (bottomBall row col).isLine = false :=
  have hlane := rowLane_isLine (f := .holpen) (fun _ _ => rfl) (row == 83) col
  Ball.isLine_ite rfl (Ball.isLine_ite rfl (Ball.isLine_ite rfl (Ball.isLine_ite rfl (Ball.isLine_ite hlane rfl))))

theorem ddrBall_isLine (ch r c : Nat) : (ddrBall ch r c).isLine = false := by
  simp only [ddrBall]
  refine Ball.isLine_ite rfl (Ball.isLine_ite (Ball.isLine_ite rfl (Ball.isLine_ite rfl rfl)) ?_)
  split <;> rfl

/-- The columns of a lane's pins, counted from the package's edge. -/
def lanePins : List (Nat × LanePin) := [(2, .txp), (3, .txn), (6, .rxp), (7, .rxn)]

/-- The band carries its lane `n` in row 10 + 2 n. -/
theorem bandBall_of_lane {base n : Nat} (hn : n < 32) (clk : RefClk) {x : Nat × LanePin} (hx : x ∈ lanePins) :
    bandBall base (10 + 2 * n) x.1 clk [10, 11] = .line (base + n) x.2 := by
  have hrow : ¬10 + 2 * n = 76 := by omega
  have hin : 10 + 2 * n ≤ 72 := by omega
  simp only [lanePins, List.mem_cons, List.not_mem_nil, or_false] at hx
  obtain rfl | rfl | rfl | rfl := hx <;> simp [bandBall, hrow, hin]

/-- Only the even rows from 10 to 72 of a band carry a lane's pin. -/
theorem row_of_bandBall {base row c n : Nat} {clk : RefClk} {pin : LanePin} (h : bandBall base row c clk [10, 11] = .line n pin) :
    10 ≤ row ∧ row ≤ 72 ∧ row % 2 = 0 ∧ n = base + (row - 10) / 2 := by
  simp only [bandBall] at h
  split_ifs at h with _ _ _ _ hrow
  obtain ⟨⟨hlow, hhigh⟩, heven⟩ : (10 ≤ row ∧ row ≤ 72) ∧ row % 2 = 0 := by simpa using hrow
  split at h
  · injection h with hn
    exact ⟨hlow, hhigh, heven, hn.symm⟩
  · nomatch h

theorem ball_of_hasBall {r c : Nat} (h : hasBall r c = true) : ball r c ≠ none := by simp [ball, h]

theorem ball_of_empty {r c : Nat} (h : hasBall r c = false) : ball r c = none := by simp [ball, h]

/-- The positions of no ball: those outside the grid, and the four corners. -/
theorem hasBall_eq_false_iff (r c : Nat) :
    hasBall r c = false ↔ (r = 0 ∨ 84 < r ∨ c = 0 ∨ 84 < c ∨ ((r ≤ 6 ∨ 79 ≤ r) ∧ (c ≤ 6 ∨ 79 ≤ c))) := by
  simp only [hasBall, Bool.and_eq_false_iff, decide_eq_false_iff_not, Bool.not_eq_false', Bool.and_eq_true, Bool.or_eq_true, decide_eq_true_eq]
  omega

theorem ball_eq_none_iff (r c : Nat) : ball r c = none ↔ hasBall r c = false := by
  cases h : hasBall r c with
  | false => simp [ball_of_empty h]
  | true => simp [ball_of_hasBall h]

section
variable {r c : Nat} (hrow : 7 ≤ r ∧ r ≤ 78)
include hrow

theorem hasBall_of_middle (hc : 1 ≤ c ∧ c ≤ 84) : hasBall r c = true := by
  rw [← Bool.not_eq_false, hasBall_eq_false_iff]
  omega

theorem ball_of_left (hc : 1 ≤ c ∧ c ≤ 12) : ball r c = some (bandBall 0 r c .clear [10, 11]) := by
  have hball := hasBall_of_middle hrow (c := c) (by omega)
  rw [ball, hball, if_neg (by simp), if_neg (by omega), if_neg (by omega), if_pos (by omega)]

theorem ball_of_right (hc : 73 ≤ c ∧ c ≤ 84) : ball r c = some (bandBall 32 r (85 - c) .cipher [10, 11]) := by
  have hball := hasBall_of_middle hrow (c := c) (by omega)
  rw [ball, hball, if_neg (by simp), if_neg (by omega), if_neg (by omega), if_neg (by omega), if_pos (by omega)]

end

/-- The balls between the bands carry no line lane. -/
theorem innerBall_isLine (r c : Nat) : (if c ≤ 24 then (if r ≤ 42 then ddrBall 0 (r - 7) (c - 13) else ddrBall 1 (r - 43) (c - 13))
    else if 61 ≤ c then (if r ≤ 42 then ddrBall 2 (r - 7) (c - 61) else ddrBall 3 (r - 43) (c - 61))
    else if (r + c) % 2 = 0 then .vss else .rail (if c ≤ 30 || 55 ≤ c then .sram else .core)).isLine = false :=
  have hpair := fun (i j r k : Nat) => Ball.isLine_ite (p := r ≤ 42) (ddrBall_isLine i (r - 7) k) (ddrBall_isLine j (r - 43) k)
  Ball.isLine_ite (hpair 0 1 r (c - 13)) (Ball.isLine_ite (hpair 2 3 r (c - 61)) (Ball.isLine_ite rfl rfl))

/-- A lane's pin lies in the left or the right band. -/
theorem band_of_ball {r c n : Nat} {pin : LanePin} (h : ball r c = some (.line n pin)) :
    (c ≤ 12 ∧ bandBall 0 r c .clear [10, 11] = .line n pin) ∨ (73 ≤ c ∧ bandBall 32 r (85 - c) .cipher [10, 11] = .line n pin) := by
  have hball : hasBall r c = true := by
    rw [← Bool.not_eq_false, ← ball_eq_none_iff, h]
    simp
  rw [ball, hball, if_neg (by simp)] at h
  have hb := Option.some.inj h
  by_cases htop : r ≤ 6
  · rw [if_pos htop] at hb
    exact absurd hb (Ball.ne_line_of_isLine (topBall_isLine r c) n pin)
  by_cases hbottom : 79 ≤ r
  · rw [if_neg htop, if_pos hbottom] at hb
    exact absurd hb (Ball.ne_line_of_isLine (bottomBall_isLine r c) n pin)
  rw [if_neg htop, if_neg hbottom] at hb
  by_cases hleft : c ≤ 12
  · exact .inl ⟨hleft, by rwa [if_pos hleft] at hb⟩
  by_cases hright : 73 ≤ c
  · exact .inr ⟨hright, by rwa [if_neg hleft, if_pos hright] at hb⟩
  · rw [if_neg hleft, if_neg hright] at hb
    exact absurd hb (Ball.ne_line_of_isLine (innerBall_isLine r c) n pin)

theorem place_of_ball {r c n : Nat} {pin : LanePin} (h : ball r c = some (.line n pin)) : r = 10 + 2 * (n % 32) ∧ (n < 32 ↔ c ≤ 12) ∧ n < 64 := by
  obtain ⟨hc, hb⟩ | ⟨hc, hb⟩ := band_of_ball h
  · obtain ⟨hlow, hhigh, heven, hn⟩ := row_of_bandBall hb
    omega
  · obtain ⟨hlow, hhigh, heven, hn⟩ := row_of_bandBall hb
    omega

/-- Lane `n` of either band, at each of its four pins. -/
theorem ball_of_lane {n : Nat} (hn : n < 32) {x : Nat × LanePin} (hx : x ∈ lanePins) :
    ball (10 + 2 * n) x.1 = some (.line n x.2) ∧ ball (10 + 2 * n) (85 - x.1) = some (.line (32 + n) x.2) := by
  have hrow : 7 ≤ 10 + 2 * n ∧ 10 + 2 * n ≤ 78 := by omega
  have hcol : 1 ≤ x.1 ∧ x.1 ≤ 12 := (by decide : ∀ x ∈ lanePins, 1 ≤ x.1 ∧ x.1 ≤ 12) x hx
  constructor
  · rw [ball_of_left hrow hcol, bandBall_of_lane hn .clear hx, Nat.zero_add]
  · rw [ball_of_right hrow (by omega), Nat.sub_sub_self (by omega), bandBall_of_lane hn .cipher hx]

/-! ### IDCODE (17 R463) -/

theorem idcode_fields : idcode / 2 ^ 12 % 2 ^ 16 = 0x6400 ∧ idcode % 2 = 1 := by
  simp only [idcode]
  generalize (match Config.revision with | .a0 => 0 | .a1 => 1 | .b0 => 2 : Nat) = revision
  omega

/-- Settles O50: each operation of the flash and of a board port is the case of its row that the block's state names; a clear reaches every counter of
its fold; a selection in range is its own field of the value written; and a lane's ball lies in one of the two bands, by the row. -/
theorem unitsAndSnapshots : Obligations.UnitsAndSnapshots := by
  unfold Obligations.UnitsAndSnapshots
  refine ⟨fun s hp => ⟨?flashTask, ?flashStart, ?flashIdle, fun a n => ⟨?flashRead, ?flashProgram, fun hop => ⟨?flashErase, ?flashFailed⟩⟩,
      fun i => ⟨?i3cAbsent, fun v hv hi hopen => ⟨?i3cRefused, ?i3cStart⟩, fun nack err data => ⟨?i3cIdle, ?i3cDone⟩, ?i3cIbi⟩⟩,
    fun s hp hopen => ⟨?freeze, ?clear, ?clearOne, fun slot hslot => ⟨?statsel, ?recsel⟩, ?chnsel, ?kek, ?lpk⟩,
    fun n hn x hx => ball_of_lane hn hx, fun r c n pin h => place_of_ball h,
    fun r c => (ball_eq_none_iff r c).trans (hasBall_eq_false_iff r c), idcode_fields⟩
  case flashTask =>
    intro r hopen ht x hx
    obtain ⟨op, hreq⟩ := flsRequests_of_mem hx
    exact hreq.runs_of_task hp hopen ht
  case flashStart =>
    intro r hopen ht x hx
    have hreq := flsRequests_mem hx
    exact ⟨fun h => hreq.runs_of_super hp hopen ht (flsStart_of_accepted h), fun h => hreq.runs_of_super hp hopen ht (flsStart_of_refused h)⟩
  case flashIdle => exact fun h ok => runs_of hp rfl (doFlsDone_of_idle h ok)
  case flashRead => exact fun h ok => runs_of hp rfl (doFlsDone_of_read h ok)
  case flashProgram => exact fun h => ⟨doFlsDone true s.dev, runs_of hp rfl rfl, doFlsDone_of_program h⟩
  case flashErase => exact fun k hk => ⟨doFlsDone true s.dev, runs_of hp rfl rfl, flashByte_doFlsDone_erase hop hk⟩
  case flashFailed => exact runs_of hp rfl (doFlsDone_of_erase_failed hop)
  case i3cAbsent => exact fun v hi hopen => runs_doneReg_of_open hp hopen rfl (i3cCmdWrite_of_absent hi)
  case i3cRefused => exact fun h => runs_doneReg_of_open hp hopen rfl (i3cCmdWrite_of_refused hi h)
  case i3cStart => exact fun hidle hen hread hplain => runs_doneReg_of_open hp hopen rfl (i3cCmdWrite_of_read hv hi hidle hen hread hplain)
  case i3cIdle => exact fun h => ⟨doI3cDone i nack err data s.dev, runs_of hp rfl rfl, getI3c_doI3cDone_of_idle h nack err data⟩
  case i3cDone =>
    rintro hbusy hread rfl
    exact runs_of hp rfl (doI3cDone_of_read hbusy hread err data)
  case i3cIbi => exact fun addr data ha hd hen hnone => runs_of hp rfl (doI3cIbi_of_enabled ha hd hen hnone)
  case freeze => exact fun on => runs_doneReg_of_open hp hopen (exec_prfFreeze on s) rfl
  case clear => exact ⟨prfClearAll s.dev, runs_doneReg_of_open hp hopen rfl rfl, prfClearAll_eq s.dev, fun i hi => prfClearAll_cleared hi s.dev⟩
  case clearOne => exact fun i hi => ⟨_, runs_doneReg_of_open hp hopen rfl (prfClrOne_of_lt hi s.dev), rfl, by simp, by simp⟩
  case statsel => exact runs_doneReg_of_open hp hopen rfl (statselWrite_of_lt hslot)
  case recsel => exact runs_doneReg_of_open hp hopen rfl (recselWrite_of_lt hslot)
  case chnsel => exact fun c hc => runs_doneReg_of_open hp hopen rfl (chnselWrite_of_lt hc)
  case kek => exact fun n hn => runs_doneReg_of_open hp hopen rfl (slotselWrite_of_kek hn)
  case lpk => exact fun n hn => runs_doneReg_of_open hp hopen rfl (slotselWrite_of_lpk hn)

end Sys2Proof.Machine
